-- ==== Sys2Proof/Word.lean ====
section
/-! DEFINITION. The widths the spec uses (chapter 02, R3: values are little-endian, a byte is 8 bits)
and the plainest arithmetic over them. -/
namespace Sys2Proof

/-- A byte of memory or of a scratchpad. -/
abbrev Byte := BitVec 8
/-- A 16-bit instruction parcel (R49). -/
abbrev Parcel := BitVec 16
/-- The data bits of a lane (R113). -/
abbrev W32 := BitVec 32
/-- A scalar register, a mask register, an address (R113). -/
abbrev W64 := BitVec 64

/-- The `n` bits of `w` that start at bit `lo`. -/
def fld (n w lo : Nat) : BitVec n := BitVec.ofNat n (w / 2 ^ lo)

/-- Bit `lo` of `w`. -/
def bitAt (w lo : Nat) : Bool := decide (w / 2 ^ lo % 2 = 1)

/-- The `n` bits of `w` from bit `lo` are all 0. -/
def zeroAt (w lo n : Nat) : Bool := decide (w / 2 ^ lo % 2 ^ n = 0)

/-- A Boolean as the number 0 or 1. -/
def b2n (b : Bool) : Nat := if b then 1 else 0

/-- The bits `hi..lo` of a value, as a number. -/
def bitsOf {n : Nat} (x : BitVec n) (hi lo : Nat) : Nat := x.toNat / 2 ^ lo % 2 ^ (hi + 1 - lo)

/-- Two's-complement reading of the low `n` bits of `v`. -/
def sextNat (n v : Nat) : Int :=
  let u := v % 2 ^ n
  if u < 2 ^ (n - 1) then (u : Int) else (u : Int) - 2 ^ n

end Sys2Proof
end

