-- ==== Sys2Proof/Machine/Bits.lean ====
section
/-! DEFINITION. Lists by index, lane masks, and the sparse byte stores that memory and scratchpads are
(chapter 02, R3: little-endian; R71 for masks). -/
namespace Sys2Proof.Machine

/-- Applies `f` to each element with its index, counted from `k`. -/
def mapFrom {α β : Type} (f : Nat → α → β) : Nat → List α → List β
  | _, [] => []
  | k, a :: r => f k a :: mapFrom f (k + 1) r

/-- Changes element `i` of a list by `f`; nothing where there is none. -/
def modAt {α : Type} : List α → Nat → (α → α) → List α
  | [], _, _ => []
  | a :: r, 0, f => f a :: r
  | a :: r, i + 1, f => a :: modAt r i f

/-- The numbers of the lanes of a mask, ascending. -/
def lanesOf (m : W64) : List Nat := (List.range 64).filter (fun i => m.getLsbD i)

/-- The lowest lane of a mask. -/
def lowLane (m : W64) : Option Nat := (lanesOf m).head?

/-- The mask of the lanes that satisfy `p`. -/
def maskOf (p : Nat → Bool) : W64 :=
  BitVec.ofNat 64 ((List.range 64).foldl (fun acc i => if p i then acc + 2 ^ i else acc) 0)

/-- The number of lanes of a mask. -/
def popMask (m : W64) : Nat := (lanesOf m).length

/-- A byte or bit store: entries in strictly rising key order, none equal to 0, which an unlisted key reads as. -/
abbrev Sparse (n : Nat) := List (Nat × BitVec n)

/-- The value at a key. -/
def Sparse.get {n : Nat} : Sparse n → Nat → BitVec n
  | [], _ => 0
  | (k, v) :: r, a => if a = k then v else if a < k then 0 else Sparse.get r a

/-- Writes a value at a key; writing 0 removes the entry. -/
def Sparse.set {n : Nat} : Sparse n → Nat → BitVec n → Sparse n
  | [], a, v => if v = 0 then [] else [(a, v)]
  | (k, x) :: r, a, v =>
    if a < k then (if v = 0 then (k, x) :: r else (a, v) :: (k, x) :: r)
    else if a = k then (if v = 0 then r else (a, v) :: r)
    else (k, x) :: Sparse.set r a v

/-- Every key is above `lo`, keys rise strictly, and no entry is 0. -/
def Sparse.wfFrom {n : Nat} : Nat → Sparse n → Bool
  | _, [] => true
  | lo, (k, v) :: r => decide (lo ≤ k) && decide (v ≠ 0) && Sparse.wfFrom (k + 1) r

/-- The canonical form: equal stores are equal lists. -/
def Sparse.wf {n : Nat} (m : Sparse n) : Bool := Sparse.wfFrom 0 m

/-- The `n` bytes at `a`, little-endian, as a number. -/
def rdBytes (m : Sparse 8) (a : Nat) : Nat → Nat
  | 0 => 0
  | n + 1 => (m.get a).toNat + 256 * rdBytes m (a + 1) n

/-- Writes the low `n` bytes of `v` at `a`, little-endian. -/
def wrBytes (m : Sparse 8) (a : Nat) : Nat → Nat → Sparse 8
  | 0, _ => m
  | n + 1, v => wrBytes (m.set a (BitVec.ofNat 8 v)) (a + 1) n (v / 256)

/-- The bytes at `a` as a list. -/
def rdList (m : Sparse 8) (a : Nat) : Nat → List Byte
  | 0 => []
  | n + 1 => m.get a :: rdList m (a + 1) n

/-- Writes a list of bytes at `a`. -/
def wrList (m : Sparse 8) (a : Nat) : List Byte → Sparse 8
  | [] => m
  | b :: r => wrList (m.set a b) (a + 1) r

/-- A list of bytes as a little-endian number. -/
def leNat : List Byte → Nat
  | [] => 0
  | b :: r => b.toNat + 256 * leNat r

/-- The low `n` bytes of a number, lowest first. -/
def natLe : Nat → Nat → List Byte
  | 0, _ => []
  | n + 1, v => BitVec.ofNat 8 v :: natLe n (v / 256)

/-- The bits `hi..lo` of a number. -/
def bits (v hi lo : Nat) : Nat := v / 2 ^ lo % 2 ^ (hi + 1 - lo)

/-- `v` with its bits `hi..lo` replaced by `x`. -/
def setBits (v hi lo x : Nat) : Nat :=
  v - bits v hi lo * 2 ^ lo + (x % 2 ^ (hi + 1 - lo)) * 2 ^ lo

/-- An integer modulo 2^64. -/
def w64 (x : Int) : W64 := BitVec.ofInt 64 x

/-- The largest power-of-two multiple at or below `a`. -/
def alignDown (a n : Nat) : Nat := a / n * n

/-- The smallest multiple of `n` at or above `a`. -/
def alignUp (a n : Nat) : Nat := (a + n - 1) / n * n

/-- The position of the highest set bit of `v` among its low `fuel` bits, plus one; 0 for 0. -/
def bitLen : Nat → Nat → Nat
  | 0, _ => 0
  | fuel + 1, v => if v = 0 then 0 else 1 + bitLen fuel (v / 2)

end Sys2Proof.Machine
end

