-- ==== Sys2Proof/Machine/Num.lean ====
section
/-! DEFINITION. Number formats, exact values, rounding to a grid, final rounding and carried values
(chapter 02, R20 to R47), and the FP32 operations built on them (R145 to R149). A finite value is exact:
a sign, a natural significand and a power of two. -/
namespace Sys2Proof.Machine

/-- An exact value of a floating-point or integer datum. -/
inductive Ext where
  | nan
  | inf (neg : Bool)
  | fin (neg : Bool) (m : Nat) (e : Int)
  deriving DecidableEq, Repr

/-- 2^k for an exponent that is not negative; 1 otherwise. -/
def pow2 (k : Int) : Nat := 2 ^ k.toNat

/-- Precision of a format (R25, R27). -/
def fmtP (f : Nat) : Int :=
  match f with
  | 0 => 24 | 1 => 8 | 2 => 11 | 3 => 4 | 4 => 3 | 5 => 3 | 6 => 4 | 7 => 2 | 12 => 1 | 13 => 4 | _ => 1

/-- Exponent of the smallest normal value (R25, R27). -/
def fmtEmin (f : Nat) : Int :=
  match f with
  | 0 => -126 | 1 => -126 | 2 => -14 | 3 => -6 | 4 => -14 | 5 => -2 | 6 => 0 | 7 => 0 | 12 => -127 | 13 => -14
  | _ => 0

/-- Bias of a format (R25, R27). -/
def fmtBias (f : Nat) : Int :=
  match f with
  | 0 => 127 | 1 => 127 | 2 => 15 | 3 => 7 | 4 => 15 | 5 => 3 | 6 => 1 | 7 => 1 | 12 => 127 | 13 => 15 | _ => 0

/-- Width in bits (R23). -/
def fmtWidth (f : Nat) : Nat :=
  match f with
  | 0 => 32 | 1 => 16 | 2 => 16 | 3 => 8 | 4 => 8 | 5 => 6 | 6 => 6 | 7 => 4 | 8 => 8 | 9 => 8 | 10 => 16
  | 11 => 32 | 12 => 8 | 13 => 8 | _ => 32

/-- The integer formats (R29). -/
def fmtIsInt (f : Nat) : Bool := decide (8 ≤ f ∧ f ≤ 11)

/-- The formats whose encodings include infinity (R32). -/
def fmtHasInf (f : Nat) : Bool := decide (f = 0 ∨ f = 1 ∨ f = 2 ∨ f = 4)

/-- Mantissa field width. -/
def fmtMant (f : Nat) : Nat := (fmtP f - 1).toNat

/-- The encoding of the largest finite value, without its sign (R25, R27, R29). -/
def fmtLargestCode (f : Nat) : Nat :=
  match f with
  | 0 => 0x7F7FFFFF | 1 => 0x7F7F | 2 => 0x7BFF | 3 => 0x7E | 4 => 0x7B | 5 => 0x1F | 6 => 0x1F | 7 => 0x7
  | 8 => 127 | 9 => 255 | 10 => 32767 | 11 => 0x7FFFFFFF | 12 => 0xFE | 13 => 0x7E | _ => 0

/-- The encoding of infinity, without its sign. -/
def fmtInfCode (f : Nat) : Nat :=
  match f with
  | 0 => 0x7F800000 | 1 => 0x7F80 | 2 => 0x7C00 | 4 => 0x7C | _ => 0

/-- NAN_OUT (R28, R33). -/
def nanOut (f : Nat) : Nat :=
  match f with
  | 0 => 0x7FC00000 | 1 => 0x7FC0 | 2 => 0x7E00 | 3 => 0x7F | 4 => 0x7F | 12 => 0xFF | 13 => 0x7F | _ => 0

/-- The sign bit of a format that has one. -/
def fmtSign (f : Nat) (neg : Bool) : Nat :=
  if neg && !(fmtIsInt f) && !(decide (f = 12 ∨ f = 13)) then 2 ^ (fmtWidth f - 1) else 0

/-- NEG_OUT (R33). -/
def negOut (f : Nat) : Nat :=
  match f with
  | 12 => 0xFF | 13 => 0x7F | _ => 0

/-- OVF_OUT (R33): overflow of the given sign under a mode. -/
def ovfOut (f : Nat) (neg : Bool) (mode : Nat) : Nat :=
  if fmtHasInf f then
    let toInf : Bool :=
      match mode with
      | 0 => true | 4 => true | 2 => !neg | 3 => neg | _ => false
    fmtSign f neg + (if toInf then fmtInfCode f else fmtLargestCode f)
  else if fmtIsInt f then
    (if neg then (if f = 9 then 0 else 2 ^ (fmtWidth f - 1)) else fmtLargestCode f)
  else fmtSign f neg + fmtLargestCode f

/-- ZERO_OUT (R32). -/
def zeroOut (f : Nat) (neg : Bool) : Nat := fmtSign f neg

/-- floor(log2 |v|) of a nonzero finite value. -/
def expOf (m : Nat) (e : Int) : Int := (Nat.log2 m : Int) + e

/-- The exponent of ulp(fmt, y) (R31). -/
def ulpExp (f m : Nat) (e : Int) : Int :=
  if fmtIsInt f then 0 else max (if m = 0 then fmtEmin f else expOf m e) (fmtEmin f) - fmtP f + 1

/-- The number of quanta 2^k that round_q gives for the magnitude m * 2^e (R31). -/
def roundQ (neg : Bool) (m : Nat) (e k : Int) (mode : Nat) : Nat :=
  if k ≤ e then m * pow2 (e - k)
  else
    let d := pow2 (k - e)
    let n := m / d
    let r := m % d
    let up : Bool :=
      match mode with
      | 0 => decide (d < 2 * r) || (decide (2 * r = d) && decide (n % 2 = 1))
      | 4 => decide (d ≤ 2 * r)
      | 2 => decide (0 < r) && !neg
      | 3 => decide (0 < r) && neg
      | 5 => decide (0 < r) && decide (n % 2 = 0)
      | _ => false
    if up then n + 1 else n

/-- The exponent of lowbit of a nonzero value (R31). -/
def lowbitExp (m : Nat) (e : Int) : Int := e + (Nat.log2 (m ^^^ (m - 1)) : Int)

/-- The encoding of an exactly representable nonzero magnitude n * 2^k in a float or scale format. -/
def encodeFloat (f : Nat) (neg : Bool) (n : Nat) (k : Int) : Nat :=
  let x := expOf n k
  if f = 12 then (x + 127).toNat
  else
    let lsb := max x (fmtEmin f) - fmtP f + 1
    let sig := if lsb ≤ k then n * pow2 (k - lsb) else n / pow2 (lsb - k)
    fmtSign f neg + (if x < fmtEmin f then sig
      else (x + fmtBias f).toNat * 2 ^ fmtMant f + (sig - 2 ^ fmtMant f))

/-- The magnitude of the largest finite value as a significand and a power of two (R25). -/
def fmtLargest (f : Nat) : Nat × Int :=
  match f with
  | 0 => (2 ^ 24 - 1, 104) | 1 => (2 ^ 8 - 1, 120) | 2 => (2047, 5) | 3 => (7, 6) | 4 => (7, 13) | 5 => (7, 2)
  | 6 => (15, -1) | 7 => (3, 1) | 12 => (1, 127) | 13 => (7, -2) | _ => (fmtLargestCode f, 0)

/-- n * 2^k is above m * 2^e. -/
def dyGt (n : Nat) (k : Int) (m : Nat) (e : Int) : Bool :=
  if e ≤ k then decide (m < n * pow2 (k - e)) else decide (m * pow2 (e - k) < n)

/-- The exact value of a code of a format (R25 to R29). -/
def decodeFmt (f c : Nat) : Ext :=
  if fmtIsInt f then
    let w := fmtWidth f
    let u := c % 2 ^ w
    if f ≠ 9 ∧ 2 ^ (w - 1) ≤ u then .fin true (2 ^ w - u) 0 else .fin false u 0
  else if f = 12 then (if c % 256 = 255 then .nan else .fin false 1 ((c % 256 : Nat) - 127))
  else if f = 13 then
    let b := c % 256
    if b = 0x7F ∨ 128 ≤ b then .nan
    else if b / 8 = 0 then .fin false (b % 8) (-17)
    else .fin false (8 + b % 8) ((b / 8 : Nat) - 18)
  else
    let w := fmtWidth f
    let mb := fmtMant f
    let u := c % 2 ^ w
    let neg := decide (2 ^ (w - 1) ≤ u)
    let a := u % 2 ^ (w - 1)
    let ex := a / 2 ^ mb
    let mant := a % 2 ^ mb
    if fmtHasInf f ∧ ex = 2 ^ (w - 1 - mb) - 1 then (if mant = 0 then .inf neg else .nan)
    else if f = 3 ∧ a = 0x7F then .nan
    else if ex = 0 then .fin neg mant (fmtEmin f - fmtP f + 1)
    else .fin neg (2 ^ mb + mant) ((ex : Int) - fmtBias f - fmtP f + 1)

/-- final_round of an exact value with its sticky bit to a format (R32, R33); the result is the code. -/
def finalRound (v : Ext) (s : Bool) (f mode : Nat) : Nat :=
  match v with
  | .nan => nanOut f
  | .inf neg =>
    if neg && decide (f = 13 ∨ f = 12 ∨ f = 9) then negOut f
    else if fmtHasInf f then fmtSign f neg + fmtInfCode f else ovfOut f neg mode
  | .fin neg m e =>
    if m = 0 then zeroOut f neg
    else if neg && decide (f = 13 ∨ f = 12 ∨ f = 9) then negOut f
    else
      let q := ulpExp f m e
      let q := if s then max q (lowbitExp m e + 2) else q
      let n := roundQ neg m e q mode
      if n = 0 then zeroOut f neg
      else if fmtIsInt f then
        let r := n * pow2 q
        if neg then (if 2 ^ (fmtWidth f - 1) < r then ovfOut f neg mode else 2 ^ fmtWidth f - r)
        else if fmtLargestCode f < r then ovfOut f neg mode else r
      else if dyGt n q (fmtLargest f).1 (fmtLargest f).2 then ovfOut f neg mode
      else encodeFloat f neg n q

/-- carry (R34): the carried value's exact value and its sticky bit. -/
def carry (v : Ext) (s : Bool) (f : Nat) : Ext × Bool :=
  match v with
  | .nan => (.nan, false)
  | .inf neg => (.inf neg, false)
  | .fin neg m e =>
    if m = 0 then (.fin neg 0 0, false)
    else
      let q := ulpExp f m e
      let q := if s then max q (lowbitExp m e + 2) else q
      let n := roundQ neg m e (q - 2) 5
      let same := !(dyGt n (q - 2) m e) && !(dyGt m e n (q - 2))
      (.fin neg n (q - 2), s || !same)

/-- The FP32 value of a data word. -/
def f32 (x : W32) : Ext := decodeFmt 0 x.toNat

/-- An FP32 word from a code. -/
def w32 (n : Nat) : W32 := BitVec.ofNat 32 n

/-- The canonical FP32 NaN (R28). -/
def nan32 : W32 := 0x7FC00000

/-- An exact value rounded once to FP32 under a mode; a zero keeps its sign. -/
def round32 (v : Ext) (mode : Nat) : W32 := w32 (finalRound v false 0 mode)

/-- An exactly representable value as an FP32 word. -/
def exact32 (v : Ext) : W32 := round32 v 1

/-- The read of an operand by arithmetic (R37): final_round(x, FP32, mode). -/
def read32 (x : W32) (s : Bool) (mode : Nat) : W32 := w32 (finalRound (f32 x) s 0 mode)

/-- An FP32 subnormal (R43). -/
def isSub32 (x : W32) : Bool := decide (x.toNat / 2 ^ 23 % 256 = 0 ∧ x.toNat % 2 ^ 23 ≠ 0)

/-- Zero of the operand's sign where the operand is an FP32 subnormal and the flush bit is set (R42, R43). -/
def flush32 (on : Bool) (x : W32) : W32 := if on && isSub32 x then w32 (x.toNat / 2 ^ 31 * 2 ^ 31) else x

/-- The sign bit. -/
def sign32 (x : W32) : Bool := x.getLsbD 31

/-- A NaN encoding. -/
def isNan32 (x : W32) : Bool := decide (x.toNat / 2 ^ 23 % 256 = 255 ∧ x.toNat % 2 ^ 23 ≠ 0)

/-- A negated exact value. -/
def Ext.negate : Ext → Ext
  | .nan => .nan
  | .inf n => .inf (!n)
  | .fin n m e => .fin (!n) m e

/-- The exact product; 0 times infinity is NaN (R145). -/
def Ext.mul : Ext → Ext → Ext
  | .nan, _ => .nan
  | _, .nan => .nan
  | .inf a, .inf b => .inf (a != b)
  | .inf a, .fin b m _ => if m = 0 then .nan else .inf (a != b)
  | .fin a m _, .inf b => if m = 0 then .nan else .inf (a != b)
  | .fin a m e, .fin b n k => .fin (a != b) (m * n) (e + k)

/-- The exact sum under the zero-sign rule of R145: two zeros of one sign give that zero, any other zero sum
is -0 under RDN and +0 otherwise. -/
def Ext.add (mode : Nat) : Ext → Ext → Ext
  | .nan, _ => .nan
  | _, .nan => .nan
  | .inf a, .inf b => if a = b then .inf a else .nan
  | .inf a, .fin _ _ _ => .inf a
  | .fin _ _ _, .inf b => .inf b
  | .fin a m e, .fin b n k =>
    if m = 0 ∧ n = 0 ∧ a = b then .fin a 0 0
    else
      let lo := min e k
      let x : Int := (m * pow2 (e - lo) : Nat)
      let y : Int := (n * pow2 (k - lo) : Nat)
      let z := (if a then -x else x) + (if b then -y else y)
      if z = 0 then .fin (decide (mode = 3)) 0 0 else .fin (decide (z < 0)) z.natAbs lo

/-- FP32 addition of words already read (R145). -/
def fadd32 (mode : Nat) (a b : W32) : W32 := round32 (Ext.add mode (f32 a) (f32 b)) mode
/-- FP32 subtraction: the second operand counts with its sign inverted (R145). -/
def fsub32 (mode : Nat) (a b : W32) : W32 := round32 (Ext.add mode (f32 a) (f32 b).negate) mode
/-- FP32 product (R145). -/
def fmul32 (mode : Nat) (a b : W32) : W32 := round32 ((f32 a).mul (f32 b)) mode
/-- FP32 multiply-add with one rounding (R145). -/
def ffma32 (mode : Nat) (a b c : W32) : W32 := round32 (Ext.add mode ((f32 a).mul (f32 b)) (f32 c)) mode

/-- A quotient of naturals truncated to 2^k quanta with a sticky last bit: enough for any rounding (R31). -/
def divSticky (m n : Nat) : Nat × Int :=
  let sh := Nat.log2 n + 40
  let q := m * 2 ^ sh / n
  (2 * q + (if m * 2 ^ sh % n = 0 then 0 else 1), -(sh : Int) - 1)

/-- FP32 quotient (R149). -/
def fdiv32 (mode : Nat) (a b : W32) : W32 :=
  match f32 a, f32 b with
  | .nan, _ => nan32
  | _, .nan => nan32
  | .inf _, .inf _ => nan32
  | .inf x, .fin y _ _ => round32 (.inf (x != y)) mode
  | .fin x _ _, .inf y => round32 (.fin (x != y) 0 0) mode
  | .fin x m e, .fin y n k =>
    if n = 0 then (if m = 0 then nan32 else round32 (.inf (x != y)) mode)
    else if m = 0 then round32 (.fin (x != y) 0 0) mode
    else
      let (q, z) := divSticky m n
      round32 (.fin (x != y) q (z + e - k)) mode

/-- The integer square root by bits, from bit `fuel - 1` down. -/
def isqrtFrom (v : Nat) : Nat → Nat → Nat
  | 0, r => r
  | fuel + 1, r => isqrtFrom v fuel (if (r + 2 ^ fuel) * (r + 2 ^ fuel) ≤ v then r + 2 ^ fuel else r)

/-- floor of the square root of `v`, for v below 2^(2 * 120). -/
def isqrt (v : Nat) : Nat := isqrtFrom v 120 0

/-- The square root of m * 2^e with a sticky last bit. -/
def sqrtSticky (m : Nat) (e : Int) : Nat × Int :=
  let m2 := if e % 2 = 0 then m else 2 * m
  let e2 := if e % 2 = 0 then e else e - 1
  let r := isqrt (m2 * 2 ^ 80)
  (2 * r + (if r * r = m2 * 2 ^ 80 then 0 else 1), e2 / 2 - 41)

/-- 1 divided by the square root of m * 2^e, with a sticky last bit. -/
def rsqSticky (m : Nat) (e : Int) : Nat × Int :=
  let m2 := if e % 2 = 0 then m else 2 * m
  let e2 := if e % 2 = 0 then e else e - 1
  let r := isqrt (2 ^ 160 / m2)
  (2 * r + (if r * r * m2 = 2 ^ 160 then 0 else 1), -(e2 / 2) - 81)

/-- RCP (R148). -/
def rcp32 (mode : Nat) (a : W32) : W32 := fdiv32 mode 0x3F800000 a

/-- SQRT (R148). -/
def sqrt32 (mode : Nat) (a : W32) : W32 :=
  match f32 a with
  | .nan => nan32
  | .inf n => if n then nan32 else 0x7F800000
  | .fin n m e =>
    if m = 0 then round32 (.fin n 0 0) mode
    else if n then nan32
    else let (r, k) := sqrtSticky m e; round32 (.fin false r k) mode

/-- RSQ (R148). -/
def rsq32 (mode : Nat) (a : W32) : W32 :=
  match f32 a with
  | .nan => nan32
  | .inf n => if n then nan32 else 0
  | .fin n m e =>
    if m = 0 then round32 (.inf n) mode
    else if n then nan32
    else let (r, k) := rsqSticky m e; round32 (.fin false r k) mode

/-- The order key of a word that is no NaN, -0 below +0 (R145). -/
def ordKey (x : W32) : Int := if sign32 x then -(x.toNat - 2 ^ 31 : Int) - 1 else x.toNat

/-- FMIN and FMAX of words as read (R145): `nanWins` is the T = 1 form. -/
def fminmax32 (isMax nanWins : Bool) (a b : W32) : W32 :=
  if isNan32 a ∧ isNan32 b then nan32
  else if isNan32 a then (if nanWins then nan32 else b)
  else if isNan32 b then (if nanWins then nan32 else a)
  else if isMax then (if ordKey a < ordKey b then b else a)
  else (if ordKey b < ordKey a then b else a)

/-- The magnitude of a word; a NaN gives the canonical NaN (R147). -/
def fabs32 (x : W32) : W32 := if isNan32 x then nan32 else w32 (x.toNat % 2 ^ 31)

/-- FAMAX of R158: the larger magnitude, a NaN yields to a number. -/
def famax32 (a b : W32) : W32 := fminmax32 true false (fabs32 a) (fabs32 b)

/-- The sign-inverted word; a NaN gives the canonical NaN (R147). -/
def fneg32 (x : W32) : W32 := if isNan32 x then nan32 else x ^^^ 0x80000000

/-- FCPYS: the magnitude of `a` with the sign bit of `b`; a NaN `a` gives the canonical NaN (R147). -/
def fcpys32 (a b : W32) : W32 :=
  if isNan32 a then nan32 else w32 (a.toNat % 2 ^ 31 + (if sign32 b then 2 ^ 31 else 0))

/-- FRINT: rounded to an integral FP32 value, a zero result keeps the sign (R147). -/
def frint32 (mode : Nat) (a : W32) : W32 :=
  match f32 a with
  | .nan => nan32
  | .inf n => round32 (.inf n) mode
  | .fin n m e => round32 (.fin n (roundQ n m e 0 mode) 0) mode

/-- The value of an FP32 word compared (R146): equal, less, or unordered as none. -/
def fcmpLt (a b : W32) : Bool :=
  if isNan32 a || isNan32 b then false
  else if a.toNat % 2 ^ 31 = 0 ∧ b.toNat % 2 ^ 31 = 0 then false else decide (ordKey a < ordKey b)

/-- Equal values; -0 equals +0 (R146). -/
def fcmpEq (a b : W32) : Bool :=
  if isNan32 a || isNan32 b then false
  else decide (a = b) || (decide (a.toNat % 2 ^ 31 = 0) && decide (b.toNat % 2 ^ 31 = 0))

/-- The eight conditions of FCMP (R138, R146). -/
def fcmp32 (cc : Nat) (a b : W32) : Bool :=
  match cc with
  | 0 => fcmpEq a b
  | 1 => !(fcmpEq a b)
  | 2 => fcmpLt a b
  | 3 => fcmpLt a b || fcmpEq a b
  | 4 => fcmpLt b a
  | 5 => fcmpLt b a || fcmpEq a b
  | 6 => isNan32 a || isNan32 b
  | _ => !(isNan32 a || isNan32 b)

/-- A signed integer as an exact value. -/
def extOfInt (x : Int) : Ext := .fin (decide (x < 0)) x.natAbs 0

end Sys2Proof.Machine
end

