-- ==== Sys2Proof/Syntax.lean ====
section
/-! DEFINITION. The instructions of the opcode table, one constructor per row: the instruction forms
carry their fields (chapter 03, R49 to R69), the rows that are steps of the package's own agents
(chapter 95) carry what tells one such step from another. -/
namespace Sys2Proof

/-- The fields of a PFX word (R55, R58, R59). -/
structure Pfx where
  imx : BitVec 10
  z : Bool
  vs3 : BitVec 7
  rm : BitVec 3
  mask : BitVec 3
  deriving DecidableEq, Repr

/-- A thread context that issues instructions: warp `warp` of the crew with index `crew` (R86), or the
sequencer context with index `id` (R266). -/
inductive ThreadRef where
  | warp (crew warp : Nat)
  | ctx (id : Nat)
  deriving DecidableEq, Repr

/-- The granules an error marks (R412), a 4-byte word of a last-level cache by a fourth of its key among them; `core` is a warp's
frontier, loop stack or CSR storage (R413). -/
inductive Granule where
  | lane (crew warp reg lane : Nat)
  | scalar (crew warp reg : Nat)
  | ctxScalar (ctx reg : Nat)
  | cacheWord (idx : Nat)
  | mask (crew warp reg : Nat)
  | scratch (crew word : Nat)
  | tile (crew word : Nat)
  | acc (crew acc elem : Nat)
  | tag (crew slot : Nat)
  | block (idx : Nat)
  | core (crew warp : Nat)
  deriving DecidableEq, Repr

/-- What a cold reset finds outside the package's own rules: fuses with their version counter, the map in the flash, the firmware image
with its public key, its manifest with the fields of R425 and the signature, good cores, training, start of firmware (R423 to R429). -/
structure BootInput where
  fuses : List Byte
  maps : List Byte
  image : List Byte
  manifest : List Byte
  version : Nat
  fused : Nat
  advance : Bool
  slot : Nat
  pub : List Byte
  sig : List Byte
  cores0 : Nat
  cores1 : Nat
  memOk : Bool
  bridgeOk : Bool
  heartbeat : Bool
  devid : BitVec 12
  deriving DecidableEq, Repr

/-- Operands: compact 16-bit form (R53). -/
structure OpC16 where
  vd : BitVec 5
  vs : BitVec 5
  deriving DecidableEq, Repr

/-- Operands: V3, two sources with their empty policies (R55). -/
structure OpV3 where
  vd : BitVec 7
  vs1 : BitVec 7
  vs2 : BitVec 7
  e1 : Bool
  e2 : Bool
  pfx : Option Pfx
  deriving DecidableEq, Repr

/-- Operands: V3 with one source. -/
structure OpV2 where
  vd : BitVec 7
  vs1 : BitVec 7
  e1 : Bool
  pfx : Option Pfx
  deriving DecidableEq, Repr

/-- Operands: MOV of R140: VS1 equals VD. -/
structure OpVMov where
  vd : BitVec 7
  vs2 : BitVec 7
  e2 : Bool
  pfx : Option Pfx
  deriving DecidableEq, Repr

/-- Operands: V3 with a destination only. -/
structure OpV1 where
  vd : BitVec 7
  pfx : Option Pfx
  deriving DecidableEq, Repr

/-- Operands: V3 compare: VD holds md and cc (R138). -/
structure OpVCmp where
  md : BitVec 3
  cc : BitVec 3
  vs1 : BitVec 7
  vs2 : BitVec 7
  e1 : Bool
  e2 : Bool
  pfx : Option Pfx
  deriving DecidableEq, Repr

/-- Operands: VI (R55). -/
structure OpVI where
  vd : BitVec 7
  vs1 : BitVec 7
  imm9 : BitVec 9
  e1 : Bool
  pfx : Option Pfx
  lim : Option (BitVec 24)
  deriving DecidableEq, Repr

/-- Operands: VI compare (R141). -/
structure OpVICmp where
  md : BitVec 3
  cc : BitVec 3
  vs1 : BitVec 7
  imm9 : BitVec 9
  e1 : Bool
  pfx : Option Pfx
  lim : Option (BitVec 24)
  deriving DecidableEq, Repr

/-- Operands: VI with no source. -/
structure OpVImm where
  vd : BitVec 7
  imm9 : BitVec 9
  pfx : Option Pfx
  lim : Option (BitVec 24)
  deriving DecidableEq, Repr

/-- Operands: CVT field group (R150). -/
structure OpVCvt where
  vd : BitVec 7
  vs1 : BitVec 7
  dfmt : BitVec 4
  e1 : Bool
  pfx : Option Pfx
  deriving DecidableEq, Repr

/-- Operands: PACK and UNPACK field group (R150). -/
structure OpVPack where
  vd : BitVec 7
  vs1 : BitVec 7
  fmt : BitVec 4
  idx : BitVec 3
  e1 : Bool
  pfx : Option Pfx
  deriving DecidableEq, Repr

/-- Operands: shuffle with an immediate (R156). -/
structure OpVShI where
  vd : BitVec 7
  vs1 : BitVec 7
  n : BitVec 7
  e1 : Bool
  pfx : Option Pfx
  deriving DecidableEq, Repr

/-- Operands: V3 with a scalar index (R157). -/
structure OpVSk where
  vd : BitVec 7
  vs1 : BitVec 7
  sk : BitVec 6
  e1 : Bool
  pfx : Option Pfx
  deriving DecidableEq, Repr

/-- Operands: V3 with an operator (R158). -/
structure OpVRed where
  vd : BitVec 7
  vs1 : BitVec 7
  op : BitVec 4
  e1 : Bool
  pfx : Option Pfx
  deriving DecidableEq, Repr

/-- Operands: SSCAN (R161). -/
structure OpVSsc where
  vd : BitVec 7
  vs1 : BitVec 7
  op : BitVec 4
  mh : BitVec 3
  e1 : Bool
  pfx : Option Pfx
  deriving DecidableEq, Repr

/-- Operands: REDW (R160). -/
structure OpVRedS where
  sd : BitVec 6
  vs1 : BitVec 7
  op : BitVec 4
  e1 : Bool
  pfx : Option Pfx
  deriving DecidableEq, Repr

/-- Operands: BALLOT to a scalar (R162). -/
structure OpVBal where
  sd : BitVec 6
  vs1 : BitVec 7
  n : BitVec 5
  e1 : Bool
  pfx : Option Pfx
  deriving DecidableEq, Repr

/-- Operands: BALLOT to a mask (R162). -/
structure OpVBalM where
  md : BitVec 3
  vs1 : BitVec 7
  n : BitVec 5
  e1 : Bool
  pfx : Option Pfx
  deriving DecidableEq, Repr

/-- Operands: mask logic, two sources (R129). -/
structure OpM3 where
  md : BitVec 3
  ma : BitVec 3
  mb : BitVec 3
  pfx : Option Pfx
  deriving DecidableEq, Repr

/-- Operands: mask logic, one source (R129). -/
structure OpM2 where
  md : BitVec 3
  ma : BitVec 3
  pfx : Option Pfx
  deriving DecidableEq, Repr

/-- Operands: MPOPC (R129). -/
structure OpMS where
  sd : BitVec 6
  ma : BitVec 3
  pfx : Option Pfx
  deriving DecidableEq, Repr

/-- Operands: VTOS from lane s[sk] (R130). -/
structure OpVSv where
  sd : BitVec 6
  vs1 : BitVec 7
  sk : BitVec 6
  e1 : Bool
  pfx : Option Pfx
  deriving DecidableEq, Repr

/-- Operands: VTOS from the first lane (R130). -/
structure OpVSf where
  sd : BitVec 6
  vs1 : BitVec 7
  e1 : Bool
  pfx : Option Pfx
  deriving DecidableEq, Repr

/-- Operands: STOV (R130). -/
structure OpVStov where
  vd : BitVec 7
  ss : BitVec 6
  pfx : Option Pfx
  deriving DecidableEq, Repr

/-- Operands: TSTF (R121). -/
structure OpVTst where
  md : BitVec 3
  vs1 : BitVec 7
  pfx : Option Pfx
  deriving DecidableEq, Repr

/-- Operands: S, three scalar operands (R55). -/
structure OpS3 where
  sd : BitVec 6
  ss1 : BitVec 6
  ss2 : BitVec 6
  w : Bool
  deriving DecidableEq, Repr

/-- Operands: S, one source. -/
structure OpS2 where
  sd : BitVec 6
  ss1 : BitVec 6
  w : Bool
  deriving DecidableEq, Repr

/-- Operands: SI (R55). -/
structure OpSI where
  sd : BitVec 6
  ss1 : BitVec 6
  imm12 : BitVec 12
  lim : Option (BitVec 24)
  deriving DecidableEq, Repr

/-- Operands: SI with no source. -/
structure OpSIm where
  sd : BitVec 6
  imm12 : BitVec 12
  lim : Option (BitVec 24)
  deriving DecidableEq, Repr

/-- Operands: CSRR (R70). -/
structure OpCsrr where
  sd : BitVec 6
  csr : BitVec 12
  deriving DecidableEq, Repr

/-- Operands: CSRW (R70). -/
structure OpCsrw where
  ss1 : BitVec 6
  csr : BitVec 12
  deriving DecidableEq, Repr

/-- Operands: CSRW of a CSR that its row names. -/
structure OpCsrW0 where
  ss1 : BitVec 6
  deriving DecidableEq, Repr

/-- Operands: CSRR of MXFAULT (lost = false) or MXGLOST (lost = true) (R253). -/
structure OpCsrMx where
  sd : BitVec 6
  lost : Bool
  deriving DecidableEq, Repr

/-- Operands: M with an optional index (R55). -/
structure OpM where
  vt : BitVec 7
  sb : BitVec 6
  vi : BitVec 7
  ix : Bool
  pfx : Option Pfx
  lim : Option (BitVec 24)
  deriving DecidableEq, Repr

/-- Operands: M with a swizzle code (R56). -/
structure OpMSwz where
  vt : BitVec 7
  sb : BitVec 6
  vi : BitVec 7
  swz : BitVec 3
  ix : Bool
  pfx : Option Pfx
  lim : Option (BitVec 24)
  deriving DecidableEq, Repr

/-- Operands: M with a scope (R56). -/
structure OpMSc where
  vt : BitVec 7
  sb : BitVec 6
  vi : BitVec 7
  sc : BitVec 2
  ix : Bool
  pfx : Option Pfx
  lim : Option (BitVec 24)
  deriving DecidableEq, Repr

/-- Operands: ATOM, index always added (R56). -/
structure OpMAt where
  vt : BitVec 7
  sb : BitVec 6
  vi : BitVec 7
  aop : BitVec 4
  pfx : Option Pfx
  lim : Option (BitVec 24)
  deriving DecidableEq, Repr

/-- Operands: PF (R207). -/
structure OpMPf where
  sb : BitVec 6
  vi : BitVec 7
  lvl : BitVec 2
  ix : Bool
  pfx : Option Pfx
  lim : Option (BitVec 24)
  deriving DecidableEq, Repr

/-- Operands: register image (R123). -/
structure OpMImg where
  vt : BitVec 7
  sb : BitVec 6
  lim : Option (BitVec 24)
  deriving DecidableEq, Repr

/-- Operands: SLD and SST (R199). -/
structure OpMSc1 where
  sd : BitVec 6
  sb : BitVec 6
  lim : Option (BitVec 24)
  deriving DecidableEq, Repr

/-- Operands: BR (R106). -/
structure OpBM where
  m : BitVec 3
  neg : Bool
  brk : Bool
  off : BitVec 16
  deriving DecidableEq, Repr

/-- Operands: BRS (R106). -/
structure OpBS where
  s : BitVec 6
  neg : Bool
  brk : Bool
  off : BitVec 16
  deriving DecidableEq, Repr

/-- Operands: CALL and LOOP (R106). -/
structure OpBC where
  s : BitVec 6
  off : BitVec 16
  deriving DecidableEq, Repr

/-- Operands: X, one operand. -/
structure OpX1 where
  a : BitVec 6
  deriving DecidableEq, Repr

/-- Operands: X, two operands. -/
structure OpX2 where
  a : BitVec 6
  b : BitVec 6
  deriving DecidableEq, Repr

/-- Operands: X, three operands. -/
structure OpX3 where
  a : BitVec 6
  b : BitVec 6
  c : BitVec 6
  deriving DecidableEq, Repr

/-- Operands: X, operand B alone. -/
structure OpXB where
  b : BitVec 6
  deriving DecidableEq, Repr

/-- Operands: PHASE scope. -/
structure OpXSc where
  sc : BitVec 2
  deriving DecidableEq, Repr

/-- Operands: tile transfers (R247). -/
structure OpXTd where
  td : BitVec 4
  b : BitVec 6
  c : BitVec 6
  deriving DecidableEq, Repr

/-- Operands: MMA group (R255). -/
structure OpXMma where
  acc : BitVec 3
  ra : Bool
  rb : Bool
  tda : BitVec 4
  tdb : BitVec 4
  deriving DecidableEq, Repr

/-- Operands: ACLR. -/
structure OpXAcc where
  acc : BitVec 3
  deriving DecidableEq, Repr

/-- Operands: ADRAIN to memory (R264). -/
structure OpXDr where
  acc : BitVec 3
  add : Bool
  sa : BitVec 6
  sc : BitVec 6
  deriving DecidableEq, Repr

/-- Operands: ADRAIN to registers (R264). -/
structure OpXDrV where
  acc : BitVec 3
  sc : BitVec 6
  deriving DecidableEq, Repr

/-- Operands: SHLD (R277). -/
structure OpXSh where
  sh : BitVec 4
  sa : BitVec 6
  deriving DecidableEq, Repr

/-- Operands: SHSET (R277). -/
structure OpXShs where
  sh : BitVec 4
  f : BitVec 4
  sv : BitVec 6
  deriving DecidableEq, Repr

/-- One constructor per row of the opcode table. -/
inductive Instr where
  | nop_16 (o : OpC16)
  | mov_16 (o : OpC16)
  | iaddI32_16 (o : OpC16)
  | isubI32_16 (o : OpC16)
  | and_16 (o : OpC16)
  | or_16 (o : OpC16)
  | xor_16 (o : OpC16)
  | shl_16 (o : OpC16)
  | shrUi32_16 (o : OpC16)
  | shrI32_16 (o : OpC16)
  | iminI32_16 (o : OpC16)
  | imaxI32_16 (o : OpC16)
  | faddF32_16 (o : OpC16)
  | fsubF32_16 (o : OpC16)
  | fmulF32_16 (o : OpC16)
  | fminF32_16 (o : OpC16)
  | fmaxF32_16 (o : OpC16)
  | iaddI32 (o : OpV3)
  | iaddI32Sat (o : OpV3)
  | isubI32 (o : OpV3)
  | isubI32Sat (o : OpV3)
  | imulI32 (o : OpV3)
  | imulhI32 (o : OpV3)
  | imadI32 (o : OpV3)
  | imadI32Vc (o : OpV3)
  | iminI32 (o : OpV3)
  | iminUi32 (o : OpV3)
  | imaxI32 (o : OpV3)
  | imaxUi32 (o : OpV3)
  | and (o : OpV3)
  | or (o : OpV3)
  | xor (o : OpV3)
  | shl (o : OpV3)
  | shrUi32 (o : OpV3)
  | shrI32 (o : OpV3)
  | sel (o : OpV3)
  | mov (o : OpVMov)
  | movLane (o : OpV1)
  | clz (o : OpV2)
  | popc (o : OpV2)
  | icmpI32 (o : OpVCmp)
  | icmpUi32 (o : OpVCmp)
  | iaddi (o : OpVI)
  | andi (o : OpVI)
  | ori (o : OpVI)
  | xori (o : OpVI)
  | shli (o : OpVI)
  | shri (o : OpVI)
  | shriA (o : OpVI)
  | movi (o : OpVImm)
  | icmpi (o : OpVICmp)
  | icmpiU (o : OpVICmp)
  | iaddP16 (o : OpV3)
  | iaddP16Sat (o : OpV3)
  | isubP16 (o : OpV3)
  | isubP16Sat (o : OpV3)
  | imulP16 (o : OpV3)
  | imulhP16 (o : OpV3)
  | iminP16 (o : OpV3)
  | imaxP16 (o : OpV3)
  | vacsP16 (o : OpV3)
  | vacsP16Max (o : OpV3)
  | shlP16 (o : OpV3)
  | shrP16 (o : OpV3)
  | topk (o : OpV3)
  | sample (o : OpV3)
  | stopchk (o : OpV3)
  | faddF32 (o : OpV3)
  | fsubF32 (o : OpV3)
  | fmulF32 (o : OpV3)
  | ffmaF32 (o : OpV3)
  | ffmaF32Vc (o : OpV3)
  | fminF32 (o : OpV3)
  | fminF32Nan (o : OpV3)
  | fmaxF32 (o : OpV3)
  | fmaxF32Nan (o : OpV3)
  | fcmpF32 (o : OpVCmp)
  | fcpys (o : OpV3)
  | fneg (o : OpV2)
  | fabs (o : OpV2)
  | frint (o : OpV2)
  | rcp (o : OpV2)
  | rsq (o : OpV2)
  | sqrt (o : OpV2)
  | ex2 (o : OpV2)
  | lg2 (o : OpV2)
  | sin (o : OpV2)
  | cos (o : OpV2)
  | tanh (o : OpV2)
  | fdivF32 (o : OpV3)
  | cvt (o : OpVCvt)
  | cvtI32 (o : OpVCvt)
  | cvtUi32 (o : OpVCvt)
  | pack (o : OpVPack)
  | unpack (o : OpVPack)
  | quant (o : OpV3)
  | ropeCos (o : OpV3)
  | ropeSin (o : OpV3)
  | smxupd (o : OpV2)
  | smxupdSum (o : OpV2)
  | shflIdx (o : OpV3)
  | shflIdxImm (o : OpVShI)
  | shflUp (o : OpV3)
  | shflUpImm (o : OpVShI)
  | shflDn (o : OpV3)
  | shflDnImm (o : OpVShI)
  | shflXor (o : OpV3)
  | shflXorImm (o : OpVShI)
  | bcastFirst (o : OpV2)
  | bcast (o : OpVSk)
  | red (o : OpVRed)
  | redw (o : OpVRedS)
  | scan (o : OpVRed)
  | scanEx (o : OpVRed)
  | sscan (o : OpVSsc)
  | sscanEx (o : OpVSsc)
  | ballot (o : OpVBal)
  | ballotM (o : OpVBalM)
  | mand (o : OpM3)
  | mor (o : OpM3)
  | mxor (o : OpM3)
  | mnot (o : OpM2)
  | mpopc (o : OpMS)
  | vtosFirst (o : OpVSf)
  | vtos (o : OpVSv)
  | stov (o : OpVStov)
  | stovHi (o : OpVStov)
  | sete (o : OpV1)
  | setf (o : OpV1)
  | tstf (o : OpVTst)
  | sadd (o : OpS3)
  | ssub (o : OpS3)
  | smul (o : OpS3)
  | smulh (o : OpS3)
  | smulhu (o : OpS3)
  | sand (o : OpS3)
  | sor (o : OpS3)
  | sxor (o : OpS3)
  | sshl (o : OpS3)
  | sshr (o : OpS3)
  | ssar (o : OpS3)
  | smin (o : OpS3)
  | smax (o : OpS3)
  | sminu (o : OpS3)
  | smaxu (o : OpS3)
  | sseq (o : OpS3)
  | ssne (o : OpS3)
  | sslt (o : OpS3)
  | ssltu (o : OpS3)
  | ssle (o : OpS3)
  | ssleu (o : OpS3)
  | sclz (o : OpS2)
  | spopc (o : OpS2)
  | saddi (o : OpSI)
  | sandi (o : OpSI)
  | sori (o : OpSI)
  | sxori (o : OpSI)
  | sshli (o : OpSI)
  | sshri (o : OpSI)
  | sshriA (o : OpSI)
  | smovi (o : OpSIm)
  | smovhi (o : OpSI)
  | mxglostRead (o : OpCsrMx)
  | csrr (o : OpCsrr)
  | csrw (o : OpCsrw)
  | sslti (o : OpSI)
  | ldB8 (o : OpM)
  | ldS8 (o : OpM)
  | ldB16 (o : OpM)
  | ldS16 (o : OpM)
  | ldB32 (o : OpM)
  | ldB64 (o : OpM)
  | ldB128 (o : OpM)
  | stB8 (o : OpM)
  | stB16 (o : OpM)
  | stB32 (o : OpM)
  | stB64 (o : OpM)
  | stB128 (o : OpM)
  | stN4 (o : OpM)
  | stN6 (o : OpM)
  | ldAcqB32 (o : OpMSc)
  | ldAcqB64 (o : OpMSc)
  | stRelB32 (o : OpMSc)
  | stRelB64 (o : OpMSc)
  | atomB32 (o : OpMAt)
  | atomB64 (o : OpMAt)
  | pf (o : OpMPf)
  | spldB8 (o : OpMSwz)
  | spldB16 (o : OpMSwz)
  | spldB32 (o : OpMSwz)
  | spldB64 (o : OpMSwz)
  | spldB128 (o : OpMSwz)
  | spstB8 (o : OpMSwz)
  | spstB16 (o : OpMSwz)
  | spstB32 (o : OpMSwz)
  | spstB64 (o : OpMSwz)
  | spstB128 (o : OpMSwz)
  | spstN4 (o : OpMSwz)
  | spstN6 (o : OpMSwz)
  | stimg (o : OpMImg)
  | ldimg (o : OpMImg)
  | sld (o : OpMSc1)
  | sst (o : OpMSc1)
  | br (o : OpBM)
  | brs (o : OpBS)
  | call (o : OpBC)
  | loop (o : OpBC)
  | jmpx (o : OpX1)
  | ret (o : OpX1)
  | trap (o : OpX3)
  | tretJmp (o : OpXB)
  | join (o : OpX2)
  | leave (o : OpX2)
  | lookup (o : OpX2)
  | tagset (o : OpX2)
  | tagclr (o : OpX1)
  | lnclr (o : OpX2)
  | lnset (o : OpX2)
  | barinit (o : OpX2)
  | barinitCoh (o : OpX2)
  | arrive (o : OpX2)
  | arriveN (o : OpX3)
  | expect (o : OpX2)
  | waitb (o : OpX2)
  | barq (o : OpX3)
  | superstep (o : OpX2)
  | phaseRel (o : OpXSc)
  | phaseAcq (o : OpXSc)
  | tcfg (o : OpXTd)
  | tld (o : OpXTd)
  | tst (o : OpXTd)
  | mma (o : OpXMma)
  | mmas (o : OpXMma)
  | aclr (o : OpXAcc)
  | adrainSp (o : OpXDr)
  | adrainG (o : OpXDr)
  | adrainV (o : OpXDrV)
  | forkM (o : OpX3)
  | forkC (o : OpX3)
  | forkMc (o : OpX3)
  | rdvz (o : OpX2)
  | shld (o : OpXSh)
  | shset (o : OpXShs)
  | copy (o : OpX3)
  | rednet (o : OpX3)
  | get (o : OpX3)
  | ratom (o : OpX3)
  | put (o : OpX3)
  | sqadm (o : OpX2)
  | tokfb (o : OpX3)
  | seqret (o : OpX3)
  | launch (o : OpX3)
  | kvgather (o : OpX3)
  | kvappend (o : OpX3)
  | pgreq (o : OpX3)
  | gather (o : OpX3)
  | scatter (o : OpX3)
  | mcast (o : OpX3)
  | mmag (o : OpXMma)
  | neterrWrite (o : OpCsrW0)
  | cpfaultWrite (o : OpCsrW0)
  | mxfaultWrite (o : OpCsrW0)
  | nop
  | exit
  | tret
  | tretSkip
  | fenceLd
  | fenceSt
  | fenceAll
  | seqend
  | pgreqShare (o : OpX3)
  | pgreqRelease (o : OpX3)
  | pgreqPin (o : OpX3)
  | pgreqUnpin (o : OpX3)
  | pgreqFetch (o : OpX3)
  | pgreqRequant (o : OpX3)
  | producerFill (op : Nat) (lane : Nat)
  | scalarProducerFill (op : Nat)
  | storeAccept (op : Nat) (block : Nat)
  | atomicUnitExecute (op : Nat) (addr : Nat)
  | crewPlace (launch : Nat)
  | crewEnd (crew : Nat)
  | sequencerContextEnd (ctx : Nat)
  | sequencerTrapEnd (ctx : Nat)
  | stepTimeout (g : Nat)
  | mmaComplete (op : Nat)
  | aclrComplete (op : Nat)
  | adrainComplete (op : Nat)
  | tldComplete (op : Nat)
  | tstComplete (op : Nat)
  | mmagSliceComplete (op : Nat) (member : Nat)
  | copyPart (op : Nat) (part : Nat)
  | kvgatherDelivery (op : Nat) (line : Nat)
  | kvappendWrite (op : Nat)
  | pageWaitTimeout (t : ThreadRef)
  | evictionStart (die : Nat)
  | evictionCopyEnd (die : Nat) (frame : Nat)
  | fetchCopyEnd (die : Nat) (frame : Nat)
  | copyOnWriteEnd (die : Nat) (frame : Nat)
  | batchFormation (die : Nat) (group : Nat)
  | sequenceSweep (die : Nat) (group : Nat)
  | iterationGraphComplete (die : Nat) (group : Nat)
  | iterationEnd (die : Nat) (group : Nat)
  | feedbackWaitExpiry (die : Nat) (group : Nat)
  | inboundWithdraw (die : Nat) (slot : Nat)
  | queueDoorbell (q : Nat) (w : BitVec 64)
  | qcreate (die : Nat)
  | qdestroy (die : Nat)
  | qdestroyComplete (q : Nat)
  | qreset (die : Nat)
  | ctxset (die : Nat)
  | inval (die : Nat)
  | invalComplete (die : Nat)
  | peconfig (die : Nat)
  | sqconfig (die : Nat)
  | sgassign (die : Nat)
  | ringset (die : Nat)
  | winset (die : Nat)
  | redset (die : Nat)
  | irisset (die : Nat)
  | saveset (die : Nat)
  | ctxpreempt (die : Nat)
  | ctxresume (die : Nat)
  | attest (die : Nat)
  | pwrset (die : Nat)
  | devset (die : Nat)
  | mextend (die : Nat)
  | repairset (die : Nat)
  | mgmtUnknownCommand (die : Nat)
  | launchPacket (q : Nat)
  | graphPacket (q : Nat)
  | signalPacket (q : Nat)
  | barrierAnd (q : Nat)
  | barrierOr (q : Nat)
  | barrierPacketPoll (job : Nat)
  | copyPacket (q : Nat)
  | seqadmit (q : Nat)
  | seqcancel (q : Nat)
  | malformedPacket (q : Nat)
  | stealRequest (die : Nat)
  | queueHandover (q : Nat)
  | queueReturn (q : Nat)
  | aggregatorWindowClose (die : Nat) (win : Nat)
  | ringInterruptTimer (ring : Nat)
  | rdidx (ring : Nat) (v : BitVec 64)
  | ovf (ring : Nat)
  | mrtail (die : Nat) (w : BitVec 64)
  | mrbase (die : Nat) (logn : Bool) (v : BitVec 64)
  | hostWindowWrite (idx : Nat) (dword : Nat) (v : BitVec 64)
  | wlock
  | hostRegisterWrite (off : Nat) (v : BitVec 64)
  | rtsReceive (m : Nat)
  | rtsRetry (x : Nat)
  | irisGrant (die : Nat)
  | tokenReceive (m : Nat)
  | fabricDataLand (m : Nat)
  | tokenExpiry (die : Nat) (tok : Nat)
  | orphanTimeout (die : Nat) (req : Nat)
  | transferTimeout (x : Nat)
  | frozen (die : Nat) (req : Nat)
  | frozenReceive (m : Nat)
  | finished (m : Nat)
  | orphaned (m : Nat)
  | refusalReceive (m : Nat)
  | relinquish (m : Nat)
  | resume (m : Nat)
  | abort (m : Nat)
  | rmaReadServe (m : Nat)
  | getResponseLand (m : Nat)
  | ratomExecute (m : Nat)
  | ratomReply (m : Nat)
  | reductionArrival (m : Nat)
  | reductionSlotTimeout (slot : Nat)
  | reductionResultLand (x : Nat) (line : Nat)
  | unreachable (x : Nat)
  | portDown (port : Nat)
  | unsupportedOperation (m : Nat)
  | crewSave (crew : Nat) (why : Nat)
  | crewRestore (crew : Nat) (core : Nat)
  | powerWindow (die : Nat) (core : Nat) (vec : Nat) (mat : Nat)
  | thermalClamp (die : Nat)
  | thermalClampRelease (die : Nat)
  | thermalMigration (die : Nat) (src : Nat) (dst : Nat)
  | uncorrectableError (g : Granule)
  | correctableError (g : Granule)
  | coldReset (b : BootInput)
  | powerLoss
  | functionReset
  | functionResetComplete
  | watchdogTimeout (die : Nat)
  | capFault (q : Nat)
  | portUp (port : Nat)
  | queueError (q : Nat)
  | mgmtRecordSkip (die : Nat)
  deriving DecidableEq, Repr

end Sys2Proof
end

