-- ==== Sys2Proof/WellFormed.lean ====
section
/-! DEFINITION. Well-formedness: what a field of one instruction word may hold (R58 to R60, R62, and the
rules of the entries), each condition with the reason code of R65 it fails with. -/
namespace Sys2Proof

/-- The PFX word of the group, if it has one (R50). -/
def Instr.pfx? : Instr → Option Pfx
  | .nop_16 _ => none
  | .mov_16 _ => none
  | .iaddI32_16 _ => none
  | .isubI32_16 _ => none
  | .and_16 _ => none
  | .or_16 _ => none
  | .xor_16 _ => none
  | .shl_16 _ => none
  | .shrUi32_16 _ => none
  | .shrI32_16 _ => none
  | .iminI32_16 _ => none
  | .imaxI32_16 _ => none
  | .faddF32_16 _ => none
  | .fsubF32_16 _ => none
  | .fmulF32_16 _ => none
  | .fminF32_16 _ => none
  | .fmaxF32_16 _ => none
  | .iaddI32 o => o.pfx
  | .iaddI32Sat o => o.pfx
  | .isubI32 o => o.pfx
  | .isubI32Sat o => o.pfx
  | .imulI32 o => o.pfx
  | .imulhI32 o => o.pfx
  | .imadI32 o => o.pfx
  | .imadI32Vc o => o.pfx
  | .iminI32 o => o.pfx
  | .iminUi32 o => o.pfx
  | .imaxI32 o => o.pfx
  | .imaxUi32 o => o.pfx
  | .and o => o.pfx
  | .or o => o.pfx
  | .xor o => o.pfx
  | .shl o => o.pfx
  | .shrUi32 o => o.pfx
  | .shrI32 o => o.pfx
  | .sel o => o.pfx
  | .mov o => o.pfx
  | .movLane o => o.pfx
  | .clz o => o.pfx
  | .popc o => o.pfx
  | .icmpI32 o => o.pfx
  | .icmpUi32 o => o.pfx
  | .iaddi o => o.pfx
  | .andi o => o.pfx
  | .ori o => o.pfx
  | .xori o => o.pfx
  | .shli o => o.pfx
  | .shri o => o.pfx
  | .shriA o => o.pfx
  | .movi o => o.pfx
  | .icmpi o => o.pfx
  | .icmpiU o => o.pfx
  | .iaddP16 o => o.pfx
  | .iaddP16Sat o => o.pfx
  | .isubP16 o => o.pfx
  | .isubP16Sat o => o.pfx
  | .imulP16 o => o.pfx
  | .imulhP16 o => o.pfx
  | .iminP16 o => o.pfx
  | .imaxP16 o => o.pfx
  | .vacsP16 o => o.pfx
  | .vacsP16Max o => o.pfx
  | .shlP16 o => o.pfx
  | .shrP16 o => o.pfx
  | .topk o => o.pfx
  | .sample o => o.pfx
  | .stopchk o => o.pfx
  | .faddF32 o => o.pfx
  | .fsubF32 o => o.pfx
  | .fmulF32 o => o.pfx
  | .ffmaF32 o => o.pfx
  | .ffmaF32Vc o => o.pfx
  | .fminF32 o => o.pfx
  | .fminF32Nan o => o.pfx
  | .fmaxF32 o => o.pfx
  | .fmaxF32Nan o => o.pfx
  | .fcmpF32 o => o.pfx
  | .fcpys o => o.pfx
  | .fneg o => o.pfx
  | .fabs o => o.pfx
  | .frint o => o.pfx
  | .rcp o => o.pfx
  | .rsq o => o.pfx
  | .sqrt o => o.pfx
  | .ex2 o => o.pfx
  | .lg2 o => o.pfx
  | .sin o => o.pfx
  | .cos o => o.pfx
  | .tanh o => o.pfx
  | .fdivF32 o => o.pfx
  | .cvt o => o.pfx
  | .cvtI32 o => o.pfx
  | .cvtUi32 o => o.pfx
  | .pack o => o.pfx
  | .unpack o => o.pfx
  | .quant o => o.pfx
  | .ropeCos o => o.pfx
  | .ropeSin o => o.pfx
  | .smxupd o => o.pfx
  | .smxupdSum o => o.pfx
  | .shflIdx o => o.pfx
  | .shflIdxImm o => o.pfx
  | .shflUp o => o.pfx
  | .shflUpImm o => o.pfx
  | .shflDn o => o.pfx
  | .shflDnImm o => o.pfx
  | .shflXor o => o.pfx
  | .shflXorImm o => o.pfx
  | .bcastFirst o => o.pfx
  | .bcast o => o.pfx
  | .red o => o.pfx
  | .redw o => o.pfx
  | .scan o => o.pfx
  | .scanEx o => o.pfx
  | .sscan o => o.pfx
  | .sscanEx o => o.pfx
  | .ballot o => o.pfx
  | .ballotM o => o.pfx
  | .mand o => o.pfx
  | .mor o => o.pfx
  | .mxor o => o.pfx
  | .mnot o => o.pfx
  | .mpopc o => o.pfx
  | .vtosFirst o => o.pfx
  | .vtos o => o.pfx
  | .stov o => o.pfx
  | .stovHi o => o.pfx
  | .sete o => o.pfx
  | .setf o => o.pfx
  | .tstf o => o.pfx
  | .sadd _ => none
  | .ssub _ => none
  | .smul _ => none
  | .smulh _ => none
  | .smulhu _ => none
  | .sand _ => none
  | .sor _ => none
  | .sxor _ => none
  | .sshl _ => none
  | .sshr _ => none
  | .ssar _ => none
  | .smin _ => none
  | .smax _ => none
  | .sminu _ => none
  | .smaxu _ => none
  | .sseq _ => none
  | .ssne _ => none
  | .sslt _ => none
  | .ssltu _ => none
  | .ssle _ => none
  | .ssleu _ => none
  | .sclz _ => none
  | .spopc _ => none
  | .saddi _ => none
  | .sandi _ => none
  | .sori _ => none
  | .sxori _ => none
  | .sshli _ => none
  | .sshri _ => none
  | .sshriA _ => none
  | .smovi _ => none
  | .smovhi _ => none
  | .mxglostRead _ => none
  | .csrr _ => none
  | .csrw _ => none
  | .sslti _ => none
  | .ldB8 o => o.pfx
  | .ldS8 o => o.pfx
  | .ldB16 o => o.pfx
  | .ldS16 o => o.pfx
  | .ldB32 o => o.pfx
  | .ldB64 o => o.pfx
  | .ldB128 o => o.pfx
  | .stB8 o => o.pfx
  | .stB16 o => o.pfx
  | .stB32 o => o.pfx
  | .stB64 o => o.pfx
  | .stB128 o => o.pfx
  | .stN4 o => o.pfx
  | .stN6 o => o.pfx
  | .ldAcqB32 o => o.pfx
  | .ldAcqB64 o => o.pfx
  | .stRelB32 o => o.pfx
  | .stRelB64 o => o.pfx
  | .atomB32 o => o.pfx
  | .atomB64 o => o.pfx
  | .pf o => o.pfx
  | .spldB8 o => o.pfx
  | .spldB16 o => o.pfx
  | .spldB32 o => o.pfx
  | .spldB64 o => o.pfx
  | .spldB128 o => o.pfx
  | .spstB8 o => o.pfx
  | .spstB16 o => o.pfx
  | .spstB32 o => o.pfx
  | .spstB64 o => o.pfx
  | .spstB128 o => o.pfx
  | .spstN4 o => o.pfx
  | .spstN6 o => o.pfx
  | .stimg _ => none
  | .ldimg _ => none
  | .sld _ => none
  | .sst _ => none
  | .br _ => none
  | .brs _ => none
  | .call _ => none
  | .loop _ => none
  | .jmpx _ => none
  | .ret _ => none
  | .trap _ => none
  | .tretJmp _ => none
  | .join _ => none
  | .leave _ => none
  | .lookup _ => none
  | .tagset _ => none
  | .tagclr _ => none
  | .lnclr _ => none
  | .lnset _ => none
  | .barinit _ => none
  | .barinitCoh _ => none
  | .arrive _ => none
  | .arriveN _ => none
  | .expect _ => none
  | .waitb _ => none
  | .barq _ => none
  | .superstep _ => none
  | .phaseRel _ => none
  | .phaseAcq _ => none
  | .tcfg _ => none
  | .tld _ => none
  | .tst _ => none
  | .mma _ => none
  | .mmas _ => none
  | .aclr _ => none
  | .adrainSp _ => none
  | .adrainG _ => none
  | .adrainV _ => none
  | .forkM _ => none
  | .forkC _ => none
  | .forkMc _ => none
  | .rdvz _ => none
  | .shld _ => none
  | .shset _ => none
  | .copy _ => none
  | .rednet _ => none
  | .get _ => none
  | .ratom _ => none
  | .put _ => none
  | .sqadm _ => none
  | .tokfb _ => none
  | .seqret _ => none
  | .launch _ => none
  | .kvgather _ => none
  | .kvappend _ => none
  | .pgreq _ => none
  | .gather _ => none
  | .scatter _ => none
  | .mcast _ => none
  | .mmag _ => none
  | .neterrWrite _ => none
  | .cpfaultWrite _ => none
  | .mxfaultWrite _ => none
  | .nop => none
  | .exit => none
  | .tret => none
  | .tretSkip => none
  | .fenceLd => none
  | .fenceSt => none
  | .fenceAll => none
  | .seqend => none
  | .pgreqShare _ => none
  | .pgreqRelease _ => none
  | .pgreqPin _ => none
  | .pgreqUnpin _ => none
  | .pgreqFetch _ => none
  | .pgreqRequant _ => none
  | .producerFill _ _ => none
  | .scalarProducerFill _ => none
  | .storeAccept _ _ => none
  | .atomicUnitExecute _ _ => none
  | .crewPlace _ => none
  | .crewEnd _ => none
  | .sequencerContextEnd _ => none
  | .sequencerTrapEnd _ => none
  | .stepTimeout _ => none
  | .mmaComplete _ => none
  | .aclrComplete _ => none
  | .adrainComplete _ => none
  | .tldComplete _ => none
  | .tstComplete _ => none
  | .mmagSliceComplete _ _ => none
  | .copyPart _ _ => none
  | .kvgatherDelivery _ _ => none
  | .kvappendWrite _ => none
  | .pageWaitTimeout _ => none
  | .evictionStart _ => none
  | .evictionCopyEnd _ _ => none
  | .fetchCopyEnd _ _ => none
  | .copyOnWriteEnd _ _ => none
  | .batchFormation _ _ => none
  | .sequenceSweep _ _ => none
  | .iterationGraphComplete _ _ => none
  | .iterationEnd _ _ => none
  | .feedbackWaitExpiry _ _ => none
  | .inboundWithdraw _ _ => none
  | .queueDoorbell _ _ => none
  | .qcreate _ => none
  | .qdestroy _ => none
  | .qdestroyComplete _ => none
  | .qreset _ => none
  | .ctxset _ => none
  | .inval _ => none
  | .invalComplete _ => none
  | .peconfig _ => none
  | .sqconfig _ => none
  | .sgassign _ => none
  | .ringset _ => none
  | .winset _ => none
  | .redset _ => none
  | .irisset _ => none
  | .saveset _ => none
  | .ctxpreempt _ => none
  | .ctxresume _ => none
  | .attest _ => none
  | .pwrset _ => none
  | .devset _ => none
  | .mextend _ => none
  | .repairset _ => none
  | .mgmtUnknownCommand _ => none
  | .launchPacket _ => none
  | .graphPacket _ => none
  | .signalPacket _ => none
  | .barrierAnd _ => none
  | .barrierOr _ => none
  | .barrierPacketPoll _ => none
  | .copyPacket _ => none
  | .seqadmit _ => none
  | .seqcancel _ => none
  | .malformedPacket _ => none
  | .stealRequest _ => none
  | .queueHandover _ => none
  | .queueReturn _ => none
  | .aggregatorWindowClose _ _ => none
  | .ringInterruptTimer _ => none
  | .rdidx _ _ => none
  | .ovf _ => none
  | .mrtail _ _ => none
  | .mrbase _ _ _ => none
  | .hostWindowWrite _ _ _ => none
  | .wlock => none
  | .hostRegisterWrite _ _ => none
  | .rtsReceive _ => none
  | .rtsRetry _ => none
  | .irisGrant _ => none
  | .tokenReceive _ => none
  | .fabricDataLand _ => none
  | .tokenExpiry _ _ => none
  | .orphanTimeout _ _ => none
  | .transferTimeout _ => none
  | .frozen _ _ => none
  | .frozenReceive _ => none
  | .finished _ => none
  | .orphaned _ => none
  | .refusalReceive _ => none
  | .relinquish _ => none
  | .resume _ => none
  | .abort _ => none
  | .rmaReadServe _ => none
  | .getResponseLand _ => none
  | .ratomExecute _ => none
  | .ratomReply _ => none
  | .reductionArrival _ => none
  | .reductionSlotTimeout _ => none
  | .reductionResultLand _ _ => none
  | .unreachable _ => none
  | .portDown _ => none
  | .unsupportedOperation _ => none
  | .crewSave _ _ => none
  | .crewRestore _ _ => none
  | .powerWindow _ _ _ _ => none
  | .thermalClamp _ => none
  | .thermalClampRelease _ => none
  | .thermalMigration _ _ _ => none
  | .uncorrectableError _ => none
  | .correctableError _ => none
  | .coldReset _ => none
  | .powerLoss => none
  | .functionReset => none
  | .functionResetComplete => none
  | .watchdogTimeout _ => none
  | .capFault _ => none
  | .portUp _ => none
  | .queueError _ => none
  | .mgmtRecordSkip _ => none

/-- The LIM word of the group, if it has one (R50). -/
def Instr.lim? : Instr → Option (BitVec 24)
  | .nop_16 _ => none
  | .mov_16 _ => none
  | .iaddI32_16 _ => none
  | .isubI32_16 _ => none
  | .and_16 _ => none
  | .or_16 _ => none
  | .xor_16 _ => none
  | .shl_16 _ => none
  | .shrUi32_16 _ => none
  | .shrI32_16 _ => none
  | .iminI32_16 _ => none
  | .imaxI32_16 _ => none
  | .faddF32_16 _ => none
  | .fsubF32_16 _ => none
  | .fmulF32_16 _ => none
  | .fminF32_16 _ => none
  | .fmaxF32_16 _ => none
  | .iaddI32 _ => none
  | .iaddI32Sat _ => none
  | .isubI32 _ => none
  | .isubI32Sat _ => none
  | .imulI32 _ => none
  | .imulhI32 _ => none
  | .imadI32 _ => none
  | .imadI32Vc _ => none
  | .iminI32 _ => none
  | .iminUi32 _ => none
  | .imaxI32 _ => none
  | .imaxUi32 _ => none
  | .and _ => none
  | .or _ => none
  | .xor _ => none
  | .shl _ => none
  | .shrUi32 _ => none
  | .shrI32 _ => none
  | .sel _ => none
  | .mov _ => none
  | .movLane _ => none
  | .clz _ => none
  | .popc _ => none
  | .icmpI32 _ => none
  | .icmpUi32 _ => none
  | .iaddi o => o.lim
  | .andi o => o.lim
  | .ori o => o.lim
  | .xori o => o.lim
  | .shli o => o.lim
  | .shri o => o.lim
  | .shriA o => o.lim
  | .movi o => o.lim
  | .icmpi o => o.lim
  | .icmpiU o => o.lim
  | .iaddP16 _ => none
  | .iaddP16Sat _ => none
  | .isubP16 _ => none
  | .isubP16Sat _ => none
  | .imulP16 _ => none
  | .imulhP16 _ => none
  | .iminP16 _ => none
  | .imaxP16 _ => none
  | .vacsP16 _ => none
  | .vacsP16Max _ => none
  | .shlP16 _ => none
  | .shrP16 _ => none
  | .topk _ => none
  | .sample _ => none
  | .stopchk _ => none
  | .faddF32 _ => none
  | .fsubF32 _ => none
  | .fmulF32 _ => none
  | .ffmaF32 _ => none
  | .ffmaF32Vc _ => none
  | .fminF32 _ => none
  | .fminF32Nan _ => none
  | .fmaxF32 _ => none
  | .fmaxF32Nan _ => none
  | .fcmpF32 _ => none
  | .fcpys _ => none
  | .fneg _ => none
  | .fabs _ => none
  | .frint _ => none
  | .rcp _ => none
  | .rsq _ => none
  | .sqrt _ => none
  | .ex2 _ => none
  | .lg2 _ => none
  | .sin _ => none
  | .cos _ => none
  | .tanh _ => none
  | .fdivF32 _ => none
  | .cvt _ => none
  | .cvtI32 _ => none
  | .cvtUi32 _ => none
  | .pack _ => none
  | .unpack _ => none
  | .quant _ => none
  | .ropeCos _ => none
  | .ropeSin _ => none
  | .smxupd _ => none
  | .smxupdSum _ => none
  | .shflIdx _ => none
  | .shflIdxImm _ => none
  | .shflUp _ => none
  | .shflUpImm _ => none
  | .shflDn _ => none
  | .shflDnImm _ => none
  | .shflXor _ => none
  | .shflXorImm _ => none
  | .bcastFirst _ => none
  | .bcast _ => none
  | .red _ => none
  | .redw _ => none
  | .scan _ => none
  | .scanEx _ => none
  | .sscan _ => none
  | .sscanEx _ => none
  | .ballot _ => none
  | .ballotM _ => none
  | .mand _ => none
  | .mor _ => none
  | .mxor _ => none
  | .mnot _ => none
  | .mpopc _ => none
  | .vtosFirst _ => none
  | .vtos _ => none
  | .stov _ => none
  | .stovHi _ => none
  | .sete _ => none
  | .setf _ => none
  | .tstf _ => none
  | .sadd _ => none
  | .ssub _ => none
  | .smul _ => none
  | .smulh _ => none
  | .smulhu _ => none
  | .sand _ => none
  | .sor _ => none
  | .sxor _ => none
  | .sshl _ => none
  | .sshr _ => none
  | .ssar _ => none
  | .smin _ => none
  | .smax _ => none
  | .sminu _ => none
  | .smaxu _ => none
  | .sseq _ => none
  | .ssne _ => none
  | .sslt _ => none
  | .ssltu _ => none
  | .ssle _ => none
  | .ssleu _ => none
  | .sclz _ => none
  | .spopc _ => none
  | .saddi o => o.lim
  | .sandi o => o.lim
  | .sori o => o.lim
  | .sxori o => o.lim
  | .sshli o => o.lim
  | .sshri o => o.lim
  | .sshriA o => o.lim
  | .smovi o => o.lim
  | .smovhi o => o.lim
  | .mxglostRead _ => none
  | .csrr _ => none
  | .csrw _ => none
  | .sslti o => o.lim
  | .ldB8 o => o.lim
  | .ldS8 o => o.lim
  | .ldB16 o => o.lim
  | .ldS16 o => o.lim
  | .ldB32 o => o.lim
  | .ldB64 o => o.lim
  | .ldB128 o => o.lim
  | .stB8 o => o.lim
  | .stB16 o => o.lim
  | .stB32 o => o.lim
  | .stB64 o => o.lim
  | .stB128 o => o.lim
  | .stN4 o => o.lim
  | .stN6 o => o.lim
  | .ldAcqB32 o => o.lim
  | .ldAcqB64 o => o.lim
  | .stRelB32 o => o.lim
  | .stRelB64 o => o.lim
  | .atomB32 o => o.lim
  | .atomB64 o => o.lim
  | .pf o => o.lim
  | .spldB8 o => o.lim
  | .spldB16 o => o.lim
  | .spldB32 o => o.lim
  | .spldB64 o => o.lim
  | .spldB128 o => o.lim
  | .spstB8 o => o.lim
  | .spstB16 o => o.lim
  | .spstB32 o => o.lim
  | .spstB64 o => o.lim
  | .spstB128 o => o.lim
  | .spstN4 o => o.lim
  | .spstN6 o => o.lim
  | .stimg o => o.lim
  | .ldimg o => o.lim
  | .sld o => o.lim
  | .sst o => o.lim
  | .br _ => none
  | .brs _ => none
  | .call _ => none
  | .loop _ => none
  | .jmpx _ => none
  | .ret _ => none
  | .trap _ => none
  | .tretJmp _ => none
  | .join _ => none
  | .leave _ => none
  | .lookup _ => none
  | .tagset _ => none
  | .tagclr _ => none
  | .lnclr _ => none
  | .lnset _ => none
  | .barinit _ => none
  | .barinitCoh _ => none
  | .arrive _ => none
  | .arriveN _ => none
  | .expect _ => none
  | .waitb _ => none
  | .barq _ => none
  | .superstep _ => none
  | .phaseRel _ => none
  | .phaseAcq _ => none
  | .tcfg _ => none
  | .tld _ => none
  | .tst _ => none
  | .mma _ => none
  | .mmas _ => none
  | .aclr _ => none
  | .adrainSp _ => none
  | .adrainG _ => none
  | .adrainV _ => none
  | .forkM _ => none
  | .forkC _ => none
  | .forkMc _ => none
  | .rdvz _ => none
  | .shld _ => none
  | .shset _ => none
  | .copy _ => none
  | .rednet _ => none
  | .get _ => none
  | .ratom _ => none
  | .put _ => none
  | .sqadm _ => none
  | .tokfb _ => none
  | .seqret _ => none
  | .launch _ => none
  | .kvgather _ => none
  | .kvappend _ => none
  | .pgreq _ => none
  | .gather _ => none
  | .scatter _ => none
  | .mcast _ => none
  | .mmag _ => none
  | .neterrWrite _ => none
  | .cpfaultWrite _ => none
  | .mxfaultWrite _ => none
  | .nop => none
  | .exit => none
  | .tret => none
  | .tretSkip => none
  | .fenceLd => none
  | .fenceSt => none
  | .fenceAll => none
  | .seqend => none
  | .pgreqShare _ => none
  | .pgreqRelease _ => none
  | .pgreqPin _ => none
  | .pgreqUnpin _ => none
  | .pgreqFetch _ => none
  | .pgreqRequant _ => none
  | .producerFill _ _ => none
  | .scalarProducerFill _ => none
  | .storeAccept _ _ => none
  | .atomicUnitExecute _ _ => none
  | .crewPlace _ => none
  | .crewEnd _ => none
  | .sequencerContextEnd _ => none
  | .sequencerTrapEnd _ => none
  | .stepTimeout _ => none
  | .mmaComplete _ => none
  | .aclrComplete _ => none
  | .adrainComplete _ => none
  | .tldComplete _ => none
  | .tstComplete _ => none
  | .mmagSliceComplete _ _ => none
  | .copyPart _ _ => none
  | .kvgatherDelivery _ _ => none
  | .kvappendWrite _ => none
  | .pageWaitTimeout _ => none
  | .evictionStart _ => none
  | .evictionCopyEnd _ _ => none
  | .fetchCopyEnd _ _ => none
  | .copyOnWriteEnd _ _ => none
  | .batchFormation _ _ => none
  | .sequenceSweep _ _ => none
  | .iterationGraphComplete _ _ => none
  | .iterationEnd _ _ => none
  | .feedbackWaitExpiry _ _ => none
  | .inboundWithdraw _ _ => none
  | .queueDoorbell _ _ => none
  | .qcreate _ => none
  | .qdestroy _ => none
  | .qdestroyComplete _ => none
  | .qreset _ => none
  | .ctxset _ => none
  | .inval _ => none
  | .invalComplete _ => none
  | .peconfig _ => none
  | .sqconfig _ => none
  | .sgassign _ => none
  | .ringset _ => none
  | .winset _ => none
  | .redset _ => none
  | .irisset _ => none
  | .saveset _ => none
  | .ctxpreempt _ => none
  | .ctxresume _ => none
  | .attest _ => none
  | .pwrset _ => none
  | .devset _ => none
  | .mextend _ => none
  | .repairset _ => none
  | .mgmtUnknownCommand _ => none
  | .launchPacket _ => none
  | .graphPacket _ => none
  | .signalPacket _ => none
  | .barrierAnd _ => none
  | .barrierOr _ => none
  | .barrierPacketPoll _ => none
  | .copyPacket _ => none
  | .seqadmit _ => none
  | .seqcancel _ => none
  | .malformedPacket _ => none
  | .stealRequest _ => none
  | .queueHandover _ => none
  | .queueReturn _ => none
  | .aggregatorWindowClose _ _ => none
  | .ringInterruptTimer _ => none
  | .rdidx _ _ => none
  | .ovf _ => none
  | .mrtail _ _ => none
  | .mrbase _ _ _ => none
  | .hostWindowWrite _ _ _ => none
  | .wlock => none
  | .hostRegisterWrite _ _ => none
  | .rtsReceive _ => none
  | .rtsRetry _ => none
  | .irisGrant _ => none
  | .tokenReceive _ => none
  | .fabricDataLand _ => none
  | .tokenExpiry _ _ => none
  | .orphanTimeout _ _ => none
  | .transferTimeout _ => none
  | .frozen _ _ => none
  | .frozenReceive _ => none
  | .finished _ => none
  | .orphaned _ => none
  | .refusalReceive _ => none
  | .relinquish _ => none
  | .resume _ => none
  | .abort _ => none
  | .rmaReadServe _ => none
  | .getResponseLand _ => none
  | .ratomExecute _ => none
  | .ratomReply _ => none
  | .reductionArrival _ => none
  | .reductionSlotTimeout _ => none
  | .reductionResultLand _ _ => none
  | .unreachable _ => none
  | .portDown _ => none
  | .unsupportedOperation _ => none
  | .crewSave _ _ => none
  | .crewRestore _ _ => none
  | .powerWindow _ _ _ _ => none
  | .thermalClamp _ => none
  | .thermalClampRelease _ => none
  | .thermalMigration _ _ _ => none
  | .uncorrectableError _ => none
  | .correctableError _ => none
  | .coldReset _ => none
  | .powerLoss => none
  | .functionReset => none
  | .functionResetComplete => none
  | .watchdogTimeout _ => none
  | .capFault _ => none
  | .portUp _ => none
  | .queueError _ => none
  | .mgmtRecordSkip _ => none

/-- A 32-bit value formed for a VI instruction (R58): IMM24 : IMM9 bits 7:0, or IMX : IMM9 or IMM9 sign-extended. -/
def viImm (imm9 : BitVec 9) (p : Option Pfx) (l : Option (BitVec 24)) : W32 :=
  match l with
  | some h => h ++ imm9.setWidth 8
  | none =>
    match p with
    | some q => (q.imx ++ imm9).signExtend 32
    | none => imm9.signExtend 32

/-- A 64-bit value formed for an SI instruction (R58): IMM24 : IMM12 bits 7:0, or IMM12, sign-extended. -/
def siImm (imm12 : BitVec 12) (l : Option (BitVec 24)) : W64 :=
  match l with
  | some h => (h ++ imm12.setWidth 8).signExtend 64
  | none => imm12.signExtend 64

/-- RM of a prefix before an instruction that rounds (`rnd`) or does not (R59, R135). -/
def rmOk (rnd : Bool) (q : Pfx) : Bool := rnd || decide (q.rm = 6)

/-- A prefix whose IMX and VS3 the instruction does not use. -/
def pfxRnd (rnd : Bool) : Option Pfx → Bool
  | none => true
  | some q => rmOk rnd q && decide (q.imx = 0) && decide (q.vs3 = 0)

/-- As `pfxRnd`, and Z must be 0: a scalar result (R129, R130, R160, R162). -/
def pfxNoZ (rnd : Bool) : Option Pfx → Bool
  | none => true
  | some q => pfxRnd rnd (some q) && !q.z

/-- A prefix whose VS3 names the fourth operand (R136, R144). -/
def pfxVs3 (rnd : Bool) : Option Pfx → Bool
  | none => true
  | some q => rmOk rnd q && decide (q.imx = 0)

/-- A prefix whose IMX names the segment width (R155). -/
def pfxSeg (rnd : Bool) : Option Pfx → Bool
  | none => true
  | some q => rmOk rnd q && decide (q.imx.toNat < 6) && decide (q.vs3 = 0)

/-- A prefix whose IMX names the selecting mask (R139). -/
def pfxSel : Option Pfx → Bool
  | none => true
  | some q => rmOk false q && decide (q.imx.toNat < 8) && decide (q.vs3 = 0)

/-- A prefix whose IMX names the format (R154). -/
def pfxQuant : Option Pfx → Bool
  | none => true
  | some q => rmOk false q && decide (q.imx.toNat < 16) && decide (q.vs3 = 0)

/-- The format codes QUANT takes (R154). -/
def quantFmt : Option Pfx → Bool
  | none => true
  | some q => decide (1 ≤ q.imx.toNat % 16 ∧ q.imx.toNat % 16 ≤ 7)

/-- A prefix whose IMX holds the list length (R334). -/
def pfxTopk : Option Pfx → Bool
  | none => true
  | some q => rmOk false q && decide (q.imx.toNat ≤ 64) && decide (q.vs3 = 0) && !q.z

/-- IMX must be 0 when a LIM word gives the immediate (R58). -/
def imxFree (q : Pfx) (l : Option (BitVec 24)) : Bool := l.isNone || decide (q.imx = 0)

/-- A prefix before a VI form (R58, R135). -/
def pfxImm : Option Pfx → Option (BitVec 24) → Bool
  | none, _ => true
  | some q, l => rmOk false q && decide (q.vs3 = 0) && imxFree q l

/-- A prefix before a load (R174, R199). -/
def pfxLoad : Option Pfx → Option (BitVec 24) → Bool
  | none, _ => true
  | some q, l => rmOk false q && decide (q.vs3 = 0) && imxFree q l

/-- A prefix before a store (R174, R199): any RM but 7, Z = 0. -/
def pfxStore : Option Pfx → Option (BitVec 24) → Bool
  | none, _ => true
  | some q, l => decide (q.vs3 = 0) && imxFree q l && !q.z

/-- A prefix before ATOM (R205). -/
def pfxAtom (rnd : Bool) : Option Pfx → Option (BitVec 24) → Bool
  | none, _ => true
  | some q, l => rmOk rnd q && decide (q.vs3 = 0) && imxFree q l

/-- A prefix before PF (R207). -/
def pfxPf : Option Pfx → Option (BitVec 24) → Bool
  | none, _ => true
  | some q, l => rmOk false q && decide (q.vs3 = 0) && imxFree q l && !q.z

/-- The bits of the base immediate that a LIM word replaces must be 0 (R58). -/
def limBase (l : Option (BitVec 24)) (high : Bool) : Bool := l.isNone || !high

/-- The format codes PACK and UNPACK take (R150). -/
def packFmt (f : Nat) : Bool := decide (1 ≤ f ∧ f ≤ 13 ∧ f ≠ 11)

/-- Elements of one lane (R150): 8 for E2M1, 2 for 16-bit formats, 1 for 32-bit ones, 4 otherwise. -/
def packElems (f : Nat) : Nat :=
  match f with
  | 0 => 1 | 1 => 2 | 2 => 2 | 7 => 8 | 10 => 2 | 11 => 1 | _ => 4

/-- The conditions on the fields of one word, each with the reason of R65 it fails with, in order. -/
def Instr.conds : Instr → List (Bool × Nat)
  | .nop_16 o => [(decide (o.vd = o.vs ∧ o.vd ≠ 0), 2)]
  | .mov_16 o => [(decide (o.vd ≠ o.vs), 2)]
  | .iaddI32_16 _ => []
  | .isubI32_16 _ => []
  | .and_16 _ => []
  | .or_16 _ => []
  | .xor_16 _ => []
  | .shl_16 _ => []
  | .shrUi32_16 _ => []
  | .shrI32_16 _ => []
  | .iminI32_16 _ => []
  | .imaxI32_16 _ => []
  | .faddF32_16 _ => []
  | .fsubF32_16 _ => []
  | .fmulF32_16 _ => []
  | .fminF32_16 _ => []
  | .fmaxF32_16 _ => []
  | .iaddI32 o => [(pfxRnd false o.pfx, 6)]
  | .iaddI32Sat o => [(pfxRnd false o.pfx, 6)]
  | .isubI32 o => [(pfxRnd false o.pfx, 6)]
  | .isubI32Sat o => [(pfxRnd false o.pfx, 6)]
  | .imulI32 o => [(pfxRnd false o.pfx, 6)]
  | .imulhI32 o => [(pfxRnd false o.pfx, 6)]
  | .imadI32 o => [(pfxRnd false o.pfx, 6)]
  | .imadI32Vc o => [(pfxVs3 false o.pfx, 6)]
  | .iminI32 o => [(pfxRnd false o.pfx, 6)]
  | .iminUi32 o => [(pfxRnd false o.pfx, 6)]
  | .imaxI32 o => [(pfxRnd false o.pfx, 6)]
  | .imaxUi32 o => [(pfxRnd false o.pfx, 6)]
  | .and o => [(pfxRnd false o.pfx, 6)]
  | .or o => [(pfxRnd false o.pfx, 6)]
  | .xor o => [(pfxRnd false o.pfx, 6)]
  | .shl o => [(pfxRnd false o.pfx, 6)]
  | .shrUi32 o => [(pfxRnd false o.pfx, 6)]
  | .shrI32 o => [(pfxRnd false o.pfx, 6)]
  | .sel o => [(pfxSel o.pfx, 6)]
  | .mov o => [(pfxRnd false o.pfx, 6)]
  | .movLane o => [(pfxRnd false o.pfx, 6)]
  | .clz o => [(pfxRnd false o.pfx, 6)]
  | .popc o => [(pfxRnd false o.pfx, 6)]
  | .icmpI32 o => [(decide (o.cc.toNat < 6), 1), (pfxRnd false o.pfx, 6), (decide (o.md ≠ 0), 9)]
  | .icmpUi32 o => [(decide (o.cc.toNat < 6), 1), (pfxRnd false o.pfx, 6), (decide (o.md ≠ 0), 9)]
  | .iaddi o => [(pfxImm o.pfx o.lim, 6), (limBase o.lim (bitAt o.imm9.toNat 8), 6)]
  | .andi o => [(pfxImm o.pfx o.lim, 6), (limBase o.lim (bitAt o.imm9.toNat 8), 6)]
  | .ori o => [(pfxImm o.pfx o.lim, 6), (limBase o.lim (bitAt o.imm9.toNat 8), 6)]
  | .xori o => [(pfxImm o.pfx o.lim, 6), (limBase o.lim (bitAt o.imm9.toNat 8), 6)]
  | .shli o => [(pfxImm o.pfx o.lim, 6), (limBase o.lim (bitAt o.imm9.toNat 8), 6), (decide ((viImm o.imm9 o.pfx o.lim).toNat < 32), 6)]
  | .shri o => [(pfxImm o.pfx o.lim, 6), (limBase o.lim (bitAt o.imm9.toNat 8), 6), (decide ((viImm o.imm9 o.pfx o.lim).toNat < 64), 6), (!(bitAt o.imm9.toNat 5), 6)]
  | .shriA o => [(pfxImm o.pfx o.lim, 6), (limBase o.lim (bitAt o.imm9.toNat 8), 6), (decide ((viImm o.imm9 o.pfx o.lim).toNat < 64), 6), (bitAt o.imm9.toNat 5, 6)]
  | .movi o => [(pfxImm o.pfx o.lim, 6), (limBase o.lim (bitAt o.imm9.toNat 8), 6)]
  | .icmpi o => [(decide (o.cc.toNat < 6), 1), (pfxImm o.pfx o.lim, 6), (limBase o.lim (bitAt o.imm9.toNat 8), 6), (decide (o.md ≠ 0), 9)]
  | .icmpiU o => [(decide (o.cc.toNat < 6), 1), (pfxImm o.pfx o.lim, 6), (limBase o.lim (bitAt o.imm9.toNat 8), 6), (decide (o.md ≠ 0), 9)]
  | .iaddP16 o => [(pfxRnd false o.pfx, 6)]
  | .iaddP16Sat o => [(pfxRnd false o.pfx, 6)]
  | .isubP16 o => [(pfxRnd false o.pfx, 6)]
  | .isubP16Sat o => [(pfxRnd false o.pfx, 6)]
  | .imulP16 o => [(pfxRnd false o.pfx, 6)]
  | .imulhP16 o => [(pfxRnd false o.pfx, 6)]
  | .iminP16 o => [(pfxRnd false o.pfx, 6)]
  | .imaxP16 o => [(pfxRnd false o.pfx, 6)]
  | .vacsP16 o => [(pfxRnd false o.pfx, 6)]
  | .vacsP16Max o => [(pfxRnd false o.pfx, 6)]
  | .shlP16 o => [(pfxRnd false o.pfx, 6)]
  | .shrP16 o => [(pfxRnd false o.pfx, 6)]
  | .topk o => [(pfxTopk o.pfx, 6)]
  | .sample o => [(pfxRnd false o.pfx, 6)]
  | .stopchk o => [(pfxRnd false o.pfx, 6)]
  | .faddF32 o => [(pfxRnd true o.pfx, 6)]
  | .fsubF32 o => [(pfxRnd true o.pfx, 6)]
  | .fmulF32 o => [(pfxRnd true o.pfx, 6)]
  | .ffmaF32 o => [(pfxRnd true o.pfx, 6)]
  | .ffmaF32Vc o => [(pfxVs3 true o.pfx, 6)]
  | .fminF32 o => [(pfxRnd true o.pfx, 6)]
  | .fminF32Nan o => [(pfxRnd true o.pfx, 6)]
  | .fmaxF32 o => [(pfxRnd true o.pfx, 6)]
  | .fmaxF32Nan o => [(pfxRnd true o.pfx, 6)]
  | .fcmpF32 o => [(pfxRnd true o.pfx, 6), (decide (o.md ≠ 0), 9)]
  | .fcpys o => [(pfxRnd false o.pfx, 6)]
  | .fneg o => [(pfxRnd false o.pfx, 6)]
  | .fabs o => [(pfxRnd false o.pfx, 6)]
  | .frint o => [(pfxRnd true o.pfx, 6)]
  | .rcp o => [(pfxRnd true o.pfx, 6)]
  | .rsq o => [(pfxRnd true o.pfx, 6)]
  | .sqrt o => [(pfxRnd true o.pfx, 6)]
  | .ex2 o => [(pfxRnd true o.pfx, 6)]
  | .lg2 o => [(pfxRnd true o.pfx, 6)]
  | .sin o => [(pfxRnd true o.pfx, 6)]
  | .cos o => [(pfxRnd true o.pfx, 6)]
  | .tanh o => [(pfxRnd true o.pfx, 6)]
  | .fdivF32 o => [(pfxRnd true o.pfx, 6)]
  | .cvt o => [(decide (o.dfmt.toNat < 14), 5), (pfxRnd true o.pfx, 6)]
  | .cvtI32 o => [(decide (o.dfmt.toNat < 14), 5), (pfxRnd true o.pfx, 6)]
  | .cvtUi32 o => [(decide (o.dfmt.toNat < 14), 5), (pfxRnd true o.pfx, 6)]
  | .pack o => [(packFmt o.fmt.toNat, 5), (decide (o.idx.toNat < packElems o.fmt.toNat), 6), (pfxRnd true o.pfx, 6)]
  | .unpack o => [(packFmt o.fmt.toNat, 5), (decide (o.idx.toNat < packElems o.fmt.toNat), 6), (pfxRnd true o.pfx, 6)]
  | .quant o => [(pfxQuant o.pfx, 6), (quantFmt o.pfx, 5)]
  | .ropeCos o => [(pfxRnd true o.pfx, 6)]
  | .ropeSin o => [(pfxRnd true o.pfx, 6)]
  | .smxupd o => [(pfxRnd true o.pfx, 6)]
  | .smxupdSum o => [(pfxRnd true o.pfx, 6)]
  | .shflIdx o => [(pfxSeg false o.pfx, 6)]
  | .shflIdxImm o => [(pfxSeg false o.pfx, 6)]
  | .shflUp o => [(pfxSeg false o.pfx, 6)]
  | .shflUpImm o => [(pfxSeg false o.pfx, 6)]
  | .shflDn o => [(pfxSeg false o.pfx, 6)]
  | .shflDnImm o => [(pfxSeg false o.pfx, 6)]
  | .shflXor o => [(pfxSeg false o.pfx, 6)]
  | .shflXorImm o => [(pfxSeg false o.pfx, 6)]
  | .bcastFirst o => [(pfxRnd false o.pfx, 6)]
  | .bcast o => [(pfxRnd false o.pfx, 6)]
  | .red o => [(decide (o.op.toNat < 12), 1), (pfxSeg (decide (8 ≤ o.op.toNat)) o.pfx, 6)]
  | .redw o => [(decide (o.op.toNat < 12), 1), (pfxNoZ (decide (8 ≤ o.op.toNat)) o.pfx, 6)]
  | .scan o => [(decide (o.op.toNat < 12), 1), (pfxSeg (decide (8 ≤ o.op.toNat)) o.pfx, 6)]
  | .scanEx o => [(decide (o.op.toNat < 12), 1), (pfxSeg (decide (8 ≤ o.op.toNat)) o.pfx, 6)]
  | .sscan o => [(decide (o.op.toNat < 12), 1), (pfxRnd (decide (8 ≤ o.op.toNat)) o.pfx, 6)]
  | .sscanEx o => [(decide (o.op.toNat < 12), 1), (pfxRnd (decide (8 ≤ o.op.toNat)) o.pfx, 6)]
  | .ballot o => [(pfxNoZ false o.pfx, 6)]
  | .ballotM o => [(pfxRnd false o.pfx, 6), (decide (o.md ≠ 0), 9)]
  | .mand o => [(pfxRnd false o.pfx, 6), (decide (o.md ≠ 0), 9)]
  | .mor o => [(pfxRnd false o.pfx, 6), (decide (o.md ≠ 0), 9)]
  | .mxor o => [(pfxRnd false o.pfx, 6), (decide (o.md ≠ 0), 9)]
  | .mnot o => [(pfxRnd false o.pfx, 6), (decide (o.md ≠ 0), 9)]
  | .mpopc o => [(pfxNoZ false o.pfx, 6)]
  | .vtosFirst o => [(pfxNoZ false o.pfx, 6)]
  | .vtos o => [(pfxNoZ false o.pfx, 6)]
  | .stov o => [(pfxRnd false o.pfx, 6)]
  | .stovHi o => [(pfxRnd false o.pfx, 6)]
  | .sete o => [(pfxRnd false o.pfx, 6)]
  | .setf o => [(pfxRnd false o.pfx, 6)]
  | .tstf o => [(pfxRnd false o.pfx, 6), (decide (o.md ≠ 0), 9)]
  | .sadd _ => []
  | .ssub _ => []
  | .smul _ => []
  | .smulh _ => []
  | .smulhu _ => []
  | .sand _ => []
  | .sor _ => []
  | .sxor _ => []
  | .sshl _ => []
  | .sshr _ => []
  | .ssar _ => []
  | .smin _ => []
  | .smax _ => []
  | .sminu _ => []
  | .smaxu _ => []
  | .sseq _ => []
  | .ssne _ => []
  | .sslt _ => []
  | .ssltu _ => []
  | .ssle _ => []
  | .ssleu _ => []
  | .sclz _ => []
  | .spopc _ => []
  | .saddi o => [(limBase o.lim (!(zeroAt o.imm12.toNat 8 4)), 6)]
  | .sandi o => [(limBase o.lim (!(zeroAt o.imm12.toNat 8 4)), 6)]
  | .sori o => [(limBase o.lim (!(zeroAt o.imm12.toNat 8 4)), 6)]
  | .sxori o => [(limBase o.lim (!(zeroAt o.imm12.toNat 8 4)), 6)]
  | .sshli o => [(limBase o.lim (!(zeroAt o.imm12.toNat 8 4)), 6), (decide ((siImm o.imm12 o.lim).toNat < 64), 6)]
  | .sshri o => [(limBase o.lim (!(zeroAt o.imm12.toNat 8 4)), 6), (decide ((siImm o.imm12 o.lim).toNat < 128), 6), (!(bitAt o.imm12.toNat 6), 6)]
  | .sshriA o => [(limBase o.lim (!(zeroAt o.imm12.toNat 8 4)), 6), (decide ((siImm o.imm12 o.lim).toNat < 128), 6), (bitAt o.imm12.toNat 6, 6)]
  | .smovi o => [(limBase o.lim (!(zeroAt o.imm12.toNat 8 4)), 6)]
  | .smovhi o => [(limBase o.lim (!(zeroAt o.imm12.toNat 8 4)), 6)]
  | .mxglostRead _ => []
  | .csrr o => [(decide (o.csr ≠ 0xC3 ∧ o.csr ≠ 0xC4), 1)]
  | .csrw o => [(decide (o.csr ≠ 0xC3 ∧ o.csr ≠ 0xC8 ∧ o.csr ≠ 0xE0), 1)]
  | .sslti o => [(limBase o.lim (!(zeroAt o.imm12.toNat 8 4)), 6)]
  | .ldB8 o => [(pfxLoad o.pfx o.lim, 6), (o.ix || decide (o.vi = 0), 6)]
  | .ldS8 o => [(pfxLoad o.pfx o.lim, 6), (o.ix || decide (o.vi = 0), 6)]
  | .ldB16 o => [(pfxLoad o.pfx o.lim, 6), (o.ix || decide (o.vi = 0), 6)]
  | .ldS16 o => [(pfxLoad o.pfx o.lim, 6), (o.ix || decide (o.vi = 0), 6)]
  | .ldB32 o => [(pfxLoad o.pfx o.lim, 6), (o.ix || decide (o.vi = 0), 6)]
  | .ldB64 o => [(pfxLoad o.pfx o.lim, 6), (o.ix || decide (o.vi = 0), 6)]
  | .ldB128 o => [(pfxLoad o.pfx o.lim, 6), (o.ix || decide (o.vi = 0), 6)]
  | .stB8 o => [(pfxStore o.pfx o.lim, 6), (o.ix || decide (o.vi = 0), 6)]
  | .stB16 o => [(pfxStore o.pfx o.lim, 6), (o.ix || decide (o.vi = 0), 6)]
  | .stB32 o => [(pfxStore o.pfx o.lim, 6), (o.ix || decide (o.vi = 0), 6)]
  | .stB64 o => [(pfxStore o.pfx o.lim, 6), (o.ix || decide (o.vi = 0), 6)]
  | .stB128 o => [(pfxStore o.pfx o.lim, 6), (o.ix || decide (o.vi = 0), 6)]
  | .stN4 o => [(pfxStore o.pfx o.lim, 6), (o.ix || decide (o.vi = 0), 6)]
  | .stN6 o => [(pfxStore o.pfx o.lim, 6), (o.ix || decide (o.vi = 0), 6)]
  | .ldAcqB32 o => [(pfxLoad o.pfx o.lim, 6), (o.ix || decide (o.vi = 0), 6)]
  | .ldAcqB64 o => [(pfxLoad o.pfx o.lim, 6), (o.ix || decide (o.vi = 0), 6)]
  | .stRelB32 o => [(pfxStore o.pfx o.lim, 6), (o.ix || decide (o.vi = 0), 6)]
  | .stRelB64 o => [(pfxStore o.pfx o.lim, 6), (o.ix || decide (o.vi = 0), 6)]
  | .atomB32 o => [(pfxAtom (decide (12 ≤ o.aop.toNat ∧ o.aop.toNat ≤ 14)) o.pfx o.lim, 6)]
  | .atomB64 o => [(pfxAtom (decide (12 ≤ o.aop.toNat ∧ o.aop.toNat ≤ 14)) o.pfx o.lim, 6)]
  | .pf o => [(pfxPf o.pfx o.lim, 6), (o.ix || decide (o.vi = 0), 6), (decide (o.lvl.toNat < 3), 6)]
  | .spldB8 o => [(pfxLoad o.pfx o.lim, 6), (o.ix || decide (o.vi = 0), 6)]
  | .spldB16 o => [(pfxLoad o.pfx o.lim, 6), (o.ix || decide (o.vi = 0), 6)]
  | .spldB32 o => [(pfxLoad o.pfx o.lim, 6), (o.ix || decide (o.vi = 0), 6)]
  | .spldB64 o => [(pfxLoad o.pfx o.lim, 6), (o.ix || decide (o.vi = 0), 6)]
  | .spldB128 o => [(pfxLoad o.pfx o.lim, 6), (o.ix || decide (o.vi = 0), 6)]
  | .spstB8 o => [(pfxStore o.pfx o.lim, 6), (o.ix || decide (o.vi = 0), 6)]
  | .spstB16 o => [(pfxStore o.pfx o.lim, 6), (o.ix || decide (o.vi = 0), 6)]
  | .spstB32 o => [(pfxStore o.pfx o.lim, 6), (o.ix || decide (o.vi = 0), 6)]
  | .spstB64 o => [(pfxStore o.pfx o.lim, 6), (o.ix || decide (o.vi = 0), 6)]
  | .spstB128 o => [(pfxStore o.pfx o.lim, 6), (o.ix || decide (o.vi = 0), 6)]
  | .spstN4 o => [(pfxStore o.pfx o.lim, 6), (o.ix || decide (o.vi = 0), 6)]
  | .spstN6 o => [(pfxStore o.pfx o.lim, 6), (o.ix || decide (o.vi = 0), 6)]
  | .stimg _ => []
  | .ldimg _ => []
  | .sld _ => []
  | .sst _ => []
  | .br _ => []
  | .brs _ => []
  | .call _ => []
  | .loop o => [(decide (3 ≤ o.off.toNat ∧ o.off.toNat ≤ 32767), 6)]
  | .jmpx _ => []
  | .ret _ => []
  | .trap _ => []
  | .tretJmp _ => []
  | .join _ => []
  | .leave _ => []
  | .lookup _ => []
  | .tagset _ => []
  | .tagclr _ => []
  | .lnclr _ => []
  | .lnset _ => []
  | .barinit _ => []
  | .barinitCoh _ => []
  | .arrive _ => []
  | .arriveN o => [(decide (o.c ≠ 0), 6)]
  | .expect _ => []
  | .waitb _ => []
  | .barq _ => []
  | .superstep _ => []
  | .phaseRel _ => []
  | .phaseAcq _ => []
  | .tcfg _ => []
  | .tld _ => []
  | .tst _ => []
  | .mma _ => []
  | .mmas _ => []
  | .aclr _ => []
  | .adrainSp _ => []
  | .adrainG _ => []
  | .adrainV _ => []
  | .forkM _ => []
  | .forkC _ => []
  | .forkMc _ => []
  | .rdvz _ => []
  | .shld _ => []
  | .shset o => [(decide (o.f.toNat ≤ 9), 6)]
  | .copy _ => []
  | .rednet _ => []
  | .get _ => []
  | .ratom _ => []
  | .put _ => []
  | .sqadm _ => []
  | .tokfb _ => []
  | .seqret _ => []
  | .launch _ => []
  | .kvgather _ => []
  | .kvappend _ => []
  | .pgreq _ => []
  | .gather _ => []
  | .scatter _ => []
  | .mcast _ => []
  | .mmag _ => []
  | .neterrWrite _ => []
  | .cpfaultWrite _ => []
  | .mxfaultWrite _ => []
  | .nop => []
  | .exit => []
  | .tret => []
  | .tretSkip => []
  | .fenceLd => []
  | .fenceSt => []
  | .fenceAll => []
  | .seqend => []
  | .pgreqShare _ => []
  | .pgreqRelease _ => []
  | .pgreqPin _ => []
  | .pgreqUnpin _ => []
  | .pgreqFetch _ => []
  | .pgreqRequant _ => []
  | .producerFill _ _ => []
  | .scalarProducerFill _ => []
  | .storeAccept _ _ => []
  | .atomicUnitExecute _ _ => []
  | .crewPlace _ => []
  | .crewEnd _ => []
  | .sequencerContextEnd _ => []
  | .sequencerTrapEnd _ => []
  | .stepTimeout _ => []
  | .mmaComplete _ => []
  | .aclrComplete _ => []
  | .adrainComplete _ => []
  | .tldComplete _ => []
  | .tstComplete _ => []
  | .mmagSliceComplete _ _ => []
  | .copyPart _ _ => []
  | .kvgatherDelivery _ _ => []
  | .kvappendWrite _ => []
  | .pageWaitTimeout _ => []
  | .evictionStart _ => []
  | .evictionCopyEnd _ _ => []
  | .fetchCopyEnd _ _ => []
  | .copyOnWriteEnd _ _ => []
  | .batchFormation _ _ => []
  | .sequenceSweep _ _ => []
  | .iterationGraphComplete _ _ => []
  | .iterationEnd _ _ => []
  | .feedbackWaitExpiry _ _ => []
  | .inboundWithdraw _ _ => []
  | .queueDoorbell _ _ => []
  | .qcreate _ => []
  | .qdestroy _ => []
  | .qdestroyComplete _ => []
  | .qreset _ => []
  | .ctxset _ => []
  | .inval _ => []
  | .invalComplete _ => []
  | .peconfig _ => []
  | .sqconfig _ => []
  | .sgassign _ => []
  | .ringset _ => []
  | .winset _ => []
  | .redset _ => []
  | .irisset _ => []
  | .saveset _ => []
  | .ctxpreempt _ => []
  | .ctxresume _ => []
  | .attest _ => []
  | .pwrset _ => []
  | .devset _ => []
  | .mextend _ => []
  | .repairset _ => []
  | .mgmtUnknownCommand _ => []
  | .launchPacket _ => []
  | .graphPacket _ => []
  | .signalPacket _ => []
  | .barrierAnd _ => []
  | .barrierOr _ => []
  | .barrierPacketPoll _ => []
  | .copyPacket _ => []
  | .seqadmit _ => []
  | .seqcancel _ => []
  | .malformedPacket _ => []
  | .stealRequest _ => []
  | .queueHandover _ => []
  | .queueReturn _ => []
  | .aggregatorWindowClose _ _ => []
  | .ringInterruptTimer _ => []
  | .rdidx _ _ => []
  | .ovf _ => []
  | .mrtail _ _ => []
  | .mrbase _ _ _ => []
  | .hostWindowWrite _ _ _ => []
  | .wlock => []
  | .hostRegisterWrite _ _ => []
  | .rtsReceive _ => []
  | .rtsRetry _ => []
  | .irisGrant _ => []
  | .tokenReceive _ => []
  | .fabricDataLand _ => []
  | .tokenExpiry _ _ => []
  | .orphanTimeout _ _ => []
  | .transferTimeout _ => []
  | .frozen _ _ => []
  | .frozenReceive _ => []
  | .finished _ => []
  | .orphaned _ => []
  | .refusalReceive _ => []
  | .relinquish _ => []
  | .resume _ => []
  | .abort _ => []
  | .rmaReadServe _ => []
  | .getResponseLand _ => []
  | .ratomExecute _ => []
  | .ratomReply _ => []
  | .reductionArrival _ => []
  | .reductionSlotTimeout _ => []
  | .reductionResultLand _ _ => []
  | .unreachable _ => []
  | .portDown _ => []
  | .unsupportedOperation _ => []
  | .crewSave _ _ => []
  | .crewRestore _ _ => []
  | .powerWindow _ _ _ _ => []
  | .thermalClamp _ => []
  | .thermalClampRelease _ => []
  | .thermalMigration _ _ _ => []
  | .uncorrectableError _ => []
  | .correctableError _ => []
  | .coldReset _ => []
  | .powerLoss => []
  | .functionReset => []
  | .functionResetComplete => []
  | .watchdogTimeout _ => []
  | .capFault _ => []
  | .portUp _ => []
  | .queueError _ => []
  | .mgmtRecordSkip _ => []

/-- The reason of the first condition that fails. -/
def firstBad : List (Bool × Nat) → Option Nat
  | [] => none
  | (ok, r) :: rest => if ok then firstBad rest else some r

/-- RM is not 0b111 (R59, R21). -/
def rmLegal : Option Pfx → Bool
  | none => true
  | some q => decide (q.rm ≠ 7)

/-- The reason code of R65 the fields of `i` trap with, if any; a rounding code 0b111 comes first. -/
def Instr.check (i : Instr) : Option Nat := firstBad ((rmLegal i.pfx?, 4) :: i.conds)

/-- Every field of the instruction holds a value its entry defines. -/
def Instr.WellFormed (i : Instr) : Prop := i.check = none

end Sys2Proof
end

