-- ==== Sys2Proof/Decode.lean ====
section
/-! DEFINITION. Decoding of instruction groups from parcels (chapter 03, R49 to R68) and the encoder of the
same tables. A decoder answers an instruction, a reason of R65 with its WORD, or asks for one more parcel. (The definitions that build an Instr are noncomputable only because Lean's
code generator takes no constructor with fields past the 245th; the kernel evaluates them.) -/
namespace Sys2Proof

/-- The three kinds of program (R68, R268). -/
inductive Engine where
  | vector | matrix | copy
  deriving DecidableEq, Repr

/-- What the parcels read so far say. -/
inductive Dec where
  | ok (i : Instr)
  | bad (reason word : Nat)
  | more
  deriving DecidableEq, Repr

noncomputable section

/-- A base word's row, and whether its must-be-0 bits are 0 (R62). -/
structure Raw where
  instr : Instr
  zeros : Bool
  deriving DecidableEq, Repr

/-- The fields of OpC16. -/
def getC16 (w : Nat) : OpC16 :=
  ⟨fld 5 w 5, fld 5 w 10⟩

/-- The fields of OpV3. -/
def getV3 (w : Nat) (p : Option Pfx) : OpV3 :=
  ⟨fld 7 w 8, fld 7 w 15, fld 7 w 22, bitAt w 29, bitAt w 30, p⟩

/-- The fields of OpV2. -/
def getV2 (w : Nat) (p : Option Pfx) : OpV2 :=
  ⟨fld 7 w 8, fld 7 w 15, bitAt w 29, p⟩

/-- The fields of OpVMov. -/
def getVMov (w : Nat) (p : Option Pfx) : OpVMov :=
  ⟨fld 7 w 8, fld 7 w 22, bitAt w 30, p⟩

/-- The fields of OpV1. -/
def getV1 (w : Nat) (p : Option Pfx) : OpV1 :=
  ⟨fld 7 w 8, p⟩

/-- The fields of OpVCmp. -/
def getVCmp (w : Nat) (p : Option Pfx) : OpVCmp :=
  ⟨fld 3 w 8, fld 3 w 11, fld 7 w 15, fld 7 w 22, bitAt w 29, bitAt w 30, p⟩

/-- The fields of OpVI. -/
def getVI (w : Nat) (p : Option Pfx) (l : Option (BitVec 24)) : OpVI :=
  ⟨fld 7 w 8, fld 7 w 15, fld 9 w 22, bitAt w 31, p, l⟩

/-- The fields of OpVICmp. -/
def getVICmp (w : Nat) (p : Option Pfx) (l : Option (BitVec 24)) : OpVICmp :=
  ⟨fld 3 w 8, fld 3 w 11, fld 7 w 15, fld 9 w 22, bitAt w 31, p, l⟩

/-- The fields of OpVImm. -/
def getVImm (w : Nat) (p : Option Pfx) (l : Option (BitVec 24)) : OpVImm :=
  ⟨fld 7 w 8, fld 9 w 22, p, l⟩

/-- The fields of OpVCvt. -/
def getVCvt (w : Nat) (p : Option Pfx) : OpVCvt :=
  ⟨fld 7 w 8, fld 7 w 15, fld 4 w 22, bitAt w 29, p⟩

/-- The fields of OpVPack. -/
def getVPack (w : Nat) (p : Option Pfx) : OpVPack :=
  ⟨fld 7 w 8, fld 7 w 15, fld 4 w 22, fld 3 w 26, bitAt w 29, p⟩

/-- The fields of OpVShI. -/
def getVShI (w : Nat) (p : Option Pfx) : OpVShI :=
  ⟨fld 7 w 8, fld 7 w 15, fld 7 w 22, bitAt w 29, p⟩

/-- The fields of OpVSk. -/
def getVSk (w : Nat) (p : Option Pfx) : OpVSk :=
  ⟨fld 7 w 8, fld 7 w 15, fld 6 w 22, bitAt w 29, p⟩

/-- The fields of OpVRed. -/
def getVRed (w : Nat) (p : Option Pfx) : OpVRed :=
  ⟨fld 7 w 8, fld 7 w 15, fld 4 w 22, bitAt w 29, p⟩

/-- The fields of OpVSsc. -/
def getVSsc (w : Nat) (p : Option Pfx) : OpVSsc :=
  ⟨fld 7 w 8, fld 7 w 15, fld 4 w 22, fld 3 w 26, bitAt w 29, p⟩

/-- The fields of OpVRedS. -/
def getVRedS (w : Nat) (p : Option Pfx) : OpVRedS :=
  ⟨fld 6 w 8, fld 7 w 15, fld 4 w 22, bitAt w 29, p⟩

/-- The fields of OpVBal. -/
def getVBal (w : Nat) (p : Option Pfx) : OpVBal :=
  ⟨fld 6 w 8, fld 7 w 15, fld 5 w 22, bitAt w 29, p⟩

/-- The fields of OpVBalM. -/
def getVBalM (w : Nat) (p : Option Pfx) : OpVBalM :=
  ⟨fld 3 w 8, fld 7 w 15, fld 5 w 22, bitAt w 29, p⟩

/-- The fields of OpM3. -/
def getM3 (w : Nat) (p : Option Pfx) : OpM3 :=
  ⟨fld 3 w 8, fld 3 w 15, fld 3 w 22, p⟩

/-- The fields of OpM2. -/
def getM2 (w : Nat) (p : Option Pfx) : OpM2 :=
  ⟨fld 3 w 8, fld 3 w 15, p⟩

/-- The fields of OpMS. -/
def getMS (w : Nat) (p : Option Pfx) : OpMS :=
  ⟨fld 6 w 8, fld 3 w 15, p⟩

/-- The fields of OpVSv. -/
def getVSv (w : Nat) (p : Option Pfx) : OpVSv :=
  ⟨fld 6 w 8, fld 7 w 15, fld 6 w 22, bitAt w 29, p⟩

/-- The fields of OpVSf. -/
def getVSf (w : Nat) (p : Option Pfx) : OpVSf :=
  ⟨fld 6 w 8, fld 7 w 15, bitAt w 29, p⟩

/-- The fields of OpVStov. -/
def getVStov (w : Nat) (p : Option Pfx) : OpVStov :=
  ⟨fld 7 w 8, fld 6 w 15, p⟩

/-- The fields of OpVTst. -/
def getVTst (w : Nat) (p : Option Pfx) : OpVTst :=
  ⟨fld 3 w 8, fld 7 w 15, p⟩

/-- The fields of OpS3. -/
def getS3 (w : Nat) : OpS3 :=
  ⟨fld 6 w 8, fld 6 w 14, fld 6 w 20, bitAt w 31⟩

/-- The fields of OpS2. -/
def getS2 (w : Nat) : OpS2 :=
  ⟨fld 6 w 8, fld 6 w 14, bitAt w 31⟩

/-- The fields of OpSI. -/
def getSI (w : Nat) (l : Option (BitVec 24)) : OpSI :=
  ⟨fld 6 w 8, fld 6 w 14, fld 12 w 20, l⟩

/-- The fields of OpSIm. -/
def getSIm (w : Nat) (l : Option (BitVec 24)) : OpSIm :=
  ⟨fld 6 w 8, fld 12 w 20, l⟩

/-- The fields of OpCsrr. -/
def getCsrr (w : Nat) : OpCsrr :=
  ⟨fld 6 w 8, fld 12 w 20⟩

/-- The fields of OpCsrw. -/
def getCsrw (w : Nat) : OpCsrw :=
  ⟨fld 6 w 14, fld 12 w 20⟩

/-- The fields of OpCsrW0. -/
def getCsrW0 (w : Nat) : OpCsrW0 :=
  ⟨fld 6 w 14⟩

/-- The fields of OpCsrMx. -/
def getCsrMx (w : Nat) : OpCsrMx :=
  ⟨fld 6 w 8, !(bitAt w 20)⟩

/-- The fields of OpM. -/
def getM (w : Nat) (p : Option Pfx) (l : Option (BitVec 24)) : OpM :=
  ⟨fld 7 w 8, fld 6 w 15, fld 7 w 21, bitAt w 31, p, l⟩

/-- The fields of OpMSwz. -/
def getMSwz (w : Nat) (p : Option Pfx) (l : Option (BitVec 24)) : OpMSwz :=
  ⟨fld 7 w 8, fld 6 w 15, fld 7 w 21, fld 3 w 28, bitAt w 31, p, l⟩

/-- The fields of OpMSc. -/
def getMSc (w : Nat) (p : Option Pfx) (l : Option (BitVec 24)) : OpMSc :=
  ⟨fld 7 w 8, fld 6 w 15, fld 7 w 21, fld 2 w 28, bitAt w 31, p, l⟩

/-- The fields of OpMAt. -/
def getMAt (w : Nat) (p : Option Pfx) (l : Option (BitVec 24)) : OpMAt :=
  ⟨fld 7 w 8, fld 6 w 15, fld 7 w 21, fld 4 w 28, p, l⟩

/-- The fields of OpMPf. -/
def getMPf (w : Nat) (p : Option Pfx) (l : Option (BitVec 24)) : OpMPf :=
  ⟨fld 6 w 15, fld 7 w 21, fld 2 w 28, bitAt w 31, p, l⟩

/-- The fields of OpMImg. -/
def getMImg (w : Nat) (l : Option (BitVec 24)) : OpMImg :=
  ⟨fld 7 w 8, fld 6 w 15, l⟩

/-- The fields of OpMSc1. -/
def getMSc1 (w : Nat) (l : Option (BitVec 24)) : OpMSc1 :=
  ⟨fld 6 w 8, fld 6 w 15, l⟩

/-- The fields of OpBM. -/
def getBM (w : Nat) : OpBM :=
  ⟨fld 3 w 8, bitAt w 14, bitAt w 15, fld 16 w 16⟩

/-- The fields of OpBS. -/
def getBS (w : Nat) : OpBS :=
  ⟨fld 6 w 8, bitAt w 14, bitAt w 15, fld 16 w 16⟩

/-- The fields of OpBC. -/
def getBC (w : Nat) : OpBC :=
  ⟨fld 6 w 8, fld 16 w 16⟩

/-- The fields of OpX1. -/
def getX1 (w : Nat) : OpX1 :=
  ⟨fld 6 w 8⟩

/-- The fields of OpX2. -/
def getX2 (w : Nat) : OpX2 :=
  ⟨fld 6 w 8, fld 6 w 14⟩

/-- The fields of OpX3. -/
def getX3 (w : Nat) : OpX3 :=
  ⟨fld 6 w 8, fld 6 w 14, fld 6 w 20⟩

/-- The fields of OpXB. -/
def getXB (w : Nat) : OpXB :=
  ⟨fld 6 w 14⟩

/-- The fields of OpXSc. -/
def getXSc (w : Nat) : OpXSc :=
  ⟨fld 2 w 8⟩

/-- The fields of OpXTd. -/
def getXTd (w : Nat) : OpXTd :=
  ⟨fld 4 w 8, fld 6 w 14, fld 6 w 20⟩

/-- The fields of OpXMma. -/
def getXMma (w : Nat) : OpXMma :=
  ⟨fld 3 w 8, bitAt w 11, bitAt w 12, fld 4 w 14, fld 4 w 20⟩

/-- The fields of OpXAcc. -/
def getXAcc (w : Nat) : OpXAcc :=
  ⟨fld 3 w 8⟩

/-- The fields of OpXDr. -/
def getXDr (w : Nat) : OpXDr :=
  ⟨fld 3 w 8, bitAt w 13, fld 6 w 14, fld 6 w 20⟩

/-- The fields of OpXDrV. -/
def getXDrV (w : Nat) : OpXDrV :=
  ⟨fld 3 w 8, fld 6 w 20⟩

/-- The fields of OpXSh. -/
def getXSh (w : Nat) : OpXSh :=
  ⟨fld 4 w 8, fld 6 w 14⟩

/-- The fields of OpXShs. -/
def getXShs (w : Nat) : OpXShs :=
  ⟨fld 4 w 8, fld 4 w 14, fld 6 w 20⟩

/-- The base words of opcodes 0x01 to 0x17 (R136, R141); the error is the reason of R65. -/
def decodeInt (w : Nat) (p : Option Pfx) (l : Option (BitVec 24)) : Except Nat Raw :=
  match w / 2 % 2 ^ 7 with
  | 0x01 => if w / 2 ^ 31 % 2 = 1 then .ok ⟨.iaddI32Sat (getV3 w p), true⟩
      else .ok ⟨.iaddI32 (getV3 w p), true⟩
  | 0x02 => if w / 2 ^ 31 % 2 = 1 then .ok ⟨.isubI32Sat (getV3 w p), true⟩
      else .ok ⟨.isubI32 (getV3 w p), true⟩
  | 0x03 => if w / 2 ^ 31 % 2 = 1 then .ok ⟨.imulhI32 (getV3 w p), true⟩
      else .ok ⟨.imulI32 (getV3 w p), true⟩
  | 0x04 => if w / 2 ^ 31 % 2 = 1 then .ok ⟨.imadI32Vc (getV3 w p), true⟩
      else .ok ⟨.imadI32 (getV3 w p), true⟩
  | 0x05 => if w / 2 ^ 31 % 2 = 1 then .ok ⟨.iminUi32 (getV3 w p), true⟩
      else .ok ⟨.iminI32 (getV3 w p), true⟩
  | 0x06 => if w / 2 ^ 31 % 2 = 1 then .ok ⟨.imaxUi32 (getV3 w p), true⟩
      else .ok ⟨.imaxI32 (getV3 w p), true⟩
  | 0x07 => if w / 2 ^ 31 % 2 ^ 1 = 0 then .ok ⟨.and (getV3 w p), true⟩
      else .error 1
  | 0x08 => if w / 2 ^ 31 % 2 ^ 1 = 0 then .ok ⟨.or (getV3 w p), true⟩
      else .error 1
  | 0x09 => if w / 2 ^ 31 % 2 ^ 1 = 0 then .ok ⟨.xor (getV3 w p), true⟩
      else .error 1
  | 0x0A => if w / 2 ^ 31 % 2 ^ 1 = 0 then .ok ⟨.shl (getV3 w p), true⟩
      else .error 1
  | 0x0B => if w / 2 ^ 31 % 2 = 1 then .ok ⟨.shrI32 (getV3 w p), true⟩
      else .ok ⟨.shrUi32 (getV3 w p), true⟩
  | 0x0C => if w / 2 ^ 31 % 2 ^ 1 = 0 then .ok ⟨.sel (getV3 w p), true⟩
      else .error 1
  | 0x0D => if w / 2 ^ 31 % 2 = 1 then .ok ⟨.movLane (getV1 w p), zeroAt w 15 16⟩
      else .ok ⟨.mov (getVMov w p), zeroAt w 29 1 && decide (w / 2 ^ 15 % 2 ^ 7 = w / 2 ^ 8 % 2 ^ 7)⟩
  | 0x0E => if w / 2 ^ 31 % 2 = 1 then .ok ⟨.popc (getV2 w p), zeroAt w 22 7 && zeroAt w 30 1⟩
      else .ok ⟨.clz (getV2 w p), zeroAt w 22 7 && zeroAt w 30 1⟩
  | 0x0F => if w / 2 ^ 31 % 2 = 1 then .ok ⟨.icmpUi32 (getVCmp w p), zeroAt w 14 1⟩
      else .ok ⟨.icmpI32 (getVCmp w p), zeroAt w 14 1⟩
  | 0x10 => .ok ⟨.iaddi (getVI w p l), true⟩
  | 0x11 => .ok ⟨.andi (getVI w p l), true⟩
  | 0x12 => .ok ⟨.ori (getVI w p l), true⟩
  | 0x13 => .ok ⟨.xori (getVI w p l), true⟩
  | 0x14 => .ok ⟨.shli (getVI w p l), true⟩
  | 0x15 => if w / 2 ^ 27 % 2 = 1 then .ok ⟨.shriA (getVI w p l), true⟩
      else .ok ⟨.shri (getVI w p l), true⟩
  | 0x16 => .ok ⟨.movi (getVImm w p l), zeroAt w 15 7 && zeroAt w 31 1⟩
  | 0x17 => if w / 2 ^ 14 % 2 = 1 then .ok ⟨.icmpiU (getVICmp w p l), true⟩
      else .ok ⟨.icmpi (getVICmp w p l), true⟩
  | _ => .error 0

/-- The base words of opcodes 0x18 to 0x2F (R142 to R154, R315, R316, R334, R335); the error is the reason of R65. -/
def decodeFp (w : Nat) (p : Option Pfx) (_l : Option (BitVec 24)) : Except Nat Raw :=
  match w / 2 % 2 ^ 7 with
  | 0x18 => if w / 2 ^ 31 % 2 = 1 then .ok ⟨.iaddP16Sat (getV3 w p), true⟩
      else .ok ⟨.iaddP16 (getV3 w p), true⟩
  | 0x19 => if w / 2 ^ 31 % 2 = 1 then .ok ⟨.isubP16Sat (getV3 w p), true⟩
      else .ok ⟨.isubP16 (getV3 w p), true⟩
  | 0x1A => if w / 2 ^ 31 % 2 = 1 then .ok ⟨.imulhP16 (getV3 w p), true⟩
      else .ok ⟨.imulP16 (getV3 w p), true⟩
  | 0x1B => if w / 2 ^ 31 % 2 = 1 then .ok ⟨.imaxP16 (getV3 w p), true⟩
      else .ok ⟨.iminP16 (getV3 w p), true⟩
  | 0x1C => if w / 2 ^ 31 % 2 = 1 then .ok ⟨.vacsP16Max (getV3 w p), true⟩
      else .ok ⟨.vacsP16 (getV3 w p), true⟩
  | 0x1D => if w / 2 ^ 31 % 2 = 1 then .ok ⟨.shrP16 (getV3 w p), true⟩
      else .ok ⟨.shlP16 (getV3 w p), true⟩
  | 0x1E => if w / 2 ^ 31 % 2 ^ 1 = 0 then .ok ⟨.topk (getV3 w p), true⟩
      else .error 1
  | 0x1F => if w / 2 ^ 31 % 2 ^ 1 = 0 then .ok ⟨.sample (getV3 w p), true⟩
      else .error 1
  | 0x20 => if w / 2 ^ 31 % 2 ^ 1 = 0 then .ok ⟨.faddF32 (getV3 w p), true⟩
      else .error 1
  | 0x21 => if w / 2 ^ 31 % 2 ^ 1 = 0 then .ok ⟨.fsubF32 (getV3 w p), true⟩
      else .error 1
  | 0x22 => if w / 2 ^ 31 % 2 ^ 1 = 0 then .ok ⟨.fmulF32 (getV3 w p), true⟩
      else .error 1
  | 0x23 => if w / 2 ^ 31 % 2 = 1 then .ok ⟨.ffmaF32Vc (getV3 w p), true⟩
      else .ok ⟨.ffmaF32 (getV3 w p), true⟩
  | 0x24 => if w / 2 ^ 31 % 2 = 1 then .ok ⟨.fminF32Nan (getV3 w p), true⟩
      else .ok ⟨.fminF32 (getV3 w p), true⟩
  | 0x25 => if w / 2 ^ 31 % 2 = 1 then .ok ⟨.fmaxF32Nan (getV3 w p), true⟩
      else .ok ⟨.fmaxF32 (getV3 w p), true⟩
  | 0x26 => if w / 2 ^ 31 % 2 ^ 1 = 0 then .ok ⟨.fcmpF32 (getVCmp w p), zeroAt w 14 1⟩
      else .error 1
  | 0x27 => if w / 2 ^ 31 % 2 = 1 then .ok ⟨.fcpys (getV3 w p), true⟩
      else match w / 2 ^ 22 % 2 ^ 3 with
        | 0 => .ok ⟨.fneg (getV2 w p), zeroAt w 25 4 && zeroAt w 30 1⟩
        | 1 => .ok ⟨.fabs (getV2 w p), zeroAt w 25 4 && zeroAt w 30 1⟩
        | 2 => .ok ⟨.frint (getV2 w p), zeroAt w 25 4 && zeroAt w 30 1⟩
        | _ => .error 1
  | 0x28 => if w / 2 ^ 31 % 2 ^ 1 = 0 then match w / 2 ^ 22 % 2 ^ 3 with
        | 0 => .ok ⟨.rcp (getV2 w p), zeroAt w 25 4 && zeroAt w 30 1⟩
        | 1 => .ok ⟨.rsq (getV2 w p), zeroAt w 25 4 && zeroAt w 30 1⟩
        | 2 => .ok ⟨.sqrt (getV2 w p), zeroAt w 25 4 && zeroAt w 30 1⟩
        | 3 => .ok ⟨.ex2 (getV2 w p), zeroAt w 25 4 && zeroAt w 30 1⟩
        | 4 => .ok ⟨.lg2 (getV2 w p), zeroAt w 25 4 && zeroAt w 30 1⟩
        | 5 => .ok ⟨.sin (getV2 w p), zeroAt w 25 4 && zeroAt w 30 1⟩
        | 6 => .ok ⟨.cos (getV2 w p), zeroAt w 25 4 && zeroAt w 30 1⟩
        | 7 => .ok ⟨.tanh (getV2 w p), zeroAt w 25 4 && zeroAt w 30 1⟩
        | _ => .error 1
      else .error 1
  | 0x29 => if w / 2 ^ 31 % 2 ^ 1 = 0 then .ok ⟨.fdivF32 (getV3 w p), true⟩
      else .error 1
  | 0x2A => if w / 2 ^ 31 % 2 ^ 1 = 0 then match w / 2 ^ 26 % 2 ^ 3 with
        | 0 => .ok ⟨.cvt (getVCvt w p), zeroAt w 30 1⟩
        | 1 => .ok ⟨.cvtI32 (getVCvt w p), zeroAt w 30 1⟩
        | 2 => .ok ⟨.cvtUi32 (getVCvt w p), zeroAt w 30 1⟩
        | _ => .error 1
      else .error 1
  | 0x2B => if w / 2 ^ 31 % 2 ^ 1 = 0 then .ok ⟨.pack (getVPack w p), zeroAt w 30 1⟩
      else .error 1
  | 0x2C => if w / 2 ^ 31 % 2 ^ 1 = 0 then .ok ⟨.unpack (getVPack w p), zeroAt w 30 1⟩
      else .error 1
  | 0x2D => if w / 2 ^ 31 % 2 ^ 1 = 0 then .ok ⟨.quant (getV3 w p), true⟩
      else .error 1
  | 0x2E => if w / 2 ^ 31 % 2 = 1 then .ok ⟨.ropeSin (getV3 w p), true⟩
      else .ok ⟨.ropeCos (getV3 w p), true⟩
  | 0x2F => if w / 2 ^ 31 % 2 = 1 then .ok ⟨.smxupdSum (getV2 w p), zeroAt w 22 7 && zeroAt w 30 1⟩
      else .ok ⟨.smxupd (getV2 w p), zeroAt w 22 7 && zeroAt w 30 1⟩
  | _ => .error 0

/-- The base words of opcodes 0x30 to 0x3D (R155 to R162, R121, R129, R130, R336); the error is the reason of R65. -/
def decodeCross (w : Nat) (p : Option Pfx) (_l : Option (BitVec 24)) : Except Nat Raw :=
  match w / 2 % 2 ^ 7 with
  | 0x30 => if w / 2 ^ 31 % 2 = 1 then .ok ⟨.shflIdxImm (getVShI w p), zeroAt w 30 1⟩
      else .ok ⟨.shflIdx (getV3 w p), true⟩
  | 0x31 => if w / 2 ^ 31 % 2 = 1 then .ok ⟨.shflUpImm (getVShI w p), zeroAt w 30 1⟩
      else .ok ⟨.shflUp (getV3 w p), true⟩
  | 0x32 => if w / 2 ^ 31 % 2 = 1 then .ok ⟨.shflDnImm (getVShI w p), zeroAt w 30 1⟩
      else .ok ⟨.shflDn (getV3 w p), true⟩
  | 0x33 => if w / 2 ^ 31 % 2 = 1 then .ok ⟨.shflXorImm (getVShI w p), zeroAt w 30 1⟩
      else .ok ⟨.shflXor (getV3 w p), true⟩
  | 0x34 => if w / 2 ^ 31 % 2 ^ 1 = 0 then if w / 2 ^ 28 % 2 = 1 then .ok ⟨.bcastFirst (getV2 w p), zeroAt w 22 6 && zeroAt w 30 1⟩
        else .ok ⟨.bcast (getVSk w p), zeroAt w 30 1⟩
      else .error 1
  | 0x35 => if w / 2 ^ 31 % 2 ^ 1 = 0 then .ok ⟨.red (getVRed w p), zeroAt w 26 3 && zeroAt w 30 1⟩
      else .error 1
  | 0x36 => if w / 2 ^ 31 % 2 ^ 1 = 0 then .ok ⟨.redw (getVRedS w p), zeroAt w 14 1 && zeroAt w 26 3 && zeroAt w 30 1⟩
      else .error 1
  | 0x37 => if w / 2 ^ 31 % 2 = 1 then .ok ⟨.scanEx (getVRed w p), zeroAt w 26 3 && zeroAt w 30 1⟩
      else .ok ⟨.scan (getVRed w p), zeroAt w 26 3 && zeroAt w 30 1⟩
  | 0x38 => if w / 2 ^ 31 % 2 = 1 then .ok ⟨.sscanEx (getVSsc w p), zeroAt w 30 1⟩
      else .ok ⟨.sscan (getVSsc w p), zeroAt w 30 1⟩
  | 0x39 => if w / 2 ^ 31 % 2 = 1 then .ok ⟨.ballotM (getVBalM w p), zeroAt w 11 4 && zeroAt w 27 2 && zeroAt w 30 1⟩
      else .ok ⟨.ballot (getVBal w p), zeroAt w 14 1 && zeroAt w 27 2 && zeroAt w 30 1⟩
  | 0x3A => if w / 2 ^ 31 % 2 ^ 1 = 0 then match w / 2 ^ 25 % 2 ^ 3 with
        | 0 => .ok ⟨.mand (getM3 w p), zeroAt w 11 4 && zeroAt w 18 4 && zeroAt w 28 3⟩
        | 1 => .ok ⟨.mor (getM3 w p), zeroAt w 11 4 && zeroAt w 18 4 && zeroAt w 28 3⟩
        | 2 => .ok ⟨.mxor (getM3 w p), zeroAt w 11 4 && zeroAt w 18 4 && zeroAt w 28 3⟩
        | 3 => .ok ⟨.mnot (getM2 w p), zeroAt w 11 4 && zeroAt w 18 7 && zeroAt w 28 3⟩
        | 4 => .ok ⟨.mpopc (getMS w p), zeroAt w 14 1 && zeroAt w 18 7 && zeroAt w 28 3⟩
        | _ => .error 1
      else .error 1
  | 0x3B => if w / 2 ^ 31 % 2 = 1 then if w / 2 ^ 21 % 2 ^ 1 = 0 then .ok ⟨.stov (getVStov w p), zeroAt w 22 9⟩
        else if w / 2 ^ 21 % 2 ^ 1 = 1 then .ok ⟨.stovHi (getVStov w p), zeroAt w 22 9⟩
        else .error 6
      else if w / 2 ^ 28 % 2 = 1 then .ok ⟨.vtosFirst (getVSf w p), zeroAt w 14 1 && zeroAt w 22 6 && zeroAt w 30 1⟩
        else .ok ⟨.vtos (getVSv w p), zeroAt w 14 1 && zeroAt w 30 1⟩
  | 0x3C => if w / 2 ^ 31 % 2 ^ 1 = 0 then match w / 2 ^ 25 % 2 ^ 3 with
        | 0 => .ok ⟨.sete (getV1 w p), zeroAt w 15 10 && zeroAt w 28 3⟩
        | 1 => .ok ⟨.setf (getV1 w p), zeroAt w 15 10 && zeroAt w 28 3⟩
        | 2 => .ok ⟨.tstf (getVTst w p), zeroAt w 11 4 && zeroAt w 22 3 && zeroAt w 28 3⟩
        | _ => .error 1
      else .error 1
  | 0x3D => if w / 2 ^ 31 % 2 ^ 1 = 0 then .ok ⟨.stopchk (getV3 w p), true⟩
      else .error 1
  | _ => .error 0

/-- The base words of opcodes 0x40 to 0x4C (R126 to R132, R383); the error is the reason of R65. -/
def decodeScal (w : Nat) (_p : Option Pfx) (l : Option (BitVec 24)) : Except Nat Raw :=
  match w / 2 % 2 ^ 7 with
  | 0x40 => match w / 2 ^ 26 % 2 ^ 5 with
      | 0 => .ok ⟨.sadd (getS3 w), true⟩
      | 1 => .ok ⟨.ssub (getS3 w), true⟩
      | 2 => .ok ⟨.smul (getS3 w), true⟩
      | 3 => .ok ⟨.smulh (getS3 w), true⟩
      | 4 => .ok ⟨.smulhu (getS3 w), true⟩
      | 5 => .ok ⟨.sand (getS3 w), true⟩
      | 6 => .ok ⟨.sor (getS3 w), true⟩
      | 7 => .ok ⟨.sxor (getS3 w), true⟩
      | 8 => .ok ⟨.sshl (getS3 w), true⟩
      | 9 => .ok ⟨.sshr (getS3 w), true⟩
      | 10 => .ok ⟨.ssar (getS3 w), true⟩
      | 11 => .ok ⟨.smin (getS3 w), true⟩
      | 12 => .ok ⟨.smax (getS3 w), true⟩
      | 13 => .ok ⟨.sminu (getS3 w), true⟩
      | 14 => .ok ⟨.smaxu (getS3 w), true⟩
      | 15 => .ok ⟨.sseq (getS3 w), true⟩
      | 16 => .ok ⟨.ssne (getS3 w), true⟩
      | 17 => .ok ⟨.sslt (getS3 w), true⟩
      | 18 => .ok ⟨.ssltu (getS3 w), true⟩
      | 19 => .ok ⟨.ssle (getS3 w), true⟩
      | 20 => .ok ⟨.ssleu (getS3 w), true⟩
      | 21 => .ok ⟨.sclz (getS2 w), zeroAt w 20 6⟩
      | 22 => .ok ⟨.spopc (getS2 w), zeroAt w 20 6⟩
      | _ => .error 1
  | 0x41 => .ok ⟨.saddi (getSI w l), true⟩
  | 0x42 => .ok ⟨.sandi (getSI w l), true⟩
  | 0x43 => .ok ⟨.sori (getSI w l), true⟩
  | 0x44 => .ok ⟨.sxori (getSI w l), true⟩
  | 0x45 => .ok ⟨.sshli (getSI w l), true⟩
  | 0x46 => if w / 2 ^ 26 % 2 = 1 then .ok ⟨.sshriA (getSI w l), true⟩
      else .ok ⟨.sshri (getSI w l), true⟩
  | 0x47 => .ok ⟨.smovi (getSIm w l), zeroAt w 14 6⟩
  | 0x48 => .ok ⟨.smovhi (getSI w l), true⟩
  | 0x49 => if w / 2 ^ 20 = 0xC3 ∨ w / 2 ^ 20 = 0xC4 then .ok ⟨.mxglostRead (getCsrMx w), zeroAt w 14 6⟩ else .ok ⟨.csrr (getCsrr w), zeroAt w 14 6⟩
  | 0x4A => if w / 2 ^ 20 % 2 ^ 12 = 195 then .ok ⟨.mxfaultWrite (getCsrW0 w), zeroAt w 8 6⟩
      else if w / 2 ^ 20 % 2 ^ 12 = 200 then .ok ⟨.cpfaultWrite (getCsrW0 w), zeroAt w 8 6⟩
      else if w / 2 ^ 20 % 2 ^ 12 = 224 then .ok ⟨.neterrWrite (getCsrW0 w), zeroAt w 8 6⟩
      else .ok ⟨.csrw (getCsrw w), zeroAt w 8 6⟩
  | 0x4B => .ok ⟨.sslti (getSI w l), true⟩
  | 0x4C => match w / 2 ^ 26 % 2 ^ 6 with
      | 0 => .ok ⟨.put (getX3 w), true⟩
      | 1 => .ok ⟨.get (getX3 w), true⟩
      | 2 => .ok ⟨.ratom (getX3 w), true⟩
      | 3 => .ok ⟨.rednet (getX3 w), true⟩
      | _ => .error 1
  | _ => .error 0

/-- The base words of opcodes 0x50 to 0x78 (R56, R106); the error is the reason of R65. -/
def decodeMem (w : Nat) (p : Option Pfx) (l : Option (BitVec 24)) : Except Nat Raw :=
  match w / 2 % 2 ^ 7 with
  | 0x50 => .ok ⟨.ldB8 (getM w p l), zeroAt w 28 3⟩
  | 0x51 => .ok ⟨.ldS8 (getM w p l), zeroAt w 28 3⟩
  | 0x52 => .ok ⟨.ldB16 (getM w p l), zeroAt w 28 3⟩
  | 0x53 => .ok ⟨.ldS16 (getM w p l), zeroAt w 28 3⟩
  | 0x54 => .ok ⟨.ldB32 (getM w p l), zeroAt w 28 3⟩
  | 0x55 => .ok ⟨.ldB64 (getM w p l), zeroAt w 28 3⟩
  | 0x56 => .ok ⟨.ldB128 (getM w p l), zeroAt w 28 3⟩
  | 0x57 => .ok ⟨.stB8 (getM w p l), zeroAt w 28 3⟩
  | 0x58 => .ok ⟨.stB16 (getM w p l), zeroAt w 28 3⟩
  | 0x59 => .ok ⟨.stB32 (getM w p l), zeroAt w 28 3⟩
  | 0x5A => .ok ⟨.stB64 (getM w p l), zeroAt w 28 3⟩
  | 0x5B => .ok ⟨.stB128 (getM w p l), zeroAt w 28 3⟩
  | 0x5C => .ok ⟨.stN4 (getM w p l), zeroAt w 28 3⟩
  | 0x5D => .ok ⟨.stN6 (getM w p l), zeroAt w 28 3⟩
  | 0x5E => .ok ⟨.ldAcqB32 (getMSc w p l), zeroAt w 30 1⟩
  | 0x5F => .ok ⟨.ldAcqB64 (getMSc w p l), zeroAt w 30 1⟩
  | 0x60 => .ok ⟨.stRelB32 (getMSc w p l), zeroAt w 30 1⟩
  | 0x61 => .ok ⟨.stRelB64 (getMSc w p l), zeroAt w 30 1⟩
  | 0x62 => .ok ⟨.atomB32 (getMAt w p l), true⟩
  | 0x63 => .ok ⟨.atomB64 (getMAt w p l), true⟩
  | 0x64 => .ok ⟨.pf (getMPf w p l), zeroAt w 8 7 && zeroAt w 30 1⟩
  | 0x65 => .ok ⟨.spldB8 (getMSwz w p l), true⟩
  | 0x66 => .ok ⟨.spldB16 (getMSwz w p l), true⟩
  | 0x67 => .ok ⟨.spldB32 (getMSwz w p l), true⟩
  | 0x68 => .ok ⟨.spldB64 (getMSwz w p l), true⟩
  | 0x69 => .ok ⟨.spldB128 (getMSwz w p l), true⟩
  | 0x6A => .ok ⟨.spstB8 (getMSwz w p l), true⟩
  | 0x6B => .ok ⟨.spstB16 (getMSwz w p l), true⟩
  | 0x6C => .ok ⟨.spstB32 (getMSwz w p l), true⟩
  | 0x6D => .ok ⟨.spstB64 (getMSwz w p l), true⟩
  | 0x6E => .ok ⟨.spstB128 (getMSwz w p l), true⟩
  | 0x6F => .ok ⟨.spstN4 (getMSwz w p l), true⟩
  | 0x70 => .ok ⟨.spstN6 (getMSwz w p l), true⟩
  | 0x71 => .ok ⟨.stimg (getMImg w l), zeroAt w 21 11⟩
  | 0x72 => .ok ⟨.ldimg (getMImg w l), zeroAt w 21 11⟩
  | 0x73 => .ok ⟨.sld (getMSc1 w l), zeroAt w 14 1 && zeroAt w 21 11⟩
  | 0x74 => .ok ⟨.sst (getMSc1 w l), zeroAt w 14 1 && zeroAt w 21 11⟩
  | 0x75 => .ok ⟨.br (getBM w), zeroAt w 11 3⟩
  | 0x76 => .ok ⟨.brs (getBS w), true⟩
  | 0x77 => .ok ⟨.call (getBC w), zeroAt w 14 2⟩
  | 0x78 => .ok ⟨.loop (getBC w), zeroAt w 14 2⟩
  | _ => .error 0

/-- The base words of opcodes 0x79 to 0x7E (R67); the error is the reason of R65. -/
def decodeX (w : Nat) (_p : Option Pfx) (_l : Option (BitVec 24)) : Except Nat Raw :=
  match w / 2 % 2 ^ 7 with
  | 0x79 => match w / 2 ^ 26 % 2 ^ 6 with
      | 0 => .ok ⟨.nop, zeroAt w 8 18⟩
      | 1 => .ok ⟨.jmpx (getX1 w), zeroAt w 14 12⟩
      | 2 => .ok ⟨.ret (getX1 w), zeroAt w 14 12⟩
      | 3 => .ok ⟨.exit, zeroAt w 8 18⟩
      | 4 => .ok ⟨.trap (getX3 w), true⟩
      | 5 => if w / 2 ^ 8 % 2 ^ 6 = 0 then .ok ⟨.tret, zeroAt w 14 12⟩
          else if w / 2 ^ 8 % 2 ^ 6 = 1 then .ok ⟨.tretSkip, zeroAt w 14 12⟩
          else if w / 2 ^ 8 % 2 ^ 6 = 2 then .ok ⟨.tretJmp (getXB w), zeroAt w 20 6⟩
          else .error 6
      | 6 => .ok ⟨.join (getX2 w), zeroAt w 20 6⟩
      | 7 => .ok ⟨.leave (getX2 w), zeroAt w 20 6⟩
      | 8 => if w / 2 ^ 8 % 2 ^ 6 = 1 then .ok ⟨.fenceLd, zeroAt w 14 12⟩
          else if w / 2 ^ 8 % 2 ^ 6 = 2 then .ok ⟨.fenceSt, zeroAt w 14 12⟩
          else if w / 2 ^ 8 % 2 ^ 6 = 3 then .ok ⟨.fenceAll, zeroAt w 14 12⟩
          else .error 6
      | 9 => .ok ⟨.lookup (getX2 w), zeroAt w 20 6⟩
      | 10 => .ok ⟨.tagset (getX2 w), zeroAt w 20 6⟩
      | 11 => .ok ⟨.tagclr (getX1 w), zeroAt w 14 12⟩
      | 12 => .ok ⟨.lnclr (getX2 w), zeroAt w 20 6⟩
      | 13 => .ok ⟨.lnset (getX2 w), zeroAt w 20 6⟩
      | _ => .error 1
  | 0x7A => match w / 2 ^ 26 % 2 ^ 6 with
      | 0 => if w / 2 ^ 20 % 2 ^ 6 = 0 then .ok ⟨.barinit (getX2 w), true⟩
          else if w / 2 ^ 20 % 2 ^ 6 = 1 then .ok ⟨.barinitCoh (getX2 w), true⟩
          else .error 6
      | 1 => if w / 2 ^ 20 % 2 ^ 6 = 0 then .ok ⟨.arrive (getX2 w), true⟩
          else .ok ⟨.arriveN (getX3 w), true⟩
      | 2 => .ok ⟨.expect (getX2 w), zeroAt w 20 6⟩
      | 3 => .ok ⟨.waitb (getX2 w), zeroAt w 20 6⟩
      | 4 => .ok ⟨.barq (getX3 w), true⟩
      | 5 => .ok ⟨.superstep (getX2 w), zeroAt w 20 6⟩
      | 6 => .ok ⟨.phaseRel (getXSc w), zeroAt w 10 16⟩
      | 7 => .ok ⟨.phaseAcq (getXSc w), zeroAt w 10 16⟩
      | _ => .error 1
  | 0x7B => match w / 2 ^ 26 % 2 ^ 6 with
      | 0 => .ok ⟨.tcfg (getXTd w), zeroAt w 12 2⟩
      | 1 => .ok ⟨.tld (getXTd w), zeroAt w 12 2⟩
      | 2 => .ok ⟨.tst (getXTd w), zeroAt w 12 2⟩
      | 3 => .ok ⟨.mma (getXMma w), zeroAt w 13 1 && zeroAt w 18 2 && zeroAt w 24 2⟩
      | 4 => .ok ⟨.mmas (getXMma w), zeroAt w 13 1 && zeroAt w 18 2 && zeroAt w 24 2⟩
      | 5 => .ok ⟨.mmag (getXMma w), zeroAt w 13 1 && zeroAt w 18 2 && zeroAt w 24 2⟩
      | 6 => .ok ⟨.aclr (getXAcc w), zeroAt w 11 15⟩
      | 7 => if w / 2 ^ 11 % 2 ^ 2 = 0 then .ok ⟨.adrainSp (getXDr w), true⟩
          else if w / 2 ^ 11 % 2 ^ 2 = 1 then .ok ⟨.adrainG (getXDr w), true⟩
          else if w / 2 ^ 11 % 2 ^ 2 = 2 then .ok ⟨.adrainV (getXDrV w), zeroAt w 13 7⟩
          else .error 6
      | _ => .error 1
  | 0x7C => match w / 2 ^ 26 % 2 ^ 6 with
      | 0 => .ok ⟨.forkM (getX3 w), true⟩
      | 1 => .ok ⟨.forkC (getX3 w), true⟩
      | 2 => .ok ⟨.forkMc (getX3 w), true⟩
      | 3 => .ok ⟨.rdvz (getX2 w), zeroAt w 20 6⟩
      | 4 => .ok ⟨.seqend, zeroAt w 8 18⟩
      | 5 => .ok ⟨.shld (getXSh w), zeroAt w 12 2 && zeroAt w 20 6⟩
      | 6 => .ok ⟨.shset (getXShs w), zeroAt w 12 2 && zeroAt w 18 2⟩
      | 7 => .ok ⟨.copy (getX3 w), true⟩
      | 8 => .ok ⟨.gather (getX3 w), true⟩
      | 9 => .ok ⟨.scatter (getX3 w), true⟩
      | 10 => .ok ⟨.mcast (getX3 w), true⟩
      | _ => .error 1
  | 0x7D => match w / 2 ^ 26 % 2 ^ 6 with
      | 0 => .ok ⟨.kvgather (getX3 w), true⟩
      | 1 => .ok ⟨.kvappend (getX3 w), true⟩
      | 2 => .ok ⟨.pgreq (getX3 w), true⟩
      | _ => .error 1
  | 0x7E => match w / 2 ^ 26 % 2 ^ 6 with
      | 0 => .ok ⟨.sqadm (getX2 w), zeroAt w 20 6⟩
      | 1 => .ok ⟨.tokfb (getX3 w), true⟩
      | 2 => .ok ⟨.seqret (getX3 w), true⟩
      | 3 => .ok ⟨.launch (getX3 w), true⟩
      | _ => .error 1
  | _ => .error 0

/-- A base word by its major opcode (R66); the error is the reason of R65. -/
def decodeBase (w : Nat) (p : Option Pfx) (l : Option (BitVec 24)) : Except Nat Raw :=
  if w / 2 % 2 ^ 7 < 0x18 then decodeInt w p l
  else if w / 2 % 2 ^ 7 < 0x30 then decodeFp w p l
  else if w / 2 % 2 ^ 7 < 0x40 then decodeCross w p l
  else if w / 2 % 2 ^ 7 < 0x50 then decodeScal w p l
  else if w / 2 % 2 ^ 7 < 0x79 then decodeMem w p l
  else decodeX w p l

/-- A 16-bit parcel (R53, R54). -/
def decodeCompact (w : Nat) : Except Nat Instr :=
  if w / 2 ^ 15 = 1 ∨ w = 0 then .error 2
  else
    match w / 2 % 2 ^ 4 with
    | 0 => if w / 2 ^ 5 % 2 ^ 5 = w / 2 ^ 10 % 2 ^ 5 then .ok (.nop_16 (getC16 w)) else .ok (.mov_16 (getC16 w))
    | 1 => .ok (.iaddI32_16 (getC16 w))
    | 2 => .ok (.isubI32_16 (getC16 w))
    | 3 => .ok (.and_16 (getC16 w))
    | 4 => .ok (.or_16 (getC16 w))
    | 5 => .ok (.xor_16 (getC16 w))
    | 6 => .ok (.shl_16 (getC16 w))
    | 7 => .ok (.shrUi32_16 (getC16 w))
    | 8 => .ok (.shrI32_16 (getC16 w))
    | 9 => .ok (.iminI32_16 (getC16 w))
    | 10 => .ok (.imaxI32_16 (getC16 w))
    | 11 => .ok (.faddF32_16 (getC16 w))
    | 12 => .ok (.fsubF32_16 (getC16 w))
    | 13 => .ok (.fmulF32_16 (getC16 w))
    | 14 => .ok (.fminF32_16 (getC16 w))
    | 15 => .ok (.fmaxF32_16 (getC16 w))
    | _ => .error 2

/-- The bases a PFX word may stand before (R58): V3 and VI, and M but STIMG, LDIMG, SLD, SST. -/
def pfxTakes (w : Nat) : Bool := decide (w / 2 % 2 ^ 7 ≤ 0x3D ∨ (0x50 ≤ w / 2 % 2 ^ 7 ∧ w / 2 % 2 ^ 7 ≤ 0x70))

/-- The bases a LIM word may stand before (R58, R60): VI, SI but the CSR forms, M; in a sequencer program SI,
SLD and SST. -/
def limTakes (e : Engine) (w : Nat) : Bool :=
  let o := w / 2 % 2 ^ 7
  let si := decide ((0x41 ≤ o ∧ o ≤ 0x48) ∨ o = 0x4B)
  match e with
  | .vector => si || decide ((0x10 ≤ o ∧ o ≤ 0x17) ∨ (0x50 ≤ o ∧ o ≤ 0x74))
  | _ => si || decide (o = 0x73 ∨ o = 0x74)

/-- The instruction classes each kind of program executes (R268), by base word; a compact parcel has bit 0
clear. -/
def engineTakes (e : Engine) (w : Nat) : Bool :=
  let o := w / 2 % 2 ^ 7
  let f := w / 2 ^ 26 % 2 ^ 6
  let shared : Bool := decide ((0x40 ≤ o ∧ o ≤ 0x4B) ∨ o = 0x73 ∨ o = 0x74 ∨ (0x76 ≤ o ∧ o ≤ 0x78)
    ∨ (o = 0x79 ∧ (f = 0 ∨ f = 2 ∨ f = 4 ∨ f = 8)) ∨ o = 0x7A ∨ (o = 0x7B ∧ f = 0)
    ∨ (o = 0x7C ∧ (4 ≤ f ∧ f ≤ 6)))
  match e with
  | .vector => !(decide (w % 2 = 1 ∧ ((o = 0x7C ∧ f = 4) ∨ (o = 0x7B ∧ f ≠ 0))))
  | .matrix => decide (w % 2 = 1) && (shared || decide (o = 0x7B))
  | .copy => decide (w % 2 = 1) && (shared || decide ((o = 0x4C ∧ f ≠ 2) ∨ (o = 0x79 ∧ (f = 12 ∨ f = 13))
      ∨ (o = 0x7C ∧ 7 ≤ f) ∨ o = 0x7D))

/-- The PFX word's fields (R55). -/
def getPfx (w : Nat) : Pfx := ⟨fld 10 w 22, bitAt w 21, fld 7 w 14, fld 3 w 11, fld 3 w 8⟩

/-- A base word names no sub-function (R62, R65). -/
def undefined : Except Nat Raw → Bool
  | .error 1 => true
  | _ => false

/-- What the 32-bit base word decodes to after its prefixes: a reserved opcode first, then a misplaced PFX or LIM word (R60), an undefined
sub-function, which is no instruction (R62), the engine (R268), the rounding code, and the fields (R65). The order of the reasons, and the base word as WORD where the field
that fails lies in the PFX or LIM word, are the model's choice (log entry 13). -/
def finishBase (e : Engine) (w : Nat) (p : Option Pfx) (l : Option (BitVec 24)) : Dec :=
  match decodeBase w p l with
  | .error 0 => .bad 0 w
  | d =>
    if p.isSome && !(pfxTakes w) then .bad 3 w
    else if l.isSome && !(limTakes e w) then .bad 3 w
    else if undefined d then .bad 1 w
    else if !(engineTakes e w) then .bad 7 w
    else if !(rmLegal p) then .bad 4 w
    else
      match d with
      | .error r => .bad r w
      | .ok raw =>
        if !raw.zeros && decide (raw.instr.check ≠ some 1) then .bad 6 w
        else
          match raw.instr.check with
          | some r => .bad r w
          | none => .ok raw.instr

/-- The first unit of a list of parcels: a compact parcel, or a word and what follows it (R49). -/
inductive FetchUnit where
  | more
  | compact (w : Nat)
  | word (w : Nat) (rest : List Parcel)
  deriving DecidableEq, Repr

/-- Splits off the first unit. -/
def nextUnit : List Parcel → FetchUnit
  | [] => .more
  | a :: rest =>
    if a.toNat % 2 = 0 then .compact a.toNat
    else
      match rest with
      | [] => .more
      | b :: rest => .word (a.toNat + b.toNat * 2 ^ 16) rest

/-- Opcode 0x4D: a PFX word. -/
def isPfxWord (w : Nat) : Bool := decide (w / 2 % 2 ^ 7 = 0x4D)
/-- Opcode 0x4E: a LIM word. -/
def isLimWord (w : Nat) : Bool := decide (w / 2 % 2 ^ 7 = 0x4E)

/-- After a LIM word (R60). -/
def decodeAfterLim (e : Engine) (p : Option Pfx) (l : BitVec 24) (ps : List Parcel) : Dec :=
  match nextUnit ps with
  | .more => .more
  | .compact c => .bad 3 c
  | .word w _ => if isPfxWord w || isLimWord w then .bad 3 w else finishBase e w p (some l)

/-- After a PFX word (R60). -/
def decodeAfterPfx (e : Engine) (p : Pfx) (ps : List Parcel) : Dec :=
  match nextUnit ps with
  | .more => .more
  | .compact c => .bad 3 c
  | .word w rest =>
    if isPfxWord w then .bad 3 w
    else if isLimWord w then decodeAfterLim e (some p) (fld 24 w 8) rest
    else finishBase e w (some p) none

/-- One instruction group from its parcels, in a program of kind `e` (R49 to R60, R68). -/
def decode (e : Engine) (ps : List Parcel) : Dec :=
  match nextUnit ps with
  | .more => .more
  | .compact c =>
    match decodeCompact c with
    | .error r => .bad r c
    | .ok i => if e = .vector then .ok i else .bad 7 c
  | .word w rest =>
    if isPfxWord w then (if e = .vector then decodeAfterPfx e (getPfx w) rest else .bad 3 w)
    else if isLimWord w then decodeAfterLim e none (fld 24 w 8) rest
    else finishBase e w none none

/-- OpC16 in its places of the word. -/
def putC16 (o : OpC16) : Nat :=
  o.vd.toNat * 2 ^ 5 + o.vs.toNat * 2 ^ 10

/-- OpV3 in its places of the word. -/
def putV3 (o : OpV3) : Nat :=
  o.vd.toNat * 2 ^ 8 + o.vs1.toNat * 2 ^ 15 + o.vs2.toNat * 2 ^ 22 + b2n o.e1 * 2 ^ 29 + b2n o.e2 * 2 ^ 30

/-- OpV2 in its places of the word. -/
def putV2 (o : OpV2) : Nat :=
  o.vd.toNat * 2 ^ 8 + o.vs1.toNat * 2 ^ 15 + b2n o.e1 * 2 ^ 29

/-- OpVMov in its places of the word. -/
def putVMov (o : OpVMov) : Nat :=
  o.vd.toNat * 2 ^ 8 + o.vs2.toNat * 2 ^ 22 + b2n o.e2 * 2 ^ 30 + o.vd.toNat * 2 ^ 15

/-- OpV1 in its places of the word. -/
def putV1 (o : OpV1) : Nat :=
  o.vd.toNat * 2 ^ 8

/-- OpVCmp in its places of the word. -/
def putVCmp (o : OpVCmp) : Nat :=
  o.md.toNat * 2 ^ 8 + o.cc.toNat * 2 ^ 11 + o.vs1.toNat * 2 ^ 15 + o.vs2.toNat * 2 ^ 22 + b2n o.e1 * 2 ^ 29 + b2n o.e2 * 2 ^ 30

/-- OpVI in its places of the word. -/
def putVI (o : OpVI) : Nat :=
  o.vd.toNat * 2 ^ 8 + o.vs1.toNat * 2 ^ 15 + o.imm9.toNat * 2 ^ 22 + b2n o.e1 * 2 ^ 31

/-- OpVICmp in its places of the word. -/
def putVICmp (o : OpVICmp) : Nat :=
  o.md.toNat * 2 ^ 8 + o.cc.toNat * 2 ^ 11 + o.vs1.toNat * 2 ^ 15 + o.imm9.toNat * 2 ^ 22 + b2n o.e1 * 2 ^ 31

/-- OpVImm in its places of the word. -/
def putVImm (o : OpVImm) : Nat :=
  o.vd.toNat * 2 ^ 8 + o.imm9.toNat * 2 ^ 22

/-- OpVCvt in its places of the word. -/
def putVCvt (o : OpVCvt) : Nat :=
  o.vd.toNat * 2 ^ 8 + o.vs1.toNat * 2 ^ 15 + o.dfmt.toNat * 2 ^ 22 + b2n o.e1 * 2 ^ 29

/-- OpVPack in its places of the word. -/
def putVPack (o : OpVPack) : Nat :=
  o.vd.toNat * 2 ^ 8 + o.vs1.toNat * 2 ^ 15 + o.fmt.toNat * 2 ^ 22 + o.idx.toNat * 2 ^ 26 + b2n o.e1 * 2 ^ 29

/-- OpVShI in its places of the word. -/
def putVShI (o : OpVShI) : Nat :=
  o.vd.toNat * 2 ^ 8 + o.vs1.toNat * 2 ^ 15 + o.n.toNat * 2 ^ 22 + b2n o.e1 * 2 ^ 29

/-- OpVSk in its places of the word. -/
def putVSk (o : OpVSk) : Nat :=
  o.vd.toNat * 2 ^ 8 + o.vs1.toNat * 2 ^ 15 + o.sk.toNat * 2 ^ 22 + b2n o.e1 * 2 ^ 29

/-- OpVRed in its places of the word. -/
def putVRed (o : OpVRed) : Nat :=
  o.vd.toNat * 2 ^ 8 + o.vs1.toNat * 2 ^ 15 + o.op.toNat * 2 ^ 22 + b2n o.e1 * 2 ^ 29

/-- OpVSsc in its places of the word. -/
def putVSsc (o : OpVSsc) : Nat :=
  o.vd.toNat * 2 ^ 8 + o.vs1.toNat * 2 ^ 15 + o.op.toNat * 2 ^ 22 + o.mh.toNat * 2 ^ 26 + b2n o.e1 * 2 ^ 29

/-- OpVRedS in its places of the word. -/
def putVRedS (o : OpVRedS) : Nat :=
  o.sd.toNat * 2 ^ 8 + o.vs1.toNat * 2 ^ 15 + o.op.toNat * 2 ^ 22 + b2n o.e1 * 2 ^ 29

/-- OpVBal in its places of the word. -/
def putVBal (o : OpVBal) : Nat :=
  o.sd.toNat * 2 ^ 8 + o.vs1.toNat * 2 ^ 15 + o.n.toNat * 2 ^ 22 + b2n o.e1 * 2 ^ 29

/-- OpVBalM in its places of the word. -/
def putVBalM (o : OpVBalM) : Nat :=
  o.md.toNat * 2 ^ 8 + o.vs1.toNat * 2 ^ 15 + o.n.toNat * 2 ^ 22 + b2n o.e1 * 2 ^ 29

/-- OpM3 in its places of the word. -/
def putM3 (o : OpM3) : Nat :=
  o.md.toNat * 2 ^ 8 + o.ma.toNat * 2 ^ 15 + o.mb.toNat * 2 ^ 22

/-- OpM2 in its places of the word. -/
def putM2 (o : OpM2) : Nat :=
  o.md.toNat * 2 ^ 8 + o.ma.toNat * 2 ^ 15

/-- OpMS in its places of the word. -/
def putMS (o : OpMS) : Nat :=
  o.sd.toNat * 2 ^ 8 + o.ma.toNat * 2 ^ 15

/-- OpVSv in its places of the word. -/
def putVSv (o : OpVSv) : Nat :=
  o.sd.toNat * 2 ^ 8 + o.vs1.toNat * 2 ^ 15 + o.sk.toNat * 2 ^ 22 + b2n o.e1 * 2 ^ 29

/-- OpVSf in its places of the word. -/
def putVSf (o : OpVSf) : Nat :=
  o.sd.toNat * 2 ^ 8 + o.vs1.toNat * 2 ^ 15 + b2n o.e1 * 2 ^ 29

/-- OpVStov in its places of the word. -/
def putVStov (o : OpVStov) : Nat :=
  o.vd.toNat * 2 ^ 8 + o.ss.toNat * 2 ^ 15

/-- OpVTst in its places of the word. -/
def putVTst (o : OpVTst) : Nat :=
  o.md.toNat * 2 ^ 8 + o.vs1.toNat * 2 ^ 15

/-- OpS3 in its places of the word. -/
def putS3 (o : OpS3) : Nat :=
  o.sd.toNat * 2 ^ 8 + o.ss1.toNat * 2 ^ 14 + o.ss2.toNat * 2 ^ 20 + b2n o.w * 2 ^ 31

/-- OpS2 in its places of the word. -/
def putS2 (o : OpS2) : Nat :=
  o.sd.toNat * 2 ^ 8 + o.ss1.toNat * 2 ^ 14 + b2n o.w * 2 ^ 31

/-- OpSI in its places of the word. -/
def putSI (o : OpSI) : Nat :=
  o.sd.toNat * 2 ^ 8 + o.ss1.toNat * 2 ^ 14 + o.imm12.toNat * 2 ^ 20

/-- OpSIm in its places of the word. -/
def putSIm (o : OpSIm) : Nat :=
  o.sd.toNat * 2 ^ 8 + o.imm12.toNat * 2 ^ 20

/-- OpCsrr in its places of the word. -/
def putCsrr (o : OpCsrr) : Nat :=
  o.sd.toNat * 2 ^ 8 + o.csr.toNat * 2 ^ 20

/-- OpCsrw in its places of the word. -/
def putCsrw (o : OpCsrw) : Nat :=
  o.ss1.toNat * 2 ^ 14 + o.csr.toNat * 2 ^ 20

/-- OpCsrW0 in its places of the word. -/
def putCsrW0 (o : OpCsrW0) : Nat :=
  o.ss1.toNat * 2 ^ 14

/-- OpCsrMx in its places of the word. -/
def putCsrMx (o : OpCsrMx) : Nat :=
  o.sd.toNat * 2 ^ 8 + (if o.lost then 0xC4 else 0xC3) * 2 ^ 20

/-- OpM in its places of the word. -/
def putM (o : OpM) : Nat :=
  o.vt.toNat * 2 ^ 8 + o.sb.toNat * 2 ^ 15 + o.vi.toNat * 2 ^ 21 + b2n o.ix * 2 ^ 31

/-- OpMSwz in its places of the word. -/
def putMSwz (o : OpMSwz) : Nat :=
  o.vt.toNat * 2 ^ 8 + o.sb.toNat * 2 ^ 15 + o.vi.toNat * 2 ^ 21 + o.swz.toNat * 2 ^ 28 + b2n o.ix * 2 ^ 31

/-- OpMSc in its places of the word. -/
def putMSc (o : OpMSc) : Nat :=
  o.vt.toNat * 2 ^ 8 + o.sb.toNat * 2 ^ 15 + o.vi.toNat * 2 ^ 21 + o.sc.toNat * 2 ^ 28 + b2n o.ix * 2 ^ 31

/-- OpMAt in its places of the word. -/
def putMAt (o : OpMAt) : Nat :=
  o.vt.toNat * 2 ^ 8 + o.sb.toNat * 2 ^ 15 + o.vi.toNat * 2 ^ 21 + o.aop.toNat * 2 ^ 28

/-- OpMPf in its places of the word. -/
def putMPf (o : OpMPf) : Nat :=
  o.sb.toNat * 2 ^ 15 + o.vi.toNat * 2 ^ 21 + o.lvl.toNat * 2 ^ 28 + b2n o.ix * 2 ^ 31

/-- OpMImg in its places of the word. -/
def putMImg (o : OpMImg) : Nat :=
  o.vt.toNat * 2 ^ 8 + o.sb.toNat * 2 ^ 15

/-- OpMSc1 in its places of the word. -/
def putMSc1 (o : OpMSc1) : Nat :=
  o.sd.toNat * 2 ^ 8 + o.sb.toNat * 2 ^ 15

/-- OpBM in its places of the word. -/
def putBM (o : OpBM) : Nat :=
  o.m.toNat * 2 ^ 8 + b2n o.neg * 2 ^ 14 + b2n o.brk * 2 ^ 15 + o.off.toNat * 2 ^ 16

/-- OpBS in its places of the word. -/
def putBS (o : OpBS) : Nat :=
  o.s.toNat * 2 ^ 8 + b2n o.neg * 2 ^ 14 + b2n o.brk * 2 ^ 15 + o.off.toNat * 2 ^ 16

/-- OpBC in its places of the word. -/
def putBC (o : OpBC) : Nat :=
  o.s.toNat * 2 ^ 8 + o.off.toNat * 2 ^ 16

/-- OpX1 in its places of the word. -/
def putX1 (o : OpX1) : Nat :=
  o.a.toNat * 2 ^ 8

/-- OpX2 in its places of the word. -/
def putX2 (o : OpX2) : Nat :=
  o.a.toNat * 2 ^ 8 + o.b.toNat * 2 ^ 14

/-- OpX3 in its places of the word. -/
def putX3 (o : OpX3) : Nat :=
  o.a.toNat * 2 ^ 8 + o.b.toNat * 2 ^ 14 + o.c.toNat * 2 ^ 20

/-- OpXB in its places of the word. -/
def putXB (o : OpXB) : Nat :=
  o.b.toNat * 2 ^ 14

/-- OpXSc in its places of the word. -/
def putXSc (o : OpXSc) : Nat :=
  o.sc.toNat * 2 ^ 8

/-- OpXTd in its places of the word. -/
def putXTd (o : OpXTd) : Nat :=
  o.td.toNat * 2 ^ 8 + o.b.toNat * 2 ^ 14 + o.c.toNat * 2 ^ 20

/-- OpXMma in its places of the word. -/
def putXMma (o : OpXMma) : Nat :=
  o.acc.toNat * 2 ^ 8 + b2n o.ra * 2 ^ 11 + b2n o.rb * 2 ^ 12 + o.tda.toNat * 2 ^ 14 + o.tdb.toNat * 2 ^ 20

/-- OpXAcc in its places of the word. -/
def putXAcc (o : OpXAcc) : Nat :=
  o.acc.toNat * 2 ^ 8

/-- OpXDr in its places of the word. -/
def putXDr (o : OpXDr) : Nat :=
  o.acc.toNat * 2 ^ 8 + b2n o.add * 2 ^ 13 + o.sa.toNat * 2 ^ 14 + o.sc.toNat * 2 ^ 20

/-- OpXDrV in its places of the word. -/
def putXDrV (o : OpXDrV) : Nat :=
  o.acc.toNat * 2 ^ 8 + o.sc.toNat * 2 ^ 20

/-- OpXSh in its places of the word. -/
def putXSh (o : OpXSh) : Nat :=
  o.sh.toNat * 2 ^ 8 + o.sa.toNat * 2 ^ 14

/-- OpXShs in its places of the word. -/
def putXShs (o : OpXShs) : Nat :=
  o.sh.toNat * 2 ^ 8 + o.f.toNat * 2 ^ 14 + o.sv.toNat * 2 ^ 20

/-- The base word of an instruction (R65 WORD); a compact parcel is zero-extended; 0 for a step that no
word names. -/
def Instr.baseWord : Instr → Nat
  | .nop_16 o => 0 + putC16 o
  | .mov_16 o => 0 + putC16 o
  | .iaddI32_16 o => 2 + putC16 o
  | .isubI32_16 o => 4 + putC16 o
  | .and_16 o => 6 + putC16 o
  | .or_16 o => 8 + putC16 o
  | .xor_16 o => 10 + putC16 o
  | .shl_16 o => 12 + putC16 o
  | .shrUi32_16 o => 14 + putC16 o
  | .shrI32_16 o => 16 + putC16 o
  | .iminI32_16 o => 18 + putC16 o
  | .imaxI32_16 o => 20 + putC16 o
  | .faddF32_16 o => 22 + putC16 o
  | .fsubF32_16 o => 24 + putC16 o
  | .fmulF32_16 o => 26 + putC16 o
  | .fminF32_16 o => 28 + putC16 o
  | .fmaxF32_16 o => 30 + putC16 o
  | .iaddI32 o => 0x3 + putV3 o
  | .iaddI32Sat o => 0x80000003 + putV3 o
  | .isubI32 o => 0x5 + putV3 o
  | .isubI32Sat o => 0x80000005 + putV3 o
  | .imulI32 o => 0x7 + putV3 o
  | .imulhI32 o => 0x80000007 + putV3 o
  | .imadI32 o => 0x9 + putV3 o
  | .imadI32Vc o => 0x80000009 + putV3 o
  | .iminI32 o => 0xB + putV3 o
  | .iminUi32 o => 0x8000000B + putV3 o
  | .imaxI32 o => 0xD + putV3 o
  | .imaxUi32 o => 0x8000000D + putV3 o
  | .and o => 0xF + putV3 o
  | .or o => 0x11 + putV3 o
  | .xor o => 0x13 + putV3 o
  | .shl o => 0x15 + putV3 o
  | .shrUi32 o => 0x17 + putV3 o
  | .shrI32 o => 0x80000017 + putV3 o
  | .sel o => 0x19 + putV3 o
  | .mov o => 0x1B + putVMov o
  | .movLane o => 0x8000001B + putV1 o
  | .clz o => 0x1D + putV2 o
  | .popc o => 0x8000001D + putV2 o
  | .icmpI32 o => 0x1F + putVCmp o
  | .icmpUi32 o => 0x8000001F + putVCmp o
  | .iaddi o => 0x21 + putVI o
  | .andi o => 0x23 + putVI o
  | .ori o => 0x25 + putVI o
  | .xori o => 0x27 + putVI o
  | .shli o => 0x29 + putVI o
  | .shri o => 0x2B + putVI o
  | .shriA o => 0x2B + putVI o
  | .movi o => 0x2D + putVImm o
  | .icmpi o => 0x2F + putVICmp o
  | .icmpiU o => 0x402F + putVICmp o
  | .iaddP16 o => 0x31 + putV3 o
  | .iaddP16Sat o => 0x80000031 + putV3 o
  | .isubP16 o => 0x33 + putV3 o
  | .isubP16Sat o => 0x80000033 + putV3 o
  | .imulP16 o => 0x35 + putV3 o
  | .imulhP16 o => 0x80000035 + putV3 o
  | .iminP16 o => 0x37 + putV3 o
  | .imaxP16 o => 0x80000037 + putV3 o
  | .vacsP16 o => 0x39 + putV3 o
  | .vacsP16Max o => 0x80000039 + putV3 o
  | .shlP16 o => 0x3B + putV3 o
  | .shrP16 o => 0x8000003B + putV3 o
  | .topk o => 0x3D + putV3 o
  | .sample o => 0x3F + putV3 o
  | .stopchk o => 0x7B + putV3 o
  | .faddF32 o => 0x41 + putV3 o
  | .fsubF32 o => 0x43 + putV3 o
  | .fmulF32 o => 0x45 + putV3 o
  | .ffmaF32 o => 0x47 + putV3 o
  | .ffmaF32Vc o => 0x80000047 + putV3 o
  | .fminF32 o => 0x49 + putV3 o
  | .fminF32Nan o => 0x80000049 + putV3 o
  | .fmaxF32 o => 0x4B + putV3 o
  | .fmaxF32Nan o => 0x8000004B + putV3 o
  | .fcmpF32 o => 0x4D + putVCmp o
  | .fcpys o => 0x8000004F + putV3 o
  | .fneg o => 0x4F + putV2 o
  | .fabs o => 0x40004F + putV2 o
  | .frint o => 0x80004F + putV2 o
  | .rcp o => 0x51 + putV2 o
  | .rsq o => 0x400051 + putV2 o
  | .sqrt o => 0x800051 + putV2 o
  | .ex2 o => 0xC00051 + putV2 o
  | .lg2 o => 0x1000051 + putV2 o
  | .sin o => 0x1400051 + putV2 o
  | .cos o => 0x1800051 + putV2 o
  | .tanh o => 0x1C00051 + putV2 o
  | .fdivF32 o => 0x53 + putV3 o
  | .cvt o => 0x55 + putVCvt o
  | .cvtI32 o => 0x4000055 + putVCvt o
  | .cvtUi32 o => 0x8000055 + putVCvt o
  | .pack o => 0x57 + putVPack o
  | .unpack o => 0x59 + putVPack o
  | .quant o => 0x5B + putV3 o
  | .ropeCos o => 0x5D + putV3 o
  | .ropeSin o => 0x8000005D + putV3 o
  | .smxupd o => 0x5F + putV2 o
  | .smxupdSum o => 0x8000005F + putV2 o
  | .shflIdx o => 0x61 + putV3 o
  | .shflIdxImm o => 0x80000061 + putVShI o
  | .shflUp o => 0x63 + putV3 o
  | .shflUpImm o => 0x80000063 + putVShI o
  | .shflDn o => 0x65 + putV3 o
  | .shflDnImm o => 0x80000065 + putVShI o
  | .shflXor o => 0x67 + putV3 o
  | .shflXorImm o => 0x80000067 + putVShI o
  | .bcastFirst o => 0x10000069 + putV2 o
  | .bcast o => 0x69 + putVSk o
  | .red o => 0x6B + putVRed o
  | .redw o => 0x6D + putVRedS o
  | .scan o => 0x6F + putVRed o
  | .scanEx o => 0x8000006F + putVRed o
  | .sscan o => 0x71 + putVSsc o
  | .sscanEx o => 0x80000071 + putVSsc o
  | .ballot o => 0x73 + putVBal o
  | .ballotM o => 0x80000073 + putVBalM o
  | .mand o => 0x75 + putM3 o
  | .mor o => 0x2000075 + putM3 o
  | .mxor o => 0x4000075 + putM3 o
  | .mnot o => 0x6000075 + putM2 o
  | .mpopc o => 0x8000075 + putMS o
  | .vtosFirst o => 0x10000077 + putVSf o
  | .vtos o => 0x77 + putVSv o
  | .stov o => 0x80000077 + putVStov o
  | .stovHi o => 0x80200077 + putVStov o
  | .sete o => 0x79 + putV1 o
  | .setf o => 0x2000079 + putV1 o
  | .tstf o => 0x4000079 + putVTst o
  | .sadd o => 0x81 + putS3 o
  | .ssub o => 0x4000081 + putS3 o
  | .smul o => 0x8000081 + putS3 o
  | .smulh o => 0xC000081 + putS3 o
  | .smulhu o => 0x10000081 + putS3 o
  | .sand o => 0x14000081 + putS3 o
  | .sor o => 0x18000081 + putS3 o
  | .sxor o => 0x1C000081 + putS3 o
  | .sshl o => 0x20000081 + putS3 o
  | .sshr o => 0x24000081 + putS3 o
  | .ssar o => 0x28000081 + putS3 o
  | .smin o => 0x2C000081 + putS3 o
  | .smax o => 0x30000081 + putS3 o
  | .sminu o => 0x34000081 + putS3 o
  | .smaxu o => 0x38000081 + putS3 o
  | .sseq o => 0x3C000081 + putS3 o
  | .ssne o => 0x40000081 + putS3 o
  | .sslt o => 0x44000081 + putS3 o
  | .ssltu o => 0x48000081 + putS3 o
  | .ssle o => 0x4C000081 + putS3 o
  | .ssleu o => 0x50000081 + putS3 o
  | .sclz o => 0x54000081 + putS2 o
  | .spopc o => 0x58000081 + putS2 o
  | .saddi o => 0x83 + putSI o
  | .sandi o => 0x85 + putSI o
  | .sori o => 0x87 + putSI o
  | .sxori o => 0x89 + putSI o
  | .sshli o => 0x8B + putSI o
  | .sshri o => 0x8D + putSI o
  | .sshriA o => 0x8D + putSI o
  | .smovi o => 0x8F + putSIm o
  | .smovhi o => 0x91 + putSI o
  | .mxglostRead o => 0x93 + putCsrMx o
  | .csrr o => 0x93 + putCsrr o
  | .csrw o => 0x95 + putCsrw o
  | .sslti o => 0x97 + putSI o
  | .ldB8 o => 0xA1 + putM o
  | .ldS8 o => 0xA3 + putM o
  | .ldB16 o => 0xA5 + putM o
  | .ldS16 o => 0xA7 + putM o
  | .ldB32 o => 0xA9 + putM o
  | .ldB64 o => 0xAB + putM o
  | .ldB128 o => 0xAD + putM o
  | .stB8 o => 0xAF + putM o
  | .stB16 o => 0xB1 + putM o
  | .stB32 o => 0xB3 + putM o
  | .stB64 o => 0xB5 + putM o
  | .stB128 o => 0xB7 + putM o
  | .stN4 o => 0xB9 + putM o
  | .stN6 o => 0xBB + putM o
  | .ldAcqB32 o => 0xBD + putMSc o
  | .ldAcqB64 o => 0xBF + putMSc o
  | .stRelB32 o => 0xC1 + putMSc o
  | .stRelB64 o => 0xC3 + putMSc o
  | .atomB32 o => 0xC5 + putMAt o
  | .atomB64 o => 0xC7 + putMAt o
  | .pf o => 0xC9 + putMPf o
  | .spldB8 o => 0xCB + putMSwz o
  | .spldB16 o => 0xCD + putMSwz o
  | .spldB32 o => 0xCF + putMSwz o
  | .spldB64 o => 0xD1 + putMSwz o
  | .spldB128 o => 0xD3 + putMSwz o
  | .spstB8 o => 0xD5 + putMSwz o
  | .spstB16 o => 0xD7 + putMSwz o
  | .spstB32 o => 0xD9 + putMSwz o
  | .spstB64 o => 0xDB + putMSwz o
  | .spstB128 o => 0xDD + putMSwz o
  | .spstN4 o => 0xDF + putMSwz o
  | .spstN6 o => 0xE1 + putMSwz o
  | .stimg o => 0xE3 + putMImg o
  | .ldimg o => 0xE5 + putMImg o
  | .sld o => 0xE7 + putMSc1 o
  | .sst o => 0xE9 + putMSc1 o
  | .br o => 0xEB + putBM o
  | .brs o => 0xED + putBS o
  | .call o => 0xEF + putBC o
  | .loop o => 0xF1 + putBC o
  | .jmpx o => 0x40000F3 + putX1 o
  | .ret o => 0x80000F3 + putX1 o
  | .trap o => 0x100000F3 + putX3 o
  | .tretJmp o => 0x140002F3 + putXB o
  | .join o => 0x180000F3 + putX2 o
  | .leave o => 0x1C0000F3 + putX2 o
  | .lookup o => 0x240000F3 + putX2 o
  | .tagset o => 0x280000F3 + putX2 o
  | .tagclr o => 0x2C0000F3 + putX1 o
  | .lnclr o => 0x300000F3 + putX2 o
  | .lnset o => 0x340000F3 + putX2 o
  | .barinit o => 0xF5 + putX2 o
  | .barinitCoh o => 0x1000F5 + putX2 o
  | .arrive o => 0x40000F5 + putX2 o
  | .arriveN o => 0x40000F5 + putX3 o
  | .expect o => 0x80000F5 + putX2 o
  | .waitb o => 0xC0000F5 + putX2 o
  | .barq o => 0x100000F5 + putX3 o
  | .superstep o => 0x140000F5 + putX2 o
  | .phaseRel o => 0x180000F5 + putXSc o
  | .phaseAcq o => 0x1C0000F5 + putXSc o
  | .tcfg o => 0xF7 + putXTd o
  | .tld o => 0x40000F7 + putXTd o
  | .tst o => 0x80000F7 + putXTd o
  | .mma o => 0xC0000F7 + putXMma o
  | .mmas o => 0x100000F7 + putXMma o
  | .aclr o => 0x180000F7 + putXAcc o
  | .adrainSp o => 0x1C0000F7 + putXDr o
  | .adrainG o => 0x1C0008F7 + putXDr o
  | .adrainV o => 0x1C0010F7 + putXDrV o
  | .forkM o => 0xF9 + putX3 o
  | .forkC o => 0x40000F9 + putX3 o
  | .forkMc o => 0x80000F9 + putX3 o
  | .rdvz o => 0xC0000F9 + putX2 o
  | .shld o => 0x140000F9 + putXSh o
  | .shset o => 0x180000F9 + putXShs o
  | .copy o => 0x1C0000F9 + putX3 o
  | .rednet o => 0xC000099 + putX3 o
  | .get o => 0x4000099 + putX3 o
  | .ratom o => 0x8000099 + putX3 o
  | .put o => 0x99 + putX3 o
  | .sqadm o => 0xFD + putX2 o
  | .tokfb o => 0x40000FD + putX3 o
  | .seqret o => 0x80000FD + putX3 o
  | .launch o => 0xC0000FD + putX3 o
  | .kvgather o => 0xFB + putX3 o
  | .kvappend o => 0x40000FB + putX3 o
  | .pgreq o => 0x80000FB + putX3 o
  | .gather o => 0x200000F9 + putX3 o
  | .scatter o => 0x240000F9 + putX3 o
  | .mcast o => 0x280000F9 + putX3 o
  | .mmag o => 0x140000F7 + putXMma o
  | .neterrWrite o => 0xE000095 + putCsrW0 o
  | .cpfaultWrite o => 0xC800095 + putCsrW0 o
  | .mxfaultWrite o => 0xC300095 + putCsrW0 o
  | .nop => 0xF3
  | .exit => 0xC0000F3
  | .tret => 0x140000F3
  | .tretSkip => 0x140001F3
  | .fenceLd => 0x200001F3
  | .fenceSt => 0x200002F3
  | .fenceAll => 0x200003F3
  | .seqend => 0x100000F9
  | .pgreqShare o => 0x80000FB + putX3 o
  | .pgreqRelease o => 0x80000FB + putX3 o
  | .pgreqPin o => 0x80000FB + putX3 o
  | .pgreqUnpin o => 0x80000FB + putX3 o
  | .pgreqFetch o => 0x80000FB + putX3 o
  | .pgreqRequant o => 0x80000FB + putX3 o
  | .producerFill _ _ => 0
  | .scalarProducerFill _ => 0
  | .storeAccept _ _ => 0
  | .atomicUnitExecute _ _ => 0
  | .crewPlace _ => 0
  | .crewEnd _ => 0
  | .sequencerContextEnd _ => 0
  | .sequencerTrapEnd _ => 0
  | .stepTimeout _ => 0
  | .mmaComplete _ => 0
  | .aclrComplete _ => 0
  | .adrainComplete _ => 0
  | .tldComplete _ => 0
  | .tstComplete _ => 0
  | .mmagSliceComplete _ _ => 0
  | .copyPart _ _ => 0
  | .kvgatherDelivery _ _ => 0
  | .kvappendWrite _ => 0
  | .pageWaitTimeout _ => 0
  | .evictionStart _ => 0
  | .evictionCopyEnd _ _ => 0
  | .fetchCopyEnd _ _ => 0
  | .copyOnWriteEnd _ _ => 0
  | .batchFormation _ _ => 0
  | .sequenceSweep _ _ => 0
  | .iterationGraphComplete _ _ => 0
  | .iterationEnd _ _ => 0
  | .feedbackWaitExpiry _ _ => 0
  | .inboundWithdraw _ _ => 0
  | .queueDoorbell _ _ => 0
  | .qcreate _ => 0
  | .qdestroy _ => 0
  | .qdestroyComplete _ => 0
  | .qreset _ => 0
  | .ctxset _ => 0
  | .inval _ => 0
  | .invalComplete _ => 0
  | .peconfig _ => 0
  | .sqconfig _ => 0
  | .sgassign _ => 0
  | .ringset _ => 0
  | .winset _ => 0
  | .redset _ => 0
  | .irisset _ => 0
  | .saveset _ => 0
  | .ctxpreempt _ => 0
  | .ctxresume _ => 0
  | .attest _ => 0
  | .pwrset _ => 0
  | .devset _ => 0
  | .mextend _ => 0
  | .repairset _ => 0
  | .mgmtUnknownCommand _ => 0
  | .launchPacket _ => 0
  | .graphPacket _ => 0
  | .signalPacket _ => 0
  | .barrierAnd _ => 0
  | .barrierOr _ => 0
  | .barrierPacketPoll _ => 0
  | .copyPacket _ => 0
  | .seqadmit _ => 0
  | .seqcancel _ => 0
  | .malformedPacket _ => 0
  | .stealRequest _ => 0
  | .queueHandover _ => 0
  | .queueReturn _ => 0
  | .aggregatorWindowClose _ _ => 0
  | .ringInterruptTimer _ => 0
  | .rdidx _ _ => 0
  | .ovf _ => 0
  | .mrtail _ _ => 0
  | .mrbase _ _ _ => 0
  | .hostWindowWrite _ _ _ => 0
  | .wlock => 0
  | .hostRegisterWrite _ _ => 0
  | .rtsReceive _ => 0
  | .rtsRetry _ => 0
  | .irisGrant _ => 0
  | .tokenReceive _ => 0
  | .fabricDataLand _ => 0
  | .tokenExpiry _ _ => 0
  | .orphanTimeout _ _ => 0
  | .transferTimeout _ => 0
  | .frozen _ _ => 0
  | .frozenReceive _ => 0
  | .finished _ => 0
  | .orphaned _ => 0
  | .refusalReceive _ => 0
  | .relinquish _ => 0
  | .resume _ => 0
  | .abort _ => 0
  | .rmaReadServe _ => 0
  | .getResponseLand _ => 0
  | .ratomExecute _ => 0
  | .ratomReply _ => 0
  | .reductionArrival _ => 0
  | .reductionSlotTimeout _ => 0
  | .reductionResultLand _ _ => 0
  | .unreachable _ => 0
  | .portDown _ => 0
  | .unsupportedOperation _ => 0
  | .crewSave _ _ => 0
  | .crewRestore _ _ => 0
  | .powerWindow _ _ _ _ => 0
  | .thermalClamp _ => 0
  | .thermalClampRelease _ => 0
  | .thermalMigration _ _ _ => 0
  | .uncorrectableError _ => 0
  | .correctableError _ => 0
  | .coldReset _ => 0
  | .powerLoss => 0
  | .functionReset => 0
  | .functionResetComplete => 0
  | .watchdogTimeout _ => 0
  | .capFault _ => 0
  | .portUp _ => 0
  | .queueError _ => 0
  | .mgmtRecordSkip _ => 0

/-- The rows that are words of their own: not a step of an agent and not a command of PGREQ (R314). -/
def Instr.isWord : Instr → Bool
  | .nop_16 _ => true
  | .mov_16 _ => true
  | .iaddI32_16 _ => true
  | .isubI32_16 _ => true
  | .and_16 _ => true
  | .or_16 _ => true
  | .xor_16 _ => true
  | .shl_16 _ => true
  | .shrUi32_16 _ => true
  | .shrI32_16 _ => true
  | .iminI32_16 _ => true
  | .imaxI32_16 _ => true
  | .faddF32_16 _ => true
  | .fsubF32_16 _ => true
  | .fmulF32_16 _ => true
  | .fminF32_16 _ => true
  | .fmaxF32_16 _ => true
  | .iaddI32 _ => true
  | .iaddI32Sat _ => true
  | .isubI32 _ => true
  | .isubI32Sat _ => true
  | .imulI32 _ => true
  | .imulhI32 _ => true
  | .imadI32 _ => true
  | .imadI32Vc _ => true
  | .iminI32 _ => true
  | .iminUi32 _ => true
  | .imaxI32 _ => true
  | .imaxUi32 _ => true
  | .and _ => true
  | .or _ => true
  | .xor _ => true
  | .shl _ => true
  | .shrUi32 _ => true
  | .shrI32 _ => true
  | .sel _ => true
  | .mov _ => true
  | .movLane _ => true
  | .clz _ => true
  | .popc _ => true
  | .icmpI32 _ => true
  | .icmpUi32 _ => true
  | .iaddi _ => true
  | .andi _ => true
  | .ori _ => true
  | .xori _ => true
  | .shli _ => true
  | .shri _ => true
  | .shriA _ => true
  | .movi _ => true
  | .icmpi _ => true
  | .icmpiU _ => true
  | .iaddP16 _ => true
  | .iaddP16Sat _ => true
  | .isubP16 _ => true
  | .isubP16Sat _ => true
  | .imulP16 _ => true
  | .imulhP16 _ => true
  | .iminP16 _ => true
  | .imaxP16 _ => true
  | .vacsP16 _ => true
  | .vacsP16Max _ => true
  | .shlP16 _ => true
  | .shrP16 _ => true
  | .topk _ => true
  | .sample _ => true
  | .stopchk _ => true
  | .faddF32 _ => true
  | .fsubF32 _ => true
  | .fmulF32 _ => true
  | .ffmaF32 _ => true
  | .ffmaF32Vc _ => true
  | .fminF32 _ => true
  | .fminF32Nan _ => true
  | .fmaxF32 _ => true
  | .fmaxF32Nan _ => true
  | .fcmpF32 _ => true
  | .fcpys _ => true
  | .fneg _ => true
  | .fabs _ => true
  | .frint _ => true
  | .rcp _ => true
  | .rsq _ => true
  | .sqrt _ => true
  | .ex2 _ => true
  | .lg2 _ => true
  | .sin _ => true
  | .cos _ => true
  | .tanh _ => true
  | .fdivF32 _ => true
  | .cvt _ => true
  | .cvtI32 _ => true
  | .cvtUi32 _ => true
  | .pack _ => true
  | .unpack _ => true
  | .quant _ => true
  | .ropeCos _ => true
  | .ropeSin _ => true
  | .smxupd _ => true
  | .smxupdSum _ => true
  | .shflIdx _ => true
  | .shflIdxImm _ => true
  | .shflUp _ => true
  | .shflUpImm _ => true
  | .shflDn _ => true
  | .shflDnImm _ => true
  | .shflXor _ => true
  | .shflXorImm _ => true
  | .bcastFirst _ => true
  | .bcast _ => true
  | .red _ => true
  | .redw _ => true
  | .scan _ => true
  | .scanEx _ => true
  | .sscan _ => true
  | .sscanEx _ => true
  | .ballot _ => true
  | .ballotM _ => true
  | .mand _ => true
  | .mor _ => true
  | .mxor _ => true
  | .mnot _ => true
  | .mpopc _ => true
  | .vtosFirst _ => true
  | .vtos _ => true
  | .stov _ => true
  | .stovHi _ => true
  | .sete _ => true
  | .setf _ => true
  | .tstf _ => true
  | .sadd _ => true
  | .ssub _ => true
  | .smul _ => true
  | .smulh _ => true
  | .smulhu _ => true
  | .sand _ => true
  | .sor _ => true
  | .sxor _ => true
  | .sshl _ => true
  | .sshr _ => true
  | .ssar _ => true
  | .smin _ => true
  | .smax _ => true
  | .sminu _ => true
  | .smaxu _ => true
  | .sseq _ => true
  | .ssne _ => true
  | .sslt _ => true
  | .ssltu _ => true
  | .ssle _ => true
  | .ssleu _ => true
  | .sclz _ => true
  | .spopc _ => true
  | .saddi _ => true
  | .sandi _ => true
  | .sori _ => true
  | .sxori _ => true
  | .sshli _ => true
  | .sshri _ => true
  | .sshriA _ => true
  | .smovi _ => true
  | .smovhi _ => true
  | .mxglostRead _ => true
  | .csrr _ => true
  | .csrw _ => true
  | .sslti _ => true
  | .ldB8 _ => true
  | .ldS8 _ => true
  | .ldB16 _ => true
  | .ldS16 _ => true
  | .ldB32 _ => true
  | .ldB64 _ => true
  | .ldB128 _ => true
  | .stB8 _ => true
  | .stB16 _ => true
  | .stB32 _ => true
  | .stB64 _ => true
  | .stB128 _ => true
  | .stN4 _ => true
  | .stN6 _ => true
  | .ldAcqB32 _ => true
  | .ldAcqB64 _ => true
  | .stRelB32 _ => true
  | .stRelB64 _ => true
  | .atomB32 _ => true
  | .atomB64 _ => true
  | .pf _ => true
  | .spldB8 _ => true
  | .spldB16 _ => true
  | .spldB32 _ => true
  | .spldB64 _ => true
  | .spldB128 _ => true
  | .spstB8 _ => true
  | .spstB16 _ => true
  | .spstB32 _ => true
  | .spstB64 _ => true
  | .spstB128 _ => true
  | .spstN4 _ => true
  | .spstN6 _ => true
  | .stimg _ => true
  | .ldimg _ => true
  | .sld _ => true
  | .sst _ => true
  | .br _ => true
  | .brs _ => true
  | .call _ => true
  | .loop _ => true
  | .jmpx _ => true
  | .ret _ => true
  | .trap _ => true
  | .tretJmp _ => true
  | .join _ => true
  | .leave _ => true
  | .lookup _ => true
  | .tagset _ => true
  | .tagclr _ => true
  | .lnclr _ => true
  | .lnset _ => true
  | .barinit _ => true
  | .barinitCoh _ => true
  | .arrive _ => true
  | .arriveN _ => true
  | .expect _ => true
  | .waitb _ => true
  | .barq _ => true
  | .superstep _ => true
  | .phaseRel _ => true
  | .phaseAcq _ => true
  | .tcfg _ => true
  | .tld _ => true
  | .tst _ => true
  | .mma _ => true
  | .mmas _ => true
  | .aclr _ => true
  | .adrainSp _ => true
  | .adrainG _ => true
  | .adrainV _ => true
  | .forkM _ => true
  | .forkC _ => true
  | .forkMc _ => true
  | .rdvz _ => true
  | .shld _ => true
  | .shset _ => true
  | .copy _ => true
  | .rednet _ => true
  | .get _ => true
  | .ratom _ => true
  | .put _ => true
  | .sqadm _ => true
  | .tokfb _ => true
  | .seqret _ => true
  | .launch _ => true
  | .kvgather _ => true
  | .kvappend _ => true
  | .pgreq _ => true
  | .gather _ => true
  | .scatter _ => true
  | .mcast _ => true
  | .mmag _ => true
  | .neterrWrite _ => true
  | .cpfaultWrite _ => true
  | .mxfaultWrite _ => true
  | .nop => true
  | .exit => true
  | .tret => true
  | .tretSkip => true
  | .fenceLd => true
  | .fenceSt => true
  | .fenceAll => true
  | .seqend => true
  | .pgreqShare _ => false
  | .pgreqRelease _ => false
  | .pgreqPin _ => false
  | .pgreqUnpin _ => false
  | .pgreqFetch _ => false
  | .pgreqRequant _ => false
  | .producerFill _ _ => false
  | .scalarProducerFill _ => false
  | .storeAccept _ _ => false
  | .atomicUnitExecute _ _ => false
  | .crewPlace _ => false
  | .crewEnd _ => false
  | .sequencerContextEnd _ => false
  | .sequencerTrapEnd _ => false
  | .stepTimeout _ => false
  | .mmaComplete _ => false
  | .aclrComplete _ => false
  | .adrainComplete _ => false
  | .tldComplete _ => false
  | .tstComplete _ => false
  | .mmagSliceComplete _ _ => false
  | .copyPart _ _ => false
  | .kvgatherDelivery _ _ => false
  | .kvappendWrite _ => false
  | .pageWaitTimeout _ => false
  | .evictionStart _ => false
  | .evictionCopyEnd _ _ => false
  | .fetchCopyEnd _ _ => false
  | .copyOnWriteEnd _ _ => false
  | .batchFormation _ _ => false
  | .sequenceSweep _ _ => false
  | .iterationGraphComplete _ _ => false
  | .iterationEnd _ _ => false
  | .feedbackWaitExpiry _ _ => false
  | .inboundWithdraw _ _ => false
  | .queueDoorbell _ _ => false
  | .qcreate _ => false
  | .qdestroy _ => false
  | .qdestroyComplete _ => false
  | .qreset _ => false
  | .ctxset _ => false
  | .inval _ => false
  | .invalComplete _ => false
  | .peconfig _ => false
  | .sqconfig _ => false
  | .sgassign _ => false
  | .ringset _ => false
  | .winset _ => false
  | .redset _ => false
  | .irisset _ => false
  | .saveset _ => false
  | .ctxpreempt _ => false
  | .ctxresume _ => false
  | .attest _ => false
  | .pwrset _ => false
  | .devset _ => false
  | .mextend _ => false
  | .repairset _ => false
  | .mgmtUnknownCommand _ => false
  | .launchPacket _ => false
  | .graphPacket _ => false
  | .signalPacket _ => false
  | .barrierAnd _ => false
  | .barrierOr _ => false
  | .barrierPacketPoll _ => false
  | .copyPacket _ => false
  | .seqadmit _ => false
  | .seqcancel _ => false
  | .malformedPacket _ => false
  | .stealRequest _ => false
  | .queueHandover _ => false
  | .queueReturn _ => false
  | .aggregatorWindowClose _ _ => false
  | .ringInterruptTimer _ => false
  | .rdidx _ _ => false
  | .ovf _ => false
  | .mrtail _ _ => false
  | .mrbase _ _ _ => false
  | .hostWindowWrite _ _ _ => false
  | .wlock => false
  | .hostRegisterWrite _ _ => false
  | .rtsReceive _ => false
  | .rtsRetry _ => false
  | .irisGrant _ => false
  | .tokenReceive _ => false
  | .fabricDataLand _ => false
  | .tokenExpiry _ _ => false
  | .orphanTimeout _ _ => false
  | .transferTimeout _ => false
  | .frozen _ _ => false
  | .frozenReceive _ => false
  | .finished _ => false
  | .orphaned _ => false
  | .refusalReceive _ => false
  | .relinquish _ => false
  | .resume _ => false
  | .abort _ => false
  | .rmaReadServe _ => false
  | .getResponseLand _ => false
  | .ratomExecute _ => false
  | .ratomReply _ => false
  | .reductionArrival _ => false
  | .reductionSlotTimeout _ => false
  | .reductionResultLand _ _ => false
  | .unreachable _ => false
  | .portDown _ => false
  | .unsupportedOperation _ => false
  | .crewSave _ _ => false
  | .crewRestore _ _ => false
  | .powerWindow _ _ _ _ => false
  | .thermalClamp _ => false
  | .thermalClampRelease _ => false
  | .thermalMigration _ _ _ => false
  | .uncorrectableError _ => false
  | .correctableError _ => false
  | .coldReset _ => false
  | .powerLoss => false
  | .functionReset => false
  | .functionResetComplete => false
  | .watchdogTimeout _ => false
  | .capFault _ => false
  | .portUp _ => false
  | .queueError _ => false
  | .mgmtRecordSkip _ => false

/-- The 16-bit forms (R53, R54). -/
def Instr.isCompact : Instr → Bool
  | .nop_16 _ => true
  | .mov_16 _ => true
  | .iaddI32_16 _ => true
  | .isubI32_16 _ => true
  | .and_16 _ => true
  | .or_16 _ => true
  | .xor_16 _ => true
  | .shl_16 _ => true
  | .shrUi32_16 _ => true
  | .shrI32_16 _ => true
  | .iminI32_16 _ => true
  | .imaxI32_16 _ => true
  | .faddF32_16 _ => true
  | .fsubF32_16 _ => true
  | .fmulF32_16 _ => true
  | .fminF32_16 _ => true
  | .fmaxF32_16 _ => true
  | .iaddI32 _ => false
  | .iaddI32Sat _ => false
  | .isubI32 _ => false
  | .isubI32Sat _ => false
  | .imulI32 _ => false
  | .imulhI32 _ => false
  | .imadI32 _ => false
  | .imadI32Vc _ => false
  | .iminI32 _ => false
  | .iminUi32 _ => false
  | .imaxI32 _ => false
  | .imaxUi32 _ => false
  | .and _ => false
  | .or _ => false
  | .xor _ => false
  | .shl _ => false
  | .shrUi32 _ => false
  | .shrI32 _ => false
  | .sel _ => false
  | .mov _ => false
  | .movLane _ => false
  | .clz _ => false
  | .popc _ => false
  | .icmpI32 _ => false
  | .icmpUi32 _ => false
  | .iaddi _ => false
  | .andi _ => false
  | .ori _ => false
  | .xori _ => false
  | .shli _ => false
  | .shri _ => false
  | .shriA _ => false
  | .movi _ => false
  | .icmpi _ => false
  | .icmpiU _ => false
  | .iaddP16 _ => false
  | .iaddP16Sat _ => false
  | .isubP16 _ => false
  | .isubP16Sat _ => false
  | .imulP16 _ => false
  | .imulhP16 _ => false
  | .iminP16 _ => false
  | .imaxP16 _ => false
  | .vacsP16 _ => false
  | .vacsP16Max _ => false
  | .shlP16 _ => false
  | .shrP16 _ => false
  | .topk _ => false
  | .sample _ => false
  | .stopchk _ => false
  | .faddF32 _ => false
  | .fsubF32 _ => false
  | .fmulF32 _ => false
  | .ffmaF32 _ => false
  | .ffmaF32Vc _ => false
  | .fminF32 _ => false
  | .fminF32Nan _ => false
  | .fmaxF32 _ => false
  | .fmaxF32Nan _ => false
  | .fcmpF32 _ => false
  | .fcpys _ => false
  | .fneg _ => false
  | .fabs _ => false
  | .frint _ => false
  | .rcp _ => false
  | .rsq _ => false
  | .sqrt _ => false
  | .ex2 _ => false
  | .lg2 _ => false
  | .sin _ => false
  | .cos _ => false
  | .tanh _ => false
  | .fdivF32 _ => false
  | .cvt _ => false
  | .cvtI32 _ => false
  | .cvtUi32 _ => false
  | .pack _ => false
  | .unpack _ => false
  | .quant _ => false
  | .ropeCos _ => false
  | .ropeSin _ => false
  | .smxupd _ => false
  | .smxupdSum _ => false
  | .shflIdx _ => false
  | .shflIdxImm _ => false
  | .shflUp _ => false
  | .shflUpImm _ => false
  | .shflDn _ => false
  | .shflDnImm _ => false
  | .shflXor _ => false
  | .shflXorImm _ => false
  | .bcastFirst _ => false
  | .bcast _ => false
  | .red _ => false
  | .redw _ => false
  | .scan _ => false
  | .scanEx _ => false
  | .sscan _ => false
  | .sscanEx _ => false
  | .ballot _ => false
  | .ballotM _ => false
  | .mand _ => false
  | .mor _ => false
  | .mxor _ => false
  | .mnot _ => false
  | .mpopc _ => false
  | .vtosFirst _ => false
  | .vtos _ => false
  | .stov _ => false
  | .stovHi _ => false
  | .sete _ => false
  | .setf _ => false
  | .tstf _ => false
  | .sadd _ => false
  | .ssub _ => false
  | .smul _ => false
  | .smulh _ => false
  | .smulhu _ => false
  | .sand _ => false
  | .sor _ => false
  | .sxor _ => false
  | .sshl _ => false
  | .sshr _ => false
  | .ssar _ => false
  | .smin _ => false
  | .smax _ => false
  | .sminu _ => false
  | .smaxu _ => false
  | .sseq _ => false
  | .ssne _ => false
  | .sslt _ => false
  | .ssltu _ => false
  | .ssle _ => false
  | .ssleu _ => false
  | .sclz _ => false
  | .spopc _ => false
  | .saddi _ => false
  | .sandi _ => false
  | .sori _ => false
  | .sxori _ => false
  | .sshli _ => false
  | .sshri _ => false
  | .sshriA _ => false
  | .smovi _ => false
  | .smovhi _ => false
  | .mxglostRead _ => false
  | .csrr _ => false
  | .csrw _ => false
  | .sslti _ => false
  | .ldB8 _ => false
  | .ldS8 _ => false
  | .ldB16 _ => false
  | .ldS16 _ => false
  | .ldB32 _ => false
  | .ldB64 _ => false
  | .ldB128 _ => false
  | .stB8 _ => false
  | .stB16 _ => false
  | .stB32 _ => false
  | .stB64 _ => false
  | .stB128 _ => false
  | .stN4 _ => false
  | .stN6 _ => false
  | .ldAcqB32 _ => false
  | .ldAcqB64 _ => false
  | .stRelB32 _ => false
  | .stRelB64 _ => false
  | .atomB32 _ => false
  | .atomB64 _ => false
  | .pf _ => false
  | .spldB8 _ => false
  | .spldB16 _ => false
  | .spldB32 _ => false
  | .spldB64 _ => false
  | .spldB128 _ => false
  | .spstB8 _ => false
  | .spstB16 _ => false
  | .spstB32 _ => false
  | .spstB64 _ => false
  | .spstB128 _ => false
  | .spstN4 _ => false
  | .spstN6 _ => false
  | .stimg _ => false
  | .ldimg _ => false
  | .sld _ => false
  | .sst _ => false
  | .br _ => false
  | .brs _ => false
  | .call _ => false
  | .loop _ => false
  | .jmpx _ => false
  | .ret _ => false
  | .trap _ => false
  | .tretJmp _ => false
  | .join _ => false
  | .leave _ => false
  | .lookup _ => false
  | .tagset _ => false
  | .tagclr _ => false
  | .lnclr _ => false
  | .lnset _ => false
  | .barinit _ => false
  | .barinitCoh _ => false
  | .arrive _ => false
  | .arriveN _ => false
  | .expect _ => false
  | .waitb _ => false
  | .barq _ => false
  | .superstep _ => false
  | .phaseRel _ => false
  | .phaseAcq _ => false
  | .tcfg _ => false
  | .tld _ => false
  | .tst _ => false
  | .mma _ => false
  | .mmas _ => false
  | .aclr _ => false
  | .adrainSp _ => false
  | .adrainG _ => false
  | .adrainV _ => false
  | .forkM _ => false
  | .forkC _ => false
  | .forkMc _ => false
  | .rdvz _ => false
  | .shld _ => false
  | .shset _ => false
  | .copy _ => false
  | .rednet _ => false
  | .get _ => false
  | .ratom _ => false
  | .put _ => false
  | .sqadm _ => false
  | .tokfb _ => false
  | .seqret _ => false
  | .launch _ => false
  | .kvgather _ => false
  | .kvappend _ => false
  | .pgreq _ => false
  | .gather _ => false
  | .scatter _ => false
  | .mcast _ => false
  | .mmag _ => false
  | .neterrWrite _ => false
  | .cpfaultWrite _ => false
  | .mxfaultWrite _ => false
  | .nop => false
  | .exit => false
  | .tret => false
  | .tretSkip => false
  | .fenceLd => false
  | .fenceSt => false
  | .fenceAll => false
  | .seqend => false
  | .pgreqShare _ => false
  | .pgreqRelease _ => false
  | .pgreqPin _ => false
  | .pgreqUnpin _ => false
  | .pgreqFetch _ => false
  | .pgreqRequant _ => false
  | .producerFill _ _ => false
  | .scalarProducerFill _ => false
  | .storeAccept _ _ => false
  | .atomicUnitExecute _ _ => false
  | .crewPlace _ => false
  | .crewEnd _ => false
  | .sequencerContextEnd _ => false
  | .sequencerTrapEnd _ => false
  | .stepTimeout _ => false
  | .mmaComplete _ => false
  | .aclrComplete _ => false
  | .adrainComplete _ => false
  | .tldComplete _ => false
  | .tstComplete _ => false
  | .mmagSliceComplete _ _ => false
  | .copyPart _ _ => false
  | .kvgatherDelivery _ _ => false
  | .kvappendWrite _ => false
  | .pageWaitTimeout _ => false
  | .evictionStart _ => false
  | .evictionCopyEnd _ _ => false
  | .fetchCopyEnd _ _ => false
  | .copyOnWriteEnd _ _ => false
  | .batchFormation _ _ => false
  | .sequenceSweep _ _ => false
  | .iterationGraphComplete _ _ => false
  | .iterationEnd _ _ => false
  | .feedbackWaitExpiry _ _ => false
  | .inboundWithdraw _ _ => false
  | .queueDoorbell _ _ => false
  | .qcreate _ => false
  | .qdestroy _ => false
  | .qdestroyComplete _ => false
  | .qreset _ => false
  | .ctxset _ => false
  | .inval _ => false
  | .invalComplete _ => false
  | .peconfig _ => false
  | .sqconfig _ => false
  | .sgassign _ => false
  | .ringset _ => false
  | .winset _ => false
  | .redset _ => false
  | .irisset _ => false
  | .saveset _ => false
  | .ctxpreempt _ => false
  | .ctxresume _ => false
  | .attest _ => false
  | .pwrset _ => false
  | .devset _ => false
  | .mextend _ => false
  | .repairset _ => false
  | .mgmtUnknownCommand _ => false
  | .launchPacket _ => false
  | .graphPacket _ => false
  | .signalPacket _ => false
  | .barrierAnd _ => false
  | .barrierOr _ => false
  | .barrierPacketPoll _ => false
  | .copyPacket _ => false
  | .seqadmit _ => false
  | .seqcancel _ => false
  | .malformedPacket _ => false
  | .stealRequest _ => false
  | .queueHandover _ => false
  | .queueReturn _ => false
  | .aggregatorWindowClose _ _ => false
  | .ringInterruptTimer _ => false
  | .rdidx _ _ => false
  | .ovf _ => false
  | .mrtail _ _ => false
  | .mrbase _ _ _ => false
  | .hostWindowWrite _ _ _ => false
  | .wlock => false
  | .hostRegisterWrite _ _ => false
  | .rtsReceive _ => false
  | .rtsRetry _ => false
  | .irisGrant _ => false
  | .tokenReceive _ => false
  | .fabricDataLand _ => false
  | .tokenExpiry _ _ => false
  | .orphanTimeout _ _ => false
  | .transferTimeout _ => false
  | .frozen _ _ => false
  | .frozenReceive _ => false
  | .finished _ => false
  | .orphaned _ => false
  | .refusalReceive _ => false
  | .relinquish _ => false
  | .resume _ => false
  | .abort _ => false
  | .rmaReadServe _ => false
  | .getResponseLand _ => false
  | .ratomExecute _ => false
  | .ratomReply _ => false
  | .reductionArrival _ => false
  | .reductionSlotTimeout _ => false
  | .reductionResultLand _ _ => false
  | .unreachable _ => false
  | .portDown _ => false
  | .unsupportedOperation _ => false
  | .crewSave _ _ => false
  | .crewRestore _ _ => false
  | .powerWindow _ _ _ _ => false
  | .thermalClamp _ => false
  | .thermalClampRelease _ => false
  | .thermalMigration _ _ _ => false
  | .uncorrectableError _ => false
  | .correctableError _ => false
  | .coldReset _ => false
  | .powerLoss => false
  | .functionReset => false
  | .functionResetComplete => false
  | .watchdogTimeout _ => false
  | .capFault _ => false
  | .portUp _ => false
  | .queueError _ => false
  | .mgmtRecordSkip _ => false

/-- The PFX word of the fields (R55). -/
def putPfx (p : Pfx) : Nat :=
  0x9B + p.mask.toNat * 2 ^ 8 + p.rm.toNat * 2 ^ 11 + p.vs3.toNat * 2 ^ 14 + b2n p.z * 2 ^ 21 + p.imx.toNat * 2 ^ 22

/-- The LIM word of the upper immediate bits (R55). -/
def putLim (l : BitVec 24) : Nat := 0x9D + l.toNat * 2 ^ 8

/-- A 32-bit word as its two parcels, the low half first (R49). -/
def parcelsOf (w : Nat) : List Parcel := [BitVec.ofNat 16 w, BitVec.ofNat 16 (w / 2 ^ 16)]

/-- The parcels of an instruction: PFX, LIM, base (R50), or one compact parcel. -/
def encode (i : Instr) : List Parcel :=
  if i.isCompact then [BitVec.ofNat 16 i.baseWord]
  else
    (match i.pfx? with | some p => parcelsOf (putPfx p) | none => [])
      ++ (match i.lim? with | some l => parcelsOf (putLim l) | none => [])
      ++ parcelsOf i.baseWord

/-- The length in bytes of the group: 2, 4, 8 or 12 (R398 TLEN). -/
def Instr.len (i : Instr) : Nat := 2 * (encode i).length

/-- The kinds of program that execute `i` (R268). -/
def Instr.takenBy (i : Instr) (e : Engine) : Bool := engineTakes e i.baseWord

/-- The parcels of `n` bytes whose bits are `w`, the first word lowest. -/
def parcelList : Nat → Nat → List Parcel
  | 0, _ => []
  | n + 1, w => BitVec.ofNat 16 w :: parcelList n (w / 2 ^ 16)

/-- The instruction read from a word whose bits are numbered as the opcode table numbers them: the first
engine of vector, matrix, copy whose program takes it. -/
def decodeTableWord (_nbits w : Nat) : Option Instr :=
  match decode .vector (parcelList 6 w) with
  | .ok i => some i
  | _ =>
    match decode .matrix (parcelList 6 w) with
    | .ok i => some i
    | _ =>
      match decode .copy (parcelList 6 w) with
      | .ok i => some i
      | _ => none

end

end Sys2Proof
end

