-- ==== Sys2Proof/Config.lean ====
section
/-! DEFINITION. What the spec leaves to the part or gives only within a bound: free values, one opaque
constant each, so that no proof can see what they are (log entries 5 and 7). -/
namespace Sys2Proof.Config

/-- A choice among the results that R148 allows for 2 to the power of an operand that is not integral. -/
opaque ex2 : W32 → W32
/-- The same for log2 of an operand that is not a power of two (R148). -/
opaque lg2 : W32 → W32
/-- The same for sin (R148). -/
opaque sin : W32 → W32
/-- The same for cos (R148). -/
opaque cos : W32 → W32
/-- The same for tanh (R148). -/
opaque tanh : W32 → W32
/-- The same for cos of position times frequency (R315). -/
opaque ropeCos : W32 → W32 → W32
/-- The same for sin of position times frequency (R315). -/
opaque ropeSin : W32 → W32 → W32
/-- A value that the spec leaves open, one for each count of the state's counter (log entry 5). -/
opaque free : Nat → W64
/-- SHAKE256 with a 64-byte result, of a list of bytes (R424, log entry 7). -/
opaque shake256 : List Byte → BitVec 512
/-- The Falcon-1024 signature of the device's attestation key (R426, log entry 7). -/
opaque attestSign : List Byte → List Byte

/-- The digest of a slot's public key in the fuse block, whose layout is open (R425, log entry 7). -/
opaque fuseDigest : List Byte → Nat → BitVec 512
/-- The slot's revoke bit in the fuse block (R425, log entry 7). -/
opaque fuseRevoked : List Byte → Nat → Bool
/-- A Falcon-1024 signature holds: public key, message, signature (R425, log entry 7). -/
opaque falconOk : List Byte → List Byte → List Byte → Bool

/-- The 32 bytes of an error or event record (R414, which names its fields and gives no layout), of its die, core, structure,
address, correctable flag and time (log entry 10). -/
opaque eventRecord : List Nat → BitVec 256
/-- The bytes of a part of a context image that R403 names and does not lay out (log entry 11). -/
opaque imagePart : List Nat → Byte
/-- The members of a fabric group below the switch that the model holds (R390, R393, log entry 12). -/
opaque swBelow : Nat → Nat
/-- The port of that switch on which a rank's contribution arrives (R393). -/
opaque swPort : Nat → Nat → Nat
/-- The home port of a 64-byte block of memory (R192: fixed by the part; log entry 93). -/
opaque homePort : Nat → Nat
/-- The die to which the port of a 64-byte block of LPDDR 6 attaches (R283; log entry 93). -/
opaque portDie : Nat → Nat
/-- The capability through which firmware follows the pointers of a queue's packets, by what creates the queue: base, length, the
permissions to read and to write, and the valid tag (R427, log entry 114). -/
opaque queueCap : List Nat → Nat × Nat × Bool × Bool × Bool
/-- The matrix engine is a core's larger consumer in a power window: die, core, window (R408, log entry 116). -/
opaque matrixLeads : Nat → Nat → Nat → Bool
/-- That switch is the root of the group (R390, R393). -/
opaque swRoot : Nat → Bool

end Sys2Proof.Config
end

