-- ==== Sys2Proof/Machine/State.lean ====
section
/-! DEFINITION. The state of one Soivo K2 package as plain data: registers, scratchpads, memory, the
operations in flight, the engines, queues, fabric and boot state, and the agenda that says which agent
performs the next indivisible step (INVENTORY.md, "## State"). -/
namespace Sys2Proof.Machine

/-- Why a step stops with a fault. No instruction of this model does: see NOTES.md, "## Stops". -/
inductive Fault where
  /-- Raised by nothing: every failure the spec describes is a next state. Safe. -/
  | unreached
  deriving DecidableEq, Repr

/-- Why a step is refused. -/
inductive Refusal where
  /-- Raised by an arm of `exec` whose instruction has no meaning yet. Safe. -/
  | notModelled (mnemonic : String)
  deriving DecidableEq, Repr

/-- One lane of a vector register (R113, R117): data, sticky bit, full bit, pending and poison marks. -/
structure Lane where
  data : W32
  s : Bool
  f : Bool
  pend : Bool
  poison : Bool
  deriving DecidableEq, Repr

/-- A lane as a launch leaves it (R113). -/
def Lane.launch : Lane := ⟨0, false, true, false, false⟩

/-- A full lane holding a value. -/
def Lane.full (d : W32) (s : Bool) : Lane := ⟨d, s, true, false, false⟩

/-- A vector register: 64 lanes. -/
abbrev VReg := List Lane

/-- The states of a frontier entry (R83, R92). -/
inductive EntState where
  | ready | parked | held
  deriving DecidableEq, Repr

/-- What a parked entry awaits: a phase of a barrier (R236), or the end of a step (R243) with the register its
status goes to; `woken` once the phase has come, with the writes that happen before it (R216, R218), and `status`. -/
inductive Wait where
  | bar (off : Nat) (phase : BitVec 16) (woken : Option (List Nat))
  | step (sd : Nat) (status : Option W64)
  deriving DecidableEq, Repr

/-- A frontier entry (R88, R92). -/
structure Entry where
  prio : BitVec 16
  pc : W32
  st : EntState
  mask : W64
  wait : Option Wait
  deriving DecidableEq, Repr

/-- A loop stack entry (R95); presence in the stack is VALID. -/
structure LoopEnt where
  start : W32
  stop : W32
  count : W32
  members : W64
  broken : W64
  deriving DecidableEq, Repr

/-- A warp's cohort membership (R103, R232): the slot of the cluster's table, its key, the member threads,
those that have arrived at the bound barrier, and the phase they arrived for. -/
structure Member where
  slot : Nat
  key : W32
  mask : W64
  arrived : W64
  phase : BitVec 16
  deriving DecidableEq, Repr

/-- A warp (R86, R113, R398). -/
structure Warp where
  regs : List VReg
  sregs : List W64
  spend : W64
  spoison : W64
  mregs : List W64
  mpoison : BitVec 8
  rmode : BitVec 3
  ftz : BitVec 3
  frontier : List Entry
  loops : List LoopEnt
  shadow : List LoopEnt
  hact : Bool
  nkill : BitVec 8
  tlen : BitVec 4
  hmask : W64
  trapcause : W64
  trappc : W64
  trapinfo : W64
  faultdet : W64
  poisonva : W64
  sqtcause : W64
  sqtpc : W64
  sqtinfo : W64
  cohorts : List Member
  deriving DecidableEq, Repr

/-- What an image descriptor and its priority table say (R80, R81). -/
structure Image where
  va : W64
  regs : Nat
  warps : Nat
  crewmax : Nat
  acc : Nat
  bars : Nat
  tilekib : Nat
  scrlines : Nat
  prios : List (Nat × Nat)
  textOff : Nat
  textLen : Nat
  matOff : Nat
  matLen : Nat
  copyOff : Nat
  copyLen : Nat
  dataOff : Nat
  dataLen : Nat
  deriving DecidableEq, Repr

/-- An accumulator tile (R250, R251): FP32 elements by 64 * row + column, its full bit, poisoned elements. -/
structure Acc where
  elems : Sparse 32
  full : Bool
  poison : Sparse 1
  deriving DecidableEq, Repr

/-- A slot of a cluster's cohort table (R102, R103, R232); count 0 is a free slot. -/
structure Cohort where
  die : Nat
  cluster : Nat
  slot : Nat
  key : W32
  ctxid : Nat
  count : Nat
  bound : Option (Nat × Nat)
  deriving DecidableEq, Repr

/-- Where a crew stands (R87, R403). -/
inductive CrewSt where
  | running | saved | ended
  deriving DecidableEq, Repr

/-- A crew and its core resources (R83 to R87, R113, R163, R178, R244, R250, R276). -/
structure Crew where
  st : CrewSt
  launch : Nat
  image : Image
  die : Nat
  core : Nat
  ctl : Bool
  ctxid : Nat
  crewid : Nat
  ncrews : Nat
  kparam : W64
  kdata : W64
  warps : List Warp
  sp : Sparse 8
  spPoison : Sparse 1
  lines : Sparse 5
  tags : List (Nat × W32)
  tagPoison : Sparse 1
  tile : Sparse 8
  tilePoison : Sparse 1
  td : List (BitVec 128)
  sh : List (BitVec 512)
  accs : List Acc
  tvec : W32
  cpfault : W64
  neterr : W64
  pgwait : BitVec 16
  thbase : W64
  thcount : BitVec 16
  firstKill : BitVec 8
  killNo : Nat
  placed : Nat
  stepGroup : Option Nat
  stepNo : Nat
  savedWhy : Nat
  savedAt : Nat
  deriving DecidableEq, Repr

/-- The states of a sequencer context (R269, R272, R273). -/
inductive CtxSt where
  | running | parked | ending | trapped | ended
  deriving DecidableEq, Repr

/-- A sequencer context (R266 to R269, R253); `mxbad`: it is faulted, and its matrix operations from that number on are discarded (R254). -/
structure SCtx where
  matrix : Bool
  st : CtxSt
  wasTrapped : Bool
  joined : Bool
  crew : Nat
  warp : Nat
  mask : W64
  rid : Nat
  pc : W32
  sregs : List W64
  spend : W64
  spoison : W64
  loops : List LoopEnt
  rmode : BitVec 3
  ftz : BitVec 3
  wait : Option Wait
  mxbar : W64
  mxshape : W64
  mxgang : W64
  mxfault : W64
  mxglost : W64
  mxbad : Option Nat
  forkOp : Nat
  cause : W64
  tpc : W64
  info : W64
  deriving DecidableEq, Repr

/-- What a pending lane receives: values ready to land (register, lane contents), or bytes still to be read
from memory into the run at `vt` (R175, R200), or the upper half of a 16-byte host access whose lower half has been read (R194). -/
inductive FillSrc where
  | ready (vals : List (Nat × Lane))
  | mem (key n : Nat) (sx : Bool) (vt : Nat)
  | half (lo : Nat) (bad : Bool) (key vt : Nat)
  | unit
  deriving DecidableEq, Repr

/-- One lane of a producer in flight (R117). -/
structure Fill where
  lane : Nat
  src : FillSrc
  deriving DecidableEq, Repr

/-- Bytes of one lane on their way to a port: the bits of `mask` of the `n` bytes at `key` (R195, R201). -/
structure Cellw where
  lanes : W64
  key : Nat
  n : Nat
  val : Nat
  mask : Nat
  deriving DecidableEq, Repr

/-- One lane of an ATOM that its unit has not yet executed (R206). -/
structure AtomLane where
  lane : Nat
  key : Nat
  cmp : Nat
  b : Nat
  deriving DecidableEq, Repr

/-- A scalar load in flight (R204): from memory, or from the aperture with the value read at issue (R182). -/
structure SLoad where
  sd : Nat
  key : Nat
  val : Option W64
  deriving DecidableEq, Repr

/-- A byte on its way with its poison mark (R412). -/
abbrev MByte := Byte × Bool

/-- A lane of a remote atomic (R385): offset, comparand and operand. -/
structure RaLane where
  lane : Nat
  off : Nat
  cmp : Nat
  b : Nat
  deriving DecidableEq, Repr

/-- A lane's answer: the old value, or the reason of R386; whether its word was poisoned (R206). -/
structure RaRes where
  lane : Nat
  old : Nat
  reason : Nat
  bad : Bool
  deriving DecidableEq, Repr

/-- A contribution to a network reduction (R391, R393): its key, the ranks it holds, the group's members, the slot timeout in ns, its
format fields, whether its elements are the partials of another switch with their NANSEEN (R394), and the elements. -/
structure Contrib where
  fgrp : Nat
  cseq : Nat
  op : Nat
  ranks : W64
  nmemb : Nat
  timeout : Nat
  fmt : Nat
  nan : Bool
  rf : Bool
  part : Bool
  nanseen : Bool
  elems : List Nat
  deriving DecidableEq, Repr

/-- What a message of the fabric says (R374 to R379, R385, R391): requests and data towards a receiver, tokens and answers towards
a sender, remote atomics, reductions. -/
inductive WireBody where
  | rts (len prio : Nat) (rword : W64) (pre : List MByte)
  | data (off : Nat) (bs : List MByte) (tok : Option Nat)
  | token (tok lo n port : Nat)
  | full
  | refused (reason short : Nat)
  | landed (lo n : Nat)
  | finished
  | orphaned (short : Option Nat)
  | frozen
  | relinquish (sent : List Nat)
  | resume
  | abort
  | rmaRead (rword : W64) (lo n tok : Nat)
  | rmaResp (lo tok : Nat) (bs : List MByte) (edge : List (Nat × MByte))
  | ratom (aop sz : Nat) (rel : Bool) (rword : W64) (lanes : List RaLane)
  | ratomReply (rs : List RaRes)
  | contrib (c : Contrib)
  | redResult (status : Nat) (nanseen : Bool) (bitmap : W64) (payload : List Byte)
  | unsupported
  | unsupportedResp
  deriving DecidableEq, Repr

/-- A message on its way to this package: the device it comes from, its transfer's message ID, what it says, and the writes that happen
before it (R217 to R219). -/
structure Wire where
  peer : Nat
  mid : Nat
  body : WireBody
  seen : List Nat
  deriving DecidableEq, Repr

/-- What follows an agent's turn when it is taken: `arrive` is a message from another device, `lead` moves a die's
clock ahead of device time (R132), `lookBack` lets the reads that follow return what memory held after so many accepted writes (one
number for each part of a read of several), where R220 allows it; `hostRead` is a read of host memory by the host; `barRead` and `barWrite` are the host's accesses to a BAR of `n` bytes
and of 8 (R418), `boot` is the next stage of a boot (R423), `heartbeat` that of a scheduler core (R427). -/
inductive Turn where
  | event (i : Instr)
  | barRead (bar off n : Nat)
  | barWrite (bar off : Nat) (v : W64)
  | boot
  | heartbeat (die core : Nat)
  | issue (t : ThreadRef)
  | elapse (ns : Nat)
  | lead (die ns : Nat)
  | hostWrite (addr : Nat) (bytes : List Byte)
  | hostRead (addr n : Nat)
  | cacheXlat (ctx va level : Nat)
  | dropXlat (ctx va level : Nat)
  | useCached (b : Bool)
  | lookBack (ts : List Nat)
  | arrive (m : Wire)
  deriving DecidableEq, Repr

/-- A change to a barrier that comes from outside its crew's own instructions (R228, R230 to R233): bytes that
land, a settlement of `n` bytes with a status bit, a landing that also sets one,
an acknowledgement with a status bit for `n` bytes not delivered, arrivals of an engine, an expectation of an engine, cohort
members that join or leave, a dissolved cohort, the loss record of a ganged product (R261). -/
inductive BarUpd where
  | land (n : Nat)
  | settle (n bit : Nat)
  | landBit (n bit : Nat)
  | ack (n bit : Nat)
  | arrive (n : Nat) (fault : Bool)
  | expect (n : Nat)
  | joined (n : Nat)
  | left (n : Nat) (lost : Bool)
  | dissolved
  | gang (iwarp : Option Nat) (fpart : Nat) (fault : Bool)
  deriving DecidableEq, Repr

/-- Where bytes lie: a scratchpad offset, or a memory key (R181, R199). -/
inductive Spot where
  | spad (off : Nat)
  | mem (key : Nat)
  deriving DecidableEq, Repr

/-- What one acceptance of a drain or a TST writes: bytes with their places, or for add-on-store the places of an element and the FP32
value to be added there (R169, R196). -/
structure MxShare where
  bytes : List (Spot × MByte)
  adds : List (List Spot × W32)
  deriving DecidableEq, Repr

/-- A member crew of an MMAG: its index, its own descriptor at issue, and how its slice ended (R261). -/
structure Slice where
  crew : Nat
  td : BitVec 128
  ended : Option Bool
  deriving DecidableEq, Repr

/-- A matrix operation in flight (R253 to R264): its FN6, accumulator, captured descriptors, CSRs, shape record and
registers, FTZ.MAT and rounding mode; for ADRAIN the destination kind, add-on-store, the valid rows read at issue,
the lanes it emptied, which of them were full and which poisoned by register, and the lines it armed that have not landed; for ADRAIN and TST what is still to be accepted once their data have been read; for MMAG the members, and the reservation
that holds B once it has been read. -/
structure MxOp where
  fn : Nat
  acc : Nat
  tda : BitVec 128
  tdb : BitVec 128
  bar : W64
  shape : W64
  sh : BitVec 512
  x : W64
  c : W64
  mat : Bool
  rm : Nat
  dst : Nat
  add : Bool
  rows : W64
  lanes : W64
  lines : List Nat
  members : List Slice
  was : List (Nat × W64 × W64)
  shares : Option (List MxShare)
  btile : Option (Sparse 8 × Sparse 1)
  deriving DecidableEq, Repr

/-- A receiver of an MCAST: its crew's index in the launch, destination and barrier offsets, and whether its entry
can be delivered (R287). -/
structure McDst where
  crew : Nat
  doff : Nat
  rbar : Nat
  ok : Bool
  deriving DecidableEq, Repr

/-- A copy-engine operation in flight (R280 to R287): FN6, the destination and source registers, control word, shape
record, the ranges of its bytes that no destination has accepted, the lines it armed that have not landed, whether it has begun,
whether an index was out of range, and the receivers; the ranges of its bytes that have not been read, those that have been with their
poison marks and the die they came from (R211, R217), the indices read, the parts accepted and not accounted with whether each was
skipped (R218, R286), whether a receiver refused, and when a part last met a full request table (R374, R380). -/
structure CpOp where
  fn : Nat
  dst : Nat
  src : Nat
  ctl : W64
  sh : BitVec 512
  left : List (Nat × Nat)
  lines : List Nat
  begun : Bool
  part : Bool
  recv : List McDst
  unread : List (Nat × Nat)
  data : Sparse 8
  marks : Sparse 1
  dies : List (Nat × Nat × Nat)
  idx : List (Nat × Nat)
  owed : List (Nat × Nat × Bool)
  bad : Bool
  tried : Option Nat
  deriving DecidableEq, Repr

/-- A KVGATHER's delivery (R311, R312): the die of its page engine, placement, geometry of its pool, the lanes of its set with a
status and a frame each, the destination lines that have not landed, the rows read so far by lane, and the lines accepted that are
still to be accounted (R217, R218); when a line last met a full request table (R374, R380). -/
structure KvGather where
  die : Nat
  pool : BitVec 64
  dest : Nat
  tr : Bool
  kv : Nat
  head : Nat
  pos : Nat
  bar : Nat
  lanes : List (Nat × Nat × Nat)
  left : List Nat
  rows : List (Nat × List MByte)
  owed : List Nat
  tried : Option Nat
  deriving DecidableEq, Repr

/-- A KVAPPEND's write (R313): its sequence, frame, where its row lies, the row, whether it clipped, and the scale codes it fixed
in a frame that a copy still fills; when it last met a full request table (R374, R380). -/
structure KvAppend where
  die : Nat
  seq : Nat
  frame : Nat
  addr : Nat
  off : Nat
  bar : Nat
  row : List Byte
  clip : Bool
  fix : List (Nat × Nat)
  tried : Option Nat
  deriving DecidableEq, Repr

/-- A reduction group of this device (R390). -/
structure RedGrp where
  idx : Nat
  fgrp : Nat
  rank : Nat
  nmemb : Nat
  ctxid : Nat
  timeout : Nat
  deriving DecidableEq, Repr

/-- A transfer that this package sends or fetches (R383, R384, R391): FN6, die, message ID, remote or group word, control word, local
address and bytes; whether its request has left, and when it last did; the tokens it has answered; the bytes that it has not sent (PUT) or
that have not landed; when an answer last came; a reduction's status and bytes once they have come; its armed lines;
the reduction group; a GET's ranges that have been asked for with the time that each has had no response (R379), and the response that
is landing: its message, the offset and bytes still to land, and how many bytes have (R169); a PUT's ranges not yet confirmed landed (R388);
the bytes of source words that its packets cut, and those of destination words whose other bytes have not come (R211); the
tokens that have come (R378). -/
structure NetOp where
  fn : Nat
  die : Nat
  mid : Nat
  rword : W64
  ctl : W64
  addr : Nat
  len : Nat
  rts : Bool
  sentAt : Nat
  tokens : List Nat
  left : List (Nat × Nat)
  last : Nat
  asked : Bool
  result : Option (Nat × List Byte)
  lines : List Nat
  grp : Option RedGrp
  asks : List (Nat × Nat × Nat)
  landing : Option (Nat × Nat × List MByte × Nat)
  unconf : List (Nat × Nat)
  edge : List (Nat × MByte)
  held : List (Nat × MByte)
  heard : List Nat
  deriving DecidableEq, Repr

/-- The engine side of an operation (R210). -/
inductive Engop where
  | mx (m : MxOp)
  | cp (c : CpOp)
  | kg (g : KvGather)
  | ka (a : KvAppend)
  | net (n : NetOp)
  | ra (mid dst n last : Nat) (rword : W64)
  deriving DecidableEq, Repr

/-- A release point through which a write is observed (R213, R214): its thread context, none for firmware, a scheduler, the host or a
remote atomic; its scope; and the writes (by their place in `State.hist`) that happen before it. -/
structure Head where
  who : Option ThreadRef
  scope : Nat
  seen : List Nat
  deriving DecidableEq, Repr

/-- Who performs a write (R210): threads, by their context, lanes and the operation number from which on they come after it in program
order; an operation thread, by its number; work of firmware, a scheduler, the fabric or the host, whose events are ordered as they come;
or an agent that nothing follows. -/
inductive Agent where
  | thread (who : ThreadRef) (lanes : W64) (since : Nat)
  | op (id : Nat)
  | work
  | other
  deriving DecidableEq, Repr

/-- Who performs a write, the writes known to happen before what it does, and the release points of the write's release sequences
(R214, R219). -/
structure Author where
  agent : Agent
  past : List Nat
  heads : List Head
  deriving DecidableEq, Repr

/-- An agent that nothing follows, and of which nothing is known. -/
def Author.other : Author := ⟨.other, [], []⟩

/-- An accepted write in coherence order (R211): in memory or in a crew's scratchpad, its bytes, what they held before it, and who
performed it. `more`: the acceptance of the write before it goes on (R169, R194). -/
structure Wr where
  sp : Option Nat
  key : Nat
  n : Nat
  old : Sparse 8
  author : Author
  more : Bool
  deriving DecidableEq, Repr

/-- A read of program threads (R220, R224): the operation number from which on they come after it, its bytes, and how many writes had
been accepted when memory held what it returned. -/
structure Rd where
  who : ThreadRef
  lanes : W64
  since : Nat
  sp : Option Nat
  key : Nat
  n : Nat
  upto : Nat
  deriving DecidableEq, Repr

/-- Writes that happen before the later accesses of threads by an acquire or a join (R214, R216, R218). -/
structure Known where
  who : ThreadRef
  lanes : W64
  since : Nat
  seen : List Nat
  deriving DecidableEq, Repr

/-- A release point of PHASE.REL (R213, R224): its threads, the operation number from which on writes follow it, its scope. -/
structure Rel where
  who : ThreadRef
  lanes : W64
  since : Nat
  scope : Nat
  deriving DecidableEq, Repr

/-- An arrival at a barrier as a release point, or an engine's landing or arrival there (R213, R216, R218): the barrier of a crew, the
phase that it helps to complete, and the writes that happen before it. -/
structure Arrival where
  crew : Nat
  off : Nat
  phase : Nat
  seen : List Nat
  deriving DecidableEq, Repr

/-- The end of a contribution to the PEND count of a scratchpad line (R170, R218): the operation thread's writes to the line, and what
happens before them. -/
structure Landing where
  crew : Nat
  line : Nat
  seen : List Nat
  deriving DecidableEq, Repr

/-- An operation thread that has been issued (R210, R217): its number, its issuer and threads, its crew. -/
structure Forked where
  id : Nat
  who : ThreadRef
  lanes : W64
  crew : Nat
  deriving DecidableEq, Repr

/-- The operation threads and the accesses in flight (R210): who issued it, which threads, the scope of an acquire or a release
(R212), and its parts. -/
structure Op where
  id : Nat
  who : ThreadRef
  crew : Nat
  warp : Nat
  lanes : W64
  isLoad : Bool
  acq : Bool
  rel : Bool
  scope : Nat
  fills : List Fill
  sload : Option SLoad
  cells : List Cellw
  atoms : List AtomLane
  aop : Nat
  awidth : Nat
  vt : Nat
  eng : Option Engop
  deriving DecidableEq, Repr

/-- An assigned step group of a barrier unit (R241, R242): its number g, its context, its timeout in ns (0: none),
the launch that names it with its participant count, the step number, when the first participant arrived in the
step, the status bits of the operations settled in it, and the writes that happen before each SUPERSTEP issued in it, by crew (R223). -/
structure StepGrp where
  g : Nat
  ctxid : Nat
  timeout : Nat
  launch : Option Nat
  ncrews : Nat
  step : Nat
  first : Option Nat
  flags : BitVec 4
  seen : List (Nat × List Nat)
  deriving DecidableEq, Repr

/-- A FORK that found its pool empty: the entry that waits and the kinds it needs (R266). -/
structure ForkWait where
  crew : Nat
  warp : Nat
  pc : W32
  mask : W64
  m : Bool
  c : Bool
  deriving DecidableEq, Repr

/-- A thread that waits for a page or a frame in place (R310): its entry, since when, and what it awaits: a frame of a die's page
engine, or so many free ones; `paused`: it awaits something else now, having waited for `since` ns. -/
structure PgWait where
  who : ThreadRef
  pc : W32
  since : Nat
  kind : Nat
  lane : Nat
  frame : Nat
  die : Nat
  need : Nat
  paused : Bool
  deriving DecidableEq, Repr

/-- A tier range record (R292). -/
structure TierRange where
  tier : Nat
  first : Nat
  count : Nat
  tbase : Nat
  fbase : Nat
  deriving DecidableEq, Repr

/-- The configuration of a page engine (R292, R296). Its frame table lies in memory. -/
structure PageEng where
  lowat : Nat
  reserve : Nat
  frshift : Nat
  ranges : List TierRange
  pools : List (BitVec 64)
  deriving DecidableEq, Repr

/-- An entry of an iteration (R329, R331): sequence, first position, tokens, output row, whether it has been fed back. -/
structure IterEnt where
  seq : Nat
  pos0 : Nat
  ntok : Nat
  row : Option Nat
  fed : Bool
  deriving DecidableEq, Repr

/-- A group's iterations (R329, R332): the next number, whether the last formed has not ended, its graph's job, the status of
that once complete, when the scheduler saw it, its entries, and since when the group has owed a sweep. -/
structure GroupIter where
  n : Nat
  opn : Bool
  job : Option Nat
  result : Option Nat
  graphAt : Option Nat
  ents : List IterEnt
  owed : Option Nat
  deriving DecidableEq, Repr

/-- A sequence scheduler (R319 to R325): its configuration, the generation of each slot less 1, the pages promised in all and to
each slot, the groups' iterations, the inbound barriers (bits 255:0 as laid out, above them the pending bytes in full), the withdrawn
inbound sequences (1), the sequences that had an output row in an iteration that failed (R333), and the writes that happen before the
scheduler's next step (R322). -/
structure Sched where
  recbase : Nat
  recva : W64
  pagecap : Nat
  groups : List (BitVec 512)
  gens : Sparse 18
  commit : Nat
  needs : Sparse 64
  iters : List GroupIter
  inbars : Sparse 512
  gone : Sparse 1
  lost : List Nat
  seen : List Nat
  deriving DecidableEq, Repr

/-- A window as a request captures it (R370, R372). -/
structure Win where
  ctxid : Nat
  base : Nat
  len : Nat
  perm : BitVec 3
  die : Nat
  acct : Nat
  anyPeer : Bool
  peer : Nat
  ltag : Nat
  rcrew : Nat
  rbar : Nat
  deriving DecidableEq, Repr

/-- Where a request accounts its bytes (R372, R379, R384): nowhere, a crew's barrier, that of a crew of a launch which has not been
placed yet, a slot's inbound barrier. -/
inductive DstBar where
  | none
  | crew (ci off : Nat)
  | coming (launch crewid rbar : Nat)
  | slot (slot : Nat)
  deriving DecidableEq, Repr

/-- The states of an Iris request (R374, R388, R389). -/
inductive ReqSt where
  | queued | suspended | frozen | frozenSusp
  deriving DecidableEq, Repr

/-- A request at an Iris (R372 to R379): its number in RTS acceptance order, its key (sender device and message ID, or this die's own operation), what it captured,
the bytes that no token covers, those that have not landed, consecutive unused tokens, when its sender last spoke, when
FROZEN was last sent, the bytes that have come of words whose other bytes have not (R211), and the writes of its landings with those
that happen before them (R218). -/
structure Req where
  seq : Nat
  peer : Nat
  mid : Nat
  own : Bool
  prio : Nat
  rword : W64
  win : Option Win
  bar : DstBar
  len : Nat
  ungr : List (Nat × Nat)
  unland : List (Nat × Nat)
  st : ReqSt
  unused : Nat
  spoke : Nat
  frozenAt : Nat
  silent : Nat
  held : List (Nat × MByte)
  seen : List Nat
  deriving DecidableEq, Repr

/-- A pull token (R375, R376); a standing reservation (R379) is one without an expiry. -/
structure Token where
  tok : Nat
  peer : Nat
  mid : Nat
  lo : Nat
  n : Nat
  port : Nat
  expiry : Option Nat
  left : List (Nat × Nat)
  deriving DecidableEq, Repr

/-- An Iris (R373 to R379): its record, requests in RTS acceptance order, tokens, deficits of levels 2 to 7, the level whose turn
it is, the number of the request last served of each level, and the next number. -/
structure Iris where
  cfg : BitVec 512
  reqs : List Req
  toks : List Token
  deficit : List Nat
  turn : Nat
  served : List (Nat × Nat)
  next : Nat
  deriving DecidableEq, Repr

/-- A child launch in an aggregator window (R357): parameter pointer, completion fields, and the writes that happen before its fork
(R356). -/
structure Kid where
  param : W64
  cq : Bool
  compl : Nat
  tag : Nat
  seen : List Nat
  deriving DecidableEq, Repr

/-- An open aggregator window (R357): its key, context, when it opened, and its children in order. -/
structure AggWin where
  key : BitVec 512
  ctxid : Nat
  opened : Nat
  kids : List Kid
  deriving DecidableEq, Repr

/-- A management command that has begun and not completed (R344, R355, R190, R407). -/
inductive CmdKind where
  | destroy (q : Nat)
  | inval (ctx start len op : Nat)
  | preempt (ctx saved : Nat)
  | resume (ctx : Nat)
  deriving DecidableEq, Repr

/-- A command in progress: what it does, its TAG and its completion address. -/
structure PendCmd where
  kind : CmdKind
  tag : Nat
  addr : Nat
  deriving DecidableEq, Repr

/-- What belongs to one die beside its cores (R18, R308, R344, R348, R353, R354, R357, R417, R427, R462): among it the power budget
that takes effect at the next window, when each scheduler core last gave a heartbeat, and the page copies that met a full table of
requests with the time (R374, R380), and the power window in which each core was last granted its allowances (R408). -/
structure Die where
  pe : PageEng
  sched : Sched
  iris : Iris
  mrbase : Nat
  mrlogn : Nat
  mrtail : Nat
  mrhead : Nat
  pend : Option PendCmd
  aggs : List AggWin
  devq : List AggWin
  steals : Nat
  rr : List Nat
  budget : Nat
  moved : List (Nat × Nat)
  stopped : Bool
  nextBudget : Option (Nat × Nat)
  beats : List Nat
  tries : List (Nat × Nat)
  granted : List (Nat × Nat)
  deriving DecidableEq, Repr

/-- A capability of the firmware (R427): base, length, permissions, and the hidden valid tag. -/
structure Cap where
  base : Nat
  len : Nat
  read : Bool
  write : Bool
  valid : Bool
  deriving DecidableEq, Repr

/-- The states of a queue that is not FREE (R342). -/
inductive QSt where
  | active | overrun | error | draining
  deriving DecidableEq, Repr

/-- A queue (R341, R342, R344, R354), with the capability through which the firmware follows the pointers of its packets (R427), the writes that happen before its next packet (R343, R352), and those before the
completions of its packets (R345, R347); one that is not listed is FREE. -/
structure Queue where
  qid : Nat
  st : QSt
  stolen : Bool
  base : Nat
  logn : Nat
  prio : Nat
  ctxid : Nat
  err : Nat
  head : Nat
  tail : Nat
  cap : Cap
  seen : List Nat
  done : List Nat
  deriving DecidableEq, Repr

/-- How a node of a graph stands in its pass (R360). -/
inductive NodeSt where
  | idle | running | resolved
  deriving DecidableEq, Repr

/-- A command graph in progress (R359, R360): its nodes, limits, pass, and for each node the edges still to resolve, whether it is
live and how it stands; whether the pass re-arms, the node that failed with its cause, the nodes completed in all passes, and for each
node the writes that happen before its start. -/
structure Graph where
  nodes : List (BitVec 512)
  maxpass : Nat
  arg : W64
  deadline : Nat
  pass : Nat
  pend : List Nat
  live : List Bool
  st : List NodeSt
  rearm : Bool
  failed : Option (Nat × Nat)
  done : Nat
  stop : Bool
  seen : List (List Nat)
  deriving DecidableEq, Repr

/-- A launch in progress (R350, R357): its packet, image, parameter base, crews, how many have been placed, where the search goes
on, whether it places no more, whether a parameter read failed, and the children of a grid. -/
structure Launch where
  pkt : BitVec 512
  image : Image
  ncrews : Nat
  placed : Nat
  next : Nat
  halted : Bool
  bad : Bool
  cut : Bool
  kids : List Kid
  kidDone : List Nat
  deriving DecidableEq, Repr

/-- Work that queues, graphs and schedulers have begun (R348, R352). -/
inductive JobKind where
  | launch (l : Launch)
  | graph (g : Graph)
  | wait (conds : List (Nat × W64 × Nat)) (all : Bool)
  | copy (op : Nat) (c : CpOp)
  deriving DecidableEq, Repr

/-- A job: where it comes from, its context, serving die, completion fields, whether its dispatch has not ended, and the writes that
happen before what it does next. -/
structure Job where
  id : Nat
  queue : Option Nat
  index : Nat
  ctxid : Nat
  die : Nat
  tag : Nat
  cq : Bool
  compl : Nat
  parent : Option (Nat × Nat)
  iter : Option (Nat × Nat)
  opn : Bool
  kind : JobKind
  seen : List Nat
  deriving DecidableEq, Repr

/-- A host token ring (R362 to R364). -/
structure Ring where
  id : Nat
  base : Nat
  logn : Nat
  wback : Nat
  cnt : Nat
  time : Nat
  vec : Nat
  wr : Nat
  rd : Nat
  lost : Nat
  ovf : Bool
  pend : Nat
  first : Nat
  deriving DecidableEq, Repr

/-- A slot of the reduction switch (R393): its first arrival, the inputs with the device and message each came from, and
when it was allocated. -/
structure SwSlot where
  id : Nat
  head : Contrib
  inputs : List (Contrib × Nat × Nat)
  opened : Nat
  deriving DecidableEq, Repr

/-- A context's save area (R407) and the bytes of it that images take. -/
structure SaveArea where
  ctxid : Nat
  tgt : Nat
  base : Nat
  len : Nat
  used : Nat
  deriving DecidableEq, Repr

/-- The boot and measurement state of the package (R422 to R429): BOOTSTAT, M0 to M7, the firmware version, the map staged by
REPAIRSET, the Facet ports that are up, and the stage of a boot in progress with what it works on (R423). -/
structure Boot where
  stat : W64
  meas : List (BitVec 512)
  fwver : Nat
  fused : Nat
  staged : Option (List Byte)
  ports : BitVec 18
  run : Option (Nat × BootInput)
  deriving DecidableEq, Repr

/-- The event ring registers (R418, R430). -/
structure EvRing where
  base : Nat
  logn : Nat
  wr : Nat
  drops : Nat
  rd : Nat
  deriving DecidableEq, Repr

/-- A structure's correctable errors (R412, R414): its number, their count, and when a record last reported it. -/
structure ErrCount where
  struct : Nat
  count : Nat
  told : Option Nat
  deriving DecidableEq, Repr

/-- The machine. `dtime` is device time in ns; `skew` is how far the DTIME of die 0 and of die 1 is ahead of it (R132, log entry 87);
`actor` performs the writes of the step in progress; `joins` holds what an operation thread's reads of landed lines have joined to it, by
its number (R218); `hostSeen` holds the writes that happen before what the host does next. -/
structure State where
  agenda : List Turn
  cur : Option ThreadRef
  dtime : Nat
  skew : Nat × Nat
  devid : W64
  throttle : Sparse 16
  clamp : BitVec 2
  mem : Sparse 8
  memPoison : Sparse 1
  wordPoison : Sparse 1
  windows : List (BitVec 256)
  wlock : Bool
  roots : Sparse 64
  xlat : List (Nat × Nat × Nat × Nat)
  useOld : Bool
  crews : List Crew
  ctxs : List SCtx
  forkQ : List ForkWait
  cohorts : List Cohort
  steps : List StepGrp
  heldUpds : List (Nat × Nat × BarUpd × List Nat)
  coming : List (Nat × Nat × Nat × BarUpd × List Nat)
  xfers : List (Nat × Nat × Nat)
  ops : List Op
  withdrawn : List Op
  hist : List Wr
  reads : List Rd
  known : List Known
  arrivals : List Arrival
  landings : List Landing
  forks : List Forked
  joins : List (Nat × List Nat)
  hostSeen : List Nat
  actor : Author
  rels : List Rel
  lookBack : List Nat
  nextOp : Nat
  pgWaits : List PgWait
  dies : List Die
  queues : List Queue
  jobs : List Job
  nextJob : Nat
  rings : List Ring
  wins : List (Nat × Win)
  redgrps : List RedGrp
  slots : List SwSlot
  closed : List (Nat × Nat × Nat × Nat)
  up : List Contrib
  wire : List (Nat × Wire)
  nextMsg : Nat
  saves : List SaveArea
  msix : Sparse 1
  irqs : List (Nat × Nat)
  hostSaw : List (Nat × Nat × Nat × Nat)
  errs : List ErrCount
  ev : EvRing
  boot : Boot
  free : Nat
  deriving DecidableEq, Repr
/-- The page engine as cold reset leaves it (R292, R296). -/
def PageEng.reset : PageEng := ⟨256, 64, 16, [], List.replicate 16 (BitVec.ofNat 64 (2 * 2 ^ 41))⟩

/-- The scheduler as cold reset leaves it (R319, R320, R323). -/
def Sched.reset : Sched :=
  { recbase := 0, recva := 0, pagecap := 0, groups := List.replicate 16 0, gens := [], commit := 0, needs := []
    iters := List.replicate 16 ⟨0, false, none, none, none, [], none⟩, inbars := [], gone := [], lost := [], seen := [] }

/-- The Iris record from cold reset until the first IRISSET (R373). -/
def Iris.cfgReset : BitVec 512 :=
  BitVec.ofNat 512 (((List.range 8).map (fun c => 8 * 2 ^ (456 + 7 * c))).sum
    + ((List.range 6).map (fun l => 2 ^ (5 - l) * 2 ^ (400 + 8 * l))).sum
    + 2000 * 2 ^ 352 + 10000 * 2 ^ 320 + 20 * 2 ^ 304 + 14 * 2 ^ 296 + 2048 * 2 ^ 256 + 4 * 2 ^ 240)

/-- An Iris without requests. -/
def Iris.reset : Iris := ⟨Iris.cfgReset, [], [], List.replicate 6 0, 7, [], 0⟩

/-- A die's units as cold reset leaves them (R417, R462; MRBASE and MRLOGN: log entry 4). -/
def Die.reset : Die :=
  { pe := PageEng.reset, sched := Sched.reset, iris := Iris.reset, mrbase := 0, mrlogn := 0, mrtail := 0, mrhead := 0, pend := none
    aggs := [], devq := [], steals := 0, rr := List.replicate 4 0, budget := 1100, moved := [], stopped := false
    nextBudget := none, beats := List.replicate 4 0, tries := [], granted := [] }

/-- The package right after reset: BOOTSTAT reads STATE RESET, no agent but the boot ROM acts, no crew exists (R416, R423). Values
the spec does not give: log entries 2 and 4. How a program comes to run from here: log entry 1. -/
def State.reset : State :=
  { agenda := [], cur := none, dtime := 0, skew := (0, 0), devid := 0, throttle := [], clamp := 0, mem := [], memPoison := [], wordPoison := []
    windows := List.replicate 64 0, wlock := false, roots := [], xlat := [], useOld := false, crews := [], ctxs := [], forkQ := []
    cohorts := [], steps := [], heldUpds := [], coming := [], xfers := [], ops := [], withdrawn := [], hist := [], reads := [], known := [], arrivals := []
    landings := [], forks := [], joins := [], hostSeen := [], actor := Author.other, rels := [], lookBack := [], nextOp := 0, pgWaits := []
    dies := [Die.reset, Die.reset], queues := [], jobs := [], nextJob := 0, rings := [], wins := [], redgrps := [], slots := []
    closed := [], up := [], wire := [], nextMsg := 0, saves := [], msix := [], irqs := [], hostSaw := [], errs := [], ev := ⟨0, 0, 0, 0, 0⟩
    boot := { stat := 0, meas := List.replicate 8 0, fwver := 0, fused := 0, staged := none, ports := 0, run := none }, free := 0 }
end Sys2Proof.Machine
end

