-- ==== Sys2Proof/Machine/Frontier.lean ====
section
/-! DEFINITION. Access to crews, warps and contexts by index, and the frontier and loop-stack operations of one
warp (R83, R88, R89, R95 to R99). -/
namespace Sys2Proof.Machine

/-- Changes a crew. -/
def State.modCrew (s : State) (c : Nat) (f : Crew → Crew) : State := { s with crews := modAt s.crews c f }

/-- Changes a warp of a crew. -/
def Crew.modWarp (k : Crew) (w : Nat) (f : Warp → Warp) : Crew := { k with warps := modAt k.warps w f }

/-- Changes a warp. -/
def State.modWarp (s : State) (c w : Nat) (f : Warp → Warp) : State := s.modCrew c (fun k => k.modWarp w f)

/-- Changes a sequencer context. -/
def State.modCtx (s : State) (x : Nat) (f : SCtx → SCtx) : State := { s with ctxs := modAt s.ctxs x f }

/-- A warp by its crew and index. -/
def State.warp? (s : State) (c w : Nat) : Option Warp := s.crews[c]? >>= fun k => k.warps[w]?

/-- The block priority of a .text offset (R81). -/
def prioOf (img : Image) (pc : W32) : BitVec 16 :=
  BitVec.ofNat 16 (img.prios.foldl (fun acc p => if p.1 ≤ pc.toNat then p.2 else acc) 0)

/-- Entries whose threads the handler rule lets issue (R400). -/
def Warp.eligible (w : Warp) (e : Entry) : Bool := !w.hact || decide (e.mask &&& ~~~w.hmask = 0)

/-- `a` comes before `b` in the choice of the head (R89): higher priority, then lower PC. -/
def entryBefore (a b : Entry) : Bool :=
  decide (b.prio.toNat < a.prio.toNat) || (decide (a.prio = b.prio) && decide (a.pc.toNat < b.pc.toNat))

/-- The frontier head (R89). -/
def Warp.head? (w : Warp) : Option Entry :=
  w.frontier.foldl (fun best e =>
    if e.st = .ready && w.eligible e then
      match best with
      | none => some e
      | some b => if entryBefore e b then some e else some b
    else best) none

/-- Two entries that merge (R88, R400): READY with one key, or HELD at one PC, on the same side of HMASK. -/
def Warp.merges (w : Warp) (a b : Entry) : Bool :=
  decide (a.pc = b.pc) && decide (w.eligible a = w.eligible b)
    && ((decide (a.st = .ready) && decide (b.st = .ready) && decide (a.prio = b.prio))
      || (decide (a.st = .held) && decide (b.st = .held)))

/-- Adds an entry, merging it with the first it merges with; a merged entry that stood woken in WAITB with
threads that were not runs the WAITB again (log entry 8). -/
def Warp.insert (w : Warp) (e : Entry) : List Entry → List Entry
  | [] => [e]
  | x :: r =>
    if w.merges e x then
      { x with mask := x.mask ||| e.mask, wait := if x.wait = e.wait then x.wait else none } :: r
    else x :: Warp.insert w e r

/-- The frontier with every pair that merges merged, and no entry without threads. -/
def Warp.mergeAll (w : Warp) (es : List Entry) : List Entry :=
  es.foldl (fun acc e => if e.mask = 0 then acc else Warp.insert w e acc) []

/-- The live members of a loop (R95). -/
def LoopEnt.live (l : LoopEnt) : W64 := l.members &&& ~~~l.broken

/-- The threads of `m` that arrive HELD at `pc` (R96): live members of the innermost loop that ends there and
has them, innermost first. -/
def heldAt (loops : List LoopEnt) (pc : W32) (m : W64) : W64 :=
  loops.foldl (fun acc l => if l.stop = pc then acc ||| (l.live &&& m) else acc) 0

/-- The arrival test of R96 on a READY entry. -/
def arriveEntry (loops : List LoopEnt) (e : Entry) : List Entry :=
  let h := heldAt loops e.pc e.mask
  if e.st = .ready ∧ h ≠ 0 then [{ e with mask := e.mask &&& ~~~h }, { e with st := .held, mask := h, wait := none }]
  else [e]

/-- Arrival tests of every entry that may take one now (R96, R400), then the merges of R88. -/
def Warp.retest (w : Warp) : Warp :=
  { w with frontier := w.mergeAll (w.frontier.flatMap (fun e => if w.eligible e then arriveEntry w.loops e else [e])) }

/-- The threads HELD at `pc`. -/
def Warp.heldMask (w : Warp) (pc : W32) : W64 :=
  w.frontier.foldl (fun acc e => if e.st = .held ∧ e.pc = pc ∧ w.eligible e then acc ||| e.mask else acc) 0

/-- Takes threads out of every entry. -/
def dropThreads (m : W64) (es : List Entry) : List Entry :=
  (es.map (fun e => { e with mask := e.mask &&& ~~~m })).filter (fun e => decide (e.mask ≠ 0))

/-- The threads `m` become one READY entry at `pc`, out of whatever entries held them (R88). -/
def Warp.moveTo (img : Image) (w : Warp) (m : W64) (pc : W32) : Warp :=
  { w with frontier := dropThreads m w.frontier ++ (if m = 0 then [] else [⟨prioOf img pc, pc, .ready, m, none⟩]) }

/-- One completion of the innermost loop, if it is due (R96). Loops are listed innermost first. -/
def Warp.loopStep (img : Image) (w : Warp) : Option Warp :=
  match w.loops with
  | [] => none
  | l :: rest =>
    if l.live = 0 then some (({ w with loops := rest }).moveTo img (l.members &&& l.broken) l.stop)
    else if l.live &&& ~~~(w.heldMask l.stop) = 0 then
      if l.count = 1 then some (({ w with loops := rest }).moveTo img (l.live ||| l.broken) l.stop)
      else some (({ w with loops := { l with count := l.count - 1 } :: rest }).moveTo img l.live l.start)
    else none

/-- Arrival tests and loop completions until none is due; a pop or a new iteration needs at most one round
each (R96). -/
def Warp.settleN (img : Image) : Nat → Warp → Warp
  | 0, w => w.retest
  | n + 1, w =>
    let w := w.retest
    match w.loopStep img with
    | none => w
    | some w' => Warp.settleN img n w'

/-- The frontier after a change (R88, R96). -/
def Warp.settle (img : Image) (w : Warp) : Warp := w.settleN img 8

/-- Places threads at a PC and settles the frontier (R88, R96). -/
def Warp.place (img : Image) (w : Warp) (m : W64) (pc : W32) : Warp := (w.moveTo img m pc).settle img

/-- The threads of a warp that have not ended (R83): its entries and the BROKEN threads of its loops. -/
def Warp.liveMask (w : Warp) : W64 :=
  w.frontier.foldl (fun acc e => acc ||| e.mask) 0
    ||| w.loops.foldl (fun acc l => acc ||| l.broken) 0 ||| w.shadow.foldl (fun acc l => acc ||| l.broken) 0

/-- Loop entries without the threads `m` (R99). -/
def loopsDrop (m : W64) (ls : List LoopEnt) : List LoopEnt :=
  ls.map (fun l => { l with members := l.members &&& ~~~m, broken := l.broken &&& ~~~m })

/-- HMASK has emptied: the handler's loops go, the shadow stack returns (R400, R402). -/
def Warp.endHandler (w : Warp) : Warp :=
  if w.hact && decide (w.hmask = 0) then { w with hact := false, loops := w.shadow, shadow := [] } else w

/-- Threads end: out of the frontier, the loops, the shadow loops and HMASK (R99, R400). -/
def Warp.endThreads (img : Image) (w : Warp) (m : W64) : Warp :=
  (({ w with frontier := dropThreads m w.frontier, loops := loopsDrop m w.loops, shadow := loopsDrop m w.shadow,
             hmask := w.hmask &&& ~~~m }).endHandler).settle img

/-- A target inside a loop's range, both ends included (R95). -/
def inRange (l : LoopEnt) (pc : W32) : Bool := decide (l.start.toNat ≤ pc.toNat ∧ pc.toNat ≤ l.stop.toNat)

/-- The loops a branch to `tgt` leaves, innermost outward (R97). -/
def loopsLeft (tgt : W32) : List LoopEnt → List LoopEnt
  | [] => []
  | l :: r => if inRange l tgt then [] else l :: loopsLeft tgt r

/-- TRAPINFO of LOOP_DIVERGE (R100). -/
def loopInfo (kind : Nat) (depth : Nat) (tgt : W32) : W64 :=
  BitVec.ofNat 64 (kind * 2 ^ 56 + (if kind = 1 then 3 else depth - 1) * 2 ^ 32 + (if kind = 1 then 0 else tgt.toNat))

/-- loop_check of R97, R98 for a set `t` of threads that take a branch: the TRAPINFO of a failure; no loop left; a .BRK branch with
the members that become BROKEN and the END to which the others go; or the loops popped. -/
inductive Leave where
  | bad (info : W64)
  | stay
  | brk (members : W64) (stop : W32)
  | leave (n : Nat)
  deriving DecidableEq, Repr

/-- The verdict of R97 and R98. -/
def loopCheck (loops : List LoopEnt) (t : W64) (tgt : W32) (brk : Bool) : Leave :=
  match loops with
  | [] => .stay
  | l :: _ =>
    if t = 0 then .stay
    else if brk then
      (if t &&& l.live ≠ 0 ∧ tgt ≠ l.stop then .bad (loopInfo 2 loops.length tgt) else .brk (t &&& l.live) l.stop)
    else
      let out := loopsLeft tgt loops
      if out.all (fun x => decide (x.live &&& ~~~t = 0)) then (if out = [] then .stay else .leave out.length)
      else .bad (loopInfo 0 loops.length tgt)

/-- Marks BROKEN members of the innermost loop: they leave the frontier (R98). -/
def Warp.breakThreads (w : Warp) (m : W64) : Warp :=
  match w.loops with
  | [] => w
  | l :: r => if m = 0 then w else { w with frontier := dropThreads m w.frontier, loops := { l with broken := l.broken ||| m } :: r }

/-- Pops `n` loops that a uniform branch leaves; their BROKEN threads become READY at each END (R97). -/
def Warp.popLoops (img : Image) (w : Warp) : Nat → Warp
  | 0 => w
  | n + 1 =>
    match w.loops with
    | [] => w
    | l :: r => Warp.popLoops img (({ w with loops := r }).moveTo img (l.members &&& l.broken) l.stop) n

/-- The threads `t` take a branch to `tgt` that R97 and R98 allow. -/
def Warp.takeBranch (img : Image) (w : Warp) (v : Leave) (t : W64) (tgt : W32) : Warp :=
  match v with
  | .bad _ => w
  | .stay => w.moveTo img t tgt
  | .brk b stop => (w.breakThreads b).moveTo img (t &&& ~~~b) stop
  | .leave n => ((w.popLoops img n).moveTo img t tgt)

/-- The arrival test of R96 for a context's one thread, until none is due. -/
def ctxLoops : Nat → SCtx → SCtx
  | 0, c => c
  | n + 1, c =>
    match c.loops with
    | [] => c
    | l :: r =>
      if c.pc ≠ l.stop then c
      else if l.count = 1 then ctxLoops n { c with loops := r }
      else { c with pc := l.start, loops := { l with count := l.count - 1 } :: r }

end Sys2Proof.Machine
end

