-- ==== Sys2Proof/Machine/Phys.lean ====
section
/-! DEFINITION. Physical memory by key, host windows, and event records (R183, R187, R412, R414, R420, R430). A
memory key is target * 2^52 + physical address. -/
namespace Sys2Proof.Machine

/-- Marks poison clean for the whole words that `n` bytes at `off` cover (R412). -/
def clearPoison (m : Sparse 1) (first : Nat) : Nat → Sparse 1
  | 0 => m
  | n + 1 => clearPoison (m.set first 0) (first + 1) n

/-- The key of a physical address in a target (R183). -/
def memKey (tgt pa : Nat) : Nat := tgt * 2 ^ 52 + pa
def keyTgt (k : Nat) : Nat := k / 2 ^ 52
def keyPa (k : Nat) : Nat := k % 2 ^ 52

/-- The bytes of a device memory (R187); host addresses are bounded by their windows. -/
def tgtSize (t : Nat) : Nat := if t < 2 then 2 ^ 38 else if t = 2 then 2 ^ 40 else 2 ^ 52

/-- Reads `n` bytes at a key. -/
def State.rd (s : State) (key n : Nat) : Nat := rdBytes s.mem key n

/-- A granule among the `n` bytes at `key` is poisoned: of `gran` bytes each. -/
def poisonIn (m : Sparse 1) (gran key n : Nat) : Bool :=
  (List.range ((key + n + (gran - 1)) / gran - key / gran)).any (fun i => decide (m.get (key / gran + i) ≠ 0))

/-- A 32-byte block, or a 4-byte word of a cache, among the `n` bytes at `key` is poisoned (R412). -/
def State.bad (s : State) (key n : Nat) : Bool := poisonIn s.memPoison 32 key n || poisonIn s.wordPoison 4 key n

/-- The poison marks after the `n` bytes at `key` are written: whole granules become clean (R412). -/
def poisonAfter (m : Sparse 1) (gran key n : Nat) : Sparse 1 :=
  clearPoison m ((key + gran - 1) / gran) ((key + n) / gran - (key + gran - 1) / gran)

/-- The entries of a memory among the `n` bytes at `key`. -/
def sparseIn (m : Sparse 8) (key n : Nat) : Sparse 8 := m.filter (fun p => decide (key ≤ p.1 ∧ p.1 < key + n))

/-- Who performs a write: the threads it is said to be of, else the agent of the step in progress. -/
def State.authorOr (s : State) (a : Option Author) : Author := a.getD s.actor

/-- The agent of the step once it has written at place `j` of coherence order: the events of firmware, a scheduler, the fabric or the host
are ordered as they come (R210, R219). -/
def Author.wrote (x : Author) (j : Nat) : Author :=
  match x.agent with
  | .work => { x with past := x.past ++ [j] }
  | _ => x

/-- A write takes its place in coherence order (R211): in memory or in a crew's scratchpad, with what its bytes held. -/
def State.enter (s : State) (sp : Option Nat) (key n : Nat) (old : Sparse 8) (a : Option Author) : State :=
  { s with hist := s.hist ++ [⟨sp, key, n, old, s.authorOr a, false⟩]
           actor := if a.isNone then s.actor.wrote s.hist.length else s.actor }

/-- A write of memory takes its place in coherence order (R211). -/
def State.note (s : State) (key n : Nat) (a : Option Author) : State := s.enter none key n (sparseIn s.mem key n) a

/-- A write of a crew's scratchpad takes its place in coherence order (R169, R211). -/
def State.noteSp (s : State) (ci off n : Nat) (a : Option Author) : State :=
  match s.crews[ci]? with
  | some k => s.enter (some ci) off n (sparseIn k.sp off n) a
  | none => s

/-- The writes that lead from `s` to `t` are one acceptance: no read falls between them (R169, R194). -/
def State.asOne (s t : State) : State :=
  let n := s.hist.length + 1
  { t with hist := t.hist.take n ++ (t.hist.drop n).map (fun w => { w with more := true }) }

/-- Writes the low `n` bytes of `v` at a key, as the write of `a`'s threads. -/
def State.wrBy (s : State) (key n v : Nat) (a : Option Author) : State :=
  { s.note key n a with mem := wrBytes s.mem key n v, memPoison := poisonAfter s.memPoison 32 key n
                        wordPoison := poisonAfter s.wordPoison 4 key n }

/-- Writes the low `n` bytes of `v` at a key. -/
def State.wr (s : State) (key n v : Nat) : State := s.wrBy key n v none

/-- What the agent of the step writes is a release at SYS scope of what happens before it (R213, R347, R352, R363). -/
def State.releasing (s : State) : State := { s with actor := { s.actor with heads := [⟨none, 3, s.actor.past⟩] } }

/-- What it writes from now on is none. -/
def State.relaxed (s : State) : State := { s with actor := { s.actor with heads := [] } }

/-- Writes a list of bytes at a key. -/
def State.wrL (s : State) (key : Nat) (bs : List Byte) : State :=
  { s.note key bs.length none with mem := wrList s.mem key bs, memPoison := poisonAfter s.memPoison 32 key bs.length
                                   wordPoison := poisonAfter s.wordPoison 4 key bs.length }

/-- A host window entry grants `n` bytes at `a` to an access that writes or reads (R420). -/
def windowGrants (a n : Nat) (write : Bool) (e : BitVec 256) : Bool :=
  let base := bitsOf e 255 192
  let len := bitsOf e 191 128
  e.getLsbD 0 && decide (base % 4096 = 0 ∧ len % 4096 = 0 ∧ base ≤ a ∧ a + n ≤ base + len)
    && (if write then e.getLsbD 2 else e.getLsbD 1)

/-- Host memory is reachable there (R420). -/
def State.hostOk (s : State) (a n : Nat) (write : Bool) : Bool := s.windows.any (windowGrants a n write)

/-- What an event record names (R414): the kinds of this model's reports, a granule's or a count of corrected errors with the number of
its structure. -/
inductive EvKind where
  | frame | record | barrier | granule (struct : Nat) | count (struct : Nat) | ringDrop | hostDrop | noControl | badTable | misaligned | mrTail | mrSkip | command
  | clamp | clampEnd | migration | power
  deriving DecidableEq, Repr

/-- The number of a kind of report. -/
def EvKind.code : EvKind → Nat
  | .frame => 0 | .record => 1 | .barrier => 2 | .granule x => 16 + 2 * x | .count x => 17 + 2 * x | .ringDrop => 5 | .hostDrop => 6 | .noControl => 7
  | .badTable => 8 | .misaligned => 9 | .mrTail => 10 | .mrSkip => 11 | .command => 12 | .clamp => 13 | .clampEnd => 14 | .migration => 15
  | .power => 4

/-- Writes an event record (R414, R430): dropped, and counted, where it would overwrite an unread one; dropped where no
window takes it. -/
def State.event (s : State) (die core : Nat) (kind : EvKind) (addr : Nat) (correctable : Bool) : State :=
  let e := s.ev
  if 2 ^ e.logn ≤ e.wr - e.rd then { s with ev := { e with drops := min (e.drops + 1) 65535 } }
  else
    let a := e.base + 32 * (e.wr % 2 ^ e.logn)
    if s.hostOk a 32 true then
      let r := Config.eventRecord [die, core, kind.code, addr, b2n correctable, s.dtime]
      { s.wr (memKey 3 a) 32 r.toNat with ev := { e with wr := e.wr + 1 } }
    else s

end Sys2Proof.Machine
end

