-- ==== Sys2Proof/Machine/Past.lean ====
section
/-! DEFINITION. Happens-before as sets of writes (R210, R214 to R219): what the threads of a context, an operation thread, or the work of
firmware, a scheduler, the fabric or the host has behind it. A set of writes is a list of their places in `State.hist`. -/
namespace Sys2Proof.Machine

/-- The lanes of an event of `owho` that lie in the same program or sequencer thread as lanes `lanes` of what `who` issues as number
`id`, and before it: events from number `since` on follow the event (R210); a context's thread follows the entry that forked it (R217). -/
def State.fromLanes (s : State) (who : ThreadRef) (id : Nat) (lanes : W64) (owho : ThreadRef) (since : Nat) (olanes : W64) : W64 :=
  if owho = who then (if since ≤ id then olanes &&& lanes else 0)
  else
    match who with
    | .warp _ _ => 0
    | .ctx x =>
      match s.ctxs[x]? with
      | some c => if owho = .warp c.crew c.warp ∧ since ≤ c.forkOp then olanes &&& c.mask else 0
      | none => 0

/-- The places of coherence order whose writes satisfy a condition. -/
def State.writesThat (s : State) (p : Nat → Wr → Bool) : List Nat :=
  (List.range s.hist.length).filter (fun j => match s.hist[j]? with | some w => p j w | none => false)

/-- Two sets as one. -/
def addAll (a b : List Nat) : List Nat := a ++ b.filter (fun x => !(a.contains x))

/-- The sets of a list as one. -/
def unionOf (ls : List (List Nat)) : List Nat := ls.foldl addAll []

/-- A write is one of the thread's own before the event (R210). -/
def State.ownWrite (s : State) (who : ThreadRef) (id : Nat) (lanes : W64) (w : Wr) : Bool :=
  match w.author.agent with
  | .thread owho olanes since => decide (s.fromLanes who id lanes owho since olanes ≠ 0)
  | _ => false

/-- What acquires, joins and forks have added to a thread's past (R214, R216 to R218). -/
def State.knownTo (s : State) (who : ThreadRef) (id : Nat) (lanes : W64) : List Nat :=
  s.known.foldl (fun acc q => if s.fromLanes who id lanes q.who q.since q.lanes ≠ 0 then addAll acc q.seen else acc) []

/-- The writes that happen before event `id` of the threads (R219). -/
def State.past (s : State) (who : ThreadRef) (id : Nat) (lanes : W64) : List Nat :=
  addAll (s.writesThat (fun _ w => s.ownWrite who id lanes w)) (s.knownTo who id lanes)

/-- The writes happen before what the threads do from operation number `since` on. -/
def State.learn (s : State) (who : ThreadRef) (lanes : W64) (since : Nat) (seen : List Nat) : State :=
  if seen = [] then s else { s with known := s.known ++ [⟨who, lanes, since, seen⟩] }

/-- A join: the writes happen before what the threads do from now on (R216, R218). -/
def State.joined (s : State) (who : ThreadRef) (lanes : W64) (seen : List Nat) : State := s.learn who lanes s.nextOp seen

/-- The writes of an operation thread (R210). -/
def State.opWrites (s : State) (id : Nat) : List Nat := s.writesThat (fun _ w => decide (w.author.agent = .op id))

/-- What an operation thread's reads of landed lines have joined to it (R218). -/
def State.opJoins (s : State) (id : Nat) : List Nat := unionOf ((s.joins.filter (fun q => decide (q.1 = id))).map Prod.snd)

/-- All events of an operation thread, and what happens before them (R217 to R219). -/
def State.opAll (s : State) (f : Forked) : List Nat :=
  unionOf [s.past f.who f.id f.lanes, s.opJoins f.id, s.opWrites f.id]

/-- All events of the operation threads that satisfy a condition. -/
def State.forksAll (s : State) (p : Forked → Bool) : List Nat := unionOf ((s.forks.filter p).map s.opAll)

/-- The writes that happen before the end of a sequencer context that has ended: its thread's, and its operations' (R218, R273). -/
def State.ctxAll (s : State) (x : Nat) : List Nat :=
  addAll (s.past (.ctx x) s.nextOp (BitVec.allOnes 64)) (s.forksAll (fun f => decide (f.who = .ctx x)))

/-- The writes that happen before the end of a crew: those of its threads, of its contexts and of its operations (R87, R347). -/
def State.crewAll (s : State) (ci : Nat) : List Nat :=
  let ws := match s.crews[ci]? with | some k => (List.range k.warps.length).map (fun w => s.past (.warp ci w) s.nextOp (BitVec.allOnes 64)) | none => []
  let xs := (List.range s.ctxs.length).filterMap (fun x =>
    match s.ctxs[x]? with | some c => if c.crew = ci then some (s.past (.ctx x) s.nextOp (BitVec.allOnes 64)) else none | none => none)
  unionOf (s.forksAll (fun f => decide (f.crew = ci)) :: (ws ++ xs))

/-- What happens before the next event of the agent of the step in progress; for an operation thread, before whatever joins it (R218). -/
def State.actSeen (s : State) : List Nat :=
  match s.actor.agent with
  | .op id => unionOf [s.actor.past, s.opJoins id, s.opWrites id]
  | _ => s.actor.past

/-- The step is one of an operation thread (R210): its issuers' past lies behind it (R217). -/
def State.asOp (s : State) (o : Op) (f : State → State) : State :=
  let t := f { s with actor := ⟨.op o.id, s.past o.who o.id o.lanes, []⟩ }
  { t with actor := s.actor }

/-- The step is work with some writes behind it: it ends with those and its own behind it, which `keep` records. -/
def State.asWork (s : State) (past : List Nat) (f : State → State) (keep : List Nat → State → State) : State :=
  let t := f { s with actor := ⟨.work, past, []⟩ }
  { keep t.actor.past t with actor := s.actor }

/-- An operation thread starts (R217). -/
def State.noteFork (s : State) (o : Op) : State :=
  if o.eng.isSome then { s with forks := s.forks ++ [⟨o.id, o.who, o.lanes, o.crew⟩] } else s

/-- The agent of the step has read bytes of a scratchpad line, whose landings join it (R218). -/
def State.actJoins (s : State) (seen : List Nat) : State :=
  if seen = [] then s
  else
    match s.actor.agent with
    | .op id => { s with joins := s.joins ++ [(id, seen)] }
    | .work => { s with actor := { s.actor with past := addAll s.actor.past seen } }
    | _ => s

/-- What the landings on the lines of `n` scratchpad bytes join to a read of them (R218). -/
def State.landedOn (s : State) (ci off n : Nat) : List Nat :=
  unionOf ((s.landings.filter (fun l => decide (l.crew = ci ∧ off / 128 ≤ l.line ∧ l.line < (off + n + 127) / 128))).map (fun l => l.seen))

end Sys2Proof.Machine
end

