-- ==== Sys2Proof/Machine/Barrier.lean ====
section
/-! DEFINITION. Barriers as scratchpad data and every update of one (chapter 10, R226 to R233), cohort counts
(R102 to R104, R232), and the wake-ups of WAITB (R236). -/
namespace Sys2Proof.Machine

/-- The fields of the barrier object (R227). -/
def bApend (b : Nat) : Nat := bits b 175 152
def bAexp (b : Nat) : Nat := bits b 151 128
def bBpend (b : Nat) : Int := sextNat 24 (bits b 127 104)
def bPhase (b : Nat) : Nat := bits b 95 80
def bBound (b : Nat) : Bool := decide (bits b 71 71 = 1)
def bKey (b : Nat) : Nat := bits b 255 224
def bFault (b : Nat) : Bool := decide (bits b 66 66 = 1)
def bIvalid (b : Nat) : Bool := decide (bits b 199 199 = 1)
def bIwarp (b : Nat) : Nat := bits b 198 194
def bFpart (b : Nat) : Nat := bits b 193 191
def bShort (b : Nat) : Nat := bits b 223 200

/-- Sets one status bit (R227). -/
def bSetBit (b i : Nat) : Nat := setBits b i i 1
def bSetApend (b n : Nat) : Nat := setBits b 175 152 n
def bSetBpend (b : Nat) (v : Int) : Nat := setBits b 127 104 (v % 2 ^ 24).toNat

/-- Reserved fields are written 0 by every update (R227). -/
def bClean (b : Nat) : Nat := setBits (setBits (setBits (setBits b 190 176 0) 103 96 0) 79 72 0) 63 0 0

/-- Phase t is reached (R236): the window of the 2^15 - 1 phases before PHASE, and PHASE. -/
def reached (phase t : Nat) : Bool := decide ((phase + 2 ^ 16 - t % 2 ^ 16) % 2 ^ 16 < 2 ^ 15)

/-- The cluster of a core (R102). -/
def clusterOf (core : Nat) : Nat := core / 8

/-- The cohort a key names in a crew's cluster and context (R102). -/
def State.cohort? (s : State) (k : Crew) (key : W32) : Option Cohort :=
  s.cohorts.find? (fun c => decide (c.count ≠ 0 ∧ c.die = k.die ∧ c.cluster = clusterOf k.core ∧ c.ctxid = k.ctxid ∧ c.key = key))

/-- Its membership count; 0 where there is none. -/
def State.cohortCount (s : State) (k : Crew) (key : W32) : Nat :=
  match s.cohort? k key with
  | some c => c.count
  | none => 0

/-- The evaluation that ends an update (R229); `cnt` is the count of the bound cohort. -/
def bEval (cnt b : Nat) : Nat :=
  if bApend b = 0 ∧ bBpend b = 0 then
    bSetApend (setBits b 95 80 (bPhase b + 1)) (if bBound b then min cnt (2 ^ 24 - 1) else bAexp b)
  else b

/-- bar_land without its evaluation (R71). -/
def bLand (b n : Nat) : Nat :=
  let v := bBpend b - (n : Int)
  if v < -(2 ^ 23 : Int) then bSetBit (bSetBpend b (-(2 ^ 23 : Int))) 65 else bSetBpend b v

/-- Arrivals beyond APEND set OVERRUN and are discarded (R231). -/
def bArrive (b n : Nat) : Nat :=
  if bApend b < n then bSetApend (bSetBit b 65) 0 else bSetApend b (bApend b - n)

/-- SHORT grows by undelivered bytes, saturating (R227, R230). -/
def bAddShort (b n : Nat) : Nat := setBits b 223 200 (min (bShort b + n) (2 ^ 24 - 1))

/-- An outside update, before the evaluation (R230 to R232, R261). -/
def bApply (b : Nat) : BarUpd → Nat
  | .land n => bLand b n
  | .settle n bit => bSetBit (bAddShort (bLand b n) n) bit
  | .landBit n bit => bSetBit (bLand b n) bit
  | .ack n bit =>
    let b := bAddShort (bSetBit b bit) n
    if bBound b then bSetBit b 65 else bArrive b 1
  | .arrive n fault =>
    let b := if fault then bSetBit b 66 else b
    if bBound b then bSetBit b 65 else bArrive b n
  | .expect n => if (2 ^ 23 - 1 : Int) < bBpend b + n then bSetBit b 64 else bSetBpend b (bBpend b + n)
  | .joined n => bSetApend b (bApend b + n)
  | .left n lost => bSetApend (if lost then bSetBit b 67 else b) (bApend b - n)
  | .dissolved => setBits (setBits (setBits b 71 71 0) 255 224 0) 151 128 0
  | .gang iwarp fpart fault =>
    let b := if fault then setBits (bSetBit b 66) 193 191 fpart else b
    let b := match iwarp with | some w => if fault then setBits (setBits b 199 199 1) 198 194 w else b | none => b
    if bBound b then bSetBit b 65 else bArrive b 1

/-- The scratchpad words of the `n` bytes at `off` that are poisoned (R412). -/
def Crew.spBad (k : Crew) (off n : Nat) : Bool :=
  (List.range ((off + n + 3) / 4 - off / 4)).any (fun i => decide (k.spPoison.get (off / 4 + i) ≠ 0))

/-- The barrier's bytes. -/
def Crew.bar (k : Crew) (off : Nat) : Nat := rdBytes k.sp off 32

/-- Stores a barrier. -/
def Crew.setBar (k : Crew) (off b : Nat) : Crew := { k with sp := wrBytes k.sp off 32 (bClean b) }

/-- What the arrivals and landings that a barrier has counted up to a phase have behind them (R216, R218). -/
def State.arrivedBefore (s : State) (ci off phase : Nat) : List Nat :=
  unionOf ((s.arrivals.filter (fun a => decide (a.crew = ci ∧ a.off = off) && reached phase a.phase)).map (fun a => a.seen))

/-- Wakes an entry parked on a barrier, with what its phase has behind it (R216, R229, R236). -/
def wakeEntry (off phase : Nat) (before : Nat → List Nat) (e : Entry) : Entry :=
  match e.wait with
  | some (.bar o t _) =>
    if e.st = .parked ∧ o = off ∧ reached phase t.toNat then { e with st := .ready, wait := some (.bar o t (some (before t.toNat))) } else e
  | _ => e

/-- Wakes a context parked on a barrier of its crew. -/
def wakeCtx (ci off phase : Nat) (before : Nat → List Nat) (x : SCtx) : SCtx :=
  match x.wait with
  | some (.bar o t _) =>
    if x.st = .parked ∧ x.crew = ci ∧ o = off ∧ reached phase t.toNat then { x with st := .running, wait := some (.bar o t (some (before t.toNat))) } else x
  | _ => x

/-- Wakes every waiter of a barrier whose target its PHASE has reached (R229, R235). -/
def State.wakeBar (s : State) (ci off : Nat) : State :=
  match s.crews[ci]? with
  | none => s
  | some k =>
    let ph := bPhase (k.bar off)
    let before := s.arrivedBefore ci off
    { s with
      crews := modAt s.crews ci (fun k => { k with warps := k.warps.map (fun w =>
        ({ w with frontier := w.frontier.map (wakeEntry off ph before) }).settle k.image) })
      ctxs := s.ctxs.map (wakeCtx ci off ph before) }

/-- Writes a barrier after an update, evaluated or not: the completion of a phase wakes its waiters (R229). -/
def State.putBar (s : State) (ci off b : Nat) (eval : Bool) : State :=
  match s.crews[ci]? with
  | none => s
  | some k =>
    let b2 := if eval then bEval (s.cohortCount k (BitVec.ofNat 32 (bKey b))) b else b
    let s1 := (s.noteSp ci off 32 none).modCrew ci (fun k => k.setBar off b2)
    if bPhase b2 = bPhase b then s1 else s1.wakeBar ci off

/-- The barrier unit of a die holds as many updates for saved crews as it can (R406). -/
def State.holdFull (s : State) (die : Nat) : Bool :=
  decide (65536 ≤ (s.heldUpds.filter (fun u => match s.crews[u.1]? with | some k => decide (k.die = die) | none => false)).length)

/-- An update lands bytes by bar_land, or an arrival of it is counted, in the phase that the barrier `b` is in (R218, R231). -/
def BarUpd.counted (b : Nat) : BarUpd → Bool
  | .land _ => true
  | .landBit _ _ => true
  | .ack _ _ => !(bBound b) && decide (bApend b ≠ 0)
  | .arrive _ _ => !(bBound b) && decide (bApend b ≠ 0)
  | .gang _ _ _ => !(bBound b) && decide (bApend b ≠ 0)
  | _ => false

/-- An arrival or landing that the phase in progress counts has some writes behind it (R213, R216, R218). -/
def State.noteArrival (s : State) (ci off b : Nat) (seen : List Nat) : State :=
  { s with arrivals := s.arrivals ++ [⟨ci, off, (bPhase b + 1) % 2 ^ 16, seen⟩] }

/-- An update from an engine, the fabric or the cohort table with some writes behind it (R228, R233): discarded where the crew has ended
or the barrier is poisoned, held while the crew is saved; evaluated where it changes APEND, BPEND or BOUND (R229). -/
def State.barUpdBy (s : State) (seen : List Nat) (ci off : Nat) (u : BarUpd) : State :=
  match s.crews[ci]? with
  | none => s
  | some k =>
    match k.st with
    | .ended => s
    | .saved => { s with heldUpds := s.heldUpds ++ [(ci, off, u, seen)] }
    | .running =>
      if k.spBad off 32 then s.event k.die k.core .barrier off false
      else
        let b := k.bar off
        let b2 := bApply b u
        (if u.counted b then s.noteArrival ci off b seen else s).putBar ci off b2
          (decide (bApend b2 ≠ bApend b ∨ bBpend b2 ≠ bBpend b ∨ bBound b2 ≠ bBound b))

/-- An update by the agent of the step in progress. -/
def State.barUpd (s : State) (ci off : Nat) (u : BarUpd) : State := s.barUpdBy s.actSeen ci off u

/-- Changes the cohorts of one key of a crew's cluster and context. -/
def State.modCohort (s : State) (k : Crew) (key : W32) (f : Cohort → Cohort) : State :=
  { s with cohorts := s.cohorts.map (fun c =>
      if c.count ≠ 0 ∧ c.die = k.die ∧ c.cluster = clusterOf k.core ∧ c.ctxid = k.ctxid ∧ c.key = key then f c else c) }

/-- Threads of one membership leave (R104, R112, R232): the count falls, the bound barrier loses those that had
not arrived in its current phase, a count of 0 dissolves the cohort. -/
def State.leaveCohort (s : State) (ci : Nat) (m : Member) (gone : W64) (lost : Bool) : State :=
  match s.crews[ci]? with
  | none => s
  | some k =>
    match s.cohort? k m.key with
    | none => s
    | some c =>
      let g := m.mask &&& gone
      let left := c.count - popMask g
      let s1 := s.modCohort k m.key (fun c => { c with count := left })
      match c.bound with
      | none => s1
      | some (bc, off) =>
        let ph := match s.crews[bc]? with | some bk => bPhase (bk.bar off) | none => 0
        let arrived := if m.phase.toNat = ph then m.arrived else 0
        let s2 := s1.barUpd bc off (.left (popMask (g &&& ~~~arrived)) lost)
        if left = 0 then s2.barUpd bc off .dissolved else s2

/-- The memberships of a warp after threads have left one cohort or all of them. -/
def membersDrop (gone : W64) (key : Option W32) (ms : List Member) : List Member :=
  (ms.map (fun m => if key = none ∨ key = some m.key then { m with mask := m.mask &&& ~~~gone, arrived := m.arrived &&& ~~~gone } else m)).filter
    (fun m => decide (m.mask ≠ 0))

/-- The implicit leaves of threads that end (R104). -/
def State.implicitLeave (s : State) (ci wi : Nat) (gone : W64) (lost : Bool) : State :=
  match s.warp? ci wi with
  | none => s
  | some w =>
    let s1 := w.cohorts.foldl (fun s m => if m.mask &&& gone = 0 then s else s.leaveCohort ci m gone lost) s
    s1.modWarp ci wi (fun w => { w with cohorts := membersDrop gone none w.cohorts })

/-- An entry that stands in a SUPERSTEP (R243). -/
def inStep (e : Entry) : Bool :=
  match e.wait with
  | some (.step _ _) => decide (e.st = .parked)
  | _ => false

/-- Every live thread of the crew has issued SUPERSTEP, or has ended (R242). -/
def Crew.arrived (k : Crew) : Bool :=
  k.warps.all (fun w => decide (w.liveMask &&& ~~~(w.frontier.foldl (fun a e => if inStep e then a ||| e.mask else a) 0) = 0))

/-- Every thread of the crew has ended. -/
def Crew.threadsEnded (k : Crew) : Bool := k.warps.all (fun w => decide (w.liveMask = 0))

/-- The registers that a warp's SUPERSTEP entries await. -/
def stepDests (w : Warp) : List Nat :=
  w.frontier.filterMap (fun e => match e.wait with | some (.step sd _) => if e.st = .parked then some sd else none | _ => none)

/-- Writes scalar registers of a warp, which are then no longer pending. -/
def Warp.putS (w : Warp) (v : W64) (rs : List Nat) : Warp :=
  rs.foldl (fun w r => if r = 0 then w else
    { w with sregs := modAt w.sregs r (fun _ => v), spend := w.spend &&& ~~~(1#64 <<< r), spoison := w.spoison &&& ~~~(1#64 <<< r) }) w

/-- An entry leaves its SUPERSTEP. -/
def stepEntry (img : Image) (e : Entry) : Entry :=
  if inStep e then { e with st := .ready, pc := e.pc + 4, prio := prioOf img (e.pc + 4), wait := none } else e

/-- Every SUPERSTEP of a warp returns `v` (R243). -/
def Warp.stepReturn (img : Image) (v : W64) (w : Warp) : Warp :=
  ({ w.putS v (stepDests w) with frontier := w.frontier.map (stepEntry img) }).settle img

/-- A context's SUPERSTEP returns `v`, and its thread is tested at the END of a loop (R96, R267). -/
def ctxStepReturn (ci : Nat) (v : W64) (x : SCtx) : SCtx :=
  match x.wait with
  | some (.step sd _) =>
    if x.crew = ci ∧ x.st = .parked then
      ctxLoops 5 { x with st := .running, pc := x.pc + 4, wait := none
                          sregs := if sd = 0 then x.sregs else modAt x.sregs sd (fun _ => v), spend := x.spend &&& ~~~(1#64 <<< sd) }
    else x
  | _ => x

/-- A context of a crew stands in a SUPERSTEP (R243). -/
def inStepCtx (ci : Nat) (x : SCtx) : Bool :=
  match x.wait with
  | some (.step _ _) => decide (x.crew = ci ∧ x.st = .parked)
  | _ => false

/-- The thread contexts of a crew that stand in a SUPERSTEP, with the threads that do (R243). -/
def State.inSteps (s : State) (ci : Nat) : List (ThreadRef × W64) :=
  (match s.crews[ci]? with
    | some k => mapFrom (fun w (x : Warp) => (ThreadRef.warp ci w, x.frontier.foldl (fun m e => if inStep e then m ||| e.mask else m) 0)) 0 k.warps
    | none => [])
  ++ (mapFrom (fun x c => (ThreadRef.ctx x, if inStepCtx ci c then 1 else 0)) 0 s.ctxs)

/-- Every SUPERSTEP of a crew returns `v`, an acquire of what the step has behind it (R223), and the crew moves to its next step. -/
def State.stepReturn (s : State) (ci : Nat) (v : W64) (seen : List Nat) : State :=
  let s1 := ((s.inSteps ci).foldl (fun t p => if p.2 = 0 then t else t.joined p.1 p.2 seen) s).modCrew ci (fun k => { k with warps := k.warps.map (Warp.stepReturn k.image v), stepNo := k.stepNo + 1 })
  { s1 with ctxs := s1.ctxs.map (ctxStepReturn ci v) }

/-- The crews of a launch, by index. -/
def State.launchCrews (s : State) (l : Nat) : List Nat :=
  (List.range s.crews.length).filter (fun c => match s.crews[c]? with | some k => decide (k.launch = l) | none => false)

/-- A property of the crew with an index. -/
def State.crewIs (s : State) (p : Crew → Bool) (c : Nat) : Bool := match s.crews[c]? with | some k => p k | none => false

/-- Changes a step group. -/
def State.modStep (s : State) (g : Nat) (f : StepGrp → StepGrp) : State :=
  { s with steps := s.steps.map (fun x => if x.g = g then f x else x) }

/-- A step group as a die's barrier unit holds it until the driver assigns it (R241): no participants, step 0, a timeout of 10 ms. -/
def StepGrp.unassigned (g : Nat) : StepGrp := ⟨g, 0, 10000000, none, 0, 0, none, 0, []⟩

/-- The step group g of a die's 256 (R241). -/
def State.stepGrp (s : State) (g : Nat) : StepGrp :=
  match s.steps.find? (fun x => decide (x.g = g)) with
  | some x => x
  | none => StepGrp.unassigned g

/-- The next step of a group (R242): an ended crew counts as arrived from its start. -/
def State.nextStep (s : State) (g l : Nat) : State :=
  s.modStep g (fun x => { x with step := x.step + 1, flags := 0, seen := []
                                 first := if (s.launchCrews l).any (s.crewIs Crew.threadsEnded) then some s.dtime else none })

/-- What the SUPERSTEPs of some crews in a step have behind them, and their operations that have ended (R218, R223, R243). -/
def State.stepSeen (s : State) (x : StepGrp) (cs : List Nat) : List Nat :=
  unionOf (s.forksAll (fun f => cs.contains f.crew && !((s.ops ++ s.withdrawn).any (fun o => decide (o.id = f.id))))
    :: (x.seen.filter (fun q => cs.contains q.1)).map Prod.snd)

/-- Completes the group's step if every participant has arrived and no operation of theirs is outstanding (R242). -/
def State.stepCheck (s : State) (g : Nat) : State :=
  match s.steps.find? (fun x => decide (x.g = g)) with
  | none => s
  | some x =>
    match x.launch with
    | none => s
    | some l =>
      let cs := s.launchCrews l
      if cs.length = x.ncrews ∧ cs.all (s.crewIs Crew.arrived) ∧ cs.all (s.crewIs (fun k => decide (k.stepNo = x.step) || k.threadsEnded)) ∧ cs ≠ []
          ∧ s.ops.all (fun o => o.eng.isNone || !(cs.contains o.crew)) ∧ s.withdrawn.all (fun o => !(cs.contains o.crew))
          ∧ s.xfers.all (fun x => !(cs.contains x.1)) then
        (cs.foldl (fun t c => t.stepReturn c (x.flags.setWidth 64) (s.stepSeen x cs)) s).nextStep g l
      else s

/-- A SUPERSTEP of a crew in the step in progress has some writes behind it (R213, R223). -/
def State.stepNote (s : State) (ci : Nat) (seen : List Nat) : State :=
  match (s.crews[ci]?).bind (fun k => k.stepGroup.map (fun g => (g, k.stepNo))) with
  | some (g, n) => s.modStep g (fun x => if x.step = n then { x with seen := x.seen ++ [(ci, seen)] } else x)
  | none => s

/-- A crew may have arrived (R242, R243): late for a step that ended it returns at once with bit 62, and synchronises with nothing. -/
def State.stepArrive (s : State) (ci : Nat) : State :=
  match s.crews[ci]? with
  | none => s
  | some k =>
    match k.stepGroup with
    | none => s
    | some g =>
      match s.steps.find? (fun x => decide (x.g = g)) with
      | none => s
      | some x =>
        if !k.arrived then s
        else if k.stepNo < x.step ∧ !k.threadsEnded then s.stepReturn ci (BitVec.ofNat 64 (2 ^ 62)) []
        else (s.modStep g (fun x => { x with first := if x.first = none then some s.dtime else x.first })).stepCheck g

/-- An operation of a crew has left the count of its step, with a status bit of R243 or none. -/
def State.stepOpDone (s : State) (ci : Nat) (flag : Option Nat) : State :=
  match s.crews[ci]? with
  | none => s
  | some k =>
    match k.stepGroup with
    | none => s
    | some g => (s.modStep g (fun x => { x with flags := match flag with | some i => x.flags ||| (1#4 <<< i) | none => x.flags })).stepCheck g

/-- Threads of a warp end (R99, R104, R111, R242). -/
def State.endThreads (s : State) (ci wi : Nat) (gone : W64) (lost : Bool) : State :=
  match s.crews[ci]? with
  | none => s
  | some k => ((s.implicitLeave ci wi gone lost).modWarp ci wi (fun w => w.endThreads k.image gone)).stepArrive ci

end Sys2Proof.Machine
end

