-- ==== Sys2Proof/Machine/Ops.lean ====
section
/-! DEFINITION. The shared operations of every instruction: who issues (R86, R89), scalar registers (R125),
taking a trap and returning from one (R396 to R402, R269), and how an instruction's result becomes the next
state (R50, R63, R71). -/
namespace Sys2Proof.Machine

/-- A trap: its cause number (R396), TRAPINFO, and what FAULTDET and POISONVA become, if they change. -/
structure Trap where
  cause : Nat
  info : W64
  faultdet : Option W64
  poisonva : W64
  deriving DecidableEq, Repr

/-- Why an instruction group does not complete now: it waits in place (R94), or it traps. -/
inductive Stop where
  | wait
  | trap (t : Trap)
  deriving DecidableEq, Repr

/-- A result, or a stop without any effect (R50). -/
abbrev Exe (α : Type) := Except Stop α

/-- A trap whose information is one word. -/
def trapOf (cause : Nat) (info : W64) : Stop := .trap ⟨cause, info, none, 0⟩

/-- ILLEGAL_INSTR with a reason and a word (R65). -/
def illegal (reason word : Nat) : Stop := trapOf 1 (BitVec.ofNat 64 (reason * 2 ^ 56 + word % 2 ^ 32))

/-- Stops unless the condition holds. -/
def need (c : Bool) (st : Stop) : Exe Unit := if c then .ok () else .error st

/-- Waits unless the condition holds. -/
def waitUnless (c : Bool) : Exe Unit := if c then .ok () else .error .wait

/-- What issue needs of an instruction (R50, R65, R398): its base word, its length in bytes and its PFX. -/
structure Hdr where
  word : Nat
  len : Nat
  pfx : Option Pfx

/-- The header of an instruction. -/
def hdrOf (i : Instr) : Hdr := ⟨i.baseWord, i.len, i.pfx?⟩

/-- The header of a base word that takes no PFX and no LIM: that of an instruction past the constructors that Lean's code
generator builds (`hdr` lemmas in Laws say which). -/
def baseHdr (word : Nat) : Hdr := ⟨word, 4, none⟩

/-- The kinds of program that execute it (R268). -/
def Hdr.takenBy (h : Hdr) (e : Engine) : Bool := engineTakes e h.word

/-- The issuing thread context and its instruction: a warp's frontier head or a sequencer context (R89, R266). -/
structure Env where
  who : ThreadRef
  eng : Engine
  ci : Nat
  wi : Nat
  k : Crew
  m0 : W64
  pc : W32
  h : Hdr

/-- The base word of the issuing instruction. -/
def Env.word (e : Env) : Nat := e.h.word

/-- ILLEGAL_INSTR of the issuing instruction (R65). -/
def Env.ill (e : Env) (reason : Nat) : Stop := illegal reason e.word

/-- The address after the issuing group. -/
def Env.npc (e : Env) : W32 := e.pc + BitVec.ofNat 32 e.h.len

/-- The warp that issues, or that forked the context that does. -/
def Env.w? (e : Env) (s : State) : Option Warp := s.warp? e.ci e.wi

/-- Reads the scalar file of an issuer: registers, pending and poison marks (R125, R267). -/
def State.scal (s : State) (t : ThreadRef) : List W64 × W64 × W64 :=
  match t with
  | .warp c w => match s.warp? c w with | some w => (w.sregs, w.spend, w.spoison) | none => ([], 0, 0)
  | .ctx x => match s.ctxs[x]? with | some x => (x.sregs, x.spend, x.spoison) | none => ([], 0, 0)

/-- Changes the scalar file of an issuer. -/
def State.modScal (s : State) (t : ThreadRef) (f : List W64 × W64 × W64 → List W64 × W64 × W64) : State :=
  match t with
  | .warp c w => s.modWarp c w (fun w => let r := f (w.sregs, w.spend, w.spoison); { w with sregs := r.1, spend := r.2.1, spoison := r.2.2 })
  | .ctx x => s.modCtx x (fun x => let r := f (x.sregs, x.spend, x.spoison); { x with sregs := r.1, spend := r.2.1, spoison := r.2.2 })

/-- TRAPINFO of POISON (R413). -/
def poisonInfo (kind lane reg : Nat) : W64 := BitVec.ofNat 64 (kind * 2 ^ 56 + lane * 2 ^ 40 + reg)

/-- The value of scalar register `r` of an issuer; s0 reads 0 (R125). -/
def State.sreg (s : State) (t : ThreadRef) (r : Nat) : W64 := if r = 0 then 0 else (s.scal t).1.getD r 0

/-- Reads a scalar register as an operand: waits for an earlier producer (R125), traps on poison (R413). -/
def rdS (s : State) (e : Env) (r : Nat) : Exe W64 :=
  if r = 0 then .ok 0
  else if (s.scal e.who).2.1.getLsbD r then .error .wait
  else if (s.scal e.who).2.2.getLsbD r then .error (trapOf 11 (poisonInfo 2 0 r))
  else .ok (s.sreg e.who r)

/-- The value of a scalar register as an operand whose poison is judged later: waits for an earlier producer (R125). -/
def rdSw (s : State) (e : Env) (r : Nat) : Exe W64 :=
  if r ≠ 0 ∧ (s.scal e.who).2.1.getLsbD r then .error .wait else .ok (s.sreg e.who r)

/-- POISON of a scalar register that is read (R413). -/
def sOk (s : State) (e : Env) (r : Nat) : Exe Unit :=
  need (decide (r = 0) || !((s.scal e.who).2.2.getLsbD r)) (trapOf 11 (poisonInfo 2 0 r))

/-- Stores into a scalar register, now and whole: s0 discards (R125), a write clears poison (R412). -/
def State.setS (s : State) (t : ThreadRef) (r : Nat) (v : W64) : State :=
  if r = 0 then s
  else s.modScal t (fun q => (modAt q.1 r (fun _ => v), q.2.1 &&& ~~~(1#64 <<< r), q.2.2 &&& ~~~(1#64 <<< r)))

/-- Writes a scalar register: waits for an earlier producer of the same register (R125). -/
def wrS (s : State) (e : Env) (r : Nat) (v : W64) : Exe State :=
  if r ≠ 0 ∧ (s.scal e.who).2.1.getLsbD r then .error .wait else .ok (s.setS e.who r v)

/-- Marks a scalar register pending (R125). -/
def State.pendS (s : State) (t : ThreadRef) (r : Nat) : State :=
  if r = 0 then s else s.modScal t (fun q => (q.1, q.2.1 ||| (1#64 <<< r), q.2.2))

/-- Waits while the register has a producer outstanding. -/
def freeS (s : State) (e : Env) (r : Nat) : Exe Unit := waitUnless (r = 0 ∨ !((s.scal e.who).2.1.getLsbD r))

/-- The trap registers of a warp after a delivery or a kill (R398, R399, R401). -/
def Warp.recordTrap (w : Warp) (pc : W32) (t : Trap) : Warp :=
  { w with
    trapcause := BitVec.ofNat 64 t.cause
    trappc := pc.setWidth 64
    trapinfo := t.info
    faultdet := match t.faultdet with | some d => d | none => w.faultdet
    poisonva := if t.cause = 11 then t.poisonva else w.poisonva }

/-- Saturating NKILL (R398). -/
def addKill (n : BitVec 8) (k : Nat) : BitVec 8 := BitVec.ofNat 8 (min (n.toNat + k) 255)

/-- The first kill of a crew sets its cause and its number in the order of first kills (R401). -/
def Crew.kill (k : Crew) (cause no : Nat) : Crew :=
  if k.firstKill = 0 then { k with firstKill := BitVec.ofNat 8 cause, killNo := no } else k

/-- The number of the next first kill. -/
def State.nextKill (s : State) : Nat := (s.crews.filter (fun k => decide (k.firstKill ≠ 0))).length

/-- TAKING A TRAP in a warp (R397 to R401): the set H is the issuing entry's mask. Delivered to the handler at
TVEC when HACT = 0 and TVEC ≠ 0; otherwise H is killed. `len` is the group's length. -/
def State.takeTrap (s : State) (ci wi : Nat) (h : W64) (pc : W32) (len : Nat) (t : Trap) : State :=
  match s.crews[ci]? with
  | none => s
  | some k =>
    match k.warps[wi]? with
    | none => s
    | some w =>
      if !w.hact && decide (k.tvec ≠ 0) then
        s.modWarp ci wi (fun w =>
          let w := w.recordTrap pc t
          ({ w with tlen := BitVec.ofNat 4 len, hact := true, hmask := h, shadow := w.loops, loops := [] }).place k.image h k.tvec)
      else
        let s := s.modCrew ci (fun k => k.kill t.cause s.nextKill)
        let s := s.modWarp ci wi (fun w => { w.recordTrap pc t with nkill := addKill w.nkill (popMask h) })
        s.endThreads ci wi h true

/-- A trap in a sequencer context: recorded, and the context issues nothing more (R269). -/
def State.ctxTrap (s : State) (x : Nat) (pc : W32) (t : Trap) : State :=
  s.modCtx x (fun c => { c with st := .trapped, wasTrapped := true, cause := BitVec.ofNat 64 t.cause, tpc := pc.setWidth 64, info := t.info })

/-- THE RETURN FROM A TRAP (R402): the threads `m` leave HMASK and run READY from `pc`; when HMASK empties, the
handler's loops go and the shadow stack returns. -/
def Warp.trapReturn (img : Image) (w : Warp) (m : W64) (pc : W32) : Warp :=
  (({ w with hmask := w.hmask &&& ~~~m }).moveTo img m pc).endHandler.settle img

/-- Moves the issuing threads on: one entry of a warp, or a context's thread. -/
def State.jump (s : State) (e : Env) (pc : W32) : State :=
  match e.who with
  | .warp c w => s.modWarp c w (fun w => w.place e.k.image e.m0 pc)
  | .ctx x => s.modCtx x (fun c => { c with pc := pc, wait := none })

/-- Raises a trap of the issuing instruction. -/
def State.raise (s : State) (e : Env) (t : Trap) : State :=
  match e.who with
  | .warp c w => s.takeTrap c w e.m0 e.pc e.h.len t
  | .ctx x => s.ctxTrap x e.pc t

/-- The issuing environment of a thread context, if it can issue (R89, R94); a context HELD at the END of a loop
that is not innermost stays there (R96). -/
def State.env? (s : State) (t : ThreadRef) (i : Hdr) : Option Env :=
  match t with
  | .warp c w =>
    match s.crews[c]? with
    | none => none
    | some k =>
      if k.st ≠ .running then none
      else
        match k.warps[w]? with
        | none => none
        | some wp =>
          match wp.head? with
          | none => none
          | some h => some ⟨t, .vector, c, w, k, h.mask, h.pc, i⟩
  | .ctx x =>
    match s.ctxs[x]? with
    | none => none
    | some c =>
      if c.st ≠ .running ∨ c.loops.any (fun l => decide (l.stop = c.pc)) then none
      else
        match s.crews[c.crew]? with
        | none => none
        | some k => if k.st ≠ .running then none else some ⟨t, if c.matrix then .matrix else .copy, c.crew, c.warp, k, 1, c.pc, i⟩

/-- The state after a stop. -/
def State.stopped (s : State) (e : Env) : Stop → State
  | .wait => s
  | .trap t => s.raise e t

/-- The result of an instruction as the next state. -/
def State.settleRes (s : State) (e : Env) : Exe State → State
  | .ok s' => s'
  | .error st => s.stopped e st

/-- Loop ends that a context's thread has reached (R267). -/
def State.ctxSettle (s : State) : ThreadRef → State
  | .warp _ _ => s
  | .ctx x => s.modCtx x (ctxLoops 5)

/-- Issues `i` from the thread context whose turn it is, by a body that also says where the threads go. Nothing
issues where there is no such context (R86, R94). An engine that does not take `i` traps (R68, R268). -/
def runCtlH (i : Hdr) (s : State) (body : Env → Exe State) : Host.Outcome State Fault Refusal :=
  match s.cur with
  | none => .next s
  | some t =>
    match s.env? t i with
    | none => .next s
    | some e =>
      if !(i.takenBy e.eng) then .next (s.raise e ⟨1, BitVec.ofNat 64 (7 * 2 ^ 56 + i.word % 2 ^ 32), none, 0⟩)
      else .next ((s.settleRes e (body e)).ctxSettle t)

/-- Issues `i`, whose threads go on to the next group. -/
def runH (i : Hdr) (s : State) (body : Env → Exe State) : Host.Outcome State Fault Refusal :=
  runCtlH i s (fun e => do let s' ← body e; pure (s'.jump e e.npc))

/-- `runCtlH` of an instruction. -/
def runCtl (i : Instr) (s : State) (body : Env → Exe State) : Host.Outcome State Fault Refusal := runCtlH (hdrOf i) s body

/-- `runH` of an instruction. -/
def run (i : Instr) (s : State) (body : Env → Exe State) : Host.Outcome State Fault Refusal :=
  runH (hdrOf i) s body

end Sys2Proof.Machine
end

