-- ==== Sys2Proof/Machine/Mem.lean ====
section
/-! DEFINITION. Physical memory, page-table walks, host windows, scratchpad addressing and line state, and the
arithmetic of the atomic units (chapters 07 and 08). A memory key is target * 2^52 + physical address. -/
namespace Sys2Proof.Machine

/-- The bits of `mask` of `new` over `old`. -/
def blend (old new mask : Nat) : Nat := old - (old &&& mask) + (new &&& mask)

/-- All bits of `n` bytes. -/
def ones (n : Nat) : Nat := 2 ^ (8 * n) - 1

/-- The kinds of access (R188, R191). -/
def kFetch : Nat := 0
def kRead : Nat := 1
def kWrite : Nat := 2
def kAtomic : Nat := 3

/-- Why an access does not translate (R191): the FAULTDET reason and level. -/
structure XFault where
  reason : Nat
  level : Nat
  deriving DecidableEq, Repr

/-- A leaf entry and its level. -/
structure Leaf where
  pte : Nat
  level : Nat
  deriving DecidableEq, Repr

/-- What an entry of a level says (R185 to R187): a leaf, the next table, or the reason that it is none. -/
def readEntry (level p : Nat) : Except XFault (Leaf ⊕ Nat) :=
  let bad := Except.error (XFault.mk 1 level)
  if p % 2 = 0 then .error ⟨0, level⟩
  else if bits p 1 1 = 1 then
    if level < 2 then bad
    else if bits p 63 60 ≠ 0 ∨ bits p 15 12 ≠ 0 ∨ bits p 6 6 ≠ 0 ∨ bits p 2 2 ≠ 0 ∨ 3 < bits p 11 9 then bad
    else if level = 2 ∧ bits p 20 16 ≠ 0 then bad
    else if bits p 11 9 < 3 ∧ tgtSize (bits p 11 9) < bits p 51 16 * 2 ^ 16 + (if level = 2 then 2 ^ 21 else 2 ^ 16) then bad
    else .ok (.inl ⟨p, level⟩)
  else if level = 3 then bad
  else if bits p 63 52 ≠ 0 ∨ bits p 4 2 ≠ 0 ∨ 2 < bits p 7 5 then bad
  else if level < 2 ∧ bits p 14 8 ≠ 0 then bad
  else if tgtSize (bits p 7 5) < bits p 51 8 * 2 ^ 8 + (if level < 2 then 2 ^ 15 else 2 ^ 8) then bad
  else .ok (.inr (memKey (bits p 7 5) (bits p 51 8 * 2 ^ 8)))

/-- The number of address bits below an entry of a level (R184). -/
def levelShift (level : Nat) : Nat :=
  match level with
  | 0 => 45
  | 1 => 33
  | 2 => 21
  | _ => 16

/-- The index of an address at a level (R184). -/
def vaIndex (va level : Nat) : Nat :=
  match level with
  | 0 => bits va 56 45
  | 1 => bits va 44 33
  | 2 => bits va 32 21
  | _ => bits va 20 16

/-- The 8 bytes of an entry that a walk uses: those that a core or walker still holds, where the agenda lets accesses use them, else
those of the table at `key` (R187, R189, R190, log entry 6). -/
def State.rawEntry (s : State) (ctx va level key : Nat) : Except XFault Nat :=
  let cached := if s.useOld then s.xlat.find? (fun t => decide (t.1 = ctx ∧ t.2.1 = level ∧ t.2.2.1 = va / 2 ^ levelShift level)) else none
  match cached with
  | some t => .ok t.2.2.2
  | none => if s.bad key 8 then .error ⟨6, level⟩ else .ok (s.rd key 8)

/-- A walk over the levels still to go (R187). -/
def State.walkFrom (s : State) (ctx va table : Nat) : List Nat → Except XFault Leaf
  | [] => .error ⟨1, 3⟩
  | level :: rest =>
    match s.rawEntry ctx va level (table + 8 * vaIndex va level) with
    | .error f => .error f
    | .ok p =>
      match readEntry level p with
      | .error f => .error f
      | .ok (.inl l) => .ok l
      | .ok (.inr next) => State.walkFrom s ctx va next rest

/-- The entry of level `want` that a walk meets. -/
def State.entryFrom (s : State) (ctx va want table : Nat) : List Nat → Option Nat
  | [] => none
  | level :: rest =>
    match s.rawEntry ctx va level (table + 8 * vaIndex va level) with
    | .error _ => none
    | .ok p =>
      if level = want then some p
      else
        match readEntry level p with
        | .ok (.inr next) => State.entryFrom s ctx va want next rest
        | _ => none

/-- The leaf of an address in a context (R184, R187); a context without a root has no entry. -/
def State.leafFor (s : State) (ctx va : Nat) : Except XFault Leaf :=
  let r := (s.roots.get ctx).toNat
  if r = 0 then .error ⟨0, 0⟩ else s.walkFrom ctx va (r - 1) [0, 1, 2, 3]

/-- The permissions an access kind needs (R188). -/
def leafPermits (pte kind : Nat) : Bool :=
  match kind with
  | 0 => decide (bits pte 5 5 = 1)
  | 1 => decide (bits pte 3 3 = 1)
  | 2 => decide (bits pte 4 4 = 1)
  | _ => decide (bits pte 3 3 = 1 ∧ bits pte 4 4 = 1 ∧ bits pte 7 7 = 1)

/-- The key of an address under a leaf. -/
def leafKey (l : Leaf) (va : Nat) : Nat :=
  memKey (bits l.pte 11 9) (bits l.pte 51 16 * 2 ^ 16 + (if l.level = 2 then bits va 20 0 else bits va 15 0))

/-- translate of R71 for `n` bytes at `va` (R187, R188): the memory key, or the fault. An address in the scratchpad aperture has no
translation (R181); where an agent without a scratchpad names one, the access fails (log entry 48). -/
def State.xlate (s : State) (ctx va n kind : Nat) : Except XFault Nat :=
  if va / 2 ^ 32 % 2 ^ 32 = 0xFFFFFFFF then .error ⟨0, 0⟩
  else if bits va 63 57 ≠ (if bits va 56 56 = 1 then 127 else 0) then .error ⟨2, 0⟩
  else
    match s.leafFor ctx va with
    | .error f => .error f
    | .ok l =>
      if kind = kAtomic ∧ bits l.pte 11 9 = 3 then .error ⟨5, 0⟩
      else if !(leafPermits l.pte kind) then .error ⟨3, l.level⟩
      else if bits l.pte 11 9 = 3 ∧ !(s.hostOk (keyPa (leafKey l va)) n (decide (kind = kWrite))) then .error ⟨4, 0⟩
      else .ok (leafKey l va)

/-- A translation fault that is a PERMISSION, not a PAGE_FAULT (R191). -/
def permissionFault (f : XFault) : Bool := decide (f.reason = 3 ∨ f.reason = 4 ∨ f.reason = 5)

/-- The trap of a translation fault (R191): PAGE_FAULT or PERMISSION, its address and FAULTDET. -/
def xlateTrap (f : XFault) (va lane kind : Nat) : Stop :=
  .trap ⟨if permissionFault f then 7 else 6, BitVec.ofNat 64 va,
    some (BitVec.ofNat 64 (lane * 2 ^ 16 + f.reason * 2 ^ 8 + f.level * 2 ^ 4 + kind)), 0⟩

/-- Translates for a program's access, or traps. -/
def State.xlateOr (s : State) (ctx va n lane kind : Nat) : Exe Nat :=
  match s.xlate ctx va n kind with
  | .ok k => .ok k
  | .error f => .error (xlateTrap f va lane kind)

/-- The allocation size Z (R163). -/
def Crew.z (k : Crew) : Nat := k.image.scrlines * 128

/-- XOR of the `w` bits from `hi` into those from `lo`. -/
def xorField (a hi lo w : Nat) : Nat := a ^^^ ((a / 2 ^ hi % 2 ^ w) * 2 ^ lo)

/-- The swizzle codes (R167). -/
def swizzle (a k : Nat) : Nat :=
  match k with
  | 1 => xorField a 7 4 3
  | 2 => xorField a 8 4 3
  | 3 => xorField a 9 4 3
  | 4 => xorField a 7 2 5
  | 5 => xorField a 7 3 4
  | 6 => xorField a 7 5 2
  | 7 => xorField a 7 6 1
  | _ => a

/-- The smallest power of two at least `z`, for z up to 2^20. -/
def ceilPow2 (z : Nat) : Nat := if z ≤ 1 then 1 else 2 ^ (Nat.log2 (z - 1) + 1)

/-- sp_addr (R166) in an allocation of `z` bytes; 0 where it is empty (R164). -/
def spAddr (z sum k n : Nat) : Nat :=
  if z = 0 then 0
  else
    let a := swizzle (sum % 2 ^ 64) k % ceilPow2 z
    alignDown (if z ≤ a then a - z else a) n

/-- A line is full (R170). -/
def Crew.lineFull (k : Crew) (line : Nat) : Bool := decide ((k.lines.get line).toNat % 2 = 0)

/-- Every line that holds a byte of `n` bytes at `a` is full (R171). -/
def Crew.linesFull (k : Crew) (a n : Nat) : Bool :=
  (List.range ((a + n + 127) / 128 - a / 128)).all (fun i => k.lineFull (a / 128 + i))

/-- Reads scratchpad bytes; an empty allocation reads 0 (R164). -/
def Crew.spRd (k : Crew) (a n : Nat) : Nat := if k.z = 0 then 0 else rdBytes k.sp a n

/-- Writes scratchpad bytes; an empty allocation discards them (R164). -/
def Crew.spWr (k : Crew) (a n v : Nat) : Crew :=
  if k.z = 0 then k else { k with sp := wrBytes k.sp a n v, spPoison := poisonAfter k.spPoison 4 a n }

/-- Writes some bits of a scratchpad byte: a partial write, which leaves poison (R177, R412). -/
def Crew.spBits (k : Crew) (a mask val : Nat) : Crew :=
  if k.z = 0 then k else { k with sp := wrBytes k.sp a 1 (blend (rdBytes k.sp a 1) val mask) }

/-- LF of a line becomes 0, or 1 where no writer is pending (R170). -/
def Crew.setLf (k : Crew) (line : Nat) (full : Bool) : Crew :=
  let v := (k.lines.get line).toNat
  let v2 := if full then (if v / 2 = 0 then 0 else v) else v / 2 * 2 + 1
  { k with lines := k.lines.set line (BitVec.ofNat 5 v2) }

/-- PEND rises by one and the line empties (R170). -/
def Crew.armLine (k : Crew) (line : Nat) : Crew :=
  { k with lines := k.lines.set line (BitVec.ofNat 5 ((k.lines.get line).toNat / 2 * 2 + 3)) }

/-- One writer of the line has landed its last byte (R170). -/
def Crew.landLine (k : Crew) (line : Nat) : Crew :=
  let p := (k.lines.get line).toNat / 2 - 1
  { k with lines := k.lines.set line (BitVec.ofNat 5 (if p = 0 then 0 else p * 2 + 1)) }

/-- The aperture or a memory address (R181, R199). -/
inductive Place where
  | spad (off : Nat)
  | mem (va : Nat)
  deriving DecidableEq, Repr

/-- gaddr of R199 for a 64-bit sum. -/
def placeOf (k : Crew) (sum n : Nat) : Place :=
  let a := sum % 2 ^ 64
  if a / 2 ^ 32 = 0xFFFFFFFF then .spad (spAddr k.z (a % 2 ^ 32) 0 n) else .mem (alignDown a n)

/-- A signed reading of the low 32 or 64 bits. -/
def sgn (bits v : Nat) : Int := sextNat bits v

/-- One FP32 half or BF16 element of an atomic (R205): round to nearest even, no flush, canonical NaN. -/
def atomElem (aop w old b : Nat) : Nat :=
  if w = 16 then finalRound (Ext.add 0 (decodeFmt 1 old) (decodeFmt 1 b)) false 1 0
  else
    match aop with
    | 12 => (fadd32 0 (w32 old) (w32 b)).toNat
    | 13 => (fminmax32 false false (w32 old) (w32 b)).toNat
    | _ => (fminmax32 true false (w32 old) (w32 b)).toNat

/-- The elements of a word, one by one. -/
def atomElems (aop w : Nat) : Nat → Nat → Nat → Nat
  | 0, _, _ => 0
  | n + 1, old, b => atomElem aop w (old % 2 ^ w) (b % 2 ^ w) + 2 ^ w * atomElems aop w n (old / 2 ^ w) (b / 2 ^ w)

/-- The new value of a word of `w` bits (R205). -/
def atomNew (aop w old cmp b : Nat) : Nat :=
  match aop with
  | 0 => b
  | 1 => if old = cmp then b else old
  | 2 => (old + b) % 2 ^ w
  | 3 => old &&& b
  | 4 => old ||| b
  | 5 => old ^^^ b
  | 6 => if sgn w b < sgn w old then b else old
  | 7 => if sgn w old < sgn w b then b else old
  | 8 => min old b
  | 9 => max old b
  | 10 => if b ≤ old then 0 else old + 1
  | 11 => if old = 0 ∨ b < old then b else old - 1
  | 15 => atomElems 15 16 (w / 16) old b
  | a => atomElems a 32 (w / 32) old b

end Sys2Proof.Machine
end

