-- ==== Sys2Proof/Machine/Operands.lean ====
section
/-! DEFINITION. Every operand form: masks and active lanes (R59, R71, R73), vector sources with their empty
policies (R57, R118, R119), destinations (R63, R64, R115), addresses (R58, R166, R199). -/
namespace Sys2Proof.Machine

/-- Reads a mask register: m0 is the issuing entry's thread mask (R128); poison traps (R413). -/
def rdM (e : Env) (w : Warp) (r : Nat) : Exe W64 :=
  if r = 0 then .ok e.m0
  else if w.mpoison.getLsbD r then .error (trapOf 11 (poisonInfo 2 0 r))
  else .ok (w.mregs.getD (r - 1) 0)

/-- What a vector instruction of a warp sees: its warp, the active lanes, the lanes Z = 1 zeroes, the effective
rounding mode, FTZ (R42, R59, R71), and the mask register that selects the lanes. -/
structure VEnv where
  w : Warp
  act : W64
  zl : W64
  mode : Nat
  vin : Bool
  vout : Bool
  mr : Nat

/-- The warp of an issuer, which exists wherever one issues. -/
def theWarp (s : State) (e : Env) : Exe Warp :=
  match e.w? s with
  | some w => .ok w
  | none => .error .wait

/-- The effective rounding mode (R59): the prefix's where it names one, else RMODE. -/
def effMode (p : Option Pfx) (rmode : BitVec 3) : Nat :=
  match p with
  | some q => if q.rm = 6 then rmode.toNat else q.rm.toNat
  | none => rmode.toNat

/-- The vector environment of a warp and a prefix. -/
def VEnv.of (e : Env) (w : Warp) : VEnv :=
  match e.h.pfx with
  | none => ⟨w, e.m0, 0, w.rmode.toNat, w.ftz.getLsbD 0, w.ftz.getLsbD 1, 0⟩
  | some q =>
    let act := e.m0 &&& (if q.mask = 0 then e.m0 else w.mregs.getD (q.mask.toNat - 1) 0)
    ⟨w, act, if q.z then e.m0 &&& ~~~act else 0, effMode (some q) w.rmode, w.ftz.getLsbD 0, w.ftz.getLsbD 1, q.mask.toNat⟩

/-- The vector environment of the issuing group; the poison of its mask is judged later (R63). -/
def venvW (s : State) (e : Env) : Exe VEnv := do
  let w ← theWarp s e
  pure (VEnv.of e w)

/-- POISON of the mask register that selects the lanes (R413). -/
def maskOk (v : VEnv) : Exe Unit := need (decide (v.mr = 0) || !(v.w.mpoison.getLsbD v.mr)) (trapOf 11 (poisonInfo 2 0 v.mr))

/-- The vector environment of a group that reads no vector register. -/
def venv (s : State) (e : Env) : Exe VEnv := do
  let v ← venvW s e
  maskOk v
  pure v

/-- A vector source: its register, the lanes read, and whether an empty lane traps (R118). -/
structure Src where
  reg : Nat
  lanes : W64
  trapEmpty : Bool

/-- A lane of a warp's register. -/
def Warp.lane (w : Warp) (r i : Nat) : Lane := (w.regs.getD r []).getD i Lane.launch

/-- REG_RANGE for the first register at or beyond the allocation (R63, R115). -/
def regsOk (k : Crew) (rs : List Nat) : Exe Unit :=
  match rs.find? (fun r => decide (k.image.regs ≤ r)) with
  | some r => .error (trapOf 2 (BitVec.ofNat 64 r))
  | none => .ok ()

/-- The kind of EMPTY_READ a lane raises under a policy (R118, R119). -/
def emptyKind (l : Lane) (trapEmpty : Bool) : Option Nat :=
  if l.f then none else if trapEmpty then some 0 else if l.pend then none else some 1

/-- The first offending lane of a source (R119). -/
def Src.empty? (w : Warp) (x : Src) : Option (Nat × Nat × Nat) :=
  (lanesOf x.lanes).findSome? (fun i => (emptyKind (w.lane x.reg i) x.trapEmpty).map (fun k => (k, i, x.reg)))

/-- EMPTY_READ for the first offending lane of the sources in order (R63, R118, R119). -/
def emptyCheck (w : Warp) (xs : List Src) : Exe Unit :=
  match xs.findSome? (fun x => x.empty? w) with
  | some (k, i, r) => .error (trapOf 3 (poisonInfo k i r))
  | none => .ok ()

/-- The wait for pending lanes of the sources (R118). -/
def pendCheck (w : Warp) (xs : List Src) : Exe Unit :=
  waitUnless (!(xs.any (fun x => (lanesOf x.lanes).any (fun i => (w.lane x.reg i).pend))))

/-- The first source with a poisoned lane `i`. -/
def poisonedAt (w : Warp) (xs : List Src) (i : Nat) : Option (Nat × Nat) :=
  xs.findSome? (fun x => if x.lanes.getLsbD i && (w.lane x.reg i).poison then some (i, x.reg) else none)

/-- POISON of the given KIND for the lowest poisoned lane of the sources (R413). -/
def poisonCheck (w : Warp) (kind : Nat) (xs : List Src) : Exe Unit :=
  match (List.range 64).findSome? (poisonedAt w xs) with
  | some (i, r) => .error (trapOf 11 (poisonInfo kind i r))
  | none => .ok ()

/-- The checks of the sources of a vector instruction in order (R63, R118, R413): POISON, of the mask that selects the lanes too, is a
condition of the entry and comes last (log entry 91). -/
def checkV (v : VEnv) (kind : Nat) (xs : List Src) : Exe Unit := do
  emptyCheck v.w xs
  pendCheck v.w xs
  maskOk v
  poisonCheck v.w kind xs

/-- The checks of the sources of an access in order, and its base: an index `idx` and the data `data` (R63, R118, R119, R413). The poison
of the data is judged after translation (log entry 91). -/
def mChecks (s : State) (e : Env) (v : VEnv) (sb : BitVec 6) (idx data : List Src) : Exe W64 := do
  emptyCheck v.w (idx ++ data)
  let base ← rdSw s e sb.toNat
  pendCheck v.w (idx ++ data)
  maskOk v
  sOk s e sb.toNat
  poisonCheck v.w 0 idx
  pure base

/-- The checks of sources that no prefix selects, in order (R63, R118, R413). -/
def checkSrcs (w : Warp) (kind : Nat) (xs : List Src) : Exe Unit := do
  emptyCheck w xs
  pendCheck w xs
  poisonCheck w kind xs

/-- Destination lanes wait for their outstanding producer (R64). -/
def dstFree (w : Warp) (rs : List Nat) (lanes : W64) : Exe Unit :=
  waitUnless (rs.all (fun r => (lanesOf lanes).all (fun i => !(w.lane r i).pend)))

/-- Writes lanes of a register. -/
def Warp.setLanes (w : Warp) (r : Nat) (lanes : W64) (f : Nat → Lane) : Warp :=
  { w with regs := modAt w.regs r (fun v => mapFrom (fun i l => if lanes.getLsbD i then f i else l) 0 v) }

/-- The result of a vector instruction: active lanes by `f`, the lanes Z removes become 0 (R59, R73). -/
def Warp.out (w : Warp) (v : VEnv) (r : Nat) (f : Nat → Lane) : Warp :=
  (w.setLanes r v.act f).setLanes r v.zl (fun _ => Lane.full 0 false)

/-- A vector instruction with one destination register (R63, R73). -/
def runVec (i : Instr) (s : State) (dst : Nat) (pre : Env → Exe Unit) (srcs : VEnv → List Src) (f : VEnv → Nat → Lane) :
    Host.Outcome State Fault Refusal :=
  run i s (fun e => do
    pre e
    let v ← venvW s e
    regsOk e.k (dst :: (srcs v).map Src.reg)
    checkV v 0 (srcs v)
    dstFree v.w [dst] (v.act ||| v.zl)
    pure (s.modWarp e.ci e.wi (fun w => w.out v dst (f v))))

/-- No condition of the entry's own. -/
def noPre (_ : Env) : Exe Unit := .ok ()

/-- A source over the active lanes. -/
def VEnv.src (v : VEnv) (r : BitVec 7) (trapEmpty : Bool) : Src := ⟨r.toNat, v.act, trapEmpty⟩

/-- An operation in flight of the issuer, without parts. -/
def Env.newOp (e : Env) (s : State) (lanes : W64) : Op :=
  { id := s.nextOp, who := e.who, crew := e.ci, warp := e.wi, lanes := lanes, isLoad := false, acq := false, rel := false, scope := 0
    fills := [], sload := none, cells := [], atoms := [], aop := 0, awidth := 0, vt := 0, eng := none }

/-- Puts an operation in flight. -/
def State.addOp (s : State) (o : Op) : State := { s with ops := s.ops ++ [o], nextOp := s.nextOp + 1 }.noteFork o

/-- set_empty of R71: the lanes become pending (R117). -/
def Warp.setPending (w : Warp) (rs : List Nat) (lanes : W64) : Warp :=
  rs.foldl (fun w r => { w with regs := modAt w.regs r (fun v => mapFrom (fun i l =>
    if lanes.getLsbD i then { l with f := false, pend := true, poison := false } else l) 0 v) }) w

/-- Zeroes the lanes that Z = 1 removes, in every register of a run (R59). -/
def Warp.zeroRun (w : Warp) (v : VEnv) (rs : List Nat) : Warp :=
  rs.foldl (fun w r => w.setLanes r v.zl (fun _ => Lane.full 0 false)) w

/-- A producer whose results are known at issue and land lane by lane (R117, R134). -/
def runProducer (i : Instr) (s : State) (dst : Nat) (srcs : VEnv → List Src) (f : VEnv → Nat → Lane) :
    Host.Outcome State Fault Refusal :=
  run i s (fun e => do
    let v ← venvW s e
    regsOk e.k (dst :: (srcs v).map Src.reg)
    checkV v 0 (srcs v)
    dstFree v.w [dst] (v.act ||| v.zl)
    let s1 := s.modWarp e.ci e.wi (fun w => (w.setPending [dst] v.act).zeroRun v [dst])
    if v.act = 0 then pure s1
    else pure (s1.addOp { e.newOp s v.act with fills := (lanesOf v.act).map (fun l => ⟨l, .ready [(dst, f v l)]⟩) }))

/-- The byte offset of an M-format word (R58). -/
def mOff (p : Option Pfx) (l : Option (BitVec 24)) : Int :=
  match l with
  | some h => h.toInt
  | none => match p with | some q => q.imx.toInt * 4 | none => 0

/-- The 64-bit sum of a lane's address (R166, R199). -/
def addrSum (base : W64) (idx : Int) (off : Int) : Nat := (((base.toNat : Int) + idx + off) % 2 ^ 64).toNat

/-- The index a lane adds: its 32 bits sign-extended, where IX = 1 (R55). -/
def laneIdx (w : Warp) (ix : Bool) (vi : Nat) (i : Nat) : Int := if ix then (w.lane vi i).data.toInt else 0

end Sys2Proof.Machine
end

