-- ==== Sys2Proof/Machine/Flags.lean ====
section
/-! DEFINITION. Every condition and flag result: mask registers written lane by lane (R128), comparisons (R138,
R146), the full bit (R121), carried values and their sticky bit (R34, R36). -/
namespace Sys2Proof.Machine

/-- A mask register after a write of the active lanes: Z clears the removed lanes, every other bit stays (R128). -/
def maskAfter (old : W64) (v : VEnv) (p : Nat → Bool) : W64 :=
  (old &&& ~~~(v.act ||| v.zl)) ||| (maskOf p &&& v.act)

/-- Writes m1 to m7; a write of every lane clears the register's poison (R412). -/
def Warp.setM (w : Warp) (md : Nat) (v : VEnv) (p : Nat → Bool) : Warp :=
  { w with
    mregs := modAt w.mregs (md - 1) (fun old => maskAfter old v p)
    mpoison := if v.act ||| v.zl = BitVec.allOnes 64 then w.mpoison &&& ~~~(1#8 <<< md) else w.mpoison }

/-- A vector instruction that writes a mask register; naming m0 traps (R69, R128). -/
def runMask (i : Instr) (s : State) (md : BitVec 3) (srcs : VEnv → List Src) (p : VEnv → Nat → Bool) :
    Host.Outcome State Fault Refusal :=
  run i s (fun e => do
    need (decide (md ≠ 0)) (e.ill 9)
    let v ← venvW s e
    regsOk e.k ((srcs v).map Src.reg)
    checkV v 0 (srcs v)
    pure (s.modWarp e.ci e.wi (fun w => w.setM md.toNat v (p v))))

/-- A vector instruction that writes one scalar register (R125). -/
def runToScalar (i : Instr) (s : State) (sd : BitVec 6) (srcs : VEnv → List Src) (f : VEnv → Exe W64) :
    Host.Outcome State Fault Refusal :=
  run i s (fun e => do
    let v ← venvW s e
    regsOk e.k ((srcs v).map Src.reg)
    checkV v 0 (srcs v)
    let x ← f v
    wrS s e sd.toNat x)

/-- The integer conditions (R138). -/
def icmp (signed : Bool) (cc : BitVec 3) (a b : W32) : Bool :=
  let lt : Bool := if signed then a.slt b else a.ult b
  let gt : Bool := if signed then b.slt a else b.ult a
  match cc.toNat with
  | 0 => decide (a = b)
  | 1 => decide (a ≠ b)
  | 2 => lt
  | 3 => !gt
  | 4 => gt
  | _ => !lt

/-- The data bits of an active lane. -/
def VEnv.data (v : VEnv) (r : BitVec 7) (i : Nat) : W32 := (v.w.lane r.toNat i).data

/-- A lane's data and sticky bit as a full lane (R36). -/
def VEnv.moved (v : VEnv) (r : BitVec 7) (i : Nat) : Lane := Lane.full (v.w.lane r.toNat i).data (v.w.lane r.toNat i).s

/-- A floating-point operand as arithmetic reads it (R37), flushed under FTZ.VIN (R43). -/
def VEnv.fp (v : VEnv) (r : BitVec 7) (i : Nat) : W32 :=
  flush32 v.vin (read32 (v.w.lane r.toNat i).data (v.w.lane r.toNat i).s v.mode)

/-- A floating-point result, flushed under FTZ.VOUT, with S = 0 (R145). -/
def VEnv.fout (v : VEnv) (x : W32) : Lane := Lane.full (flush32 v.vout x) false

/-- An integer result: S = 0 (R135). -/
def ires (x : W32) : Lane := Lane.full x false

/-- A carried value in a lane (R34). -/
def carried (q : Ext × Bool) : Lane := Lane.full (exact32 q.1) q.2

end Sys2Proof.Machine
end

