-- ==== Sys2Proof/Machine/Order.lean ====
section
/-! DEFINITION. Phase consistency (chapter 09): coherence order, scopes, happens-before, and the values that R220 lets a read return.
`State.hist` is the coherence order of every location at once; a set of writes is a list of their places in it. -/
namespace Sys2Proof.Machine

/-- Two byte ranges meet. -/
def meets (a n b m : Nat) : Bool := decide (a < b + m ∧ b < a + n)

/-- The crew of a thread context. -/
def State.crewIdx (s : State) : ThreadRef → Nat
  | .warp c _ => c
  | .ctx x => match s.ctxs[x]? with | some c => c.crew | none => 0

/-- The die of a thread context. -/
def State.whoDie (s : State) (t : ThreadRef) : Nat := match s.crews[s.crewIdx t]? with | some k => k.die | none => 0

/-- U lies within the scope of T (R212): 0 CREW, 1 DIE, 2 DEV, 3 SYS. -/
def State.inScope (s : State) (scope : Nat) (t u : ThreadRef) : Bool :=
  match scope with
  | 0 => decide (s.crewIdx t = s.crewIdx u)
  | 1 => decide (s.whoDie t = s.whoDie u)
  | _ => true

/-- A write touches the bytes. -/
def Wr.touches (w : Wr) (sp : Option Nat) (key n : Nat) : Bool := decide (w.sp = sp) && meets w.key w.n key n

/-- A write touches bytes that both ranges share. -/
def Wr.touchesBoth (w : Wr) (r : Rd) (sp : Option Nat) (key n : Nat) : Bool :=
  decide (w.sp = sp ∧ r.sp = sp) && (List.range n).any (fun j => meets w.key w.n (key + j) 1 && meets r.key r.n (key + j) 1)

/-- What a read of the bytes joins: the writes of landings on the scratchpad lines that hold them (R218). -/
def State.joinedBy (s : State) (sp : Option Nat) (key n : Nat) : List Nat :=
  match sp with
  | some ci => s.landedOn ci key n
  | none => []

/-- A read of the threads may return what memory held after the first `t` writes (R220): every write that happens before it, or that an
earlier read of the thread returned, is among them. -/
def State.mayRead (s : State) (who : ThreadRef) (id : Nat) (lanes : W64) (sp : Option Nat) (key n t : Nat) : Bool :=
  let past := addAll (s.past who id lanes) (s.joinedBy sp key n)
  let mine := s.reads.filter (fun r => decide (s.fromLanes who id lanes r.who r.since r.lanes ≠ 0))
  (s.writesThat (fun j w => decide (t ≤ j) && w.touches sp key n
    && (past.contains j || mine.any (fun r => decide (j < r.upto) && w.touchesBoth r sp key n)))).isEmpty

/-- An acceptance ended with the first `t` writes. -/
def State.between (s : State) (t : Nat) : Bool :=
  decide (t ≤ s.hist.length) && (match s.hist[t]? with | some w => !w.more | none => true)

/-- How many accepted writes memory held when part `j` of the read returns its value: all of them, or as many as the agenda asks for,
where R220 allows that. -/
def State.readPointOf (s : State) (j : Nat) (who : ThreadRef) (id : Nat) (lanes : W64) (sp : Option Nat) (key n : Nat) : Nat :=
  match s.lookBack[j]? with
  | some t => if s.between t && s.mayRead who id lanes sp key n t then t else s.hist.length
  | none => s.hist.length

/-- The same for a read of one part. -/
def State.readPoint (s : State) (who : ThreadRef) (id : Nat) (lanes : W64) (sp : Option Nat) (key n : Nat) : Nat :=
  s.readPointOf 0 who id lanes sp key n

/-- A memory's bytes in the range after the first `t` writes, from what it holds now. -/
def State.undo (s : State) (sp : Option Nat) (key n t : Nat) (m : Sparse 8) : Sparse 8 :=
  (s.hist.drop t).reverse.foldl (fun m w =>
    if w.touches sp key n then (List.range w.n).foldl (fun m j => m.set (w.key + j) (w.old.get (w.key + j))) m else m) m

/-- The `n` bytes at a key after the first `t` writes. -/
def State.rdAt (s : State) (key n t : Nat) : Nat := rdBytes (s.undo none key n t s.mem) key n

/-- A crew whose scratchpad bytes in the range are those after the first `t` writes. -/
def State.crewAt (s : State) (k : Crew) (ci off n t : Nat) : Crew := { k with sp := s.undo (some ci) off n t k.sp }

/-- The last writes to the bytes among the first `t` (R220): those whose value a read at that point returns. -/
def State.lastWrites (s : State) (sp : Option Nat) (key n t : Nat) : List Wr :=
  (List.range n).filterMap (fun j => (s.hist.take t).reverse.find? (fun w => w.touches sp (key + j) 1))

/-- The read of the agent of the step may return what memory held after the first `t` writes (R220); the events of an operation thread
are unordered among themselves (R217). -/
def State.actMayRead (s : State) (sp : Option Nat) (key n t : Nat) : Bool :=
  let past := addAll s.actor.past (s.joinedBy sp key n)
  (s.writesThat (fun j w => decide (t ≤ j) && w.touches sp key n && past.contains j)).isEmpty

/-- How many accepted writes memory held when a read of the agent of the step returns its value (R220). -/
def State.actPoint (s : State) (sp : Option Nat) (key n : Nat) : Nat :=
  match s.lookBack.head? with
  | some t => if s.between t && s.actMayRead sp key n t then t else s.hist.length
  | none => s.hist.length

/-- The release points through which writes are observed (R214). -/
def headsIn (ws : List Wr) : List Head := ws.flatMap (fun w => w.author.heads)

/-- A release point synchronises with an acquire of the thread context at a scope (R214); one that no thread context performs does where
the acquire's scope is no narrower (log entry 90). -/
def State.syncs (s : State) (who : ThreadRef) (scope : Nat) (h : Head) : Bool :=
  match h.who with
  | some t => s.inScope h.scope t who && s.inScope scope who t
  | none => decide (h.scope ≤ scope)

/-- The threads acquire at a scope what the release sequences of some writes carry (R214). -/
def State.acquire (s : State) (who : ThreadRef) (since : Nat) (lanes : W64) (scope : Nat) (ws : List Wr) : State :=
  s.learn who lanes since (unionOf (((headsIn ws).filter (s.syncs who scope)).map (fun h => h.seen)))

/-- What an acquire at SYS scope of firmware (releases of scope DEV or SYS) or of the host (SYS) observes in memory (R343, R352). -/
def State.observed (s : State) (least : Nat) (key n : Nat) : List Nat :=
  unionOf (((headsIn (s.lastWrites none key n s.hist.length)).filter (fun h => decide (least ≤ h.scope))).map (fun h => h.seen))

/-- What the agent of the step writes belongs to release sequences (R214): a read-modify-write keeps those of the writes that it read. -/
def State.withHeads (s : State) (hs : List Head) : State := { s with actor := { s.actor with heads := hs } }

/-- A read of the threads returned what memory held after the first `t` writes; an acquire observes by it (R213, R220), and landings join
it (R218). -/
def State.noteRead (s : State) (who : ThreadRef) (since : Nat) (lanes : W64) (sp : Option Nat) (key n t : Nat) (acq : Option Nat) : State :=
  let s1 := ({ s with reads := s.reads ++ [⟨who, lanes, since, sp, key, n, t⟩] } : State).learn who lanes since (s.joinedBy sp key n)
  match acq with
  | some scope => s1.acquire who since lanes scope (s.lastWrites sp key n t)
  | none => s1

/-- The release points through which a write by the threads is observed (R213 to R215): its own, at place `j`, where it releases; those
of PHASE.REL before it; those of the threads' earlier writes to the bytes; and, for a read-modify-write, those of the writes it reads. -/
def State.headsOf (s : State) (who : ThreadRef) (id : Nat) (lanes : W64) (rel : Option Nat) (rmw : Bool) (sp : Option Nat) (key n : Nat) : List Head :=
  (match rel with | some scope => [⟨some who, scope, s.hist.length :: s.past who id lanes⟩] | none => [])
    ++ s.rels.filterMap (fun r =>
        let m := if r.who = who ∧ r.since ≤ id then r.lanes &&& lanes else 0
        if m ≠ 0 then some ⟨some who, r.scope, s.past who r.since m⟩ else none)
    ++ s.hist.flatMap (fun w =>
        if w.touches sp key n && s.ownWrite who id lanes w then w.author.heads.filter (fun h => decide (h.who = some who)) else [])
    ++ (if rmw then headsIn (s.lastWrites sp key n s.hist.length) else [])

/-- The author of a write by the threads of operation or issue `id`, which events from number `since` on follow. -/
def State.authorOf (s : State) (who : ThreadRef) (id since : Nat) (lanes : W64) (rel : Option Nat) (rmw : Bool) (sp : Option Nat) (key n : Nat) :
    Option Author :=
  some ⟨.thread who lanes since, [], s.headsOf who id lanes rel rmw sp key n⟩

/-- A release point of PHASE.REL for threads that go on at operation number `since` (R213, R224). -/
def State.markRelease (s : State) (who : ThreadRef) (lanes : W64) (scope : Nat) : State :=
  { s with rels := s.rels ++ [⟨who, lanes, s.nextOp, scope⟩] }

/-- An acquire point of PHASE.ACQ: every earlier read of the threads themselves observes (R213, R224). -/
def State.markAcquire (s : State) (who : ThreadRef) (lanes : W64) (scope : Nat) : State :=
  s.reads.foldl (fun t r =>
    if r.who = who ∧ r.since ≤ s.nextOp ∧ r.lanes &&& lanes ≠ 0 then
      t.acquire who s.nextOp (r.lanes &&& lanes) scope (s.lastWrites r.sp r.key r.n r.upto) else t) s

/-- A scratchpad write of the issuing threads `lanes` takes its place in coherence order; `rel` is the scope of a release (R203). -/
def State.spNote (s : State) (e : Env) (lanes : W64) (rel : Option Nat) (rmw : Bool) (off n : Nat) : State :=
  s.noteSp e.ci off n (s.authorOf e.who s.nextOp s.nextOp lanes rel rmw (some e.ci) off n)

/-- The issuing threads `lanes` write scratchpad bytes. -/
def State.spPut (s : State) (e : Env) (lanes : W64) (rel : Option Nat) (rmw : Bool) (off n v : Nat) : State :=
  (s.spNote e lanes rel rmw off n).modCrew e.ci (fun k => k.spWr off n v)

/-- The issuing threads `lanes` write some bits of a scratchpad byte. -/
def State.spPutBits (s : State) (e : Env) (lanes : W64) (off mask val : Nat) : State :=
  (s.spNote e lanes none false off 1).modCrew e.ci (fun k => k.spBits off mask val)

/-- One instruction's read of scratchpad bytes is one acceptance (R169): all its lanes look back, or none does. -/
def State.agreed (s : State) (e : Env) (qs : List (W64 × Nat × Nat)) : State :=
  match s.lookBack.head? with
  | some t => if qs.all (fun q => s.mayRead e.who s.nextOp q.1 (some e.ci) q.2.1 q.2.2 t) then s else { s with lookBack := [] }
  | none => s

/-- The crew as a scratchpad read of the issuing threads `lanes` sees the `n` bytes at `off` (R220). -/
def State.spSeen (s : State) (e : Env) (lanes : W64) (k : Crew) (off n : Nat) : Crew :=
  s.crewAt k e.ci off n (s.readPoint e.who s.nextOp lanes (some e.ci) off n)

/-- The issuing threads `lanes` have read the `n` scratchpad bytes at `off` of state `s`. -/
def State.spRead (t s : State) (e : Env) (lanes : W64) (off n : Nat) (acq : Option Nat) : State :=
  t.noteRead e.who s.nextOp lanes (some e.ci) off n (s.readPoint e.who s.nextOp lanes (some e.ci) off n) acq

/-- The space and the key of a place. -/
def Spot.loc (ci : Nat) : Spot → Option Nat × Nat
  | .spad off => (some ci, off)
  | .mem key => (none, key)

/-- Where part `j` of a scalar access of the issuing entry reads: not before the latest write of any thread of its warp (R278). -/
def State.scalarPoint (s : State) (e : Env) (j : Nat) (p : Spot) (n : Nat) : Nat :=
  let q := p.loc e.ci
  let t := s.readPointOf j e.who s.nextOp e.m0 q.1 q.2 n
  if (s.writesThat (fun i w => decide (t ≤ i) && w.touches q.1 q.2 n && s.ownWrite e.who s.nextOp (BitVec.allOnes 64) w)).isEmpty then t
  else s.hist.length

/-- The bytes that part `j` of a scalar access obtains, with their poison marks. -/
def State.seen (s : State) (e : Env) (j : Nat) (p : Spot) (n : Nat) : List MByte :=
  let t := s.scalarPoint e j p n
  match p with
  | .spad off =>
    let k := s.crewAt e.k e.ci off n t
    (List.range n).map (fun i => (BitVec.ofNat 8 (k.spRd (off + i) 1), e.k.spBad (off + i) 1))
  | .mem key => (List.range n).map (fun i => (BitVec.ofNat 8 (s.rdAt key n t / 256 ^ i), s.bad (key + i) 1))

/-- That part has been read of state `s`. -/
def State.noteSeen (t s : State) (e : Env) (j : Nat) (p : Spot) (n : Nat) : State :=
  let q := p.loc e.ci
  t.noteRead e.who s.nextOp e.m0 q.1 q.2 n (s.scalarPoint e j p n) none

end Sys2Proof.Machine
end

