-- ==== Sys2Proof/Machine/Access.lean ====
section
/-! DEFINITION. Accesses in flight: what an access must wait for (R171, R210 to R224), how lanes fill, how stores
reach their ports and how the atomic units execute (R200, R201, R206). -/
namespace Sys2Proof.Machine

/-- The lanes of an earlier operation that lie in the same program or sequencer thread as lanes `lanes` of what `who` issues as number
`id` (R210, R217). -/
def State.earlierLanes (s : State) (who : ThreadRef) (id : Nat) (lanes : W64) (o : Op) : W64 :=
  s.fromLanes who id lanes o.who (o.id + 1) o.lanes

/-- The key range of an unfilled load of lane `f.lane`. -/
def Fill.range? (f : Fill) : Option (Nat × Nat) :=
  match f.src with
  | .mem k n _ _ => some (k, n)
  | .half _ _ k _ => some (k, 8)
  | _ => none

/-- An unfilled load of the operation by the lanes `m` that meets the range, or any where there is none. -/
def Op.loadIn (o : Op) (m : W64) (r : Option (Nat × Nat)) : Bool :=
  o.fills.any (fun f => m.getLsbD f.lane &&
      (match f.range?, r with
       | some (k, n), some (a, c) => meets k n a c
       | some _, none => true
       | none, none => o.acq
       | none, some _ => false))
    || (match o.sload, r with
        | some l, some (a, c) => decide (m ≠ 0) && l.val.isNone && meets l.key 8 a c
        | some l, none => decide (m ≠ 0) && l.val.isNone
        | none, _ => false)

/-- A store of the operation by the lanes `m`, not yet accepted, that meets the range. -/
def Op.storeIn (o : Op) (m : W64) (r : Option (Nat × Nat)) : Bool :=
  o.cells.any (fun c => decide (c.lanes &&& m ≠ 0) && (match r with | some (a, n) => meets c.key c.n a n | none => true))

/-- An atomic lane of the operation, not yet executed, that meets the range. -/
def Op.atomIn (o : Op) (m : W64) (r : Option (Nat × Nat)) : Bool :=
  o.atoms.any (fun l => m.getLsbD l.lane && (match r with | some (a, n) => meets l.key (o.awidth / 8) a n | none => true))

/-- An acquire of an earlier access of the thread has not filled (R224). -/
def State.acqPending (s : State) (who : ThreadRef) (id : Nat) (lanes : W64) : Bool :=
  s.ops.any (fun o => o.acq && o.loadIn (s.earlierLanes who id lanes o) none)

/-- A release of an earlier access of the thread has not been accepted (R224). -/
def State.relPending (s : State) (who : ThreadRef) (id : Nat) (lanes : W64) : Bool :=
  s.ops.any (fun o => o.rel && o.storeIn (s.earlierLanes who id lanes o) none)

/-- A load that a release point of the thread follows has not filled, and the access follows that point (R213, R220). -/
def State.relLoads (s : State) (who : ThreadRef) (id : Nat) (lanes : W64) : Bool :=
  s.rels.any (fun r => decide (r.who = who ∧ r.since ≤ id ∧ r.lanes &&& lanes ≠ 0) &&
    s.ops.any (fun o => o.loadIn (s.earlierLanes who r.since (lanes &&& r.lanes) o) none))

/-- An earlier access of the thread is still in flight: loads, stores or atomics (R213, R217). -/
def State.olderPending (s : State) (who : ThreadRef) (id : Nat) (lanes : W64) (loads : Bool) : Bool :=
  s.ops.any (fun o =>
    let m := s.earlierLanes who id lanes o
    (loads && o.loadIn m none) || o.storeIn m none || o.atomIn m none)

/-- A write of the thread may be accepted at its port: the releases and acquires before it are performed, and no earlier access
of the thread to the same bytes is still in flight (R214, R220, R224). -/
def State.writeReady (s : State) (o : Op) (lanes : W64) (key n : Nat) : Bool :=
  !(s.relPending o.who o.id lanes) && !(s.relLoads o.who o.id lanes) && !(s.acqPending o.who o.id lanes)
    && !(s.ops.any (fun p =>
      let m := s.earlierLanes o.who o.id lanes p
      p.loadIn m (some (key, n)) || p.storeIn m (some (key, n)) || p.atomIn m (some (key, n))))
    && !(o.rel && s.olderPending o.who o.id lanes true)

/-- A scratchpad write at issue: the releases and acquires before it are performed (R220, R224). -/
def State.spWriteReady (s : State) (e : Env) : Bool :=
  !(s.acqPending e.who s.nextOp e.m0) && !(s.relPending e.who s.nextOp e.m0) && !(s.relLoads e.who s.nextOp e.m0)

/-- A scratchpad read at issue: the acquires before it have filled (R224). -/
def State.spReadReady (s : State) (e : Env) : Bool := !(s.acqPending e.who s.nextOp e.m0)

/-- No access of the threads `lanes` to the bytes is in flight (R220, R278). -/
def State.quietAt (s : State) (who : ThreadRef) (lanes : W64) (key n : Nat) : Bool :=
  s.ops.all (fun o =>
    let m := s.earlierLanes who s.nextOp lanes o
    !(o.loadIn m (some (key, n)) || o.storeIn m (some (key, n)) || o.atomIn m (some (key, n))))

/-- What the youngest earlier store of the thread to the bytes says of a read: its value, a wait, or nothing (R220). -/
inductive Fwd where
  | none
  | wait
  | val (v : Nat)
  deriving DecidableEq, Repr

/-- One store operation's word on a read of `n` bytes at `key`. -/
def Op.forward (o : Op) (m : W64) (key n : Nat) : Fwd :=
  match o.cells.reverse.find? (fun c => decide (c.lanes &&& m ≠ 0) && meets c.key c.n key n) with
  | some c =>
    if c.key ≤ key ∧ key + n ≤ c.key + c.n ∧ c.mask = ones c.n then .val (c.val / 256 ^ (key - c.key) % 256 ^ n) else .wait
  | Option.none => .none

/-- What a read of the thread at `key` obtains, and the state that records the read: its own pending store's bytes, those that memory
holds, or held when R220 lets the read return them; or it waits (R220, R224). Poison marks are those of now. -/
def State.threadRead (s : State) (o : Op) (lanes : W64) (key n : Nat) : Option (Nat × Bool × State) :=
  if s.acqPending o.who o.id lanes then none
  else if s.ops.any (fun p =>
      let m := s.earlierLanes o.who o.id lanes p
      p.loadIn m (some (key, n)) || p.atomIn m (some (key, n))) then none
  else
    match (s.ops.reverse.find? (fun p => p.storeIn (s.earlierLanes o.who o.id lanes p) (some (key, n)))) with
    | some p =>
      match p.forward (s.earlierLanes o.who o.id lanes p) key n with
      | .val v => some (v, false, s)
      | _ => none
    | none =>
      let t := s.readPoint o.who o.id lanes none key n
      some (s.rdAt key n t, s.bad key n, s.noteRead o.who (o.id + 1) lanes none key n t (if o.acq then some o.scope else none))

/-- Changes an operation in flight. -/
def State.modOp (s : State) (id : Nat) (f : Op → Op) : State :=
  { s with ops := s.ops.map (fun o => if o.id = id then f o else o) }

/-- An operation whose every part is done. -/
def Op.done (o : Op) : Bool := o.fills.isEmpty && o.sload.isNone && o.cells.isEmpty && o.atoms.isEmpty && o.eng.isNone

/-- Removes the operation if it is done. -/
def State.sweepOp (s : State) (id : Nat) : State := { s with ops := s.ops.filter (fun o => !(decide (o.id = id) && o.done)) }

/-- An operation in flight by its number. -/
def State.op? (s : State) (id : Nat) : Option Op := s.ops.find? (fun o => decide (o.id = id))

/-- The registers of a run from `vt` for `n` bytes (R69). -/
def runOf (vt n : Nat) : List Nat := (List.range ((n + 3) / 4)).map (fun j => vt + j)

/-- The lanes that `n` loaded bytes become in the run at `vt` (R175, R200): S = 0, F = 1, poisoned where `bad` says. -/
def loadLanes (vt n : Nat) (sx : Bool) (v : Nat) (bad : Nat → Bool) : List (Nat × Lane) :=
  (List.range ((n + 3) / 4)).map (fun j =>
    let x : W32 := if sx then BitVec.ofInt 32 (sextNat (8 * n) v) else BitVec.ofNat 32 (v / 2 ^ (32 * j))
    (vt + j, { Lane.full x false with poison := bad j }))

/-- Which registers of a run are poisoned whose bytes at `key` came from memory: each by its own granules (R200, R412). -/
def State.regBad (s : State) (key n : Nat) (bad : Bool) (j : Nat) : Bool := bad && s.bad (key + 4 * j) (min n 4)

/-- Lands values in a lane of the issuing warp. -/
def State.landLane (s : State) (o : Op) (lane : Nat) (vals : List (Nat × Lane)) : State :=
  s.modWarp o.crew o.warp (fun w => vals.foldl (fun w p => w.setLanes p.1 (1#64 <<< lane) (fun _ => p.2)) w)

/-- One lane of a producer fills (R117): PRODUCER_FILL. Nothing where that lane cannot fill yet. -/
def State.fillLane (s : State) (id lane : Nat) : State :=
  match s.op? id with
  | none => s
  | some o =>
    match o.fills.find? (fun f => decide (f.lane = lane)) with
    | none => s
    | some f =>
      let drop := fun (t : State) => (t.modOp id (fun o => { o with fills := o.fills.filter (fun f => decide (f.lane ≠ lane)) })).sweepOp id
      match f.src with
      | .unit => s
      | .ready vals => drop (s.landLane o lane vals)
      | .mem key n sx vt =>
        let host := decide (keyTgt key = 3 ∧ n = 16)
        match s.threadRead o (1#64 <<< lane) key (if host then 8 else n) with
        | none => s
        | some (v, bad, t) =>
          if host then t.modOp id (fun o => { o with fills := o.fills.map (fun f => if f.lane = lane then ⟨lane, .half v bad (key + 8) vt⟩ else f) })
          else drop (t.landLane o lane (loadLanes vt n sx v (s.regBad key n bad)))
      | .half lo lbad key vt =>
        match s.threadRead o (1#64 <<< lane) key 8 with
        | none => s
        | some (v, bad, t) => drop (t.landLane o lane (loadLanes vt 16 false (lo + 2 ^ 64 * v) (fun j => if j < 2 then lbad else s.regBad key 8 bad (j - 2))))

/-- A scalar load's result arrives (R125, R204): SCALAR_PRODUCER_FILL. -/
def State.fillScalar (s : State) (id : Nat) : State :=
  match s.op? id with
  | none => s
  | some o =>
    match o.sload with
    | none => s
    | some l =>
      let drop := fun (t : State) => (t.modOp id (fun o => { o with sload := none })).sweepOp id
      match l.val with
      | some v => drop (s.setS o.who l.sd v)
      | none =>
        match s.threadRead o o.lanes l.key 8 with
        | none => s
        | some (v, _, t) => drop (t.setS o.who l.sd (BitVec.ofNat 64 v))

/-- Applies one cell of an operation's store to memory by its bit mask (R194, R195); a byte-whole cell cleans poison. -/
def State.applyCell (o : Op) (s : State) (c : Cellw) : State :=
  let a := s.authorOf o.who o.id (o.id + 1) c.lanes (if o.rel then some o.scope else none) false none c.key c.n
  if c.mask = ones c.n then s.wrBy c.key c.n c.val a
  else { s.note c.key c.n a with mem := wrBytes s.mem c.key c.n (blend (s.rd c.key c.n) c.val c.mask) }

/-- Every byte of the granule `b` of `gran` bytes is written whole by one of the cells (R412). -/
def coversGran (gran : Nat) (cs : List Cellw) (b : Nat) : Bool :=
  (List.range gran).all (fun j => cs.any (fun c => decide (c.mask = ones c.n ∧ c.key ≤ gran * b + j ∧ gran * b + j < c.key + c.n)))

/-- The poison marks of granules of `gran` bytes after cells: those that they write whole become clean (R412). -/
def cleanAfter (gran : Nat) (cs : List Cellw) (m : Sparse 1) : Sparse 1 :=
  ((cs.map (fun c => c.key / gran)).filter (coversGran gran cs)).foldl (fun m b => m.set b 0) m

/-- Cells of an operation accepted as one unit; granules that they write whole become clean (R412). -/
def State.applyCells (s : State) (o : Op) (cs : List Cellw) : State :=
  let s1 := cs.foldl (State.applyCell o) s
  { s1 with memPoison := cleanAfter 32 cs s1.memPoison, wordPoison := cleanAfter 4 cs s1.wordPoison }

/-- Two 64-byte blocks of one memory have one home port (R192). -/
def samePort (a b : Nat) : Bool :=
  decide (a = b) || (decide (keyTgt (64 * a) = keyTgt (64 * b)) && decide (Config.homePort a = Config.homePort b))

/-- The cells of a store that one acceptance takes: all those at the home port of a block (R201), or, in host memory, the first of those
in the block, which is one PCIe request (R194). -/
def Op.cellsOf (o : Op) (block : Nat) : List Cellw :=
  if keyTgt (64 * block) = 3 then (o.cells.filter (fun c => decide (c.key / 64 = block))).take 1
  else o.cells.filter (fun c => samePort (c.key / 64) block)

/-- The cells that it leaves. -/
def Op.cellsLeft (o : Op) (block : Nat) : List Cellw :=
  if keyTgt (64 * block) = 3 then
    match o.cells.find? (fun c => decide (c.key / 64 = block)) with
    | some c => o.cells.erase c
    | none => o.cells
  else o.cells.filter (fun c => !(samePort (c.key / 64) block))

/-- The bytes of one store at the home port of a block are accepted as one unit, in lane order (R194, R201): STORE_ACCEPT.
Nothing while the release order holds any of them back. -/
def State.acceptStore (s : State) (id block : Nat) : State :=
  match s.op? id with
  | none => s
  | some o =>
    let here := o.cellsOf block
    if here.all (fun c => s.writeReady o c.lanes c.key c.n) then
      let s1 := s.asOne (s.applyCells o here)
      (s1.modOp id (fun o => { o with cells := o.cellsLeft block })).sweepOp id
    else s

/-- The lanes of an ATOM on one word, in ascending order: each sees the value before it (R206). -/
def atomFold (aop w : Nat) : Nat → List AtomLane → Nat × List (Nat × Nat)
  | v, [] => (v, [])
  | v, l :: r =>
    let q := atomFold aop w (atomNew aop w v l.cmp l.b) r
    (q.1, (l.lane, v) :: q.2)

/-- The fills of an ATOM whose old values are known. -/
def atomFills (vt n : Nat) (bad : Bool) (olds : List (Nat × Nat)) (fs : List Fill) : List Fill :=
  fs.map (fun f =>
    match olds.find? (fun p => decide (p.1 = f.lane)) with
    | some p => { f with src := .ready (loadLanes vt n false p.2 (fun _ => bad)) }
    | none => f)

/-- The lanes of an ATOM on a word have read it (R220, R221). -/
def State.notedReads (s : State) (o : Op) (here : List AtomLane) (n : Nat) : State :=
  here.foldl (fun t l => t.noteRead o.who (o.id + 1) (1#64 <<< l.lane) none l.key n s.hist.length none) s

/-- The author of what an ATOM's lanes write (R214, R221). -/
def State.atomAuthor (s : State) (o : Op) (here : List AtomLane) (addr n : Nat) : Option Author :=
  s.authorOf o.who o.id (o.id + 1) (here.foldl (fun m l => m ||| 1#64 <<< l.lane) 0) none true none addr n

/-- The atomic unit executes the lanes of an ATOM that name the word at `addr` (R206): ATOMIC_UNIT_EXECUTE. A poisoned
word stays as it is, and its lanes fill poisoned. -/
def State.execAtom (s : State) (id addr : Nat) : State :=
  match s.op? id with
  | none => s
  | some o =>
    let here := o.atoms.filter (fun l => decide (l.key = addr))
    let n := o.awidth / 8
    if here = [] ∨ here.any (fun l => !(s.writeReady o (1#64 <<< l.lane) l.key n)) then s
    else
      let bad := s.bad addr n
      let q := atomFold o.aop o.awidth (s.rd addr n) here
      let s1 := if bad then s else (s.notedReads o here n).wrBy addr n q.1 (s.atomAuthor o here addr n)
      s1.modOp id (fun o => { o with
        atoms := o.atoms.filter (fun l => decide (l.key ≠ addr))
        fills := atomFills o.vt n bad q.2 o.fills })

/-- PRODUCER_FILL. -/
def execProducerFill (op lane : Nat) (s : State) : Host.Outcome State Fault Refusal := .next (s.fillLane op lane)
/-- SCALAR_PRODUCER_FILL. -/
def execScalarProducerFill (op : Nat) (s : State) : Host.Outcome State Fault Refusal := .next (s.fillScalar op)
/-- STORE_ACCEPT. -/
def execStoreAccept (op block : Nat) (s : State) : Host.Outcome State Fault Refusal := .next (s.acceptStore op block)
/-- ATOMIC_UNIT_EXECUTE. -/
def execAtomicUnitExecute (op addr : Nat) (s : State) : Host.Outcome State Fault Refusal := .next (s.execAtom op addr)

end Sys2Proof.Machine
end

