-- ==== Sys2Proof/Machine/Scratch.lean ====
section
/-! DEFINITION. Scratchpad loads and stores, register images, line state and the tag table (chapter 07, R123). -/
namespace Sys2Proof.Machine

/-- The registers an M-format word names: its run, then its index (R69, R119). -/
def mRegs (rs : List Nat) (ix : Bool) (vi : BitVec 7) : List Nat := if ix then rs ++ [vi.toNat] else rs

/-- The index as a source over the active lanes. -/
def idxSrc (v : VEnv) (ix : Bool) (vi : BitVec 7) : List Src := if ix then [v.src vi false] else []

/-- A run as sources over the active lanes, in ascending order (R119). -/
def runSrc (v : VEnv) (rs : List Nat) : List Src := rs.map (fun r => ⟨r, v.act, false⟩)

/-- The 64-bit sum of an active lane's address (R166, R199). -/
def laneSum (v : VEnv) (base : W64) (ix : Bool) (vi : BitVec 7) (p : Option Pfx) (l : Option (BitVec 24)) (i : Nat) : Nat :=
  addrSum base (laneIdx v.w ix vi.toNat i) (mOff p l)

/-- word(x) of R176: a carried finite nonzero value finally rounded, any other the data bits. -/
def wordOf (mode : Nat) (l : Lane) : W32 :=
  if l.s && (match f32 l.data with | .fin _ m _ => decide (m ≠ 0) | _ => false) then w32 (finalRound (f32 l.data) true 0 mode)
  else l.data

/-- A lane's run as the bytes a store sends (R176, R201). -/
def storeVal (v : VEnv) (rs : List Nat) (i : Nat) : Nat :=
  rs.foldr (fun r acc => (wordOf v.mode (v.w.lane r i)).toNat + 2 ^ 32 * acc) 0

/-- What a lane of a scratchpad load receives (R175). -/
def spLanes (k : Crew) (vt n : Nat) (sx : Bool) (a : Nat) : List (Nat × Lane) :=
  loadLanes vt n sx (k.spRd a n) (fun j => k.spBad (a + 4 * j) (min n 4))

/-- What lane `l` of the issuing threads reads from the `n` scratchpad bytes at `a` (R175, R220). -/
def spLane (s : State) (e : Env) (vt n : Nat) (sx : Bool) (l a : Nat) : List (Nat × Lane) :=
  spLanes (s.spSeen e (1#64 <<< l) e.k a n) vt n sx a

/-- A load in flight: its run pending, its lanes to fill (R117). -/
def State.startLoad (s : State) (e : Env) (v : VEnv) (vt n : Nat) (acq : Option Nat) (fills : List Fill) : State :=
  let s1 := s.modWarp e.ci e.wi (fun w => (w.setPending (runOf vt n) v.act).zeroRun v (runOf vt n))
  if v.act = 0 then s1
  else s1.addOp { e.newOp s v.act with isLoad := true, acq := acq.isSome, scope := acq.getD 0, fills := fills, vt := vt }

/-- SPLD of `n` bytes a lane (R175). -/
def spld (i : Instr) (s : State) (o : OpMSwz) (n : Nat) : Host.Outcome State Fault Refusal :=
  run i s (fun e => do
    let v ← venvW s e
    let rs := runOf o.vt.toNat n
    regsOk e.k (mRegs rs o.ix o.vi)
    let base ← mChecks s e v o.sb (idxSrc v o.ix o.vi) []
    dstFree v.w rs (v.act ||| v.zl)
    let a := fun l => spAddr e.k.z (laneSum v base o.ix o.vi o.pfx o.lim l) o.swz.toNat n
    waitUnless (s.spReadReady e && (lanesOf v.act).all (fun l => e.k.linesFull (a l) n))
    let q := s.agreed e ((lanesOf v.act).map (fun l => (1#64 <<< l, a l, n)))
    let s1 := (lanesOf v.act).foldl (fun t l => t.spRead q e (1#64 <<< l) (a l) n none) s
    pure (s1.startLoad e v o.vt.toNat n none ((lanesOf v.act).map (fun l => ⟨l, .ready (spLane q e o.vt.toNat n false l (a l))⟩))))

/-- SPST of `n` bytes a lane; a later lane overwrites (R176). -/
def spst (i : Instr) (s : State) (o : OpMSwz) (n : Nat) : Host.Outcome State Fault Refusal :=
  run i s (fun e => do
    let v ← venvW s e
    let rs := runOf o.vt.toNat n
    regsOk e.k (mRegs rs o.ix o.vi)
    let base ← mChecks s e v o.sb (idxSrc v o.ix o.vi) (runSrc v rs)
    poisonCheck v.w 1 (runSrc v rs)
    waitUnless (s.spWriteReady e)
    pure (s.asOne ((lanesOf v.act).foldl (fun t l =>
      t.spPut e (1#64 <<< l) none false (spAddr e.k.z (laneSum v base o.ix o.vi o.pfx o.lim l) o.swz.toNat n) n (storeVal v rs l)) s)))

/-- One byte of an element store: its offset from the byte base, the bits written, and their values. -/
structure ElemByte where
  off : Int
  mask : Nat
  val : Nat
  deriving DecidableEq, Repr

/-- The bytes an element of `w` bits (4 or 6) at index `e` touches (R177): `w / 2 - 1` bytes hold a group of elements;
floors are toward minus infinity. -/
def elemBytes (w : Nat) (e : Int) (x : Nat) : List ElemByte :=
  let per : Nat := if w = 4 then 2 else 4
  let bytes : Nat := if w = 4 then 1 else 3
  let j := (e % (per : Int)).toNat
  let m := (2 ^ w - 1) * 2 ^ (w * j)
  let v := (x % 2 ^ w) * 2 ^ (w * j)
  ((List.range bytes).map (fun (t : Nat) => (⟨e / (per : Int) * (bytes : Int) + (t : Int), m / 256 ^ t % 256, v / 256 ^ t % 256⟩ : ElemByte))).filter
    (fun b => decide (b.mask ≠ 0))

/-- The element bytes of an active lane of an element store (R177, R202). -/
def laneElems (v : VEnv) (w : Nat) (vt vi : BitVec 7) (ix : Bool) (i : Nat) : List ElemByte :=
  elemBytes w (laneIdx v.w ix vi.toNat i) (wordOf v.mode (v.w.lane vt.toNat i)).toNat

/-- SPST.N4 and SPST.N6 (R177). -/
def spstN (i : Instr) (s : State) (o : OpMSwz) (w : Nat) : Host.Outcome State Fault Refusal :=
  run i s (fun e => do
    let v ← venvW s e
    regsOk e.k (mRegs [o.vt.toNat] o.ix o.vi)
    let base ← mChecks s e v o.sb (idxSrc v o.ix o.vi) (runSrc v [o.vt.toNat])
    poisonCheck v.w 1 (runSrc v [o.vt.toNat])
    waitUnless (s.spWriteReady e)
    pure (s.asOne (((lanesOf v.act).flatMap (fun l => (laneElems v w o.vt o.vi o.ix l).map (fun b => (l, b)))).foldl (fun t b =>
      t.spPutBits e (1#64 <<< b.1) (spAddr e.k.z (addrSum base b.2.off (mOff o.pfx o.lim)) o.swz.toNat 1) b.2.mask b.2.val) s)))

/-- SPLD.B8: 1 byte a lane (R174, R175). -/
def execSpldB8 (o : OpMSwz) (s : State) : Host.Outcome State Fault Refusal :=
  spld (.spldB8 o) s o 1

/-- SPST.B8 (R174, R176). -/
def execSpstB8 (o : OpMSwz) (s : State) : Host.Outcome State Fault Refusal :=
  spst (.spstB8 o) s o 1

/-- SPLD.B16: 2 bytes a lane (R174, R175). -/
def execSpldB16 (o : OpMSwz) (s : State) : Host.Outcome State Fault Refusal :=
  spld (.spldB16 o) s o 2

/-- SPST.B16 (R174, R176). -/
def execSpstB16 (o : OpMSwz) (s : State) : Host.Outcome State Fault Refusal :=
  spst (.spstB16 o) s o 2

/-- SPLD.B32: 4 bytes a lane (R174, R175). -/
def execSpldB32 (o : OpMSwz) (s : State) : Host.Outcome State Fault Refusal :=
  spld (.spldB32 o) s o 4

/-- SPST.B32 (R174, R176). -/
def execSpstB32 (o : OpMSwz) (s : State) : Host.Outcome State Fault Refusal :=
  spst (.spstB32 o) s o 4

/-- SPLD.B64: 8 bytes a lane (R174, R175). -/
def execSpldB64 (o : OpMSwz) (s : State) : Host.Outcome State Fault Refusal :=
  spld (.spldB64 o) s o 8

/-- SPST.B64 (R174, R176). -/
def execSpstB64 (o : OpMSwz) (s : State) : Host.Outcome State Fault Refusal :=
  spst (.spstB64 o) s o 8

/-- SPLD.B128: 16 bytes a lane (R174, R175). -/
def execSpldB128 (o : OpMSwz) (s : State) : Host.Outcome State Fault Refusal :=
  spld (.spldB128 o) s o 16

/-- SPST.B128 (R174, R176). -/
def execSpstB128 (o : OpMSwz) (s : State) : Host.Outcome State Fault Refusal :=
  spst (.spstB128 o) s o 16

/-- SPST.N4: one 4-bit element a lane (R177). -/
def execSpstN4 (o : OpMSwz) (s : State) : Host.Outcome State Fault Refusal :=
  spstN (.spstN4 o) s o 4

/-- SPST.N6: one 6-bit element a lane (R177). -/
def execSpstN6 (o : OpMSwz) (s : State) : Host.Outcome State Fault Refusal :=
  spstN (.spstN6 o) s o 6

/-- The image address of STIMG and LDIMG (R123). -/
def imgBase (base : W64) (l : Option (BitVec 24)) : Nat := alignDown (addrSum base 0 (mOff none l)) 16

/-- Byte `t` of an image whose 16-byte parts are placed by the wrap-and-fold rule (R123, R166). -/
def imgAddr (z a t : Nat) : Nat := spAddr z (a + 16 * (t / 16)) 0 16 + t % 16

/-- The 16-byte parts of an image (R122, R123). -/
def imgParts (z a : Nat) : List Nat := (List.range 17).map (fun j => imgAddr z a (16 * j))

/-- Bit `i` of one of the two masks of an image, at byte 256 or 264 (R122). -/
def imgBit (k : Crew) (a at0 i : Nat) : Bool := decide (k.spRd (imgAddr k.z a (at0 + i / 8)) 1 / 2 ^ (i % 8) % 2 = 1)

/-- Writes the bits of the active lanes in a mask of an image; a word all of whose lanes are active is written whole. -/
def imgMask (k : Crew) (a at0 : Nat) (act : W64) (p : Nat → Bool) : Crew :=
  let k1 := (List.range 8).foldl (fun k t =>
    let m := ((List.range 8).map (fun j => if act.getLsbD (8 * t + j) then 2 ^ j else 0)).sum
    let v := ((List.range 8).map (fun j => if p (8 * t + j) then 2 ^ j else 0)).sum
    k.spBits (imgAddr k.z a (at0 + t)) m v) k
  (List.range 2).foldl (fun k h =>
    if (List.range 32).all (fun j => act.getLsbD (32 * h + j)) then
      { k with spPoison := k.spPoison.set (imgAddr k.z a (at0 + 4 * h) / 4) 0 } else k) k1

/-- STIMG: the active lanes of a register and their S and F into an image (R123). -/
def execStimg (o : OpMImg) (s : State) : Host.Outcome State Fault Refusal :=
  run (.stimg o) s (fun e => do
    let v ← venvW s e
    let r := o.vt.toNat
    regsOk e.k [r]
    let base ← rdSw s e o.sb.toNat
    pendCheck v.w (runSrc v [r])
    maskOk v
    sOk s e o.sb.toNat
    poisonCheck v.w 1 (runSrc v [r])
    waitUnless (s.spWriteReady e)
    let a := imgBase base o.lim
    let s1 := s.asOne ((imgParts e.k.z a).foldl (fun t p => t.spNote e v.act none false p 16) s)
    pure (s1.modCrew e.ci (fun k =>
      let k1 := (lanesOf v.act).foldl (fun k i =>
        let l := v.w.lane r i
        k.spWr (imgAddr k.z a (4 * i)) 4 (if l.f then l.data.toNat else 0)) k
      imgMask (imgMask k1 a 256 v.act (fun i => (v.w.lane r i).f && (v.w.lane r i).s)) a 264 v.act (fun i => (v.w.lane r i).f))))

/-- What lane `i` of LDIMG receives: its image, or vacancy where its F bit is 0 (R123). A lane whose data or mask words are poisoned
becomes full and poisoned whatever its F bit reads (R120, R413; the model's choice: log entry 92). -/
def imgLane (k : Crew) (a i : Nat) : Lane :=
  let bad := k.spBad (imgAddr k.z a (4 * i)) 4 || k.spBad (imgAddr k.z a (256 + i / 32 * 4)) 4 || k.spBad (imgAddr k.z a (264 + i / 32 * 4)) 4
  if imgBit k a 264 i || bad then
    { Lane.full (BitVec.ofNat 32 (k.spRd (imgAddr k.z a (4 * i)) 4)) (imgBit k a 256 i) with poison := bad }
  else ⟨0, false, false, false, false⟩

/-- LDIMG: the active lanes of an image into a register, S and vacancy included (R123). -/
def execLdimg (o : OpMImg) (s : State) : Host.Outcome State Fault Refusal :=
  run (.ldimg o) s (fun e => do
    let v ← venvW s e
    let r := o.vt.toNat
    regsOk e.k [r]
    maskOk v
    let base ← rdS s e o.sb.toNat
    dstFree v.w [r] v.act
    let a := imgBase base o.lim
    let parts := (lanesOf v.act).flatMap (fun i => [4 * i, 256 + i / 8, 264 + i / 8])
    waitUnless (s.spReadReady e && parts.all (fun t => e.k.linesFull (imgAddr e.k.z a t) 1))
    let q := s.agreed e ((imgParts e.k.z a).map (fun p => (v.act, p, 16)))
    let k := (imgParts e.k.z a).foldl (fun k p => q.spSeen e v.act k p 16) e.k
    let s1 := (imgParts e.k.z a).foldl (fun t p => t.spRead q e v.act p 16 none) s
    pure (s1.startLoad e v r 4 none ((lanesOf v.act).map (fun i => ⟨i, .ready [(r, imgLane k a i)]⟩))))

/-- LNCLR and LNSET: `f` on each line of the run (R173). -/
def lineOp (i : Instr) (s : State) (o : OpX2) (f : Crew → Nat → Crew) : Host.Outcome State Fault Refusal :=
  run i s (fun e => do
    let a ← rdS s e o.a.toNat
    let n ← rdS s e o.b.toNat
    pure (s.modCrew e.ci (fun k =>
      (List.range (min n.toNat k.image.scrlines)).foldl (fun k j => f k (spAddr k.z (a.toNat + 128 * j) 0 1 / 128)) k)))

/-- LNCLR: the lines become empty (R170, R173). -/
def execLnclr (o : OpX2) (s : State) : Host.Outcome State Fault Refusal :=
  lineOp (.lnclr o) s o (fun k l => k.setLf l false)

/-- LNSET: the lines without pending writers become full (R170, R173). -/
def execLnset (o : OpX2) (s : State) : Host.Outcome State Fault Refusal :=
  lineOp (.lnset o) s o (fun k l => k.setLf l true)

/-- The slots of a crew's tag partition (R178). -/
def Crew.tagSlots (k : Crew) : Nat := 8 * k.image.warps

/-- POISON where the partition holds a poisoned entry that the instruction reads (R413, log entry 20). -/
def tagCheck (k : Crew) (act : W64) : Exe Unit :=
  need (decide (act = 0) || (List.range k.tagSlots).all (fun t => decide (k.tagPoison.get t = 0))) (trapOf 11 (poisonInfo 5 0 0))

/-- One lane of LOOKUP over the valid slots, least recent first: the result and the new order (R180). -/
def tagLookup (n : Nat) (tags : List (Nat × W32)) (key : W32) : W32 × List (Nat × W32) :=
  match tags.find? (fun t => decide (t.2 = key)) with
  | some t => (BitVec.ofNat 32 t.1, tags.filter (fun x => decide (x.1 ≠ t.1)) ++ [t])
  | none =>
    match (List.range n).find? (fun i => !(tags.any (fun t => decide (t.1 = i)))) with
    | some i => (BitVec.ofNat 32 (2 ^ 31 + i), tags)
    | none => (BitVec.ofNat 32 (3 * 2 ^ 30 + (match tags.head? with | some t => t.1 | none => 0)), tags)

/-- The lanes of LOOKUP in ascending order. -/
def tagLookups (n : Nat) (key : Nat → W32) : List Nat → List (Nat × W32) → List (Nat × W32) × List (Nat × W32)
  | [], tags => ([], tags)
  | i :: r, tags =>
    let q := tagLookup n tags (key i)
    let z := tagLookups n key r q.2
    ((i, q.1) :: z.1, z.2)

/-- LOOKUP: hit slots, or miss hints (R180). -/
def execLookup (o : OpX2) (s : State) : Host.Outcome State Fault Refusal :=
  run (.lookup o) s (fun e => do
    let v ← venvW s e
    regsOk e.k [o.a.toNat, o.b.toNat]
    checkV v 0 [⟨o.b.toNat, v.act, false⟩]
    tagCheck e.k v.act
    dstFree v.w [o.a.toNat] v.act
    let q := tagLookups e.k.tagSlots (fun i => (v.w.lane o.b.toNat i).data) (lanesOf v.act) e.k.tags
    let res := fun l => match q.1.find? (fun p => decide (p.1 = l)) with | some p => p.2 | none => 0
    pure (s.modCrew e.ci (fun k => ({ k with tags := q.2 } : Crew).modWarp e.wi (fun w => w.out v o.a.toNat (fun l => ires (res l))))))

/-- TAGSET: the keys into their slots, every other slot with the key invalid (R180). -/
def execTagset (o : OpX2) (s : State) : Host.Outcome State Fault Refusal :=
  run (.tagset o) s (fun e => do
    let v ← venvW s e
    regsOk e.k [o.a.toNat, o.b.toNat]
    checkV v 0 [⟨o.a.toNat, v.act, false⟩, ⟨o.b.toNat, v.act, false⟩]
    tagCheck e.k v.act
    pure (s.modCrew e.ci (fun k => (lanesOf v.act).foldl (fun k i =>
      let t := (v.w.lane o.b.toNat i).data.toNat
      let key := (v.w.lane o.a.toNat i).data
      if k.tagSlots ≤ t then k
      else { k with tags := k.tags.filter (fun x => decide (x.1 ≠ t ∧ x.2 ≠ key)) ++ [(t, key)] }) k)))

/-- TAGCLR: the slots become invalid (R180); a cleared entry is written whole (R412). -/
def execTagclr (o : OpX1) (s : State) : Host.Outcome State Fault Refusal :=
  run (.tagclr o) s (fun e => do
    let v ← venvW s e
    regsOk e.k [o.a.toNat]
    checkV v 0 [⟨o.a.toNat, v.act, false⟩]
    pure (s.modCrew e.ci (fun k => (lanesOf v.act).foldl (fun k i =>
      let t := (v.w.lane o.a.toNat i).data.toNat
      if k.tagSlots ≤ t then k
      else { k with tags := k.tags.filter (fun x => decide (x.1 ≠ t)), tagPoison := k.tagPoison.set t 0 }) k)))

end Sys2Proof.Machine
end

