-- ==== Sys2Proof/Machine/Global.lean ====
section
/-! DEFINITION. Global loads and stores, atomics, prefetch, fences and phases (R198 to R209, R224). -/
namespace Sys2Proof.Machine

/-- The places of the lanes in ascending order; the lowest lane that faults traps (R72). -/
def resolve (s : State) (e : Env) (sum : Nat → Nat) (n kind : Nat) : List Nat → Exe (List (Nat × Spot))
  | [] => .ok []
  | i :: r =>
    match placeOf e.k (sum i) n with
    | .spad off => do
      let rest ← resolve s e sum n kind r
      pure ((i, .spad off) :: rest)
    | .mem va => do
      let key ← s.xlateOr e.k.ctxid va n i kind
      let rest ← resolve s e sum n kind r
      pure ((i, .mem key) :: rest)

/-- The scratchpad lines that the places name are full (R171). -/
def spotsFull (k : Crew) (n : Nat) (ps : List (Nat × Spot)) : Bool :=
  ps.all (fun p => match p.2 with | .spad off => k.linesFull off n | .mem _ => true)

/-- The places hold a scratchpad access. -/
def anySpad (ps : List (Nat × Spot)) : Bool := ps.any (fun p => match p.2 with | .spad _ => true | .mem _ => false)

/-- A global load of `n` bytes a lane (R200, R203), an acquire of the scope `acq` (R212). -/
def gld (i : Instr) (s : State) (vt : BitVec 7) (sb : BitVec 6) (vi : BitVec 7) (ix : Bool) (p : Option Pfx) (l : Option (BitVec 24))
    (n : Nat) (sx : Bool) (acq : Option Nat) : Host.Outcome State Fault Refusal :=
  run i s (fun e => do
    let v ← venvW s e
    let rs := runOf vt.toNat n
    regsOk e.k (mRegs rs ix vi)
    let base ← mChecks s e v sb (idxSrc v ix vi) []
    let ps ← resolve s e (laneSum v base ix vi p l) n kRead (lanesOf v.act)
    dstFree v.w rs (v.act ||| v.zl)
    waitUnless (spotsFull e.k n ps && (!(anySpad ps) || s.spReadReady e))
    let q := s.agreed e (ps.filterMap (fun q => match q.2 with | .spad off => some (1#64 <<< q.1, off, n) | .mem _ => none))
    let s1 := ps.foldl (fun t p => match p.2 with | .spad off => t.spRead q e (1#64 <<< p.1) off n acq | .mem _ => t) s
    pure (s1.startLoad e v vt.toNat n acq (ps.map (fun p =>
      ⟨p.1, match p.2 with
        | .spad off => .ready (spLane q e vt.toNat n sx p.1 off)
        | .mem key => .mem key n sx vt.toNat⟩))))

/-- The scratchpad share of a store, in lane order (R182); `lanes` are the threads of a lane. -/
def State.spotStores (s : State) (e : Env) (rel : Option Nat) (n : Nat) (ps : List (Nat × Spot)) (lanes : Nat → W64) (val : Nat → Nat) : State :=
  s.asOne (ps.foldl (fun t q => match q.2 with | .spad off => t.spPut e (lanes q.1) rel false off n (val q.1) | .mem _ => t) s)

/-- The memory share of a store, in lane order (R201): a 16-byte host access is two requests (R194). -/
def memCells (n : Nat) (ps : List (Nat × Spot)) (lanes : Nat → W64) (val : Nat → Nat) : List Cellw :=
  ps.flatMap (fun q =>
    match q.2 with
    | .spad _ => []
    | .mem key =>
      if keyTgt key = 3 ∧ n = 16 then
        [⟨lanes q.1, key, 8, val q.1 % 2 ^ 64, ones 8⟩, ⟨lanes q.1, key + 8, 8, val q.1 / 2 ^ 64 % 2 ^ 64, ones 8⟩]
      else [⟨lanes q.1, key, n, val q.1 % 256 ^ n, ones n⟩])

/-- A global store of `n` bytes a lane (R201, R203), a release of the scope `rel` (R212); a release to the aperture waits for what it
orders. Translation faults come before the POISON of its data (R63; the pseudocode of R201 has the other order: log entry 91). -/
def gst (i : Instr) (s : State) (vt : BitVec 7) (sb : BitVec 6) (vi : BitVec 7) (ix : Bool) (p : Option Pfx) (l : Option (BitVec 24))
    (n : Nat) (rel : Option Nat) : Host.Outcome State Fault Refusal :=
  run i s (fun e => do
    let v ← venvW s e
    let rs := runOf vt.toNat n
    regsOk e.k (mRegs rs ix vi)
    let base ← mChecks s e v sb (idxSrc v ix vi) (runSrc v rs)
    let ps ← resolve s e (laneSum v base ix vi p l) n kWrite (lanesOf v.act)
    poisonCheck v.w 1 (runSrc v rs)
    waitUnless (!(anySpad ps) || (s.spWriteReady e && !(rel.isSome && s.olderPending e.who s.nextOp e.m0 true)))
    let s1 := s.spotStores e rel n ps (fun l => 1#64 <<< l) (storeVal v rs)
    let cells := memCells n ps (fun l => 1#64 <<< l) (storeVal v rs)
    pure (if cells = [] then s1 else s1.addOp { e.newOp s v.act with rel := rel.isSome, scope := rel.getD 0, cells := cells }))

/-- LD_B8: 1 byte a lane, zero-extended (R198, R200). -/
def execLdB8 (o : OpM) (s : State) : Host.Outcome State Fault Refusal :=
  gld (.ldB8 o) s o.vt o.sb o.vi o.ix o.pfx o.lim 1 false none

/-- LD_S8: 1 byte a lane, sign-extended (R198, R200). -/
def execLdS8 (o : OpM) (s : State) : Host.Outcome State Fault Refusal :=
  gld (.ldS8 o) s o.vt o.sb o.vi o.ix o.pfx o.lim 1 true none

/-- LD_B16: 2 bytes a lane, zero-extended (R198, R200). -/
def execLdB16 (o : OpM) (s : State) : Host.Outcome State Fault Refusal :=
  gld (.ldB16 o) s o.vt o.sb o.vi o.ix o.pfx o.lim 2 false none

/-- LD_S16: 2 bytes a lane, sign-extended (R198, R200). -/
def execLdS16 (o : OpM) (s : State) : Host.Outcome State Fault Refusal :=
  gld (.ldS16 o) s o.vt o.sb o.vi o.ix o.pfx o.lim 2 true none

/-- LD_B32: 4 bytes a lane, zero-extended (R198, R200). -/
def execLdB32 (o : OpM) (s : State) : Host.Outcome State Fault Refusal :=
  gld (.ldB32 o) s o.vt o.sb o.vi o.ix o.pfx o.lim 4 false none

/-- LD_B64: 8 bytes a lane, zero-extended (R198, R200). -/
def execLdB64 (o : OpM) (s : State) : Host.Outcome State Fault Refusal :=
  gld (.ldB64 o) s o.vt o.sb o.vi o.ix o.pfx o.lim 8 false none

/-- LD_B128: 16 bytes a lane, zero-extended (R198, R200). -/
def execLdB128 (o : OpM) (s : State) : Host.Outcome State Fault Refusal :=
  gld (.ldB128 o) s o.vt o.sb o.vi o.ix o.pfx o.lim 16 false none

/-- ST_B8 (R198, R201). -/
def execStB8 (o : OpM) (s : State) : Host.Outcome State Fault Refusal :=
  gst (.stB8 o) s o.vt o.sb o.vi o.ix o.pfx o.lim 1 none

/-- ST_B16 (R198, R201). -/
def execStB16 (o : OpM) (s : State) : Host.Outcome State Fault Refusal :=
  gst (.stB16 o) s o.vt o.sb o.vi o.ix o.pfx o.lim 2 none

/-- ST_B32 (R198, R201). -/
def execStB32 (o : OpM) (s : State) : Host.Outcome State Fault Refusal :=
  gst (.stB32 o) s o.vt o.sb o.vi o.ix o.pfx o.lim 4 none

/-- ST_B64 (R198, R201). -/
def execStB64 (o : OpM) (s : State) : Host.Outcome State Fault Refusal :=
  gst (.stB64 o) s o.vt o.sb o.vi o.ix o.pfx o.lim 8 none

/-- ST_B128 (R198, R201). -/
def execStB128 (o : OpM) (s : State) : Host.Outcome State Fault Refusal :=
  gst (.stB128 o) s o.vt o.sb o.vi o.ix o.pfx o.lim 16 none

/-- LD.ACQ.B32: a load whose lanes acquire (R203, R213). -/
def execLdAcqB32 (o : OpMSc) (s : State) : Host.Outcome State Fault Refusal :=
  gld (.ldAcqB32 o) s o.vt o.sb o.vi o.ix o.pfx o.lim 4 false (some o.sc.toNat)

/-- ST.REL.B32: a store whose lanes release (R203, R213). -/
def execStRelB32 (o : OpMSc) (s : State) : Host.Outcome State Fault Refusal :=
  gst (.stRelB32 o) s o.vt o.sb o.vi o.ix o.pfx o.lim 4 (some o.sc.toNat)

/-- LD.ACQ.B64: a load whose lanes acquire (R203, R213). -/
def execLdAcqB64 (o : OpMSc) (s : State) : Host.Outcome State Fault Refusal :=
  gld (.ldAcqB64 o) s o.vt o.sb o.vi o.ix o.pfx o.lim 8 false (some o.sc.toNat)

/-- ST.REL.B64: a store whose lanes release (R203, R213). -/
def execStRelB64 (o : OpMSc) (s : State) : Host.Outcome State Fault Refusal :=
  gst (.stRelB64 o) s o.vt o.sb o.vi o.ix o.pfx o.lim 8 (some o.sc.toNat)

/-- Every byte of the active lanes' elements, with its lane. -/
def allElems (v : VEnv) (w : Nat) (vt vi : BitVec 7) (ix : Bool) : List (Nat × ElemByte) :=
  (lanesOf v.act).flatMap (fun l => (laneElems v w vt vi ix l).map (fun b => (l, b)))

/-- The key of an element byte's address: host memory takes no partial byte (R195), which is looked at after its window (R188; the order
is the model's choice: log entry 91). -/
def elemKey (s : State) (e : Env) (va mask : Nat) : Except XFault Nat :=
  match s.xlate e.k.ctxid va 1 kWrite with
  | .error f => .error f
  | .ok key =>
    if keyTgt key = 3 ∧ mask ≠ 255 then .error ⟨3, match s.leafFor e.k.ctxid va with | .ok q => q.level | .error _ => 0⟩ else .ok key

/-- The fault that a lane's element bytes raise, with its address: PAGE_FAULT before PERMISSION (R72). -/
def laneFault (s : State) (e : Env) (sum : ElemByte → Nat) (xs : List (Nat × ElemByte)) (i : Nat) : Option (XFault × Nat) :=
  let fs := (xs.filter (fun q => decide (q.1 = i))).filterMap (fun q =>
    match placeOf e.k (sum q.2) 1 with
    | .spad _ => none
    | .mem va => match elemKey s e va q.2.mask with | .error f => some (f, va) | .ok _ => none)
  match fs.find? (fun f => !(permissionFault f.1)) with
  | some f => some f
  | none => fs.head?

/-- Places of element bytes, in lane order; the lowest lane that faults traps (R72, R202). -/
def resolveElems (s : State) (e : Env) (sum : ElemByte → Nat) (xs : List (Nat × ElemByte)) : Exe (List (Nat × ElemByte × Spot)) :=
  match xs.findSome? (fun q => (laneFault s e sum xs q.1).map (fun f => (q.1, f))) with
  | some (i, f, va) => .error (xlateTrap f va i kWrite)
  | none => .ok (xs.filterMap (fun q =>
      match placeOf e.k (sum q.2) 1 with
      | .spad off => some (q.1, q.2, .spad off)
      | .mem va => match elemKey s e va q.2.mask with | .ok key => some (q.1, q.2, .mem key) | .error _ => none))

/-- ST.N4 and ST.N6 (R202). -/
def gstN (i : Instr) (s : State) (o : OpM) (w : Nat) : Host.Outcome State Fault Refusal :=
  run i s (fun e => do
    let v ← venvW s e
    regsOk e.k (mRegs [o.vt.toNat] o.ix o.vi)
    let base ← mChecks s e v o.sb (idxSrc v o.ix o.vi) (runSrc v [o.vt.toNat])
    let ps ← resolveElems s e (fun b => addrSum base b.off (mOff o.pfx o.lim)) (allElems v w o.vt o.vi o.ix)
    poisonCheck v.w 1 (runSrc v [o.vt.toNat])
    waitUnless (s.spWriteReady e || ps.all (fun q => match q.2.2 with | .spad _ => false | .mem _ => true))
    let s1 := s.asOne (ps.foldl (fun t q =>
      match q.2.2 with | .spad off => t.spPutBits e (1#64 <<< q.1) off q.2.1.mask q.2.1.val | .mem _ => t) s)
    let cells := ps.filterMap (fun q => match q.2.2 with | .spad _ => none | .mem key => some (⟨1#64 <<< q.1, key, 1, q.2.1.val, q.2.1.mask⟩ : Cellw))
    pure (if cells = [] then s1 else s1.addOp { e.newOp s v.act with cells := cells }))

/-- ST.N4: one 4-bit element a lane (R202). -/
def execStN4 (o : OpM) (s : State) : Host.Outcome State Fault Refusal :=
  gstN (.stN4 o) s o 4

/-- ST.N6: one 6-bit element a lane (R202). -/
def execStN6 (o : OpM) (s : State) : Host.Outcome State Fault Refusal :=
  gstN (.stN6 o) s o 6

/-- POISON of a scratchpad word that SLD or SHLD reads: KIND 3 and its offset (R413). -/
def spPoison (off : Nat) : Stop := .trap ⟨11, poisonInfo 3 0 0, none, BitVec.ofNat 64 off⟩

/-- POISON of memory that SLD or SHLD reads: KIND 4 and its address (R413). -/
def memPoisonTrap (va : Nat) : Stop := .trap ⟨11, poisonInfo 4 0 0, none, BitVec.ofNat 64 va⟩

/-- The address of SLD and SST (R199). -/
def scalarSum (base : W64) (l : Option (BitVec 24)) : Nat := addrSum base 0 (mOff none l)

/-- SLD: 8 bytes into a scalar register, later (R125, R204); poisoned data traps. -/
def execSld (o : OpMSc1) (s : State) : Host.Outcome State Fault Refusal :=
  run (.sld o) s (fun e => do
    let base ← rdS s e o.sb.toNat
    freeS s e o.sd.toNat
    let ps ← resolve s e (fun _ => scalarSum base o.lim) 8 kRead [0]
    waitUnless (spotsFull e.k 8 ps && (!(anySpad ps) || s.spReadReady e))
    let op : SLoad := match ps with
      | (_, .spad off) :: _ => ⟨o.sd.toNat, 0, some (BitVec.ofNat 64 ((s.spSeen e e.m0 e.k off 8).spRd off 8))⟩
      | (_, .mem key) :: _ => ⟨o.sd.toNat, key, none⟩
      | [] => ⟨o.sd.toNat, 0, some 0⟩
    match ps with
    | (_, .spad off) :: _ => need (!(e.k.spBad off 8)) (spPoison off)
    | (_, .mem key) :: _ => need (!(s.bad key 8)) (memPoisonTrap (alignDown (scalarSum base o.lim) 8))
    | [] => pure ()
    let s1 := match ps with
      | (_, .spad off) :: _ => s.spRead s e e.m0 off 8 none
      | _ => s
    pure ((s1.pendS e.who o.sd.toNat).addOp { e.newOp s e.m0 with isLoad := true, sload := some op }))

/-- SST: a scalar register as 8 bytes (R204). -/
def execSst (o : OpMSc1) (s : State) : Host.Outcome State Fault Refusal :=
  run (.sst o) s (fun e => do
    let base ← rdS s e o.sb.toNat
    let x ← rdS s e o.sd.toNat
    let ps ← resolve s e (fun _ => scalarSum base o.lim) 8 kWrite [0]
    waitUnless (!(anySpad ps) || s.spWriteReady e)
    let s1 := s.spotStores e none 8 ps (fun _ => e.m0) (fun _ => x.toNat)
    let cells := memCells 8 ps (fun _ => e.m0) (fun _ => x.toNat)
    pure (if cells = [] then s1 else s1.addOp { e.newOp s e.m0 with cells := cells }))

/-- An operand word of an ATOM: the data bits, or word(x) where the operation has carried operands (R206). -/
def atomOperand (v : VEnv) (aop r i : Nat) : Nat :=
  if aop < 2 ∨ (12 ≤ aop ∧ aop < 15) then (wordOf v.mode (v.w.lane r i)).toNat else (v.w.lane r i).data.toNat

/-- `n` bytes of operands from register `r` on. -/
def atomVal (v : VEnv) (aop r n i : Nat) : Nat :=
  (List.range (n / 4)).foldr (fun j acc => atomOperand v aop (r + j) i + 2 ^ 32 * acc) 0

/-- One ATOM lane on a scratchpad word: the old value, and the crew after it (R182, R206). -/
def spAtom (k : Crew) (aop n off cmp b : Nat) : Nat × Bool × Crew :=
  let old := k.spRd off n
  if k.spBad off n then (old, true, k) else (old, false, k.spWr off n (atomNew aop (8 * n) old cmp b))

/-- The scratchpad lanes of an ATOM in ascending order, with their fills. -/
def State.spAtoms (e : Env) (aop n vt : Nat) (cmp b : Nat → Nat) : List (Nat × Spot) → State → List Fill × State
  | [], t => ([], t)
  | (i, .mem _) :: r, t =>
    let q := State.spAtoms e aop n vt cmp b r t
    (⟨i, .unit⟩ :: q.1, q.2)
  | (i, .spad off) :: r, t =>
    let x := spAtom ((t.crews[e.ci]?).getD e.k) aop n off (cmp i) (b i)
    let t1 := if x.2.1 then t
      else ((t.noteRead e.who t.nextOp (1#64 <<< i) (some e.ci) off n t.hist.length none).spNote e (1#64 <<< i) none true off n).modCrew e.ci (fun _ => x.2.2)
    let q := State.spAtoms e aop n vt cmp b r t1
    (⟨i, .ready (loadLanes vt n false x.1 (fun _ => x.2.1))⟩ :: q.1, q.2)

/-- ATOM of `n` bytes a lane (R205, R206). -/
def atom (i : Instr) (s : State) (o : OpMAt) (n : Nat) : Host.Outcome State Fault Refusal :=
  run i s (fun e => do
    let v ← venvW s e
    let aop := o.aop.toNat
    let vt := o.vt.toNat
    let rs := runOf vt (if aop = 1 then 2 * n else n)
    let dst := runOf vt n
    regsOk e.k (rs ++ [o.vi.toNat])
    let base ← mChecks s e v o.sb [v.src o.vi false] (runSrc v rs)
    let ps ← resolve s e (laneSum v base true o.vi o.pfx o.lim) n kAtomic (lanesOf v.act)
    poisonCheck v.w 1 (runSrc v rs)
    dstFree v.w dst (v.act ||| v.zl)
    waitUnless (spotsFull e.k n ps && (!(anySpad ps) || s.spWriteReady e))
    let cmp := fun l => atomVal v aop vt n l
    let b := fun l => atomVal v aop (if aop = 1 then vt + n / 4 else vt) n l
    let q := State.spAtoms e aop n vt cmp b ps s
    let s1 := (s.asOne q.2).modWarp e.ci e.wi (fun w => (w.setPending dst v.act).zeroRun v dst)
    let mems := ps.filterMap (fun p => match p.2 with | .spad _ => none | .mem key => some (⟨p.1, key, cmp p.1, b p.1⟩ : AtomLane))
    pure (if v.act = 0 then s1
      else s1.addOp { e.newOp s v.act with fills := q.1, atoms := mems, aop := aop, awidth := 8 * n, vt := vt }))

/-- ATOM.B32 (R205, R206). -/
def execAtomB32 (o : OpMAt) (s : State) : Host.Outcome State Fault Refusal :=
  atom (.atomB32 o) s o 4

/-- ATOM.B64 (R205, R206). -/
def execAtomB64 (o : OpMAt) (s : State) : Host.Outcome State Fault Refusal :=
  atom (.atomB64 o) s o 8

/-- PF: changes no value anywhere (R207); its index is read, and checked, like any source. -/
def execPf (o : OpMPf) (s : State) : Host.Outcome State Fault Refusal :=
  run (.pf o) s (fun e => do
    let v ← venvW s e
    regsOk e.k (mRegs [] o.ix o.vi)
    let _ ← mChecks s e v o.sb (idxSrc v o.ix o.vi) []
    pure s)

/-- A load, SLD or ATOM of the issuer has lanes yet to fill (R208). -/
def State.loadsOut (s : State) (t : ThreadRef) : Bool :=
  s.ops.any (fun o => decide (o.who = t) && ((o.isLoad && (!o.fills.isEmpty || o.sload.isSome)) || (decide (o.awidth ≠ 0) && !o.fills.isEmpty)))

/-- A store, SST or ATOM of the issuer is not yet accepted (R208). -/
def State.storesOut (s : State) (t : ThreadRef) : Bool :=
  s.ops.any (fun o => decide (o.who = t) && (!o.cells.isEmpty || !o.atoms.isEmpty))

/-- FENCE waits for earlier loads, stores, or both, of every entry of the warp (R208). -/
def fence (i : Instr) (s : State) (ld st : Bool) : Host.Outcome State Fault Refusal :=
  run i s (fun e => do
    waitUnless (!(ld && s.loadsOut e.who) && !(st && s.storesOut e.who))
    pure s)

/-- FENCE.LD (R208). -/
def execFenceLd (s : State) : Host.Outcome State Fault Refusal :=
  fence .fenceLd s true false

/-- FENCE.ST (R208). -/
def execFenceSt (s : State) : Host.Outcome State Fault Refusal :=
  fence .fenceSt s false true

/-- FENCE.ALL (R208). -/
def execFenceAll (s : State) : Host.Outcome State Fault Refusal :=
  fence .fenceAll s true true

/-- PHASE.REL: waits for the accepted stores of the warp, then marks a release point of the active threads (R224). -/
def execPhaseRel (o : OpXSc) (s : State) : Host.Outcome State Fault Refusal :=
  run (.phaseRel o) s (fun e => do
    waitUnless (!(s.storesOut e.who))
    pure (s.markRelease e.who e.m0 o.sc.toNat))

/-- PHASE.ACQ: waits until the loads of the warp have filled, then marks an acquire point of the active threads (R224). -/
def execPhaseAcq (o : OpXSc) (s : State) : Host.Outcome State Fault Refusal :=
  run (.phaseAcq o) s (fun e => do
    waitUnless (!(s.loadsOut e.who))
    pure (s.markAcquire e.who e.m0 o.sc.toNat))

end Sys2Proof.Machine
end

