-- ==== Sys2Proof/Machine/BarrierInstr.lean ====
section
/-! DEFINITION. The barrier instructions and step barriers (R226 to R243). -/
namespace Sys2Proof.Machine

/-- The barrier an instruction names (R226, R228): a crew without scratchpad traps, and so does a poisoned barrier. -/
def barAt (e : Env) (a : W64) : Exe Nat := do
  need (decide (e.k.z ≠ 0)) (e.ill 6)
  let off := spAddr e.k.z a.toNat 0 32
  need (!(e.k.spBad off 32)) (.trap ⟨11, poisonInfo 3 0 0, none, BitVec.ofNat 64 off⟩)
  pure off

/-- The barrier of scalar register `r`. -/
def barReg (s : State) (e : Env) (r : BitVec 6) : Exe Nat := do
  need (decide (e.k.z ≠ 0)) (e.ill 6)
  let a ← rdS s e r.toNat
  barAt e a

/-- No cohort keeps the barrier as its bound one (R235). -/
def State.unbind (s : State) (ci off : Nat) : State :=
  { s with cohorts := s.cohorts.map (fun c => if c.bound = some (ci, off) then { c with bound := none } else c) }

/-- BARINIT writes the whole barrier, without an evaluation, and wakes the waiters whose target 0 reaches (R235); the arrivals of the
old object count in no phase of the new one, and a waiter that an earlier phase has woken keeps what that phase has behind it. -/
def State.initBar (s : State) (ci off b : Nat) : State :=
  let s1 : State := { s with arrivals := s.arrivals.filter (fun a => !(decide (a.crew = ci ∧ a.off = off))) }
  (s1.putBar ci off b false).wakeBar ci off

/-- BARINIT with an arrival count (R235). -/
def execBarinit (o : OpX2) (s : State) : Host.Outcome State Fault Refusal :=
  run (.barinit o) s (fun e => do
    let off ← barReg s e o.a
    let n ← rdS s e o.b.toNat
    let x := n.toNat % 2 ^ 24
    pure ((s.unbind e.ci off).initBar e.ci off (bSetApend (setBits 0 151 128 x) x)))

/-- BARINIT.COH: bound to the cohort, or FAULT where there is none or it has another bound barrier (R235). A cohort to which the barrier was
bound has no bound barrier then, with FAULT too, which R235 says for BARINIT alone (log entry 119, DESIGN CHOICE). -/
def execBarinitCoh (o : OpX2) (s : State) : Host.Outcome State Fault Refusal :=
  run (.barinitCoh o) s (fun e => do
    let off ← barReg s e o.a
    let x ← rdS s e o.b.toNat
    let key : W32 := x.setWidth 32
    let s1 := s.unbind e.ci off
    match s1.cohort? e.k key with
    | some c =>
      if key ≠ 0 ∧ c.bound = none then
        pure ((s1.modCohort e.k key (fun c => { c with bound := some (e.ci, off) })).initBar e.ci off
          (bSetApend (setBits (setBits 0 71 71 1) 255 224 key.toNat) c.count))
      else pure (s1.initBar e.ci off (bSetBit 0 66))
    | none => pure (s1.initBar e.ci off (bSetBit 0 66)))

/-- The active threads that a bound barrier's cohort counts as arriving now (R232). -/
def newArrivals (s : State) (e : Env) (b : Nat) : W64 :=
  match e.who with
  | .ctx _ => 0
  | .warp c w =>
    match s.warp? c w with
    | none => 0
    | some wp =>
      match wp.cohorts.find? (fun m => decide (m.key.toNat = bKey b)) with
      | none => 0
      | some m => e.m0 &&& m.mask &&& ~~~(if m.phase.toNat = bPhase b then m.arrived else 0)

/-- A membership that records arrivals in a phase. -/
def memberArrive (key phase : Nat) (a : W64) (m : Member) : Member :=
  if m.key.toNat = key then
    { m with arrived := (if m.phase.toNat = phase then m.arrived else 0) ||| a, phase := BitVec.ofNat 16 phase }
  else m

/-- The update of ARRIVE: `k` arrivals as R231 and R232 count them. -/
def arriveUpd (s : State) (e : Env) (off : Nat) (explicit : Option Nat) : State :=
  let b := e.k.bar off
  if bBound b then
    match explicit with
    | some _ => s.putBar e.ci off (bSetBit b 65) true
    | none =>
      let a := newArrivals s e b
      let b1 := if a = e.m0 then b else bSetBit b 65
      let s1 := if a = 0 then s else s.modWarp e.ci e.wi (fun w => { w with cohorts := w.cohorts.map (memberArrive (bKey b) (bPhase b) a) })
      s1.putBar e.ci off (bArrive b1 (popMask a)) true
  else
    s.putBar e.ci off (bArrive b (match explicit with | some k => k | none => popMask e.m0)) true

/-- The arrivals that ARRIVE brings to a barrier (R231, R232). -/
def arriveCount (s : State) (e : Env) (b : Nat) (explicit : Option Nat) : Nat :=
  match explicit with
  | some k => if bBound b then 0 else k
  | none => if bBound b then popMask (newArrivals s e b) else popMask e.m0

/-- The release point of an ARRIVE that is counted in a phase (R213, R216). -/
def noteArrive (s : State) (e : Env) (off : Nat) (explicit : Option Nat) : State :=
  let b := e.k.bar off
  if bApend b = 0 ∨ arriveCount s e b explicit = 0 then s else s.noteArrival e.ci off b (s.past e.who s.nextOp e.m0)

/-- ARRIVE: the release of PHASE.REL.DEV, the arrivals, and the phase that completes them (R213, R237). -/
def arrive (i : Instr) (s : State) (sd sa : BitVec 6) (sn : Option (BitVec 6)) : Host.Outcome State Fault Refusal :=
  run i s (fun e => do
    let off ← barReg s e sa
    let n ← match sn with
      | none => pure none
      | some r => do
        let x ← rdS s e r.toNat
        pure (some (x.toNat % 2 ^ 24))
    freeS s e sd.toNat
    waitUnless (!(s.storesOut e.who) && !(s.olderPending e.who s.nextOp e.m0 true))
    pure ((arriveUpd (noteArrive s e off n) e off n).setS e.who sd.toNat (BitVec.ofNat 64 ((bPhase (e.k.bar off) + 1) % 2 ^ 16))))

/-- ARRIVE by the active threads (R237). -/
def execArrive (o : OpX2) (s : State) : Host.Outcome State Fault Refusal := arrive (.arrive o) s o.a o.b none
/-- ARRIVE by a count (R237). -/
def execArriveN (o : OpX3) (s : State) : Host.Outcome State Fault Refusal := arrive (.arriveN o) s o.a o.b (some o.c)

/-- EXPECT: bytes onto BPEND, or BAR_OVERFLOW (R238). -/
def execExpect (o : OpX2) (s : State) : Host.Outcome State Fault Refusal :=
  run (.expect o) s (fun e => do
    let off ← barReg s e o.a
    let n ← rdS s e o.b.toNat
    let b := e.k.bar off
    need (decide (bBpend b + (n.toNat : Int) ≤ 2 ^ 23 - 1)) (trapOf 8 (BitVec.ofNat 64 (off * 2 ^ 32 + bits b 127 104)))
    pure (s.putBar e.ci off (bSetBpend b (bBpend b + n.toNat)) true))

/-- What the issuing WAITB still waits for: the barrier and phase it parked with, and whether it has been woken. -/
def State.waitOf (s : State) (e : Env) : Option Wait :=
  match e.who with
  | .warp c w => (match s.warp? c w with | some w => (match w.head? with | some h => h.wait | none => none) | none => none)
  | .ctx x => (match s.ctxs[x]? with | some c => c.wait | none => none)

/-- The issuing threads step aside (R94). -/
def State.park (s : State) (e : Env) (x : Wait) : State :=
  match e.who with
  | .warp c w => s.modWarp c w (fun w => { w with frontier := w.frontier.map (fun t =>
      if t.st = .ready ∧ t.pc = e.pc ∧ t.mask = e.m0 then { t with st := .parked, wait := some x } else t) })
  | .ctx i => s.modCtx i (fun c => { c with st := .parked, wait := some x })

/-- WAITB: parks until the phase is reached, then looks for a lost gang partner and goes on (R236): an acquire point of what the
arrivals counted up to that phase released, and a join of the operations whose landings or arrivals it counted (R216, R218). -/
def execWaitb (o : OpX2) (s : State) : Host.Outcome State Fault Refusal :=
  runCtl (.waitb o) s (fun e => do
    let q ← match s.waitOf e with
      | some (.bar off t (some seen)) => do
        let off ← barAt e (BitVec.ofNat 64 off)
        pure (off, t, some seen)
      | _ => do
        let off ← barReg s e o.a
        let t ← rdS s e o.b.toNat
        let t := t.toNat % 2 ^ 16
        pure (off, BitVec.ofNat 16 t, if reached (bPhase (e.k.bar off)) t then some (s.arrivedBefore e.ci off t) else none)
    let b := e.k.bar q.1
    match q.2.2 with
    | none => pure (s.park e (.bar q.1 q.2.1 none))
    | some seen =>
      if bFault b && bIvalid b && decide (bIwarp b = e.wi) then
        .error (trapOf 9 (BitVec.ofNat 64 (bFpart b * 2 ^ 56 + q.1)))
      else pure ((s.joined e.who e.m0 seen).jump e e.npc))

/-- The status bits that remain set decide SHORT, and FAULT carries FPART, IVALID and IWARP (R239). -/
def bClear (b sel : Nat) : Nat :=
  let b := (List.range 7).foldl (fun b i => if sel / 2 ^ i % 2 = 1 then setBits b (64 + i) (64 + i) 0 else b) b
  let b := if sel / 4 % 2 = 1 then setBits b 199 191 0 else b
  if bits b 66 66 = 0 ∧ bits b 70 68 = 0 then setBits b 223 200 0 else b

/-- The snapshot BARQ writes (R239). -/
def bQuery (b : Nat) : W64 :=
  BitVec.ofNat 64 (bPhase b * 2 ^ 48 + bits b 127 104 * 2 ^ 24 + bits b 71 64 * 2 ^ 16 + min (bApend b) 0xFFFF)

/-- BARQ: a snapshot, and the clearing of the status bits that s[sm] selects, in one update (R239). -/
def execBarq (o : OpX3) (s : State) : Host.Outcome State Fault Refusal :=
  run (.barq o) s (fun e => do
    let off ← barReg s e o.b
    let m ← rdS s e o.c.toNat
    freeS s e o.a.toNat
    let b := e.k.bar off
    pure ((s.putBar e.ci off (bClear b (m.toNat % 128)) false).setS e.who o.a.toNat (bQuery b)))

/-- An earlier SUPERSTEP of a diverged entry, still parked, is what holds the register (R125, R243). -/
def State.stepHolds (s : State) (e : Env) (r : Nat) : Bool :=
  match e.w? s with
  | some w => (stepDests w).contains r
  | none => false

/-- SUPERSTEP: the entry parks until the step of its crew completes or ends by timeout (R243), and is a release:
what its threads did before it is performed (R213, R223); −1 at once for a
value that names no group assigned to the launch. It names no barrier, so it does not trap in a crew without scratchpad lines (log entry 120,
DESIGN CHOICE). -/
def execSuperstep (o : OpX2) (s : State) : Host.Outcome State Fault Refusal :=
  runCtl (.superstep o) s (fun e => do
    let g ← rdS s e o.b.toNat
    let mine := match e.k.stepGroup with
      | some x => decide (g.toNat = x) && s.steps.any (fun t => decide (t.g = x))
      | none => false
    if mine then do
      if s.stepHolds e o.a.toNat then pure () else freeS s e o.a.toNat
      waitUnless (!(s.olderPending e.who s.nextOp e.m0 true))
      pure ((((s.stepNote e.ci (s.past e.who s.nextOp e.m0)).pendS e.who o.a.toNat).park e (.step o.a.toNat none)).stepArrive e.ci)
    else do
      let s1 ← wrS s e o.a.toNat (w64 (-1))
      pure (s1.jump e e.npc))

/-- STEP_TIMEOUT: the timeout has passed since the first arrival in the step, which is incomplete (R241, R243):
the participants that have arrived return with bit 62, synchronised only among themselves, and nothing joins them to operations that are
outstanding. -/
def execStepTimeout (g : Nat) (s : State) : Host.Outcome State Fault Refusal :=
  .next (match s.steps.find? (fun x => decide (x.g = g)) with
    | none => s
    | some x =>
      match x.launch, x.first with
      | some l, some t0 =>
        if x.timeout ≠ 0 ∧ t0 + x.timeout ≤ s.dtime then
          let back := (s.launchCrews l).filter (s.crewIs (fun k => k.arrived && decide (k.stepNo = x.step)))
          (back.foldl (fun t c => t.stepReturn c (BitVec.ofNat 64 (2 ^ 62)) (s.stepSeen x back)) s).nextStep g l
        else s
      | _, _ => s)

end Sys2Proof.Machine
end

