-- ==== Sys2Proof/Machine/Engine.lean ====
section
/-! DEFINITION. What every engine shares: runs of bytes in memory or scratchpad by virtual address (R199, R249,
R264, R280), tile reservations, armed lines, and the removal of an operation from its step (R170, R242). -/
namespace Sys2Proof.Machine

/-- A failed engine access: the translation fault and its address, or a poisoned walk as its reason 6 (R191). -/
structure EFault where
  x : XFault
  va : Nat
  deriving DecidableEq, Repr

/-- The stretches of `n` bytes at a virtual address: scratchpad lines of a crew in the aperture, or pieces of pages,
each translated for its kind (R181, R182, R249). -/
def State.pieces (s : State) (z ctx kind : Nat) : Nat → Nat → Nat → Except EFault (List (Spot × Nat))
  | 0, _, _ => .ok []
  | fuel + 1, va, n =>
    if n = 0 then .ok []
    else
      let a := va % 2 ^ 64
      if a / 2 ^ 32 = 0xFFFFFFFF then
        let len := min n (128 - a % 128)
        match State.pieces s z ctx kind fuel (a + len) (n - len) with
        | .ok r => .ok ((.spad (spAddr z (a % 2 ^ 32) 0 1), len) :: r)
        | .error f => .error f
      else
        let len := min n (4096 - a % 4096)
        match s.xlate ctx a len kind with
        | .error f => .error ⟨f, a⟩
        | .ok key =>
          match State.pieces s z ctx kind fuel (a + len) (n - len) with
          | .ok r => .ok ((.mem key, len) :: r)
          | .error f => .error f

/-- The pieces of `n` bytes. -/
def State.piecesOf (s : State) (k : Crew) (ctx kind va n : Nat) : Except EFault (List (Spot × Nat)) :=
  s.pieces k.z ctx kind (n + 1) va n

/-- Every scratchpad line of the pieces is full (R171). -/
def piecesFull (k : Crew) (ps : List (Spot × Nat)) : Bool :=
  ps.all (fun p => match p.1 with | .spad off => k.linesFull off p.2 | .mem _ => true)

/-- The scratchpad lines the pieces name. -/
def pieceLines (ps : List (Spot × Nat)) : List Nat :=
  ps.filterMap (fun p => match p.1 with | .spad off => some (off / 128) | .mem _ => none)

/-- Reads the bytes of pieces with a poison mark for each. -/
def State.readPieces (s : State) (k : Crew) (ps : List (Spot × Nat)) : List (Byte × Bool) :=
  ps.flatMap (fun p =>
    match p.1 with
    | .spad off => (List.range p.2).map (fun j => (BitVec.ofNat 8 (k.spRd (off + j) 1), k.spBad (off + j) 1))
    | .mem key => (List.range p.2).map (fun j => (s.mem.get (key + j), s.bad (key + j) 1)))

/-- The `n` bytes of memory that the agent of the step reads: as they stand, or as they stood where R220 allows it. The poison marks are
those of now. -/
def State.memBytes (s : State) (key n : Nat) : List MByte :=
  let m := s.undo none key n (s.actPoint none key n) s.mem
  (List.range n).map (fun j => (m.get (key + j), s.bad (key + j) 1))

/-- The bytes of pieces that the operation thread of the step reads in crew `ci`'s scratchpad and in memory. -/
def State.opBytes (s : State) (ci : Nat) (k : Crew) (ps : List (Spot × Nat)) : List MByte :=
  ps.flatMap (fun p =>
    match p.1 with
    | .spad off => (s.readPieces (s.crewAt k ci off p.2 (s.actPoint (some ci) off p.2)) [p])
    | .mem key => s.memBytes key p.2)

/-- The operation thread of the step has read pieces: the landings on their scratchpad lines join it (R218). -/
def State.opJoined (s : State) (ci : Nat) (ps : List (Spot × Nat)) : State :=
  s.actJoins (unionOf (ps.map (fun p => match p.1 with | .spad off => s.landedOn ci off p.2 | .mem _ => [])))

/-- Writes bytes with their poison marks at a memory key (R280, R412): whole clean blocks become clean. -/
def State.wrMarked (s : State) (key : Nat) (bs : List (Byte × Bool)) : State :=
  let s1 := s.wrL key (bs.map Prod.fst)
  let bad := (List.range bs.length).filter (fun j => match bs[j]? with | some b => b.2 | none => false)
  { s1 with memPoison := bad.foldl (fun m j => m.set ((key + j) / 32) 1) s1.memPoison }

/-- Writes bytes with their poison marks at a scratchpad offset. -/
def Crew.spWrMarked (k : Crew) (off : Nat) (bs : List (Byte × Bool)) : Crew :=
  if k.z = 0 then k
  else
    let bad := (List.range bs.length).filter (fun j => match bs[j]? with | some b => b.2 | none => false)
    { k with sp := wrList k.sp off (bs.map Prod.fst)
             spPoison := bad.foldl (fun m j => m.set ((off + j) / 4) 1) (poisonAfter k.spPoison 4 off bs.length) }

/-- Writes a list of bytes over pieces of crew `ci`'s scratchpad and of memory. -/
def State.writePieces (s : State) (ci : Nat) : List (Spot × Nat) → List (Byte × Bool) → State
  | [], _ => s
  | (sp, n) :: r, bs =>
    let s1 := match sp with
      | .spad off => (s.noteSp ci off n none).modCrew ci (fun k => k.spWrMarked off (bs.take n))
      | .mem key => s.wrMarked key (bs.take n)
    State.writePieces s1 ci r (bs.drop n)

/-- The place `j` bytes on. -/
def Spot.plus : Spot → Nat → Spot
  | .spad off, j => .spad (off + j)
  | .mem key, j => .mem (key + j)

/-- The bytes of pieces with the place of each. -/
def spotBytes (ps : List (Spot × Nat)) (bs : List MByte) : List (Spot × MByte) :=
  (ps.flatMap (fun p => (List.range p.2).map p.1.plus)).zip bs

/-- Bytes at following places as runs. -/
def runsOf : List (Spot × MByte) → List (Spot × List MByte)
  | [] => []
  | (p, b) :: r =>
    match runsOf r with
    | (q, bs) :: t => if q = p.plus 1 then (p, b :: bs) :: t else (p, [b]) :: (q, bs) :: t
    | [] => [(p, [b])]

/-- Writes bytes at their places, as one acceptance. -/
def State.writeBytes (s : State) (ci : Nat) (xs : List (Spot × MByte)) : State :=
  s.asOne ((runsOf xs).foldl (fun s r => s.writePieces ci [(r.1, r.2.length)] r.2) s)

/-- What one acceptance takes: a scratchpad line, or a 64-byte block at its home port (R169, R192). -/
def unitOf : Spot → Nat × Nat
  | .spad off => (0, off / 128)
  | .mem key => (1, key / 64)

/-- What one atomic unit takes: the scratchpad port's share, or a home port's (R192, R196). -/
def portOf : Spot → Nat × Nat
  | .spad _ => (0, 0)
  | .mem key => (1, Config.homePort (key / 64))

/-- The die of a memory key (R183, R283): the host link attaches to die 0 (R16). -/
def keyDie (key : Nat) : Nat :=
  if keyTgt key < 2 then keyTgt key else if keyTgt key = 2 then Config.portDie (key / 64) % 2 else 0

/-- The die of bytes that an engine of the crew moves. -/
def Spot.die (k : Crew) : Spot → Nat
  | .spad _ => k.die
  | .mem key => keyDie key

/-- A die's Iris can take no request (R374). -/
def State.tableFull (s : State) (die : Nat) : Bool := match s.dies[die]? with | some d => decide (8192 ≤ d.iris.reqs.length) | none => false

/-- A bridge request of a die met a full table and is not yet sent again, or meets one now (R374, R380). -/
def State.bridgeShut (s : State) (die : Nat) (tried : Option Nat) : Bool :=
  s.tableFull die || (match tried with | some t => decide (s.dtime < t + 2000) | none => false)

/-- When a request that meets a full table was sent (R374). -/
def State.triedAt (s : State) (tried : Option Nat) : Option Nat :=
  match tried with | some t => if s.dtime < t + 2000 then some t else some s.dtime | none => some s.dtime

/-- The list in groups of one key each. -/
def groupsBy {α : Type} (f : α → Nat × Nat) (xs : List α) : List (List α) :=
  ((xs.map f).eraseDups).map (fun u => xs.filter (fun x => decide (f x = u)))

/-- Clean bytes. -/
def cleanBytes (bs : List Byte) : List (Byte × Bool) := bs.map (fun b => (b, false))

/-- Bytes of a tile reservation with their poison marks. -/
def Crew.tileRd (k : Crew) (off n : Nat) : List (Byte × Bool) :=
  (List.range n).map (fun j => (k.tile.get (off + j), decide (k.tilePoison.get ((off + j) / 4) ≠ 0)))

/-- Writes bytes with their marks into a tile reservation (R244, R412). -/
def Crew.tileWr (k : Crew) (off : Nat) (bs : List (Byte × Bool)) : Crew :=
  let bad := (List.range bs.length).filter (fun j => match bs[j]? with | some b => b.2 | none => false)
  { k with tile := wrList k.tile off (bs.map Prod.fst)
           tilePoison := bad.foldl (fun m j => m.set ((off + j) / 4) 1) (poisonAfter k.tilePoison 4 off bs.length) }

/-- Every line can take one more writer (R170). -/
def Crew.canArm (k : Crew) (ls : List Nat) : Bool := ls.all (fun l => decide ((k.lines.get l).toNat / 2 < 15))

/-- Arms each line once (R170). -/
def Crew.armLines (k : Crew) (ls : List Nat) : Crew := if k.z = 0 then k else ls.foldl Crew.armLine k

/-- One writer's last byte has landed on each line (R170). -/
def Crew.landLines (k : Crew) (ls : List Nat) : Crew := if k.z = 0 then k else ls.foldl Crew.landLine k

/-- Lines of a crew on which the agent of the step has landed its last byte (R170): a read of one joins its writes to it (R218). -/
def State.landLines (s : State) (ci : Nat) (ls : List Nat) : State :=
  if ls = [] then s
  else
    let s1 := s.modCrew ci (fun k => k.landLines ls)
    { s1 with landings := s1.landings ++ ls.map (fun l => ⟨ci, l, addAll s.actor.past
      (s.writesThat (fun _ w => decide (w.author.agent = s.actor.agent ∧ w.author.agent ≠ .other) && w.touches (some ci) (128 * l) 128))⟩) }

/-- The engine part of an operation ends: it leaves its step's count, with a status bit or none (R242, R243). -/
def State.endEng (s : State) (o : Op) (flag : Option Nat) : State :=
  ((s.modOp o.id (fun o => { o with eng := none })).sweepOp o.id).stepOpDone o.crew flag

/-- The operation may act: what its issuers did before it is performed (R217). -/
def State.forked (s : State) (o : Op) : Bool := !(s.olderPending o.who o.id o.lanes true)

/-- A field of a 512-bit shape record (R276). -/
def shF (r : BitVec 512) (hi lo : Nat) : Nat := bitsOf r hi lo
def shExt (r : BitVec 512) : Nat := shF r 511 448
def shDim1 (r : BitVec 512) : Nat := shF r 191 160

end Sys2Proof.Machine
end

