-- ==== Sys2Proof/Machine/Matrix.lean ====
section
/-! DEFINITION. Tile descriptors, accumulators, the matrix engine and its operations (chapter 11; sums R43 to R47). -/
namespace Sys2Proof.Machine

/-- Fields of a tile descriptor (R246). -/
def tdValid (t : BitVec 128) : Bool := t.getLsbD 127
def tdHandle (t : BitVec 128) : Bool := t.getLsbD 126
def tdFmt (t : BitVec 128) : Nat := bitsOf t 125 122
def tdBlk (t : BitVec 128) : Nat := bitsOf t 121 120
def tdSfmt (t : BitVec 128) : Nat := if t.getLsbD 119 then 13 else 12
def tdRows (t : BitVec 128) : Nat := bitsOf t 118 113 + 1
def tdCols (t : BitVec 128) : Nat := bitsOf t 112 104 + 1
def tdHidx (t : BitVec 128) : Nat := bitsOf t 103 88
def tdRow0 (t : BitVec 128) : Nat := bitsOf t 87 64
def tdPitch (t : BitVec 128) : Nat := 16 * bitsOf t 63 48
def tdScoff (t : BitVec 128) : Nat := 16 * bitsOf t 47 32
def tdCol0 (t : BitVec 128) : Nat := bitsOf t 31 16
def tdBase (t : BitVec 128) : Nat := 16 * bitsOf t 15 0
/-- The row bytes (R246). -/
def tdRowBytes (t : BitVec 128) : Nat := tdCols t * fmtWidth (tdFmt t) / 8
/-- The block length: 16 or 32; 0 unscaled. -/
def tdBlock (t : BitVec 128) : Nat := if tdBlk t = 1 then 16 else if tdBlk t = 2 then 32 else 0
/-- Scales of a row. -/
def tdScales (t : BitVec 128) : Nat := if tdBlock t = 0 then 0 else (tdCols t + tdBlock t - 1) / tdBlock t
/-- The end of the rows and of the scale array in the reservation. -/
def tdRowsEnd (t : BitVec 128) : Nat := tdBase t + (tdRows t - 1) * tdPitch t + tdRowBytes t
def tdScalesEnd (t : BitVec 128) : Nat := tdScoff t + tdRows t * tdScales t

/-- The scale array overlaps no row (R247). -/
def tdApart (t : BitVec 128) : Bool :=
  (List.range (tdRows t)).all (fun r => !(meets (tdBase t + r * tdPitch t) (tdRowBytes t) (tdScoff t) (tdRows t * tdScales t)))

/-- Well-formed beyond its format code (R247), in a reservation of `kib` KiB. -/
def tdWf (t : BitVec 128) (kib : Nat) : Bool :=
  decide (tdBlk t ≠ 3) && (decide (tdBlk t = 0) || decide (3 ≤ tdFmt t))
    && (decide (tdBlk t ≠ 0) || (!t.getLsbD 119 && decide (tdScoff t = 0)))
    && decide (tdCols t * fmtWidth (tdFmt t) % 8 = 0) && (decide (fmtWidth (tdFmt t) ≠ 6) || decide (tdCols t % 4 = 0))
    && decide (tdRowBytes t ≤ tdPitch t) && decide (tdRowsEnd t ≤ 1024 * kib)
    && (decide (tdBlk t = 0) || (decide (tdScalesEnd t ≤ 1024 * kib) && tdApart t))
    && (tdHandle t || (decide (tdHidx t = 0) && decide (tdRow0 t = 0) && decide (tdCol0 t = 0)))

/-- TCFG: a descriptor checked under R247 and written whole (R257). -/
def execTcfg (o : OpXTd) (s : State) : Host.Outcome State Fault Refusal :=
  run (.tcfg o) s (fun e => do
    let lo ← rdS s e o.b.toNat
    let hi ← rdS s e o.c.toNat
    let t : BitVec 128 := hi ++ lo
    need (!(tdValid t) || decide (1 ≤ tdFmt t ∧ tdFmt t ≤ 7)) (e.ill 5)
    need (if tdValid t then tdWf t e.k.image.tilekib else decide (t = 0)) (e.ill 6)
    pure (s.modCrew e.ci (fun k => { k with td := modAt k.td o.td.toNat (fun _ => t) })))

/-- A fault of a matrix operation: MXFAULT.REASON and ADDR (R253, R254). -/
structure MxFault where
  reason : Nat
  addr : Nat
  deriving DecidableEq, Repr

/-- A translation failure as a matrix fault. -/
def mxOfXlate (f : EFault) : MxFault := ⟨if f.x.reason = 3 ∨ f.x.reason = 4 ∨ f.x.reason = 5 then 2 else 1, f.va⟩

/-- Pieces of a run of bytes, or the matrix fault. -/
def mxPieces (s : State) (k : Crew) (kind va n : Nat) : Except MxFault (List (Spot × Nat)) :=
  match s.piecesOf k k.ctxid kind va n with
  | .ok p => .ok p
  | .error f => .error (mxOfXlate f)

/-- A tile's rows and scales: offsets in the reservation with the pieces of memory they mirror. -/
abbrev TileMap := List (Nat × List (Spot × Nat))

/-- Pieces for a list of (reservation offset, address, bytes). -/
def mxMaps (s : State) (k : Crew) (kind : Nat) : List (Nat × Nat × Nat) → Except MxFault TileMap
  | [] => .ok []
  | (off, va, n) :: r => do
    let p ← mxPieces s k kind va n
    let rest ← mxMaps s k kind r
    pure ((off, p) :: rest)

/-- The pieces of a handle's table entry (R248). -/
def handleEntry (s : State) (k tab : Crew) (hidx : Nat) : Except MxFault (List (Spot × Nat)) :=
  mxPieces s k kRead (tab.thbase.toNat + 32 * hidx) 32

/-- The tile of a handle at an origin (R248, R249): the table is `tab`'s, the scratchpad and reservation those of `k`, crew `ci`. Nothing
yet (`none`) while a scratchpad line of the table's entry is not full (R171). A poisoned entry faults with REASON 3 and ADDR 0 (log entry
110). -/
def handleMap (s : State) (ci : Nat) (k tab : Crew) (kind : Nat) (t : BitVec 128) (hidx row0 col0 : Nat) : Except (Option MxFault) TileMap :=
  if tab.thcount.toNat ≤ hidx then .error (some ⟨5, 0⟩)
  else
    match handleEntry s k tab hidx with
    | .error f => .error (some f)
    | .ok ps =>
      let bs := s.opBytes ci k ps
      let ent := leNat (bs.map Prod.fst)
      if !(piecesFull k ps) then .error none
      else if bs.any Prod.snd then .error (some ⟨3, 0⟩)
      else if bits ent 255 192 ≠ 0 ∨ (tdBlock t ≠ 0 ∧ bits ent 127 64 = 0) then .error (some ⟨5, 0⟩)
      else
        let w := fmtWidth (tdFmt t)
        let rows := (List.range (tdRows t)).map (fun r =>
          (tdBase t + r * tdPitch t, bits ent 63 0 + (row0 + r) * bits ent 159 128 + 32 * col0 * w / 8, tdRowBytes t))
        let scs := if tdBlock t = 0 then [] else (List.range (tdRows t)).map (fun r =>
          (tdScoff t + r * tdScales t, bits ent 127 64 + (row0 + r) * bits ent 191 160 + 32 * col0 / tdBlock t, tdScales t))
        match mxMaps s k kind (rows ++ scs) with
        | .ok m => .ok m
        | .error f => .error (some f)

/-- Every scratchpad line of a map is full (R171). -/
def mapFull (k : Crew) (m : TileMap) : Bool := m.all (fun p => piecesFull k p.2)

/-- The landings on the lines of a handle's table entry join the operation that has read it (R218). -/
def State.entryJoined (s : State) (ci : Nat) (k tab : Crew) (hidx : Nat) : State :=
  match handleEntry s k tab hidx with | .ok ps => s.opJoined ci ps | .error _ => s

/-- Copies a map's memory into crew `ci`'s reservation (R249, R258). -/
def State.stage (s : State) (ci : Nat) (k : Crew) (m : TileMap) : State :=
  (s.modCrew ci (fun q => m.foldl (fun q p => q.tileWr p.1 (s.opBytes ci k p.2)) q)).opJoined ci (m.flatMap Prod.snd)

/-- A code of a tile element, and whether any of its bytes is poisoned (R246, R30). -/
def tileElem (k : Crew) (t : BitVec 128) (r c : Nat) : Ext × Bool :=
  let w := fmtWidth (tdFmt t)
  let bit := c * w
  let a := tdBase t + r * tdPitch t + bit / 8
  (decodeFmt (tdFmt t) (rdBytes k.tile a 2 / 2 ^ (bit % 8) % 2 ^ w),
    (k.tileRd a ((bit % 8 + w + 7) / 8)).any Prod.snd)

/-- A block scale (R44). -/
def tileScale (k : Crew) (t : BitVec 128) (r j : Nat) : Ext × Bool :=
  let a := tdScoff t + r * tdScales t + j
  (decodeFmt (tdSfmt t) (k.tile.get a).toNat, (k.tileRd a 1).any Prod.snd)

/-- The exact sum of a list, from its first element; an empty sum is +0. Chapters 02 and 11 do not say which zero an exactly zero sum, a
zero contribution or a zero accumulation is: it is that of an addition under R145, +0 unless every term is −0 (log entry 118, DESIGN
CHOICE). -/
def extSum : List Ext → Ext
  | [] => .fin false 0 0
  | x :: r => r.foldl (Ext.add 0) x

/-- The group length of a product: 8 for BF16 and FP16, else the block, 32 where unscaled (R45, R46, R259). -/
def groupLen (t : BitVec 128) : Nat := if tdFmt t ≤ 2 then 8 else if tdBlock t = 0 then 32 else tdBlock t

/-- The exact contribution of one group or block to element (i, j) (R44 to R46). -/
def contribution (ka kb : Crew) (ta tb : BitVec 128) (i j g : Nat) : Ext :=
  let n := groupLen ta
  let cs := (List.range n).map (fun x => g * n + x)
  let sum := extSum ((cs.filter (fun c => decide (c < tdCols ta))).map (fun c => ((tileElem ka ta i c).1).mul (tileElem kb tb j c).1))
  if tdBlock ta = 0 then sum else (((tileScale ka ta i g).1).mul (tileScale kb tb j g).1).mul sum

/-- FTZ.MAT on an exact value: below the FP32 normal range it becomes a zero of its sign (R43). -/
def flushMat (mat : Bool) (x : Ext) : Ext :=
  match x with
  | .fin n m e => if mat && decide (m ≠ 0) && decide (expOf m e < -126) then .fin n 0 0 else x
  | y => y

/-- One accumulation step: RNE, then the flush (R45 to R47). -/
def accStep (mat : Bool) (t : W32) (c : Ext) : W32 := flush32 mat (round32 (Ext.add 0 (f32 t) (flushMat mat c)) 0)

/-- Element (i, j) after every group (R259). -/
def dotAcc (ka kb : Crew) (ta tb : BitVec 128) (mat : Bool) (t : W32) (i j : Nat) : W32 :=
  (List.range ((tdCols ta + groupLen ta - 1) / groupLen ta)).foldl (fun t g => accStep mat t (contribution ka kb ta tb i j g)) t

/-- The pairs MMA and MMAS accept (R259). -/
def pairOk (scaled : Bool) (ta tb : BitVec 128) : Bool :=
  tdValid ta && tdValid tb && decide (tdCols ta = tdCols tb) &&
    (if scaled then decide (3 ≤ tdFmt ta ∧ 3 ≤ tdFmt tb ∧ tdBlk ta ≠ 0 ∧ tdBlk ta = tdBlk tb)
     else decide ((tdFmt ta = 1 ∧ tdFmt tb = 1) ∨ (tdFmt ta = 2 ∧ tdFmt tb = 2) ∨ (3 ≤ tdFmt ta ∧ 3 ≤ tdFmt tb ∧ tdBlk ta = 0 ∧ tdBlk tb = 0)))

/-- A row of a tile has a poisoned byte among its elements or scales. -/
def tileRowBad (k : Crew) (t : BitVec 128) (r : Nat) : Bool :=
  (k.tileRd (tdBase t + r * tdPitch t) (tdRowBytes t)).any Prod.snd || (k.tileRd (tdScoff t + r * tdScales t) (tdScales t)).any Prod.snd

/-- The product into an accumulator over the rows of `valid`; nothing where a consumed element is poisoned (R259). -/
def product (ka kb : Crew) (ta tb : BitVec 128) (mat : Bool) (valid : W64) (a : Acc) : Option Acc :=
  let is := (List.range (tdRows ta)).filter (fun i => valid.getLsbD i)
  let js := List.range (tdRows tb)
  let cells := is.flatMap (fun i => js.map (fun j => (i, j)))
  if is.any (tileRowBad ka ta) || (!is.isEmpty && js.any (tileRowBad kb tb))
      || cells.any (fun p => decide (a.poison.get (64 * p.1 + p.2) ≠ 0)) then none
  else some { a with elems := cells.foldl (fun m p =>
    m.set (64 * p.1 + p.2) (dotAcc ka kb ta tb mat (a.elems.get (64 * p.1 + p.2)) p.1 p.2)) a.elems }

/-- Where a reading of row extents stands. -/
inductive Rows where
  | wait
  | fault (f : MxFault)
  | mask (m : W64)
  deriving DecidableEq, Repr

/-- A reader of the bytes of row i's extent entry: none where it must wait. -/
abbrev Look := Nat → List (Spot × Nat) → Option (List MByte)

/-- The reader of an operation: every scratchpad line is full (R171). -/
def opLook (s : State) (ci : Nat) (k : Crew) : Look := fun _ ps => if piecesFull k ps then some (s.opBytes ci k ps) else none

/-- Whether the entries for the rows `is` say valid, in order (R255). A poisoned entry faults with REASON 3 and ADDR 0 (log entry 110). -/
def rowBits (s : State) (k : Crew) (look : Look) (ext d1 row0 : Nat) : List Nat → Except (Option MxFault) (List Nat)
  | [] => .ok []
  | i :: r =>
    let n := row0 + i
    match mxPieces s k kRead (ext + 4 * (n / d1)) 4 with
    | .error f => .error (some f)
    | .ok ps =>
      match look i ps with
      | none => .error none
      | some bs =>
        if bs.any Prod.snd then .error (some ⟨3, 0⟩)
        else
          match rowBits s k look ext d1 row0 r with
          | .ok l => .ok (if n % d1 < leNat (bs.map Prod.fst) then i :: l else l)
          | .error x => .error x

/-- The valid rows among `is` (R255). -/
def validRows (s : State) (k : Crew) (look : Look) (shape : W64) (sh : BitVec 512) (is : List Nat) : Rows :=
  if !shape.getLsbD 63 ∨ shExt sh = 0 then .mask (BitVec.allOnes 64)
  else if shDim1 sh = 0 then .mask 0
  else
    match rowBits s k look (shExt sh) (shDim1 sh) (bitsOf shape 55 32) is with
    | .ok l => .mask (maskOf (fun i => l.contains i))
    | .error none => .wait
    | .error (some f) => .fault f

/-- The pieces of the extent entries that are read for the rows `is`, each with its row (R255). -/
def extentPieces (s : State) (k : Crew) (shape : W64) (sh : BitVec 512) (is : List Nat) : List (Nat × List (Spot × Nat)) :=
  if !shape.getLsbD 63 ∨ shExt sh = 0 ∨ shDim1 sh = 0 then []
  else is.filterMap (fun i =>
    match mxPieces s k kRead (shExt sh + 4 * ((bitsOf shape 55 32 + i) / shDim1 sh)) 4 with | .ok ps => some (i, ps) | .error _ => none)

/-- The operation will write the accumulator `a` of crew `ci` when it ends (R251). -/
def Op.empties (o : Op) (ci a : Nat) : Bool :=
  match o.eng with
  | some (.mx m) =>
    decide (m.acc = a) &&
      (if m.fn = 5 then m.members.any (fun x => decide (x.crew = ci ∧ x.ended = none))
       else decide (o.crew = ci) && (decide (m.fn = 3 ∨ m.fn = 4 ∨ m.fn = 6) || (decide (m.fn = 7) && m.c.getLsbD 54)))
  | _ => false

/-- The accumulator is full: no operation that writes it is outstanding (R251). -/
def State.accIsFull (s : State) (ci a : Nat) : Bool := !(s.ops.any (fun o => o.empties ci a))

/-- The full bit of an accumulator follows the operations outstanding. -/
def State.refreshAcc (s : State) (ci a : Nat) : State :=
  s.modCrew ci (fun k => { k with accs := modAt k.accs a (fun c => { c with full := s.accIsFull ci a }) })

/-- Refreshes an accumulator of several crews. -/
def State.refreshAccs (s : State) (cs : List Nat) (a : Nat) : State := cs.foldl (fun s c => s.refreshAcc c a) s

/-- The crews whose accumulators a matrix operation names. -/
def MxOp.crews (m : MxOp) (ci : Nat) : List Nat := if m.fn = 5 then m.members.map Slice.crew else [ci]

/-- The accumulator index is within the crew's (R250). -/
def accOk (e : Env) (a : Nat) : Exe Unit := need (decide (a < e.k.image.acc)) (trapOf 2 (BitVec.ofNat 64 (128 + a)))

/-- The context that issues; only matrix contexts reach here (R268). -/
def theCtx (s : State) (e : Env) : Exe SCtx :=
  match e.who with
  | .ctx x => (match s.ctxs[x]? with | some c => .ok c | none => .error .wait)
  | .warp _ _ => .error .wait

/-- A matrix operation of the issuing context with its captured CSRs and nothing else (R253). -/
def mxBase (e : Env) (c : SCtx) (fn acc : Nat) : MxOp :=
  { fn := fn, acc := acc, tda := 0, tdb := 0, bar := c.mxbar, shape := c.mxshape
    sh := e.k.sh.getD (bitsOf c.mxshape 3 0) 0, x := 0, c := 0, mat := c.ftz.getLsbD 2, rm := 0, dst := 0, add := false
    rows := BitVec.allOnes 64, lanes := 0, lines := [], members := [], was := [], shares := none, btile := none }

/-- Issues a matrix operation: it is in flight, and the accumulators it writes are empty (R251). -/
def State.issueMx (s : State) (e : Env) (m : MxOp) : State :=
  (s.addOp { e.newOp s 1 with eng := some (.mx m) }).refreshAccs (m.crews e.ci) m.acc

/-- MMA and MMAS: descriptors captured at issue (R259). -/
def issueProduct (i : Instr) (s : State) (o : OpXMma) (fn : Nat) : Host.Outcome State Fault Refusal :=
  run i s (fun e => do
    accOk e o.acc.toNat
    let c ← theCtx s e
    pure (s.issueMx e { mxBase e c fn o.acc.toNat with tda := e.k.td.getD o.tda.toNat 0, tdb := e.k.td.getD o.tdb.toNat 0 }))

/-- MMA (R259). -/
def execMma (o : OpXMma) (s : State) : Host.Outcome State Fault Refusal := issueProduct (.mma o) s o 3
/-- MMAS (R259). -/
def execMmas (o : OpXMma) (s : State) : Host.Outcome State Fault Refusal := issueProduct (.mmas o) s o 4

/-- ACLR (R263). -/
def execAclr (o : OpXAcc) (s : State) : Host.Outcome State Fault Refusal :=
  run (.aclr o) s (fun e => do
    accOk e o.acc.toNat
    let c ← theCtx s e
    pure (s.issueMx e (mxBase e c 6 o.acc.toNat)))

/-- TLD and TST (R258). -/
def issueMove (i : Instr) (s : State) (o : OpXTd) (fn : Nat) : Host.Outcome State Fault Refusal :=
  run i s (fun e => do
    let x ← rdS s e o.b.toNat
    let y ← rdS s e o.c.toNat
    let c ← theCtx s e
    pure (s.addOp { e.newOp s 1 with eng := some (.mx { mxBase e c fn 8 with tda := e.k.td.getD o.td.toNat 0, x := x, c := y }) }))

/-- TLD (R258). -/
def execTld (o : OpXTd) (s : State) : Host.Outcome State Fault Refusal := issueMove (.tld o) s o 1
/-- TST (R258). -/
def execTst (o : OpXTd) (s : State) : Host.Outcome State Fault Refusal := issueMove (.tst o) s o 2

/-- The crew has a thread in the cohort `key` of the issuing crew's cluster and context (R261). -/
def inCohort (k0 : Crew) (key : W32) (k : Crew) : Bool :=
  decide (k.die = k0.die ∧ clusterOf k.core = clusterOf k0.core ∧ k.ctxid = k0.ctxid ∧ k.st ≠ .ended)
    && k.warps.any (fun w => w.cohorts.any (fun m => decide (m.key = key ∧ m.mask ≠ 0)))

/-- Inserts a crew by CORE, then by order of placement (R261). -/
def rankInsert (s : State) (c : Nat) : List Nat → List Nat
  | [] => [c]
  | d :: r =>
    match s.crews[c]?, s.crews[d]? with
    | some a, some b => if a.core < b.core ∨ (a.core = b.core ∧ a.placed < b.placed) then c :: d :: r else d :: rankInsert s c r
    | _, _ => d :: rankInsert s c r

/-- The member crews of a cohort, ranked (R261). -/
def gangMembers (s : State) (k0 : Crew) (key : W32) : List Nat :=
  ((List.range s.crews.length).filter (s.crewIs (inCohort k0 key))).foldl (fun l c => rankInsert s c l) []

/-- A member of an MMAG as it issues: the slice of a crew that is already saved has failed (R261, R265). -/
def newSlice (s : State) (ta q : Nat) : Slice :=
  match s.crews[q]? with
  | some k => ⟨q, k.td.getD ta 0, if k.st = .running then none else some false⟩
  | none => ⟨q, 0, some false⟩

/-- MMAG: the members and their descriptors captured at issue (R261). -/
def execMmag (o : OpXMma) (s : State) : Host.Outcome State Fault Refusal :=
  runH (baseHdr (0x140000F7 + putXMma o)) s (fun e => do
    let c ← theCtx s e
    let ms := gangMembers s e.k (c.mxgang.setWidth 32)
    need (decide (1 ≤ ms.length ∧ ms.length ≤ 8) && ms.contains e.ci && c.mxbar.getLsbD 63) (e.ill 6)
    accOk e o.acc.toNat
    pure (s.issueMx e { mxBase e c 5 o.acc.toNat with
      tda := e.k.td.getD o.tda.toNat 0
      tdb := e.k.td.getD o.tdb.toNat 0
      members := ms.map (newSlice s o.tda.toNat) }))

/-- Fields of the ADRAIN control word (R264). -/
def drFmt (c : W64) : Nat := bitsOf c 63 60
def drRm (c : W64) : Nat := bitsOf c 59 57
def drRows (c : W64) : Nat := bitsOf c 53 48 + 1
def drCols (c : W64) : Nat := bitsOf c 47 42 + 1
def drRow0 (c : W64) : Nat := bitsOf c 41 36
def drCol0 (c : W64) : Nat := bitsOf c 35 30
def drVreg (c : W64) : Nat := bitsOf c 29 23
def drPitch (c : W64) : Nat := bitsOf c 22 0
def drRowBytes (c : W64) : Nat := drCols c * fmtWidth (drFmt c) / 8

/-- The value checks of ADRAIN at issue (R264): `dst` is 0 SP, 1 G, 2 V. -/
def drCheck (e : Env) (c : W64) (dst : Nat) (add : Bool) : Exe Unit := do
  need (decide (drRm c ≠ 7)) (e.ill 4)
  need (decide (drFmt c ≤ 7)) (e.ill 5)
  need (decide (drRow0 c + drRows c ≤ 64 ∧ drCol0 c + drCols c ≤ 64)) (e.ill 6)
  need (if dst = 2 then decide (drPitch c = 0)
        else decide (drVreg c = 0 ∧ drCols c * fmtWidth (drFmt c) % 8 = 0 ∧ drRowBytes c ≤ drPitch c)) (e.ill 6)
  need (!add || decide (drFmt c ≤ 1)) (e.ill 6)

/-- The accumulator rows a drain covers. -/
def drRowList (c : W64) : List Nat := (List.range (drRows c)).map (fun i => drRow0 c + i)

/-- The drained rows i with SH = 0 or valid (R264). -/
def drLive (c : W64) (rows : W64) : List Nat := (List.range (drRows c)).filter (fun i => rows.getLsbD (drRow0 c + i))

/-- The scratchpad lines the rows of an SP drain write, each once (R264). -/
def drLines (k : Crew) (base : Nat) (c rows : W64) : List Nat :=
  ((drLive c rows).flatMap (fun i => (List.range (drRowBytes c)).map (fun j => spAddr k.z (base + i * drPitch c + j) 0 1 / 128))).eraseDups

/-- The registers of a V drain (R264). -/
def drRegs (c : W64) : List Nat := (List.range (drCols c)).map (fun j => drVreg c + j)

/-- The reader of an instruction at issue (R171, R220, R264): acquires before it have filled, and no access of its threads to the bytes is
in flight. -/
def issueLook (s : State) (e : Env) : Look := fun i ps =>
  if piecesFull e.k ps && s.spReadReady e && ps.all (fun p => match p.1 with | .spad _ => true | .mem key => s.quietAt e.who e.m0 key p.2)
  then some (ps.flatMap (fun p => s.seen e i p.1 p.2)) else none

/-- The extent entries that an issued drain has read. -/
def State.noteExtents (t s : State) (e : Env) (m : MxOp) (ctl : W64) : State :=
  if !ctl.getLsbD 55 then t
  else (extentPieces s e.k m.shape m.sh (drRowList ctl)).foldl (fun t q => q.2.foldl (fun t p => t.noteSeen s e q.1 p.1 p.2) t) t

/-- Row extents for a drain, read at issue where SH = 1 (R264); a drain of a faulted context, which is discarded, reads none (R254). -/
def drExtents (s : State) (e : Env) (c : SCtx) (m : MxOp) (ctl : W64) : Rows :=
  if !ctl.getLsbD 55 then .mask (BitVec.allOnes 64)
  else if c.mxbad.isSome then .mask 0
  else validRows s e.k (issueLook s e) m.shape m.sh (drRowList ctl)

/-- The barrier offset of a captured MXBAR in a crew (R253). -/
def mxBarOff (k : Crew) (bar : W64) : Nat := spAddr k.z (bitsOf bar 31 0) 0 32

/-- An engine arrival at a crew's barrier under a captured MXBAR, where it is enabled. -/
def State.mxArrive (s : State) (ci : Nat) (bar : W64) (u : BarUpd) : State :=
  if !(bar.getLsbD 63) then s
  else
    match s.crews[ci]? with
    | some k => if k.z = 0 then s else s.barUpd ci (mxBarOff k bar) u
    | none => s

/-- The context of a matrix operation `id` records its fault and is faulted: what follows it in issue order is discarded (R254). -/
def State.mxRecord (s : State) (x id fn : Nat) (f : MxFault) : State :=
  s.modCtx x (fun c => { c with mxbad := some (match c.mxbad with | some n => min n id | none => id)
                                mxfault := if bitsOf c.mxfault 63 60 = 0 then BitVec.ofNat 64 (f.reason * 2 ^ 60 + fn * 2 ^ 57 + f.addr % 2 ^ 57) else c.mxfault })

/-- The context of an issuer records a fault of the operation that it issues. -/
def State.mxRecordBy (s : State) (e : Env) (fn : Nat) (f : MxFault) : State :=
  match e.who with | .ctx x => s.mxRecord x s.nextOp fn f | .warp _ _ => s

/-- A drain whose row extents cannot be read faults at issue: it empties no lane, arms no line, and arrives with FAULT (R254, R264). -/
def State.drainFault (s : State) (e : Env) (m : MxOp) (f : MxFault) : State :=
  (((s.mxRecordBy e 7 f).asOp (e.newOp s 1) (fun s => s.mxArrive e.ci m.bar (.arrive 1 true))).stepOpDone e.ci (some 1))

/-- A drain whose rows are known goes into flight: it empties its lanes, or arms its lines, and empties its accumulator (R264). -/
def State.startDrain (s : State) (e : Env) (fw : Warp) (lines : List Nat) (m : MxOp) : State :=
  let s1 := if m.dst = 2 then s.modWarp e.ci e.wi (fun w => w.setPending (drRegs m.c) m.lanes) else s
  let was := if m.dst = 2 then (drRegs m.c).map (fun r => (r, maskOf (fun i => (fw.lane r i).f), maskOf (fun i => (fw.lane r i).poison))) else []
  ((s1.modCrew e.ci (fun k => k.armLines lines)).noteExtents s e m m.c).issueMx e { m with lines := lines, was := was }

/-- ADRAIN at issue (R264). The poison of its scalar registers comes after the accumulator's conditions (R63, log entry 91). -/
def issueDrain (i : Instr) (s : State) (acc : Nat) (dst : Nat) (add : Bool) (sa sc : BitVec 6) : Host.Outcome State Fault Refusal :=
  run i s (fun e => do
    let ctl ← rdSw s e sc.toNat
    let base ← rdSw s e sa.toNat
    drCheck e ctl dst add
    accOk e acc
    if dst = 2 then regsOk e.k (drRegs ctl) else pure ()
    need (!(ctl.getLsbD 56) || s.accIsFull e.ci acc) (trapOf 3 (poisonInfo 2 0 (128 + acc)))
    waitUnless (s.accIsFull e.ci acc)
    sOk s e sa.toNat
    sOk s e sc.toNat
    let c ← theCtx s e
    let m := mxBase e c 7 acc
    match drExtents s e c m ctl with
    | .wait => .error .wait
    | .fault f => pure ((s.noteExtents s e m ctl).drainFault e m f)
    | .mask rows =>
      let fw ← theWarp s e
      let lanes := c.mask &&& maskOf (fun i => decide (i < drRows ctl) && rows.getLsbD (drRow0 ctl + i))
      let lines := if dst = 0 ∧ e.k.z ≠ 0 then drLines e.k base.toNat ctl rows else []
      if dst = 2 then dstFree fw (drRegs ctl) lanes else pure ()
      waitUnless (e.k.canArm lines)
      pure (s.startDrain e fw lines { m with
        x := base, c := ctl, dst := dst, add := add, rows := rows, lanes := lanes
        rm := if drRm ctl = 6 then c.rmode.toNat else drRm ctl }))

/-- ADRAIN.SP (R264). -/
def execAdrainSp (o : OpXDr) (s : State) : Host.Outcome State Fault Refusal := issueDrain (.adrainSp o) s o.acc.toNat 0 o.add o.sa o.sc
/-- ADRAIN.G (R264). -/
def execAdrainG (o : OpXDr) (s : State) : Host.Outcome State Fault Refusal := issueDrain (.adrainG o) s o.acc.toNat 1 o.add o.sa o.sc
/-- ADRAIN.V (R264). -/
def execAdrainV (o : OpXDrV) (s : State) : Host.Outcome State Fault Refusal := issueDrain (.adrainV o) s o.acc.toNat 2 false 0 o.sc

/-- How a matrix operation's work ends. -/
inductive MxEnd where
  | wait
  | fault (f : MxFault)
  | part (s : State)
  | done (s : State)

/-- The handle tile of a descriptor staged in crew `ci`, or the state unchanged for a reservation tile (R249, R259). -/
def fetchTile (s : State) (ci : Nat) (tab : Crew) (t : BitVec 128) : MxEnd :=
  match s.crews[ci]? with
  | none => .wait
  | some k =>
    if !(tdHandle t) then .done s
    else
      match handleMap s ci k tab kRead t (tdHidx t) (tdRow0 t) (tdCol0 t) with
      | .error none => .wait
      | .error (some f) => .fault f
      | .ok m => if mapFull k m then .done ((s.stage ci k m).entryJoined ci k tab (tdHidx t)) else .wait

/-- An accumulator of a crew. -/
def State.acc? (s : State) (ci a : Nat) : Option Acc := s.crews[ci]? >>= fun k => k.accs[a]?

/-- Replaces an accumulator. -/
def State.setAcc (s : State) (ci a : Nat) (x : Acc) : State := s.modCrew ci (fun k => { k with accs := modAt k.accs a (fun _ => x) })

/-- One product on a crew's engine: A from the crew, B from the reservation that `kb` holds (R259, R261). -/
def productOn (s : State) (ci : Nat) (kb : Option Crew) (scaled : Bool) (ta tb : BitVec 128) (mat : Bool) (acc : Nat) (rows : State → Crew → Rows) : MxEnd :=
  if !(pairOk scaled ta tb) then .fault ⟨4, 0⟩
  else
    match s.crews[ci]?, kb, s.acc? ci acc with
    | some ka, some kb, some a =>
      match rows s ka with
      | .wait => .wait
      | .fault f => .fault f
      | .mask m =>
        match product ka kb ta tb mat m a with
        | some a2 => .done (s.setAcc ci acc a2)
        | none => .fault ⟨3, 0⟩
    | _, _, _ => .fault ⟨4, 0⟩

/-- MMA and MMAS when their turn has come (R259). -/
def runProduct (s : State) (o : Op) (m : MxOp) : MxEnd :=
  if !(tdValid m.tda) ∨ !(tdValid m.tdb) then .fault ⟨4, 0⟩
  else
    match s.crews[o.crew]? with
    | none => .wait
    | some k =>
      match fetchTile s o.crew k m.tda with
      | .done s1 =>
        match fetchTile s1 o.crew k m.tdb with
        | .done s2 =>
          productOn (s2.opJoined o.crew ((extentPieces s2 k m.shape m.sh (List.range (tdRows m.tda))).flatMap Prod.snd)) o.crew (s2.crews[o.crew]?)
            (decide (m.fn = 4)) m.tda m.tdb m.mat m.acc (fun t q => validRows t q (opLook t o.crew q) m.shape m.sh (List.range (tdRows m.tda)))
        | x => x
      | x => x

/-- The limits of the TLD and TST registers (R258). -/
def moveOk (m : MxOp) : Bool :=
  decide (bitsOf m.x 63 16 = 0 ∧ bitsOf m.c 31 24 = 0 ∧ bitsOf m.c 63 48 = 0)

/-- One add-on-store element: the exact sum rounded once and flushed (R196, R264). -/
def addElem (mat : Bool) (f rm old : Nat) (x : W32) : Nat :=
  let r := finalRound (Ext.add rm (decodeFmt f old) (f32 x)) false f rm
  if mat && decide (r / 2 ^ (fmtMant f) % 256 = 0) then r / 2 ^ (fmtWidth f - 1) * 2 ^ (fmtWidth f - 1) else r

/-- The release sequences that the bytes at some places hold (R214). -/
def headsAt (s : State) (ci : Nat) (ps : List Spot) : List Head :=
  headsIn (ps.flatMap (fun p => s.lastWrites (p.loc ci).1 (p.loc ci).2 1 s.hist.length))

/-- Writes an element that an atomic unit adds to the bytes that stand there, which keeps their release sequences (R214); none where one
of them is poisoned (R196, R264). -/
def addShare (s : State) (ci : Nat) (m : MxOp) : List (List Spot × W32) → Option State
  | [] => some s
  | (ps, x) :: r =>
    match s.crews[ci]? with
    | none => none
    | some k =>
      let old := s.readPieces k (ps.map (fun p => (p, 1)))
      if old.any Prod.snd then none
      else addShare (((s.withHeads (headsAt s ci ps)).writeBytes ci
        (ps.zip (cleanBytes (natLe ps.length (addElem m.mat (drFmt m.c) m.rm (leNat (old.map Prod.fst)) x))))).withHeads []) ci m r

/-- The scratchpad lines among the places of a share. -/
def MxShare.lines (h : MxShare) : List Nat :=
  ((h.bytes.map Prod.fst ++ h.adds.flatMap Prod.fst).filterMap (fun p => match p with | .spad off => some (off / 128) | .mem _ => none)).eraseDups

/-- A line that an add-on-store reads is full for the operation: full, or armed by it alone (R171). -/
def mxLineOk (k : Crew) (m : MxOp) (line : Nat) : Bool :=
  k.lineFull line || (m.lines.contains line && decide ((k.lines.get line).toNat / 2 = 1))

/-- The first of the shares of a drain or a TST that are left is accepted (R169, R196); `last` follows the last of them. -/
def runShares (s : State) (o : Op) (m : MxOp) (last : State → State) : List MxShare → MxEnd
  | [] => .done (last s)
  | h :: r =>
    match s.crews[o.crew]? with
    | none => .wait
    | some k =>
      if h.adds ≠ [] ∧ !(h.lines.all (mxLineOk k m)) then .wait
      else
        match addShare s o.crew m h.adds with
        | none => .fault ⟨3, 0⟩
        | some s0 =>
          let ls := m.lines.filter (fun l => h.lines.contains l)
          let s1 := (s.asOne (s0.writeBytes o.crew h.bytes)).landLines o.crew ls
          if r = [] then .done (last s1)
          else .part (s1.modOp o.id (fun o => { o with eng := some (.mx { m with shares := some r, lines := m.lines.filter (fun l => !(ls.contains l)) }) }))

/-- Bytes as shares: a line or a block each (R169). -/
def plainShares (xs : List (Spot × MByte)) : List MxShare := (groupsBy (fun x => unitOf x.1) xs).map (fun g => ⟨g, []⟩)

/-- TLD and TST when their turn has come (R258). -/
def runMove (s : State) (o : Op) (m : MxOp) : MxEnd :=
  match m.shares with
  | some hs => runShares s o m id hs
  | none =>
    if !(tdValid m.tda) ∨ tdHandle m.tda then .fault ⟨4, 0⟩
    else if !(moveOk m) then .fault ⟨6, 0⟩
    else
      match s.crews[o.crew]? with
      | none => .wait
      | some k =>
        let s := s.entryJoined o.crew k k (bitsOf m.x 15 0)
        match handleMap s o.crew k k (if m.fn = 1 then kRead else kWrite) m.tda (bitsOf m.x 15 0) (bitsOf m.c 23 0) (bitsOf m.c 47 32) with
        | .error none => .wait
        | .error (some f) => .fault f
        | .ok mp =>
          if m.fn = 1 then (if mapFull k mp then .done (s.stage o.crew k mp) else .wait)
          else
            let xs := mp.flatMap (fun p => spotBytes p.2 (k.tileRd p.1 ((p.2.map Prod.snd).sum)))
            if xs.any (fun x => x.2.2) then .fault ⟨3, 0⟩ else runShares s o m id (plainShares xs)

/-- The elements of drained row i. -/
def drElems (a : Acc) (c : W64) (i : Nat) : List W32 :=
  (List.range (drCols c)).map (fun j => a.elems.get (64 * (drRow0 c + i) + (drCol0 c + j)))

/-- Codes packed in ascending order from the least significant bit (R30). -/
def packCodes (w : Nat) : List Nat → Nat
  | [] => 0
  | x :: r => x + 2 ^ w * packCodes w r

/-- The bytes of drained row i: final roundings, packed (R30, R264). -/
def drBytes (m : MxOp) (a : Acc) (i : Nat) : List Byte :=
  natLe (drRowBytes m.c) (packCodes (fmtWidth (drFmt m.c)) ((drElems a m.c i).map (fun x => finalRound (f32 x) false (drFmt m.c) m.rm)))

/-- Pieces of a drained row: scratchpad offsets byte by byte for SP, an address for G (R264). -/
def drPieces (s : State) (k : Crew) (m : MxOp) (i : Nat) : Except MxFault (List (Spot × Nat)) :=
  let base := m.x.toNat + i * drPitch m.c
  if m.dst = 0 then .ok ((List.range (drRowBytes m.c)).map (fun j => (.spad (spAddr k.z (base + j) 0 1), 1)))
  else mxPieces s k (if m.add then kAtomic else kWrite) base (drRowBytes m.c)

/-- The pieces of every drained row, all translated before any byte is written. -/
def drMap (s : State) (k : Crew) (m : MxOp) : List Nat → Except MxFault (List (Nat × List (Spot × Nat)))
  | [] => .ok []
  | i :: r => do
    let p ← drPieces s k m i
    let rest ← drMap s k m r
    pure ((i, p) :: rest)

/-- The places of a row's elements with what is added there. -/
def drAdds (m : MxOp) (a : Acc) (i : Nat) (ps : List (Spot × Nat)) : List (List Spot × W32) :=
  let n := fmtWidth (drFmt m.c) / 8
  let ws := ps.flatMap (fun p => (List.range p.2).map p.1.plus)
  mapFrom (fun j x => ((ws.drop (n * j)).take n, x)) 0 (drElems a m.c i)

/-- What a drain writes, share by share: by line or block, or for add-on-store by home port, an element at the port of its first byte
(R169, R196, R264; log entry 93). -/
def drShares (m : MxOp) (a : Acc) (mp : List (Nat × List (Spot × Nat))) : List MxShare :=
  if m.add then
    (groupsBy (fun (x : List Spot × W32) => match x.1 with | p :: _ => portOf p | [] => (0, 0)) (mp.flatMap (fun p => drAdds m a p.1 p.2))).map
      (fun g => ⟨[], g⟩)
  else plainShares (mp.flatMap (fun p => spotBytes p.2 (cleanBytes (drBytes m a p.1))))

/-- A drained element is poisoned. -/
def drBad (a : Acc) (c rows : W64) : Bool :=
  (drLive c rows).any (fun i => (List.range (drCols c)).any (fun j => decide (a.poison.get (64 * (drRow0 c + i) + (drCol0 c + j)) ≠ 0)))

/-- What a lane of a V drain receives in register j (R264). -/
def drLane (a : Acc) (c : W64) (i j : Nat) : Lane :=
  let p := 64 * (drRow0 c + i) + (drCol0 c + j)
  let x := a.elems.get p
  let l := if drFmt c = 0 then Lane.full x false else carried (carry (f32 x) false (drFmt c))
  { l with poison := decide (a.poison.get p ≠ 0) }

/-- A cleared accumulator. -/
def Acc.cleared (a : Acc) : Acc := { a with elems := [], poison := [] }

/-- ADRAIN when its turn has come (R264). -/
def runDrain (s : State) (o : Op) (m : MxOp) : MxEnd :=
  match s.crews[o.crew]?, s.acc? o.crew m.acc with
  | some k, some a =>
    let clr := fun (t : State) => if m.c.getLsbD 54 then t.setAcc o.crew m.acc a.cleared else t
    match m.shares with
    | some hs => runShares s o m clr hs
    | none =>
      if m.dst = 2 then
        .done (clr (s.modWarp o.crew o.warp (fun w =>
          mapFrom (fun j r => (j, r)) 0 (drRegs m.c) |>.foldl (fun w p => w.setLanes p.2 m.lanes (fun i => drLane a m.c i p.1)) w)))
      else if drBad a m.c m.rows then .fault ⟨3, 0⟩
      else
        match drMap s k m (drLive m.c m.rows) with
        | .error f => .fault f
        | .ok mp => runShares s o m clr (drShares m a mp)
  | _, _ => .wait

/-- The lanes of register `r` as they were before a drain emptied them. -/
def Warp.refill (w : Warp) (lanes : W64) (q : Nat × W64 × W64) : Warp :=
  { w with regs := modAt w.regs q.1 (fun v => mapFrom (fun i l =>
      if lanes.getLsbD i then { l with f := q.2.1.getLsbD i, poison := q.2.2.getLsbD i, pend := false } else l) 0 v) }

/-- What a drain emptied comes back when it does nothing: its lanes are as they were, its lines are released (R254). -/
def State.undoDrain (s : State) (o : Op) (m : MxOp) : State :=
  let s1 := s.landLines o.crew m.lines
  if m.was = [] then s1 else s1.modWarp o.crew o.warp (fun w => m.was.foldl (fun w q => w.refill m.lanes q) w)

/-- The operation ends: its accumulators follow what is still outstanding, and it arrives (R251 to R254). -/
def State.mxFinish (s : State) (o : Op) (m : MxOp) (fault : Bool) : State :=
  let s1 := (s.modOp o.id (fun o => { o with eng := none })).sweepOp o.id
  let s2 := if m.acc < 8 then s1.refreshAccs (m.crews o.crew) m.acc else s1
  let s3 := (m.crews o.crew).foldl (fun s c => s.mxArrive c m.bar (.arrive 1 fault)) s2
  s3.stepOpDone o.crew (if fault then some 1 else none)

/-- No drain of another operation than `id` that has begun still moves the accumulator `a` of crew `ci`, of which it is one indivisible
operation (R250). -/
def State.accFree (s : State) (id ci a : Nat) : Bool :=
  s.ops.all (fun q => decide (q.id = id ∨ q.crew ≠ ci) ||
    (match q.eng with | some (.mx m) => !(decide (m.fn = 7 ∧ m.acc = a) && m.shares.isSome) | _ => true))

/-- The matrix operation `id` whose turn it is in its context, of a kind `p` (R245), and at its accumulator (R250): its operation, its
parts, its context's index. -/
def State.mxTurn (s : State) (id : Nat) (p : Nat → Bool) : Option (Op × MxOp × Nat) :=
  match s.op? id with
  | none => none
  | some o =>
    match o.eng, o.who with
    | some (.mx m), .ctx x =>
      if p m.fn ∧ s.forked o ∧ (m.fn = 5 ∨ s.accFree id o.crew m.acc) ∧ s.ops.all (fun q => decide (q.who ≠ o.who ∨ q.id ≥ o.id) || (match q.eng with | some (.mx _) => false | _ => true))
      then some (o, m, x) else none
    | _, _ => none

/-- The context is faulted, and its operation `id` follows the fault in issue order (R254). -/
def State.ctxBad (s : State) (x id : Nat) : Bool :=
  match s.ctxs[x]? with | some c => (match c.mxbad with | some n => decide (n ≤ id) | none => false) | none => false

/-- A matrix operation other than MMAG whose turn it is completes, faults or is discarded (R254). -/
def State.mxEnd (s : State) (o : Op) (m : MxOp) (x : Nat) (work : State → Op → MxOp → MxEnd) : State :=
  if s.ctxBad x o.id then (s.undoDrain o m).mxFinish o m true
  else
    match work s o m with
    | .wait => s
    | .fault f => ((s.undoDrain o m).mxRecord x o.id m.fn f).mxFinish o m true
    | .part s1 => s1
    | .done s1 => s1.mxFinish o m false

/-- The same, where it is the operation's turn: what it reads and writes are events of its thread (R210). -/
def mxComplete (s : State) (id : Nat) (p : Nat → Bool) (work : State → Op → MxOp → MxEnd) : State :=
  match s.mxTurn id p with
  | none => s
  | some (o, m, x) => s.asOp o (fun s => s.mxEnd o m x work)

/-- MMA_COMPLETE: an MMA or MMAS ends (R259). -/
def execMmaComplete (op : Nat) (s : State) : Host.Outcome State Fault Refusal :=
  .next (mxComplete s op (fun f => decide (f = 3 ∨ f = 4)) runProduct)
/-- ACLR_COMPLETE: every element +0, poison clear (R263). -/
def execAclrComplete (op : Nat) (s : State) : Host.Outcome State Fault Refusal :=
  .next (mxComplete s op (fun f => decide (f = 6)) (fun s o m =>
    match s.acc? o.crew m.acc with | some a => .done (s.setAcc o.crew m.acc a.cleared) | none => .wait))
/-- ADRAIN_COMPLETE (R264). -/
def execAdrainComplete (op : Nat) (s : State) : Host.Outcome State Fault Refusal :=
  .next (mxComplete s op (fun f => decide (f = 7)) runDrain)
/-- TLD_COMPLETE (R258). -/
def execTldComplete (op : Nat) (s : State) : Host.Outcome State Fault Refusal :=
  .next (mxComplete s op (fun f => decide (f = 1)) runMove)
/-- TST_COMPLETE (R258). -/
def execTstComplete (op : Nat) (s : State) : Host.Outcome State Fault Refusal :=
  .next (mxComplete s op (fun f => decide (f = 2)) runMove)

/-- One slice of an MMAG on its member's engine: whether it commits (R261). -/
def runSlice (s : State) (o : Op) (m : MxOp) (x : Slice) : MxEnd :=
  match s.crews[x.crew]?, s.crews[o.crew]? with
  | some km, some ki =>
    if km.st ≠ .running ∨ !(pairOk false x.td m.tdb) then .fault ⟨4, 0⟩
    else if tdHandle m.tdb ∧ (1024 * km.image.tilekib < tdRowsEnd m.tdb ∨ 1024 * km.image.tilekib < tdScalesEnd m.tdb) then .fault ⟨4, 0⟩
    else
      match fetchTile s x.crew km x.td with
      | .done s1 =>
        match fetchTile s1 x.crew ki m.tdb with
        | .done s2 =>
          let kb := if tdHandle m.tdb then s2.crews[x.crew]? else m.btile.map (fun b => { ki with tile := b.1, tilePoison := b.2 })
          productOn s2 x.crew kb false x.td m.tdb m.mat m.acc (fun _ _ => .mask (BitVec.allOnes 64))
        | y => y
      | y => y
  | _, _ => .fault ⟨4, 0⟩

/-- The indices of lost slices. -/
def lostSlices (ms : List Slice) : List Nat :=
  (List.range ms.length).filter (fun i => match ms[i]? with | some x => decide (x.ended = some false) | none => false)

/-- Every slice has ended: each member's barrier gets its arrival and the loss record (R261). -/
def State.gangFinish (s : State) (o : Op) (m : MxOp) (x : Nat) : State :=
  let lost := lostSlices m.members
  let bad := decide (lost ≠ [])
  let s0 := if bad then s.modCtx x (fun c => { c with mxglost := maskOf (fun i => lost.contains i) }) else s
  let s1 := (s0.modOp o.id (fun o => { o with eng := none })).sweepOp o.id
  let s2 := s1.refreshAccs (m.crews o.crew) m.acc
  let s3 := m.members.foldl (fun s q => s.mxArrive q.crew m.bar
    (.gang (if q.crew = o.crew then some o.warp else none) (lost.headD 0) bad)) s2
  s3.stepOpDone o.crew (if bad then some 1 else none)

/-- The issuing engine reads a reservation tile B once, before its first slice (R261). -/
def MxOp.withB (m : MxOp) (s : State) (o : Op) : MxOp :=
  if tdHandle m.tdb ∨ m.btile ≠ none then m else { m with btile := s.crews[o.crew]?.map (fun k => (k.tile, k.tilePoison)) }

/-- The slice of an MMAG on member `i` ends, and the MMAG with the last of them (R261). -/
def State.sliceEnd (s : State) (o : Op) (m : MxOp) (x i : Nat) (ok : Bool) : State :=
  match m.members[i]? with
  | none => s
  | some q =>
    let m2 := { m with members := modAt m.members i (fun q => { q with ended := some ok }) }
    let t1 := (s.modOp o.id (fun o => { o with eng := some (.mx m2) })).refreshAcc q.crew m.acc
    if m2.members.all (fun q => q.ended.isSome) then t1.gangFinish o m2 x else t1

/-- A slice of an MMAG whose turn it is runs at its member's accumulator (R250, R261). -/
def State.sliceRun (s : State) (o : Op) (m : MxOp) (x i : Nat) : State :=
  match m.members[i]? with
  | none => s
  | some q =>
    if q.ended ≠ none ∨ !(s.accFree o.id q.crew m.acc) then s
    else
      let mb := m.withB s o
      match runSlice s o mb q with
      | .fault _ => s.sliceEnd o mb x i false
      | .done s1 => s1.sliceEnd o mb x i true
      | _ => s

/-- MMAG_SLICE_COMPLETE: one member's slice ends; a discarded MMAG ends whole (R254, R261). -/
def execMmagSliceComplete (op member : Nat) (s : State) : Host.Outcome State Fault Refusal :=
  .next (match s.mxTurn op (fun f => decide (f = 5)) with
    | none => s
    | some (o, m, x) => s.asOp o (fun s => if s.ctxBad x o.id then s.mxFinish o m true else s.sliceRun o m x member))

end Sys2Proof.Machine
end

