-- ==== Sys2Proof/Machine/Seqr.lean ====
section
/-! DEFINITION. Sequencer contexts and shape registers as instructions, and the end of contexts (R266 to R279). -/
namespace Sys2Proof.Machine

/-- The contexts of a kind that crews hold on the crew's core (R266). -/
def State.heldCtxs (s : State) (k : Crew) (matrix : Bool) : Nat :=
  (s.ctxs.filter (fun c => decide (c.matrix = matrix ∧ c.st ≠ .ended)
    && s.crewIs (fun q => decide (q.die = k.die ∧ q.core = k.core ∧ q.st = .running)) c.crew)).length

/-- A context of each needed kind is free on the core (R266). -/
def State.ctxFree (s : State) (k : Crew) (m c : Bool) : Bool :=
  (!m || decide (s.heldCtxs k true < 4)) && (!c || decide (s.heldCtxs k false < 4))

/-- A waiting FORK still stands at its instruction. -/
def State.forkLive (s : State) (f : ForkWait) : Bool :=
  match s.warp? f.crew f.warp with
  | some w => s.crewIs (fun k => decide (k.st = .running)) f.crew &&
      w.frontier.any (fun e => decide (e.pc = f.pc ∧ e.st = .ready ∧ e.mask &&& f.mask ≠ 0))
  | none => false

/-- A FORK of the core that waited before this one needs one of the same kinds: one that has not waited yet comes after those that have
(R266, log entry 112). -/
def State.forkAhead (s : State) (e : Env) (m c : Bool) : Bool :=
  (s.forkQ.takeWhile (fun f => !(decide (f.crew = e.ci ∧ f.warp = e.wi ∧ f.pc = e.pc)))).any (fun f =>
    s.forkLive f && ((m && f.m) || (c && f.c)) && s.crewIs (fun k => decide (k.die = e.k.die ∧ k.core = e.k.core)) f.crew)

/-- A context as FORK starts it (R267). -/
def newCtx (s : State) (e : Env) (w : Warp) (matrix : Bool) (rid pc : Nat) : SCtx :=
  { matrix := matrix, st := .running, wasTrapped := false, joined := false, crew := e.ci, warp := e.wi, mask := e.m0
    rid := rid, pc := BitVec.ofNat 32 pc, sregs := w.sregs, spend := 0, spoison := 0, loops := [], rmode := w.rmode, ftz := w.ftz
    wait := none, mxbar := 0, mxshape := 0, mxgang := 0, mxfault := 0, mxglost := 0, mxbad := none, forkOp := s.nextOp
    cause := 0, tpc := 0, info := 0 }

/-- The lowest poisoned scalar register. -/
def lowScalar (m : W64) : Option Nat := (lanesOf m).head?

/-- FORK: starts the contexts, or waits its turn in place where a pool is empty (R266, R271). -/
def fork (i : Hdr) (s : State) (rid : BitVec 6) (m c : Option Nat) : Host.Outcome State Fault Refusal :=
  runCtlH i s (fun e => do
    need ((m.isNone || decide (e.k.image.matLen ≠ 0)) && (c.isNone || decide (e.k.image.copyLen ≠ 0))) (e.ill 6)
    let w ← theWarp s e
    waitUnless (decide (w.spend = 0))
    match lowScalar w.spoison with
    | some r => .error (trapOf 11 (poisonInfo 2 0 r))
    | none =>
      let mine := fun (f : ForkWait) => decide (f.crew = e.ci ∧ f.warp = e.wi ∧ f.pc = e.pc)
      if s.ctxFree e.k m.isSome c.isSome && !(s.forkAhead e m.isSome c.isSome) then
        let news := (match m with | some pc => [newCtx s e w true rid.toNat pc] | none => [])
          ++ (match c with | some pc => [newCtx s e w false rid.toNat pc] | none => [])
        pure (({ s with ctxs := s.ctxs ++ news, forkQ := s.forkQ.filter (fun f => !(mine f)) } : State).jump e e.npc)
      else if s.forkQ.any mine then .error .wait
      else pure { s with forkQ := s.forkQ.filter s.forkLive ++ [⟨e.ci, e.wi, e.pc, e.m0, m.isSome, c.isSome⟩] })

/-- FORK.M (R271). -/
def execForkM (o : OpX3) (s : State) : Host.Outcome State Fault Refusal :=
  fork (baseHdr (0xF9 + putX3 o)) s o.a (some (16 * (o.b.toNat + 64 * o.c.toNat))) none
/-- FORK.C (R271). -/
def execForkC (o : OpX3) (s : State) : Host.Outcome State Fault Refusal :=
  fork (baseHdr (0x40000F9 + putX3 o)) s o.a none (some (16 * (o.b.toNat + 64 * o.c.toNat)))
/-- FORK.MC (R271). -/
def execForkMc (o : OpX3) (s : State) : Host.Outcome State Fault Refusal :=
  fork (baseHdr (0x80000F9 + putX3 o)) s o.a (some (16 * o.b.toNat)) (some (16 * o.c.toNat))

/-- A context that the RDVZ joins (R272). -/
def rdvzJoins (e : Env) (rid : Nat) (c : SCtx) : Bool := decide (c.crew = e.ci ∧ c.warp = e.wi ∧ c.rid = rid ∧ c.joined = false)

/-- The status RDVZ writes (R272). -/
def rdvzStatus (cs : List SCtx) : W64 :=
  let nt := (cs.filter (fun c => c.wasTrapped)).length
  let nf := (cs.filter (fun c => c.matrix && !c.wasTrapped && decide (bitsOf c.mxfault 63 60 ≠ 0))).length
  BitVec.ofNat 64 (nt % 256 * 2 ^ 56 + nf % 256 * 2 ^ 48 + cs.length % 256 * 2 ^ 40)

/-- The writes that happen before the ends of the contexts that an RDVZ joins (R218, R272). -/
def State.rdvzPast (s : State) (e : Env) (rid : Nat) : List Nat :=
  unionOf (((List.range s.ctxs.length).filter (fun x => match s.ctxs[x]? with | some c => rdvzJoins e rid c | none => false)).map s.ctxAll)

/-- RDVZ: waits for the contexts of its ID, joins them, and reports (R272). -/
def execRdvz (o : OpX2) (s : State) : Host.Outcome State Fault Refusal :=
  runH (baseHdr (0xC0000F9 + putX2 o)) s (fun e => do
    freeS s e o.a.toNat
    let cs := s.ctxs.filter (rdvzJoins e o.b.toNat)
    waitUnless (cs.all (fun c => decide (c.st = .ended)))
    let s0 : State := { s with ctxs := s.ctxs.map (fun c => if rdvzJoins e o.b.toNat c then { c with joined := true } else c) }
    let s1 := s0.joined e.who e.m0 (s.rdvzPast e o.b.toNat)
    let s2 := match cs.find? (fun c => c.wasTrapped) with
      | some c => s1.modWarp e.ci e.wi (fun w => { w with sqtcause := c.cause, sqtpc := c.tpc, sqtinfo := c.info })
      | none => s1
    pure (s2.setS e.who o.a.toNat (rdvzStatus cs)))

/-- Nothing of the context is outstanding, or withdrawn until its crew's restore (R273, R288). -/
def State.ctxIdle (s : State) (x : Nat) : Bool := (s.ops ++ s.withdrawn).all (fun o => decide (o.who ≠ .ctx x))

/-- SEQEND: the context issues nothing more and ends once its operations have (R273). -/
def execSeqend (s : State) : Host.Outcome State Fault Refusal :=
  runCtlH (baseHdr 0x100000F9) s (fun e =>
    match e.who with
    | .ctx x => .ok (s.modCtx x (fun c => { c with st := .ending }))
    | .warp _ _ => .error .wait)

/-- A context in state `st` whose operations have all ended ends, unless its crew is saved (R288). -/
def State.endCtx (s : State) (x : Nat) (st : CtxSt) : State :=
  match s.ctxs[x]? with
  | some c => if c.st = st ∧ s.ctxIdle x ∧ s.crewIs (fun k => decide (k.st ≠ .saved)) c.crew then s.modCtx x (fun c => { c with st := .ended }) else s
  | none => s

/-- SEQUENCER_CONTEXT_END (R273). -/
def execSequencerContextEnd (ctx : Nat) (s : State) : Host.Outcome State Fault Refusal := .next (s.endCtx ctx .ending)
/-- SEQUENCER_TRAP_END: a trapped context ends as if at SEQEND (R269). -/
def execSequencerTrapEnd (ctx : Nat) (s : State) : Host.Outcome State Fault Refusal := .next (s.endCtx ctx .trapped)

/-- The four 16-byte parts of a place. -/
def shParts (p : Spot) : List (Nat × Spot) := (List.range 4).map (fun j => (j, p.plus (16 * j)))

/-- SHLD: 64 bytes into a shape register, each 16-byte part single-copy atomic, before the next instruction; it waits for the accesses of
its warp to the bytes; poisoned data traps (R278, R413). The scratchpad port takes its access as one (R169). -/
def execShld (o : OpXSh) (s : State) : Host.Outcome State Fault Refusal :=
  runH (baseHdr (0x140000F9 + putXSh o)) s (fun e => do
    let a ← rdS s e o.sa.toNat
    let ps ← resolve s e (fun _ => a.toNat) 64 kRead [0]
    waitUnless (spotsFull e.k 64 ps && s.spReadReady e)
    let put := fun (t : State) (bs : List MByte) =>
      t.modCrew e.ci (fun k => { k with sh := modAt k.sh o.sh.toNat (fun _ => BitVec.ofNat 512 (leNat (bs.map Prod.fst))) })
    match ps with
    | (_, .spad off) :: _ =>
      need (!(e.k.spBad off 64)) (spPoison off)
      pure (put (s.noteSeen s e 0 (.spad off) 64) (s.seen e 0 (.spad off) 64))
    | (_, .mem key) :: _ =>
      waitUnless (s.quietAt e.who (BitVec.allOnes 64) key 64)
      need (!(s.bad key 64)) (memPoisonTrap (alignDown a.toNat 64))
      pure (put ((shParts (.mem key)).foldl (fun t q => t.noteSeen s e q.1 q.2 16) s) ((shParts (.mem key)).flatMap (fun q => s.seen e q.1 q.2 16)))
    | [] => pure s)

/-- The bits of a shape record that a field code names (R276, R279): high and low. -/
def shField (f : Nat) : Nat × Nat :=
  match f with
  | 0 => (2, 0)
  | 1 => (7, 4)
  | 2 => (159, 128)
  | 3 => (191, 160)
  | 4 => (223, 192)
  | 5 => (255, 224)
  | 6 => (351, 304)
  | 7 => (399, 352)
  | 8 => (447, 400)
  | _ => (511, 448)

/-- SHSET: one field of a shape register (R279). -/
def execShset (o : OpXShs) (s : State) : Host.Outcome State Fault Refusal :=
  runH (baseHdr (0x180000F9 + putXShs o)) s (fun e => do
    let v ← rdS s e o.sv.toNat
    let q := shField o.f.toNat
    pure (s.modCrew e.ci (fun k => { k with sh := modAt k.sh o.sh.toNat (fun r => BitVec.ofNat 512 (setBits r.toNat q.1 q.2 v.toNat)) })))

end Sys2Proof.Machine
end

