-- ==== Sys2Proof/Machine/CopyEng.lean ====
section
/-! DEFINITION. The copy engine: COPY, GATHER, SCATTER and MCAST, moved part by part (R280 to R289). -/
namespace Sys2Proof.Machine

/-- Fields of the control word (R281, R287). -/
def cpBar (c : W64) : Nat := bitsOf c 63 48
def cpNidx (c : W64) : Nat := bitsOf c 47 32
def cpDk (c : W64) : Nat := bitsOf c 31 30
def cpSk (c : W64) : Nat := bitsOf c 29 28
def cpExp (c : W64) : Bool := c.getLsbD 26
def cpBen (c : W64) : Bool := c.getLsbD 25
def cpLen (c : W64) : Nat := bitsOf c 22 0
def cpSh (c : W64) : Nat := bitsOf c 23 20
def cpIdx (c : W64) : Nat := bitsOf c 19 0

/-- Bytes of a tensor row (R285). -/
def cpRow (c : CpOp) : Nat := shF c.sh 159 128 * fmtWidth (shF c.sh 7 4) / 8

/-- The total byte count; for MCAST of one receiver times the receivers. -/
def CpOp.total (c : CpOp) : Nat :=
  if c.fn = 7 then cpLen c.ctl else if c.fn = 10 then cpLen c.ctl * c.recv.length else cpNidx c.ctl * cpRow c

/-- A shape record is well-formed (R277). -/
def shWf (r : BitVec 512) : Bool :=
  let k := shF r 2 0
  decide (1 ≤ k ∧ k ≤ 4 ∧ shF r 7 4 ≤ 11 ∧ shF r 3 3 = 0 ∧ shF r 127 8 = 0 ∧ shF r 303 256 = 0)
    && decide (shF r 159 128 * fmtWidth (shF r 7 4) % 8 = 0)
    && (decide (1 < k) || decide (shF r 191 160 = 1 ∧ shF r 351 304 = 0))
    && (decide (2 < k) || decide (shF r 223 192 = 1 ∧ shF r 399 352 = 0))
    && (decide (3 < k) || decide (shF r 255 224 = 1 ∧ shF r 447 400 = 0))

/-- The barrier of a control word in a crew (R281). -/
def cpBarOff (k : Crew) (c : W64) : Nat := spAddr k.z (32 * cpBar c) 0 32

/-- An engine update of the operation's barrier, where it accounts there. -/
def State.cpBarUpd (s : State) (ci : Nat) (ctl : W64) (u : BarUpd) : State :=
  match s.crews[ci]? with
  | some k => if cpBen ctl && decide (k.z ≠ 0) then s.barUpd ci (cpBarOff k ctl) u else s
  | none => s

/-- The checks of R281 that the four forms share. -/
def cpCheck (e : Env) (c : CpOp) : Exe Unit := do
  let ctl := c.ctl
  let cap := 1024 * e.k.image.tilekib
  need (decide (bitsOf ctl 27 27 = 0 ∧ bitsOf ctl 24 24 = 0) && (!(cpExp ctl) || cpBen ctl)) (e.ill 6)
  need (decide (c.fn = 10) || decide (cpDk ctl ≤ 1 ∧ cpSk ctl ≤ 1)) (e.ill 6)
  need (decide (c.fn = 8 ∨ c.fn = 9) || decide (bitsOf ctl 23 23 = 0)) (e.ill 6)
  need (match c.fn with
    | 7 => decide (cpNidx ctl = 0)
    | 8 => decide (cpSk ctl = 0 ∧ cpNidx ctl ≠ 0) && shWf c.sh
    | 9 => decide (cpDk ctl = 0 ∧ cpNidx ctl ≠ 0) && shWf c.sh
    | _ => decide (bitsOf ctl 47 36 = 0 ∧ bitsOf ctl 31 28 = 0) && cpBen ctl && !(cpExp ctl)) (e.ill 6)
  need (decide (c.fn = 10 ∨ c.total ≤ 2 ^ 23 - 1)) (e.ill 6)
  need (decide (c.fn = 10 ∨ cpDk ctl = 0 ∨ c.dst % 2 ^ 18 + c.total ≤ cap)) (e.ill 6)
  need (decide (c.fn = 10 ∨ cpSk ctl = 0 ∨ c.src % 2 ^ 18 + c.total ≤ cap)) (e.ill 6)

/-- The aperture holds the address (R199). -/
def inAperture (a : Nat) : Bool := decide (a % 2 ^ 64 / 2 ^ 32 = 0xFFFFFFFF)

/-- The first address of each 128-byte line among `n` bytes at `a`. -/
def lineStarts (a n : Nat) : List Nat :=
  if n = 0 then [] else (List.range ((a + n + 127) / 128 - a / 128)).map (fun i => max a ((a / 128 + i) * 128))

/-- The destination lines of the issuing crew's scratchpad, each once (R170, R280). -/
def cpLines (k : Crew) (c : CpOp) : List Nat :=
  if k.z = 0 ∨ (c.fn ≠ 7 ∧ c.fn ≠ 8) ∨ cpDk c.ctl = 1 then []
  else (((lineStarts c.dst c.total).filter inAperture).map (fun a => spAddr k.z (a % 2 ^ 32) 0 1 / 128)).eraseDups

/-- A copy-engine operation: COPY to MCAST, KVGATHER, KVAPPEND, PUT, GET and REDNET (R280, R311, R313, R381). -/
def Op.isCopy (o : Op) : Bool :=
  match o.eng with
  | some (.cp _) => true
  | some (.kg _) => true
  | some (.ka _) => true
  | some (.net _) => true
  | _ => false

/-- The operations in flight in the copy engine of a crew's core (R280). -/
def State.cpCount (s : State) (k : Crew) : Nat :=
  (s.ops.filter (fun o => o.isCopy && s.crewIs (fun q => decide (q.die = k.die ∧ q.core = k.core ∧ q.st ≠ .saved)) o.crew)).length

/-- The ranges an operation begins with: one, a row each for SCATTER, a receiver each for MCAST. -/
def CpOp.ranges (c : CpOp) : List (Nat × Nat) :=
  if c.fn = 9 then ((List.range (cpNidx c.ctl)).map (fun j => (j * cpRow c, cpRow c))).filter (fun r => decide (r.2 ≠ 0))
  else if c.fn = 10 then ((List.range c.recv.length).map (fun j => (j * cpLen c.ctl, cpLen c.ctl))).filter (fun r => decide (r.2 ≠ 0))
  else if c.total = 0 then [] else [(0, c.total)]

/-- The steps of R280 at issue, in their order. -/
def State.issueCp (s : State) (e : Env) (c : CpOp) : State :=
  let s1 := s.modCrew e.ci (fun k => k.armLines c.lines)
  let s2 := if cpExp c.ctl then s1.cpBarUpd e.ci c.ctl (.expect c.total) else s1
  if c.ranges = [] then s2
  else s2.addOp { e.newOp s e.m0 with eng := some (.cp { c with left := c.ranges, unread := c.ranges }) }

/-- A captured operation of which nothing has been done. -/
def CpOp.fresh (fn : Nat) (dst src ctl : W64) (sh : BitVec 512) : CpOp :=
  { fn := fn, dst := dst.toNat, src := src.toNat, ctl := ctl, sh := sh, left := [], lines := [], begun := false, part := false, recv := []
    unread := [], data := [], marks := [], dies := [], idx := [], owed := [], bad := false, tried := none }

/-- The captured operation of COPY, GATHER and SCATTER. -/
def cpBase (e : Env) (fn : Nat) (dst src ctl : W64) : CpOp :=
  CpOp.fresh fn dst src ctl (if fn = 7 then 0 else e.k.sh.getD (cpSh ctl) 0)

/-- COPY, GATHER and SCATTER at issue (R280, R281). -/
def copyOp (i : Hdr) (s : State) (o : OpX3) (fn : Nat) : Host.Outcome State Fault Refusal :=
  runH i s (fun e => do
    let dst ← rdS s e o.a.toNat
    let src ← rdS s e o.b.toNat
    let ctl ← rdS s e o.c.toNat
    let c := cpBase e fn dst src ctl
    cpCheck e c
    let ls := cpLines e.k c
    waitUnless (decide (s.cpCount e.k < 64) && e.k.canArm ls)
    pure (s.issueCp e { c with lines := ls }))

/-- COPY (R284). -/
def execCopy (o : OpX3) (s : State) : Host.Outcome State Fault Refusal := copyOp (baseHdr (0x1C0000F9 + putX3 o)) s o 7
/-- GATHER (R285). -/
def execGather (o : OpX3) (s : State) : Host.Outcome State Fault Refusal := copyOp (baseHdr (0x200000F9 + putX3 o)) s o 8
/-- SCATTER (R286). -/
def execScatter (o : OpX3) (s : State) : Host.Outcome State Fault Refusal := copyOp (baseHdr (0x240000F9 + putX3 o)) s o 9

/-- The crew of a launch with a crew index, if it has been placed. -/
def State.crewOf (s : State) (launch crewid : Nat) : Option Nat :=
  (s.launchCrews launch).find? (s.crewIs (fun k => decide (k.crewid = crewid)))

/-- An MCAST list entry (R287), and whether it expects its bytes. -/
def mcEntry (s : State) (k : Crew) (x : Nat) : McDst × Bool :=
  let id := bits x 47 32
  let ended := match s.crewOf k.launch id with | some c => s.crewIs (fun q => decide (q.st = .ended)) c | none => false
  let ok := decide (bits x 63 48 = 0 ∧ bits x 31 1 = 0 ∧ id < k.ncrews) && !ended
  (⟨id, bits x 95 64, bits x 127 96, ok⟩, decide (bits x 0 0 = 1))

/-- The entry's offset in the sender's scratchpad. -/
def mcOff (k : Crew) (list i : Nat) : Nat := spAddr k.z (alignDown list 16 + 16 * i) 0 16

/-- An update of the barrier of an MCAST's receiver (R287): for a crew that has not been placed it waits until it is. -/
def State.mcUpd (s : State) (launch : Nat) (d : McDst) (u : BarUpd) : State :=
  match s.crewOf launch d.crew with
  | some r => (match s.crews[r]? with | some k => if k.z = 0 then s else s.barUpd r (spAddr k.z d.rbar 0 32) u | none => s)
  | none => { s with coming := s.coming ++ [(launch, d.crew, d.rbar / 32, u, s.actSeen)] }

/-- The barrier unit of a receiver's die can hold no expectation for it while it is saved (R406). -/
def State.mcHeld (s : State) (launch : Nat) (d : McDst) : Bool :=
  match s.crewOf launch d.crew with
  | some c => s.crewIs (fun k => decide (k.st = .saved) && s.holdFull k.die) c
  | none => false

/-- CPFAULT takes the first fault (R274, R282). -/
def Crew.cpRecord (k : Crew) (reason fn addr : Nat) : Crew :=
  if bitsOf k.cpfault 63 60 = 0 then { k with cpfault := BitVec.ofNat 64 (reason * 2 ^ 60 + fn * 2 ^ 56 + addr % 2 ^ 56) } else k

/-- An entry that can deliver nothing, or `n` bytes of it nothing more, is acknowledged with FAULT (R287). -/
def State.mcRefuse (s : State) (ci : Nat) (ctl : W64) (n : Nat) : State :=
  (s.cpBarUpd ci ctl (.ack n 66)).modCrew ci (fun k => k.cpRecord 3 10 0)

/-- MCAST at issue: the list is read, the receivers' expectations are made (R287). -/
def execMcast (o : OpX3) (s : State) : Host.Outcome State Fault Refusal :=
  runH (baseHdr (0x280000F9 + putX3 o)) s (fun e => do
    let src ← rdS s e o.a.toNat
    let lst ← rdS s e o.b.toNat
    let ctl ← rdS s e o.c.toNat
    let n := bitsOf ctl 35 32 + 1
    let c0 := CpOp.fresh 10 lst src ctl 0
    cpCheck e c0
    let offs := (List.range n).map (mcOff e.k lst.toNat)
    waitUnless (decide (s.cpCount e.k < 64) && offs.all (fun a => e.k.linesFull a 16))
    let ents := offs.map (fun a => mcEntry s e.k (e.k.spRd a 16))
    waitUnless (ents.all (fun d => !(d.1.ok && d.2 && s.mcHeld e.k.launch d.1)))
    let s1 := ents.foldl (fun s d => if d.1.ok && d.2 then s.mcUpd e.k.launch d.1 (.expect (cpLen ctl)) else s) s
    let c := { c0 with recv := ents.map Prod.fst }
    if cpLen ctl = 0 then
      let s2 := s1.asOp (e.newOp s e.m0) (fun s =>
        ents.foldl (fun s d => if d.1.ok then s.cpBarUpd e.ci ctl (.arrive 1 false) else s.mcRefuse e.ci ctl 0) s)
      pure (if ents.all (fun d => d.1.ok) then s2 else s2.stepOpDone e.ci (some 1))
    else pure (s1.issueCp e c))

/-- Where byte `b` of the operation goes: a kind (0 address, 1 tile, 2 receiver's scratchpad) and an address. -/
def cpDest (c : CpOp) (idx : Nat → Nat) (b : Nat) : Nat × Nat :=
  if c.fn = 9 then (0, c.dst + idx (b / cpRow c) * shF c.sh 351 304 + b % cpRow c)
  else if c.fn = 10 then (2, (match c.recv[b / cpLen c.ctl]? with | some d => d.doff | none => 0) + b % cpLen c.ctl)
  else if cpDk c.ctl = 1 then (1, c.dst % 2 ^ 18 + b)
  else (0, c.dst + b)

/-- The size of a part at a destination: a 64-byte block at a home port, else a 128-byte line or range (R280). -/
def partSize (kind a : Nat) : Nat := if kind = 0 ∧ !(inAperture a) then 64 else 128

/-- The part around byte `b` within the range `r`: start and length. -/
def partAt (c : CpOp) (idx : Nat → Nat) (r : Nat × Nat) (b : Nat) : Nat × Nat :=
  let d := cpDest c idx b
  let g := partSize d.1 d.2
  let lo := max r.1 (b - d.2 % g)
  (lo, min (r.1 + r.2) (b + (g - d.2 % g)) - lo)

/-- A list of ranges without the part `p` of the range that holds it. -/
def cutRange (p : Nat × Nat) (ls : List (Nat × Nat)) : List (Nat × Nat) :=
  ls.flatMap (fun r =>
    if p.1 < r.1 ∨ r.1 + r.2 ≤ p.1 then [r]
    else ([(r.1, p.1 - r.1), (p.1 + p.2, r.1 + r.2 - (p.1 + p.2))].filter (fun q => decide (q.2 ≠ 0))))

/-- A line counts as full for the operation: full, or armed by it alone (R171). -/
def cpLineOk (k : Crew) (c : CpOp) (line : Nat) : Bool :=
  k.lineFull line || (c.lines.contains line && decide ((k.lines.get line).toNat / 2 = 1))

/-- The lines of pieces are full for the operation. -/
def cpPiecesOk (k : Crew) (c : CpOp) (ps : List (Spot × Nat)) : Bool := (pieceLines ps).all (cpLineOk k c)

/-- The place of index `j` in the crew's scratchpad (R285). -/
def cpIndexOff (k : Crew) (c : CpOp) (j : Nat) : Nat := spAddr k.z (alignDown (cpIdx c.ctl) 4 + 4 * j) 0 4

/-- Index `j`: as the operation has read it, or as it reads it now (R220); none while its line is not full for the operation (R171,
R285). -/
def cpIndex? (s : State) (ci : Nat) (k : Crew) (c : CpOp) (j : Nat) : Option Nat :=
  match c.idx.find? (fun p => decide (p.1 = j)) with
  | some p => some p.2
  | none =>
    let off := cpIndexOff k c j
    if cpLineOk k c (off / 128) then some ((s.crewAt k ci off 4 (s.actPoint (some ci) off 4)).spRd off 4) else none

/-- The indices that the operation has read. -/
def CpOp.index (c : CpOp) (j : Nat) : Nat := match c.idx.find? (fun p => decide (p.1 = j)) with | some p => p.2 | none => 0

/-- The operation with index `j` read. -/
def CpOp.withIndex (c : CpOp) (j x : Nat) : CpOp := if c.idx.any (fun p => decide (p.1 = j)) then c else { c with idx := (j, x) :: c.idx }

/-- What reading the source of a part gives. -/
inductive CpRead where
  | wait
  | fault (f : EFault)
  | bytes (bs : List (Byte × Bool))

/-- Bytes at a source address or tile offset, read for crew `ci` (R220). -/
def cpReadRun (s : State) (ci : Nat) (k : Crew) (c : CpOp) (kind a n : Nat) : CpRead :=
  if kind = 1 then .bytes (k.tileRd a n)
  else
    match s.piecesOf k k.ctxid kRead a n with
    | .error f => .fault f
    | .ok ps => if cpPiecesOk k c ps then .bytes (s.opBytes ci k ps) else .wait

/-- The state once they have been read (R218). -/
def State.runJoined (s : State) (ci : Nat) (k : Crew) (kind a n : Nat) : State :=
  if kind = 1 then s
  else match s.piecesOf k k.ctxid kRead a n with | .ok ps => s.opJoined ci ps | .error _ => s

/-- The die of a source address or tile offset. -/
def cpDieOf (s : State) (k : Crew) (kind a : Nat) : Nat :=
  if kind = 1 then k.die else match s.piecesOf k k.ctxid kRead a 1 with | .ok ((p, _) :: _) => p.die k | _ => k.die

/-- Where byte `b` comes from: a kind (0 address, 1 tile, 2 zeros of a row whose index is out of range) and an address (R284 to R287). -/
def cpSrc (c : CpOp) (b : Nat) : Nat × Nat :=
  match c.fn with
  | 8 =>
    let x := c.index (b / cpRow c)
    if x < shDim1 c.sh then (0, c.src + x * shF c.sh 351 304 + b % cpRow c) else (2, 0)
  | 10 => (0, c.src + b % cpLen c.ctl)
  | _ => (cpSk c.ctl, (if cpSk c.ctl = 1 then c.src % 2 ^ 18 else c.src) + b)

/-- The run of bytes around `b` in the range `r` that one access reads: a 64-byte block, a scratchpad line or a tile range at the source,
of one row of a GATHER, so that each aligned word is read whole (R211). -/
def readAt (c : CpOp) (r : Nat × Nat) (b : Nat) : Nat × Nat :=
  let d := cpSrc c b
  let row := if c.fn = 8 then (b - b % cpRow c, b - b % cpRow c + cpRow c) else r
  let stop := if c.fn = 8 then row.2 else r.1 + r.2
  if d.1 = 2 then (max r.1 row.1, min (r.1 + r.2) stop - max r.1 row.1)
  else
    let g := partSize d.1 d.2
    let lo := max (max r.1 row.1) (b - d.2 % g)
    (lo, min (min (r.1 + r.2) stop) (b + (g - d.2 % g)) - lo)

/-- The reason CPFAULT records for a failed access (R274, R282). -/
def cpReason (f : EFault) : Nat :=
  if f.x.reason = 6 then 4 else if f.x.reason = 3 ∨ f.x.reason = 4 ∨ f.x.reason = 5 then 2 else 1

/-- Bytes that no destination has accepted. -/
def CpOp.rest (c : CpOp) : Nat := (c.left.map Prod.snd).sum

/-- A byte's receiver. -/
def CpOp.recvOf (c : CpOp) (b : Nat) : Nat := b / cpLen c.ctl

/-- The bytes of receiver `j` that have not been delivered. -/
def CpOp.restOf (c : CpOp) (j : Nat) : Nat := ((c.left.filter (fun r => decide (c.recvOf r.1 = j))).map Prod.snd).sum

/-- The parts of receiver `j` that have been accepted and not accounted. -/
def CpOp.owedOf (c : CpOp) (j : Nat) : List (Nat × Nat × Bool) := c.owed.filter (fun q => decide (c.recvOf q.1 = j))

/-- The launch of a crew. -/
def State.launchOf (s : State) (ci : Nat) : Nat := match s.crews[ci]? with | some k => k.launch | none => 0

/-- The update that accounts for an accepted or skipped part (R280, R285, R286); the last of a GATHER reports an index out of range. -/
def CpOp.account (c : CpOp) (q : Nat × Nat × Bool) : BarUpd :=
  if q.2.2 then .settle q.2.1 70
  else if c.fn = 8 ∧ c.part ∧ c.left = [] ∧ c.owed.filter (fun x => decide (x ≠ q)) = [] then .landBit q.2.1 70
  else .land q.2.1

/-- A fault's account of receiver `j` of an MCAST: what it accepted lands, the rest settles, and it is acknowledged (R282, R287, log entry
111). -/
def State.mcFault (s : State) (o : Op) (c : CpOp) (j : Nat) (d : McDst) : State :=
  match (c.owedOf j).find? (fun q => q.2.2) with
  | some q => s.mcRefuse o.crew c.ctl q.2.1
  | none =>
    let launch := s.launchOf o.crew
    let s1 := (c.owedOf j).foldl (fun s q => s.mcUpd launch d (.land q.2.1)) s
    let n := c.restOf j
    if n ≠ 0 then (if d.ok then s1.mcUpd launch d (.settle n 66) else s1).cpBarUpd o.crew c.ctl (.ack n 66)
    else if c.owedOf j = [] then s1 else s1.cpBarUpd o.crew c.ctl (.arrive 1 false)

/-- The operation faults at a part: what was accepted is accounted, the rest settles, its armed lines are released (R282). -/
def State.cpFault (s : State) (o : Op) (c : CpOp) (reason addr : Nat) : State :=
  let s1 := (s.landLines o.crew c.lines).modCrew o.crew (fun k => k.cpRecord reason c.fn addr)
  let s2 :=
    if c.fn = 10 then (mapFrom (fun j d => (j, d)) 0 c.recv).foldl (fun s p => s.mcFault o c p.1 p.2) s1
    else (c.owed.foldl (fun s q => s.cpBarUpd o.crew c.ctl (c.account q)) s1).cpBarUpd o.crew c.ctl (.settle c.rest 66)
  s2.endEng o (some 1)

/-- The lines of the crew's scratchpad whose every byte has been accepted: they land once every byte has been read (R170, R217). -/
def cpLanded (k : Crew) (c : CpOp) : List Nat :=
  let still := (c.left.flatMap (fun r => ((lineStarts (c.dst + r.1) r.2).filter inAperture).map (fun a => spAddr k.z (a % 2 ^ 32) 0 1 / 128)))
  if c.unread = [] then c.lines.filter (fun l => !(still.contains l)) else []

/-- The operation after a part: landed lines, and its end when nothing is left to read, accept or account (R242, R285). -/
def State.cpNext (s : State) (o : Op) (c : CpOp) : State :=
  let ls := match s.crews[o.crew]? with | some k => cpLanded k c | none => []
  let s1 := s.landLines o.crew ls
  if c.unread = [] ∧ c.left = [] ∧ c.owed = [] then s1.endEng o (if c.bad then some 1 else if c.part then some 3 else none)
  else s1.modOp o.id (fun o => { o with eng := some (.cp { c with lines := c.lines.filter (fun l => !(ls.contains l)) }) })

/-- The range that holds byte `b`. -/
def rangeAt (b : Nat) (rs : List (Nat × Nat)) : Option (Nat × Nat) := rs.find? (fun r => decide (r.1 ≤ b ∧ b < r.1 + r.2))

/-- Bytes that the operation has read: their values, marks and die. -/
def CpOp.take (c : CpOp) (p : Nat × Nat) (die : Nat) (bs : List MByte) : CpOp :=
  { c with
    unread := cutRange p c.unread, begun := true, data := wrList c.data p.1 (bs.map Prod.fst)
    marks := (mapFrom (fun i (x : MByte) => (i, x.2)) p.1 bs).foldl (fun m q => m.set q.1 (if q.2 then 1 else 0)) c.marks
    dies := if (cpSrc c p.1).1 = 2 then c.dies else (p.1, p.2, die) :: c.dies, part := c.part || decide ((cpSrc c p.1).1 = 2) }

/-- The bytes of a part that has been read. -/
def CpOp.bytes (c : CpOp) (p : Nat × Nat) : List MByte :=
  (List.range p.2).map (fun i => (c.data.get (p.1 + i), decide (c.marks.get (p.1 + i) ≠ 0)))

/-- The run around byte `b` is read (R284 to R287), once its index has been. -/
def State.cpReadPart (s : State) (o : Op) (k : Crew) (c : CpOp) (r : Nat × Nat) (b : Nat) : State :=
  let p := readAt c r b
  let d := cpSrc c p.1
  if d.1 = 2 then s.cpNext o (c.take p k.die (List.replicate p.2 (0, false)))
  else
    match cpReadRun s o.crew k c d.1 d.2 p.2 with
    | .wait => s
    | .fault f => s.cpFault o c (cpReason f) f.va
    | .bytes bs => (s.runJoined o.crew k d.1 d.2 p.2).cpNext o (c.take p (cpDieOf s k d.1 d.2) bs)

/-- An MCAST delivers nothing more to receiver `j`: what it has not delivered is to be acknowledged with FAULT (R287). -/
def CpOp.refuse (c : CpOp) (j : Nat) : CpOp :=
  let keep := fun (rs : List (Nat × Nat)) => rs.filter (fun q => decide (c.recvOf q.1 ≠ j))
  { c with left := keep c.left, unread := keep c.unread, begun := true, bad := true
           owed := (j * cpLen c.ctl, c.restOf j, true) :: c.owed.filter (fun q => decide (c.recvOf q.1 ≠ j)) }

/-- Reads byte `b` of a COPY, GATHER, SCATTER or MCAST: an index first; a SCATTER row out of range is skipped, an MCAST entry that can
deliver nothing is refused (R285 to R287). -/
def State.cpReadByte (s : State) (o : Op) (k : Crew) (c : CpOp) (r : Nat × Nat) (b : Nat) : State :=
  match c.fn with
  | 10 =>
    let j := c.recvOf b
    if (match c.recv[j]? with | some d => d.ok | none => true) then s.cpReadPart o k c r b else s.cpNext o (c.refuse j)
  | 7 => s.cpReadPart o k c r b
  | _ =>
    let j := b / cpRow c
    match cpIndex? s o.crew k c j with
    | none => s
    | some x =>
      let c1 := { c.withIndex j x with begun := true }
      let s := s.actJoins (s.landedOn o.crew (cpIndexOff k c j) 4)
      if c.fn = 9 ∧ shDim1 c.sh ≤ x then
        s.cpNext o { c1 with left := cutRange (j * cpRow c, cpRow c) c.left, unread := cutRange (j * cpRow c, cpRow c) c.unread, part := true
                             owed := if cpBen c.ctl then (j * cpRow c, cpRow c, true) :: c.owed else c.owed }
      else s.cpReadPart o k c1 r b

/-- The pieces of a part's destination in the issuing crew's scratchpad or in memory; none for a tile range. -/
def cpDestPieces (s : State) (k : Crew) (d : Nat × Nat) (n : Nat) : Except EFault (Option (List (Spot × Nat))) :=
  if d.1 = 1 then .ok none
  else match s.piecesOf k k.ctxid kWrite d.2 n with | .ok ps => .ok (some ps) | .error f => .error f

/-- A part moves between the dies (R14, R283): some of its bytes come from a die that is not its destination's. -/
def CpOp.crosses (c : CpOp) (p : Nat × Nat) (die : Nat) : Bool :=
  c.dies.any (fun q => meets p.1 p.2 q.1 q.2.1 && decide (q.2.2 ≠ die))

/-- A part that crosses to a die whose Iris takes no request waits, and is sent again after 2 µs (R374, R380). -/
def State.bridged (s : State) (o : Op) (c : CpOp) (p : Nat × Nat) (die : Nat) (go : State) : State :=
  if c.crosses p die && s.bridgeShut die c.tried then s.modOp o.id (fun o => { o with eng := some (.cp { c with tried := s.triedAt c.tried }) })
  else go

/-- The operation with a part accepted. -/
def CpOp.accept (c : CpOp) (p : Nat × Nat) : CpOp :=
  { c with left := cutRange p c.left, tried := none, owed := if cpBen c.ctl then (p.1, p.2, false) :: c.owed else c.owed }

/-- A part of a COPY, GATHER or SCATTER is accepted at its destination (R280 to R286). -/
def State.cpWritePart (s : State) (o : Op) (k : Crew) (c : CpOp) (p : Nat × Nat) : State :=
  let d := cpDest c c.index p.1
  match cpDestPieces s k d p.2 with
  | .error f => s.cpFault o c (cpReason f) f.va
  | .ok none => s.bridged o c p k.die ((s.modCrew o.crew (fun k => k.tileWr d.2 (c.bytes p))).cpNext o (c.accept p))
  | .ok (some ps) =>
    s.bridged o c p (match ps with | q :: _ => q.1.die k | [] => k.die) ((s.writePieces o.crew ps (c.bytes p)).cpNext o (c.accept p))

/-- A part of an MCAST is accepted in its receiver's scratchpad; one for a saved crew waits; an ended crew's entry delivers nothing more
(R287, R289): SHORT grows by the bytes it has not delivered, LEN where it has delivered none (log entry 108). -/
def State.mcWritePart (s : State) (o : Op) (k : Crew) (c : CpOp) (p : Nat × Nat) : State :=
  let j := c.recvOf p.1
  match c.recv[j]?, (c.recv[j]?).bind (fun d => s.crewOf k.launch d.crew) with
  | some d, some r =>
    match s.crews[r]? with
    | none => s
    | some rk =>
      match rk.st with
      | .saved => s
      | .ended => s.cpNext o (c.refuse j)
      | .running =>
        let off := spAddr rk.z (d.doff + p.1 % cpLen c.ctl) 0 1
        s.bridged o c p rk.die (((s.noteSp r off p.2 none).modCrew r (fun q => q.spWrMarked off (c.bytes p))).cpNext o (c.accept p))
  | _, _ => s

/-- The bytes from `b` on of an MCAST go to a crew that runs. -/
def State.mcRuns (s : State) (o : Op) (c : CpOp) (b : Nat) : Bool :=
  match (c.recv[c.recvOf b]?).bind (fun d => s.crewOf (s.launchOf o.crew) d.crew) with
  | some r => s.crewIs (fun k => decide (k.st ≠ .saved)) r
  | none => false

/-- What an MCAST has still to move waits for crews that are saved or have not been placed (R289). -/
def State.mcHeldUp (s : State) (o : Op) (c : CpOp) : Bool := c.unread.isEmpty && c.left.all (fun r => !(s.mcRuns o c r.1))

/-- An accepted part is accounted (R218, R280, R287): not before every byte has been read and accepted, so that a WAITB that it lets return
follows all of the operation's events; an MCAST waits for no receiver that is saved or has not been placed (R289, log entry 109). -/
def State.cpAccount (s : State) (o : Op) (c : CpOp) (q : Nat × Nat × Bool) : State :=
  let c2 := { c with owed := c.owed.filter (fun x => decide (x ≠ q)) }
  if c.fn = 10 then
    let j := c.recvOf q.1
    match c.recv[j]? with
    | none => s
    | some d =>
      if !(s.mcHeldUp o c) ∨ c.restOf j ≠ 0 then s
      else if q.2.2 then (s.mcRefuse o.crew c.ctl q.2.1).cpNext o c2
      else
        let s1 := s.mcUpd (s.launchOf o.crew) d (.land q.2.1)
        (if c2.owedOf j = [] then s1.cpBarUpd o.crew c.ctl (.arrive 1 false) else s1).cpNext o c2
  else if c.unread ≠ [] ∨ c.left ≠ [] then s
  else (s.cpBarUpd o.crew c.ctl (c.account q)).cpNext o c2

/-- The step of a copy-engine operation at its byte `b`: the byte is read, or accepted with its part once the part has been read, or that
part is accounted (R217, R218, R280). -/
def State.cpStep (s : State) (o : Op) (k : Crew) (c : CpOp) (b : Nat) : State :=
  match rangeAt b c.unread, rangeAt b c.left with
  | some r, _ => s.cpReadByte o k c r b
  | none, some r =>
    let p := partAt c c.index r b
    if c.unread.any (fun q => meets p.1 p.2 q.1 q.2) then s
    else if c.fn = 10 then s.mcWritePart o k c p
    else s.cpWritePart o k c p
  | none, none =>
    match c.owed.find? (fun q => decide (q.1 ≤ b ∧ b < q.1 + q.2.1)) with
    | some q => s.cpAccount o c q
    | none => s

/-- COPY_PART of a copy-engine operation. -/
def State.copyPart (s : State) (id b : Nat) : State :=
  match s.op? id with
  | none => s
  | some o =>
    match o.eng, s.crews[o.crew]? with
    | some (.cp c), some k => if k.st = .saved ∨ !(s.forked o) then s else s.asOp o (fun s => s.cpStep o k c b)
    | _, _ => s

end Sys2Proof.Machine
end

