-- ==== Sys2Proof/Machine/Fetch.lean ====
section
/-! DEFINITION. Fetching an instruction group (R49 to R52), and the image that a word stands in when it is to run first. -/
namespace Sys2Proof.Machine

/-- The offset and length of the section an engine's program lies in (R52, R80). -/
def Image.sec (img : Image) : Engine → Nat × Nat
  | .vector => (img.textOff, img.textLen)
  | .matrix => (img.matOff, img.matLen)
  | .copy => (img.copyOff, img.copyLen)

/-- The parcel at an offset of the issuer's program (R52); in the scratchpad aperture its line must be full (R171). -/
def State.parcel (s : State) (e : Env) (off : Nat) : Exe Parcel := do
  let r := e.k.image.sec e.eng
  need (decide (off + 2 ≤ r.2)) (illegal 8 off)
  match placeOf e.k (e.k.image.va.toNat + r.1 + off) 2 with
  | .spad o => do
    waitUnless (e.k.linesFull o 2)
    pure (BitVec.ofNat 16 (e.k.spRd o 2))
  | .mem va => do
    let key ← s.xlateOr e.k.ctxid va 2 0 kFetch
    pure (BitVec.ofNat 16 (s.rd key 2))

/-- A group that was fetched, or the stop of a fetch with the length of the group where its parcels give one. -/
inductive Fetched where
  | ok (i : Instr)
  | stop (st : Stop) (len : Option Nat)

/-- The length of an ill-formed group, where it is one that a group can have (R398). -/
def badLen (n : Nat) : Option Nat := if n = 2 ∨ n = 4 ∨ n = 8 ∨ n = 12 then some n else none

/-- Fetches parcels until they decode: at most six (R50). -/
noncomputable def State.fetchFrom (s : State) (e : Env) : Nat → List Parcel → Fetched
  | 0, ps => .stop (illegal 0 0) (badLen (2 * ps.length))
  | n + 1, ps =>
    match s.parcel e (e.pc.toNat + 2 * ps.length) with
    | .error st => .stop st none
    | .ok p =>
      match decode e.eng (ps ++ [p]) with
      | .more => State.fetchFrom s e n (ps ++ [p])
      | .ok i => .ok i
      | .bad r w => .stop (illegal r w) (badLen (2 * (ps.length + 1)))

/-- Fetches the group of the issuing thread context. -/
noncomputable def State.fetch (s : State) (e : Env) : Fetched := s.fetchFrom e 6 []

/-- TSTAT.TLEN of a group whose length its parcels do not give: one of the lengths of R398, by a free value. -/
def freeLen (s : State) : Nat := [2, 4, 8, 12].getD ((Config.free s.free).toNat % 4) 4

/-- A fetch that waits, or a failed one: its trap, precise at the group's first word (R52). -/
def State.fetchStop (s : State) (e : Env) (st : Stop) : Option Nat → State
  | some n => s.stopped { e with h := ⟨0, n, none⟩ } st
  | none =>
    match st with
    | .wait => s
    | .trap t => { s with free := s.free + 1 }.raise { e with h := ⟨0, freeLen s, none⟩ } t

/-- A core or walker takes the table entry of a level that a walk of the address meets, valid or not, if it holds none (R189, R190). -/
def State.cacheXlat (s : State) (ctx va level : Nat) : State :=
  let pre := va / 2 ^ levelShift level
  if s.xlat.any (fun t => decide (t.1 = ctx ∧ t.2.1 = level ∧ t.2.2.1 = pre)) then s
  else
    match s.entryFrom ctx va level ((s.roots.get ctx).toNat - 1) (if s.roots.get ctx = 0 then [] else [0, 1, 2, 3]) with
    | some p => { s with xlat := s.xlat ++ [(ctx, level, pre, p)] }
    | none => s

/-- An INVAL in progress waits for the accesses that an entry which is dropped now may have translated (R190). -/
def PendCmd.dropped (ctx op : Nat) (c : PendCmd) : PendCmd :=
  match c.kind with
  | .inval x start len o => if x = ctx then { c with kind := .inval x start len (max o op) } else c
  | _ => c

/-- A core or walker loses the entry of a level for an address. -/
def State.dropXlat (s : State) (ctx va level : Nat) : State :=
  { s with xlat := s.xlat.filter (fun t => !(decide (t.1 = ctx ∧ t.2.1 = level ∧ t.2.2.1 = va / 2 ^ levelShift level)))
           dies := s.dies.map (fun d => { d with pend := d.pend.map (PendCmd.dropped ctx s.nextOp) }) }

/-- A row that is a step of an agent, not a word of a program. -/
def isEvent (i : Instr) : Bool := !i.isCompact && decide (i.baseWord = 0)

/-- The image of a program that is six parcels of one section (log entry 1). -/
def Image.six (eng : Engine) : Image :=
  { va := 0, regs := 128, warps := 1, crewmax := 0, acc := 8, bars := 64, tilekib := 256, scrlines := 64, prios := []
    textOff := 256, textLen := if eng = .vector then 12 else 2
    matOff := if eng = .matrix then 512 else 0, matLen := if eng = .matrix then 12 else 0
    copyOff := if eng = .copy then 512 else 0, copyLen := if eng = .copy then 12 else 0, dataOff := 0, dataLen := 0 }

/-- A vector register as a launch leaves it (R113). -/
def VReg.start : VReg := List.replicate 64 Lane.launch

/-- A warp as a launch leaves it, entered at the start of .text (R84, R113, R398); the SQT registers: log entry 3. -/
def Warp.start (img : Image) : Warp :=
  { regs := List.replicate img.regs VReg.start, sregs := List.replicate 64 0, spend := 0, spoison := 0, mregs := List.replicate 7 0
    mpoison := 0, rmode := 0, ftz := 0, frontier := [⟨prioOf img 0, 0, .ready, BitVec.allOnes 64, none⟩], loops := [], shadow := []
    hact := false, nkill := 0, tlen := 0, hmask := 0, trapcause := 0, trappc := 0, trapinfo := 0, faultdet := 0, poisonva := 0
    sqtcause := 0, sqtpc := 0, sqtinfo := 0, cohorts := [] }

/-- A crew as CREW_PLACE leaves it (R84, R87, R113, R163, R178, R244 to R251, R276, R310). -/
def Crew.start (img : Image) (launch die core ctxid crewid ncrews now : Nat) (ctl : Bool) (kparam thbase : W64) (thcount : BitVec 16)
    (sg : Option Nat) : Crew :=
  { st := .running, launch := launch, image := img, die := die, core := core, ctl := ctl, ctxid := ctxid, crewid := crewid
    ncrews := ncrews, kparam := kparam, kdata := img.va + BitVec.ofNat 64 img.dataOff
    warps := List.replicate img.warps (Warp.start img), sp := [], spPoison := [], lines := [], tags := [], tagPoison := [], tile := []
    tilePoison := [], td := List.replicate 16 0, sh := List.replicate 16 0, accs := List.replicate img.acc ⟨[], true, []⟩, tvec := 0
    cpfault := 0, neterr := 0, pgwait := 200, thbase := thbase, thcount := thcount, firstKill := 0, killNo := 0, placed := now
    stepGroup := sg, stepNo := 0, savedWhy := 0, savedAt := 0 }

/-- The page tables that map virtual address 0 to the start of die-0 HBM4 by one 2 MiB leaf (R184 to R187): readable, writable,
executable, atomic. -/
def State.mapLow (s : State) : State :=
  ((s.wr (2 ^ 20) 8 (1 + (2 ^ 20 + 2 ^ 15))).wr (2 ^ 20 + 2 ^ 15) 8 (1 + (2 ^ 20 + 2 ^ 16))).wr (2 ^ 20 + 2 ^ 16) 8 0xBB

/-- A machine whose next issuer is a new thread context of kind `eng` at the start of its program, whose bytes are `bs`. -/
def State.withProgram (s : State) (eng : Engine) (n v : Nat) : State :=
  let img := Image.six eng
  let ci := s.crews.length
  let k := Crew.start img s.nextJob 0 0 1 0 1 s.dtime false 0 0 0 none
  let x : SCtx := { matrix := decide (eng = .matrix), st := .running, wasTrapped := false, joined := false, crew := ci, warp := 0, mask := BitVec.allOnes 64
                    rid := 0, pc := 0, sregs := List.replicate 64 0, spend := 0, spoison := 0, loops := [], rmode := 0, ftz := 0, wait := none
                    mxbar := 0, mxshape := 0, mxgang := 0, mxfault := 0, mxglost := 0, mxbad := none, forkOp := 0, cause := 0, tpc := 0, info := 0 }
  let s1 := s.mapLow.wr (if eng = .vector then 256 else 512) n v
  { s1 with agenda := [], useOld := false, nextJob := s1.nextJob + 1, roots := s1.roots.set 1 (BitVec.ofNat 64 (2 ^ 20 + 1)), crews := s1.crews ++ [k]
            ctxs := if eng = .vector then s1.ctxs else s1.ctxs ++ [x]
            cur := some (if eng = .vector then .warp ci 0 else .ctx s1.ctxs.length) }

/-- The engine whose program can hold the word: the first of vector, matrix, copy. -/
noncomputable def engineOf (w : Nat) : Engine :=
  match decode .vector (parcelList 6 w), decode .matrix (parcelList 6 w), decode .copy (parcelList 6 w) with
  | .ok _, _, _ => .vector
  | _, .ok _, _ => .matrix
  | _, _, .ok _ => .copy
  | _, _, _ => .vector

end Sys2Proof.Machine
end

