-- ==== Sys2Proof/Machine/HostMem.lean ====
section
/-! DEFINITION. Accesses of firmware, schedulers and the host link: reads and writes through a context's translation
(R341, R344, R347), host memory within its windows (R420), event records (R414, R430), interrupts, completion records
(R347) and host token rings (R362 to R364). -/
namespace Sys2Proof.Machine

/-- The runs of keys of `n` bytes at a virtual address, page by page (R184, R188). -/
def State.vkeysN (s : State) (ctx kind : Nat) : Nat → Nat → Nat → Except XFault (List (Nat × Nat))
  | 0, _, _ => .ok []
  | fuel + 1, va, n =>
    if n = 0 then .ok []
    else
      let len := min n (4096 - va % 4096)
      match s.xlate ctx (va % 2 ^ 64) len kind with
      | .error f => .error f
      | .ok key =>
        match State.vkeysN s ctx kind fuel (va + len) (n - len) with
        | .ok r => .ok ((key, len) :: r)
        | .error f => .error f

/-- The runs of keys of `n` bytes. -/
def State.vkeys (s : State) (ctx kind va n : Nat) : Except XFault (List (Nat × Nat)) := s.vkeysN ctx kind (n / 4096 + 2) va n

/-- The bytes of runs, as a number. -/
def State.rdRuns (s : State) : List (Nat × Nat) → Nat
  | [] => 0
  | (k, n) :: r => s.rd k n + 256 ^ n * State.rdRuns s r

/-- Writes a number over runs. -/
def State.wrRuns (s : State) : List (Nat × Nat) → Nat → State
  | [], _ => s
  | (k, n) :: r, v => State.wrRuns (s.wr k n (v % 256 ^ n)) r (v / 256 ^ n)

/-- Reads `n` bytes of a context: none where the read faults or meets poison. -/
def State.vrd (s : State) (ctx va n : Nat) : Option Nat :=
  match s.vkeys ctx kRead va n with
  | .ok ks => if ks.any (fun q => s.bad q.1 q.2) then none else some (s.rdRuns ks)
  | .error _ => none

/-- Writes `n` bytes of a context: none where the write faults. -/
def State.vwr (s : State) (ctx va n v : Nat) : Option State :=
  match s.vkeys ctx kWrite va n with
  | .ok ks => some (s.wrRuns ks v)
  | .error _ => none

/-- Reads host memory within a window (R420). -/
def State.hostRd (s : State) (a n : Nat) : Option Nat := if s.hostOk a n false then some (s.rd (memKey 3 a) n) else none

/-- Sends an interrupt (R352, R364): its vector becomes pending; `irqs` keeps every interrupt sent, with its time. -/
def State.irq (s : State) (vec : Nat) : State := { s with msix := s.msix.set vec 1, irqs := s.irqs ++ [(vec, s.dtime)] }

/-- Writes host memory within a window; elsewhere the write is dropped and reported (R420). -/
def State.hostWr (s : State) (a n v : Nat) : State :=
  if s.hostOk a n true then s.wr (memKey 3 a) n v else s.event 0 0 .hostDrop a false

/-- The same as a release at SYS scope (R363). -/
def State.hostRel (s : State) (a n v : Nat) : State :=
  if s.hostOk a n true then (s.releasing.wr (memKey 3 a) n v).relaxed else s.event 0 0 .hostDrop a false

/-- What firmware's read of `n` bytes of a context observes, as an acquire at SYS scope (R352, R360). -/
def State.vobserved (s : State) (ctx va n : Nat) : List Nat :=
  match s.vkeys ctx kRead va n with
  | .ok ks => unionOf (ks.map (fun q => s.observed 2 q.1 q.2))
  | .error _ => []

/-- The release sequences that `n` bytes of a context hold (R214). -/
def State.vheads (s : State) (ctx va n : Nat) : List Head :=
  match s.vkeys ctx kWrite va n with
  | .ok ks => ks.flatMap (fun q => headsIn (s.lastWrites none q.1 q.2 s.hist.length))
  | .error _ => []

/-- Work with some writes behind it, of which nothing is kept. -/
def State.workWith (s : State) (past : List Nat) (f : State → State) : State := s.asWork past f (fun _ t => t)

/-- Work with nothing known behind it: of the page engine or a command. -/
def State.byWork (s : State) (f : State → State) : State := s.workWith [] f

/-- Work begins with some writes behind it, and ends: the agent of the step is again that of `s`. -/
def State.workBegin (s : State) (past : List Nat) : State := { s with actor := ⟨.work, past, []⟩ }
def State.workEnd (t s : State) : State := { t with actor := s.actor }

/-- The host writes its memory (R420): as a release of what it has seen and written. -/
def State.hostWrite (s : State) (a : Nat) (bs : List Byte) : State :=
  s.asWork s.hostSeen (fun s => (s.releasing.wrL (memKey 3 a) bs).relaxed) (fun past t => { t with hostSeen := past })

/-- The host reads `n` bytes of its memory, as an acquire at SYS scope: `hostSaw` keeps what it got. -/
def State.hostLoad (s : State) (a n : Nat) : State :=
  { s with hostSaw := s.hostSaw ++ [(3, a, n, s.rd (memKey 3 a) n)], hostSeen := addAll s.hostSeen (s.observed 3 (memKey 3 a) n) }

/-- The value of a completion record (R347). -/
def complRecord (aux index tag qid detail kcause status : Nat) : Nat :=
  aux % 2 ^ 32 * 2 ^ 96 + index % 2 ^ 32 * 2 ^ 64 + tag % 2 ^ 16 * 2 ^ 48 + qid % 2 ^ 15 * 2 ^ 32 + detail % 2 ^ 16 * 2 ^ 16
    + 2 ^ 15 + kcause % 2 ^ 7 * 2 ^ 8 + status % 2 ^ 8

/-- Writes a completion or error record of a context's queue (R347): the upper half first, the lower as a release at SYS scope;
dropped and reported where it cannot be written. -/
def State.complete (s : State) (ctx addr rec : Nat) : State :=
  match s.vwr ctx (addr + 8) 8 (rec / 2 ^ 64) with
  | none => s.event 0 0 .hostDrop addr false
  | some s1 => (match s1.releasing.vwr ctx addr 8 (rec % 2 ^ 64) with | some s2 => s2.relaxed | none => s1.event 0 0 .hostDrop addr false)

/-- A change to a die's units. -/
def State.modDie (s : State) (die : Nat) (f : Die → Die) : State := { s with dies := modAt s.dies die f }

/-- A management command of a die completes (R344, R347): its record goes to a host address within a window, or the loss is reported
with the command's TAG (R461). -/
def State.cmdRecord (s : State) (die addr tag status aux : Nat) : State :=
  let r := complRecord aux 0 tag 0 0 0 status
  if s.hostOk addr 16 true then ((s.wr (memKey 3 (addr + 8)) 8 (r / 2 ^ 64)).releasing.wr (memKey 3 addr) 8 (r % 2 ^ 64)).relaxed
  else s.event die 0 .command tag false

/-- A die's command in progress completes. -/
def State.endCmd (s : State) (die : Nat) (c : PendCmd) (status aux : Nat) : State :=
  s.byWork (fun s => (s.modDie die (fun d => { d with pend := none })).cmdRecord die c.addr c.tag status aux)

/-- A CTXPREEMPT whose context has no crew left to save, or a CTXRESUME that has no crew left to restore, completes (R407). -/
def State.preemptDone (s : State) (die : Nat) : State :=
  match s.dies[die]? with
  | none => s
  | some d =>
    match d.pend with
    | none => s
    | some c =>
      match c.kind with
      | .preempt ctx n => if s.crews.any (fun k => decide (k.ctxid = ctx ∧ k.st = .running)) then s else s.endCmd die c 0 n
      | .resume ctx => if s.crews.any (fun k => decide (k.ctxid = ctx ∧ k.st = .saved)) then s else s.endCmd die c 0 0
      | _ => s

/-- Looks at the commands in progress of both dies. -/
def State.preemptCheck (s : State) : State := (s.preemptDone 0).preemptDone 1

/-- The ring with an identifier, where RINGSET has configured it (R363). -/
def State.ring? (s : State) (id : Nat) : Option Ring := s.rings.find? (fun r => decide (r.id = id))

/-- A change to a ring. -/
def State.modRing (s : State) (id : Nat) (f : Ring → Ring) : State :=
  { s with rings := s.rings.map (fun r => if r.id = id then f r else r) }

/-- The interrupt of a ring is sent (R364). -/
def State.ringIrq (s : State) (id : Nat) : State :=
  match s.ring? id with
  | some r => (s.irq r.vec).modRing id (fun r => { r with pend := 0 })
  | none => s

/-- The interrupt of a ring whose coalescing time has come (R364). -/
def State.ringTimer (s : State) (id : Nat) : State :=
  match s.ring? id with
  | some r => if r.pend ≠ 0 ∧ r.time ≠ 0 ∧ r.first + r.time ≤ s.dtime then s.ringIrq id else s
  | none => s

/-- The registers of a ring's page (R362): RDIDX, and LOST with OVF; a ring that RINGSET has not configured reads 0 (log entry 94). -/
def State.ringReg (s : State) (id : Nat) (high : Bool) : Nat :=
  match s.ring? id with
  | some r => if high then b2n r.ovf * 2 ^ 32 + r.lost % 2 ^ 32 else r.rd
  | none => 0

/-- Writes one 16-byte record to a configured ring (R363, R364), after a timer that is due: a full ring drops it, counts it and
interrupts. -/
def State.ringPut (s0 : State) (id rec : Nat) (flush : Bool) : State :=
  let s := s0.ringTimer id
  match s.ring? id with
  | none => s
  | some r =>
    if 2 ^ r.logn ≤ r.wr - r.rd then
      (s.modRing id (fun r => { r with lost := min (r.lost + 1) (2 ^ 32 - 1), ovf := true })).ringIrq id
    else
      let s1 := s.hostWr (r.base + 16 * (r.wr % 2 ^ r.logn)) 16 rec
      let s2 := s1.hostRel r.wback 8 (r.wr + 1)
      let s3 := s2.modRing id (fun r => { r with wr := r.wr + 1, pend := r.pend + 1, first := if r.pend = 0 then s.dtime else r.first })
      if flush ∨ (r.cnt ≠ 0 ∧ r.cnt ≤ r.pend + 1) then s3.ringIrq id else s3

/-- A record of TOKFB or retirement: dropped and reported where the ring is not configured (R363). -/
def State.ringRecord (s : State) (die id rec : Nat) : State :=
  if (s.ring? id).isSome then s.ringPut id rec false else s.event die 0 .ringDrop id false

end Sys2Proof.Machine
end

