-- ==== Sys2Proof/Machine/Jobs.lean ====
section
/-! DEFINITION. Kernel images, launches and the placement and end of crews (R79 to R87, R350, R351), command graphs (R359 to R361),
waits and copies of packets (R352), and how work completes (R347). -/
namespace Sys2Proof.Machine

/-- The result of reading an image: a read faulted, the descriptor breaks R82, or the image. -/
inductive ImgRes where
  | fault
  | bad
  | ok (i : Image)

/-- The parts of an image lie as R80 says: offset and length each, in order, after byte `stop`. -/
def partsOk : Nat → List (Nat × Nat) → Bool
  | _, [] => true
  | stop, (off, len) :: r =>
    if len = 0 then decide (off = 0) && partsOk stop r
    else decide (off % 256 = 0 ∧ stop ≤ off) && partsOk (off + len) r

/-- The entries of a priority table (R81): START and PRIO. -/
def prioTable (v : Nat) (n : Nat) : List (Nat × Nat) :=
  (List.range n).map (fun i => (bits v (64 * i + 31) (64 * i), bits v (64 * i + 47) (64 * i + 32)))

/-- STARTs rise strictly (R81). -/
def rising : List (Nat × Nat) → Bool
  | a :: b :: r => decide (a.1 < b.1) && rising (b :: r)
  | _ => true

/-- The checks of R82 and R164 on a descriptor. -/
def descOk (d : Nat) : Bool :=
  decide (bits d 511 480 = 0x4B4E4B31 ∧ bits d 479 464 = 1 ∧ bits d 463 448 = 0 ∧ bits d 407 400 = 0 ∧ bits d 63 0 = 0)
    && decide (16 ≤ bits d 447 440 ∧ bits d 447 440 ≤ 128 ∧ bits d 447 440 % 8 = 0 ∧ 1 ≤ bits d 439 432 ∧ bits d 439 432 ≤ 32)
    && decide (bits d 431 424 ≤ 32 ∧ bits d 423 416 ≤ 8 ∧ bits d 415 408 ≤ 64 ∧ bits d 399 384 ≤ 256 ∧ bits d 367 352 ≤ 4096)
    && decide (bits d 383 368 + 8 * bits d 439 432 ≤ 6144 ∧ 32 * bits d 415 408 ≤ 128 * bits d 383 368)
    && decide (bits d 287 256 ≠ 0 ∧ bits d 287 256 % 2 = 0 ∧ bits d 223 192 % 2 = 0 ∧ bits d 159 128 % 2 = 0)
    && partsOk 64 [(bits d 351 320, 8 * bits d 367 352), (bits d 319 288, bits d 287 256), (bits d 255 224, bits d 223 192),
        (bits d 191 160, bits d 159 128), (bits d 127 96, bits d 95 64)]

/-- The image of a descriptor. -/
def imageOf (va d : Nat) (ps : List (Nat × Nat)) : Image :=
  { va := BitVec.ofNat 64 va, regs := bits d 447 440, warps := bits d 439 432, crewmax := bits d 431 424, acc := bits d 423 416
    bars := bits d 415 408, tilekib := bits d 399 384, scrlines := bits d 383 368, prios := ps, textOff := bits d 319 288
    textLen := bits d 287 256, matOff := bits d 255 224, matLen := bits d 223 192, copyOff := bits d 191 160, copyLen := bits d 159 128
    dataOff := bits d 127 96, dataLen := bits d 95 64 }

/-- Reads and checks an image (R80 to R82, R350). -/
def State.readImage (s : State) (ctx va : Nat) : ImgRes :=
  match s.vrd ctx va 64 with
  | none => .fault
  | some d =>
    if !(descOk d) then .bad
    else
      let n := bits d 367 352
      match s.vrd ctx (va + bits d 351 320) (8 * n) with
      | none => .fault
      | some v =>
        let ps := prioTable v n
        if rising ps && (List.range n).all (fun i => decide (bits v (64 * i + 63) (64 * i + 48) = 0)) then .ok (imageOf va d ps) else .bad

/-- The fields of a LAUNCH body (R346). -/
def pkImage (p : Nat) : Nat := bits p 511 448
def pkParam (p : Nat) : Nat := bits p 447 384
def pkNcrews (p : Nat) : Nat := bits p 383 352
def pkStride (p : Nat) : Nat := bits p 351 336
def pkThtab (p : Nat) : Nat := bits p 335 272
def pkThcount (p : Nat) : Nat := bits p 271 256
def pkSgv (p : Nat) : Bool := decide (bits p 255 255 = 1)
def pkSg (p : Nat) : Nat := bits p 254 246
def pkDies (p : Nat) : Nat := bits p 245 244
def pkInd (p : Nat) : Bool := decide (bits p 243 243 = 1)
def pkCtlc (p : Nat) : Bool := decide (bits p 242 242 = 1)
/-- The fields of every packet (R345). -/
def pkType (p : Nat) : Nat := bits p 7 0
def pkOrd (p : Nat) : Bool := decide (bits p 15 15 = 1)
def pkCq (p : Nat) : Bool := decide (bits p 14 14 = 1)
def pkTag (p : Nat) : Nat := bits p 47 32
def pkCompl (p : Nat) : Nat := bits p 191 128
def pkDeadline (p : Nat) : Nat := bits p 127 64

/-- A packet's body breaks no table of R346. -/
def bodyOk (type p : Nat) : Bool :=
  match type with
  | 1 => decide (bits p 241 192 = 0 ∧ pkImage p % 256 = 0 ∧ 1 ≤ pkNcrews p ∧ pkNcrews p ≤ 2 ^ 24 ∧ pkThtab p % 32 = 0)
      && (decide (pkThtab p ≠ 0) || decide (pkThcount p = 0))
  | 2 => decide (bits p 511 448 % 64 = 0 ∧ bits p 383 192 = 0)
  | 3 => decide (bits p 511 448 % 8 = 0 ∧ bits p 383 382 ≤ 1 ∧ bits p 369 192 = 0)
  | 4 => decide (bits p 255 252 ≤ 3 ∧ bits p 251 248 ≤ 3 ∧ 1 ≤ bits p 247 246 ∧ bits p 247 246 ≤ 2 ∧ bits p 245 192 = 0)
  | 5 => decide (bits p 255 252 ≤ 3 ∧ bits p 251 248 ≤ 3 ∧ 1 ≤ bits p 247 246 ∧ bits p 247 246 ≤ 2 ∧ bits p 245 192 = 0)
  | 6 => decide (bits p 343 192 = 0)
  | 7 => decide (bits p 511 448 % 128 = 0 ∧ bits p 446 192 = 0)
  | 8 => decide (bits p 479 192 = 0)
  | _ => false

/-- A packet is well-formed (R345, R346). -/
def packetOk (p : Nat) : Bool :=
  decide (bits p 63 48 = 0 ∧ bits p 31 16 = 0 ∧ bits p 13 8 = 0) && (if pkCq p then decide (pkCompl p % 16 = 0) else decide (pkCompl p = 0))
    && bodyOk (pkType p) p

/-- The job with an identifier. -/
def State.job? (s : State) (id : Nat) : Option Job := s.jobs.find? (fun j => decide (j.id = id))

/-- A change to a job. -/
def State.modJob (s : State) (id : Nat) (f : Job → Job) : State := { s with jobs := s.jobs.map (fun j => if j.id = id then f j else j) }

/-- Adds a job under the next identifier. -/
def State.addJob (s : State) (j : Job) : State := { s with jobs := s.jobs ++ [{ j with id := s.nextJob }], nextJob := s.nextJob + 1 }

/-- A change to a queue. -/
def State.modQueue (s : State) (q : Nat) (f : Queue → Queue) : State :=
  { s with queues := s.queues.map (fun x => if x.qid = q then f x else x) }

/-- Writes a packet's completion record where it asks for one (R347). -/
def State.record (s : State) (j : Job) (status aux detail kcause : Nat) : State :=
  if j.cq then s.complete j.ctxid j.compl (complRecord aux j.index j.tag (j.queue.getD 0) detail kcause status) else s

/-- The step group of a launch is free again (R241). -/
def State.freeGroup (s : State) (id : Nat) : State :=
  { s with steps := s.steps.map (fun g => if g.launch = some id then { g with launch := none } else g) }

/-- A scheduler learns that an iteration's graph has completed, with the writes that its work has behind it (R332). -/
def State.iterResult (s : State) (die group status : Nat) (seen : List Nat) : State :=
  s.modDie die (fun d => { d with sched := { d.sched with
    iters := modAt d.sched.iters group (fun g => { g with result := some status, job := none }), seen := addAll d.sched.seen seen } })

/-- A barrier packet, whose reads acquire for the packets after it (R352). -/
def Job.polls (j : Job) : Bool := match j.kind with | .wait cs _ => !cs.isEmpty | _ => false

/-- A packet has completed (R345, R347, R352): what an ORD packet or a SIGNAL comes after, and what follows a barrier packet. -/
def Queue.completed (x : Queue) (j : Job) : Queue :=
  { x with done := addAll x.done j.seen, seen := if j.polls then addAll x.seen j.seen else x.seen }

/-- A job that is no node of a graph completes (R347). -/
def State.finishJob (s : State) (j : Job) (status aux detail kcause : Nat) : State :=
  let s1 := ({ s with jobs := s.jobs.filter (fun x => decide (x.id ≠ j.id)) }).freeGroup j.id
  let s2 := s1.workWith j.seen (fun s => s.record j status aux detail kcause)
  let s3 := match j.queue with | some q => s2.modQueue q (fun x => x.completed j) | none => s2
  match j.iter with
  | some (die, g) => s3.iterResult die g status j.seen
  | none => s3

/-- The dies that DIES selects (R346). -/
def diesOf (dies serving : Nat) : List Nat :=
  match dies with
  | 0 => [serving]
  | 1 => [0]
  | 2 => [1]
  | _ => [0, 1]

/-- The cores of a launch in search order (R350, R351). -/
def coreOrder (p serving : Nat) : List (Nat × Nat) :=
  (diesOf (pkDies p) serving).flatMap (fun d =>
    if pkCtlc p then (List.range 4).map (fun i => (d, 264 + i)) else (List.range 264).map (fun i => (d, i)))

/-- A CTLC launch of a context is live on a die (R351). -/
def State.ctlLive (s : State) (ctx die : Nat) : Bool :=
  s.jobs.any (fun j => match j.kind with
    | .launch l => decide (j.ctxid = ctx) && pkCtlc l.pkt.toNat && (diesOf (pkDies l.pkt.toNat) j.die).contains die
    | _ => false)

/-- A launch is REJECTED before any crew starts (R85, R347, R351). -/
def State.rejects (s : State) (ctx die p : Nat) (img : Image) : Bool :=
  decide (2048 < img.warps * img.regs)
    || (pkCtlc p && (decide (4 < img.warps ∨ img.tilekib ≠ 0 ∨ img.acc ≠ 0 ∨ img.matLen ≠ 0) || (diesOf (pkDies p) die).any (s.ctlLive ctx)))
    || (pkSgv p && !(s.steps.any (fun g => decide (g.g = pkSg p ∧ g.ctxid = ctx ∧ g.launch = none))))

/-- A launch begins (R350): the job with its crews to place, or the status it completes with. -/
def State.beginLaunch (s : State) (j : Job) (p ncrews : Nat) (kids : List Kid) : Except Nat State :=
  match s.readImage j.ctxid (pkImage p) with
  | .fault => .error 6
  | .bad => .error 2
  | .ok img =>
    if s.rejects j.ctxid j.die p img then .error 3
    else
      let l : Launch := { pkt := BitVec.ofNat 512 p, image := img, ncrews := ncrews, placed := 0, next := 0, halted := false, bad := false
                          cut := false, kids := kids, kidDone := [] }
      let s1 := s.addJob { j with opn := true, kind := .launch l }
      .ok (if pkSgv p then s1.modStep (pkSg p) (fun g => { g with launch := some s.nextJob, ncrews := ncrews, step := 0, first := none, flags := 0, seen := [] }) else s1)

/-- The crews resident on a core, which hold its resources (R85). -/
def State.resident (s : State) (die core : Nat) : List Crew :=
  s.crews.filter (fun k => decide (k.die = die ∧ k.core = core ∧ k.st = .running))

/-- The sum of a measure. -/
def sumOf (f : Crew → Nat) (ks : List Crew) : Nat := (ks.map f).sum

/-- The core has every resource that a crew of the image takes (R85, R351); `launch` counts against CREWMAX. -/
def State.fits (s : State) (img : Image) (launch : Nat) (at_ : Nat × Nat) : Bool :=
  let ks := s.resident at_.1 at_.2
  let ctl := decide (264 ≤ at_.2)
  decide (sumOf (fun k => k.image.warps) ks + img.warps ≤ (if ctl then 4 else 32))
    && decide (sumOf (fun k => k.image.warps * k.image.regs) ks + img.warps * img.regs ≤ 2048)
    && decide (sumOf (fun k => k.image.scrlines + 8 * k.image.warps) ks + img.scrlines + 8 * img.warps ≤ 6144)
    && decide (sumOf (fun k => k.image.tilekib) ks + img.tilekib ≤ (if ctl then 0 else 256))
    && decide (sumOf (fun k => k.image.acc) ks + img.acc ≤ (if ctl then 0 else 8))
    && (decide (img.crewmax = 0) || decide ((ks.filter (fun k => decide (k.launch = launch))).length < img.crewmax))

/-- The position in the search order of the core that takes the launch's next crew (R350). -/
def State.findCore (s : State) (j : Job) (l : Launch) : Option Nat :=
  let cs := coreOrder l.pkt.toNat j.die
  ((List.range cs.length).map (fun i => (l.next + i) % cs.length)).find? (fun i => match cs[i]? with | some c => s.fits l.image j.id c | none => false)

/-- KPARAM of the next crew (R350, R357): none where its read fails. -/
def State.kparam (s : State) (j : Job) (l : Launch) : Option Nat :=
  let p := l.pkt.toNat
  if l.kids ≠ [] then some (match l.kids[l.placed / (l.ncrews / l.kids.length)]? with | some k => k.param.toNat | none => 0)
  else if pkInd p then s.vrd j.ctxid (pkParam p + 8 * l.placed) 8
  else some (pkParam p + l.placed * pkStride p)

/-- A property of the die's firmware: its scheduler cores dispatch (R423, R427). -/
def State.serves (s : State) (die : Nat) : Bool :=
  decide (s.boot.stat.toNat % 16 = 4 ∨ s.boot.stat.toNat % 16 = 6) && (match s.dies[die]? with | some d => !d.stopped | none => false)

/-- A crew of a launch that was killed first (R401): cause, or 0. -/
def firstKill (ks : List Crew) : Nat :=
  match ks.foldl (fun (b : Option Crew) k =>
    if k.firstKill = 0 then b
    else match b with
      | none => some k
      | some x => if k.killNo < x.killNo then some k else some x) none with
  | some k => k.firstKill.toNat
  | none => 0

/-- The crews of a launch. -/
def State.crewsOf (s : State) (id : Nat) : List Crew := s.crews.filter (fun k => decide (k.launch = id))

/-- The fields of a graph node (R359). -/
def ndType (v : Nat) : Nat := bits v 7 0
def ndNsucc (v : Nat) : Nat := bits v 9 8
def ndSucc (v i : Nat) : Nat := bits v (31 + 16 * i) (16 + 16 * i)

/-- The edges of a node: its used successors that are nodes. -/
def ndEdges (v : Nat) : List Nat := ((List.range (ndNsucc v)).map (ndSucc v)).filter (fun m => decide (m < 0xFFFE))

/-- A comparison of a packet or node (R346). -/
def condHolds (cc x v : Nat) : Bool :=
  match cc with
  | 0 => decide (x = v)
  | 1 => decide (x ≠ v)
  | 2 => decide (v ≤ x)
  | _ => decide (x < v)

/-- A node breaks no table of R359 in a graph of `n` nodes. -/
def nodeOk (n v : Nat) : Bool :=
  let t := ndType v
  let k := ndNsucc v
  decide (1 ≤ t ∧ t ≤ 6 ∧ bits v 15 10 = 0) && (decide (t ≠ 3) || decide (k = 2))
    && (List.range 3).all (fun i =>
      if i < k then decide (ndSucc v i < n) || (decide (t = 3) && decide (0xFFFE ≤ ndSucc v i)) else decide (ndSucc v i = 0))
    && (match t with
      | 1 => bodyOk 1 v && decide (bits v 191 64 = 0)
      | 2 => bodyOk 6 v && decide (bits v 191 64 = 0)
      | 4 => bodyOk 3 v && decide (bits v 191 64 = 0)
      | 6 => decide (bits v 511 448 % 16 = 0 ∧ bits v 430 64 = 0)
      | _ => decide (bits v 511 448 % 8 = 0 ∧ bits v 383 380 ≤ 3 ∧ bits v 379 64 = 0))

/-- The number of edges into each node. -/
def inEdges (ns : List Nat) : List Nat :=
  (List.range ns.length).map (fun m => (ns.map (fun v => ((ndEdges v).filter (fun x => decide (x = m))).length)).sum)

/-- The nodes that have a predecessor among those left, round after round: none is left of a graph without a cycle. -/
def peel (ns : List Nat) : Nat → List Nat → List Nat
  | 0, left => left
  | k + 1, left => peel ns k (left.filter (fun m => left.any (fun a => (ndEdges (ns.getD a 0)).contains m)))

/-- The nodes form a graph that R359 accepts. -/
def graphOk (ns : List Nat) : Bool :=
  ns.all (nodeOk ns.length) && decide (peel ns ns.length (List.range ns.length) = [])
    && (match inEdges ns with
      | [] => false
      | e0 :: r => decide (e0 = 0) && r.all (fun e => decide (e ≠ 0)))

/-- The captured operation of a packet's or node's COPY (R352). -/
def hostCp (dst src n : Nat) : CpOp :=
  { CpOp.fresh 7 (BitVec.ofNat 64 dst) (BitVec.ofNat 64 src) 0 0 with left := [(0, n)], unread := [(0, n)] }

/-- What a graph has yet to do: start a node, or resolve one with DONE (0), SKIP (1) or FAIL (2), the cause of a kill, the chosen target
of a COND, and the writes that its work has behind it (R360). -/
inductive GWork where
  | start (n : Nat)
  | res (n r cause pick : Nat) (seen : List Nat)

/-- The graph of a job. -/
def Job.graph? (j : Job) : Option Graph := match j.kind with | .graph g => some g | _ => none

/-- A change to a job's graph. -/
def State.modGraph (s : State) (id : Nat) (f : Graph → Graph) : State :=
  s.modJob id (fun j => match j.kind with | .graph g => { j with kind := .graph (f g) } | _ => j)

/-- SIGNAL (R346, R352): its write, a release at SYS scope, then its interrupt; none where the write faults. One that adds keeps the
release sequences of what it reads (R214). -/
def State.signal (s : State) (ctx p : Nat) : Option State :=
  let a := bits p 511 448
  let v := bits p 447 384
  let s0 := s.releasing
  let s1 := if bits p 383 382 = 0 then s0.vwr ctx a 8 v
    else match s.vrd ctx a 8 with | some x => (s0.withHeads (s0.actor.heads ++ s.vheads ctx a 8)).vwr ctx a 8 ((x + v) % 2 ^ 64) | none => none
  s1.map (fun t => let t := t.relaxed; if bits p 381 381 = 1 then t.irq (bits p 380 370) else t)

/-- The writes that happen before the start of a node (R360). -/
def Graph.seenOf (g : Graph) (n : Nat) : List Nat := g.seen.getD n []

/-- A node starts (R360, R361): the state with its work begun, and what follows at once. -/
def State.startNode (s : State) (j : Job) (g : Graph) (n : Nat) : State × List GWork :=
  let v := (g.nodes.getD n 0).toNat
  let sub : Job := { j with queue := none, cq := false, parent := some (j.id, n), iter := none, opn := false, seen := g.seenOf n }
  let res := fun (t : State) (r pick : Nat) => (t, [GWork.res n r 0 pick t.actor.past])
  match ndType v with
  | 1 =>
    let p := if pkParam v = 0 ∧ !(pkInd v) then setBits v 447 384 g.arg.toNat else v
    (match s.beginLaunch sub p (pkNcrews p) [] with
     | .ok s1 => (s1, [])
     | .error _ => res s 2 0)
  | 2 =>
    if bits v 383 344 = 0 then res s 0 0
    else (({ s with nextOp := s.nextOp + 1 }).addJob { sub with kind := .copy s.nextOp (hostCp (bits v 511 448) (bits v 447 384) (bits v 383 344)) }, [])
  | 3 =>
    (match s.vrd j.ctxid (bits v 511 448) 8 with
     | some x =>
       res (s.workBegin (addAll s.actor.past (s.vobserved j.ctxid (bits v 511 448) 8))) 0
         (if condHolds (bits v 383 380) x (bits v 447 384) then ndSucc v 0 else ndSucc v 1)
     | none => res s 2 0)
  | 4 => (match s.signal j.ctxid v with | some s1 => res s1 0 0 | none => res s 2 0)
  | 5 => (s.addJob { sub with kind := .wait [(bits v 511 448, BitVec.ofNat 64 (bits v 447 384), bits v 383 380)] true }, [])
  | _ =>
    match s.vrd j.ctxid (bits v 511 448) 16 with
    | some rec => if (s.ring? (bits v 447 432)).isSome then res (s.ringPut (bits v 447 432) rec (decide (bits v 431 431 = 1))) 0 0 else res s 2 0
    | none => res s 2 0

/-- The graph after a node's resolution, and the nodes that then start or resolve SKIP (R360): what the node's work has behind it happens
before its successors. -/
def Graph.resolve (g : Graph) (n r cause pick : Nat) (seen : List Nat) : Graph × List GWork :=
  let g1 := { g with st := modAt g.st n (fun _ => .resolved), done := if r = 0 then g.done + 1 else g.done }
  if r = 2 then ({ g1 with failed := if g1.failed = none then some (n, cause) else g1.failed }, [])
  else if g1.failed.isSome ∨ g1.stop then (g1, [])
  else
    let v := (g.nodes.getD n 0).toNat
    let cond := decide (ndType v = 3)
    let g2 := if cond ∧ r = 0 ∧ pick = 0xFFFF then { g1 with rearm := true } else g1
    (ndEdges v).foldl (fun (q : Graph × List GWork) m =>
      let h := q.1
      let lv := h.live.getD m false || (decide (r = 0) && (!cond || decide (m = pick)))
      let pd := h.pend.getD m 0 - 1
      let h1 := { h with live := modAt h.live m (fun _ => lv), pend := modAt h.pend m (fun _ => pd), seen := modAt h.seen m (addAll seen) }
      (h1, if pd = 0 then q.2 ++ [if lv then .start m else .res m 1 0 0 (h1.seenOf m)] else q.2)) (g2, [])

/-- Starts and resolutions of one pass, in order; each node takes at most one of each. -/
def State.graphWork : Nat → State → Nat → List GWork → State
  | 0, s, _, _ => s
  | _, s, _, [] => s
  | k + 1, s, id, w :: rest =>
    match s.job? id with
    | none => s
    | some j =>
      match j.graph? with
      | none => s
      | some g =>
        match w with
        | .start n =>
          if g.failed.isSome ∨ g.stop then State.graphWork k s id rest
          else
            let q := ((s.modGraph id (fun g => { g with st := modAt g.st n (fun _ => .running) })).workBegin (g.seenOf n)).startNode j g n
            State.graphWork k (q.1.workEnd s) id (rest ++ q.2)
        | .res n r c p w =>
          let q := g.resolve n r c p w
          State.graphWork k ((s.modGraph id (fun _ => q.1)).modJob id (fun j => { j with seen := addAll j.seen w })) id (rest ++ q.2)

/-- The graph at the start of a pass, which comes after every node of the pass before it (R360, R453). -/
def Graph.newPass (g : Graph) (pass : Nat) (seen : List Nat) : Graph :=
  { g with seen := g.nodes.map (fun _ => seen), pass := pass, pend := inEdges (g.nodes.map BitVec.toNat), live := g.nodes.map (fun _ => false)
           st := g.nodes.map (fun _ => NodeSt.idle), rearm := false }

/-- The work that a pass can take. -/
def Graph.fuel (g : Graph) : Nat := 2 * g.nodes.length + 2

/-- The end of a pass, or of the graph (R360); one step of the model starts at most `k` passes anew. -/
def State.graphSettle : Nat → State → Nat → State
  | 0, s, _ => s
  | k + 1, s, id =>
    match s.job? id with
    | none => s
    | some j =>
      match j.graph? with
      | none => s
      | some g =>
        if g.st.any (fun x => decide (x = .running)) then s
        else
          match g.failed with
          | some (n, c) => s.finishJob j 6 g.pass n c
          | none =>
            if g.stop then s.finishJob j 4 g.done 0 0
            else if g.st.any (fun x => decide (x = .idle)) then s
            else if !g.rearm ∨ g.pass + 1 = g.maxpass then s.finishJob j 0 (g.pass + 1) 0 0
            else if g.deadline ≠ 0 ∧ g.deadline ≤ s.dtime then s.finishJob j 1 (g.pass + 1) 0 0
            else State.graphSettle k ((s.modGraph id (fun g => g.newPass (g.pass + 1) j.seen)).graphWork g.fuel id [.start 0]) id

/-- A node of a graph has resolved (R360). -/
def State.nodeDone (s : State) (id n r cause : Nat) (seen : List Nat) : State :=
  match s.job? id with
  | some j => (match j.graph? with
    | some g => (s.graphWork g.fuel id [.res n r cause 0 seen]).graphSettle 2 id
    | none => s)
  | none => s

/-- A job completes: as a node of its graph, or for itself (R347, R360). -/
def State.jobDone (s : State) (j : Job) (status aux detail kcause : Nat) : State :=
  match j.parent with
  | some (g, n) =>
    (({ s with jobs := s.jobs.filter (fun x => decide (x.id ≠ j.id)) }).freeGroup j.id).nodeDone g n (if status = 0 then 0 else 2) kcause j.seen
  | none => s.finishJob j status aux detail kcause

/-- The nodes of a graph as read: their list, or the DETAIL of the read that failed (R360). -/
def State.readNodes (s : State) (ctx base : Nat) : Nat → Nat → Except Nat (List Nat)
  | 0, _ => .ok []
  | k + 1, i =>
    match s.vrd ctx (base + 64 * (i + 1)) 64 with
    | none => .error i
    | some v =>
      match State.readNodes s ctx base k (i + 1) with
      | .ok r => .ok (v :: r)
      | .error d => .error d

/-- A GRAPH begins (R359, R360): the graph's checks, then node 0. -/
def State.beginGraph (s : State) (j : Job) (base : Nat) (arg : W64) (deadline : Nat) : State :=
  match s.vrd j.ctxid base 64 with
  | none => s.finishJob j 6 0 0xFFFF 0
  | some h =>
    let n := bits h 12 0
    if bits h 511 64 ≠ 0 ∨ bits h 31 13 ≠ 0 ∨ n = 0 ∨ 4096 < n then s.finishJob j 2 0 0 0
    else
      match s.readNodes j.ctxid base n 0 with
      | .error d => s.finishJob j 6 0 d 0
      | .ok ns =>
        if !(graphOk ns) then s.finishJob j 2 0 0 0
        else
          let g : Graph := { nodes := ns.map (BitVec.ofNat 512), maxpass := bits h 63 32, arg := arg, deadline := deadline, pass := 0, pend := []
                             live := [], st := [], rearm := false, failed := none, done := 0, stop := false, seen := [] }
          let s1 := s.addJob { j with opn := false, kind := .graph (g.newPass 0 j.seen) }
          (s1.graphWork g.fuel s.nextJob [.start 0]).graphSettle 2 s.nextJob

/-- A write or an engine operation of the crew is outstanding: the completion record of its launch follows it (R347). -/
def State.crewWork (s : State) (ci : Nat) : Bool :=
  s.ops.any (fun o => decide (o.crew = ci) && (!o.cells.isEmpty || !o.atoms.isEmpty || o.eng.isSome))

/-- The children of a grid whose crews have all ended complete (R357, R401). -/
def State.kidsDone (s : State) (j : Job) (l : Launch) : State :=
  let k := l.ncrews / l.kids.length
  (List.range l.kids.length).foldl (fun s i =>
    let ks := (s.crewsOf j.id).filter (fun c => decide (c.crewid / k = i))
    if l.kidDone.contains i ∨ ks.length < k ∨ ks.any (fun c => decide (c.st ≠ .ended))
        ∨ (s.launchCrews j.id).any (fun c => s.crewIs (fun q => decide (q.crewid / k = i)) c && s.crewWork c) then s
    else
      match l.kids[i]? with
      | none => s
      | some kid =>
        let c := firstKill ks
        let s1 := s.modJob j.id (fun j => match j.kind with | .launch l => { j with kind := .launch { l with kidDone := i :: l.kidDone } } | _ => j)
        let seen := unionOf (((s.launchCrews j.id).filter (s.crewIs (fun q => decide (q.crewid / k = i)))).map s.crewAll)
        let j2 : Job := { j with cq := kid.cq, compl := kid.compl, tag := kid.tag, queue := some ((Config.free s1.free).toNat % 2 ^ 15)
                                 index := (Config.free (s1.free + 1)).toNat % 2 ^ 32 }
        let s2 := s1.workWith seen (fun s => s.record j2 (if c = 0 then 0 else 6) k 0 c)
        { s2 with free := s2.free + 2 }) s

/-- A launch completes once no crew is left to place, every crew has ended and every write of theirs has been accepted (R347, R350,
R355, R401). -/
def State.launchCheck (s : State) (id : Nat) : State :=
  match s.job? id with
  | none => s
  | some j =>
    match j.kind with
    | .launch l =>
      let s1 := if l.kids = [] then s else s.kidsDone j l
      let ks := s1.crewsOf id
      if (l.placed < l.ncrews ∧ !l.halted) ∨ ks.any (fun k => decide (k.st ≠ .ended)) ∨ (s1.launchCrews id).any s1.crewWork then s1
      else
        let c := firstKill ks
        s1.jobDone { j with seen := unionOf (j.seen :: (s1.launchCrews id).map s1.crewAll) } (if c ≠ 0 ∨ l.bad then 6 else if l.cut then 4 else 0) l.placed 0 c
    | _ => s

/-- A change to a job's launch. -/
def State.modLaunch (s : State) (id : Nat) (opn : Bool) (f : Launch → Launch) : State :=
  s.modJob id (fun j => match j.kind with | .launch l => { j with opn := opn, kind := .launch (f l) } | _ => j)

/-- A destination barrier in crew `id` of a launch, which has just been placed as crew `ci`. -/
def State.barPlaced (s : State) (launch id ci : Nat) (b : DstBar) : DstBar :=
  match b, s.crews[ci]? with
  | .coming l c rbar, some k => if l = launch ∧ c = id then (if k.z = 0 then .none else .crew ci (spAddr k.z (32 * rbar) 0 32)) else b
  | b, _ => b

/-- Crew `id` of a launch has been placed: requests of Iris account on its barriers from now on, and what they accounted before is
applied in order (R230, R372). -/
def State.reqsPlaced (s : State) (launch id : Nat) : State :=
  match s.crewOf launch id with
  | none => s
  | some ci =>
    let mine := fun (u : Nat × Nat × Nat × BarUpd × List Nat) => decide (u.1 = launch ∧ u.2.1 = id)
    let s1 : State := { s with
      dies := s.dies.map (fun d => { d with iris := { d.iris with reqs := d.iris.reqs.map (fun r => { r with bar := s.barPlaced launch id ci r.bar }) } })
      coming := s.coming.filter (fun u => !(mine u)) }
    (s.coming.filter mine).foldl (fun t u => match s.barPlaced launch id ci (.coming launch id u.2.2.1) with
      | .crew c off => t.barUpdBy u.2.2.2.2 c off u.2.2.2.1
      | _ => t) s1

/-- What the fork of the next crew of a launch has behind it: its packet's acquire, or its child's launch (R350, R356). -/
def Launch.forkSeen (l : Launch) (seen : List Nat) : List Nat :=
  if l.kids = [] then seen
  else addAll seen (match l.kids[l.placed / (l.ncrews / l.kids.length)]? with | some k => k.seen | none => [])

/-- A crew starts, and every thread of it comes after the writes of its fork (R217, R350, R356). -/
def State.startCrew (s : State) (k : Crew) (seen : List Nat) : State :=
  (List.range k.warps.length).foldl (fun t w => t.learn (.warp s.crews.length w) (BitVec.allOnes 64) 0 seen) { s with crews := s.crews ++ [k] }

/-- Places the next crew of a launch (R84, R85, R350). -/
def State.placeCrew (s : State) (id : Nat) : State :=
  match s.job? id with
  | none => s
  | some j =>
    match j.kind with
    | .launch l =>
      (if l.ncrews ≤ l.placed ∨ l.halted ∨ !(s.serves j.die) then s
      else
        match s.findCore j l with
        | none => s
        | some i =>
          match (coreOrder l.pkt.toNat j.die)[i]?, s.kparam j l with
          | none, _ => s
          | _, none => (s.modLaunch id false (fun l => { l with halted := true, bad := true })).launchCheck id
          | some (die, core), some kp =>
            let p := l.pkt.toNat
            let k := Crew.start l.image id die core j.ctxid l.placed l.ncrews s.dtime (pkCtlc p) (BitVec.ofNat 64 kp)
              (BitVec.ofNat 64 (pkThtab p)) (BitVec.ofNat 16 (pkThcount p)) (if pkSgv p then some (pkSg p) else none)
            ((s.startCrew k (l.forkSeen j.seen)).reqsPlaced id l.placed).modLaunch id (decide (l.placed + 1 < l.ncrews))
              (fun l => { l with placed := l.placed + 1, next := (i + 1) % (coreOrder p j.die).length }))
    | _ => s

/-- Every thread and context of a crew has ended (R87). -/
def State.crewQuiet (s : State) (ci : Nat) (k : Crew) : Bool :=
  k.threadsEnded && s.ctxs.all (fun c => decide (c.crew ≠ ci ∨ c.st = .ended))

/-- An operation of an ended crew: its loads fill no register, its writes and engine parts go on (R209). -/
def Op.orphaned (o : Op) : Op := { o with fills := [], sload := none }

/-- The accesses of a crew that has ended. -/
def State.leaveOps (s : State) (ci : Nat) : State :=
  { s with ops := (s.ops.map (fun o => if o.crew = ci then o.orphaned else o)).filter (fun o => !(decide (o.crew = ci) && o.done)) }

/-- A crew ends and its resources return (R87); for one that has ended, its launch is looked at again. A cohort whose bound barrier lay in it
keeps the record of it (log entry 119, DESIGN CHOICE). -/
def State.endCrew (s : State) (ci : Nat) : State :=
  match s.crews[ci]? with
  | none => s
  | some k =>
    if k.st = .running ∧ s.crewQuiet ci k then
      (((s.leaveOps ci).modCrew ci (fun k => { k with st := .ended })).launchCheck k.launch).preemptCheck
    else if k.st = .ended then s.launchCheck k.launch
    else s

/-- The values of the conditions of a wait: none where a read faults. -/
def State.condsOf (s : State) (ctx : Nat) : List (Nat × W64 × Nat) → Option (List Bool)
  | [] => some []
  | (a, v, cc) :: r =>
    match s.vrd ctx a 8, State.condsOf s ctx r with
    | some x, some bs => some (condHolds cc x v.toNat :: bs)
    | _, _ => none

/-- A barrier packet or WAIT node reads its words again, each an acquire at SYS scope (R352, R360); a graph between passes goes on. -/
def State.pollJob (s : State) (id : Nat) : State :=
  match s.job? id with
  | none => s
  | some j =>
    match j.kind with
    | .wait cs all =>
      let j := { j with seen := unionOf (j.seen :: cs.map (fun c => s.vobserved j.ctxid c.1 8)) }
      let s := s.modJob id (fun x => { x with seen := j.seen })
      (match s.condsOf j.ctxid cs with
       | none => s.jobDone j 6 0 0 0
       | some bs => if (if all then bs.all (fun b => b) else bs.any (fun b => b)) then s.jobDone j 0 0 0 0 else s)
    | .graph _ => s.graphSettle 2 id
    | _ => s

/-- The job whose copy has an operation number. -/
def State.copyJob? (s : State) (op : Nat) : Option (Job × CpOp) :=
  s.jobs.findSome? (fun j => match j.kind with | .copy o c => if o = op then some (j, c) else none | _ => none)

/-- A job's copy ends, with what its operation thread did behind it (R218, R352). -/
def State.copyEnds (s : State) (j : Job) (status : Nat) : State := s.jobDone { j with seen := addAll j.seen s.actSeen } status 0 0 0

/-- A change to a job's copy, which completes once nothing is left (R352). -/
def State.copyGoes (s : State) (j : Job) (op : Nat) (c : CpOp) : State :=
  if c.left = [] then s.copyEnds j 0 else s.modJob j.id (fun j => { j with kind := .copy op c })

/-- The die of the first of some runs of keys. -/
def runsDie : List (Nat × Nat) → Nat
  | q :: _ => keyDie q.1
  | [] => 0

/-- The bytes of runs of keys with their marks, as the agent of the step reads them (R220). -/
def State.runBytes (s : State) (ks : List (Nat × Nat)) : List MByte := ks.flatMap (fun q => s.memBytes q.1 q.2)

/-- Writes bytes with their marks over runs of keys. -/
def State.wrRunsMarked (s : State) : List (Nat × Nat) → List MByte → State
  | [], _ => s
  | (k, n) :: r, bs => State.wrRunsMarked (s.wrMarked k (bs.take n)) r (bs.drop n)

/-- A part of a packet's or node's COPY (R352, R282): the block around byte `b` is read, or accepted, under the destination die's Iris
where it crosses (R14, R283). -/
def State.hostCopyPart (s : State) (j : Job) (op : Nat) (c : CpOp) (b : Nat) : State :=
  match rangeAt b c.unread, rangeAt b c.left with
  | some r, _ =>
    let p := readAt c r b
    (match s.vkeys j.ctxid kRead ((c.src + p.1) % 2 ^ 64) p.2 with
    | .error _ => s.copyEnds j 6
    | .ok ks => s.copyGoes j op (c.take p (runsDie ks) (s.runBytes ks)))
  | none, some r =>
    let p := partAt c c.index r b
    if c.unread.any (fun q => meets p.1 p.2 q.1 q.2) then s
    else
      (match s.vkeys j.ctxid kWrite ((c.dst + p.1) % 2 ^ 64) p.2 with
      | .error _ => s.copyEnds j 6
      | .ok ks =>
        if c.crosses p (runsDie ks) && s.bridgeShut (runsDie ks) c.tried then s.copyGoes j op { c with tried := s.triedAt c.tried }
        else (s.wrRunsMarked ks (c.bytes p)).copyGoes j op (c.accept p))
  | none, none => s

/-- The copy of a packet or node is an operation thread, forked from the packet's acquire or after the nodes before it (R350, R352, R360). -/
def State.asCopy (s : State) (op : Nat) (past : List Nat) (f : State → State) : State := (f { s with actor := ⟨.op op, past, []⟩ }).workEnd s

/-- A part of any copy: of a copy engine's operation or of a packet's. -/
def State.anyCopyPart (s : State) (op part : Nat) : State :=
  match s.op? op with
  | some _ => s.copyPart op part
  | none =>
    match s.copyJob? op with
    | some (j, c) => s.asCopy op j.seen (fun s => s.hostCopyPart j op c part)
    | none => s

/-- COPY_PART (R280, R282, R352). -/
def execCopyPart (op part : Nat) (s : State) : Host.Outcome State Fault Refusal := .next (s.anyCopyPart op part)
/-- CREW_PLACE (R350). -/
def execCrewPlace (launch : Nat) (s : State) : Host.Outcome State Fault Refusal := .next (s.placeCrew launch)
/-- CREW_END (R87). -/
def execCrewEnd (crew : Nat) (s : State) : Host.Outcome State Fault Refusal := .next (s.endCrew crew)
/-- BARRIER_PACKET_POLL (R352). -/
def execBarrierPacketPoll (job : Nat) (s : State) : Host.Outcome State Fault Refusal := .next (s.pollJob job)

end Sys2Proof.Machine
end

