-- ==== Sys2Proof/Machine/Csr.lean ====
section
/-! DEFINITION. Control and status registers: CSRR, CSRW and the CSRs that rows of their own name (R70, R98, R116,
R131, R132, R163, R178, R191, R253, R274, R310, R319, R386, R398, R410, R459). -/
namespace Sys2Proof.Machine

/-- Matrix operations that the context issued are outstanding (R253). -/
def State.mxOut (s : State) (t : ThreadRef) : Bool :=
  s.ops.any (fun o => decide (o.who = t) && (match o.eng with | some (.mx _) => true | _ => false))

/-- The loop stack of an issuer. -/
def State.loopsOf (s : State) (e : Env) : List LoopEnt :=
  match e.who with
  | .warp c w => match s.warp? c w with | some w => w.loops | none => []
  | .ctx x => match s.ctxs[x]? with | some c => c.loops | none => []

/-- COUNT of loop `i` from the bottom of the stack (R98); 0 where it is not valid. -/
def lpCount (ls : List LoopEnt) (i : Nat) : W64 := match ls.reverse[i]? with | some l => l.count.setWidth 64 | none => 0

/-- RMODE and FTZ of an issuer: a context's are its own copies (R22, R42). -/
def State.modesOf (s : State) (e : Env) : BitVec 3 × BitVec 3 :=
  match e.who with
  | .warp c w => match s.warp? c w with | some w => (w.rmode, w.ftz) | none => (0, 0)
  | .ctx x => match s.ctxs[x]? with | some c => (c.rmode, c.ftz) | none => (0, 0)

/-- TSTAT (R398). -/
def Warp.tstat (w : Warp) : W64 := BitVec.ofNat 64 (b2n w.hact * 2 ^ 63 + w.nkill.toNat * 2 ^ 8 + w.tlen.toNat)

/-- The key of a core in the power manager's tables. -/
def coreKey (die core : Nat) : Nat := die * 512 + core

/-- The vector and matrix allowances of a core (R408, R410): what `throttle` takes off 100. -/
def State.allowance (s : State) (die core : Nat) : Nat × Nat :=
  let t := (s.throttle.get (coreKey die core)).toNat
  (100 - t / 256, 100 - t % 256)

/-- DTIME as the cores of a die read it (R132). -/
def State.dieTime (s : State) (die : Nat) : Nat := s.dtime + (if die = 0 then s.skew.1 else s.skew.2)

/-- PWRSTAT (R410). -/
def State.pwrstat (s : State) (die core : Nat) : W64 :=
  let a := s.allowance die core
  BitVec.ofNat 64 (b2n (s.clamp.getLsbD die) * 2 ^ 63 + a.1 * 2 ^ 8 + a.2)

/-- The CSRs of every program (R70 and the chapters it names); none where the number is not one of them. -/
def State.csrAll (s : State) (e : Env) (n : Nat) : Option W64 :=
  let k := e.k
  match n with
  | 0x000 => some 64
  | 0x001 => some 528
  | 0x002 => some (BitVec.ofNat 64 k.die)
  | 0x003 => some (BitVec.ofNat 64 k.core)
  | 0x004 => some (BitVec.ofNat 64 e.wi)
  | 0x006 => some (BitVec.ofNat 64 k.ctxid)
  | 0x010 => some ((s.modesOf e).1.setWidth 64)
  | 0x011 => some ((s.modesOf e).2.setWidth 64)
  | 0x020 => some (BitVec.ofNat 64 (s.dieTime k.die))
  | 0x040 => some k.kdata
  | 0x041 => some k.kparam
  | 0x042 => some (BitVec.ofNat 64 k.crewid)
  | 0x043 => some (BitVec.ofNat 64 k.ncrews)
  | 0x080 => some (BitVec.ofNat 64 (s.loopsOf e).length)
  | 0x081 => some (lpCount (s.loopsOf e) 0)
  | 0x082 => some (lpCount (s.loopsOf e) 1)
  | 0x083 => some (lpCount (s.loopsOf e) 2)
  | 0x084 => some (lpCount (s.loopsOf e) 3)
  | 0x085 => some (BitVec.ofNat 64 (clusterOf k.core))
  | 0x090 => some (BitVec.ofNat 64 k.image.regs)
  | 0x091 => some 272
  | 0x0A0 => some (BitVec.ofNat 64 k.z)
  | 0x0A1 => some (BitVec.ofNat 64 (8 * k.image.warps))
  | 0x0C5 => some k.thbase
  | 0x0C6 => some (k.thcount.setWidth 64)
  | 0x0C8 => some k.cpfault
  | 0x0D0 => some (k.pgwait.setWidth 64)
  | 0x0D8 => some (match s.dies[k.die]? with | some d => d.sched.recva | none => 0)
  | 0x0E0 => some k.neterr
  | 0x0E1 => some s.devid
  | 0x0F4 => some (s.pwrstat k.die k.core)
  | _ => none

/-- The CSRs of vector programs only (R274, R398, R459). -/
def csrVector (k : Crew) (w : Warp) (n : Nat) : Option W64 :=
  match n with
  | 0x030 => some w.trapcause
  | 0x031 => some w.trappc
  | 0x032 => some w.trapinfo
  | 0x0B0 => some w.faultdet
  | 0x0C9 => some w.sqtcause
  | 0x0CA => some w.sqtpc
  | 0x0CB => some w.sqtinfo
  | 0x0F0 => some (k.tvec.setWidth 64)
  | 0x0F1 => some w.tstat
  | 0x0F2 => some w.poisonva
  | 0x0F3 => some w.hmask
  | _ => none

/-- The CSRs of matrix contexts only (R253). -/
def csrMatrix (c : SCtx) (n : Nat) : Option W64 :=
  match n with
  | 0x0C0 => some c.mxbar
  | 0x0C1 => some c.mxshape
  | 0x0C2 => some c.mxgang
  | 0x0C3 => some c.mxfault
  | 0x0C4 => some c.mxglost
  | _ => none

/-- The value of CSR `n` in the issuer's kind of program; none where it is unassigned there. -/
def State.csr? (s : State) (e : Env) (n : Nat) : Option W64 :=
  match s.csrAll e n with
  | some v => some v
  | none =>
    match e.who, e.eng with
    | .warp c w, _ => (s.warp? c w).bind (fun w => csrVector e.k w n)
    | .ctx x, .matrix => (s.ctxs[x]?).bind (fun c => csrMatrix c n)
    | .ctx _, _ => none

/-- A CSR that a program may write (R70). -/
def csrWritable (n : Nat) : Bool := [0x010, 0x011, 0x0C0, 0x0C1, 0x0C2, 0x0C3, 0x0C8, 0x0D0, 0x0E0, 0x0F0].contains n

/-- A read that waits for the context's matrix operations (R253). -/
def mxWaits (n : Nat) : Bool := decide (n = 0x0C3 ∨ n = 0x0C4)

/-- CSRR (R131). -/
def csrRead (i : Instr) (s : State) (sd : BitVec 6) (n : Nat) : Host.Outcome State Fault Refusal :=
  run i s (fun e =>
    match s.csr? e n with
    | none => .error (e.ill 1)
    | some v => do
      waitUnless (!(mxWaits n && s.mxOut e.who))
      wrS s e sd.toNat v)

/-- Changes RMODE of an issuer. -/
def State.setModes (s : State) (e : Env) (f : BitVec 3 × BitVec 3 → BitVec 3 × BitVec 3) : State :=
  match e.who with
  | .warp c w => s.modWarp c w (fun w => let r := f (w.rmode, w.ftz); { w with rmode := r.1, ftz := r.2 })
  | .ctx x => s.modCtx x (fun c => let r := f (c.rmode, c.ftz); { c with rmode := r.1, ftz := r.2 })

/-- Changes the issuing context. -/
def State.modOwnCtx (s : State) (e : Env) (f : SCtx → SCtx) : State :=
  match e.who with
  | .warp _ _ => s
  | .ctx x => s.modCtx x f

/-- A write of a writable CSR; reserved bits are ignored (R7, R131). -/
def State.csrStore (s : State) (e : Env) (n : Nat) (v : W64) : State :=
  match n with
  | 0x010 => s.setModes e (fun q => (v.setWidth 3, q.2))
  | 0x011 => s.setModes e (fun q => (q.1, v.setWidth 3))
  | 0x0C0 => s.modOwnCtx e (fun c => { c with mxbar := v &&& 0x80000000FFFFFFFF#64 })
  | 0x0C1 => s.modOwnCtx e (fun c => { c with mxshape := v &&& 0x80FFFFFF0000000F#64 })
  | 0x0C2 => s.modOwnCtx e (fun c => { c with mxgang := v &&& 0xFFFFFFFF#64 })
  | 0x0C3 => s.modOwnCtx e (fun c => { c with mxfault := 0, mxbad := none })
  | 0x0C8 => s.modCrew e.ci (fun k => { k with cpfault := 0 })
  | 0x0D0 => s.modCrew e.ci (fun k => { k with pgwait := v.setWidth 16 })
  | 0x0E0 => s.modCrew e.ci (fun k => { k with neterr := 0 })
  | 0x0F0 => s.modCrew e.ci (fun k => { k with tvec := v.setWidth 32 })
  | _ => s

/-- CSRW (R131, R132). -/
def csrWrite (i : Hdr) (s : State) (ss : BitVec 6) (n : Nat) : Host.Outcome State Fault Refusal :=
  runH i s (fun e => do
    need (decide (n = 0x005) || (s.csr? e n).isSome) (e.ill 1)
    need (csrWritable n) (e.ill 9)
    waitUnless (!(mxWaits n && s.mxOut e.who))
    let v ← rdS s e ss.toNat
    need (!(decide (n = 0x010 ∧ 6 ≤ v.toNat % 8) || decide (n = 0x0F0 ∧ v.toNat % 2 = 1))) (e.ill 9)
    pure (s.csrStore e n v))

/-- CSRR (R70, R131). -/
def execCsrr (o : OpCsrr) (s : State) : Host.Outcome State Fault Refusal := csrRead (.csrr o) s o.sd o.csr.toNat
/-- CSRW (R70, R131). -/
def execCsrw (o : OpCsrw) (s : State) : Host.Outcome State Fault Refusal := csrWrite (hdrOf (.csrw o)) s o.ss1 o.csr.toNat
/-- CSRR of MXFAULT or MXGLOST: waits for the context's matrix operations (R253). -/
def execMxglostRead (o : OpCsrMx) (s : State) : Host.Outcome State Fault Refusal :=
  csrRead (.mxglostRead o) s o.sd (if o.lost then 0x0C4 else 0x0C3)
/-- CSRW of NETERR: writes 0 to the whole register (R386). -/
def execNeterrWrite (o : OpCsrW0) (s : State) : Host.Outcome State Fault Refusal := csrWrite (baseHdr (0xE000095 + putCsrW0 o)) s o.ss1 0x0E0
/-- CSRW of CPFAULT: writes 0 to the whole register (R274). -/
def execCpfaultWrite (o : OpCsrW0) (s : State) : Host.Outcome State Fault Refusal := csrWrite (baseHdr (0xC800095 + putCsrW0 o)) s o.ss1 0x0C8
/-- CSRW of MXFAULT: waits, then writes 0 and ends the context's fault (R253, R254). -/
def execMxfaultWrite (o : OpCsrW0) (s : State) : Host.Outcome State Fault Refusal := csrWrite (baseHdr (0xC300095 + putCsrW0 o)) s o.ss1 0x0C3

end Sys2Proof.Machine
end

