-- ==== Sys2Proof/Machine/Pages.lean ====
section
/-! DEFINITION. Page engines: frames and their table, layer pools, block tables, resolution, allocation, holds,
copies and releases (R291 to R307, R440), and live sequences (R319, R320). -/
namespace Sys2Proof.Machine

/-- The unmapped marker (R291). -/
def noFrame : Nat := 0xFFFFFFFF
def frTier (f : Nat) : Nat := f / 2 ^ 29
def frIndex (f : Nat) : Nat := f % 2 ^ 29

/-- The target memory of a tier of a die (R291). -/
def tierTgt (die tier : Nat) : Nat := if tier = 3 then die else tier

/-- The page engine of a die. -/
def State.pe (s : State) (die : Nat) : PageEng :=
  match s.dies[die]? with | some d => d.pe | none => ⟨256, 64, 16, [], []⟩

/-- The range of a frame that a die's page engine owns (R292). -/
def PageEng.range? (p : PageEng) (die f : Nat) : Option TierRange :=
  p.ranges.find? (fun r => decide (r.tier = frTier f ∧ (2 ≤ r.tier ∨ r.tier = die) ∧ r.first ≤ frIndex f ∧ frIndex f < r.first + r.count))

/-- The key of a frame's table entry (R292). -/
def State.frKey (s : State) (die f : Nat) : Nat :=
  match (s.pe die).range? die f with
  | some r => memKey (tierTgt die r.tier) (r.tbase + 32 * (frIndex f - r.first))
  | none => 0

/-- The key of a frame's first byte (R292). -/
def State.frBase (s : State) (die f : Nat) : Nat :=
  match (s.pe die).range? die f with
  | some r => memKey (tierTgt die r.tier) (r.fbase + (frIndex f - r.first) * 2 ^ (s.pe die).frshift)
  | none => 0

/-- A frame-table entry (R293). -/
def State.frEnt (s : State) (die f : Nat) : Nat := s.rd (s.frKey die f) 32

/-- Writes a frame-table entry. -/
def State.setFr (s : State) (die f e : Nat) : State := s.wr (s.frKey die f) 32 e

def feOwnSeq (e : Nat) : Nat := bits e 255 224
def feOwnPg (e : Nat) : Nat := bits e 223 200
def feOwnPool (e : Nat) : Nat := bits e 199 196
def feOwnV (e : Nat) : Bool := decide (bits e 195 195 = 1)
def feBack (e : Nat) : Nat := bits e 159 128
def feLru (e : Nat) : Nat := bits e 127 96
def feRef (e : Nat) : Nat := bits e 63 48
def fePin (e : Nat) : Nat := bits e 47 40
def fePool (e : Nat) : Nat := bits e 39 36
def feState (e : Nat) : Nat := bits e 35 33
def feLost (e : Nat) : Bool := decide (bits e 31 31 = 1)
def feFill (e : Nat) : Nat := bits e 8 0

/-- The entry of a FREE frame that a copy leaves or gives back: no owner, no reference, BACK unmapped (R293, R294). -/
def feFree : Nat := noFrame * 2 ^ 128

/-- The entry of a frame for its first reference (R294). -/
def feNew (st seq pool page back lru : Nat) : Nat :=
  seq * 2 ^ 224 + page % 2 ^ 24 * 2 ^ 200 + pool * 2 ^ 196 + 2 ^ 195 + back * 2 ^ 128 + lru * 2 ^ 96 + 2 ^ 48 + pool * 2 ^ 36 + st * 2 ^ 33

/-- Changes a frame's entry. -/
def State.modFr (s : State) (die f : Nat) (g : Nat → Nat) : State := s.setFr die f (g (s.frEnt die f))

/-- LRU of now (R293). -/
def State.lruNow (s : State) : Nat := s.dtime / 2 ^ 10 % 2 ^ 32

/-- Every frame number of the die's HBM4 tier (0 or 1) or of tier 2 or 3. -/
def PageEng.frames (p : PageEng) (die tier : Nat) : List Nat :=
  p.ranges.flatMap (fun r => if r.tier = tier ∧ (2 ≤ tier ∨ tier = die) then (List.range r.count).map (fun i => tier * 2 ^ 29 + r.first + i) else [])

/-- The FREE frames of a tier, lowest number first (R440). -/
def State.freeFrames (s : State) (die tier : Nat) : List Nat :=
  ((s.pe die).frames die tier).filter (fun f => decide (feState (s.frEnt die f) = 0))

/-- A frame that is the other side of a copy in progress: the source of a fetch or of a copy-on-write. -/
def State.copySource (s : State) (die f : Nat) : Bool :=
  ((s.pe die).frames die die).any (fun g => decide (feState (s.frEnt die g) = 3 ∧ feBack (s.frEnt die g) = f))

/-- The engine part of an operation holds the frame (R311, R313). -/
def Op.holdsFrame (o : Op) (die f : Nat) : Bool :=
  match o.eng with
  | some (.kg g) => decide (g.die = die) && g.lanes.any (fun l => decide (l.2.1 = 0 ∧ l.2.2 = f))
  | some (.ka a) => decide (a.die = die ∧ a.frame = f)
  | _ => false

/-- A hold stands on the frame: of an operation, withdrawn or not (R317), or of a copy that reads it. -/
def State.frHeld (s : State) (die f : Nat) : Bool :=
  s.ops.any (fun o => o.holdsFrame die f) || s.withdrawn.any (fun o => o.holdsFrame die f) || s.copySource die f

/-- A RESIDENT frame without reference, pin or hold becomes FREE (R294, R301, R303) and LOST ends (R307); its other fields stand. -/
def State.frSettle (s : State) (die f : Nat) : State :=
  let e := s.frEnt die f
  if ((s.pe die).range? die f).isSome ∧ feState e = 1 ∧ feRef e = 0 ∧ fePin e = 0 ∧ !(s.frHeld die f)
  then s.setFr die f (setBits (setBits e 35 33 0) 31 31 0) else s

/-- Geometry of a layer pool (R296, R297). -/
def poolV (q : BitVec 64) : Bool := q.getLsbD 55
def poolHeads (q : BitVec 64) : Nat := bitsOf q 54 48 + 1
def poolFmt (q : BitVec 64) : Nat := bitsOf q 47 44
def poolHr (q : BitVec 64) : Nat := bitsOf q 43 41
def poolP (q : BitVec 64) : Nat := 2 ^ bitsOf q 40 38
def poolHdim (q : BitVec 64) : Nat := 32 * (bitsOf q 37 34 + 1)
def poolW (q : BitVec 64) : Nat := fmtWidth (poolFmt q)
def poolScaled (q : BitVec 64) : Bool := decide (3 ≤ poolFmt q ∧ poolFmt q ≤ 7)
def poolRb (q : BitVec 64) : Nat := poolHdim q * poolW q / 8
def poolHs (q : BitVec 64) : Nat := 2 * poolP q * poolRb q
def poolNb (q : BitVec 64) : Nat := poolHdim q / 32
def poolElems (q : BitVec 64) : Nat := poolHeads q * poolHs q
def poolScales (q : BitVec 64) : Nat := if poolScaled q then 2 * poolHeads q * poolNb q else 0
def poolSize (q : BitVec 64) : Nat := alignUp (poolElems q + poolScales q) 256
/-- The offset of a row of keys or values (R297). -/
def poolRow (q : BitVec 64) (h kv o : Nat) : Nat := h * poolHs q + kv * poolP q * poolRb q + o * poolRb q
/-- The offset of a scale (R297). -/
def poolScaleAt (q : BitVec 64) (h kv b : Nat) : Nat := poolElems q + (2 * h + kv) * poolNb q + b

/-- A die's layer pool. -/
def State.pool (s : State) (die q : Nat) : BitVec 64 := (s.pe die).pools.getD q 0

/-- The scheduler of a die. -/
def State.sched (s : State) (die : Nat) : Sched :=
  match s.dies[die]? with | some d => d.sched | none => Sched.reset

/-- The fields of a sequence ID (R320). -/
def sqDie (id : Nat) : Nat := bits id 31 31
def sqSlot (id : Nat) : Nat := bits id 30 18
def sqGen (id : Nat) : Nat := bits id 17 0

/-- The key of a record (R319). -/
def State.recKey (s : State) (die slot : Nat) : Nat := memKey die ((s.sched die).recbase + 128 * slot)

/-- The record of a slot (R321). -/
def State.recOf (s : State) (die slot : Nat) : Nat := s.rd (s.recKey die slot) 128

/-- The generation of a slot (R320). -/
def Sched.gen (d : Sched) (slot : Nat) : Nat := (d.gens.get slot).toNat + 1

def rcTokbuf (r : Nat) : Nat := bits r 1023 960
def rcBtab (r : Nat) : Nat := bits r 959 896
def rcDeadline (r : Nat) : Nat := bits r 831 768
def rcRing (r : Nat) : Nat := bits r 623 608
def rcPeer (r : Nat) : Nat := bits r 607 592
def rcMaxtok (r : Nat) : Nat := bits r 575 552
def rcPlen (r : Nat) : Nat := bits r 551 528
def rcGlen (r : Nat) : Nat := bits r 527 504
def rcPos (r : Nat) : Nat := bits r 503 480
def rcLasttok (r : Nat) : Nat := bits r 479 448
def rcSeqid (r : Nat) : Nat := bits r 447 416
def rcPrio (r : Nat) : Nat := bits r 415 408
def rcGroup (r : Nat) : Nat := bits r 407 404
def rcState (r : Nat) : Nat := bits r 403 400
def rcStream (r : Nat) : Bool := decide (bits r 384 384 = 1)
def rcCancel (r : Nat) : Bool := decide (bits r 386 386 = 1)
def rcLate (r : Nat) : Bool := decide (bits r 387 387 = 1)

/-- The record of a live sequence (R320): none where the ID is stale. -/
def State.live? (s : State) (id : Nat) : Option Nat :=
  let r := s.recOf (sqDie id) (sqSlot id)
  if id < 2 ^ 32 ∧ sqDie id < s.dies.length ∧ rcState r ≠ 0 ∧ rcSeqid r = id ∧ (s.sched (sqDie id)).gen (sqSlot id) = sqGen id then some r else none

/-- A group descriptor (R323) and its context. -/
def State.group (s : State) (die g : Nat) : BitVec 512 := (s.sched die).groups.getD g 0
def grpCtx (g : BitVec 512) : Nat := bitsOf g 43 12

/-- The context of a sequence's group. -/
def State.seqCtx (s : State) (id r : Nat) : Nat := grpCtx (s.group (sqDie id) (rcGroup r))

/-- The block-table header (R299): QMAX and NPAGE; none where it cannot be read or a reserved bit is set. -/
def State.btHeader (s : State) (ctx btab : Nat) : Option (Nat × Nat) :=
  match s.vrd ctx btab 16 with
  | some h => if h / 2 ^ 36 = 0 then some (bits h 35 32, bits h 31 0) else none
  | none => none

/-- The address of a block-table entry (R299). -/
def btAddr (btab npage q j : Nat) : Nat := btab + 16 + 4 * (q * npage + j)

/-- The page engine's write of a block-table entry: its translation is the sequence's, its write needs no permission of a
program's. -/
def State.setBt (s : State) (ctx btab npage q j f : Nat) : State :=
  match s.vkeys ctx kRead (btAddr btab npage q j) 4 with
  | .ok ks => s.wrRuns ks f
  | .error _ => s

/-- resolve of R300: status and frame. -/
def State.resolve (s : State) (ctx seq q pos : Nat) : Nat × Nat :=
  match s.live? seq with
  | none => (2, noFrame)
  | some r =>
    if s.seqCtx seq r ≠ ctx then (2, noFrame)
    else
      match s.btHeader ctx (rcBtab r) with
      | none => (3, noFrame)
      | some (qmax, npage) =>
        let die := sqDie seq
        let j := pos / poolP (s.pool die q)
        if qmax < q ∨ 2 ^ 24 ≤ pos ∨ npage ≤ j then (2, noFrame)
        else
          match s.vrd ctx (btAddr (rcBtab r) npage q j) 4 with
          | none => (3, noFrame)
          | some f =>
            if f = noFrame then (1, noFrame)
            else if ((s.pe die).range? die f).isNone ∨ feState (s.frEnt die f) = 0 ∨ feLost (s.frEnt die f) then (3, f)
            else (0, f)

/-- Rewrites the block-table entry that owns a frame so that it names `g` (R294). -/
def State.rewriteOwner (s : State) (die e f g : Nat) : State :=
  if feOwnV e then
    match s.live? (feOwnSeq e) with
    | some r =>
      let ctx := s.seqCtx (feOwnSeq e) r
      match s.btHeader ctx (rcBtab r) with
      | some (_, npage) =>
        if s.vrd ctx (btAddr (rcBtab r) npage (feOwnPool e) (feOwnPg e)) 4 = some f ∧ sqDie (feOwnSeq e) = die then
          s.setBt ctx (rcBtab r) npage (feOwnPool e) (feOwnPg e) g
        else s
      | none => s
    | none => s
  else s

/-- The bytes of a page with their poison marks. -/
def State.pageBytes (s : State) (die f n : Nat) : List MByte := 
  (List.range n).map (fun j => (s.mem.get (s.frBase die f + j), s.bad (s.frBase die f + j) 1))

/-- Copies a page between frames; a poisoned source marks the destination LOST (R307). -/
def State.copyPage (s : State) (die src dst : Nat) : State :=
  let n := poolSize (s.pool die (fePool (s.frEnt die src)))
  let bs := s.pageBytes die src n
  let s1 := s.wrMarked (s.frBase die dst) bs
  if bs.any (fun b => b.2) then s1.modFr die dst (fun e => setBits e 31 31 1) else s1

/-- A page-engine copy that moves bytes between the dies waits while a destination's Iris takes no request: each 64-byte block is a
request whose bytes lie in its prefix (R14, R283, R295, R380). -/
def State.pageShut (s : State) (die src dst : Nat) : Bool :=
  let n := poolSize (s.pool die (fePool (s.frEnt die src)))
  let tried := match s.dies[die]? with | some d => (d.tries.find? (fun t => decide (t.1 = dst))).map Prod.snd | none => none
  (List.range ((n + 63) / 64)).any (fun i =>
    let dest := keyDie (s.frBase die dst + 64 * i)
    decide (keyDie (s.frBase die src + 64 * i) ≠ dest) && s.bridgeShut dest tried)

/-- A page-engine copy ends, or meets a full table and is sent again after 2 µs (R374, R380). -/
def State.pageCopy (s : State) (die src dst : Nat) (go : State) : State :=
  let without := fun (d : Die) => d.tries.filter (fun t => decide (t.1 ≠ dst))
  if s.pageShut die src dst then
    s.modDie die (fun d => { d with tries := (dst, ((s.triedAt ((d.tries.find? (fun t => decide (t.1 = dst))).map Prod.snd)).getD s.dtime)) :: without d })
  else go.modDie die (fun d => { d with tries := without d })

/-- The entry that a page brings to its new frame (R294): RESIDENT, BACK unmapped. -/
def feMoved (e : Nat) (lost : Bool) : Nat :=
  let e1 := setBits (setBits e 35 33 1) 159 128 noFrame
  if lost then setBits e1 31 31 1 else e1

/-- A page moves from frame f to frame g (R294), its data included. -/
def State.movePage (s : State) (die f g : Nat) : State :=
  let e := s.frEnt die f
  let s1 := s.copyPage die f g
  let s2 := s1.setFr die g (feMoved e (feLost (s1.frEnt die g)))
  ((s2.rewriteOwner die e f g).setFr die f feFree).frSettle die g

/-- The HBM4 frame that an allocation may take: more than RESERVE are FREE (R305, R440). -/
def State.allocFrame (s : State) (die : Nat) : Option Nat :=
  let fs := s.freeFrames die die
  if (s.pe die).reserve < fs.length then fs.head? else none

/-- The HBM4 frame that a fetch may take, from the reserve too (R305). -/
def State.fetchFrame (s : State) (die : Nat) : Option Nat := (s.freeFrames die die).head?

/-- Starts the fetch of a RESIDENT tier-2 page, once, where a frame is FREE (R294, R305). -/
def State.startFetch (s : State) (die f : Nat) : State :=
  let e := s.frEnt die f
  if frTier f = 2 ∧ feState e = 1 ∧ !(s.copySource die f) then
    match s.fetchFrame die with
    | some g => s.setFr die g (setBits (setBits (fePool e * 2 ^ 36) 35 33 3) 159 128 f)
    | none => s
  else s

/-- A copy into frame `g` that a crew requested ends: it leaves the count of the crew's step, which joins it (R218, R242). -/
def State.xferDone (s : State) (die g : Nat) : State :=
  let mine := fun (x : Nat × Nat × Nat) => decide (x.2 = (die, g))
  (s.xfers.filter mine).foldl (fun t x => (t.stepNote x.1 s.actSeen).stepOpDone x.1 none) { s with xfers := s.xfers.filter (fun x => !(mine x)) }

/-- A frame that an instruction has to wait for (R310): tier 2, FETCHING or INBOUND. -/
def State.awaited (s : State) (die f : Nat) : Bool :=
  decide (frTier f = 2) || decide (feState (s.frEnt die f) = 3 ∨ feState (s.frEnt die f) = 4)

/-- An EVICTING HBM4 frame returns to RESIDENT, its tier-2 frame to FREE (R294). -/
def State.unevict (s : State) (die f : Nat) : State :=
  let e := s.frEnt die f
  if feState e = 2 ∧ frTier f = die then
    (s.setFr die f (setBits (setBits e 35 33 1) 159 128 noFrame)).setFr die (feBack e) feFree
  else s

/-- A gather hold or an append reaches a frame (R293, R294). -/
def State.touchFrame (s : State) (die f : Nat) : State :=
  let s1 := s.unevict die f
  s1.modFr die f (fun e => setBits e 127 96 s1.lruNow)

/-- Clears a page for its first append: element bytes zero, scale codes 0xFF (R294). -/
def State.clearPage (s : State) (die f : Nat) (q : BitVec 64) : State :=
  (s.wr (s.frBase die f) (poolElems q) 0).wr (s.frBase die f + poolElems q) (poolScales q) (256 ^ poolScales q - 1)

/-- The arguments that name a block-table entry. -/
structure BtRef where
  seq : Nat
  ctx : Nat
  btab : Nat
  npage : Nat
  q : Nat
  j : Nat

/-- The entry's reference for a live sequence with a readable header. -/
def State.btRef (s : State) (seq q j : Nat) : Option BtRef :=
  match s.live? seq with
  | none => none
  | some r =>
    let ctx := s.seqCtx seq r
    (s.btHeader ctx (rcBtab r)).map (fun h => ⟨seq, ctx, rcBtab r, h.2, q, j⟩)

/-- Reads and writes the entry. -/
def State.btGet (s : State) (b : BtRef) : Option Nat := s.vrd b.ctx (btAddr b.btab b.npage b.q b.j) 4
def State.btPut (s : State) (b : BtRef) (f : Nat) : State := s.setBt b.ctx b.btab b.npage b.q b.j f

/-- Allocates a frame for an unmapped entry (R294, R305). -/
def State.allocPage (s : State) (die : Nat) (b : BtRef) (g : Nat) : State :=
  ((s.setFr die g (feNew 1 b.seq b.q b.j noFrame s.lruNow)).clearPage die g (s.pool die b.q)).btPut b g

/-- Copy-on-write (R302): the entry takes the new frame, FETCHING from the shared one. -/
def State.cowPage (s : State) (die : Nat) (b : BtRef) (f g : Nat) : State :=
  let s1 := s.setFr die g (feNew 3 b.seq b.q b.j f s.lruNow)
  (s1.modFr die f (fun e => setBits e 63 48 (feRef e - 1))).btPut b g

/-- Unmaps an entry and takes its reference away (R301). -/
def State.releasePage (s : State) (die : Nat) (b : BtRef) : State :=
  match s.btGet b with
  | none => s
  | some f =>
    if f = noFrame then s
    else
      let s1 := s.btPut b noFrame
      if ((s1.pe die).range? die f).isNone ∨ feState (s1.frEnt die f) = 0 then s1
      else (s1.modFr die f (fun e => setBits e 63 48 (feRef e - 1))).frSettle die f

/-- Releases every page of a sequence (R339). -/
def State.releaseAll (s : State) (seq : Nat) : State :=
  match s.live? seq with
  | none => s
  | some r =>
    match s.btHeader (s.seqCtx seq r) (rcBtab r) with
    | none => s
    | some (qmax, npage) =>
      (List.range (qmax + 1)).foldl (fun s q => (List.range npage).foldl (fun s j =>
        s.releasePage (sqDie seq) ⟨seq, s.seqCtx seq r, rcBtab r, npage, q, j⟩) s) s

/-- Frames of an ended engine operation lose its hold (R311, R313). -/
def State.dropHolds (s : State) (die : Nat) (fs : List Nat) : State := fs.eraseDups.foldl (fun s f => s.frSettle die f) s

/-- Free HBM4 frames outside the reserve (R304). -/
def State.freeOutside (s : State) (die : Nat) : Nat := (s.freeFrames die die).length - (s.pe die).reserve

/-- A frame that may be evicted (R304). -/
def State.evictable (s : State) (die f : Nat) : Bool :=
  let e := s.frEnt die f
  decide (feState e = 1 ∧ fePin e = 0) && feOwnV e && !(s.frHeld die f)

/-- The one to evict: lowest LRU, then lowest number (R304). -/
def State.victim (s : State) (die : Nat) : Option Nat :=
  (((s.pe die).frames die die).filter (s.evictable die)).foldl (fun best f =>
    match best with
    | none => some f
    | some b =>
      let x := feLru (s.frEnt die f)
      let y := feLru (s.frEnt die b)
      if x < y ∨ (x = y ∧ f < b) then some f else some b) none

/-- An element of a list by a free value: which one the spec leaves open. -/
def State.pick (s : State) (l : List Nat) : Option Nat := l[(Config.free s.free).toNat % l.length]?

/-- The page engine starts to evict (R304). -/
def State.evictStart (s : State) (die : Nat) : State :=
  if s.freeOutside die < (s.pe die).lowat then
    match s.victim die, s.pick (s.freeFrames die 2) with
    | some f, some g =>
      let e := s.frEnt die f
      let s1 := s.setFr die f (setBits (setBits e 35 33 2) 159 128 g)
      { s1.setFr die g (setBits (setBits 0 35 33 2) 159 128 f) with free := s.free + 1 }
    | _, _ => s
  else s

/-- An eviction copy ends (R294). -/
def State.evictEnd (s : State) (die f : Nat) : State :=
  let e := s.frEnt die f
  if ((s.pe die).range? die f).isSome ∧ frTier f = die ∧ feState e = 2 ∧ !(s.frHeld die f) then
    s.pageCopy die f (feBack e) (s.movePage die f (feBack e))
  else s

/-- A fetch copy ends (R294). -/
def State.fetchEnd (s : State) (die g : Nat) : State :=
  let e := s.frEnt die g
  if ((s.pe die).range? die g).isSome ∧ frTier g = die ∧ feState e = 3 ∧ frTier (feBack e) = 2 then
    s.pageCopy die (feBack e) g ((s.movePage die (feBack e) g).xferDone die g)
  else s

/-- The scale codes that appends fixed in a frame while its copy was under way. -/
def State.reFix (s : State) (die g : Nat) : State :=
  (s.ops ++ s.withdrawn).foldl (fun s o =>
    match o.eng with
    | some (.ka a) => if a.die = die ∧ a.frame = g then a.fix.foldl (fun s p => s.wr (s.frBase die g + p.1) 1 p.2) s else s
    | _ => s) s

/-- A copy-on-write copy ends (R302), from HBM4 or from a delivered page of tier 3: page bytes, FILL and CLIP. -/
def State.cowEnd (s : State) (die g : Nat) : State :=
  let e := s.frEnt die g
  let f := feBack e
  if ((s.pe die).range? die g).isSome ∧ frTier g = die ∧ feState e = 3 ∧ frTier f ≠ 2 ∧ ((s.pe die).range? die f).isSome then
    let src := s.frEnt die f
    let s1 := s.copyPage die f g
    let e1 := setBits (setBits (s1.frEnt die g) 8 0 (feFill src)) 32 32 (bits src 32 32)
    (((s1.setFr die g (feMoved e1 (feLost e1))).reFix die g).frSettle die f).frSettle die g
  else s

end Sys2Proof.Machine
end

