-- ==== Sys2Proof/Machine/KvPage.lean ====
section
/-! DEFINITION. KVGATHER, KVAPPEND and PGREQ, their page waits, and the page engine's events (R308 to R314, R317). -/
namespace Sys2Proof.Machine

/-- The position and placement words (R309). -/
structure KvArgs where
  pool : Nat
  pos : Nat
  seq : Nat
  bar : Nat
  tr : Bool
  kv : Nat
  head : Nat
  dest : Nat

/-- The checks of R309, on the page engine of the sequence's home die. -/
def kvArgs (s : State) (e : Env) (a b : W64) (append : Bool) : Exe KvArgs := do
  let x : KvArgs := ⟨bitsOf a 59 56, bitsOf a 55 32, bitsOf a 31 0, bitsOf b 63 48, b.getLsbD 46, bitsOf b 45 45, bitsOf b 44 38, bitsOf b 19 0⟩
  let q := s.pool (sqDie x.seq) x.pool
  need (decide (bitsOf a 63 60 = 0 ∧ bitsOf b 47 47 = 0 ∧ bitsOf b 37 20 = 0) && !(append && (x.tr || decide (x.dest ≠ 0)))) (e.ill 6)
  need (poolV q && decide (x.head < poolHeads q)) (e.ill 6)
  pure x

/-- The active lanes of an issuer: a copy context acts with the mask its FORK recorded (R267). -/
def State.kvMask (s : State) (e : Env) : W64 :=
  match e.who with
  | .warp _ _ => e.m0
  | .ctx x => match s.ctxs[x]? with | some c => c.mask | none => 0

/-- The wait still stands at its instruction. -/
def State.pgLive (s : State) (p : PgWait) : Bool :=
  match p.who with
  | .warp c w =>
    (match s.warp? c w with
     | some wp => s.crewIs (fun k => decide (k.st = .running)) c && wp.frontier.any (fun f => decide (f.pc = p.pc ∧ f.st = .ready))
     | none => false)
  | .ctx x => (match s.ctxs[x]? with | some c => decide (c.st = .running ∧ c.pc = p.pc) | none => false)

/-- The waits of others that still stand, without the issuer's at this instruction. -/
def State.pgDrop (s : State) (t : ThreadRef) (pc : W32) : State :=
  { s with pgWaits := s.pgWaits.filter (fun p => !(decide (p.who = t ∧ p.pc = pc)) && s.pgLive p) }

/-- The page-wait limit has passed since `since` (R310). -/
def State.pgOver (s : State) (k : Crew) (since : Nat) : Bool := decide (k.pgwait ≠ 0 ∧ since + 1000 * k.pgwait.toNat ≤ s.dtime)

/-- PAGE_WAIT_TIMEOUT (R310). -/
def pageTrap (kind lane frame : Nat) : Trap := ⟨10, BitVec.ofNat 64 (kind * 2 ^ 56 + lane * 2 ^ 40 + frame % 2 ^ 32), none, 0⟩

/-- A wait that has run out: KVGATHER and KVAPPEND trap, PGREQ returns status 7 in register `lane` (R310). -/
def State.pgExpire (s : State) (e : Env) (kind lane frame : Nat) : State :=
  let s1 := s.pgDrop e.who e.pc
  if kind = 2 then (s1.setS e.who lane 7).jump e (e.pc + 4) else s1.raise e (pageTrap kind lane frame)

/-- What an instruction awaits under R310: kind, lane or register, and a frame of a die, or so many free ones. -/
structure PgNeed where
  kind : Nat
  lane : Nat
  frame : Nat
  die : Nat
  need : Nat

/-- Waits in place for a page or a frame (R310). -/
def State.pgStand (s : State) (e : Env) (x : PgNeed) : State :=
  match s.pgWaits.find? (fun p => decide (p.who = e.who ∧ p.pc = e.pc)) with
  | some p =>
    let since := if p.paused then s.dtime - p.since else p.since
    if s.pgOver e.k since then s.pgExpire e x.kind x.lane x.frame
    else { s with pgWaits := s.pgWaits.map (fun q => if q.who = e.who ∧ q.pc = e.pc then ⟨e.who, e.pc, since, x.kind, x.lane, x.frame, x.die, x.need, false⟩ else q) }
  | none => { s with pgWaits := s.pgWaits.filter s.pgLive ++ [⟨e.who, e.pc, s.dtime, x.kind, x.lane, x.frame, x.die, x.need, false⟩] }

/-- The pages have come and the instruction waits for something else, which has no limit (R170, R310): the count stands still. -/
def State.pgPause (s : State) (e : Env) : State :=
  { s with pgWaits := s.pgWaits.map (fun q => if q.who = e.who ∧ q.pc = e.pc ∧ !q.paused then { q with since := s.dtime - q.since, paused := true } else q) }

/-- What a waiting instruction awaits has not come. -/
def State.pgAwaited (s : State) (p : PgWait) : Bool :=
  !p.paused
    && (if p.frame = noFrame then decide ((s.freeFrames p.die p.die).length < p.need)
      else decide (feState (s.frEnt p.die p.frame) = 3 ∨ feState (s.frEnt p.die p.frame) = 4) || s.copySource p.die p.frame)

/-- Requests the fetch of every tier-2 frame of a list for a crew; a transfer that starts is registered with its step (R242). -/
def State.fetchAll (s : State) (ci die : Nat) (fs : List Nat) : State :=
  fs.foldl (fun s f =>
    let t := s.startFetch die f
    if t.copySource die f && !(s.copySource die f) then
      (match s.fetchFrame die with | some g => { t with xfers := t.xfers ++ [(ci, die, g)] } | none => t)
    else t) s

/-- What a page makes an instruction await: its frame, or a free one for its fetch (R305, R310). -/
def State.pgNeedOf (s : State) (kind lane die f : Nat) : PgNeed :=
  if frTier f = 2 ∧ !(s.copySource die f) then ⟨kind, lane, noFrame, die, 1⟩ else ⟨kind, lane, f, die, 0⟩

/-- Offsets, from DEST, of the bytes a gather delivers (R312). -/
def kgOffsets (q : BitVec 64) (tr : Bool) (lanes : List Nat) : List Nat :=
  if tr then List.range (poolHdim q * (8 * poolW q) + (if poolScaled q then 2 * poolHdim q else 0))
  else
    lanes.flatMap (fun i => (List.range (poolRb q)).map (fun j => i * poolRb q + j))
      ++ (if poolScaled q then lanes.flatMap (fun i => (List.range (poolNb q)).map (fun j => 64 * poolRb q + i * poolNb q + j)) else [])

/-- The scratchpad byte of a delivered offset. -/
def kgSpot (k : Crew) (g : KvGather) (off : Nat) : Nat := spAddr k.z (g.dest + off) 0 1

/-- The destination lines of a gather. -/
def kgLines (k : Crew) (g : KvGather) : List Nat :=
  ((kgOffsets g.pool g.tr (g.lanes.map Prod.fst)).map (fun o => kgSpot k g o / 128)).eraseDups

/-- The lanes of a gather whose row has not been read. -/
def KvGather.unread (g : KvGather) : List Nat :=
  (g.lanes.filter (fun l => decide (l.2.1 = 0) && !(g.rows.any (fun r => decide (r.1 = l.1))))).map Prod.fst

/-- The key of a lane's row in its frame (R297). -/
def kgRowKey (s : State) (g : KvGather) (i f : Nat) : Nat := s.frBase g.die f + poolRow g.pool g.head g.kv ((g.pos + i) % poolP g.pool)

/-- A scale code as delivered: 0xFF becomes 0x7F (R311). -/
def scaleOut (b : MByte) : MByte := if b.1 = 0xFF then (0x7F, b.2) else b

/-- The status and frame of a lane of the gather. -/
def KvGather.lane? (g : KvGather) (i : Nat) : Option (Nat × Nat) := (g.lanes.find? (fun l => decide (l.1 = i))).map Prod.snd

/-- What the page engine, schedulers and commands wrote happens before the read of a resident page (R294, R300). -/
def State.settled (s : State) : State :=
  let ws := s.writesThat (fun _ w => decide (w.author.agent = .work ∨ w.author.agent = .other))
  { s with actor := { s.actor with past := addAll s.actor.past ws } }

/-- A lane's row and its scale codes, as the gather reads them (R220, R311). -/
def kgRow (s : State) (ci : Nat) (k : Crew) (g : KvGather) (i f : Nat) : List MByte :=
  s.settled.opBytes ci k ((.mem (kgRowKey s g i f), poolRb g.pool)
    :: (if poolScaled g.pool then (List.range (poolNb g.pool)).map (fun b => (.mem (s.frBase g.die f + poolScaleAt g.pool g.head g.kv b), 1)) else []))

/-- Byte `j` of what a lane's row has been read as; none where the lane did not resolve. -/
def KvGather.rowByte (g : KvGather) (i j : Nat) : Option MByte :=
  (g.rows.find? (fun r => decide (r.1 = i))).map (fun r => r.2.getD j (0, false))

/-- One element of a lane's row, with its poison mark; 0 where the lane did not resolve. -/
def kgElem (g : KvGather) (i c : Nat) : Nat × Bool :=
  match g.rows.find? (fun r => decide (r.1 = i)) with
  | some r =>
    let w := poolW g.pool
    let bs := (r.2.drop (c * w / 8)).take ((c * w % 8 + w + 7) / 8)
    (leNat (bs.map Prod.fst) / 2 ^ (c * w % 8) % 2 ^ w, bs.any Prod.snd)
  | none => (0, false)

/-- A byte of the plain layout (R312). -/
def kgPlain (g : KvGather) (off : Nat) : MByte :=
  let rb := poolRb g.pool
  if off < 64 * rb then (g.rowByte (off / rb) (off % rb)).getD (0, false)
  else
    let r := off - 64 * rb
    match g.rowByte (r / poolNb g.pool) (rb + r % poolNb g.pool) with
    | some b => scaleOut b
    | none => (0x7F, false)

/-- A byte of the transposed layout (R312). -/
def kgTurned (g : KvGather) (off : Nat) : MByte :=
  let w := poolW g.pool
  let rw := 8 * w
  if off < poolHdim g.pool * rw then
    let k := off % rw
    let es := (List.range ((8 * k + 7) / w + 1 - 8 * k / w)).map (fun j => 8 * k / w + j)
    let v := es.foldl (fun a i => a + (kgElem g i (off / rw)).1 * 2 ^ (i * w)) 0
    (BitVec.ofNat 8 (v / 2 ^ (8 * k)), es.any (fun i => (kgElem g i (off / rw)).2))
  else
    let r := off - poolHdim g.pool * rw
    match g.lanes.find? (fun l => decide (l.1 / 32 = r % 2 ∧ l.2.1 = 0)) with
    | some l => scaleOut ((g.rowByte l.1 (poolRb g.pool + r / 2 / 32)).getD (0, false))
    | none => (0x7F, false)

/-- The delivered byte at an offset. -/
def kgByte (g : KvGather) (off : Nat) : MByte := if g.tr then kgTurned g off else kgPlain g off

/-- A byte at an offset comes from a page, not from the zeros of a lane that did not resolve (R312). -/
def KvGather.carries (g : KvGather) (off : Nat) : Bool :=
  let rb := poolRb g.pool
  if g.tr then !g.rows.isEmpty
  else (g.rowByte (if off < 64 * rb then off / rb else (off - 64 * rb) / poolNb g.pool) 0).isSome

/-- Writes bytes at scattered scratchpad offsets; a word written whole takes their poison, another only gains it (R412). -/
def Crew.spScatter (k : Crew) (l : List (Nat × MByte)) : Crew :=
  if k.z = 0 then k
  else
    let words := (l.map (fun p => p.1 / 4)).eraseDups
    { k with
      sp := l.foldl (fun m p => m.set p.1 p.2.1) k.sp
      spPoison := words.foldl (fun m w =>
        if l.any (fun p => decide (p.1 / 4 = w) && p.2.2) then m.set w 1
        else if (List.range 4).all (fun j => l.any (fun p => decide (p.1 = 4 * w + j))) then m.set w 0 else m) k.spPoison }

/-- A barrier of the issuing crew (R309). -/
def kvBarOff (k : Crew) (bar : Nat) : Nat := spAddr k.z (32 * bar) 0 32

/-- An engine update of that barrier. -/
def State.kvBarUpd (s : State) (ci bar : Nat) (u : BarUpd) : State :=
  match s.crews[ci]? with
  | some k => if k.z = 0 then s else s.barUpd ci (kvBarOff k bar) u
  | none => s

/-- The resolution of a gather's lanes (R300, R311). -/
def kgResolve (s : State) (e : Env) (x : KvArgs) (act : W64) : List (Nat × Nat × Nat) :=
  ((List.range 64).filter (fun i => x.tr || act.getLsbD i)).map (fun i =>
    if act.getLsbD i then (let r := s.resolve e.k.ctxid x.seq x.pool (x.pos + i); (i, r.1, r.2)) else (i, 2, noFrame))

/-- The frames of the lanes that resolved. -/
def kgFrames (ls : List (Nat × Nat × Nat)) : List Nat := (ls.filter (fun l => decide (l.2.1 = 0))).map (fun l => l.2.2)

/-- The issuer has waited at this instruction for the page-wait limit, though what it awaited has come since (R310). -/
def State.pgLate? (s : State) (e : Env) : Option PgWait :=
  s.pgWaits.find? (fun p => decide (p.who = e.who ∧ p.pc = e.pc) && !p.paused && s.pgOver e.k p.since)

/-- KVGATHER (R311): waits for pages in place, then takes its holds, writes the statuses and issues the delivery. -/
def execKvgather (o : OpX3) (s : State) : Host.Outcome State Fault Refusal :=
  runCtlH (baseHdr (0xFB + putX3 o)) s (fun e => do
    let a ← rdSw s e o.b.toNat
    let b ← rdSw s e o.c.toNat
    let x ← kvArgs s e a b false
    let die := sqDie x.seq
    let q := s.pool die x.pool
    need (!(x.tr && poolScaled q && (decide (poolP q < 32) || decide (x.pos % 32 ≠ 0)))) (e.ill 6)
    regsOk e.k [o.a.toNat]
    sOk s e o.b.toNat
    sOk s e o.c.toNat
    let w ← theWarp s e
    let act := s.kvMask e
    dstFree w [o.a.toNat] act
    let ls := kgResolve s e x act
    match ls.find? (fun l => decide (l.2.1 = 0) && s.awaited die l.2.2) with
    | some l =>
      let s1 := s.fetchAll e.ci die (kgFrames ls)
      pure (s1.pgStand e (s1.pgNeedOf 0 l.1 die l.2.2))
    | none =>
      if let some p := s.pgLate? e then return s.pgExpire e 0 p.lane p.frame
      let g0 : KvGather := { die := die, pool := q, dest := alignDown x.dest 16, tr := x.tr, kv := x.kv, head := x.head, pos := x.pos, bar := x.bar
                             lanes := ls, left := [], rows := [], owed := [], tried := none }
      let lines := kgLines e.k g0
      if !(decide (s.cpCount e.k < 64) && e.k.canArm lines) then return s.pgPause e
      let s1 := (kgFrames ls).eraseDups.foldl (fun s f => s.touchFrame die f) (s.pgDrop e.who e.pc)
      let s2 := s1.modWarp e.ci e.wi (fun w => w.setLanes o.a.toNat act (fun i =>
        Lane.full (match g0.lane? i with | some r => BitVec.ofNat 32 r.1 | none => 2) false))
      let s3 := (s2.modCrew e.ci (fun k => k.armLines lines)).kvBarUpd e.ci x.bar (.expect (kgOffsets q x.tr (ls.map Prod.fst)).length)
      let s4 := if lines = [] then s3.dropHolds die (kgFrames ls) else s3.addOp { e.newOp s e.m0 with eng := some (.kg { g0 with left := lines }) }
      pure (s4.jump e e.npc))

/-- A frame of the gather lies beyond its memory (R282). -/
def kgBeyond (s : State) (g : KvGather) : Bool :=
  (kgFrames g.lanes).any (fun f => decide (tgtSize (keyTgt (s.frBase g.die f)) < keyPa (s.frBase g.die f) + poolSize g.pool))

/-- The bytes of a gather that its lines hold, by their offsets (R312). -/
def kgOn (k : Crew) (g : KvGather) (ls : List Nat) : List Nat :=
  (kgOffsets g.pool g.tr (g.lanes.map Prod.fst)).filter (fun f => ls.contains (kgSpot k g f / 128))

/-- A gather's delivery faults: its lines are released and what has not landed settles (R282, R311). -/
def State.kgFault (s : State) (o : Op) (k : Crew) (g : KvGather) : State :=
  let s1 := (s.landLines o.crew g.left).modCrew o.crew (fun k => k.cpRecord 1 0 0)
  let s2 := g.owed.foldl (fun s l => s.kvBarUpd o.crew g.bar (.land (kgOn k g [l]).length)) s1
  ((s2.kvBarUpd o.crew g.bar (.settle (kgOn k g g.left).length 66)).endEng o (some 1)).dropHolds g.die (kgFrames g.lanes)

/-- A line of a gather carries bytes from pages of the other die (R283, R311). -/
def kgCrosses (s : State) (k : Crew) (g : KvGather) (line : Nat) : Bool :=
  (kgFrames g.lanes).any (fun f => decide (keyDie (s.frBase g.die f) ≠ k.die)) && (kgOn k g [line]).any g.carries

/-- A line of a gather is accepted in the scratchpad (R170, R312). One whose bytes cross the bridge is a request at the Iris of the
crew's die, and is sent again after 2 µs where that can take none (R14, R283, R374, R380). -/
def State.kgLine (s : State) (o : Op) (k : Crew) (g : KvGather) (line : Nat) : State :=
  if kgCrosses s k g line && s.bridgeShut k.die g.tried then s.modOp o.id (fun o => { o with eng := some (.kg { g with tried := s.triedAt g.tried }) })
  else
    let put := (kgOn k g [line]).map (fun f => (kgSpot k g f, kgByte g f))
    let s1 := ((s.noteSp o.crew (128 * line) 128 none).modCrew o.crew (fun k => k.spScatter put)).landLines o.crew [line]
    s1.modOp o.id (fun o => { o with eng := some (.kg { g with left := g.left.filter (fun l => decide (l ≠ line)), owed := line :: g.owed, tried := none }) })

/-- An accepted line of a gather is accounted on the barrier, and at the last one the holds go (R217, R218, R311). -/
def State.kgAccount (s : State) (o : Op) (k : Crew) (g : KvGather) (line : Nat) : State :=
  let owed := g.owed.filter (fun l => decide (l ≠ line))
  let s1 := s.kvBarUpd o.crew g.bar (.land (kgOn k g [line]).length)
  if owed = [] then (s1.endEng o none).dropHolds g.die (kgFrames g.lanes)
  else s1.modOp o.id (fun o => { o with eng := some (.kg { g with owed := owed }) })

/-- One step of a gather's delivery (R311, R312): while rows are unread, that of a lane is read; then a line is accepted; once all are, a
line is accounted. -/
def State.kgStep (s : State) (o : Op) (k : Crew) (g : KvGather) (line : Nat) : State :=
  if kgBeyond s g then s.kgFault o k g
  else
    match (if g.unread.contains line then some line else g.unread.head?) with
    | some i =>
      s.modOp o.id (fun p => { p with eng := some (.kg { g with rows := (i, kgRow s o.crew k g i ((g.lane? i).getD (0, 0)).2) :: g.rows }) })
    | none =>
      if g.left.contains line then s.kgLine o k g line
      else if g.left ≠ [] ∨ !(g.owed.contains line) then s
      else s.kgAccount o k g line

/-- A gather's delivery goes on. -/
def State.kvDeliver (s : State) (id line : Nat) : State :=
  match s.op? id with
  | none => s
  | some o =>
    match o.eng, s.crews[o.crew]? with
    | some (.kg g), some k => if k.st = .saved ∨ !(s.forked o) then s else s.asOp o (fun s => s.kgStep o k g line)
    | _, _ => s

/-- The largest magnitude of finite values, as significand and exponent; none where none is finite and nonzero. -/
def maxMag (xs : List Ext) : Option (Nat × Int) :=
  xs.foldl (fun best x =>
    match x with
    | .fin _ m e =>
      if m = 0 then best
      else (match best with | none => some (m, e) | some b => if dyGt m e b.1 b.2 then some (m, e) else best)
    | _ => best) none

/-- EMAXF of a format (R298). -/
def emaxf (f : Nat) : Int := expOf (fmtLargest f).1 (fmtLargest f).2

/-- scale_code of R298. -/
def scaleCode (q : BitVec 64) (a : Option (Nat × Int)) : Nat :=
  match a with
  | none => 127
  | some (m, e) => (min (max (expOf m e - emaxf (poolFmt q) + poolHr q + 127) 0) 254).toNat

/-- A value times a power of two. -/
def Ext.shift (v : Ext) (k : Int) : Ext :=
  match v with
  | .fin n m e => .fin n m (e + k)
  | x => x

/-- kv_quant of R298 after scaling: the code and whether it clipped. -/
def kvQuant (f mode : Nat) (v : Ext) (sticky : Bool) : Nat × Bool :=
  match v with
  | .nan => (nanOut f, false)
  | .inf neg => (fmtSign f neg + fmtLargestCode f, true)
  | .fin neg m e =>
    if m = 0 then (zeroOut f neg, false)
    else
      let q := ulpExp f m e
      let q := if sticky then max q (lowbitExp m e + 2) else q
      let n := roundQ neg m e q mode
      if n = 0 then (zeroOut f neg, false)
      else if dyGt n q (fmtLargest f).1 (fmtLargest f).2 then (fmtSign f neg + fmtLargestCode f, true)
      else (encodeFloat f neg n q, false)

/-- The scale exponent 127 - code, or none for a format without scales. -/
def scaleShift (q : BitVec 64) (code : Nat) : Int := if poolScaled q then 127 - (code : Int) else 0

/-- Elements of KVAPPEND: their lanes in the run (R313). -/
def kaLane (w : Warp) (vs c : Nat) : Lane := w.lane (vs + c / 64) (c % 64)

/-- The sources of KVAPPEND: every lane that holds an element (R313). -/
def kaSrcs (vs hdim : Nat) : List Src :=
  (List.range ((hdim + 63) / 64)).map (fun j => ⟨vs + j, maskOf (fun i => decide (64 * j + i < hdim)), false⟩)

/-- The absolute maximum of block b, read under R37. -/
def kaMax (w : Warp) (vs mode b : Nat) : Option (Nat × Int) :=
  maxMag ((List.range 32).map (fun i => let l := kaLane w vs (32 * b + i); f32 (read32 l.data l.s mode)))

/-- The scale codes of a row's blocks in a frame: the fixed ones, and the ones this append fixes (R313). -/
def kaCodes (s : State) (q : BitVec 64) (key : Nat) (x : KvArgs) (amax : Nat → Option (Nat × Int)) (fresh : Bool) : List (Nat × Bool) :=
  (List.range (poolNb q)).map (fun b =>
    let c := if fresh then 0xFF else s.rd (key + poolScaleAt q x.head x.kv b) 1
    if c = 0xFF then (scaleCode q (amax b), true) else (c, false))

/-- The quantized row, and whether an element clipped. -/
def kaRow (q : BitVec 64) (w : Warp) (vs mode : Nat) (codes : List (Nat × Bool)) : List (Nat × Bool) :=
  (List.range (poolHdim q)).map (fun c =>
    let l := kaLane w vs c
    kvQuant (poolFmt q) mode ((f32 l.data).shift (scaleShift q (codes.getD (c / 32) (127, false)).1)) l.s)

/-- Packs elements of `w` bits, lowest first (R30). -/
def packElems (w : Nat) : List Nat → Nat
  | [] => 0
  | a :: r => a % 2 ^ w + 2 ^ w * packElems w r

/-- What KVAPPEND does to the page it writes (R302, R313): the frame it writes, and the state; none where a frame is missing. -/
def kaPage (s : State) (die : Nat) (x : KvArgs) (r : Nat × Nat) : Option (Nat × State) :=
  match s.btRef x.seq x.pool (x.pos / poolP (s.pool die x.pool)) with
  | none => some (r.2, s)
  | some b =>
    if r.1 = 1 then (s.allocFrame die).map (fun g => (g, s.allocPage die b g))
    else if 1 < feRef (s.frEnt die r.2) then (s.allocFrame die).map (fun g => (g, s.cowPage die b r.2 g))
    else some (r.2, s)

/-- KVAPPEND (R313). -/
def execKvappend (o : OpX3) (s : State) : Host.Outcome State Fault Refusal :=
  runCtlH (baseHdr (0x40000FB + putX3 o)) s (fun e => do
    let a ← rdSw s e o.b.toNat
    let b ← rdSw s e o.c.toNat
    let x ← kvArgs s e a b true
    let die := sqDie x.seq
    let q := s.pool die x.pool
    let vs := o.a.toNat
    let srcs := kaSrcs vs (poolHdim q)
    regsOk e.k (srcs.map Src.reg)
    let w ← theWarp s e
    emptyCheck w srcs
    pendCheck w srcs
    sOk s e o.b.toNat
    sOk s e o.c.toNat
    poisonCheck w 0 srcs
    let mode := (s.modesOf e).1.toNat
    let r := s.resolve e.k.ctxid x.seq x.pool x.pos
    if r.1 = 0 ∧ s.awaited die r.2 then
      let s1 := s.fetchAll e.ci die [r.2]
      pure (s1.pgStand e (s1.pgNeedOf 1 0 die r.2))
    else if let some p := s.pgLate? e then pure (s.pgExpire e 1 0 p.frame)
    else if 64 ≤ s.cpCount e.k then pure (s.pgPause e)
    else if 2 ≤ r.1 then
      pure (((((s.pgDrop e.who e.pc).kvBarUpd e.ci x.bar (.expect (poolRb q))).kvBarUpd e.ci x.bar (.settle (poolRb q) 66)).stepOpDone e.ci (some 1)).jump e e.npc)
    else
      match kaPage s die x r with
      | none => pure (s.pgStand e ⟨1, 0, noFrame, die, (s.pe die).reserve + 1⟩)
      | some (f, s1) =>
        let cow := decide (r.1 = 0 ∧ f ≠ r.2)
        let codes := kaCodes s q (s.frBase die r.2) x (kaMax w vs mode) (decide (r.1 = 1))
        let fixes := if poolScaled q then ((List.range (poolNb q)).filter (fun i => (codes.getD i (0, false)).2)).map (fun i =>
          (poolScaleAt q x.head x.kv i, (codes.getD i (0, false)).1)) else []
        let es := kaRow q w vs mode codes
        let s2 := (s1.pgDrop e.who e.pc).touchFrame die f
        let s3 := if cow then s2 else fixes.foldl (fun s p => s.wr (s.frBase die f + p.1) 1 p.2) s2
        let off := x.pos % poolP q
        let ka : KvAppend :=
          { die := die, seq := x.seq, frame := f, addr := poolRow q x.head x.kv off, off := off, bar := x.bar
            row := natLe (poolRb q) (packElems (poolW q) (es.map Prod.fst)), clip := es.any (fun p => p.2), fix := if cow then fixes else [], tried := none }
        pure (((s3.kvBarUpd e.ci x.bar (.expect (poolRb q))).addOp { e.newOp s e.m0 with eng := some (.ka ka) }).jump e e.npc))

/-- The clip counter of a record, saturating (R313, R321). -/
def State.countClip (s : State) (seq : Nat) : State :=
  match s.live? seq with
  | some r => s.wr (s.recKey (sqDie seq) (sqSlot seq)) 128 (setBits r 591 576 (min (bits r 591 576 + 1) 65535))
  | none => s

/-- The quantized row lands in its frame (R313). -/
def State.kaLand (s : State) (o : Op) (a : KvAppend) : State :=
  let s1 := s.wrL (s.frBase a.die a.frame + a.addr) a.row
  let s2 := s1.modFr a.die a.frame (fun e =>
    let e1 := setBits e 8 0 (max (feFill e) (a.off + 1))
    if a.clip then setBits e1 32 32 1 else e1)
  let s3 := if a.clip then s2.countClip a.seq else s2
  ((s3.kvBarUpd o.crew a.bar (.land a.row.length)).endEng o none).dropHolds a.die [a.frame]

/-- The row lands once its frame is RESIDENT; one that crosses the bridge is a request at the Iris of the frame's die, and is sent again
after 2 µs where that can take none (R14, R283, R313, R374, R380). -/
def State.kvWrite (s : State) (id : Nat) : State :=
  match s.op? id with
  | none => s
  | some o =>
    match o.eng, s.crews[o.crew]? with
    | some (.ka a), some k =>
      let die := keyDie (s.frBase a.die a.frame)
      if k.st = .saved ∨ !(s.forked o) ∨ feState (s.frEnt a.die a.frame) ≠ 1 then s
      else if k.die ≠ die ∧ s.bridgeShut die a.tried then s.modOp id (fun o => { o with eng := some (.ka { a with tried := s.triedAt a.tried }) })
      else s.asOp o (fun s => s.kaLand o a)
    | _, _ => s

/-- The words of PGREQ (R314): SHARE names its source, the others a range. -/
structure PgArgs where
  op : Nat
  pool : Nat
  seq : Nat
  src : Nat
  j0 : Nat
  n : Nat
  clean : Bool

/-- Reads the two words. -/
def pgArgs (a b : W64) (force : Option Nat) : PgArgs :=
  let op := match force with | some p => p | none => bitsOf a 63 60
  ⟨op, bitsOf a 59 56, bitsOf a 31 0, bitsOf b 31 0, if op = 0 then 0 else bitsOf b 23 0, bitsOf b 55 32,
    decide (bitsOf a 55 32 = 0 ∧ bitsOf b 63 56 = 0) && (decide (op = 0) || decide (bitsOf b 31 24 = 0))⟩

/-- A live sequence of a context. -/
def State.liveIn (s : State) (ctx seq : Nat) : Bool :=
  match s.live? seq with | some r => decide (s.seqCtx seq r = ctx) | none => false

/-- The pages of a range by their entries: those that a frame of this page engine backs. -/
def State.pgFrames (s : State) (die : Nat) (bs : List BtRef) : List Nat :=
  (bs.filterMap s.btGet).filter (fun f => decide (f ≠ noFrame) && ((s.pe die).range? die f).isSome && decide (feState (s.frEnt die f) ≠ 0))

/-- The references of a range of a sequence. -/
def State.pgRefs (s : State) (seq q j0 n : Nat) : List BtRef := (List.range n).filterMap (fun i => s.btRef seq q (j0 + i))

/-- QMAX and NPAGE of a sequence; none where its block table cannot be read (R299). -/
def State.seqHeader (s : State) (seq : Nat) : Option (Nat × Nat) :=
  match s.live? seq with
  | some r => s.btHeader (s.seqCtx seq r) (rcBtab r)
  | none => none

/-- The statuses other than 0 that the tables of R314 give a command. Where several apply the spec does not say which is returned: 6 hides
every other, then 2, then 4 for sequences of different dies, then 8, which hides 1, 3 and 5; among those left the choice is free (log
entry 37, DESIGN CHOICE). -/
def State.pgStatuses (s : State) (ctx : Nat) (x : PgArgs) : List Nat :=
  let die := sqDie x.seq
  if 6 ≤ x.op ∨ !x.clean then [6]
  else if !(s.liveIn ctx x.seq) || (decide (x.op = 0) && !(s.liveIn ctx x.src)) then [2]
  else if x.op = 0 ∧ sqDie x.src ≠ die then [4]
  else
    match s.seqHeader x.seq, (if x.op = 0 then s.seqHeader x.src else some (15, 2 ^ 32)) with
    | some h, some h2 =>
      if poolV (s.pool die x.pool) && decide (x.pool ≤ h.1 ∧ x.pool ≤ h2.1 ∧ x.j0 + x.n ≤ h.2 ∧ x.n ≤ h2.2)
          && (s.pgRefs x.seq x.pool x.j0 x.n ++ (if x.op = 0 then s.pgRefs x.src x.pool 0 x.n else [])).any (fun b => (s.btGet b).isNone) then [8] else
      let st5 := !(poolV (s.pool die x.pool)) || decide (h.1 < x.pool) || decide (h2.1 < x.pool)
      let st1 := decide (h.2 < x.j0 + x.n) || decide (h2.2 < x.j0 + x.n)
      if st5 || st1 then (if st1 then [1] else []) ++ (if st5 then [5] else [])
      else
        let own := s.pgRefs x.seq x.pool x.j0 x.n
        let from_ := s.pgFrames die (if x.op = 0 then s.pgRefs x.src x.pool 0 x.n else own)
        let st3 := match x.op with
          | 0 => from_.any (fun f => decide (65535 ≤ feRef (s.frEnt die f)))
          | 2 => from_.any (fun f => decide (255 ≤ fePin (s.frEnt die f)))
          | 3 => from_.any (fun f => decide (fePin (s.frEnt die f) = 0))
          | _ => false
        let st4 := decide (x.op = 0) && own.any (fun b => decide (s.btGet b ≠ some noFrame))
        (if st3 then [3] else []) ++ (if st4 then [4] else [])
    | _, _ => [8]

/-- SHARE of one page (R314). -/
def State.sharePage (s : State) (die : Nat) (src dst : BtRef) : State :=
  match s.btGet src with
  | none => s
  | some f =>
    let s1 := s.btPut dst f
    if f = noFrame ∨ ((s1.pe die).range? die f).isNone ∨ feState (s1.frEnt die f) = 0 then s1
    else (s1.unevict die f).modFr die f (fun e => setBits (setBits e 63 48 (feRef e + 1)) 195 195 0)

/-- The decoded value of an element under a scale code. -/
def decodeElem (q : BitVec 64) (code x : Nat) : Ext := (decodeFmt (poolFmt q) x).shift (-(scaleShift q code))

/-- Element c of a row. -/
def rowElem (q : BitVec 64) (row c : Nat) : Nat := row / 2 ^ (c * poolW q) % 2 ^ poolW q

/-- REQUANT of one scale block (R314): every offset's 32 elements under the new code; a block without a code stays (log
entry 89). -/
def State.requantBlock (s : State) (key : Nat) (q : BitVec 64) (fill h kv b : Nat) : State × Bool :=
  let sk := key + poolScaleAt q h kv b
  let code := s.rd sk 1
  if code = 0xFF then (s, false)
  else
    let row := fun o => s.rd (key + poolRow q h kv o) (poolRb q)
    let vals := fun o => (List.range 32).map (fun i => decodeElem q code (rowElem q (row o) (32 * b + i)))
    let new := scaleCode q (maxMag ((List.range (min fill (poolP q))).flatMap vals))
    let enc := fun o => (vals o).map (fun v => kvQuant (poolFmt q) 0 (v.shift (scaleShift q new)) false)
    let w := poolW q
    let s1 := (List.range (poolP q)).foldl (fun s o =>
      s.wr (key + poolRow q h kv o) (poolRb q) (setBits (row o) (32 * w * (b + 1) - 1) (32 * w * b) (packElems w ((enc o).map Prod.fst)))) s
    (s1.wr sk 1 new, (List.range (poolP q)).any (fun o => (enc o).any (fun p => p.2)))

/-- REQUANT of one page (R314), which passes through FETCHING within the command's acceptance. -/
def State.requantPage (s0 : State) (die f : Nat) : State :=
  let e := s0.frEnt die f
  let q := s0.pool die (fePool e)
  if !(poolScaled q) then s0
  else
    let s := (s0.unevict die f).modFr die f (fun e => setBits e 35 33 3)
    let blocks := (List.range (poolHeads q)).flatMap (fun h => (List.range 2).flatMap (fun kv => (List.range (poolNb q)).map (fun b => (h, kv, b))))
    let r := blocks.foldl (fun (acc : State × Bool) b =>
      let z := acc.1.requantBlock (s.frBase die f) q (feFill e) b.1 b.2.1 b.2.2
      (z.1, acc.2 || z.2)) (s, false)
    r.1.modFr die f (fun e => setBits (setBits e 35 33 1) 32 32 (b2n r.2))

/-- The effect of a command (R314). -/
def State.pgAct (s : State) (x : PgArgs) : State :=
  let die := sqDie x.seq
  let own := s.pgRefs x.seq x.pool x.j0 x.n
  let fs := s.pgFrames die own
  match x.op with
  | 0 => ((s.pgRefs x.src x.pool 0 x.n).zip own).foldl (fun s p => s.sharePage die p.1 p.2) s
  | 1 => own.foldl (fun s b => s.releasePage die b) s
  | 2 => fs.foldl (fun s f => (s.unevict die f).modFr die f (fun e => setBits e 47 40 (fePin e + 1))) s
  | 3 => fs.foldl (fun s f => (s.modFr die f (fun e => setBits e 47 40 (fePin e - 1))).frSettle die f) s
  | 5 => fs.foldl (fun s f => s.requantPage die f) s
  | _ => s

/-- The frames whose pages a command waits for (R310, R314). -/
def State.pgNeeds (s : State) (x : PgArgs) : List Nat :=
  let die := sqDie x.seq
  let fs := s.pgFrames die (s.pgRefs (if x.op = 0 then x.src else x.seq) x.pool x.j0 x.n)
  let moving := fun f => decide (feState (s.frEnt die f) = 3 ∨ feState (s.frEnt die f) = 4) || s.copySource die f
  match x.op with
  | 1 => fs.filter moving
  | 3 => fs.filter moving
  | 4 => fs.filter (fun f => decide (frTier f = 2) && !(s.copySource die f))
  | 5 => if poolScaled (s.pool die x.pool) then fs.filter (s.awaited die) else []
  | _ => fs.filter (s.awaited die)

/-- The fetches with which a command begins, where so many frames are free: FETCH starts all of its pages or none (R314). -/
def State.pgFetch (s : State) (ci : Nat) (x : PgArgs) : State :=
  let die := sqDie x.seq
  let fs := (s.pgNeeds x).eraseDups
  if x.op = 4 ∧ (s.freeFrames die die).length < fs.length then s else s.fetchAll ci die fs

/-- What a command awaits (R310, R314). -/
def State.pgNeedFor (s : State) (x : PgArgs) (lane f : Nat) : PgNeed :=
  let n := s.pgNeedOf 2 lane (sqDie x.seq) f
  if x.op = 4 then { n with need := (s.pgNeeds x).eraseDups.length } else n

/-- PGREQ (R314): checks, waits for pages, and acts in one acceptance. -/
def pgreq (i : Hdr) (s : State) (o : OpX3) (force : Option Nat) : Host.Outcome State Fault Refusal :=
  runCtlH i s (fun e => do
    let a ← rdS s e o.b.toNat
    let b ← rdS s e o.c.toNat
    freeS s e o.a.toNat
    let x := pgArgs a b force
    match s.pick (s.pgStatuses e.k.ctxid x) with
    | some st => pure ((({ s.pgDrop e.who e.pc with free := s.free + 1 } : State).setS e.who o.a.toNat (BitVec.ofNat 64 st)).jump e e.npc)
    | none =>
      let s1 := s.pgFetch e.ci x
      match s1.pgNeeds x, s.pgLate? e with
      | f :: _, _ => pure (s1.pgStand e (s1.pgNeedFor x o.a.toNat f))
      | [], some _ => pure (s.pgExpire e 2 o.a.toNat 0)
      | [], none => pure ((((s1.pgDrop e.who e.pc).pgAct x).setS e.who o.a.toNat 0).jump e e.npc))

/-- PGREQ: the command that OP names (R314). -/
def execPgreq (o : OpX3) (s : State) : Host.Outcome State Fault Refusal := pgreq (baseHdr (0x80000FB + putX3 o)) s o none
/-- PGREQ with OP 0, SHARE (R314). -/
def execPgreqShare (o : OpX3) (s : State) : Host.Outcome State Fault Refusal := pgreq (baseHdr (0x80000FB + putX3 o)) s o (some 0)
/-- PGREQ with OP 1, RELEASE (R314). -/
def execPgreqRelease (o : OpX3) (s : State) : Host.Outcome State Fault Refusal := pgreq (baseHdr (0x80000FB + putX3 o)) s o (some 1)
/-- PGREQ with OP 2, PIN (R314). -/
def execPgreqPin (o : OpX3) (s : State) : Host.Outcome State Fault Refusal := pgreq (baseHdr (0x80000FB + putX3 o)) s o (some 2)
/-- PGREQ with OP 3, UNPIN (R314). -/
def execPgreqUnpin (o : OpX3) (s : State) : Host.Outcome State Fault Refusal := pgreq (baseHdr (0x80000FB + putX3 o)) s o (some 3)
/-- PGREQ with OP 4, FETCH (R314). -/
def execPgreqFetch (o : OpX3) (s : State) : Host.Outcome State Fault Refusal := pgreq (baseHdr (0x80000FB + putX3 o)) s o (some 4)
/-- PGREQ with OP 5, REQUANT (R314). -/
def execPgreqRequant (o : OpX3) (s : State) : Host.Outcome State Fault Refusal := pgreq (baseHdr (0x80000FB + putX3 o)) s o (some 5)

/-- The page-wait limit of a waiting thread passes while what it awaits has not come (R310). -/
def State.pageTimeout (s : State) (t : ThreadRef) : State :=
  match s.env? t (baseHdr 0) with
  | none => s
  | some e =>
    match s.pgWaits.find? (fun p => decide (p.who = t ∧ p.pc = e.pc)) with
    | some p => if s.pgAwaited p ∧ s.pgOver e.k p.since then (s.pgExpire e p.kind p.lane p.frame).ctxSettle t else s
    | none => s

/-- KVGATHER_DELIVERY (R312). -/
def execKvgatherDelivery (op line : Nat) (s : State) : Host.Outcome State Fault Refusal := .next (s.kvDeliver op line)
/-- KVAPPEND_WRITE (R313). -/
def execKvappendWrite (op : Nat) (s : State) : Host.Outcome State Fault Refusal := .next (s.kvWrite op)
/-- PAGE_WAIT_TIMEOUT (R310). -/
def execPageWaitTimeout (t : ThreadRef) (s : State) : Host.Outcome State Fault Refusal := .next (s.pageTimeout t)
/-- EVICTION_START (R304). -/
def execEvictionStart (die : Nat) (s : State) : Host.Outcome State Fault Refusal := .next (s.evictStart die)
/-- EVICTION_COPY_END (R294). -/
def execEvictionCopyEnd (die frame : Nat) (s : State) : Host.Outcome State Fault Refusal := .next (s.byWork (fun s => s.evictEnd die frame))
/-- FETCH_COPY_END (R294). -/
def execFetchCopyEnd (die frame : Nat) (s : State) : Host.Outcome State Fault Refusal := .next (s.byWork (fun s => s.fetchEnd die frame))
/-- COPY_ON_WRITE_END (R302). -/
def execCopyOnWriteEnd (die frame : Nat) (s : State) : Host.Outcome State Fault Refusal := .next (s.byWork (fun s => s.cowEnd die frame))

end Sys2Proof.Machine
end

