-- ==== Sys2Proof/Machine/Sequence.lean ====
section
/-! DEFINITION. Sequences: admission, the inbound barrier, retirement, batch formation, the ends of iterations, and the instructions
SQADM, TOKFB and SEQRET (R319 to R333, R337 to R340). -/
namespace Sys2Proof.Machine

/-- A change to a die's scheduler. -/
def State.modSched (s : State) (die : Nat) (f : Sched → Sched) : State := s.modDie die (fun d => { d with sched := f d.sched })

/-- Writes a record (R319). -/
def State.setRec (s : State) (die slot r : Nat) : State := s.wr (s.recKey die slot) 128 r

/-- A step of a die's scheduler begins, with some writes behind it beside those of its earlier steps (R322). -/
def State.schedBegin (s : State) (die : Nat) (past : List Nat) : State := s.workBegin (addAll (s.sched die).seen past)

/-- It ends: what it did is behind the scheduler's next step. -/
def State.schedEnd (t s : State) (die : Nat) : State :=
  let past := t.actor.past
  (t.modSched die (fun d => { d with seen := past })).workEnd s

/-- A step of a die's scheduler (R322). -/
def State.schedWork (s : State) (die : Nat) (f : State → State) : State := (f (s.schedBegin die [])).schedEnd s die

/-- A step of a die's scheduler that a thread context has asked for begins after the writes of its warp, and its return is an acquire
(R322). -/
def State.schedAsk (s : State) (e : Env) (die : Nat) : State := s.schedBegin die (s.past e.who s.nextOp (BitVec.allOnes 64))
def State.schedReturn (t s : State) (e : Env) (die : Nat) : State := (t.schedEnd s die).joined e.who e.m0 t.actor.past

/-- The iterations of a group. -/
def State.iterOf (s : State) (die g : Nat) : GroupIter := (s.sched die).iters.getD g ⟨0, false, none, none, none, [], none⟩

/-- A change to a group's iterations. -/
def State.modIter (s : State) (die g : Nat) (f : GroupIter → GroupIter) : State :=
  s.modSched die (fun d => { d with iters := modAt d.iters g f })

/-- Fields of a group descriptor (R323). -/
def grpV (g : BitVec 512) : Bool := g.getLsbD 0
def grpGraph (g : BitVec 512) : Nat := bitsOf g 511 448
def grpBtb (g : BitVec 512) (n : Nat) : Nat := if n % 2 = 0 then bitsOf g 447 384 else bitsOf g 383 320
def grpCtlCrew (g : BitVec 512) : Nat := bitsOf g 223 208
def grpCtlOff (g : BitVec 512) : Nat := 32 * bitsOf g 207 192
def grpIterns (g : BitVec 512) : Nat := bitsOf g 191 160
def grpFbwait (g : BitVec 512) : Nat := bitsOf g 159 128
def grpCtxcap (g : BitVec 512) : Nat := bitsOf g 127 104
def grpVocab (g : BitVec 512) : Nat := bitsOf g 103 80
def grpBudget (g : BitVec 512) : Nat := bitsOf g 79 64
def grpChunk (g : BitVec 512) : Nat := bitsOf g 63 48
def grpG (g : BitVec 512) : Nat := 2 ^ bitsOf g 47 44

/-- Division rounded up. -/
def ceilDiv (a b : Nat) : Nat := (a + b - 1) / b

/-- The zero fields of an admission block and its values lie within R321. -/
def blockOk (b : Nat) : Bool :=
  decide (rcSeqid b = 0 ∧ rcState b = 0 ∧ bits b 399 396 = 0 ∧ rcGlen b = 0 ∧ rcPos b = 0 ∧ rcLasttok b = 0 ∧ bits b 591 576 = 0)
    && decide (bits b 319 192 = 0 ∧ bits b 391 385 = 0 ∧ bits b 395 392 = 0 ∧ bits b 606 604 = 0 ∧ bits b 191 0 = 0)
    && decide (bits b 702 695 ≠ 255 ∧ (bits b 703 703 = 0 ∨ bits b 702 672 = 0))
    && decide (0 < bits b 671 640 ∧ bits b 671 640 ≤ 0x3F800000 ∧ bits b 639 624 ≤ 64 ∧ 1 ≤ rcMaxtok b)
    && decide ((if bits b 607 607 = 1 then 2 else 1) ≤ rcPlen b)

/-- Pages of each pool that a sequence needs (R324). -/
def State.seqNeed (s : State) (die qmax len : Nat) : Nat :=
  ((List.range (qmax + 1)).map (fun q => ceilDiv len (poolP (s.pool die q)))).sum

/-- The tier-3 pages that an inbound sequence reserves, pool by pool in ascending order (R325). -/
def State.inbPages (s : State) (die qmax plen : Nat) : List (Nat × Nat) :=
  (List.range (qmax + 1)).flatMap (fun q => (List.range (ceilDiv (plen - 1) (poolP (s.pool die q)))).map (fun j => (q, j)))

/-- Check 1 of R324: QMAX and NPAGE of a well-formed admission. -/
def State.seqHeaderOk (s : State) (ctx die b : Nat) : Option (Nat × Nat) :=
  let g := s.group die (rcGroup b)
  let len := rcPlen b + rcMaxtok b
  match s.btHeader ctx (rcBtab b) with
  | none => none
  | some h =>
    if blockOk b && grpV g && decide (grpCtx g = ctx)
        && (List.range (h.1 + 1)).all (fun q => poolV (s.pool die q) && decide (len ≤ h.2 * poolP (s.pool die q)))
        && (!(rcStream b) || ((s.ring? (rcRing b)).isSome && decide (rcRing b / 2 ^ 15 = die)))
    then some h else none

/-- The lowest FREE slot (R324). -/
def State.freeSeqSlot (s : State) (die : Nat) : Option Nat := (List.range 8192).find? (fun k => decide (rcState (s.recOf die k) = 0))

/-- An inbound admission block. -/
def rcInbound (b : Nat) : Bool := decide (bits b 607 607 = 1)

/-- Reserves the tier-3 frames of an inbound sequence, its block-table entries and its inbound barrier (R325, R440). -/
def State.reserveInbound (s : State) (ctx die slot id btab qmax npage plen : Nat) : State :=
  let ps := s.inbPages die qmax plen
  let fs := s.freeFrames die 3
  let s1 := (ps.zip fs).foldl (fun s p =>
    (s.setFr die p.2 (feNew 4 id p.1.1 p.1.2 noFrame 0)).setBt ctx btab npage p.1.1 p.1.2 p.2) s
  let n := (ps.map (fun p => poolSize (s.pool die p.1))).sum
  s1.modSched die (fun d => { d with inbars := d.inbars.set slot (BitVec.ofNat 512 (n * 2 ^ 256 + bSetBpend 0 n)) })

/-- Admission (R324, R325): the new sequence's ID, or the status. -/
def State.enterSeq (s : State) (ctx die b : Nat) : Except Int (State × Nat) :=
  match s.seqHeaderOk ctx die b with
  | none => .error (-5)
  | some (qmax, npage) =>
    let g := s.group die (rcGroup b)
    let d := s.sched die
    let len := rcPlen b + rcMaxtok b
    let need := s.seqNeed die qmax len
    let inb := rcInbound b
    if grpCtxcap g < len ∨ 2 ^ 24 < len then .error (-3)
    else if rcDeadline b ≠ 0 ∧ rcDeadline b < s.dtime + grpIterns g * (if inb then 1 else ceilDiv (rcPlen b) (grpChunk g) + 1) then .error (-4)
    else if d.pagecap < d.commit + need then .error (-2)
    else
      match s.freeSeqSlot die with
      | none => .error (-1)
      | some slot =>
        if inb && decide ((s.freeFrames die 3).length < (s.inbPages die qmax (rcPlen b)).length) then .error (-6)
        else
          let id := die * 2 ^ 31 + slot * 2 ^ 18 + d.gen slot
          let r := setBits (setBits (setBits b 447 416 id) 403 400 (if inb then 1 else 2)) 319 256 s.dtime
          let s1 := s.setRec die slot (if inb then setBits r 385 385 1 else r)
          let s2 := s1.modSched die (fun d => { d with commit := d.commit + need, needs := d.needs.set slot (BitVec.ofNat 64 need)
                                                       gone := d.gone.set slot 0, lost := d.lost.filter (fun i => decide (sqSlot i ≠ slot)) })
          .ok (if inb then s2.reserveInbound ctx die slot id (rcBtab b) qmax npage (rcPlen b) else s2, id)

/-- A token record (R338). -/
def tokenRecord (seq tok glen rsn final time : Nat) : Nat :=
  seq * 2 ^ 96 + tok * 2 ^ 64 + glen * 2 ^ 40 + rsn * 2 ^ 36 + final * 2 ^ 32 + time % 2 ^ 32

/-- The end of a retirement (R339): pages, promise, final record, slot. -/
def State.freeSeq (s : State) (die slot : Nat) : State :=
  let r := s.recOf die slot
  let s1 := s.releaseAll (rcSeqid r)
  let s2 := s1.modSched die (fun d =>
    { d with commit := d.commit - (d.needs.get slot).toNat, needs := d.needs.set slot 0, inbars := d.inbars.set slot 0, gone := d.gone.set slot 0
             gens := d.gens.set slot (BitVec.ofNat 18 ((((d.gens.get slot).toNat + 1) % (2 ^ 18 - 1)))) })
  let s3 := if rcStream r then s2.ringRecord die (rcRing r) (tokenRecord (rcSeqid r) 0xFFFFFFFF (rcGlen r) (bits r 399 396) 1 s.dtime) else s2
  s3.setRec die slot (setBits r 403 400 0)

/-- The sequence has an entry in an iteration that has not ended. -/
def State.inIter (s : State) (die g seq : Nat) : Bool :=
  let it := s.iterOf die g
  it.opn && it.ents.any (fun e => decide (e.seq = seq))

/-- retire of R339: whether the sequence became DRAINING. -/
def State.retire (s : State) (die slot rsn : Nat) : State × Bool :=
  let r := setBits (s.recOf die slot) 399 396 rsn
  if s.inIter die (rcGroup r) (rcSeqid r) then (s.setRec die slot (setBits r 403 400 4), true)
  else ((s.setRec die slot r).freeSeq die slot, false)

/-- The reason of a sweep (R329): which of the two applies where both do is left open. -/
def State.sweepRsn (s : State) (r : Nat) : Nat :=
  let late := decide (rcDeadline r ≠ 0 ∧ rcDeadline r ≤ s.dtime)
  if rcCancel r && late then 4 + (Config.free s.free).toNat % 2 else if rcCancel r then 5 else 4

/-- The sequence is cancelled or its deadline has come. -/
def State.due (s : State) (r : Nat) : Bool := rcCancel r || decide (rcDeadline r ≠ 0 ∧ rcDeadline r ≤ s.dtime)

/-- The frames of a sequence in tier 3 that are INBOUND, by their owner. -/
def State.inbFrames (s : State) (die seq : Nat) : List Nat :=
  ((s.pe die).frames die 3).filter (fun f => let e := s.frEnt die f; decide (feState e = 4 ∧ feOwnSeq e = seq))

/-- The entry of a delivered frame (R293, R306, R441): RESIDENT, LOST where bytes are missing; FILL stays 0, which only appends raise. -/
def feDelivered (e : Nat) (lost : Bool) : Nat :=
  let e1 := setBits e 35 33 1
  if lost then setBits e1 31 31 1 else e1

/-- The INBOUND frames of a sequence become RESIDENT, LOST where bytes are missing (R306). -/
def State.inbResident (s : State) (die seq : Nat) (lost : Bool) : State :=
  (s.inbFrames die seq).foldl (fun s f => (s.modFr die f (fun e => feDelivered e lost)).frSettle die f) s

/-- The inbound barrier's phase completes (R326). -/
def State.inbDone (s : State) (die slot short : Nat) : State :=
  let r := s.recOf die slot
  let s1 := s.inbResident die (rcSeqid r) (decide (short ≠ 0))
  if (s.sched die).gone.get slot ≠ 0 then ({ s1 with free := s1.free + 1 }.retire die slot (s.sweepRsn r)).1
  else if short ≠ 0 then (s1.retire die slot 7).1
  else
    match s.vrd (s.seqCtx (rcSeqid r) r) (rcTokbuf r + 4 * (rcPlen r - 1)) 4 with
    | some t => s1.setRec die slot (setBits (setBits (setBits r 403 400 3) 503 480 (rcPlen r - 1)) 479 448 t)
    | none => (s1.retire die slot 9).1

/-- An update of a slot's inbound barrier (R325, R326): `n` bytes landed, or settled with a status bit. -/
def State.inbUpd (s : State) (die slot n : Nat) (bit : Option Nat) : State :=
  let b := ((s.sched die).inbars.get slot).toNat
  let left := b / 2 ^ 256 - n
  if rcState (s.recOf die slot) ≠ 1 ∨ b / 2 ^ 256 = 0 then s
  else
    let o := bSetBpend (match bit with | some i => bSetBit (bAddShort (b % 2 ^ 256) n) i | none => b % 2 ^ 256) left
    let o1 := if left = 0 then setBits o 95 80 (bPhase o + 1) else o
    let s1 := s.modSched die (fun d => { d with inbars := d.inbars.set slot (BitVec.ofNat 512 (left * 2 ^ 256 + o1)) })
    if left = 0 then s1.inbDone die slot (bShort o1) else s1

/-- Sends a message (R366), with what its sender has behind it: it arrives here where it names this device; another device is outside the
package. -/
def State.send (s : State) (peer mid : Nat) (body : WireBody) : State :=
  if peer = s.devid.toNat then { s with wire := s.wire ++ [(s.nextMsg, ⟨peer, mid, body, s.actSeen⟩)], nextMsg := s.nextMsg + 1 } else s

/-- A change to a die's Iris. -/
def State.modIris (s : State) (die : Nat) (f : Iris → Iris) : State := s.modDie die (fun d => { d with iris := f d.iris })

/-- An Iris loses a request and its tokens (R377). -/
def Iris.dropReq (x : Iris) (peer mid : Nat) : Iris :=
  { x with reqs := x.reqs.filter (fun r => !(decide (r.peer = peer ∧ r.mid = mid)))
           toks := x.toks.filter (fun t => !(decide (t.peer = peer ∧ t.mid = mid))) }

/-- The scheduler withdraws an INBOUND sequence at its Iris (R326). -/
def State.withdrawInbound (s : State) (die slot : Nat) : State :=
  if rcState (s.recOf die slot) ≠ 1 ∨ (s.sched die).gone.get slot ≠ 0 then s
  else
    let s1 := s.modSched die (fun d => { d with gone := d.gone.set slot 1 })
    let rs : List Req := (match s.dies[die]? with | some d => d.iris.reqs.filter (fun (r : Req) => decide (r.bar = .slot slot)) | none => [])
    let s2 := rs.foldl (fun (s : State) (r : Req) => (s.modIris die (fun x => x.dropReq r.peer r.mid)).send r.peer r.mid (.orphaned (some (r.unland.map Prod.snd).sum))) s1
    s2.inbUpd die slot (((s.sched die).inbars.get slot).toNat / 2 ^ 256) (some 68)

/-- SEQCANCEL of a live sequence (R326, R352). -/
def State.cancelSeq (s : State) (id : Nat) : State :=
  match s.live? id with
  | none => s
  | some r => (s.setRec (sqDie id) (sqSlot id) (setBits r 386 386 1)).withdrawInbound (sqDie id) (sqSlot id)

/-- The slots of a group's live sequences, ascending. -/
def State.groupSlots (s : State) (die g : Nat) : List Nat :=
  ((s.sched die).needs.map Prod.fst).filter (fun k => decide (rcState (s.recOf die k) ≠ 0 ∧ rcGroup (s.recOf die k) = g))

/-- The sweep of a group (R329). -/
def State.sweep (s : State) (die g : Nat) : State :=
  (s.groupSlots die g).foldl (fun s k =>
    let r := s.recOf die k
    if rcState r ≠ 1 ∧ s.due r then ({ s with free := s.free + 1 }.retire die k (s.sweepRsn r)).1 else s) s

/-- A record can run (R329). -/
def runnable (r : Nat) : Bool := decide (rcState r = 2 ∨ rcState r = 3) && !(rcCancel r) && !(rcLate r)

/-- A group can form its next iteration. -/
def State.groupReady (s : State) (die g : Nat) : Bool :=
  grpV (s.group die g) && !(s.iterOf die g).opn && (s.groupSlots die g).any (fun k => runnable (s.recOf die k))

/-- `a` comes before `b` in a batch (R329): deadline, 0 last, then priority, then index. -/
def seqBefore (a b : Nat) : Bool :=
  let da := if rcDeadline a = 0 then 2 ^ 64 else rcDeadline a
  let db := if rcDeadline b = 0 then 2 ^ 64 else rcDeadline b
  decide (da < db) || (decide (da = db) && (decide (rcPrio b < rcPrio a) || (decide (rcPrio a = rcPrio b) && decide (rcSeqid a ≤ rcSeqid b))))

/-- Inserts a record in that order. -/
def seqInsert (r : Nat) : List Nat → List Nat
  | [] => [r]
  | x :: rest => if seqBefore r x then r :: x :: rest else x :: seqInsert r rest

/-- An entry of a batch under way: sequence, first position, tokens, first slot, whether it has an output row. -/
structure BatchEnt where
  seq : Nat
  pos0 : Nat
  toks : List Nat
  slot0 : Nat
  out : Bool
  deriving DecidableEq, Repr

/-- The 32-bit words of a number. -/
def words32 (v n : Nat) : List Nat := (List.range n).map (fun k => bits v (32 * k + 31) (32 * k))

/-- The decode entries (R329, R330). -/
def decodeEnts (rs : List Nat) : List BatchEnt :=
  mapFrom (fun k r => ⟨rcSeqid r, rcPos r, [rcLasttok r], k, true⟩) 0 rs

/-- The prefill entries (R329 to R331), from the budget left and the first slot of the next group; a prompt that cannot be read
retires its sequence with RSN 9. -/
def State.prefillEnts (die : Nat) (g : BitVec 512) : List Nat → State → Nat → Nat → State × List BatchEnt
  | [], s, _, _ => (s, [])
  | r :: rest, s, left, slot =>
    let c := min (min (rcPlen r - rcPos r) (grpChunk g)) left
    if c = 0 then State.prefillEnts die g rest s left slot
    else
      match s.vrd (grpCtx g) (rcTokbuf r + 4 * rcPos r) (4 * c) with
      | none => State.prefillEnts die g rest (s.retire die (sqSlot (rcSeqid r)) 9).1 left slot
      | some v =>
        let q := State.prefillEnts die g rest s (left - c) (slot + alignUp c (grpG g))
        (q.1, ⟨rcSeqid r, rcPos r, words32 v c, slot, decide (rcPos r + c = rcPlen r)⟩ :: q.2)

/-- The output rows of entries in order (R329). -/
def outRows : Nat → List BatchEnt → List (BatchEnt × Option Nat)
  | _, [] => []
  | k, e :: r => (e, if e.out then some k else none) :: outRows (if e.out then k + 1 else k) r

/-- The filled rows of a batch group. -/
def groupExtent (es : List BatchEnt) (gg grp : Nat) : Nat :=
  (es.map (fun e => ((List.range e.toks.length).filter (fun k => decide ((e.slot0 + k) / gg = grp))).length)).sum

/-- What a slot holds: token, position, sequence (R330). -/
def slotOf (es : List BatchEnt) (i : Nat) : Nat × Nat × Nat :=
  match es.find? (fun e => decide (e.slot0 ≤ i ∧ i < e.slot0 + e.toks.length)) with
  | some e => (e.toks.getD (i - e.slot0) 0, e.pos0 + (i - e.slot0), e.seq)
  | none => (0, 0xFFFFFFFF, 0)

/-- The shape record of a batch table (R331). -/
def batchShape (va gg ngrp : Nat) : Nat :=
  (va + 128) % 2 ^ 64 * 2 ^ 448 + 4 * gg * 2 ^ 352 + 4 * 2 ^ 304 + 2 ^ 224 + ngrp * 2 ^ 192 + gg * 2 ^ 160 + 2 ^ 128 + 11 * 2 ^ 4 + 3

/-- Words of 32 bits as bytes of a number. -/
def packWords (ws : List Nat) : Nat := ws.foldr (fun w acc => w % 2 ^ 32 + 2 ^ 32 * acc) 0

/-- The parts of a batch table: address, length, content (R331). -/
def batchParts (g : Nat) (d : BitVec 512) (va n now : Nat) (es : List (BatchEnt × Option Nat)) : List (Nat × Nat × Nat) :=
  let bs := es.map Prod.fst
  let gg := grpG d
  let b := grpBudget d
  let ntok := (bs.map (fun e => e.toks.length)).sum
  let ngrp := ceilDiv ((bs.map (fun e => e.slot0 + e.toks.length)).foldl max 0) gg
  let nout := (bs.filter (fun e => e.out)).length
  let toko := 128 + 4 * b
  let poso := toko + 4 * (b * gg)
  let seqo := poso + 4 * (b * gg)
  let ento := seqo + 4 * (b * gg)
  let slots := (List.range (b * gg)).map (slotOf bs)
  [(va, 64, n % 2 ^ 64 * 2 ^ 448 + now % 2 ^ 64 * 2 ^ 384 + ntok * 2 ^ 360 + ngrp * 2 ^ 336 + bs.length * 2 ^ 312 + nout * 2 ^ 288 + g * 2 ^ 284),
   (va + 64, 64, batchShape va gg ngrp),
   (va + 128, 4 * ngrp, packWords ((List.range ngrp).map (groupExtent bs gg))),
   (va + toko, 4 * (b * gg), packWords (slots.map (fun t => t.1))),
   (va + poso, 4 * (b * gg), packWords (slots.map (fun t => t.2.1))),
   (va + seqo, 4 * (b * gg), packWords (slots.map (fun t => t.2.2))),
   (va + ento, 16 * bs.length, es.foldr (fun e acc =>
      e.1.seq * 2 ^ 96 + e.1.pos0 * 2 ^ 72 + e.1.toks.length * 2 ^ 48 + e.1.slot0 * 2 ^ 24 + e.2.getD 0xFFFFFF + 2 ^ 128 * acc) 0)]

/-- Writes parts in a context: none where one faults. -/
def State.wrParts (s : State) (ctx : Nat) : List (Nat × Nat × Nat) → Option State
  | [] => some s
  | (a, n, v) :: r => (match s.vwr ctx (a % 2 ^ 64) n v with | some s1 => State.wrParts s1 ctx r | none => none)

/-- The control crew of a group (R351). -/
def State.ctlCrew (s : State) (die : Nat) (g : BitVec 512) : Option Nat :=
  (s.jobs.filter (fun j => match j.kind with
    | .launch l => decide (j.ctxid = grpCtx g) && pkCtlc l.pkt.toNat && (diesOf (pkDies l.pkt.toNat) j.die).contains die
    | _ => false)).findSome? (fun j =>
      (List.range s.crews.length).find? (s.crewIs (fun k =>
        decide (k.launch = j.id ∧ k.crewid = grpCtlCrew g ∧ k.die = die ∧ 264 ≤ k.core ∧ k.st ≠ .ended))))

/-- The engine arrival on a group's control barrier (R332, R333): discarded and reported where no control crew lives. -/
def State.ctlArrive (s : State) (die g : Nat) (fault : Bool) : State :=
  let d := s.group die g
  match s.ctlCrew die d with
  | some c => (match s.crews[c]? with | some k => if k.z = 0 then s else s.barUpd c (spAddr k.z (grpCtlOff d) 0 32) (.arrive 1 fault) | none => s)
  | none => s.event die 0 .noControl g false

/-- The sequences with an output row in an iteration (R333). -/
def GroupIter.rows (it : GroupIter) : List Nat := (it.ents.filter (fun e => e.row.isSome)).map (fun e => e.seq)

/-- The iteration of a group ends (R332, R333). -/
def State.endIter (s : State) (die g : Nat) (failed : Bool) : State :=
  let it := s.iterOf die g
  let s0 := s.modIter die g (fun i => { i with opn := false, job := none, result := none, graphAt := none, ents := [] })
  let s1 := if failed then s0.modSched die (fun d => { d with lost := d.lost ++ it.rows }) else s0
  it.ents.foldl (fun s e =>
    match s.live? e.seq with
    | none => s
    | some r =>
      let k := sqSlot e.seq
      if rcState r = 4 then s.freeSeq die k
      else if failed then (s.retire die k 10).1
      else if e.row = none ∧ rcState r = 2 then s.setRec die k (setBits r 503 480 (rcPos r + e.ntok))
      else s) s1

/-- BATCH_FORMATION (R329 to R331): groups that are ready together are served in ascending order. -/
def State.formBatch (s : State) (die g : Nat) : State :=
  if !(s.groupReady die g) ∨ (List.range g).any (s.groupReady die) ∨ !(s.serves die) then s
  else
    let d := s.group die g
    let s1 := s.sweep die g
    let rs := (((s1.groupSlots die g).map (s1.recOf die)).filter runnable).foldl (fun acc r => seqInsert r acc) []
    let ds := decodeEnts ((rs.filter (fun r => decide (rcState r = 3))).take (grpBudget d))
    let q := State.prefillEnts die d (rs.filter (fun r => decide (rcState r = 2))) s1 (grpBudget d - ds.length) (alignUp ds.length (grpG d))
    let es := outRows 0 (ds ++ q.2)
    let s2 := q.1
    if es = [] then s2
    else
      let n := (s2.iterOf die g).n
      let va := grpBtb d n
      let ents := es.map (fun e => (⟨e.1.seq, e.1.pos0, e.1.toks.length, e.2, false⟩ : IterEnt))
      let s3 := s2.modIter die g (fun i => { i with n := i.n + 1, opn := true, job := none, result := none, graphAt := none, ents := ents })
      match s3.wrParts (grpCtx d) (batchParts g d va n s.dtime es) with
      | none => ((s3.ctlArrive die g true).endIter die g true).event die 0 .badTable va false
      | some s4 =>
        let s5 := s4.modIter die g (fun i => { i with job := some s4.nextJob })
        s5.beginGraph { id := s4.nextJob, queue := none, index := 0, ctxid := grpCtx d, die := die, tag := 0, cq := false, compl := 0
                        parent := none, iter := some (die, g), opn := false, kind := .wait [] true, seen := s5.actor.past } (grpGraph d) (BitVec.ofNat 64 va) 0

/-- Every output row of the iteration has been fed back, or its sequence has gone or drains (R332). -/
def State.rowsDone (s : State) (it : GroupIter) : Bool :=
  it.ents.all (fun e => e.fed || e.row.isNone || (match s.live? e.seq with | some r => decide (rcState r = 4) | none => true))

/-- ITERATION_GRAPH_COMPLETE (R332, R333). -/
def State.graphComplete (s : State) (die g : Nat) : State :=
  let it := s.iterOf die g
  match it.result with
  | none => s
  | some st =>
    if !it.opn then s
    else
      let s1 := (s.modIter die g (fun i => { i with result := none, graphAt := some s.dtime })).ctlArrive die g (decide (st ≠ 0))
      if st = 0 then s1 else s1.endIter die g true

/-- ITERATION_END (R332). -/
def State.iterationEnd (s : State) (die g : Nat) : State :=
  let it := s.iterOf die g
  if it.opn && it.graphAt.isSome && s.rowsDone it then s.endIter die g false else s

/-- FEEDBACK_WAIT_EXPIRY (R332). -/
def State.feedbackExpiry (s : State) (die g : Nat) : State :=
  let it := s.iterOf die g
  let w := grpFbwait (s.group die g)
  match it.graphAt with
  | some t => if it.opn && decide (w ≠ 0 ∧ t + w ≤ s.dtime) then s.endIter die g false else s
  | none => s

/-- The entry of a sequence with an output row that is open for feedback. -/
def openEnt (it : GroupIter) (seq : Nat) : Option IterEnt :=
  if it.opn then it.ents.find? (fun e => decide (e.seq = seq) && e.row.isSome && !e.fed) else none

/-- A sequence with an entry in an iteration that has not ended, whose deadline has come, carries LATE (R19, R321, R329). -/
def State.markLate (s : State) (seq : Nat) : State :=
  match s.live? seq with
  | some r => if rcDeadline r ≠ 0 ∧ rcDeadline r ≤ s.dtime ∧ !(rcLate r) then s.setRec (sqDie seq) (sqSlot seq) (setBits r 387 387 1) else s
  | none => s

/-- A group's last iteration has ended, and none is formed: its sweep is bound in time (R329). -/
def State.idleGroup (s : State) (die g : Nat) : Bool := s.serves die && grpV (s.group die g) && !(s.iterOf die g).opn

/-- The records of a group that are not INBOUND. -/
def State.sweepable (s : State) (die g : Nat) : List Nat :=
  ((s.groupSlots die g).map (s.recOf die)).filter (fun r => decide (rcState r ≠ 1))

/-- Since when a group has owed a sweep is marked as time is about to pass (R329). -/
def State.markOwed (s : State) : State :=
  [0, 1].foldl (fun s die => (List.range 16).foldl (fun s g =>
    let o := if s.idleGroup die g && (s.sweepable die g).any s.due then some ((s.iterOf die g).owed.getD s.dtime) else none
    s.modIter die g (fun i => { i with owed := o })) s) s

/-- The latest times of the sweeps of a die's idle groups: 10 µs after a sequence is cancelled or its deadline comes (R329). -/
def State.sweepTimes (s : State) (die : Nat) : List Nat :=
  ((List.range 16).filter (s.idleGroup die)).flatMap (fun g =>
    (match (s.iterOf die g).owed with | some t => [t + 10000] | none => [])
      ++ ((s.sweepable die g).filter (fun r => decide (s.dtime < rcDeadline r))).map (fun r => rcDeadline r + 10000))

/-- When the timers that act at an exact time are due, and the sweeps by then: an aggregator window, a ring's coalesced interrupt, a slot
of the switch (R329, R357, R364, R393). -/
def State.timers (s : State) : List Nat :=
  s.dies.flatMap (fun d => d.aggs.map (fun w => w.opened + 40)) ++ s.sweepTimes 0 ++ s.sweepTimes 1
    ++ (s.rings.filter (fun r => decide (r.pend ≠ 0 ∧ r.time ≠ 0))).map (fun r => r.first + r.time)
    ++ s.slots.map (fun x => x.opened + x.head.timeout)

/-- How far device time can move on by `ns`: not past a timer whose event is still to come. -/
def State.until (s : State) (ns : Nat) : Nat := s.timers.foldl (fun n t => min n (t - s.dtime)) ns

/-- Device time moves on by `ns`, or to the next timer; the schedulers mark what became late. A die that is ahead may wait for it: its
DTIME never goes back (R132). -/
def State.elapse (s0 : State) (ns0 : Nat) : State :=
  let s := s0.markOwed
  let ns := s.until ns0
  let its := (s.dies.flatMap (fun d => d.sched.iters)).filter (fun it => it.opn)
  (its.flatMap (fun it => it.ents)).foldl (fun (s : State) e => s.markLate e.seq) { s with dtime := s.dtime + ns, skew := (s.skew.1 - ns, s.skew.2 - ns) }

/-- The DTIME of a die moves ahead of device time to `ns`, below 100 (R132): so the two dies differ by less than 100 ns. -/
def State.lead (s : State) (die ns : Nat) : State :=
  if 100 ≤ ns then s
  else if die = 0 then { s with skew := (max s.skew.1 ns, s.skew.2) }
  else { s with skew := (s.skew.1, max s.skew.2 ns) }

/-- A sequence with an output row in an iteration that failed: its ID has not been given to another since (R333). -/
def State.lostRow (s : State) (seq : Nat) : Bool := (s.sched (sqDie seq)).lost.contains seq

/-- TOKFB's scheduler step (R337); for a row of a failed iteration R333 gives -2. -/
def State.feedToken (s : State) (seq tok : Nat) : State × Int :=
  match s.live? seq with
  | none => (s, if s.lostRow seq then -2 else -1)
  | some r =>
    let die := sqDie seq
    let grp := rcGroup r
    let d := s.group die grp
    if rcState r ≠ 2 ∧ rcState r ≠ 3 then (s, -1)
    else
      match openEnt (s.iterOf die grp) seq with
      | none => (s, -2)
      | some e =>
        if grpVocab d ≤ tok then (s, -3)
        else
          match s.vwr (grpCtx d) (rcTokbuf r + 4 * (rcPlen r + rcGlen r)) 4 tok with
          | none => (s, -5)
          | some s1 =>
            let glen := rcGlen r + 1
            let pos := e.pos0 + e.ntok
            let r1 := setBits (setBits (setBits (setBits r 503 480 pos) 527 504 glen) 479 448 tok) 403 400 3
            let r2 := if bits r 255 192 = 0 then setBits r1 255 192 s.dtime else r1
            let s2 := (s1.setRec die (sqSlot seq) r2).modIter die grp (fun i =>
              { i with ents := i.ents.map (fun x => if x.seq = seq ∧ x.row.isSome then { x with fed := true } else x) })
            let s3 := if rcStream r then s2.ringRecord die (rcRing r) (tokenRecord seq tok glen 0 0 s.dtime) else s2
            (s3, if glen = rcMaxtok r ∨ grpCtxcap d < pos + 1 then 1
                 else if rcCancel r then 2
                 else if rcLate r ∨ (rcDeadline r ≠ 0 ∧ rcDeadline r ≤ s.dtime) then 3 else 0)

/-- SEQRET's scheduler step (R339). -/
def State.seqReturn (s : State) (seq rsn : Nat) : State × Int :=
  match s.live? seq with
  | none => (s, -1)
  | some r =>
    if rcState r = 4 ∨ rcState r = 1 then (s, -1)
    else
      let q := s.retire (sqDie seq) (sqSlot seq) rsn
      (q.1, if q.2 then 1 else 0)

/-- Bytes of a block or packet at a classified address (R199): whether the access waits, and the value where it can be read. -/
def State.blockAt (s : State) (e : Env) (a n : Nat) : Bool × Option Nat :=
  match placeOf e.k a n with
  | .spad off => (!(e.k.linesFull off n && s.spReadReady e), if e.k.spBad off n then none else some (e.k.spRd off n))
  | .mem va =>
    match s.xlate e.k.ctxid va n kRead with
    | .ok key => (!(s.spReadReady e), if s.bad key n then none else some (s.rd key n))
    | .error _ => (false, none)

/-- SQADM (R327). -/
def execSqadm (o : OpX2) (s : State) : Host.Outcome State Fault Refusal :=
  runH (baseHdr (0xFD + putX2 o)) s (fun e => do
    let a ← rdS s e o.b.toNat
    freeS s e o.a.toNat
    waitUnless (!(s.storesOut e.who))
    let q := s.blockAt e a.toNat 128
    waitUnless (!q.1)
    let s0 := s.schedAsk e e.k.die
    let r := match q.2 with
      | none => (s0, w64 (-5))
      | some b => (match s0.enterSeq e.k.ctxid e.k.die b with | .ok (s1, id) => (s1, BitVec.ofNat 64 id) | .error st => (s0, w64 st))
    pure ((r.1.schedReturn s e e.k.die).setS e.who o.a.toNat r.2))

/-- TOKFB (R337). -/
def execTokfb (o : OpX3) (s : State) : Host.Outcome State Fault Refusal :=
  runH (baseHdr (0x40000FD + putX3 o)) s (fun e => do
    let a ← rdS s e o.b.toNat
    let b ← rdS s e o.c.toNat
    freeS s e o.a.toNat
    waitUnless (!(s.storesOut e.who))
    let die := sqDie a.toNat
    let s0 := s.schedAsk e die
    let q := if a.toNat < 2 ^ 32 ∧ b.toNat < 2 ^ 32 then s0.feedToken a.toNat b.toNat else (s0, -4)
    pure ((q.1.schedReturn s e die).setS e.who o.a.toNat (w64 q.2)))

/-- SEQRET (R339). -/
def execSeqret (o : OpX3) (s : State) : Host.Outcome State Fault Refusal :=
  runH (baseHdr (0x80000FD + putX3 o)) s (fun e => do
    let a ← rdS s e o.b.toNat
    let b ← rdS s e o.c.toNat
    freeS s e o.a.toNat
    waitUnless (!(s.storesOut e.who))
    let die := sqDie (a.toNat % 2 ^ 32)
    let s0 := s.schedAsk e die
    let q := if 1 ≤ b.toNat ∧ b.toNat ≤ 6 then s0.seqReturn (a.toNat % 2 ^ 32) b.toNat else (s0, -4)
    pure ((q.1.schedReturn s e die).setS e.who o.a.toNat (w64 q.2)))

/-- BATCH_FORMATION (R329). -/
def execBatchFormation (die group : Nat) (s : State) : Host.Outcome State Fault Refusal := .next (s.schedWork die (fun s => s.formBatch die group))
/-- SEQUENCE_SWEEP: while no iteration of the group is open (R329), and the die's schedulers run (R422). -/
def execSequenceSweep (die group : Nat) (s : State) : Host.Outcome State Fault Refusal :=
  .next (if s.idleGroup die group then s.schedWork die (fun s => s.sweep die group) else s)
/-- ITERATION_GRAPH_COMPLETE (R332). -/
def execIterationGraphComplete (die group : Nat) (s : State) : Host.Outcome State Fault Refusal :=
  .next (s.schedWork die (fun s => s.graphComplete die group))
/-- ITERATION_END (R332). -/
def execIterationEnd (die group : Nat) (s : State) : Host.Outcome State Fault Refusal := .next (s.schedWork die (fun s => s.iterationEnd die group))
/-- FEEDBACK_WAIT_EXPIRY (R332). -/
def execFeedbackWaitExpiry (die group : Nat) (s : State) : Host.Outcome State Fault Refusal :=
  .next (s.schedWork die (fun s => s.feedbackExpiry die group))
/-- INBOUND_WITHDRAW: the deadline of an INBOUND sequence has passed, or it was cancelled (R326). -/
def execInboundWithdraw (die slot : Nat) (s : State) : Host.Outcome State Fault Refusal :=
  .next (if s.due (s.recOf die slot) then s.schedWork die (fun s => s.withdrawInbound die slot) else s)

end Sys2Proof.Machine
end

