-- ==== Sys2Proof/Machine/Queue.lean ====
section
/-! DEFINITION. Host queues: doorbells, dispatch of packets, stealing between dies (R341 to R354), device-side launches and their
aggregator windows (R353, R356, R357), and the host's writes to token rings (R362, R364). -/
namespace Sys2Proof.Machine

/-- The queue with an identifier; a queue that is not listed is FREE (R342). -/
def State.queue? (s : State) (q : Nat) : Option Queue := s.queues.find? (fun x => decide (x.qid = q))

/-- The die of a queue ID (R341), and the die that serves the queue (R354). -/
def qHome (q : Nat) : Nat := q / 2 ^ 14 % 2
def Queue.server (x : Queue) : Nat := if x.stolen then 1 - qHome x.qid else qHome x.qid

/-- The error record of a queue (R343, R344, R348). -/
def State.queueError (s : State) (x : Queue) (status aux index : Nat) : State :=
  s.workWith x.seen (fun s => s.complete x.ctxid x.err (complRecord aux index 0 x.qid 0 0 status))

/-- A TAIL write as the doorbell arbiter accepts it (R343): an acquire, which what the host has written comes before. -/
def State.doorbell (s : State) (q w : Nat) : State :=
  match s.queue? q with
  | none => s
  | some x =>
    if x.st ≠ .active then s
    else if x.tail ≤ w ∧ w - x.head ≤ 2 ^ x.logn then s.modQueue q (fun x => { x with tail := w, seen := addAll x.seen s.hostSeen })
    else (s.modQueue q (fun x => { x with st := .overrun })).queueError x 7 w x.tail

/-- The next packet of a queue, read whole: none where the read faults (R341, R348). -/
def State.packetOf (s : State) (x : Queue) : Option Nat := s.vrd x.ctxid (x.base + 64 * (x.head % 2 ^ x.logn)) 64

/-- The queue stands on its core's run list (R348). -/
def Queue.listed (x : Queue) : Bool := decide ((x.st = .active ∨ x.st = .overrun) ∧ x.head < x.tail)

/-- The dispatch of the queue's last packet has ended (R348). -/
def State.dispatchEnded (s : State) (q : Nat) : Bool := s.jobs.all (fun j => decide (j.queue ≠ some q) || !j.opn)

/-- Every packet of the queue that has begun has completed. -/
def State.allDone (s : State) (q : Nat) : Bool := s.jobs.all (fun j => decide (j.queue ≠ some q))

/-- A packet that a thief may serve (R354). -/
def stealable (p : Nat) : Bool := decide (pkType p = 1 ∧ pkDies p = 0)

/-- The queue's next packet can begin dispatch (R348, R352, R354). -/
def State.queueReady (s : State) (x : Queue) : Bool :=
  x.listed && s.dispatchEnded x.qid
    && (match s.packetOf x with
      | none => true
      | some p => (!(pkOrd p || decide (pkType p = 3)) || s.allDone x.qid) && (!x.stolen || stealable p))

/-- The dispatch of the last grid of a die's device queue has ended. -/
def State.gridEnded (s : State) (die : Nat) : Bool :=
  s.jobs.all (fun j => match j.kind with | .launch l => decide (l.kids = [] ∨ j.die ≠ die) || !j.opn | _ => true)

/-- The next grid of a die's device queue, where it can begin (R353). -/
def State.grid? (s : State) (die : Nat) : Option AggWin :=
  match s.dies[die]? with
  | some d => if s.gridEnded die then d.devq.head? else none
  | none => none

/-- How long ago, in queue IDs, a core served a queue: the round robin of R348. -/
def rrRank (last q : Nat) : Nat := (q + 2 ^ 15 - last % 2 ^ 15) % 2 ^ 15

/-- The queue is the one that its core of the serving die picks next (R348, R353). -/
def State.picked (s : State) (x : Queue) : Bool :=
  match s.dies[x.server]? with
  | none => false
  | some d =>
    s.serves x.server && (s.grid? x.server).isNone && s.queueReady x
      && s.queues.all (fun y =>
        decide (y.server ≠ x.server ∨ y.qid % 4 ≠ x.qid % 4) || !(s.queueReady y) || decide (y.prio < x.prio)
          || (decide (y.prio = x.prio) && decide (rrRank (d.rr.getD (x.qid % 4) 0) x.qid ≤ rrRank (d.rr.getD (x.qid % 4) 0) y.qid)))

/-- The writes that happen before a packet's dispatch (R343, R345, R352): an ORD packet and a SIGNAL come after every packet before them. -/
def Queue.before (x : Queue) (p : Nat) : List Nat := if pkOrd p ∨ pkType p = 3 then addAll x.seen x.done else x.seen

/-- A core has taken a queue's packet (R348). -/
def State.served (s : State) (x : Queue) (p : Nat) : State :=
  (s.modQueue x.qid (fun x => { x with head := x.head + 1, seen := x.before p })).modDie x.server (fun d => { d with rr := modAt d.rr (x.qid % 4) (fun _ => x.qid + 1) })

/-- The job of a packet, before it has begun. -/
def State.packetJob (s : State) (x : Queue) (p : Nat) : Job :=
  { id := s.nextJob, queue := some x.qid, index := x.head, ctxid := x.ctxid, die := x.server, tag := pkTag p
    cq := pkCq p && decide (pkCompl p % 16 = 0), compl := pkCompl p, parent := none, iter := none, opn := false, kind := .wait [] true
    seen := x.before p }

/-- The accesses that firmware makes through the fields of a packet (R427): address, bytes, whether it writes. -/
def pkAccesses (p : Nat) : List (Nat × Nat × Bool) :=
  match pkType p with
  | 1 => (pkImage p, 64, false) :: (if pkInd p then [(pkParam p, 8 * pkNcrews p, false)] else [])
  | 2 => [(bits p 511 448, 64, false)]
  | 3 => (bits p 511 448, 8, true) :: (if bits p 383 382 = 0 then [] else [(bits p 511 448, 8, false)])
  | 4 | 5 => (bits p 511 448, 8, false) :: (if bits p 247 246 = 2 then [(bits p 383 320, 8, false)] else [])
  | 7 => [(bits p 511 448, 128, false)]
  | _ => []

/-- An access lies within a capability's bounds and permissions (R427). -/
def Cap.permits (c : Cap) (a : Nat × Nat × Bool) : Bool :=
  c.valid && decide (c.base ≤ a.1 ∧ a.1 + a.2.1 ≤ c.base + c.len) && (if a.2.2 then c.write else c.read)

/-- The fields of a packet keep within the queue's capability (R427): of one that is malformed only its completion address is followed. -/
def Queue.capFits (x : Queue) (p : Nat) : Bool :=
  ((if pkCq p ∧ pkCompl p % 16 = 0 then [(pkCompl p, 16, true)] else []) ++ (if packetOk p then pkAccesses p else [])).all x.cap.permits

/-- The deadline of a packet has come (R349). -/
def State.packetLate (s : State) (p : Nat) : Bool := decide (pkDeadline p ≠ 0 ∧ pkDeadline p ≤ s.dtime)

/-- The dispatch of a packet of one type (R348, R349): nothing where it is not the packet that is next. -/
def State.dispatch (s : State) (q type : Nat) (f : State → Job → Nat → State) : State :=
  match s.queue? q with
  | none => s
  | some x =>
    match s.packetOf x with
    | none => s
    | some p =>
      if s.picked x && packetOk p && x.capFits p && decide (pkType p = type) then
        if s.packetLate p then (s.served x p).finishJob (s.packetJob x p) 1 0 0 0 else f (s.served x p) (s.packetJob x p) p
      else s

/-- MALFORMED_PACKET (R345). -/
def State.malformed (s : State) (q : Nat) : State :=
  match s.queue? q with
  | none => s
  | some x =>
    match s.packetOf x with
    | none => s
    | some p =>
      if s.picked x && !(packetOk p) && x.capFits p then
        let s1 := (s.served x p).finishJob (s.packetJob x p) 2 0 0 0
        if pkCq p ∧ pkCompl p % 16 ≠ 0 then s1.event x.server 0 .misaligned (q * 2 ^ 64 + x.head) false else s1
      else s

/-- A queue enters ERROR (R348). -/
def State.enterError (s : State) (x : Queue) : State :=
  (s.modQueue x.qid (fun x => { x with st := .error })).queueError x 10 0 x.head

/-- QUEUE_ERROR: the read of the next packet faults (R348). -/
def State.readError (s : State) (q : Nat) : State :=
  match s.queue? q with
  | some x => if s.picked x && (s.packetOf x).isNone then s.enterError x else s
  | none => s

/-- CAP_FAULT: a field of the next packet exceeds the bounds or permissions of the queue's capability (R348, R427). -/
def State.capError (s : State) (q : Nat) : State :=
  match s.queue? q with
  | some x => (match s.packetOf x with | some p => if s.picked x && !(x.capFits p) then s.enterError x else s | none => s)
  | none => s

/-- A LAUNCH begins, or completes at once (R350). -/
def State.launchPacket (s : State) (j : Job) (p : Nat) : State :=
  match s.beginLaunch j p (pkNcrews p) [] with
  | .ok s1 => s1
  | .error st => s.finishJob j st 0 0 0

/-- The completion record of a child (R357); its QID and INDEX are not stated. -/
def State.kidRecord (s : State) (j : Job) (kid : Kid) (status aux : Nat) : State :=
  let j2 : Job := { j with cq := kid.cq, compl := kid.compl, tag := kid.tag, queue := some ((Config.free s.free).toNat % 2 ^ 15)
                           index := (Config.free (s.free + 1)).toNat % 2 ^ 32 }
  let s1 := s.workWith kid.seen (fun s => s.record j2 status aux 0 0)
  { s1 with free := s1.free + 2 }

/-- The next grid of a device queue begins (R353, R357). -/
def State.launchGrid (s : State) (die : Nat) : State :=
  match s.grid? die with
  | none => s
  | some w =>
    if !(s.serves die) then s
    else
      let p := w.key.toNat
      let s1 := s.modDie die (fun d => { d with devq := d.devq.tail })
      let j : Job := { id := s.nextJob, queue := none, index := 0, ctxid := w.ctxid, die := die, tag := 0, cq := false, compl := 0, parent := none
                       iter := none, opn := false, kind := .wait [] true, seen := [] }
      if s.packetLate p then w.kids.foldl (fun s k => s.kidRecord j k 1 0) s1
      else
        match s1.beginLaunch j p (w.kids.length * pkNcrews p) w.kids with
        | .ok s2 => s2
        | .error st => w.kids.foldl (fun s k => s.kidRecord j k st 0) s1

/-- A LAUNCH of a host queue, or the next grid of a die's device queue, which is numbered 2^15 + die. -/
def State.launchNext (s : State) (q : Nat) : State := if q < 2 ^ 15 then s.dispatch q 1 State.launchPacket else s.launchGrid (q - 2 ^ 15)

/-- The conditions of a barrier packet (R346). -/
def pkConds (p : Nat) : List (Nat × W64 × Nat) :=
  (bits p 511 448, BitVec.ofNat 64 (bits p 447 384), bits p 251 248)
    :: (if bits p 247 246 = 2 then [(bits p 383 320, BitVec.ofNat 64 (bits p 319 256), bits p 255 252)] else [])

/-- A barrier packet waits (R352): its dispatch ends when it completes. -/
def State.barrierPacket (all : Bool) (s : State) (j : Job) (p : Nat) : State := s.addJob { j with opn := true, kind := .wait (pkConds p) all }

/-- SIGNAL (R352). -/
def State.signalPacket (s : State) (j : Job) (p : Nat) : State :=
  match (s.workBegin j.seen).signal j.ctxid p with
  | some s1 => (s1.workEnd s).finishJob { j with seen := s1.actor.past } 0 0 0 0
  | none => s.finishJob j 6 0 0 0

/-- COPY (R352): no byte completes at once. -/
def State.copyPacket (s : State) (j : Job) (p : Nat) : State :=
  let n := bits p 383 344
  if n = 0 then s.finishJob j 0 0 0 0
  else ({ s with nextOp := s.nextOp + 1 }).addJob { j with kind := .copy s.nextOp (hostCp (bits p 511 448) (bits p 447 384) n) }

/-- A packet that is one step of a die's scheduler completes with it (R322, R352). -/
def State.schedPacket (s : State) (die : Nat) (j : Job) (f : State → State × Nat × Nat × Nat) : State :=
  let r := f (s.schedBegin die j.seen)
  (r.1.schedEnd s die).finishJob { j with seen := r.1.actor.past } r.2.1 r.2.2.1 r.2.2.2 0

/-- SEQADMIT (R324, R352). -/
def State.admitPacket (s : State) (j : Job) (p : Nat) : State :=
  s.schedPacket (bits p 447 447) j (fun s =>
    match s.vrd j.ctxid (bits p 511 448) 128 with
    | none => (s, 8, 0, 5)
    | some b =>
      match s.enterSeq j.ctxid (bits p 447 447) b with
      | .ok (s1, id) => (s1, 0, id, 0)
      | .error st => (s, 8, 0, (-st).toNat))

/-- SEQCANCEL (R352). -/
def State.cancelPacket (s : State) (j : Job) (p : Nat) : State :=
  let id := bits p 511 480
  s.schedPacket (sqDie id) j (fun s => if (s.live? id).isSome then (s.cancelSeq id, 0, 0, 0) else (s, 9, 0, 0))

/-- A die's run lists are empty (R354). -/
def State.runListsEmpty (s : State) (die : Nat) : Bool := s.queues.all (fun x => decide (x.server ≠ die) || !x.listed)

/-- A core of the die has 32 free warp slots. -/
def State.freeCore (s : State) (die : Nat) : Bool := (List.range 264).any (fun c => (s.resident die c).all (fun k => decide (k.image.warps = 0)))

/-- STEAL_REQUEST (R354): into the other die's mailbox, which holds 64. -/
def State.stealRequest (s : State) (die : Nat) : State :=
  match s.dies[1 - die]? with
  | some d => if s.serves die && s.runListsEmpty die && s.freeCore die && decide (d.steals < 64)
      then s.modDie (1 - die) (fun d => { d with steals := d.steals + 1 }) else s
  | none => s

/-- QUEUE_HANDOVER (R354): of a queue on its owner's run lists whose next packet is a LAUNCH with DIES = 0, once its dispatch has
ended; the agenda's choice of queue is the order of the run lists. -/
def State.handover (s : State) (q : Nat) : State :=
  match s.queue? q, s.dies[qHome q]? with
  | some x, some d =>
    if !x.stolen && decide (0 < d.steals) && s.serves (qHome q) && x.listed && s.dispatchEnded q
        && (match s.packetOf x with | some p => stealable p | none => false)
    then (s.modQueue q (fun x => { x with stolen := true })).modDie (qHome q) (fun d => { d with steals := d.steals - 1 }) else s
  | _, _ => s

/-- QUEUE_RETURN (R354): the run list entry has emptied, or the next packet is none that a thief may serve. -/
def State.giveBack (s : State) (q : Nat) : State :=
  match s.queue? q with
  | some x =>
    if x.stolen && s.dispatchEnded q && (!x.listed || (match s.packetOf x with | some p => !(stealable p) | none => false))
    then s.modQueue q (fun x => { x with stolen := false }) else s
  | none => s

/-- Children accepted on a die that have not completed (R356). -/
def State.pendingKids (s : State) (die : Nat) : Nat :=
  (match s.dies[die]? with | some d => ((d.aggs ++ d.devq).map (fun w => w.kids.length)).sum | none => 0)
    + (s.jobs.map (fun j => match j.kind with | .launch l => (if j.die = die then l.kids.length - l.kidDone.length else 0) | _ => 0)).sum

/-- A child packet that R356 accepts. -/
def childOk (p : Nat) : Bool :=
  packetOk p && decide (pkType p = 1 ∧ pkParam p = 0 ∧ pkStride p = 0 ∧ pkNcrews p ≤ 256) && !(pkOrd p) && !(pkInd p) && !(pkCtlc p)

/-- The key of a child packet: without PARAM, COMPL, TAG and CQ (R357). -/
def childKey (p : Nat) : BitVec 512 :=
  BitVec.ofNat 512 (setBits (setBits (setBits (setBits p 447 384 0) 191 128 0) 47 32 0) 14 14 0)

/-- A window closes: its grid joins the device queue (R357). -/
def Die.closeWin (d : Die) (i : Nat) : Die :=
  match d.aggs[i]? with
  | some w => { d with aggs := d.aggs.eraseIdx i, devq := d.devq ++ [w] }
  | none => d

/-- The windows that opened 40 ns ago close (R357). -/
def Die.closeDue (d : Die) (now : Nat) : Die :=
  { d with aggs := d.aggs.filter (fun w => decide (now < w.opened + 40)), devq := d.devq ++ d.aggs.filter (fun w => decide (w.opened + 40 ≤ now)) }

/-- A child joins its window, or opens one (R357): the 16 open windows lie oldest first; the 256th child closes its window. -/
def Die.addKid (d0 : Die) (key : BitVec 512) (ctx now : Nat) (kid : Kid) : Die :=
  let d := d0.closeDue now
  match d.aggs.findIdx? (fun w => decide (w.key = key ∧ w.ctxid = ctx)) with
  | some i =>
    let d1 := { d with aggs := modAt d.aggs i (fun w => { w with kids := w.kids ++ [kid] }) }
    (match d1.aggs[i]? with | some w => if 256 ≤ w.kids.length then d1.closeWin i else d1 | none => d1)
  | none =>
    let d1 := if 16 ≤ d.aggs.length then d.closeWin 0 else d
    { d1 with aggs := d1.aggs ++ [⟨key, ctx, now, [kid]⟩] }

/-- LAUNCH's step: its status and what it does (R356). -/
def State.launchChild (s : State) (e : Env) (pkt : Option Nat) (param : W64) : State × Int :=
  if 4096 ≤ s.pendingKids e.k.die then (s, -1)
  else
    match pkt with
    | none => (s, -2)
    | some p =>
      if !(childOk p) then (s, -3)
      else (s.modDie e.k.die (fun d => d.addKid (childKey p) e.k.ctxid s.dtime
        ⟨param, pkCq p, pkCompl p, pkTag p, s.past e.who s.nextOp e.m0⟩), 0)

/-- LAUNCH (R356): what its threads did before it is performed, so it happens before the child's threads (R217). -/
def execLaunch (o : OpX3) (s : State) : Host.Outcome State Fault Refusal :=
  runH (baseHdr (0xC0000FD + putX3 o)) s (fun e => do
    let a ← rdS s e o.b.toNat
    let b ← rdS s e o.c.toNat
    freeS s e o.a.toNat
    waitUnless (!(s.storesOut e.who) && !(s.olderPending e.who s.nextOp e.m0 true))
    let q := s.blockAt e (alignDown a.toNat 64) 64
    waitUnless (!q.1)
    let r := s.launchChild e q.2 b
    pure (r.1.setS e.who o.a.toNat (w64 r.2)))

/-- The number of a queue's state in QSTAT (R342). -/
def QSt.code : QSt → Nat
  | .active => 1 | .overrun => 2 | .error => 3 | .draining => 4

/-- The registers of a queue's page by their offset (R342): TAIL is write-only and reads 0; a FREE queue's HEAD reads 0 (log entry
94). -/
def State.queueReg (s : State) (q off : Nat) : Nat :=
  match s.queue? q with
  | some x => if off = 8 then x.head else if off = 16 then b2n x.stolen * 8 + x.st.code else 0
  | none => 0

/-- BAR0 answers from stage 1 of the boot on; the other BARs once the package has been READY (R422, R423). -/
def State.bar0 (s : State) : Bool := decide (s.boot.stat.toNat % 16 ≠ 0)
def State.bar2 (s : State) : Bool := decide (s.boot.stat.toNat % 16 = 4 ∨ s.boot.stat.toNat % 16 = 6)

/-- A write of RDIDX: below the register or above WRIDX it is ignored (R362). -/
def State.writeRdidx (s : State) (ring v : Nat) : State := s.modRing ring (fun r => if r.rd ≤ v ∧ v ≤ r.wr then { r with rd := v } else r)

/-- A write of 1 to OVF clears it (R362). -/
def State.clearOvf (s : State) (ring : Nat) : State := s.modRing ring (fun r => { r with ovf := false })

/-- QUEUE_DOORBELL (R343). -/
def execQueueDoorbell (q : Nat) (w : W64) (s : State) : Host.Outcome State Fault Refusal := .next (if s.bar2 then s.doorbell q w.toNat else s)
/-- LAUNCH_PACKET (R350, R353). -/
def execLaunchPacket (q : Nat) (s : State) : Host.Outcome State Fault Refusal := .next (s.launchNext q)
/-- GRAPH_PACKET (R352, R360). -/
def execGraphPacket (q : Nat) (s : State) : Host.Outcome State Fault Refusal :=
  .next (s.dispatch q 2 (fun s j p => s.beginGraph j (bits p 511 448) (BitVec.ofNat 64 (bits p 447 384)) (pkDeadline p)))
/-- SIGNAL_PACKET (R352). -/
def execSignalPacket (q : Nat) (s : State) : Host.Outcome State Fault Refusal := .next (s.dispatch q 3 State.signalPacket)
/-- BARRIER_AND (R352). -/
def execBarrierAnd (q : Nat) (s : State) : Host.Outcome State Fault Refusal := .next (s.dispatch q 4 (State.barrierPacket true))
/-- BARRIER_OR (R352). -/
def execBarrierOr (q : Nat) (s : State) : Host.Outcome State Fault Refusal := .next (s.dispatch q 5 (State.barrierPacket false))
/-- COPY_PACKET (R352). -/
def execCopyPacket (q : Nat) (s : State) : Host.Outcome State Fault Refusal := .next (s.dispatch q 6 State.copyPacket)
/-- SEQADMIT (R324, R352). -/
def execSeqadmit (q : Nat) (s : State) : Host.Outcome State Fault Refusal := .next (s.dispatch q 7 State.admitPacket)
/-- SEQCANCEL (R352). -/
def execSeqcancel (q : Nat) (s : State) : Host.Outcome State Fault Refusal := .next (s.dispatch q 8 State.cancelPacket)
/-- MALFORMED_PACKET (R345). -/
def execMalformedPacket (q : Nat) (s : State) : Host.Outcome State Fault Refusal := .next (s.malformed q)
/-- QUEUE_ERROR (R348). -/
def execQueueError (q : Nat) (s : State) : Host.Outcome State Fault Refusal := .next (s.readError q)
/-- CAP_FAULT (R427). -/
def execCapFault (q : Nat) (s : State) : Host.Outcome State Fault Refusal := .next (s.capError q)
/-- STEAL_REQUEST (R354). -/
def execStealRequest (die : Nat) (s : State) : Host.Outcome State Fault Refusal := .next (s.stealRequest die)
/-- QUEUE_HANDOVER (R354). -/
def execQueueHandover (q : Nat) (s : State) : Host.Outcome State Fault Refusal := .next (s.handover q)
/-- QUEUE_RETURN (R354). -/
def execQueueReturn (q : Nat) (s : State) : Host.Outcome State Fault Refusal := .next (s.giveBack q)
/-- AGGREGATOR_WINDOW_CLOSE: 40 ns after the window opened (R357). -/
def execAggregatorWindowClose (die win : Nat) (s : State) : Host.Outcome State Fault Refusal :=
  .next (s.modDie die (fun d => match d.aggs[win]? with | some w => if w.opened + 40 ≤ s.dtime then d.closeWin win else d | none => d))
/-- RING_INTERRUPT_TIMER (R364). -/
def execRingInterruptTimer (ring : Nat) (s : State) : Host.Outcome State Fault Refusal := .next (s.ringTimer ring)
/-- RDIDX (R362). -/
def execRdidx (ring : Nat) (v : W64) (s : State) : Host.Outcome State Fault Refusal := .next (if s.bar2 then s.writeRdidx ring v.toNat else s)
/-- OVF (R362). -/
def execOvf (ring : Nat) (s : State) : Host.Outcome State Fault Refusal := .next (if s.bar2 then s.clearOvf ring else s)

end Sys2Proof.Machine
end

