-- ==== Sys2Proof/Machine/Mgmt.lean ====
section
/-! DEFINITION. Management commands (R344, R461) and the rings that bring them (R462), and the host's writes to BAR0 (R418, R420,
R421). -/
namespace Sys2Proof.Machine

/-- A record of zeros in memory: an unlisted byte reads 0 and clean (log entry 2). -/
def State.zeroRange (s : State) (key n : Nat) : State :=
  { s.note key n none with
           mem := s.mem.filter (fun p => !(decide (key ≤ p.1 ∧ p.1 < key + n)))
           memPoison := s.memPoison.filter (fun p => !(decide (key ≤ 32 * p.1 ∧ 32 * p.1 + 32 ≤ key + n)))
           wordPoison := s.wordPoison.filter (fun p => !(decide (key ≤ 4 * p.1 ∧ 4 * p.1 + 4 ≤ key + n))) }

/-- The next record of a die's management ring: none where the ring is idle or a command is in progress; the record, where it can
be read (R344, R462). -/
def State.cmdNext (s : State) (die : Nat) : Option (Option Nat) :=
  match s.dies[die]? with
  | none => none
  | some d =>
    if s.serves die && d.pend.isNone && decide (d.mrhead < d.mrtail)
    then some (s.hostRd (d.mrbase + 64 * (d.mrhead % 2 ^ d.mrlogn)) 64) else none

/-- MRHEAD advances (R462). -/
def State.cmdBegin (s : State) (die : Nat) : State := s.modDie die (fun d => { d with mrhead := d.mrhead + 1 })

/-- The fields of a command record (R344). -/
def cmCode (r : Nat) : Nat := bits r 7 0
def cmTag (r : Nat) : Nat := bits r 31 16
def cmArg (r k : Nat) : Nat := bits r (127 + 64 * k) (64 + 64 * k)
def cmHeadOk (r : Nat) : Bool := decide (bits r 15 8 = 0 ∧ bits r 63 32 = 0)

/-- What a command comes to: a status with nothing changed, a completed effect, or an effect that goes on. -/
inductive CmdRes where
  | fail (status : Nat)
  | done (s : State)
  | goes (s : State) (k : CmdKind)

/-- Executes the next command of a die where it has the given code (R344): the arguments and the state go to its effect. -/
def State.command (s : State) (die code : Nat) (f : State → (Nat → Nat) → CmdRes) : State := s.byWork (fun s =>
  match s.cmdNext die with
  | some (some r) =>
    if cmCode r ≠ code then s
    else
      let s1 := s.cmdBegin die
      let a := cmArg r
      if !(cmHeadOk r) then s1.cmdRecord die (a 6) (cmTag r) 2 0
      else
        match f s1 a with
        | .fail st => s1.cmdRecord die (a 6) (cmTag r) st 0
        | .done s2 => s2.cmdRecord die (a 6) (cmTag r) 0 0
        | .goes s2 k => (s2.modDie die (fun d => { d with pend := some ⟨k, cmTag r, a 6⟩ })).preemptCheck
  | _ => s)

/-- A malformed command unless the condition holds. -/
def cmdIf (c : Bool) (r : CmdRes) : CmdRes := if c then r else .fail 2

/-- A command whose record at a host address must be readable (R461). -/
def State.cmdRead (s : State) (a n : Nat) (f : Nat → CmdRes) : CmdRes :=
  match s.hostRd a n with
  | some v => f v
  | none => .fail 6

/-- A value names a context (R344). -/
def ctxOk (c : Nat) : Bool := decide (c < 2 ^ 32)

/-- The capability through which the firmware follows the pointers of a queue's packets (R427, log entry 114). -/
def queueCap (qid base logn ctx : Nat) : Cap :=
  let c := Config.queueCap [qid, base, logn, ctx]
  ⟨c.1, c.2.1, c.2.2.1, c.2.2.2.1, c.2.2.2.2⟩

/-- QCREATE. -/
def cmdQcreate (die : Nat) (s : State) (a : Nat → Nat) : CmdRes :=
  let lg := bits (a 2) 4 0
  cmdIf (decide (a 0 < 2 ^ 15 ∧ qHome (a 0) = die ∧ a 1 % 4096 = 0 ∧ 4 ≤ lg ∧ lg ≤ 16 ∧ bits (a 2) 7 5 = 0 ∧ a 2 < 2 ^ 11 ∧ a 4 % 16 = 0)
      && ctxOk (a 3) && (s.queue? (a 0)).isNone)
    (.done { s with queues := s.queues ++ [{ qid := a 0, st := .active, stolen := false, base := a 1, logn := lg, prio := bits (a 2) 10 8, ctxid := a 3
                                             err := a 4, head := 0, tail := 0, cap := queueCap (a 0) (a 1) lg (a 3), seen := [], done := [] }] })

/-- The CANCELLED records of the packets that have not begun (R355). -/
def State.cancelPackets (s : State) (x : Queue) : Nat → State
  | 0 => s
  | n + 1 =>
    let y := { x with head := x.tail - (n + 1) }
    State.cancelPackets (match s.packetOf y with
      | some p => s.finishJob (s.packetJob y p) 5 0 0 0
      | none => s) x n

/-- What a job of a destroyed queue comes to (R355). -/
def State.destroyJob (s : State) (j : Job) : State :=
  match j.kind with
  | .launch l =>
    if l.placed < l.ncrews then (s.modLaunch j.id false (fun l => { l with halted := true, cut := true })).launchCheck j.id else s
  | .graph _ => (s.modGraph j.id (fun g => { g with stop := true })).graphSettle 1 j.id
  | .wait _ _ => s.finishJob j 5 0 0 0
  | .copy _ _ => s

/-- QDESTROY (R355): the queue is DRAINING. -/
def cmdQdestroy (die : Nat) (s : State) (a : Nat → Nat) : CmdRes :=
  match s.queue? (a 0) with
  | none => .fail 2
  | some x =>
    cmdIf (decide (a 0 < 2 ^ 15 ∧ qHome (a 0) = die))
      (.goes ((s.jobs.filter (fun j => decide (j.queue = some x.qid))).foldl State.destroyJob
        ((s.modQueue x.qid (fun x => { x with st := .draining })).cancelPackets x (x.tail - x.head))) (.destroy x.qid))

/-- QRESET. -/
def cmdQreset (die : Nat) (s : State) (a : Nat → Nat) : CmdRes :=
  match s.queue? (a 0) with
  | none => .fail 2
  | some x =>
    cmdIf (decide (a 0 < 2 ^ 15 ∧ qHome (a 0) = die ∧ (x.st = .overrun ∨ x.st = .error)) && s.dispatchEnded x.qid)
      (.done (s.modQueue x.qid (fun x => { x with st := .active, head := a 1, tail := a 1 })))

/-- CTXSET (R184). -/
def cmdCtxset (s : State) (a : Nat → Nat) : CmdRes :=
  let t := bits (a 1) 2 0
  let root := bits (a 1) 51 15 * 2 ^ 15
  cmdIf (decide (a 0 ≠ 0 ∧ t ≤ 2 ∧ bits (a 1) 63 52 = 0 ∧ bits (a 1) 14 3 = 0 ∧ root + 2 ^ 15 ≤ tgtSize t) && ctxOk (a 0))
    (.done { s with roots := s.roots.set (a 0) (BitVec.ofNat 64 (memKey t root + 1)) })

/-- INVAL (R190). -/
def cmdInval (s : State) (a : Nat → Nat) : CmdRes := cmdIf (ctxOk (a 0)) (.goes s (.inval (a 0) (a 1) (a 2) s.nextOp))

/-- The configuration of a page engine's tier range (R292). -/
def tierOf (r : Nat) : TierRange := ⟨bits r 31 29, bits r 28 0, bits r 127 96, bits r 255 192, bits r 191 128⟩

/-- A tier range lies within its tier and its memory (R291, R292); one without frames may name any tier. -/
def tierOk (die shift r : Nat) : Bool :=
  let t := tierOf r
  let size := tgtSize (tierTgt die t.tier)
  decide (bits r 95 32 = 0 ∧ (t.count = 0 ∨ t.tier = die ∨ t.tier = 2 ∨ t.tier = 3) ∧ t.first + t.count ≤ 2 ^ 29 ∧ t.tbase + 32 * t.count ≤ size
    ∧ t.fbase + t.count * 2 ^ shift ≤ size)

/-- Two ranges share a frame number. -/
def tiersMeet (x y : TierRange) : Bool := decide (x.tier = y.tier ∧ x.first < y.first + y.count ∧ y.first < x.first + x.count)

/-- A layer pool descriptor (R296). -/
def poolOk (shift v : Nat) : Bool :=
  let q := BitVec.ofNat 64 v
  decide (bits v 63 56 = 0 ∧ bits v 33 0 = 0)
    && (!(poolV q) || decide (1 ≤ poolFmt q ∧ poolFmt q ≤ 7 ∧ 2 ≤ bits v 40 38 ∧ poolSize q ≤ 2 ^ shift))

/-- No sequence of a die is live. -/
def State.noSeq (s : State) (die : Nat) : Bool := (s.sched die).needs.all (fun n => decide (rcState (s.recOf die n.1) = 0))

/-- Every frame of a die's page engine is FREE. -/
def State.framesFree (s : State) (die : Nat) : Bool :=
  [0, 1, 2, 3].all (fun t => ((s.pe die).frames die t).all (fun f => decide (feState (s.frEnt die f) = 0)))

/-- PECONFIG (R292, R296): a header of 16 bytes, three ranges of 32 bytes, 16 pools of 8 bytes; every frame-table entry becomes 0. -/
def cmdPeconfig (die : Nat) (s : State) (a : Nat → Nat) : CmdRes :=
  cmdIf (decide (a 0 = die)) (s.cmdRead (a 1) 240 (fun v =>
    let shift := bits v 4 0
    let rs := (List.range 3).map (fun i => bits v (383 + 256 * i) (128 + 256 * i))
    let ps := (List.range 16).map (fun i => bits v (959 + 64 * i) (896 + 64 * i))
    let ts := rs.map tierOf
    cmdIf (s.noSeq die && s.framesFree die && decide (bits v 127 64 = 0 ∧ bits v 31 5 = 0 ∧ 12 ≤ shift ∧ shift ≤ 21)
        && rs.all (tierOk die shift) && decide ((ts.filter (fun t => decide (t.count ≠ 0))).map TierRange.tier).Nodup && ps.all (poolOk shift)
        && ts.all (fun t => decide (t.tier < 2) || ((s.pe (1 - die)).ranges.all (fun u => !(tiersMeet t u)))))
      (.done ((ts.filter (fun t => decide (t.count ≠ 0))).foldl (fun s t => s.zeroRange (memKey (tierTgt die t.tier) t.tbase) (32 * t.count))
        (s.modDie die (fun d => { d with pe := ⟨bits v 63 48, bits v 47 32, shift, ts, ps.map (BitVec.ofNat 64)⟩ }))))))

/-- A group descriptor (R323). -/
def groupDescOk (g : Nat) : Bool :=
  decide (bits g 11 1 = 0) && (decide (bits g 0 0 = 0) || decide (1 ≤ bits g 79 64 ∧ 1 ≤ bits g 63 48 ∧ bits g 47 44 ≤ 6))

/-- SQCONFIG (R319, R323): a header of 64 bytes and 16 groups of 64; every record of the table is FREE. -/
def cmdSqconfig (die : Nat) (s : State) (a : Nat → Nat) : CmdRes :=
  cmdIf (decide (a 0 = die)) (s.cmdRead (a 1) 1088 (fun v =>
    let base := bits v 511 448
    let gs := (List.range 16).map (fun i => bits v (1023 + 512 * i) (512 + 512 * i))
    let d := s.sched die
    cmdIf (s.noSeq die && d.iters.all (fun i => !i.opn) && decide (bits v 383 64 = 0 ∧ bits v 31 0 = 0 ∧ base % 128 = 0)
        && decide (base + 128 * 8192 ≤ tgtSize die) && gs.all groupDescOk)
      (.done (let s1 := if base = d.recbase ∧ d.gens ≠ [] then s else s.zeroRange (memKey die base) (128 * 8192)
        s1.modSched die (fun d => { d with recbase := base, recva := BitVec.ofNat 64 (bits v 447 384), pagecap := bits v 63 32
                                           groups := gs.map (BitVec.ofNat 512) })))))

/-- SGASSIGN (R241). -/
def cmdSgassign (die : Nat) (s : State) (a : Nat → Nat) : CmdRes :=
  let t := a 2 * 1000
  cmdIf (decide (a 0 < 2 ^ 9 ∧ a 0 / 2 ^ 8 = die ∧ a 2 ≤ 1000000) && ctxOk (a 1))
    (.done (if s.steps.any (fun g => decide (g.g = a 0)) then s.modStep (a 0) (fun g => { g with ctxid := a 1, timeout := t })
      else { s with steps := s.steps ++ [{ StepGrp.unassigned (a 0) with ctxid := a 1, timeout := t }] }))

/-- RINGSET (R362). -/
def cmdRingset (die : Nat) (s : State) (a : Nat → Nat) : CmdRes :=
  cmdIf (decide (a 0 < 2 ^ 16 ∧ a 0 / 2 ^ 15 = die ∧ bits (a 0) 14 10 = 0 ∧ a 1 % 4096 = 0 ∧ 4 ≤ a 2 ∧ a 2 ≤ 20 ∧ a 3 % 8 = 0 ∧ a 4 < 2 ^ 59))
    (.done { s with rings := s.rings.filter (fun r => decide (r.id ≠ a 0)) ++
      [{ id := a 0, base := a 1, logn := a 2, wback := a 3, cnt := bits (a 4) 15 0, time := bits (a 4) 47 16, vec := bits (a 4) 58 48
         wr := 0, rd := 0, lost := 0, ovf := false, pend := 0, first := 0 }] })

/-- WINSET (R370): a window of length 0 is deleted. -/
def cmdWinset (s : State) (a : Nat → Nat) : CmdRes :=
  let w : Win := { ctxid := a 1, base := a 2, len := a 3, perm := BitVec.ofNat 3 (a 4), die := bits (a 4) 3 3, acct := bits (a 4) 5 4
                   anyPeer := decide (bits (a 4) 28 28 = 1), peer := bits (a 4) 27 16, ltag := bits (a 5) 15 0, rcrew := bits (a 5) 39 16
                   rbar := bits (a 5) 55 40 }
  let ws := s.wins.filter (fun p => decide (p.1 ≠ a 0))
  cmdIf (decide (a 0 < 2048 ∧ a 3 ≤ 2 ^ 40 ∧ bits (a 4) 15 6 = 0 ∧ a 4 < 2 ^ 29 ∧ w.acct ≤ 1 ∧ a 5 < 2 ^ 56) && ctxOk (a 1))
    (.done { s with wins := if a 3 = 0 then ws else ws ++ [(a 0, w)] })

/-- REDSET (R390). -/
def cmdRedset (s : State) (a : Nat → Nat) : CmdRes :=
  let n := bits (a 2) 14 8
  cmdIf (decide (a 0 < 256 ∧ a 1 < 2 ^ 24 ∧ a 2 < 2 ^ 15 ∧ bits (a 2) 7 6 = 0 ∧ 1 ≤ n ∧ n ≤ 64 ∧ bits (a 2) 5 0 < n ∧ a 4 ≤ 10000) && ctxOk (a 3))
    (.done { s with redgrps := s.redgrps.filter (fun g => decide (g.idx ≠ a 0)) ++
      [⟨a 0, a 1, bits (a 2) 5 0, n, a 3, 1000 * (if a 4 = 0 then 100 else a 4)⟩] })

/-- The ranges of the Iris record (R373). -/
def irisOk (v : Nat) : Bool :=
  (List.range 8).all (fun c => decide (bits v (462 + 7 * c) (456 + 7 * c) ≤ 64)) && (List.range 6).all (fun l => decide (bits v (407 + 8 * l) (400 + 8 * l) ≠ 0))
    && decide (bits v 455 448 = 0 ∧ bits v 393 384 = 0 ∧ bits v 295 288 = 0 ∧ bits v 255 243 = 0 ∧ bits v 239 0 = 0)
    && decide (100 ≤ bits v 383 352 ∧ bits v 383 352 ≤ 1000000 ∧ 1000 ≤ bits v 351 320 ∧ bits v 351 320 ≤ 10000000)
    && decide (1 ≤ bits v 319 304 ∧ bits v 319 304 ≤ 1000 ∧ 12 ≤ bits v 303 296 ∧ bits v 303 296 ≤ 18)
    && decide (256 ≤ bits v 287 256 ∧ bits v 287 256 ≤ 16384)

/-- IRISSET (R373). -/
def cmdIrisset (die : Nat) (s : State) (a : Nat → Nat) : CmdRes :=
  cmdIf (decide (a 0 = die)) (s.cmdRead (a 1) 64 (fun v =>
    cmdIf (irisOk v) (.done (s.modIris die (fun x => { x with cfg := BitVec.ofNat 512 v })))))

/-- SAVESET (R407). -/
def cmdSaveset (s : State) (a : Nat → Nat) : CmdRes :=
  cmdIf (decide (a 1 % 4096 = 0 ∧ a 2 ≤ 2 ∧ a 1 + a 3 ≤ tgtSize (a 2)) && ctxOk (a 0))
    (.done { s with saves := s.saves.filter (fun x => decide (x.ctxid ≠ a 0)) ++ [⟨a 0, a 2, a 1, a 3, 0⟩] })

/-- The power budget of a die: PWRSET's takes effect at the next 1 µs window (R408, R417). -/
def State.powerBudget (s : State) (die : Nat) : Nat :=
  match s.dies[die]? with
  | some d => (match d.nextBudget with | some (b, t) => if t / 1000 < s.dtime / 1000 then b else d.budget | none => d.budget)
  | none => 0

/-- PWRSET (R417). -/
def cmdPwrset (die : Nat) (s : State) (a : Nat → Nat) : CmdRes :=
  cmdIf (decide (a 0 = die ∧ 300 ≤ a 1 ∧ a 1 ≤ 1100 ∧ a 2 = 0)) (.done (s.modDie die (fun d =>
    { d with budget := s.powerBudget die, nextBudget := some (a 1, s.dtime) })))

/-- DEVSET (R426). -/
def cmdDevset (s : State) (a : Nat → Nat) : CmdRes :=
  cmdIf (decide (a 0 < 2 ^ 12 ∧ s.boot.ports = 0)) (.done { s with devid := BitVec.ofNat 64 (a 0) })

/-- A 512-bit value as bytes. -/
def bytes64 (v : BitVec 512) : List Byte := natLe 64 v.toNat

/-- The extension of a measurement register by the digest of an item (R424). -/
def extend (m : BitVec 512) (digest : List Byte) : BitVec 512 := Config.shake256 (bytes64 m ++ digest)

/-- MEXTEND (R424). -/
def cmdMextend (s : State) (a : Nat → Nat) : CmdRes :=
  cmdIf (decide (4 ≤ a 0 ∧ a 0 ≤ 7)) (s.cmdRead (a 1) 64 (fun v =>
    .done { s with boot := { s.boot with meas := modAt s.boot.meas (a 0) (fun m => extend m (natLe 64 v)) } }))

/-- The signed part of the attestation report (R426; widths of DEVID and the firmware version: log entry 7). -/
def State.report (s : State) (nonce : Nat) : List Byte :=
  natLe 4 0x4B415431 ++ natLe 32 nonce ++ natLe 8 s.devid.toNat ++ natLe 8 s.boot.stat.toNat ++ s.boot.meas.flatMap bytes64 ++ natLe 8 s.boot.fwver

/-- ATTEST (R426, R461). -/
def cmdAttest (s : State) (a : Nat → Nat) : CmdRes :=
  s.cmdRead (a 0) 32 (fun v =>
    let r := s.report v
    let sig := (Config.attestSign r).take 1536
    let bs := r ++ natLe 2 sig.length ++ sig ++ List.replicate (1536 - sig.length) 0
    if s.hostOk (a 1) (r.length + 1538) true then .done (s.wrL (memKey 3 (a 1)) bs) else .fail 6)

/-- REPAIRSET (R429): 64 entries of 8 bytes (log entry 7). -/
def cmdRepairset (s : State) (a : Nat → Nat) : CmdRes :=
  s.cmdRead (a 0) 512 (fun v => .done { s with boot := { s.boot with staged := some (natLe 512 v) } })

/-- QDESTROY completes (R355). -/
def State.destroyDone (s : State) (q : Nat) : State :=
  match s.dies[qHome q]? with
  | none => s
  | some d =>
    match d.pend with
    | none => s
    | some c =>
      match c.kind with
      | .destroy x =>
        if x = q ∧ s.allDone q then
          ({ s with queues := s.queues.filter (fun y => decide (y.qid ≠ q)) }).endCmd (qHome q) c 0 0
        else s
      | _ => s

/-- A cached table entry serves addresses of a range (R190). -/
def xlatIn (ctx start len : Nat) (t : Nat × Nat × Nat × Nat) : Bool :=
  decide (t.1 = ctx ∧ t.2.2.1 * 2 ^ levelShift t.2.1 < start + len ∧ start < (t.2.2.1 + 1) * 2 ^ levelShift t.2.1)

/-- An operation still has accesses that have been translated: at its issue, or the acceptances of a drain or a TST that has begun. -/
def Op.translated (o : Op) : Bool :=
  (match o.eng with | some (.mx m) => m.shares.isSome | _ => false) || !o.cells.isEmpty || !o.atoms.isEmpty || o.sload.isSome || o.fills.any (fun f => match f.src with | .mem _ _ _ _ => true | .half _ _ _ _ => true | _ => false)

/-- INVAL completes (R190): accesses translated before are done, and no old translation is left. -/
def State.invalDone (s : State) (die : Nat) : State :=
  match s.dies[die]? with
  | none => s
  | some d =>
    match d.pend with
    | none => s
    | some c =>
      match c.kind with
      | .inval ctx start len op =>
        let old := s.xlat.any (xlatIn ctx start len)
        if s.ops.any (fun o => (decide (o.id < op) || old) && s.crewIs (fun k => decide (k.ctxid = ctx)) o.crew && o.translated) then s
        else ({ s with xlat := s.xlat.filter (fun t => !(xlatIn ctx start len t)) }).endCmd die c 0 0
      | _ => s

/-- A record with an unknown code (R344). -/
def State.unknownCmd (s : State) (die : Nat) : State :=
  match s.cmdNext die with
  | some (some r) =>
    if 1 ≤ cmCode r ∧ cmCode r ≤ 20 then s else s.byWork (fun s => (s.cmdBegin die).cmdRecord die (cmArg r 6) (cmTag r) 2 0)
  | _ => s

/-- A record that cannot be read is skipped (R462). -/
def State.skipCmd (s : State) (die : Nat) : State :=
  match s.cmdNext die, s.dies[die]? with
  | some none, some d => (s.cmdBegin die).event die 0 .mrSkip d.mrhead false
  | _, _ => s

/-- A write of MRTAIL (R462). -/
def State.writeMrtail (s : State) (die w : Nat) : State :=
  match s.dies[die]? with
  | none => s
  | some d => if d.mrtail ≤ w ∧ w - d.mrhead ≤ 2 ^ d.mrlogn then s.modDie die (fun d => { d with mrtail := w }) else s.event die 0 .mrTail w false

/-- A write of MRBASE, or of MRLOGN (R462). -/
def Die.writeMrbase (d : Die) (logn : Bool) (v : Nat) : Die :=
  if d.mrhead ≠ d.mrtail then d
  else if logn then (if 4 ≤ v ∧ v ≤ 12 then { d with mrlogn := v } else d)
  else if v % 4096 = 0 then { d with mrbase := v } else d

/-- A write of one doubleword of a host window (R420, R421); reserved bits do not change. -/
def State.writeWindow (s : State) (i dword v : Nat) : State :=
  if s.wlock then s
  else
    match dword with
    | 0 => { s with windows := modAt s.windows i (fun w => BitVec.ofNat 256 (setBits w.toNat 2 0 v)) }
    | 1 => s
    | k => { s with windows := modAt s.windows i (fun w => BitVec.ofNat 256 (setBits w.toNat (64 * k + 63) (64 * k) v)) }

/-- A write to a register of BAR0 by its offset (R418): DEVCTL, the window table, the management and the event rings; the others are
read-only. -/
def State.hostReg (s : State) (off v : Nat) : State :=
  if off = 8 then (if v % 2 = 1 then { s with wlock := true } else s)
  else if 0x1000 ≤ off ∧ off < 0x1800 ∧ off % 8 = 0 then s.writeWindow ((off - 0x1000) / 32) (off % 32 / 8) v
  else
    match off with
    | 0x2000 => s.modDie 0 (fun d => d.writeMrbase false v)
    | 0x2008 => s.modDie 0 (fun d => d.writeMrbase true v)
    | 0x2010 => s.writeMrtail 0 v
    | 0x2040 => s.modDie 1 (fun d => d.writeMrbase false v)
    | 0x2048 => s.modDie 1 (fun d => d.writeMrbase true v)
    | 0x2050 => s.writeMrtail 1 v
    | 0x2100 => { s with ev := { s.ev with base := v } }
    | 0x2108 => { s with ev := { s.ev with logn := v % 64 } }
    | 0x2118 => { s with ev := { s.ev with rd := v } }
    | _ => s

/-- A doubleword of a host window (R420). -/
def State.windowReg (s : State) (i dword : Nat) : Nat :=
  match s.windows[i]? with | some w => bitsOf w (64 * dword + 63) (64 * dword) | none => 0

/-- The management ring registers of a die (R462): MRTAIL is write-only and reads 0. -/
def State.ringRegs (s : State) (die off : Nat) : Nat :=
  match s.dies[die]?, off with
  | some d, 0 => d.mrbase
  | some d, 8 => d.mrlogn
  | some d, 0x18 => d.mrhead
  | _, _ => 0

/-- What a read of a doubleword of BAR0 returns (R418, R419, R421, R424, R430); an offset that names no register reads 0. -/
def State.bar0Reg (s : State) (off : Nat) : Nat :=
  if off = 0 then s.boot.stat.toNat
  else if off = 8 then b2n s.wlock
  else if off = 0x10 then s.dieTime 0
  else if 0x1000 ≤ off ∧ off < 0x1800 then s.windowReg ((off - 0x1000) / 32) (off % 32 / 8)
  else if 0x2000 ≤ off ∧ off < 0x2080 then s.ringRegs ((off - 0x2000) / 0x40) (off % 0x40)
  else if off = 0x2100 then s.ev.base
  else if off = 0x2108 then s.ev.logn
  else if off = 0x2110 then s.ev.drops * 2 ^ 48 + s.ev.wr % 2 ^ 48
  else if off = 0x2118 then s.ev.rd
  else if 0x10000 ≤ off ∧ off < 0x10200 then
    (match s.boot.meas[(off - 0x10000) / 64]? with | some m => bitsOf m (8 * (off % 64) + 63) (8 * (off % 64)) | none => 0)
  else 0

/-- A token ring's page in BAR2: the ring of an offset from 0x0800_0000 on (R362, R418). -/
def barRing (off : Nat) : Nat := (off - 0x8000000) / 0x4000 * 2 ^ 15 + (off - 0x8000000) % 0x4000 / 16

/-- What a read of a doubleword of a BAR returns (R418, R422, R423): all ones while the BAR does not answer. -/
def State.barReg (s : State) (bar off : Nat) : Nat :=
  if bar = 0 then (if s.bar0 then s.bar0Reg off else ones 8)
  else if !(s.bar2) then ones 8
  else if off < 0x8000000 then s.queueReg (off / 0x1000) (off % 0x1000)
  else s.ringReg (barRing off) (decide (off % 16 = 8))

/-- The host reads `n` bytes, 4 or 8, of a BAR (R418, R419): `hostSaw` keeps what it got. -/
def State.barRead (s : State) (bar off n : Nat) : State :=
  { s with hostSaw := s.hostSaw ++ [(bar, off, n, s.barReg bar (alignDown off 8) / 2 ^ (8 * (off % 8)) % 2 ^ (8 * n))] }

/-- The host writes 8 bytes to a BAR (R418, R422, R423): dropped while the BAR does not answer. -/
def State.barWrite (s : State) (bar off v : Nat) : State :=
  if bar = 0 then (if s.bar0 then s.hostReg off v else s)
  else if !(s.bar2) then s
  else if off < 0x8000000 then (if off % 0x1000 = 0 then s.doorbell (off / 0x1000) v else s)
  else if off % 16 = 0 then s.writeRdidx (barRing off) v
  else if off % 16 = 8 ∧ v / 2 ^ 32 % 2 = 1 then s.clearOvf (barRing off)
  else s

/-- QCREATE (R344). -/
def execQcreate (die : Nat) (s : State) : Host.Outcome State Fault Refusal := .next (s.command die 1 (cmdQcreate die))
/-- QDESTROY (R355). -/
def execQdestroy (die : Nat) (s : State) : Host.Outcome State Fault Refusal := .next (s.command die 2 (cmdQdestroy die))
/-- QDESTROY_COMPLETE (R355). -/
def execQdestroyComplete (q : Nat) (s : State) : Host.Outcome State Fault Refusal := .next (s.destroyDone q)
/-- QRESET (R344). -/
def execQreset (die : Nat) (s : State) : Host.Outcome State Fault Refusal := .next (s.command die 3 (cmdQreset die))
/-- CTXSET (R344). -/
def execCtxset (die : Nat) (s : State) : Host.Outcome State Fault Refusal := .next (s.command die 4 cmdCtxset)
/-- INVAL (R344). -/
def execInval (die : Nat) (s : State) : Host.Outcome State Fault Refusal := .next (s.command die 5 cmdInval)
/-- INVAL_COMPLETE (R190). -/
def execInvalComplete (die : Nat) (s : State) : Host.Outcome State Fault Refusal := .next (s.invalDone die)
/-- PECONFIG (R292). -/
def execPeconfig (die : Nat) (s : State) : Host.Outcome State Fault Refusal := .next (s.command die 6 (cmdPeconfig die))
/-- SQCONFIG (R323). -/
def execSqconfig (die : Nat) (s : State) : Host.Outcome State Fault Refusal := .next (s.command die 7 (cmdSqconfig die))
/-- SGASSIGN (R344). -/
def execSgassign (die : Nat) (s : State) : Host.Outcome State Fault Refusal := .next (s.command die 8 (cmdSgassign die))
/-- RINGSET (R362). -/
def execRingset (die : Nat) (s : State) : Host.Outcome State Fault Refusal := .next (s.command die 9 (cmdRingset die))
/-- WINSET (R370). -/
def execWinset (die : Nat) (s : State) : Host.Outcome State Fault Refusal := .next (s.command die 10 cmdWinset)
/-- REDSET (R390). -/
def execRedset (die : Nat) (s : State) : Host.Outcome State Fault Refusal := .next (s.command die 11 cmdRedset)
/-- IRISSET (R373). -/
def execIrisset (die : Nat) (s : State) : Host.Outcome State Fault Refusal := .next (s.command die 12 (cmdIrisset die))
/-- SAVESET (R407). -/
def execSaveset (die : Nat) (s : State) : Host.Outcome State Fault Refusal := .next (s.command die 13 cmdSaveset)
/-- CTXPREEMPT (R407): the saves are CREW_SAVE steps. -/
def execCtxpreempt (die : Nat) (s : State) : Host.Outcome State Fault Refusal :=
  .next (s.command die 14 (fun s a => cmdIf (ctxOk (a 0)) (.goes s (.preempt (a 0) 0))))
/-- CTXRESUME (R407): the restores are CREW_RESTORE steps. -/
def execCtxresume (die : Nat) (s : State) : Host.Outcome State Fault Refusal :=
  .next (s.command die 15 (fun s a => cmdIf (ctxOk (a 0)) (.goes s (.resume (a 0)))))
/-- ATTEST (R426). -/
def execAttest (die : Nat) (s : State) : Host.Outcome State Fault Refusal := .next (s.command die 16 cmdAttest)
/-- PWRSET (R417). -/
def execPwrset (die : Nat) (s : State) : Host.Outcome State Fault Refusal := .next (s.command die 17 (cmdPwrset die))
/-- DEVSET (R426). -/
def execDevset (die : Nat) (s : State) : Host.Outcome State Fault Refusal := .next (s.command die 18 cmdDevset)
/-- MEXTEND (R424). -/
def execMextend (die : Nat) (s : State) : Host.Outcome State Fault Refusal := .next (s.command die 19 cmdMextend)
/-- REPAIRSET (R429). -/
def execRepairset (die : Nat) (s : State) : Host.Outcome State Fault Refusal := .next (s.command die 20 cmdRepairset)
/-- MGMT_UNKNOWN_COMMAND (R344). -/
def execMgmtUnknownCommand (die : Nat) (s : State) : Host.Outcome State Fault Refusal := .next (s.unknownCmd die)
/-- MGMT_RECORD_SKIP (R462). -/
def execMgmtRecordSkip (die : Nat) (s : State) : Host.Outcome State Fault Refusal := .next (s.skipCmd die)
/-- MRTAIL (R462). -/
def execMrtail (die : Nat) (w : W64) (s : State) : Host.Outcome State Fault Refusal := .next (if s.bar0 then s.writeMrtail die w.toNat else s)
/-- MRBASE (R462). -/
def execMrbase (die : Nat) (logn : Bool) (v : W64) (s : State) : Host.Outcome State Fault Refusal :=
  .next (if s.bar0 then s.modDie die (fun d => d.writeMrbase logn v.toNat) else s)
/-- HOST_WINDOW_WRITE (R420, R421). -/
def execHostWindowWrite (idx dword : Nat) (v : W64) (s : State) : Host.Outcome State Fault Refusal :=
  .next (if s.bar0 && decide (dword < 4) then s.writeWindow idx dword v.toNat else s)
/-- WLOCK (R421). -/
def execWlock (s : State) : Host.Outcome State Fault Refusal := .next (if s.bar0 then { s with wlock := true } else s)
/-- HOST_REGISTER_WRITE (R418). -/
def execHostRegisterWrite (off : Nat) (v : W64) (s : State) : Host.Outcome State Fault Refusal := .next (if s.bar0 then s.hostReg off v.toNat else s)

end Sys2Proof.Machine
end

