-- ==== Sys2Proof/Machine/Iris.lean ====
section
/-! DEFINITION. Iris: messages, requests, their checks, grants, landings, expiry and orphans (R370 to R380, R388). -/
namespace Sys2Proof.Machine

/-- The fields of a remote word (R371). -/
def rwDev (r : W64) : Nat := bitsOf r 63 52
def rwInb (r : W64) : Bool := r.getLsbD 51
def rwWin (r : W64) : Nat := bitsOf r 50 40
def rwOff (r : W64) : Nat := bitsOf r 39 0
def rwPool (r : W64) : Nat := bitsOf r 50 47
def rwPage (r : W64) : Nat := bitsOf r 46 32
def rwSeq (r : W64) : Nat := bitsOf r 31 0

/-- The Iris of a die. -/
def State.iris (s : State) (die : Nat) : Iris := match s.dies[die]? with | some d => d.iris | none => Iris.reset

/-- The fields of an Iris record, times in ns and sizes in bytes (R373). -/
def irPrefix (c : BitVec 512) (cls : Nat) : Nat := 1024 * bitsOf c (462 + 7 * cls) (456 + 7 * cls)
def irWeight (c : BitVec 512) (level : Nat) : Nat := bitsOf c (391 + 8 * level) (384 + 8 * level)
def irFrb (c : BitVec 512) (level : Nat) : Bool := c.getLsbD (392 + level)
def irOrphto (c : BitVec 512) : Nat := 1000 * bitsOf c 383 352
def irXferto (c : BitVec 512) : Nat := 1000 * bitsOf c 351 320
def irExpiry (c : BitVec 512) : Nat := 1000 * bitsOf c 319 304
def irTok (c : BitVec 512) : Nat := 2 ^ bitsOf c 303 296
def irGwin (c : BitVec 512) : Nat := 1024 * bitsOf c 287 256

/-- A message that is delivered in order (R366): not the data of PUTs, the reads and responses of GETs, or the results of reductions. -/
def WireBody.ordered : WireBody → Bool
  | .data _ _ _ => false
  | .rmaRead _ _ _ _ => false
  | .rmaResp _ _ _ _ => false
  | .redResult _ _ _ _ => false
  | .unsupported => false
  | .unsupportedResp => false
  | _ => true

/-- A message that has been delivered and waits at its own transfer: a token, or the answer of a full table. -/
def WireBody.waits : WireBody → Bool
  | .token _ _ _ _ => true
  | .full => true
  | _ => false

/-- A message comes before another that is delivered in order with it (R366); one that has been delivered and waits holds none back. -/
def Wire.before (x y : Wire) : Bool := decide (x.peer = y.peer) && x.body.ordered && y.body.ordered && !x.body.waits

/-- A message that waits to be handled, once those before it in its order have been; and the state without it. -/
def State.msg? (s : State) (m : Nat) : Option Wire :=
  (s.wire.find? (fun p => decide (p.1 = m))).bind (fun p =>
    if (s.wire.takeWhile (fun q => decide (q.1 ≠ m))).any (fun q => q.2.before p.2) then none else some p.2)
def State.takeMsg (s : State) (m : Nat) : State := { s with wire := s.wire.filter (fun p => decide (p.1 ≠ m)) }

/-- A message within the device: from an Iris to its own die's operations, or to the switch. -/
def State.loop (s : State) (mid : Nat) (body : WireBody) : State :=
  { s with wire := s.wire ++ [(s.nextMsg, ⟨s.devid.toNat, mid, body, s.actSeen⟩)], nextMsg := s.nextMsg + 1 }

/-- A peer's request by its key, with the die whose Iris holds it (R374). -/
def State.req? (s : State) (peer mid : Nat) : Option (Nat × Req) :=
  [0, 1].findSome? (fun die => ((s.iris die).reqs.find? (fun r => !r.own && decide (r.peer = peer ∧ r.mid = mid))).map (fun r => (die, r)))

/-- A die's own request of an operation (R379). -/
def State.ownReq? (s : State) (die mid : Nat) : Option Req := (s.iris die).reqs.find? (fun r => r.own && decide (r.mid = mid))

/-- A change to a request. -/
def State.modReq (s : State) (die seq : Nat) (f : Req → Req) : State :=
  s.modIris die (fun x => { x with reqs := x.reqs.map (fun r => if r.seq = seq then f r else r) })

/-- A token of a request. -/
def Token.of (t : Token) (r : Req) : Bool := decide (t.peer = r.peer ∧ t.mid = r.mid)

/-- A request ends, and its tokens with it. -/
def State.endReq (s : State) (die : Nat) (r : Req) : State :=
  s.modIris die (fun x => { x with reqs := x.reqs.filter (fun q => decide (q.seq ≠ r.seq)), toks := x.toks.filter (fun t => !(t.of r)) })

/-- Adds a range to rising, disjoint ranges, joining those it touches. -/
def addRange (p : Nat × Nat) : List (Nat × Nat) → List (Nat × Nat)
  | [] => [p]
  | q :: r =>
    if p.1 + p.2 < q.1 then p :: q :: r
    else if q.1 + q.2 < p.1 then q :: addRange p r
    else addRange (min p.1 q.1, max (p.1 + p.2) (q.1 + q.2) - min p.1 q.1) r

/-- The bytes of ranges. -/
def rangeSum (rs : List (Nat × Nat)) : Nat := (rs.map Prod.snd).sum

/-- A range lies within one of some ranges. -/
def inRanges (lo n : Nat) (rs : List (Nat × Nat)) : Bool := rs.any (fun r => decide (r.1 ≤ lo ∧ lo + n ≤ r.1 + r.2))

/-- Takes the range `[lo, lo + n)` out of ranges. -/
def dropRange (lo n : Nat) (rs : List (Nat × Nat)) : List (Nat × Nat) :=
  rs.flatMap (fun r =>
    [(r.1, min (r.1 + r.2) lo - r.1), (max r.1 (lo + n), r.1 + r.2 - max r.1 (lo + n))].filter (fun q => decide (q.2 ≠ 0)))

/-- Bytes of a PUT have landed: its sender's transport has them acknowledged (R366, R388). -/
def State.confirm (s : State) (peer mid lo n : Nat) : State :=
  { s with ops := s.ops.map (fun o => match o.eng with
    | some (.net x) => if x.mid = mid ∧ rwDev x.rword = peer then { o with eng := some (.net { x with unconf := dropRange lo n x.unconf }) } else o
    | _ => o) }

/-- A message comes from another device: an acknowledgement acts at once, the others wait to be handled. No write of this package is
behind it. -/
def State.heard (s : State) (w : Wire) : State :=
  match w.body with
  | .landed lo n => s.confirm w.peer w.mid lo n
  | _ => { s with wire := s.wire ++ [(s.nextMsg, { w with seen := [] })], nextMsg := s.nextMsg + 1 }

/-- An update of a request's destination barrier (R376, R377): for a crew that has not been placed it waits; a launch that has completed
has none. -/
def State.reqBar (s : State) (die : Nat) (r : Req) (u : BarUpd) : State :=
  match r.bar, u with
  | .none, _ => s
  | .crew ci off, u => s.barUpd ci off u
  | .coming l c rbar, u => if (s.job? l).isSome then { s with coming := s.coming ++ [(l, c, rbar, u, s.actSeen)] } else s
  | .slot k, .land n => s.inbUpd die k n none
  | .slot k, .settle n bit => s.inbUpd die k n (some bit)
  | .slot _, _ => s

/-- A request ends with its remaining bytes settled (R372, R377, R383). -/
def State.settleReq (s : State) (die : Nat) (r : Req) (bit : Nat) : State :=
  (s.endReq die r).reqBar die r (.settle (rangeSum r.unland) bit)

/-- An orphan is dropped, and its sender told (R377). -/
def State.orphan (s : State) (die : Nat) (r : Req) : State :=
  s.workWith r.seen (fun s => (s.settleReq die r 68).send r.peer r.mid (.orphaned (some (rangeSum r.unland))))

/-- A live LAUNCH packet's launch of a context with a TAG, the last dispatched (R372). -/
def State.taggedLaunch (s : State) (ctx tag : Nat) : Option Nat :=
  (s.jobs.filter (fun j => match j.kind with
    | .launch l => decide (j.ctxid = ctx ∧ j.tag = tag ∧ l.kids = []) && j.parent.isNone && j.iter.isNone
    | _ => false)).foldl (fun m j => match m with | some k => some (max k j.id) | none => some j.id) none

/-- The crews of a launch. -/
def State.launchSize (s : State) (l : Nat) : Nat :=
  match s.job? l with | some j => (match j.kind with | .launch x => x.ncrews | _ => 0) | none => 0

/-- The destination barrier of a window with ACCT = 1 (R372): updates for a crew that has ended are discarded (R233). -/
def State.winBar (s : State) (w : Win) : Option DstBar :=
  if w.acct = 0 then some .none
  else
    match s.taggedLaunch w.ctxid w.ltag with
    | none => none
    | some l =>
      if s.launchSize l ≤ w.rcrew then none
      else
        match s.crewOf l w.rcrew with
        | none => some (.coming l w.rcrew w.rbar)
        | some ci => (match s.crews[ci]? with
          | some k => some (if k.st = .ended ∨ k.z = 0 then .none else .crew ci (spAddr k.z (32 * w.rbar) 0 32))
          | none => none)

/-- The window a remote word names, where it admits the peer and permits bit `perm` of its permissions (R372). -/
def State.winFor (s : State) (peer perm : Nat) (rw : W64) : Option Win :=
  match s.wins.find? (fun p => decide (p.1 = rwWin rw)) with
  | some (_, w) => if w.perm.getLsbD perm && (w.anyPeer || decide (w.peer = peer)) then some w else none
  | none => none

/-- The inbound form of R372: the die, slot and record of the sequence. -/
def State.inbFor (s : State) (peer len : Nat) (rw : W64) : Option (Nat × Nat × Nat) :=
  match s.live? (rwSeq rw) with
  | none => none
  | some r =>
    let die := sqDie (rwSeq rw)
    let slot := sqSlot (rwSeq rw)
    let pool := s.pool die (rwPool rw)
    match s.btHeader (s.seqCtx (rwSeq rw) r) (rcBtab r) with
    | none => none
    | some (qmax, _) =>
      if rcState r = 1 ∧ (s.sched die).gone.get slot = 0 ∧ rcPeer r % 2 ^ 12 = peer ∧ rwPool rw ≤ qmax
          ∧ rwPage rw * poolSize pool + len ≤ ceilDiv (rcPlen r - 1) (poolP pool) * poolSize pool
      then some (die, slot, r) else none

/-- The checks of a request-to-send (R372): its die, the window it captures, and its destination barrier. -/
def State.rtsCheck (s : State) (peer len : Nat) (rw : W64) : Option (Nat × Option Win × DstBar) :=
  if rwInb rw then
    match s.inbFor peer len rw with
    | some (die, slot, _) => some (die, none, .slot slot)
    | none => none
  else
    match s.winFor peer 0 rw with
    | none => none
    | some w =>
      match s.winBar w with
      | some b => if rwOff rw + len ≤ w.len then some (w.die, some w, b) else none
      | none => none

/-- The destination crew of a request is saved (R389). -/
def State.barSaved (s : State) : DstBar → Bool
  | .crew ci _ => s.crewIs (fun k => decide (k.st = .saved)) ci
  | _ => false

/-- The barrier unit of the destination crew's die can hold no more updates for it (R233, R406). -/
def State.barFull (s : State) : DstBar → Bool
  | .crew ci _ => s.crewIs (fun k => decide (k.st = .saved) && s.holdFull k.die) ci
  | _ => false

/-- The runs of keys of an inbound landing: byte b of the message lies in page j0 + b / S (R372). -/
def State.inbRuns (s : State) (rw : W64) : Nat → Nat → Nat → Option (List (Nat × Nat))
  | 0, _, _ => some []
  | fuel + 1, b, n =>
    if n = 0 then some []
    else
      match s.live? (rwSeq rw) with
      | none => none
      | some r =>
        let die := sqDie (rwSeq rw)
        let size := poolSize (s.pool die (rwPool rw))
        let ctx := s.seqCtx (rwSeq rw) r
        let len := min n (size - b % size)
        match s.btHeader ctx (rcBtab r) with
        | none => none
        | some (_, npage) =>
          match s.vrd ctx (btAddr (rcBtab r) npage (rwPool rw) (rwPage rw + b / size)) 4 with
          | none => none
          | some f =>
            match State.inbRuns s rw fuel (b + len) (n - len) with
            | some q => some ((s.frBase die f + b % size, len) :: q)
            | none => none

/-- The runs of keys where `n` bytes of a request from offset `off` land (R372): none where a landing fails. -/
def State.landRuns (s : State) (r : Req) (off n : Nat) : Option (List (Nat × Nat)) :=
  match r.win with
  | none => s.inbRuns r.rword (n + 1) off n
  | some w =>
    match s.vkeys w.ctxid kWrite ((w.base + rwOff r.rword + off) % 2 ^ 64) n with
    | .ok ks => some ks
    | .error _ => none

/-- The aligned word that holds byte `i` of a message of `len` bytes at address `a`: where its bytes of the message begin, and end (R211). -/
def wordLo (a i : Nat) : Nat := i - (a + i) % 4
def wordHi (a len i : Nat) : Nat := min len (i + 4 - (a + i) % 4)

/-- The bytes of the words that the ends of a packet of `n` bytes from `lo` cut. -/
def cutOffs (a len lo n : Nat) : List Nat :=
  ([lo, lo + n].filter (fun c => decide (0 < c ∧ c < len ∧ (a + c) % 4 ≠ 0))).flatMap (fun c =>
    (List.range (wordHi a len c - wordLo a c)).map (fun i => wordLo a c + i))

/-- Bytes with their offsets from `lo`. -/
def numbered (lo : Nat) (bs : List MByte) : List (Nat × MByte) := mapFrom (fun i b => (i, b)) lo bs

/-- Bytes by offset, and more of them: what has been read stays. -/
def addEdges (es xs : List (Nat × MByte)) : List (Nat × MByte) := es ++ xs.filter (fun x => !(es.any (fun e => decide (e.1 = x.1))))

/-- Bytes from offset `lo`, but for those that have been read already. -/
def withEdges (es : List (Nat × MByte)) (lo : Nat) (bs : List MByte) : List MByte :=
  mapFrom (fun i b => match es.find? (fun e => decide (e.1 = i)) with | some e => e.2 | none => b) lo bs

/-- What of a packet from offset `lo` of a message to address `a` lands: every aligned word whole, or what the message has of it (R211,
R387). A word that the packet holds in part waits for its other bytes, which are among the ranges `un` that have not landed and not among
those `held`. The offset and bytes that land, and what is held then. -/
def landPart (a len : Nat) (un : List (Nat × Nat)) (held : List (Nat × MByte)) (lo : Nat) (bs : List MByte) : Nat × List MByte × List (Nat × MByte) :=
  let hi := lo + bs.length
  let side := fun (x y : Nat) => (List.range (y - x)).map (fun i => x + i)
  let head := side (wordLo a lo) lo
  let tail := side hi (wordHi a len (hi - 1))
  let heldIn := fun (is : List Nat) => held.filter (fun h => is.contains h.1)
  let whole := fun (is : List Nat) => decide ((heldIn is).length = is.length)
  let gone := fun (is : List Nat) => is.all (fun i => !(inRanges i 1 un))
  let p := if gone head then lo else if whole head then wordLo a lo else min hi (wordHi a len lo)
  let q := max p (if gone tail then hi else if whole tail then wordHi a len (hi - 1) else wordLo a (hi - 1))
  let out := fun (x : Nat × MByte) => decide (x.1 < p ∨ q ≤ x.1)
  let all := (heldIn head) ++ numbered lo bs ++ (heldIn tail)
  (p, (all.filter (fun x => !(out x))).map Prod.snd, (held ++ numbered lo bs).filter out)

/-- The held bytes whose words lack no byte that is still to come (R211). -/
def heldDone (a len : Nat) (un : List (Nat × Nat)) (held : List (Nat × MByte)) : List (Nat × MByte) :=
  held.filter (fun h => (List.range (wordHi a len h.1 - wordLo a h.1)).all (fun i =>
    held.any (fun x => decide (x.1 = wordLo a h.1 + i)) || !(inRanges (wordLo a h.1 + i) 1 un)))

/-- The address that a request's bytes go to; a frame's pages begin at aligned words. -/
def Req.addr (r : Req) : Nat := match r.win with | some w => w.base + rwOff r.rword | none => 0

/-- The sender of a request has some bytes acknowledged, where it is this device. -/
def State.confirmTo (s : State) (r : Req) (lo n : Nat) : State := if r.peer = s.devid.toNat then s.confirm r.peer r.mid lo n else s

/-- A packet of a request lands at its home ports, in whole words (log entry 117), and is accounted, or the request ends with FAULT;
FINISHED goes out with the last (R372, R376). -/
def State.landReq (s : State) (die : Nat) (r : Req) (off : Nat) (bs : List MByte) : State :=
  let w := landPart r.addr r.len r.unland r.held off bs
  let n := w.2.1.length
  match s.landRuns r w.1 n with
  | none => (s.settleReq die r 66).send r.peer r.mid (.refused 4 (rangeSum r.unland))
  | some ks =>
    let r2 := { r with unland := dropRange w.1 n r.unland, unused := 0, spoke := s.dtime, held := w.2.2 }
    let s1 := ((s.wrRunsMarked ks w.2.1).modReq die r.seq (fun _ => r2)).confirmTo r w.1 n
    if r2.unland = [] then ((s1.endReq die r2).reqBar die r2 (.land n)).send r.peer r.mid .finished
    else if n = 0 then s1
    else s1.reqBar die r2 (.land n)

/-- Splits bytes from an offset into packets of at most 4,096 (R366). -/
def chunks : Nat → Nat → List MByte → List (Nat × List MByte)
  | 0, _, _ => []
  | fuel + 1, off, bs => if bs = [] then [] else (off, bs.take 4096) :: chunks fuel (off + 4096) (bs.drop 4096)

/-- The packets of bytes from an offset. -/
def packets (off : Nat) (bs : List MByte) : List (Nat × List MByte) := chunks (bs.length / 4096 + 1) off bs

/-- A request by its number at a die's Iris. -/
def State.reqAt (s : State) (die seq : Nat) : Option Req := (s.iris die).reqs.find? (fun r => decide (r.seq = seq))

/-- Bytes of a request land packet by packet (R366, R376), after what happens before their message and the landings before (R217, R218). -/
def State.landPackets (s : State) (die seq : Nat) (seen : List Nat) (off : Nat) (bs : List MByte) : State :=
  match s.reqAt die seq with
  | none => s
  | some r =>
    s.asWork (addAll r.seen seen)
      (fun s => (packets off bs).foldl (fun s c => match s.reqAt die seq with | some r => s.landReq die r c.1 c.2 | none => s) s)
      (fun past t => t.modReq die seq (fun r => { r with seen := past }))

/-- A sender has spoken (R377). -/
def State.spoken (s : State) (die seq : Nat) : State := s.modReq die seq (fun r => { r with spoke := s.dtime })

/-- RTS_RECEIVE (R372, R374): a repeat of an accepted RTS is a message of its sender and nothing more. -/
def State.rtsReceive (s : State) (m : Nat) : State :=
  match s.msg? m with
  | some ⟨peer, mid, .rts len prio rw pre, seen⟩ =>
    let s1 := s.takeMsg m
    (match s.req? peer mid with
    | some (die, r) => s1.spoken die r.seq
    | none =>
      match s.rtsCheck peer len rw with
      | none => s1.send peer mid (.refused 3 len)
      | some (die, w, b) =>
        let x := s.iris die
        if 8192 ≤ x.reqs.length ∨ s.barFull b then s1.send peer mid .full
        else
          let p := (pre.take len).length
          let r : Req := { seq := x.next, peer := peer, mid := mid, own := false, prio := prio, rword := rw, win := w, bar := b, len := len
                           ungr := if p < len then [(p, len - p)] else [], unland := [(0, len)]
                           st := if s.barSaved b then .frozen else .queued, unused := 0, spoke := s.dtime, frozenAt := s.dtime, silent := 0, held := [], seen := seen }
          let s2 := s1.modIris die (fun x => { x with reqs := x.reqs ++ [r], next := x.next + 1 })
          s2.landPackets die r.seq [] 0 (pre.take len))
  | _ => s

/-- A token that has not ended, where the range lies within its bytes that have not landed (R376). -/
def State.tokenFor (s : State) (die tok : Nat) (r : Req) (lo n : Nat) : Option Token :=
  ((s.iris die).toks.find? (fun t => decide (t.tok = tok) && t.of r)).bind (fun t =>
    if (match t.expiry with | some x => decide (s.dtime < x) | none => true) && inRanges lo n t.left then some t else none)

/-- Bytes of a token have landed: it ends with the last of them (R376). -/
def State.tokenLand (s : State) (die : Nat) (t : Token) (lo n : Nat) : State :=
  let left := dropRange lo n t.left
  s.modIris die (fun x => { x with toks :=
    if left = [] then x.toks.filter (fun u => decide (u.tok ≠ t.tok)) else x.toks.map (fun u => if u.tok = t.tok then { u with left := left } else u) })

/-- FABRIC_DATA_LAND (R376, R377): bytes without a token that has not ended are discarded; they are a message of their sender. -/
def State.dataLand (s : State) (m : Nat) : State :=
  match s.msg? m with
  | some ⟨peer, mid, .data off bs (some tok), seen⟩ =>
    let s1 := s.takeMsg m
    (match s.req? peer mid with
    | none => s1
    | some (die, r) =>
      match s.tokenFor die tok r off bs.length with
      | none => s1.spoken die r.seq
      | some t => (s1.tokenLand die t off bs.length).landPackets die r.seq seen off bs)
  | some ⟨_, _, .data _ _ none, _⟩ => s.takeMsg m
  | _ => s

/-- The ports that a die's tokens may name: those that are up, of its nine; all nine where none is (R15, R375). -/
def State.irisPorts (s : State) (die : Nat) : List Nat :=
  let ps := (List.range 9).map (fun i => 9 * die + i)
  let up := ps.filter (fun p => s.boot.ports.getLsbD p)
  if up = [] then ps else up

/-- Token bytes outstanding at a port (R375). -/
def Iris.outstanding (x : Iris) (port : Nat) : Nat := ((x.toks.filter (fun t => decide (t.port = port))).map Token.n).sum

/-- The port with the fewest, lowest index first. -/
def Iris.bestPort (x : Iris) (ps : List Nat) : Nat :=
  match ps with
  | [] => 0
  | p :: r => r.foldl (fun b q => if x.outstanding q < x.outstanding b then q else b) p

/-- A request that can receive a token (R374). -/
def Req.queued (r : Req) : Bool := decide (r.st = .queued ∧ r.ungr ≠ [])

/-- The request of a level that is served next (R375). -/
def Iris.nextReq (x : Iris) (level : Nat) : Option Req :=
  let rs := x.reqs.filter (fun r => r.queued && decide (r.prio = level))
  if 2 ≤ level ∧ irFrb x.cfg level then
    rs.foldl (fun (b : Option Req) r => match b with | none => some r | some q => if rangeSum r.ungr < rangeSum q.ungr then some r else b) none
  else
    match x.served.find? (fun p => decide (p.1 = level)) with
    | none => rs.head?
    | some (_, last) => match rs.find? (fun r => decide (last < r.seq)) with | some r => some r | none => rs.head?

/-- A standing reservation is granted whole (R379): a request of a REDNET. -/
def State.standing (s : State) (r : Req) : Bool :=
  r.own && s.ops.any (fun o => match o.eng with | some (.net n) => decide (n.mid = r.mid ∧ n.fn = 3) | _ => false)

/-- The range of the token that a request receives next (R375). -/
def State.tokenRange (s : State) (x : Iris) (r : Req) : Nat × Nat :=
  match r.ungr with
  | [] => (0, 0)
  | q :: _ => (q.1, if s.standing r then q.2 else min (irTok x.cfg) q.2)

/-- Deficit round robin over the levels 2 to 7 from the one whose turn it is (R375): the level, and the deficits. -/
def drrPick (quantum : Nat → Nat) (need : Nat → Option Nat) : Nat → Nat → List Nat → Option (Nat × List Nat)
  | 0, _, _ => none
  | k + 1, t, ds =>
    let u := if t = 7 then 2 else t + 1
    match need u with
    | none => drrPick quantum need k u (modAt ds (u - 2) (fun _ => 0))
    | some n =>
      let d := ds.getD (u - 2) 0 + quantum u
      if n ≤ d then some (u, modAt ds (u - 2) (fun _ => d - n)) else drrPick quantum need k u (modAt ds (u - 2) (fun _ => d))

/-- The level that grants next, with the deficits afterwards (R375). -/
def State.grantLevel (s : State) (x : Iris) : Option (Nat × List Nat) :=
  let need := fun l => (x.nextReq l).map (fun r => (s.tokenRange x r).2)
  if (need 0).isSome then some (0, x.deficit)
  else if (need 1).isSome then some (1, x.deficit)
  else
    match need x.turn with
    | some n =>
      if n ≤ x.deficit.getD (x.turn - 2) 0 then some (x.turn, modAt x.deficit (x.turn - 2) (fun d => d - n))
      else drrPick (fun l => irWeight x.cfg l * irTok x.cfg) need 24 x.turn x.deficit
    | none => drrPick (fun l => irWeight x.cfg l * irTok x.cfg) need 24 x.turn x.deficit

/-- IRIS_GRANT (R375, R379): one token, where the window of its port has room. -/
def State.grant (s : State) (die : Nat) : State :=
  let x := s.iris die
  match s.grantLevel x with
  | none => s
  | some (level, ds) =>
    match x.nextReq level with
    | none => s
    | some r =>
      let q := s.tokenRange x r
      let p := x.bestPort (s.irisPorts die)
      if irGwin x.cfg < x.outstanding p + q.2 then s
      else
        let t : Token := { tok := s.nextMsg, peer := r.peer, mid := r.mid, lo := q.1, n := q.2, port := p
                           expiry := if s.standing r then none else some (s.dtime + irExpiry x.cfg), left := [q] }
        let s1 := ({ s with nextMsg := s.nextMsg + 1 }.modReq die r.seq (fun r => { r with ungr := dropRange q.1 q.2 r.ungr })).modIris die (fun x =>
          { x with toks := x.toks ++ [t], deficit := ds, turn := if 2 ≤ level then level else x.turn
                   served := (level, r.seq) :: x.served.filter (fun p => decide (p.1 ≠ level)) })
        if r.own then s1.loop r.mid (.token t.tok t.lo t.n p) else s1.send r.peer r.mid (.token t.tok t.lo t.n p)

/-- TOKEN_EXPIRY (R376, R377): bytes that have not landed become ungranted again; the third unused token in a row orphans a peer's
request. -/
def State.expireToken (s : State) (die tok : Nat) : State :=
  match (s.iris die).toks.find? (fun t => decide (t.tok = tok)) with
  | none => s
  | some t =>
    if !(match t.expiry with | some x => decide (x ≤ s.dtime) | none => false) then s
    else
      let s1 := s.modIris die (fun x => { x with toks := x.toks.filter (fun u => decide (u.tok ≠ tok)) })
      match (s.iris die).reqs.find? (fun r => t.of r) with
      | none => s1
      | some r =>
        let un := if t.left = [(t.lo, t.n)] then r.unused + 1 else r.unused
        let r2 := { r with ungr := t.left.foldl (fun rs p => addRange p rs) r.ungr, unused := if r.own then 0 else un }
        let s2 := s1.modReq die r.seq (fun _ => r2)
        if r2.unused = 3 then s2.orphan die r2 else s2

/-- FROZEN of R389: no token, and the orphan count stands still. -/
def Req.isFrozen (r : Req) : Bool := decide (r.st = .frozen ∨ r.st = .frozenSusp)

/-- ORPHAN_TIMEOUT (R377, R389). -/
def State.orphanTimeout (s : State) (die seq : Nat) : State :=
  match s.reqAt die seq with
  | some r => if !r.own && !r.isFrozen && decide (r.spoke + irOrphto (s.iris die).cfg ≤ s.dtime) then s.orphan die r else s
  | none => s

/-- FROZEN, every 100 µs (R378). -/
def State.frozenTick (s : State) (die seq : Nat) : State :=
  match s.reqAt die seq with
  | some r =>
    if !r.own && r.isFrozen && decide (r.frozenAt + 100000 ≤ s.dtime) then
      (s.modReq die seq (fun r => { r with frozenAt := s.dtime })).send r.peer r.mid .frozen
    else s
  | none => s

/-- RELINQUISH (R388): the tokens that the sender has not answered return, counted by nothing; the request is SUSPENDED. -/
def State.relinquish (s : State) (m : Nat) : State :=
  match s.msg? m with
  | some ⟨peer, mid, .relinquish sent, _⟩ =>
    let s1 := s.takeMsg m
    (match s.req? peer mid with
    | none => s1
    | some (die, r) =>
      let back := (s.iris die).toks.filter (fun t => t.of r && !(sent.contains t.tok))
      let s2 := s1.modIris die (fun x => { x with toks := x.toks.filter (fun t => !(t.of r) || sent.contains t.tok) })
      s2.modReq die r.seq (fun r =>
        { r with ungr := (back.flatMap Token.left).foldl (fun rs p => addRange p rs) r.ungr, spoke := s.dtime
                 st := if r.isFrozen then .frozenSusp else .suspended }))
  | _ => s

/-- RESUME (R388): the request is QUEUED again, or the sender learns that it has gone. -/
def State.resume (s : State) (m : Nat) : State :=
  match s.msg? m with
  | some ⟨peer, mid, .resume, _⟩ =>
    let s1 := s.takeMsg m
    (match s.req? peer mid with
    | none => s1.send peer mid (.orphaned none)
    | some (die, r) => s1.modReq die r.seq (fun r => { r with unused := 0, spoke := s.dtime, st := if r.isFrozen then .frozen else .queued }))
  | _ => s

/-- ABORT (R383): the remainder settles with FAULT. -/
def State.abort (s : State) (m : Nat) : State :=
  match s.msg? m with
  | some ⟨peer, mid, .abort, _⟩ =>
    let s1 := s.takeMsg m
    (match s.req? peer mid with
    | none => s1
    | some (die, r) => s1.settleReq die r 66)
  | _ => s

/-- The responses to a read of `[lo, lo + n)`: in packets, each with all bytes of the words that it cuts, from the bytes `bs` of whole
words from offset `p` (R211). -/
def rmaPackets (a len p : Nat) (bs : List MByte) (lo n tok : Nat) : List WireBody :=
  let xs := numbered p bs
  (packets lo ((bs.drop (lo - p)).take n)).map (fun c =>
    .rmaResp c.1 tok c.2 (xs.filter (fun x => (cutOffs a len c.1 c.2.length).contains x.1)))

/-- RMA_READ_SERVE (R372, R379, R384): the range of a window, in packets, or the refusal; the words that it cuts are read whole (R211). -/
def State.readServe (s : State) (m : Nat) : State :=
  match s.msg? m with
  | some ⟨peer, mid, .rmaRead rw lo n tok, seen⟩ =>
    let s1 := s.takeMsg m
    (match s.winFor peer 1 rw with
    | none => s1.send peer mid (.refused 3 n)
    | some w =>
      if rwInb rw ∨ w.len < rwOff rw + lo + n then s1.send peer mid (.refused 3 n)
      else
        let a := w.base + rwOff rw
        let len := w.len - rwOff rw
        let p := wordLo a lo
        match s.vkeys w.ctxid kRead ((a + p) % 2 ^ 64) (wordHi a len (lo + n - 1) - p) with
        | .error _ => s1.send peer mid (.refused 3 n)
        | .ok ks =>
          s1.workWith seen (fun s1 => (rmaPackets a len p (ks.flatMap (fun q => s1.memBytes q.1 q.2)) lo n tok).foldl (fun s c => s.send peer mid c) s1))
  | _ => s

/-- UNSUPPORTED_OPERATION (R367). -/
def State.unsupported (s : State) (m : Nat) : State :=
  match s.msg? m with
  | some ⟨peer, mid, .unsupported, _⟩ => (s.takeMsg m).send peer mid .unsupportedResp
  | _ => s

/-- RTS_RECEIVE (R374). -/
def execRtsReceive (m : Nat) (s : State) : Host.Outcome State Fault Refusal := .next (s.rtsReceive m)
/-- IRIS_GRANT (R375). -/
def execIrisGrant (die : Nat) (s : State) : Host.Outcome State Fault Refusal := .next (s.grant die)
/-- FABRIC_DATA_LAND (R376). -/
def execFabricDataLand (m : Nat) (s : State) : Host.Outcome State Fault Refusal := .next (s.dataLand m)
/-- TOKEN_EXPIRY (R376). -/
def execTokenExpiry (die tok : Nat) (s : State) : Host.Outcome State Fault Refusal := .next (s.expireToken die tok)
/-- ORPHAN_TIMEOUT (R377). -/
def execOrphanTimeout (die req : Nat) (s : State) : Host.Outcome State Fault Refusal := .next (s.orphanTimeout die req)
/-- FROZEN (R378). -/
def execFrozen (die req : Nat) (s : State) : Host.Outcome State Fault Refusal := .next (s.frozenTick die req)
/-- RELINQUISH (R388). -/
def execRelinquish (m : Nat) (s : State) : Host.Outcome State Fault Refusal := .next (s.relinquish m)
/-- RESUME (R388). -/
def execResume (m : Nat) (s : State) : Host.Outcome State Fault Refusal := .next (s.resume m)
/-- ABORT (R383). -/
def execAbort (m : Nat) (s : State) : Host.Outcome State Fault Refusal := .next (s.abort m)
/-- RMA_READ_SERVE (R379). -/
def execRmaReadServe (m : Nat) (s : State) : Host.Outcome State Fault Refusal := .next (s.readServe m)
/-- UNSUPPORTED_OPERATION (R367). -/
def execUnsupportedOperation (m : Nat) (s : State) : Host.Outcome State Fault Refusal := .next (s.unsupported m)
/-- PORT_DOWN (R368): tokens and messages are unchanged; the port takes no new ones. -/
def execPortDown (port : Nat) (s : State) : Host.Outcome State Fault Refusal :=
  .next { s with boot := { s.boot with ports := s.boot.ports &&& ~~~(1#18 <<< port) } }
/-- PORT_UP (R426). -/
def execPortUp (port : Nat) (s : State) : Host.Outcome State Fault Refusal :=
  .next { s with boot := { s.boot with ports := s.boot.ports ||| (1#18 <<< port) } }

end Sys2Proof.Machine
end

