-- ==== Sys2Proof/Machine/Fabric.lean ====
section
/-! DEFINITION. PUT, GET and RATOM, and the messages that senders receive (R378, R379, R381 to R388). -/
namespace Sys2Proof.Machine

/-- Fields of the control word of PUT and GET (R382). -/
def ncPrio (c : W64) : Nat := bitsOf c 47 45
def ncClass (c : W64) : Nat := bitsOf c 44 42
def ncLen (c : W64) : Nat := bitsOf c 22 0

/-- NETERR takes the first failure (R386); a field that the spec does not state for it is free. -/
def State.netErr (s : State) (ci reason fn : Nat) (dev addr : Option Nat) : State :=
  match s.crews[ci]? with
  | none => s
  | some k =>
    if bitsOf k.neterr 63 60 ≠ 0 then s
    else
      let d := dev.getD (Config.free s.free).toNat % 2 ^ 12
      let a := addr.getD (Config.free (s.free + 1)).toNat % 2 ^ 44
      { s.modCrew ci (fun k => { k with neterr := BitVec.ofNat 64 (reason * 2 ^ 60 + fn * 2 ^ 56 + d * 2 ^ 44 + a) }) with
        free := s.free + 2 }

/-- The remote offset that NETERR records of a transfer: none is stated for the inbound form. -/
def rwErrOff (rw : W64) : Option Nat := if rwInb rw then none else some (rwOff rw)

/-- The reason of NETERR for a local access that failed (R386). -/
def netLocal (f : EFault) : Nat := if f.x.reason = 3 ∨ f.x.reason = 4 ∨ f.x.reason = 5 then 2 else 1

/-- The transfer with a message ID, and its operation. -/
def State.net? (s : State) (mid : Nat) : Option (Op × NetOp) :=
  s.ops.findSome? (fun o => match o.eng with | some (.net n) => if n.mid = mid then some (o, n) else none | _ => none)

/-- The transfer of an operation. -/
def State.netOf (s : State) (id : Nat) : Option (Op × NetOp) :=
  match s.op? id with
  | some o => (match o.eng with | some (.net n) => some (o, n) | _ => none)
  | none => none

/-- A change to an operation's transfer. -/
def State.setNet (s : State) (id : Nat) (n : NetOp) : State := s.modOp id (fun o => { o with eng := some (.net n) })

/-- BEN of a transfer's control word (R382, R391). -/
def NetOp.ben (n : NetOp) : Bool := if n.fn = 3 then n.ctl.getLsbD 20 else n.ctl.getLsbD 25

/-- An update of a transfer's local barrier. -/
def State.netBar (s : State) (o : Op) (n : NetOp) (u : BarUpd) : State :=
  match s.crews[o.crew]? with
  | some k => if n.ben && decide (k.z ≠ 0) then s.barUpd o.crew (cpBarOff k n.ctl) u else s
  | none => s

/-- The crew of an operation is not saved. -/
def State.opRuns (s : State) (o : Op) : Bool := s.crewIs (fun k => decide (k.st ≠ .saved)) o.crew

/-- The crew runs and what its issuers did before the operation is performed (R217, R387). -/
def State.netReady (s : State) (o : Op) : Bool := s.opRuns o && s.forked o

/-- The step is one of an operation thread to which a message has come: what happens before the message joins it (R387). -/
def State.netHeard (s : State) (o : Op) (seen : List Nat) (f : State → State) : State := s.asOp o (fun s => f (s.actJoins seen))

/-- Reads `n` local bytes for the operation thread of the step (R171, R220, R381, R382). -/
def State.netRead (s : State) (o : Op) (a n : Nat) : CpRead :=
  match s.crews[o.crew]? with
  | none => .wait
  | some k =>
    match s.piecesOf k k.ctxid kRead a n with
    | .error f => .fault f
    | .ok ps => if piecesFull k ps then .bytes (s.opBytes o.crew k ps) else .wait

/-- The state once they have been read: the landings on their lines join the operation (R218). -/
def State.netJoined (s : State) (o : Op) (a n : Nat) : State :=
  match s.crews[o.crew]? with
  | none => s
  | some k => match s.piecesOf k k.ctxid kRead a n with | .ok ps => s.opJoined o.crew ps | .error _ => s

/-- The source words that hold `n` bytes of a PUT from `lo`: their first offset, and their bytes (R211). -/
def NetOp.wordsLo (n : NetOp) (lo : Nat) : Nat := wordLo n.addr lo
def NetOp.wordsLen (n : NetOp) (lo len : Nat) : Nat := wordHi n.addr n.len (lo + len - 1) - wordLo n.addr lo

/-- A PUT reads the source words of `len` bytes from `lo`: whole, and each word that its packets cut once (R211). -/
def State.putRead (s : State) (o : Op) (n : NetOp) (lo len : Nat) : CpRead :=
  match s.netRead o (n.addr + n.wordsLo lo) (n.wordsLen lo len) with
  | .bytes bs => .bytes (withEdges n.edge (n.wordsLo lo) bs)
  | r => r

/-- The transfer with the words kept that the packets of a range cut, from the bytes `bs` of whole words from offset `p` (R211). -/
def NetOp.keep (n : NetOp) (lo len p : Nat) (bs : List MByte) : NetOp :=
  let cuts := (packets lo (List.replicate len (0, false))).flatMap (fun c => cutOffs n.addr n.len c.1 c.2.length)
  { n with edge := addEdges n.edge ((numbered p bs).filter (fun x => cuts.contains x.1)) }

/-- A PUT ends (R383): its acknowledgement, with what was not delivered where it failed. -/
def State.putEnd (s : State) (o : Op) (n : NetOp) (fail : Option (Nat × Nat)) : State :=
  match fail with
  | none => (s.netBar o n (.arrive 1 false)).endEng o none
  | some (short, bit) => (s.netBar o n (.ack short bit)).endEng o (some (if bit = 69 then 0 else if bit = 66 then 1 else 2))

/-- The bytes of a PUT that are undelivered where its receiver has not said: those not confirmed landed (R383, R388). -/
def NetOp.putShort (n : NetOp) : Nat := rangeSum n.unconf

/-- The local source of a PUT faults (R383); ABORT goes out where the request did. -/
def State.putFault (s : State) (o : Op) (n : NetOp) (f : EFault) : State :=
  let s1 := s.netErr o.crew (netLocal f) 0 (some (rwDev n.rword)) (some f.va)
  let s2 := if n.rts then s1.send (rwDev n.rword) n.mid .abort else s1
  s2.putEnd o n (some (n.putShort, 66))

/-- The request-to-send of a PUT leaves with its prefix (R374). -/
def State.sendRts (s : State) (o : Op) (n : NetOp) : State :=
  let p := min n.len (irPrefix (s.iris n.die).cfg (ncClass n.ctl))
  match (if p = 0 then CpRead.bytes [] else s.putRead o n 0 p) with
  | .wait => s
  | .fault f => s.putFault o n f
  | .bytes bs =>
    let n2 := { n.keep 0 p 0 bs with rts := true, sentAt := s.dtime, last := s.dtime, left := if p < n.len then [(p, n.len - p)] else [] }
    (((if p = 0 then s else s.netJoined o n.addr (n.wordsLen 0 p)).setNet o.id n2)).send
      (rwDev n.rword) n.mid (.rts n.len (ncPrio n.ctl) n.rword (bs.take p))

/-- A request of a GET or a REDNET at its own Iris (R379). -/
def State.registerOwn (s : State) (o : Op) (n : NetOp) : State :=
  let x := s.iris n.die
  if 8192 ≤ x.reqs.length then s
  else
    let b := match s.crews[o.crew]? with
      | some k => if n.ben && decide (k.z ≠ 0) then DstBar.crew o.crew (cpBarOff k n.ctl) else .none
      | none => .none
    let r : Req := { seq := x.next, peer := s.devid.toNat, mid := n.mid, own := true, prio := if n.fn = 3 then bitsOf n.ctl 15 13 else ncPrio n.ctl
                     rword := n.rword, win := none, bar := b, len := n.len, ungr := [(0, n.len)], unland := [(0, n.len)], st := .queued
                     unused := 0, spoke := s.dtime, frozenAt := s.dtime, silent := 0, held := [], seen := [] }
    (s.modIris n.die (fun x => { x with reqs := x.reqs ++ [r], next := x.next + 1 })).setNet o.id { n with rts := true, sentAt := s.dtime, last := s.dtime }

/-- The message that answers a transfer's RTS with a full table. -/
def State.fullMsg? (s : State) (mid : Nat) : Option Nat :=
  (s.wire.find? (fun p => decide (p.2.mid = mid ∧ p.2.body = .full))).map Prod.fst

/-- RTS_RETRY (R374, R379): a request leaves, first as soon as it can, and again every 2 µs while it met a full table. -/
def State.rtsRetry (s : State) (id : Nat) : State :=
  match s.netOf id with
  | none => s
  | some (o, n) =>
    if !(s.netReady o) then s
    else if !n.rts then (if n.fn = 0 then s.asOp o (fun s => s.sendRts o n) else s.registerOwn o n)
    else
      match s.fullMsg? n.mid with
      | some m => if n.sentAt + 2000 ≤ s.dtime then (s.takeMsg m).asOp o (fun s => s.sendRts o n) else s
      | none => s

/-- A self-granted request ends (R379). -/
def State.dropOwn (s : State) (n : NetOp) : State := match s.ownReq? n.die n.mid with | some r => s.endReq n.die r | none => s

/-- The bytes of a response that is landing which have landed and are not accounted. -/
def NetOp.unaccounted (n : NetOp) : Nat := match n.landing with | some (_, _, _, k) => k | none => 0

/-- A GET ends with its remaining bytes settled and its lines released (R384). -/
def State.getFail (s : State) (o : Op) (n : NetOp) (bit : Nat) : State :=
  (((s.dropOwn n).landLines o.crew n.lines).netBar o n (.settle (rangeSum n.left + n.unaccounted) bit)).endEng o (some (if bit = 69 then 0 else 1))

/-- The bytes of an element code (R391). -/
def codesOf (w : Nat) (v : Nat) (count : Nat) : List Nat := (List.range count).map (fun i => v / 2 ^ (w * i) % 2 ^ w)

/-- Elements, widths and bytes of a REDNET (R391). -/
def rnCount (c : W64) : Nat := bitsOf c 12 0 + 1
def rnFmt (c : W64) : Nat := bitsOf c 27 24
def rnRf (c : W64) : Bool := c.getLsbD 22
def rnOp (c : W64) : Nat := bitsOf c 31 28
def rnOut (c : W64) : Nat := if rnRf c then 32 else fmtWidth (rnFmt c)
def rnPayload (c : W64) : Nat := rnCount c * rnOut c / 8

/-- The contribution of a REDNET (R391). -/
def contribOf (n : NetOp) (bs : List MByte) : Contrib :=
  let g := n.grp.getD ⟨0, 0, 0, 1, 0, 0⟩
  { fgrp := g.fgrp, cseq := bitsOf n.rword 31 0, op := rnOp n.ctl, ranks := 1#64 <<< g.rank, nmemb := g.nmemb, timeout := g.timeout, fmt := rnFmt n.ctl
    nan := n.ctl.getLsbD 23, rf := rnRf n.ctl, part := false, nanseen := false
    elems := codesOf (fmtWidth (rnFmt n.ctl)) (leNat (bs.map Prod.fst)) (rnCount n.ctl) }

/-- A REDNET has its reservation (R391): it reads its source and contributes, or settles the whole result. -/
def State.redSend (s : State) (m : Nat) (o : Op) (n : NetOp) : State :=
  match s.netRead o n.addr (rnCount n.ctl * fmtWidth (rnFmt n.ctl) / 8) with
  | .wait => s
  | .fault f => (((((s.takeMsg m).netErr o.crew (netLocal f) 3 none (some f.va)).dropOwn n).netBar o n (.settle n.len 66)).endEng o (some 1))
  | .bytes bs =>
    (((s.takeMsg m).netJoined o n.addr (rnCount n.ctl * fmtWidth (rnFmt n.ctl) / 8)).setNet o.id { n with asked := true, last := s.dtime }).loop n.mid
      (.contrib (contribOf n bs))

/-- A token has come to its sender, whose count starts again, and waits (R378). -/
def State.tokenHeard (s : State) (o : Op) (n : NetOp) (tok : Nat) : State :=
  if n.heard.contains tok then s else s.setNet o.id { n with heard := tok :: n.heard, last := s.dtime }

/-- A token of a PUT: its bytes leave in packets (R376), or its source faults. -/
def State.putSend (s : State) (m : Nat) (o : Op) (n : NetOp) (tok lo len : Nat) : State :=
  match s.putRead o n lo len with
  | .wait => s.tokenHeard o n tok
  | .fault f => (s.takeMsg m).putFault o n f
  | .bytes bs =>
    let p := n.wordsLo lo
    let n2 := { n.keep lo len p bs with
      tokens := tok :: n.tokens, left := dropRange lo len n.left, last := if n.heard.contains tok then n.last else s.dtime }
    (packets lo ((bs.drop (lo - p)).take len)).foldl (fun s c => s.send (rwDev n.rword) n.mid (.data c.1 c.2 (some tok)))
      (((s.takeMsg m).netJoined o (n.addr + p) (n.wordsLen lo len)).setNet o.id n2)

/-- The ranges that a GET has asked for, with a read of `[lo, lo + n)` at `now`; bytes asked for before go on counting (R379). -/
def newAsks (now lo n : Nat) (asks : List (Nat × Nat × Nat)) : List (Nat × Nat × Nat) :=
  asks ++ (asks.foldl (fun rs a => dropRange a.1 a.2.1 rs) [(lo, n)]).map (fun r => (r.1, r.2, now))

/-- The ranges asked for after a response for `[lo, lo + n)`: the rest of a range that it answers counts anew (R379). -/
def answerAsks (now lo n : Nat) (asks : List (Nat × Nat × Nat)) : List (Nat × Nat × Nat) :=
  asks.flatMap (fun a => if meets lo n a.1 a.2.1 then (dropRange lo n [(a.1, a.2.1)]).map (fun r => (r.1, r.2, now)) else [a])

/-- TOKEN_RECEIVE (R376, R379, R391): a token that comes while the crew is saved is not answered; a standing reservation stays. -/
def State.tokenReceive (s : State) (m : Nat) : State :=
  match s.msg? m with
  | some ⟨peer, mid, .token tok lo len _, seen⟩ =>
    (match s.net? mid with
    | none => s.takeMsg m
    | some (o, n) =>
      if !(s.opRuns o) then (if n.fn = 3 then s else s.takeMsg m)
      else if !(s.netReady o) then s
      else s.netHeard o seen (fun s =>
        match n.fn with
        | 0 => if peer = rwDev n.rword ∧ lo + len ≤ n.len then s.putSend m o n tok lo len else s.takeMsg m
        | 1 => ((s.takeMsg m).setNet o.id { n with asked := true, asks := newAsks s.dtime lo len n.asks }).send (rwDev n.rword) mid
                (.rmaRead n.rword lo len tok)
        | _ => s.redSend m o n))
  | _ => s

/-- The lines of a transfer that no byte still to land touches (R170). -/
def netLanded (k : Crew) (n : NetOp) (left : List (Nat × Nat)) : List Nat :=
  let still := left.flatMap (fun r => ((lineStarts (n.addr + r.1) r.2).filter inAperture).map (fun a => spAddr k.z (a % 2 ^ 32) 0 1 / 128))
  n.lines.filter (fun l => !(still.contains l))

/-- The bytes of a response that land at once: a scratchpad line, or a 64-byte block (R169). -/
def getStep (a n : Nat) : Nat := if inAperture a then min n (128 - a % 128) else min n (64 - a % 64)

/-- The bytes of `[lo, lo + n)` of a GET have landed: the lines that they complete land with them (R170, R384). -/
def State.getLines (s : State) (o : Op) (n : NetOp) (k : Crew) (lo len : Nat) : State × NetOp :=
  let left := dropRange lo len n.left
  let ls := netLanded k n left
  (s.landLines o.crew ls, { n with left := left, lines := n.lines.filter (fun l => !(ls.contains l)) })

/-- A GET's response has landed whole: it is accounted, and with the last one the GET ends (R376, R384). -/
def State.getLanded (s : State) (m : Nat) (o : Op) (n : NetOp) : State :=
  let s1 := if n.unaccounted = 0 then s.takeMsg m else (s.takeMsg m).netBar o n (.land n.unaccounted)
  if n.left = [] then (s1.dropOwn n).endEng o none
  else s1.setNet o.id { n with landing := none }

/-- A GET's response lands, a line or a block at a time (R169, R376, R384). -/
def State.getLand (s : State) (m : Nat) (o : Op) (n : NetOp) (k : Crew) (r : Req) : State :=
  match n.landing with
  | none => s
  | some (_, lo, bs, got) =>
    if bs = [] then s.getLanded m o n
    else
      let a := n.addr + lo
      let len := getStep a bs.length
      match s.piecesOf k k.ctxid kWrite a len with
      | .error f => ((s.takeMsg m).netErr o.crew (netLocal f) 1 (some (rwDev n.rword)) (some f.va)).getFail o n 66
      | .ok ps =>
        let s1 := (s.writePieces o.crew ps (bs.take len)).modReq n.die r.seq (fun r => { r with unland := dropRange lo len r.unland })
        let q := s1.getLines o n k lo len
        let n2 := { q.2 with landing := some (m, lo + len, bs.drop len, got + len) }
        if len < bs.length then q.1.setNet o.id n2 else q.1.getLanded m o n2

/-- The response that a GET takes up under its token: what lands of it, in whole words, and what is kept of words that it cuts (R211, R376). -/
def NetOp.take1 (n : NetOp) (now m lo : Nat) (bs : List MByte) (edge : List (Nat × MByte)) : NetOp :=
  let xs := withEdges n.edge lo bs
  let w := landPart n.addr n.len n.left n.held lo xs
  { n with edge := addEdges n.edge edge, held := w.2.2, landing := some (m, w.1, w.2.1, 0), asks := answerAsks now lo bs.length n.asks }

/-- GET_RESPONSE_LAND (R379, R384): a late response is discarded; one at a time lands. -/
def State.responseLand (s : State) (m : Nat) : State :=
  match s.msg? m with
  | some ⟨peer, mid, .rmaResp lo tok bs edge, seen⟩ =>
    let s1 := s.takeMsg m
    (match s.net? mid with
    | none => s1
    | some (o, n) =>
      match s.ownReq? n.die mid, s.crews[o.crew]? with
      | some r, some k =>
        if n.fn ≠ 1 ∨ peer ≠ rwDev n.rword ∨ k.st = .saved then s1
        else
          match n.landing with
          | some (x, _, _, _) => if x = m then s.netHeard o seen (fun s => s.getLand m o n k r) else s
          | none =>
            match s.tokenFor n.die tok r lo bs.length with
            | none => s1
            | some t => (s.tokenLand n.die t lo bs.length).netHeard o seen (fun t => t.getLand m o (n.take1 s.dtime m lo bs edge) k r)
      | _, _ => s1)
  | _ => s

/-- The bytes that a GET holds and whose words lack nothing that is still to come land, one by one (R211, R384). -/
def State.getHeld (s : State) (o : Op) (n : NetOp) (k : Crew) (xs : List (Nat × MByte)) : State × NetOp :=
  xs.foldl (fun q x =>
    match s.piecesOf k k.ctxid kWrite (n.addr + x.1) 1 with
    | .error f => ((q.1.netErr o.crew (netLocal f) 1 (some (rwDev n.rword)) (some f.va)).netBar o n (.settle 1 66)).getLines o q.2 k x.1 1
    | .ok ps => ((q.1.writePieces o.crew ps [x.2]).netBar o n (.land 1)).getLines o q.2 k x.1 1) (s, n)

/-- The ranges of a GET that have had no response for XFERTO settle with TIMEOUT (R379); with the last byte the GET ends. -/
def State.getTimeout (s : State) (o : Op) (n : NetOp) (k : Crew) : State :=
  let due := n.asks.filter (fun a => decide (a.2.2 + irXferto (s.iris n.die).cfg ≤ s.dtime))
  if due = [] then s
  else
    let cut := fun (rs : List (Nat × Nat)) => due.foldl (fun rs a => dropRange a.1 a.2.1 rs) rs
    let left := cut n.left
    let hd := heldDone n.addr n.len left n.held
    let q : State × NetOp := (s.netErr o.crew 6 1 (some (rwDev n.rword)) (rwErrOff n.rword)).getHeld o { n with left := left } k hd
    let ls := netLanded k q.2 q.2.left
    let lines := q.2.lines.filter (fun l => !(ls.contains l))
    let n2 : NetOp := { q.2 with held := n.held.filter (fun h => !(hd.contains h)), lines := lines, asks := n.asks.filter (fun a => !(due.contains a)) }
    let s2 := (q.1.landLines o.crew ls).modIris n.die (fun x => { x with
      reqs := x.reqs.map (fun r => if r.own ∧ r.mid = n.mid then { r with ungr := cut r.ungr, unland := n2.left } else r)
      toks := (x.toks.map (fun t => if t.mid = n.mid ∧ t.peer = s.devid.toNat then { t with left := cut t.left } else t)).filter (fun t => decide (t.left ≠ [])) })
    let s3 := s2.netBar o n (.settle (rangeSum n.left - rangeSum left) 69)
    if n2.left = [] ∧ n2.landing = none then (s3.dropOwn n).endEng o (some 0)
    else (s3.setNet o.id n2).stepOpDone o.crew (some 0)

/-- FROZEN reaches a sender, whose count starts again (R378). -/
def State.frozenReceive (s : State) (m : Nat) : State :=
  match s.msg? m with
  | some ⟨_, mid, .frozen, _⟩ =>
    (match s.net? mid with
    | some (o, n) => (s.takeMsg m).setNet o.id { n with last := s.dtime }
    | none => s.takeMsg m)
  | _ => s

/-- FINISHED reaches a sender (R376, R383). -/
def State.finishedMsg (s : State) (m : Nat) : State :=
  match s.msg? m with
  | some ⟨peer, mid, .finished, seen⟩ =>
    (match s.net? mid with
    | some (o, n) => if n.fn = 0 ∧ peer = rwDev n.rword then (s.takeMsg m).netHeard o seen (fun s => s.putEnd o n none) else s.takeMsg m
    | none => s.takeMsg m)
  | _ => s

/-- ORPHANED reaches a sender (R377, R383). -/
def State.orphanedMsg (s : State) (m : Nat) : State :=
  match s.msg? m with
  | some ⟨peer, mid, .orphaned short, seen⟩ =>
    (match s.net? mid with
    | some (o, n) =>
      if n.fn = 0 ∧ peer = rwDev n.rword then
        ((s.takeMsg m).netErr o.crew 5 0 (some (rwDev n.rword)) (rwErrOff n.rword)).netHeard o seen (fun s =>
          s.putEnd o n (some (short.getD n.putShort, 68)))
      else s.takeMsg m
    | none => s.takeMsg m)
  | _ => s

/-- A refusal, or a fault while landing, reaches a sender (R372, R383, R384). -/
def State.refusalMsg (s : State) (m : Nat) : State :=
  match s.msg? m with
  | some ⟨peer, mid, .refused reason short, seen⟩ =>
    (match s.net? mid with
    | some (o, n) =>
      if peer = rwDev n.rword then
        let s1 := (s.takeMsg m).netErr o.crew reason n.fn (some (rwDev n.rword)) (rwErrOff n.rword)
        (match n.fn with
         | 0 => s1.netHeard o seen (fun s => s.putEnd o n (some (short, 66)))
         | 1 => s1.netHeard o seen (fun s => s.getFail o n 66)
         | _ => s1)
      else s.takeMsg m
    | none => s.takeMsg m)
  | _ => s

/-- A line of an operation's answer: its old value, as its lane takes it. -/
def State.raLane (s : State) (o : Op) (dst n : Nat) (r : RaRes) : State :=
  s.landLane o r.lane (loadLanes dst n false (if r.reason = 0 then r.old else 0) (fun _ => r.bad && decide (r.reason = 0)))

/-- A RATOM ends with the answers of its lanes; NETERR records the first that failed (R385, R386). -/
def State.raEnd (s : State) (o : Op) (dst n : Nat) (rw : W64) (rs : List RaRes) (flag : Option Nat) : State :=
  let here := rs.filter (fun r => o.fills.any (fun f => decide (f.lane = r.lane)))
  let s1 := here.foldl (fun s r => s.raLane o dst n r) s
  let s2 := match here.find? (fun r => decide (r.reason ≠ 0)) with
    | some r => s1.netErr o.crew r.reason 2 (some (rwDev rw)) (some (rwOff rw))
    | none => s1
  (s2.modOp o.id (fun o => { o with fills := [] })).endEng o flag

/-- RATOM_REPLY (R385): a lane that the answer does not name reads as unanswered. -/
def State.raReply (s : State) (m : Nat) : State :=
  match s.msg? m with
  | some ⟨peer, mid, .ratomReply rs, _⟩ =>
    let s1 := s.takeMsg m
    (match s.ops.findSome? (fun o => match o.eng with | some (.ra i d n _ rw) => if i = mid then some (o, d, n, rw) else none | _ => none) with
    | some (o, d, n, rw) =>
      if peer = rwDev rw then
        let all := o.fills.map (fun f => match rs.find? (fun r => decide (r.lane = f.lane)) with | some r => r | none => ⟨f.lane, 0, 6, false⟩)
        s1.raEnd o d n rw all (if all.any (fun r => decide (r.reason ≠ 0)) then some 1 else none)
      else s1
    | none => s1)
  | _ => s

/-- TRANSFER_TIMEOUT (R378, R379, R385). -/
def State.transferTimeout (s : State) (id : Nat) : State :=
  match s.op? id with
  | none => s
  | some o =>
    match o.eng with
    | some (.net n) =>
      if n.fn = 1 then
        (match s.crews[o.crew]? with | some k => if k.st = .saved then s else s.asOp o (fun s => s.getTimeout o n k) | none => s)
      else if !(s.opRuns o) ∨ s.dtime < n.last + irXferto (s.iris n.die).cfg then s
      else
        let s1 := s.netErr o.crew 6 n.fn (some (rwDev n.rword)) (rwErrOff n.rword)
        (match n.fn with
         | 0 => if n.rts ∧ (s.fullMsg? n.mid).isNone then s1.asOp o (fun s => s.putEnd o n (some (n.putShort, 69))) else s
         | _ => s)
    | some (.ra _ d n last rw) =>
      let die := match s.crews[o.crew]? with | some k => k.die | none => 0
      if s.dtime < last + irXferto (s.iris die).cfg then s
      else s.raEnd o d n rw (o.fills.map (fun f => ⟨f.lane, 0, 6, false⟩)) (some 0)
    | _ => s

/-- One lane of a RATOM at its word's atomic unit (R385, R206): its write belongs to the release sequences of those that it reads, and
with REL is a release point at DEV scope of what happens before it (R213, R214). -/
def State.raExec (s : State) (w : Win) (aop n : Nat) (rel : Bool) (l : RaLane) : State × RaRes :=
  if w.len < l.off + n then (s, ⟨l.lane, 0, 3, false⟩)
  else
    match s.xlate w.ctxid ((w.base + l.off) % 2 ^ 64) n kAtomic with
    | .error _ => (s, ⟨l.lane, 0, 4, false⟩)
    | .ok key =>
      if s.bad key n then (s, ⟨l.lane, s.rd key n, 0, true⟩)
      else
        let hs := (if rel then [⟨none, 2, s.actor.past⟩] else []) ++ headsIn (s.lastWrites none key n s.hist.length)
        (((s.withHeads hs).wr key n (atomNew aop (8 * n) (s.rd key n) l.cmp l.b)).relaxed, ⟨l.lane, s.rd key n, 0, false⟩)

/-- The lanes in ascending order. -/
def State.raExecs (s : State) (w : Win) (aop n : Nat) (rel : Bool) : List RaLane → State × List RaRes
  | [] => (s, [])
  | l :: r =>
    let q := s.raExec w aop n rel l
    let t := State.raExecs q.1 w aop n rel r
    (t.1, q.2 :: t.2)

/-- RATOM_EXECUTE (R385): the lanes execute at their atomic units and the reply goes out. -/
def State.ratomExecute (s : State) (m : Nat) : State :=
  match s.msg? m with
  | some ⟨peer, mid, .ratom aop n rel rw lanes, seen⟩ =>
    let s1 := s.takeMsg m
    (match s.winFor peer 2 rw with
    | none => s1.send peer mid (.ratomReply (lanes.map (fun l => ⟨l.lane, 0, 3, false⟩)))
    | some w =>
      s1.workWith seen (fun s =>
        let q := s.raExecs w aop n rel lanes
        q.1.send peer mid (.ratomReply q.2)))
  | _ => s

/-- The armed lines of a GET's destination (R170, R384). -/
def getLines (k : Crew) (a n : Nat) : List Nat :=
  if k.z = 0 then [] else (((lineStarts a n).filter inAperture).map (fun a => spAddr k.z (a % 2 ^ 32) 0 1 / 128)).eraseDups

/-- The reserved bits of the control word of PUT and GET (R382). -/
def ncZeros (c : W64) : Bool := decide (bitsOf c 41 27 = 0 ∧ bitsOf c 24 23 = 0)

/-- A transfer as it issues. -/
def netBase (s : State) (e : Env) (fn : Nat) (rw ctl : W64) (addr len : Nat) : NetOp :=
  { fn := fn, die := e.k.die, mid := s.nextMsg, rword := rw, ctl := ctl, addr := addr, len := len, rts := false, sentAt := 0, tokens := []
    left := [(0, len)], last := s.dtime, asked := false, result := none, lines := [], grp := none
    asks := [], landing := none, unconf := [(0, len)], edge := [], held := [], heard := [] }

/-- A transfer enters the copy engine (R280, R381). -/
def State.addNet (s : State) (e : Env) (n : NetOp) : State :=
  ({ s with nextMsg := s.nextMsg + 1 } : State).addOp { e.newOp s e.m0 with eng := some (.net n) }

/-- PUT (R382, R383). -/
def execPut (o : OpX3) (s : State) : Host.Outcome State Fault Refusal :=
  runH (baseHdr (0x99 + putX3 o)) s (fun e => do
    let a ← rdS s e o.a.toNat
    let rw ← rdS s e o.b.toNat
    let ctl ← rdS s e o.c.toNat
    need (ncZeros ctl && !(ctl.getLsbD 26)) (e.ill 6)
    waitUnless (decide (s.cpCount e.k < 64))
    pure (if ncLen ctl = 0 then s.asOp (e.newOp s e.m0) (fun s => s.cpBarUpd e.ci ctl (.arrive 1 false)) else s.addNet e (netBase s e 0 rw ctl a.toNat (ncLen ctl))))

/-- GET (R382, R384). -/
def execGet (o : OpX3) (s : State) : Host.Outcome State Fault Refusal :=
  runH (baseHdr (0x4000099 + putX3 o)) s (fun e => do
    let a ← rdS s e o.a.toNat
    let rw ← rdS s e o.b.toNat
    let ctl ← rdS s e o.c.toNat
    need (ncZeros ctl && decide (ncClass ctl = 0) && (!(ctl.getLsbD 26) || ctl.getLsbD 25) && !(rwInb rw)) (e.ill 6)
    let ls := getLines e.k a.toNat (ncLen ctl)
    waitUnless (decide (s.cpCount e.k < 64) && e.k.canArm ls)
    pure (if ncLen ctl = 0 then s
      else
        let s1 := s.modCrew e.ci (fun k => k.armLines ls)
        let s2 := if ctl.getLsbD 26 then s1.cpBarUpd e.ci ctl (.expect (ncLen ctl)) else s1
        s2.addNet e { netBase s e 1 rw ctl a.toNat (ncLen ctl) with lines := ls }))

/-- RATOM (R385). -/
def execRatom (o : OpX3) (s : State) : Host.Outcome State Fault Refusal :=
  runH (baseHdr (0x8000099 + putX3 o)) s (fun e => do
    let v ← venvW s e
    let rw ← rdSw s e o.b.toNat
    let ctl ← rdSw s e o.c.toNat
    need (decide (ctl.toNat / 2 ^ 6 = 0) && !(rwInb rw)) (e.ill 6)
    let aop := bitsOf ctl 3 0
    let n := if ctl.getLsbD 4 then 8 else 4
    let vt := o.a.toNat
    let rs := vt :: runOf (vt + 1) (if aop = 1 then 2 * n else n)
    let dst := runOf (vt + 1) n
    regsOk e.k rs
    emptyCheck v.w (runSrc v rs)
    pendCheck v.w (runSrc v rs)
    maskOk v
    sOk s e o.b.toNat
    sOk s e o.c.toNat
    poisonCheck v.w 0 (runSrc v [vt])
    poisonCheck v.w 1 (runSrc v rs)
    dstFree v.w dst v.act
    waitUnless (!(s.storesOut e.who) && !(s.olderPending e.who s.nextOp e.m0 true))
    let off := fun l => alignDown (rwOff rw + (v.w.lane vt l).data.toNat) n
    let lanes := (lanesOf v.act).map (fun l =>
      (⟨l, off l, atomVal v aop (vt + 1) n l, atomVal v aop (if aop = 1 then vt + 1 + n / 4 else vt + 1) n l⟩ : RaLane))
    let s1 := ({ s with nextMsg := s.nextMsg + 1 } : State).modWarp e.ci e.wi (fun w => w.setPending dst v.act)
    let op := { e.newOp s v.act with fills := lanes.map (fun l => ⟨l.lane, .unit⟩), eng := some (.ra s.nextMsg (vt + 1) n s.dtime rw) }
    pure (if v.act = 0 then s
      else (s1.addOp op).asOp op (fun t => t.send (rwDev rw) s.nextMsg (.ratom aop n (ctl.getLsbD 5) rw lanes))))

/-- RTS_RETRY (R374). -/
def execRtsRetry (x : Nat) (s : State) : Host.Outcome State Fault Refusal := .next (s.rtsRetry x)
/-- TOKEN_RECEIVE (R376). -/
def execTokenReceive (m : Nat) (s : State) : Host.Outcome State Fault Refusal := .next (s.tokenReceive m)
/-- TRANSFER_TIMEOUT (R378). -/
def execTransferTimeout (x : Nat) (s : State) : Host.Outcome State Fault Refusal := .next (s.transferTimeout x)
/-- FROZEN_RECEIVE (R378). -/
def execFrozenReceive (m : Nat) (s : State) : Host.Outcome State Fault Refusal := .next (s.frozenReceive m)
/-- FINISHED (R383). -/
def execFinished (m : Nat) (s : State) : Host.Outcome State Fault Refusal := .next (s.finishedMsg m)
/-- ORPHANED (R383). -/
def execOrphaned (m : Nat) (s : State) : Host.Outcome State Fault Refusal := .next (s.orphanedMsg m)
/-- REFUSAL_RECEIVE (R372). -/
def execRefusalReceive (m : Nat) (s : State) : Host.Outcome State Fault Refusal := .next (s.refusalMsg m)
/-- GET_RESPONSE_LAND (R384). -/
def execGetResponseLand (m : Nat) (s : State) : Host.Outcome State Fault Refusal := .next (s.responseLand m)
/-- RATOM_EXECUTE (R385). -/
def execRatomExecute (m : Nat) (s : State) : Host.Outcome State Fault Refusal := .next (s.ratomExecute m)
/-- RATOM_REPLY (R385). -/
def execRatomReply (m : Nat) (s : State) : Host.Outcome State Fault Refusal := .next (s.raReply m)

end Sys2Proof.Machine
end

