-- ==== Sys2Proof/Machine/Reduce.lean ====
section
/-! DEFINITION. In-network reduction: REDNET, the switch's slots and their combination, and the results that land (R390 to R394). -/
namespace Sys2Proof.Machine

/-- REDNET (R391). -/
def execRednet (o : OpX3) (s : State) : Host.Outcome State Fault Refusal :=
  runH (baseHdr (0xC000099 + putX3 o)) s (fun e => do
    let a ← rdS s e o.a.toNat
    let gw ← rdS s e o.b.toNat
    let ctl ← rdS s e o.c.toNat
    let f := rnFmt ctl
    let g := s.redgrps.find? (fun g => decide (g.idx = bitsOf gw 55 48 ∧ g.ctxid = e.k.ctxid))
    need (decide (f = 0 ∨ f = 1 ∨ f = 3 ∨ f = 4 ∨ f = 11)) (e.ill 5)
    need (decide (bitsOf gw 63 56 = 0 ∧ bitsOf gw 47 32 = 0 ∧ bitsOf ctl 19 16 = 0 ∧ rnOp ctl ≤ 3) && g.isSome) (e.ill 6)
    need (decide (rnCount ctl * max (fmtWidth f) (rnOut ctl) / 8 ≤ 8192) && (decide (f ≠ 11) || (decide (rnOp ctl ≠ 3) && !(rnRf ctl)))
      && (!(ctl.getLsbD 21) || ctl.getLsbD 20)) (e.ill 6)
    waitUnless (decide (s.cpCount e.k < 64))
    let n := { netBase s e 3 gw ctl a.toNat (32 + rnPayload ctl) with left := [], unconf := [], grp := g }
    let s1 := if ctl.getLsbD 21 ∧ e.k.z ≠ 0 then s.barUpd e.ci (cpBarOff e.k ctl) (.expect n.len) else s
    pure (s1.addNet e n))

/-- An FP32 value that an input holds for an element (R394): a partial, or the exact value of its code. -/
def redValue (c : Contrib) (i : Nat) : W32 :=
  let x := c.elems.getD i 0
  if c.part then w32 x else round32 (decodeFmt c.fmt x) 0

/-- One input of an element (R394): the accumulator, and whether a NaN has been met. -/
def redStep (op : Nat) (ignore : Bool) (acc : W32 × Bool) (v : W32) : W32 × Bool :=
  if isNan32 v then (if ignore then acc.1 else nan32, true)
  else if isNan32 acc.1 then acc
  else
    let r := match op with
      | 0 => fadd32 0 acc.1 v
      | 1 => fminmax32 false false acc.1 v
      | 2 => fminmax32 true false acc.1 v
      | _ => fminmax32 true false (fabs32 acc.1) (fabs32 v)
    (r, acc.2 || isNan32 r)

/-- One input of an INT32 element (R158, R394). -/
def redInt (op : Nat) (acc v : W32) : W32 :=
  match op with
  | 0 => acc + v
  | 1 => if v.toInt < acc.toInt then v else acc
  | _ => if acc.toInt < v.toInt then v else acc

/-- The accumulator of an element before the first input (R394). -/
def redStart (op : Nat) (int : Bool) : W32 :=
  match op with
  | 1 => if int then 0x7FFFFFFF else 0x7F800000
  | 2 => if int then 0x80000000 else 0xFF800000
  | _ => 0

/-- An element of the inputs in port order: its accumulator, and whether a NaN was met. -/
def redElem (h : Contrib) (cs : List Contrib) (i : Nat) : W32 × Bool :=
  if h.fmt = 11 then (cs.foldl (fun a c => redInt h.op a (w32 (c.elems.getD i 0))) (redStart h.op true), false)
  else cs.foldl (fun a c => redStep h.op h.nan a (redValue c i)) (redStart h.op false, false)

/-- The lowest rank of a contribution; its port at the switch (R393). -/
def Contrib.lowest (c : Contrib) : Nat := (lowLane c.ranks).getD 0
def Contrib.port (c : Contrib) : Nat := Config.swPort c.fgrp c.lowest

/-- Inserts an input in ascending port order. -/
def portInsert (c : Contrib) : List Contrib → List Contrib
  | [] => [c]
  | x :: r => if c.port < x.port then c :: x :: r else x :: portInsert c r

/-- The result of a slot at the root (R394): NANSEEN, and the payload. -/
def slotResult (h : Contrib) (cs : List Contrib) : Bool × List Byte :=
  let sorted := cs.foldl (fun acc c => portInsert c acc) []
  let es := (List.range h.elems.length).map (redElem h sorted)
  let w := if h.rf then 4 else fmtWidth h.fmt / 8
  (cs.any (fun c => c.nanseen) || es.any Prod.snd,
   es.flatMap (fun e => natLe w (if h.rf ∨ h.fmt = 11 then e.1.toNat else finalRound (f32 e.1) false h.fmt 0)))

/-- The ranks that a slot holds. -/
def SwSlot.ranks (x : SwSlot) : W64 := x.inputs.foldl (fun m i => m ||| i.1.ranks) 0

/-- What a switch forwards to its parent as one input (R393, R394): its accumulators, NANSEEN and the ranks. -/
def slotPartial (h : Contrib) (cs : List Contrib) (ranks : W64) : Contrib :=
  let sorted := cs.foldl (fun acc c => portInsert c acc) []
  let es := (List.range h.elems.length).map (redElem h sorted)
  { h with ranks := ranks, part := true, nanseen := cs.any (fun c => c.nanseen) || es.any Prod.snd, elems := es.map (fun e => e.1.toNat) }

/-- A slot closes (R393): at the root the result goes to the ranks it holds; another switch forwards its partials, which `up` keeps, to
its parent, outside the package. Its key stays closed for four slot timeouts. -/
def State.closeSlot (s : State) (x : SwSlot) : State :=
  let s1 : State := { s with slots := s.slots.filter (fun y => decide (y.id ≠ x.id))
                             closed := s.closed ++ [(x.head.fgrp, x.head.cseq, x.head.op, s.dtime + 4 * x.head.timeout)] }
  if !(Config.swRoot x.head.fgrp) then { s1 with up := s1.up ++ [slotPartial x.head (x.inputs.map Prod.fst) x.ranks] }
  else
    let q := slotResult x.head (x.inputs.map Prod.fst)
    let status := if x.ranks = maskOf (fun k => decide (k < x.head.nmemb)) then 0 else 1
    x.inputs.foldl (fun s i => if i.1.part then s else s.send i.2.1 i.2.2 (.redResult status q.1 x.ranks q.2)) s1

/-- The key of two contributions is one (R391). -/
def Contrib.sameKey (c d : Contrib) : Bool := decide (c.fgrp = d.fgrp ∧ c.cseq = d.cseq ∧ c.op = d.op)

/-- An arrival that the slot cannot take (R393). -/
def SwSlot.mismatch (x : SwSlot) (c : Contrib) : Bool :=
  decide (c.fmt ≠ x.head.fmt ∨ c.elems.length ≠ x.head.elems.length ∨ c.nan ≠ x.head.nan ∨ c.rf ≠ x.head.rf ∨ c.ranks &&& x.ranks ≠ 0)

/-- An answer of the switch that is a header alone. -/
def State.redAnswer (s : State) (peer mid status : Nat) : State := s.send peer mid (.redResult status false 0 [])

/-- The slots whose timeout has elapsed close (R393). -/
def State.slotsDue (s : State) : State :=
  (s.slots.filter (fun x => decide (x.opened + x.head.timeout ≤ s.dtime))).foldl State.closeSlot s

/-- REDUCTION_ARRIVAL (R393). -/
def State.redArrive (s : State) (m : Nat) : State :=
  match s.msg? m with
  | some ⟨peer, mid, .contrib c, _⟩ =>
    let s0 := (s.takeMsg m).slotsDue
    let s1 : State := { s0 with closed := s0.closed.filter (fun k => decide (s.dtime ≤ k.2.2.2)) }
    if s1.closed.any (fun k => decide (k.1 = c.fgrp ∧ k.2.1 = c.cseq ∧ k.2.2.1 = c.op)) then s1.redAnswer peer mid 2
    else
      let add := fun (t : State) (x : SwSlot) =>
        if Config.swBelow c.fgrp ≤ popMask x.ranks then t.closeSlot x else t
      (match s1.slots.find? (fun x => x.head.sameKey c) with
      | some x =>
        if x.mismatch c then s1.redAnswer peer mid 3
        else
          let y := { x with inputs := x.inputs ++ [(c, peer, mid)] }
          add ({ s1 with slots := s1.slots.map (fun z => if z.id = x.id then y else z) }) y
      | none =>
        if 4096 ≤ s1.slots.length then s1.redAnswer peer mid 4
        else
          let y : SwSlot := ⟨s1.nextMsg, c, [(c, peer, mid)], s.dtime⟩
          add ({ s1 with slots := s1.slots ++ [y], nextMsg := s1.nextMsg + 1 }) y)
  | _ => s

/-- REDUCTION_SLOT_TIMEOUT (R393). -/
def State.slotTimeout (s : State) (id : Nat) : State :=
  match s.slots.find? (fun x => decide (x.id = id)) with
  | some x => if x.opened + x.head.timeout ≤ s.dtime then s.closeSlot x else s
  | none => s

/-- The header of a result (R391). -/
def redHeader (fgrp cseq status : Nat) (nanseen : Bool) (ranks : W64) (bytes : Nat) : Nat :=
  cseq * 2 ^ 224 + fgrp * 2 ^ 200 + status * 2 ^ 192 + b2n nanseen * 2 ^ 191 + popMask ranks * 2 ^ 184 + bytes * 2 ^ 128 + ranks.toNat

/-- The bytes of an answer as they land (R391, R392). -/
def redBytes (n : NetOp) (status : Nat) (nanseen : Bool) (ranks : W64) (payload : List Byte) : List Byte :=
  let g := match n.grp with | some g => g.fgrp | none => 0
  natLe 32 (redHeader g (bitsOf n.rword 31 0) status nanseen ranks payload.length) ++ payload

/-- The answer of a REDNET that has come. -/
def NetOp.take (n : NetOp) (status : Nat) (bs : List Byte) : NetOp := { n with result := some (status, bs), left := [(0, bs.length)] }

/-- The answer that waits for a REDNET (R391). -/
def State.redAnswer? (s : State) (mid : Nat) : Option (Nat × WireBody) :=
  (s.wire.find? (fun p => decide (p.2.mid = mid) && (match p.2.body with | .redResult _ _ _ _ => true | _ => false))).map (fun p => (p.1, p.2.body))

/-- The last byte of an answer has landed (R392): what a status without a payload leaves settles. -/
def State.redDone (s : State) (o : Op) (n : NetOp) (status : Nat) : State :=
  let s1 := s.dropOwn n
  let rest := n.len - 32
  match status with
  | 0 => s1.endEng o none
  | 1 => s1.endEng o (some 3)
  | 3 => ((s1.netBar o n (.settle rest 66)).netErr o.crew 7 3 none none).endEng o (some 1)
  | 4 => ((s1.netBar o n (.settle rest 66)).netErr o.crew 7 3 none none).endEng o (some 1)
  | _ => ((s1.netBar o n (.settle rest 69)).netErr o.crew 6 3 none none).endEng o (some 0)

/-- The 128-byte line of an answer around its byte `b` lands (R391, R392). -/
def State.redLand (s : State) (o : Op) (n : NetOp) (status : Nat) (bs : List Byte) (b : Nat) : State :=
  match n.left.find? (fun r => decide (r.1 ≤ b ∧ b < r.1 + r.2)) with
  | none => s
  | some r =>
    let a := 32 * bitsOf n.ctl 47 32
    let lo := max r.1 (b - (a + b) % 128)
    let len := min (r.1 + r.2) (b + (128 - (a + b) % 128)) - lo
    let left := dropRange lo len n.left
    let off := s.crews[o.crew]?.elim 0 (fun k => spAddr k.z (a + lo) 0 1)
    let s1 := (s.noteSp o.crew off len none).modCrew o.crew (fun k => k.spWrMarked off (cleanBytes ((bs.drop lo).take len)))
    let s2 := s1.netBar o n (if left = [] ∧ status = 1 then .landBit len 70 else .land len)
    if left = [] then s2.redDone o n status else s2.setNet o.id { n with left := left }

/-- REDUCTION_RESULT_LAND (R391): the answer is taken up with its first line. -/
def State.resultLand (s : State) (id b : Nat) : State :=
  match s.netOf id with
  | none => s
  | some (o, n) =>
    match s.crews[o.crew]? with
    | none => s
    | some k =>
      if n.fn ≠ 3 ∨ k.st = .saved then s
      else
        match n.result with
        | some (status, bs) => s.asOp o (fun s => s.redLand o n status bs b)
        | none =>
          match s.redAnswer? n.mid with
          | some (m, .redResult status nanseen ranks payload) =>
            if !n.asked then s
            else
              let bs := redBytes n status nanseen ranks payload
              let n2 := n.take status bs
              ((s.takeMsg m).setNet id n2).asOp o (fun s => s.redLand o n2 status bs b)
          | _ => s

/-- UNREACHABLE (R392): the device makes the header itself. -/
def State.unreachable (s : State) (id : Nat) : State :=
  match s.netOf id with
  | none => s
  | some (o, n) =>
    if n.fn = 3 ∧ n.asked ∧ n.result = none ∧ (s.redAnswer? n.mid).isNone ∧ n.last + irXferto (s.iris n.die).cfg ≤ s.dtime
    then s.setNet o.id (n.take 5 (redBytes n 5 false 0 [])) else s

/-- REDUCTION_ARRIVAL (R393). -/
def execReductionArrival (m : Nat) (s : State) : Host.Outcome State Fault Refusal := .next (s.redArrive m)
/-- REDUCTION_SLOT_TIMEOUT (R393). -/
def execReductionSlotTimeout (slot : Nat) (s : State) : Host.Outcome State Fault Refusal := .next (s.slotTimeout slot)
/-- REDUCTION_RESULT_LAND (R391). -/
def execReductionResultLand (x line : Nat) (s : State) : Host.Outcome State Fault Refusal := .next (s.resultLand x line)
/-- UNREACHABLE (R392). -/
def execUnreachable (x : Nat) (s : State) : Host.Outcome State Fault Refusal := .next (s.unreachable x)

end Sys2Proof.Machine
end

