-- ==== Sys2Proof/Machine/Save.lean ====
section
/-! DEFINITION. Pre-emption and migration of crews and their context images (R403 to R407, R288, R289, R388, R389), power and
temperature (R408 to R411), and soft errors (R412 to R414). -/
namespace Sys2Proof.Machine

/-- The number of an entry's state (R92). -/
def entCode (e : Entry) : Nat := match e.st with | .ready => 0 | .parked => 1 | .held => 2

/-- A frontier entry as an image holds it (R92). -/
def entImage (e : Entry) : List Byte :=
  natLe 16 (e.mask.toNat * 2 ^ 64 + e.pc.toNat * 2 ^ 32 + e.prio.toNat * 2 ^ 16 + entCode e)

/-- A loop stack as an image holds it, lp0 first (R95). -/
def loopImage (ls : List LoopEnt) : List Byte :=
  ls.reverse.flatMap (fun l => natLe 32
    (l.broken.toNat * 2 ^ 192 + l.members.toNat * 2 ^ 128 + l.count.toNat * 2 ^ 96 + l.stop.toNat * 2 ^ 64 + l.start.toNat * 2 ^ 32 + 1))

/-- Bytes padded with zeros to a length. -/
def padTo (n : Nat) (bs : List Byte) : List Byte := bs.take n ++ List.replicate (n - bs.length) 0

/-- Bytes of an image that hold some values in a form which R403 does not lay out (log entry 11). -/
def openBytes (kind n : Nat) (vals : List Nat) : List Byte := (List.range n).map (fun i => Config.imagePart (kind :: i :: vals))

/-- The CSRs of a warp in the order in which its record holds them (R403), 8 bytes each (log entry 11). -/
def warpCsrs (w : Warp) : List Nat :=
  [w.rmode.toNat, w.ftz.toNat, w.trapcause.toNat, w.trappc.toNat, w.trapinfo.toNat, w.tstat.toNat, w.hmask.toNat, w.faultdet.toNat, w.poisonva.toNat,
   w.sqtcause.toNat, w.sqtpc.toNat, w.sqtinfo.toNat]

/-- The values of a cohort membership (R232, R403). -/
def memberValues (m : Member) : List Nat := [m.slot, m.key.toNat, m.mask.toNat, m.arrived.toNat, m.phase.toNat]

/-- The values of the crew record (R403). -/
def crewValues (k : Crew) (bound : Bool) : List Nat :=
  [k.tvec.toNat, k.cpfault.toNat, k.neterr.toNat, k.pgwait.toNat, k.firstKill.toNat, b2n bound, clusterOf k.core]

/-- The values of a sequencer context (R265, R288). -/
def ctxValues (c : SCtx) : List Nat :=
  [b2n c.matrix, c.warp, c.mask.toNat, c.rid, c.pc.toNat, c.rmode.toNat, c.ftz.toNat, c.mxbar.toNat, c.mxshape.toNat, c.mxgang.toNat, c.mxfault.toNat
   , c.mxglost.toNat, c.cause.toNat, c.tpc.toNat, c.info.toNat] ++ c.sregs.map BitVec.toNat
    ++ c.loops.flatMap (fun l => [l.start.toNat, l.stop.toNat, l.count.toNat, l.members.toNat, l.broken.toNat])

/-- Ranges as values. -/
def rangeValues (rs : List (Nat × Nat)) : List Nat := rs.flatMap (fun r => [r.1, r.2])

/-- The captured operands of a withdrawn operation (R288, R317). -/
def engValues : Engop → List Nat
  | .cp c => [c.fn, c.dst, c.src, c.ctl.toNat, c.sh.toNat] ++ rangeValues c.left
  | .kg g => [g.die, g.pool.toNat, g.dest, b2n g.tr, g.kv, g.head, g.pos, g.bar] ++ g.lanes.flatMap (fun l => [l.1, l.2.1, l.2.2])
  | .ka a => [a.die, a.seq, a.frame, a.addr, a.off, a.bar, b2n a.clip, leNat a.row]
  | .net n => [n.fn, n.rword.toNat, n.ctl.toNat, n.addr, n.len]
  | _ => []

/-- The values of a kept transfer (R388): message ID, words, source address, ranges not yet confirmed landed. -/
def keptValues (n : NetOp) : List Nat :=
  [n.mid, n.rword.toNat, n.ctl.toNat, n.addr] ++ rangeValues (if n.fn = 0 then n.unconf else n.left)

/-- The four cohort memberships of a warp record, of 64 bytes each (R403). -/
def memberImage (ms : List Member) : List Byte :=
  (List.range 4).flatMap (fun i => match ms[i]? with | some m => openBytes (16 + i) 64 (memberValues m) | none => List.replicate 64 0)

/-- A warp record of 3,072 bytes (R403). -/
def warpImage (w : Warp) : List Byte :=
  padTo 1280 (w.frontier.flatMap entImage) ++ padTo 128 (loopImage w.loops) ++ padTo 128 (loopImage w.shadow)
    ++ padTo 512 (w.sregs.flatMap (fun x => natLe 8 x.toNat)) ++ padTo 56 ((w.mregs.take 7).flatMap (fun x => natLe 8 x.toNat))
    ++ padTo 200 ((warpCsrs w).flatMap (natLe 8)) ++ padTo 768 (memberImage w.cohorts)

/-- A register image (R122). -/
def regImage (v : VReg) : List Byte :=
  v.flatMap (fun l => natLe 4 (if l.f then l.data.toNat else 0))
    ++ natLe 8 (maskOf (fun i => (v.getD i Lane.launch).s)).toNat ++ natLe 8 (maskOf (fun i => (v.getD i Lane.launch).f)).toNat

/-- The position of a slot in the recency order, and its tag. -/
def tagAt (ts : List (Nat × W32)) (slot : Nat) : Option (Nat × W32) :=
  match ts.findIdx? (fun t => decide (t.1 = slot)) with
  | some i => (ts[i]?).map (fun t => (i, t.2))
  | none => none

/-- The tag partition (R178, R179); an invalid slot's TAG and RANK, which no rule gives, are 0 (log entry 11). -/
def tagImage (k : Crew) : List Byte :=
  (List.range (8 * k.image.warps)).flatMap (fun slot => natLe 8 (match tagAt k.tags slot with | some (r, t) => r * 2 ^ 33 + 2 ^ 32 + t.toNat | none => 0))

/-- The line bytes and LF bits of the allocation (R172, R403). -/
def spImage (k : Crew) : List Byte :=
  rdList k.sp 0 (128 * k.image.scrlines) ++ (List.range ((k.image.scrlines + 7) / 8)).map (fun b =>
    BitVec.ofNat 8 ((List.range 8).map (fun i => if 8 * b + i < k.image.scrlines ∧ k.lineFull (8 * b + i) then 2 ^ i else 0)).sum)

/-- Tile state (R403). -/
def tileImage (k : Crew) : List Byte :=
  rdList k.tile 0 (1024 * k.image.tilekib) ++ k.td.flatMap (fun d => natLe 16 d.toNat) ++ k.sh.flatMap (fun d => natLe 64 d.toNat)

/-- An accumulator: its elements, then its poison bitmap (R265, R403). -/
def accImage (a : Acc) : List Byte :=
  (List.range 4096).flatMap (fun i => natLe 4 (a.elems.get i).toNat)
    ++ (List.range 512).map (fun b => BitVec.ofNat 8 ((List.range 8).map (fun i => (a.poison.get (8 * b + i)).toNat * 2 ^ i)).sum)

/-- The record of a request whose destination barrier lies in the crew (R389). -/
def reqImage (now : Nat) (r : Req) : List Byte :=
  let next := match r.ungr with | q :: _ => q.1 | [] => r.len
  natLe 32 (r.mid % 2 ^ 32 * 2 ^ 224 + r.peer % 2 ^ 12 * 2 ^ 212 + r.prio % 8 * 2 ^ 209 + b2n (decide (r.st = .suspended ∨ r.st = .frozenSusp)) * 2 ^ 208
    + r.unused % 4 * 2 ^ 206 + r.len % 2 ^ 23 * 2 ^ 183 + next % 2 ^ 23 * 2 ^ 160 + (r.len - rangeSum r.unland) % 2 ^ 23 * 2 ^ 137
    + (now - r.spoke) / 1000 % 2 ^ 32 * 2 ^ 96 + r.rword.toNat)

/-- Sections of an image, each on a 256-byte boundary. -/
def sections (ss : List (List Byte)) : List Byte := ss.flatMap (fun b => padTo (alignUp b.length 256) b)

/-- The operation is one of the crew. -/
def Op.ofCrew (ci : Nat) (o : Op) : Bool := decide (o.crew = ci)

/-- Receiver `j` of an MCAST is a saved crew. -/
def State.recvSaved (s : State) (o : Op) (c : CpOp) (j : Nat) : Bool :=
  match c.recv[j]? with
  | some d => (match s.crewOf (s.launchOf o.crew) d.crew with | some x => s.crewIs (fun q => decide (q.st = .saved)) x | none => false)
  | none => false

/-- What an MCAST has still to deliver waits for saved crews, and every other receiver has been served and its accounting applied (R287,
R289). -/
def State.onlySaved (s : State) (o : Op) (c : CpOp) : Bool :=
  decide (c.fn = 10) && !c.left.isEmpty && c.left.all (fun r => s.recvSaved o c (c.recvOf r.1))
    && c.owed.all (fun q => c.left.any (fun r => decide (c.recvOf r.1 = c.recvOf q.1)))

/-- The operation is withdrawn by a save (R288, R317, R388). -/
def State.withdraws (s : State) (o : Op) : Bool :=
  match o.eng with
  | some (.cp c) => !c.begun || s.onlySaved o c
  | some (.kg g) => g.rows.isEmpty && g.owed.isEmpty && (match s.crews[o.crew]? with | some k => decide (g.left = kgLines k g) | none => false)
  | some (.ka _) => true
  | some (.net n) => !n.rts
  | _ => false

/-- The request is one of the crew: by its destination barrier, or its own operation's (R389). -/
def State.reqOfCrew (s : State) (ci : Nat) (r : Req) : Bool :=
  (match r.bar with | .crew c _ => decide (c = ci) | _ => false)
    || (r.own && s.ops.any (fun o => o.ofCrew ci && (match o.eng with | some (.net n) => decide (n.mid = r.mid) | _ => false)))

/-- The requests of a crew at both Irises. -/
def State.crewReqs (s : State) (ci : Nat) : List Req := [0, 1].flatMap (fun die => (s.iris die).reqs.filter (s.reqOfCrew ci))

/-- A token that may expire is outstanding for a request of the crew (R389). -/
def State.tokensOut (s : State) (ci : Nat) : Bool :=
  [0, 1].any (fun die => (s.iris die).toks.any (fun t => t.expiry.isSome && ((s.iris die).reqs.filter (s.reqOfCrew ci)).any (fun r => t.of r)))

/-- The operation does not hold a save back (R120, R125, R265, R288, R388). -/
def State.saveOk (s : State) (o : Op) : Bool :=
  o.fills.isEmpty && o.sload.isNone
    && (match o.eng with
      | none => true
      | some (.net n) => s.withdraws o || (decide (n.fn = 0 ∨ n.rts) && n.landing.isNone)
      | some _ => s.withdraws o)

/-- Steps 1 to 5 of R405 can end for the crew. -/
def State.saveReady (s : State) (ci : Nat) : Bool :=
  s.crewIs (fun k => decide (k.st = .running)) ci && (s.ops.filter (Op.ofCrew ci)).all s.saveOk && !(s.tokensOut ci)
    && s.ops.all (fun o => match o.eng with | some (.mx m) => !(m.members.any (fun x => decide (x.crew = ci ∧ x.ended = none))) | _ => true)

/-- The contexts of a kind that a crew holds. -/
def State.crewCtxs (s : State) (ci : Nat) (matrix : Bool) : Nat :=
  (s.ctxs.filter (fun c => decide (c.crew = ci ∧ c.matrix = matrix ∧ c.st ≠ .ended))).length

/-- The crew holds a cohort membership (R105). -/
def Crew.bound (k : Crew) : Bool := k.warps.any (fun w => !w.cohorts.isEmpty)

/-- The operations of a crew that a save withdraws, and the transfers that it keeps (R288, R388). -/
def State.withdrawnOps (s : State) (ci : Nat) : List Op := (s.ops.filter (Op.ofCrew ci)).filter s.withdraws
def State.keptNets (s : State) (ci : Nat) : List NetOp :=
  ((s.ops.filter (Op.ofCrew ci)).filter (fun o => !(s.withdraws o))).filterMap (fun o => match o.eng with | some (.net n) => some n | _ => none)

/-- The image after its header (R403). -/
def State.imageBody (s : State) (ci : Nat) (k : Crew) : List Byte :=
  sections [openBytes 1 256 (crewValues k k.bound), k.warps.flatMap warpImage,
    k.warps.flatMap (fun w => w.regs.flatMap regImage), spImage k, tagImage k, tileImage k, k.accs.flatMap accImage,
    (s.ctxs.filter (fun c => decide (c.crew = ci ∧ c.st ≠ .ended))).flatMap (fun c => openBytes 2 1024 (ctxValues c)),
    (s.withdrawnOps ci).flatMap (fun o => openBytes 3 64 (o.eng.elim [] engValues)), (s.keptNets ci).flatMap (fun n => openBytes 4 64 (keptValues n)),
    (s.crewReqs ci).flatMap (reqImage s.dtime)]

/-- The header of an image of `len` units of 256 bytes (R404). -/
def State.imageHeader (s : State) (ci why : Nat) (k : Crew) (nwd nxf len : Nat) : Nat :=
  0x4B435831 * 2 ^ 480 + k.ctxid % 2 ^ 32 * 2 ^ 448 + k.crewid % 2 ^ 24 * 2 ^ 424 + 14 * 2 ^ 416 + why % 2 ^ 8 * 2 ^ 408 + k.image.warps % 2 ^ 8 * 2 ^ 400
    + k.image.regs % 2 ^ 8 * 2 ^ 392 + k.image.scrlines % 2 ^ 16 * 2 ^ 376 + k.image.tilekib % 2 ^ 16 * 2 ^ 360 + k.image.acc % 2 ^ 4 * 2 ^ 356
    + s.crewCtxs ci true % 2 ^ 4 * 2 ^ 352 + s.crewCtxs ci false % 2 ^ 4 * 2 ^ 348
    + (b2n k.bound * 2 ^ 7 + k.die % 2 * 2 ^ 6 + clusterOf k.core % 2 ^ 6) * 2 ^ 340 + nwd % 2 ^ 16 * 2 ^ 304 + nxf % 2 ^ 16 * 2 ^ 288
    + (s.crewReqs ci).length % 2 ^ 32 * 2 ^ 256 + len % 2 ^ 32 * 2 ^ 224 + s.dtime % 2 ^ 64 * 2 ^ 128 + k.placed % 2 ^ 64 * 2 ^ 64 + k.image.va.toNat

/-- The whole image (R403, R404). -/
def State.imageOf (s : State) (ci why : Nat) (k : Crew) : List Byte :=
  let body := s.imageBody ci k
  padTo 256 (natLe 64 (s.imageHeader ci why k (s.withdrawnOps ci).length (s.keptNets ci).length ((256 + body.length) / 256))) ++ body

/-- A request of the crew is FROZEN, with the time since its sender spoke (R389). -/
def freezeReq (now : Nat) (r : Req) : Req :=
  { r with st := if r.st = .suspended ∨ r.st = .frozenSusp then .frozenSusp else .frozen, frozenAt := now, silent := now - r.spoke }

/-- A request of the crew goes on after the restore. -/
def thawReq (now : Nat) (r : Req) : Req :=
  { r with st := if r.st = .frozenSusp then .suspended else if r.st = .frozen then .queued else r.st, spoke := now - r.silent }

/-- Changes the requests of a crew at both Irises. -/
def State.mapReqs (s : State) (ci : Nat) (f : Req → Req) : State :=
  let p := s.reqOfCrew ci
  let g := fun (x : Iris) => { x with reqs := x.reqs.map (fun r => if p r then f r else r) }
  (s.modIris 0 g).modIris 1 g

/-- The requests of a saved crew return to the Iris of its home die, with their tokens none (R389). -/
def State.reqsHome (s : State) (ci die : Nat) : State :=
  let here := fun (r : Req) => s.reqOfCrew ci r && !r.own
  let away := (s.iris (1 - die)).reqs.filter here
  (s.modIris (1 - die) (fun x => { x with reqs := x.reqs.filter (fun r => !(here r)) })).modIris die (fun x =>
    { x with reqs := x.reqs ++ mapFrom (fun i (r : Req) => { r with seq := x.next + i }) 0 away, next := x.next + away.length })

/-- The GETs of a crew count anew from now on (R379, R388). -/
def State.asksAnew (s : State) (ci : Nat) : State :=
  { s with ops := s.ops.map (fun o => match o.eng with
    | some (.net n) => if o.ofCrew ci ∧ n.fn = 1 then { o with eng := some (.net { n with asks := n.asks.map (fun a => (a.1, a.2.1, s.dtime)) }) } else o
    | _ => o) }

/-- The PUTs of a crew that have sent their request (R388). -/
def State.keptPuts (s : State) (ci : Nat) : List (Op × NetOp) :=
  s.ops.filterMap (fun o => if o.ofCrew ci then (match o.eng with | some (.net n) => if n.fn = 0 ∧ n.rts then some (o, n) else none | _ => none) else none)

/-- The image area of a context and where its next image goes, where `n` bytes fit (R407). -/
def State.saveRoom (s : State) (ctx n : Nat) : Option SaveArea :=
  match s.saves.find? (fun a => decide (a.ctxid = ctx)) with
  | some a => if a.used + n ≤ a.len then some a else none
  | none => none

/-- An operation as it is withdrawn: what it has not delivered is read again at restore (R288, R289). -/
def Op.withdrawn (o : Op) : Op :=
  match o.eng with
  | some (.cp c) => { o with eng := some (.cp { c with unread := c.left, dies := [], tried := none }) }
  | _ => o

/-- Saves a crew (R405): its image is written, its operations are withdrawn or kept, its resources are free. -/
def State.saveCrew (s : State) (ci why : Nat) (k : Crew) (a : SaveArea) (img : List Byte) : State :=
  let s1 := (s.wrL (memKey a.tgt (a.base + a.used)) img).mapReqs ci (freezeReq s.dtime)
  let s2 := (s.keptPuts ci).foldl (fun s p => s.send (rwDev p.2.rword) p.2.mid (.relinquish p.2.tokens)) s1
  let out := fun (o : Op) => o.ofCrew ci && s.withdraws o
  let mine := fun (t : ThreadRef) => match t with
    | .warp c _ => decide (c = ci)
    | .ctx x => (match s.ctxs[x]? with | some c => decide (c.crew = ci) | none => false)
  let s3 : State := { s2 with
    ops := s2.ops.filter (fun o => !(out o)), withdrawn := s2.withdrawn ++ (s2.ops.filter out).map Op.withdrawn
    pgWaits := s2.pgWaits.filter (fun p => !(mine p.who)), forkQ := s2.forkQ.filter (fun f => decide (f.crew ≠ ci))
    saves := s2.saves.map (fun x => if x.ctxid = k.ctxid then { x with used := x.used + img.length } else x) }
  s3.modCrew ci (fun k => { k with st := .saved, savedWhy := why, savedAt := memKey a.tgt (a.base + a.used) })

/-- The command in progress that saves the crews of a context (R407): its die, and the command. -/
def State.preempting (s : State) (ctx : Nat) : Option (Nat × PendCmd) :=
  (mapFrom (fun i d => (i, d)) 0 s.dies).findSome? (fun p => match p.2.pend with
    | some c => (match c.kind with | .preempt x _ => if x = ctx then some (p.1, c) else none | _ => none)
    | none => none)

/-- One more crew has been saved by a CTXPREEMPT. -/
def State.countSaved (s : State) (die : Nat) : State :=
  s.modDie die (fun d => { d with pend := d.pend.map (fun c => match c.kind with | .preempt x n => { c with kind := .preempt x (n + 1) } | _ => c) })

/-- The crews that a CTXPREEMPT has saved. -/
def PendCmd.saved (c : PendCmd) : Nat := match c.kind with | .preempt _ n => n | _ => 0

/-- CREW_SAVE: for a CTXPREEMPT with WHY 0, or a rescheduling of firmware with WHY 2 (R405, R407). A save that does not fit ends the
command with status 3. -/
def State.crewSave (s : State) (ci why : Nat) : State :=
  match s.crews[ci]? with
  | none => s
  | some k =>
    if !(s.saveReady ci) ∨ (why ≠ 0 ∧ why ≠ 2) then s
    else
      let img := s.imageOf ci why k
      match s.preempting k.ctxid, s.saveRoom k.ctxid img.length with
      | some (die, c), none => if why = 0 then s.endCmd die c 3 c.saved else s
      | some (die, _), some a =>
        if why = 0 then ((s.saveCrew ci 0 k a img).countSaved die).preemptCheck else (s.saveCrew ci 2 k a img).preemptCheck
      | none, some a => if why = 2 then s.saveCrew ci 2 k a img else s
      | none, none => s

/-- The copy-engine operations of a saved crew, withdrawn or kept. -/
def State.crewCopies (s : State) (ci : Nat) : Nat := ((s.ops ++ s.withdrawn).filter (fun o => o.isCopy && o.ofCrew ci)).length

/-- A core of the crew's die that can take it back, its copy engine with room for the crew's operations (R105, R280, R288, R406). -/
def State.restoreOk (s : State) (ci core : Nat) (k : Crew) : Bool :=
  decide (core < 268 ∧ (264 ≤ core ↔ k.ctl = true)) && s.fits k.image k.launch (k.die, core)
    && decide (s.heldCtxs { k with core := core } true + s.crewCtxs ci true ≤ 4 ∧ s.heldCtxs { k with core := core } false + s.crewCtxs ci false ≤ 4)
    && (!k.bound || decide (clusterOf core = clusterOf k.core))
    && decide (s.cpCount { k with core := core } + s.crewCopies ci ≤ 64)

/-- The barriers on which entries and contexts of a crew are parked. -/
def State.parkedOn (s : State) (ci : Nat) (k : Crew) : List Nat :=
  ((k.warps.flatMap (fun w => w.frontier.filterMap (fun e => match e.wait with | some (.bar o _ _) => some o | _ => none)))
    ++ s.ctxs.filterMap (fun c => match c.wait with | some (.bar o _ _) => if c.crew = ci then some o else none | _ => none)).eraseDups

/-- A frontier entry of an image (R92); what a parked one awaits is that of the record (log entry 11). -/
def loadEntry (kept : List Entry) (v : Nat) : Option Entry :=
  let st := match bits v 1 0 with | 0 => EntState.ready | 1 => .parked | _ => .held
  let e : Entry := ⟨BitVec.ofNat 16 (bits v 31 16), BitVec.ofNat 32 (bits v 63 32), st, BitVec.ofNat 64 (bits v 127 64), none⟩
  if e.mask = 0 then none else some { e with wait := (kept.find? (fun x => decide (x.mask = e.mask ∧ x.pc = e.pc ∧ x.st = e.st))).bind (fun x => x.wait) }

/-- A loop entry of an image (R95). -/
def loadLoop (v : Nat) : Option LoopEnt :=
  if v % 2 = 0 then none
  else some ⟨BitVec.ofNat 32 (bits v 63 32), BitVec.ofNat 32 (bits v 95 64), BitVec.ofNat 32 (bits v 127 96), BitVec.ofNat 64 (bits v 191 128),
    BitVec.ofNat 64 (bits v 255 192)⟩

/-- A loop stack of an image at a key, lp0 first. -/
def State.loadLoops (s : State) (key : Nat) : List LoopEnt := ((List.range 4).filterMap (fun i => loadLoop (s.rd (key + 32 * i) 32))).reverse

/-- Eight-byte values of an image. -/
def State.loadWords (s : State) (key n : Nat) : List W64 := (List.range n).map (fun i => BitVec.ofNat 64 (s.rd (key + 8 * i) 8))

/-- The CSRs of a warp record at a key (R398, R403). -/
def State.loadCsrs (s : State) (key : Nat) (w : Warp) : Warp :=
  let v := fun i => s.rd (key + 8 * i) 8
  { w with
    rmode := BitVec.ofNat 3 (v 0), ftz := BitVec.ofNat 3 (v 1), trapcause := BitVec.ofNat 64 (v 2), trappc := BitVec.ofNat 64 (v 3)
    trapinfo := BitVec.ofNat 64 (v 4), hact := decide (bits (v 5) 63 63 = 1), nkill := BitVec.ofNat 8 (bits (v 5) 15 8), tlen := BitVec.ofNat 4 (v 5)
    hmask := BitVec.ofNat 64 (v 6), faultdet := BitVec.ofNat 64 (v 7), poisonva := BitVec.ofNat 64 (v 8), sqtcause := BitVec.ofNat 64 (v 9)
    sqtpc := BitVec.ofNat 64 (v 10), sqtinfo := BitVec.ofNat 64 (v 11) }

/-- A register image at a key (R122): a lane whose bytes are poisoned is. -/
def State.loadReg (s : State) (key : Nat) (r : VReg) : VReg :=
  let sf := s.bad (key + 256) 16
  mapFrom (fun i (l : Lane) => ⟨BitVec.ofNat 32 (s.rd (key + 4 * i) 4), decide (s.rd (key + 256 + i / 8) 1 / 2 ^ (i % 8) % 2 = 1),
    decide (s.rd (key + 264 + i / 8) 1 / 2 ^ (i % 8) % 2 = 1), false, l.poison || s.bad (key + 4 * i) 4 || sf⟩) 0 r

/-- A warp record at a key, and the warp's register images at another (R403). -/
def State.loadWarp (s : State) (key regs : Nat) (w : Warp) : Warp :=
  s.loadCsrs (key + 2104)
    { w with
      frontier := (List.range 80).filterMap (fun i => loadEntry w.frontier (s.rd (key + 16 * i) 16))
      loops := s.loadLoops (key + 1280), shadow := s.loadLoops (key + 1408), sregs := s.loadWords (key + 1536) 64
      spoison := w.spoison ||| maskOf (fun i => s.bad (key + 1536 + 8 * i) 8), mregs := s.loadWords (key + 2048) 7 ++ w.mregs.drop 7
      mpoison := w.mpoison ||| BitVec.ofNat 8 (((List.range 7).map (fun i => b2n (s.bad (key + 2048 + 8 * i) 8) * 2 ^ (i + 1))).sum)
      regs := mapFrom (fun i r => s.loadReg (regs + 272 * i) r) 0 w.regs }

/-- The bytes of an image as a memory of a crew, and its poisoned words with those that were. -/
def State.loadBytes (s : State) (key n : Nat) : Sparse 8 := wrList [] 0 (rdList s.mem key n)
def State.loadPoison (s : State) (key n : Nat) (was : Sparse 1) : Sparse 1 :=
  (List.range (n / 4)).foldl (fun m i => if s.bad (key + 4 * i) 4 then m.set i 1 else m) was

/-- The lines of an allocation of an image (R172): one whose writers are issued again keeps their count. -/
def State.loadLines (s : State) (key n : Nat) (was : Sparse 5) : Sparse 5 :=
  (List.range n).foldl (fun m i =>
    if (was.get i).toNat / 2 ≠ 0 then m else m.set i (if s.rd (key + i / 8) 1 / 2 ^ (i % 8) % 2 = 1 then 0 else 1)) was

/-- The tag partition of an image, in its recency order (R178, R179). -/
def State.loadTags (s : State) (key n : Nat) : List (Nat × W32) :=
  let ent := fun i => s.rd (key + 8 * i) 8
  (List.range n).flatMap (fun rank => ((List.range n).filter (fun i => decide (bits (ent i) 32 32 = 1 ∧ bits (ent i) 40 33 = rank))).map
    (fun i => (i, BitVec.ofNat 32 (ent i))))

/-- An accumulator of an image (R265): full. -/
def State.loadAcc (s : State) (key : Nat) : Acc :=
  { elems := (List.range 4096).foldl (fun m i => m.set i (BitVec.ofNat 32 (s.rd (key + 4 * i) 4))) [], full := true
    poison := (List.range 4096).foldl (fun m i =>
      if s.rd (key + 16384 + i / 8) 1 / 2 ^ (i % 8) % 2 = 1 ∨ s.bad (key + 4 * i) 4 then m.set i 1 else m) [] }

/-- The offsets in an image of the sections from the register images to the accumulators (R403). -/
def imgRegs (i : Image) : Nat := 512 + 3072 * i.warps
def imgSpad (i : Image) : Nat := imgRegs i + alignUp (i.warps * i.regs * 272) 256
def imgTags (i : Image) : Nat := imgSpad i + alignUp (128 * i.scrlines + (i.scrlines + 7) / 8) 256
def imgTile (i : Image) : Nat := imgTags i + alignUp (64 * i.warps) 256
def imgAccs (i : Image) : Nat := imgTile i + 1024 * i.tilekib + 1280

/-- The crew as the image at its place in the save area says (R403, R406); what R403 does not lay out is as the record has it (log entry
11). -/
def State.loadCrew (s : State) (k : Crew) : Crew :=
  let i := k.image
  let a := k.savedAt
  { k with
    warps := mapFrom (fun w x => s.loadWarp (a + 512 + 3072 * w) (a + imgRegs i + 272 * i.regs * w) x) 0 k.warps
    sp := s.loadBytes (a + imgSpad i) (128 * i.scrlines), spPoison := s.loadPoison (a + imgSpad i) (128 * i.scrlines) k.spPoison
    lines := s.loadLines (a + imgSpad i + 128 * i.scrlines) i.scrlines k.lines
    tags := s.loadTags (a + imgTags i) (8 * i.warps)
    tagPoison := (List.range (8 * i.warps)).foldl (fun m t => if s.bad (a + imgTags i + 8 * t) 8 then m.set t 1 else m) k.tagPoison
    tile := s.loadBytes (a + imgTile i) (1024 * i.tilekib), tilePoison := s.loadPoison (a + imgTile i) (1024 * i.tilekib) k.tilePoison
    td := (List.range 16).map (fun j => BitVec.ofNat 128 (s.rd (a + imgTile i + 1024 * i.tilekib + 16 * j) 16))
    sh := (List.range 16).map (fun j => BitVec.ofNat 512 (s.rd (a + imgTile i + 1024 * i.tilekib + 256 + 64 * j) 64))
    accs := mapFrom (fun j _ => s.loadAcc (a + imgAccs i + 16896 * j)) 0 k.accs }

/-- Restores a crew (R406): its image, requests at its die's Iris, held updates, RESUME for kept transfers, withdrawn operations. -/
def State.restoreCrew (s : State) (ci core : Nat) (k : Crew) : State :=
  let s1 := (((s.mapReqs ci (thawReq s.dtime)).reqsHome ci k.die).asksAnew ci).modCrew ci (fun k =>
    { s.loadCrew k with st := .running, core := core, placed := s.dtime })
  let held := s1.heldUpds.filter (fun u => decide (u.1 = ci))
  let s2 := held.foldl (fun s u => s.barUpdBy u.2.2.2 ci u.2.1 u.2.2.1) { s1 with heldUpds := s1.heldUpds.filter (fun u => decide (u.1 ≠ ci)) }
  let s3 := (s2.parkedOn ci k).foldl (fun s off => s.wakeBar ci off) s2
  let s4 := (s3.keptPuts ci).foldl (fun s p => (s.setNet p.1.id { p.2 with last := s.dtime }).send (rwDev p.2.rword) p.2.mid .resume) s3
  let s5 : State := { s4 with ops := s4.ops ++ s4.withdrawn.filter (Op.ofCrew ci), withdrawn := s4.withdrawn.filter (fun o => !(o.ofCrew ci)) }
  if s5.crews.any (fun q => decide (q.ctxid = k.ctxid ∧ q.st = .saved)) then s5
  else { s5 with saves := s5.saves.map (fun x => if x.ctxid = k.ctxid then { x with used := 0 } else x) }

/-- A CTXRESUME of the context is in progress (R407). -/
def State.resuming (s : State) (ctx : Nat) : Bool :=
  s.dies.any (fun d => match d.pend with | some c => decide (c.kind = .resume ctx) | none => false)

/-- CREW_RESTORE (R406, R407). -/
def State.crewRestore (s : State) (ci core : Nat) : State :=
  match s.crews[ci]? with
  | none => s
  | some k =>
    if k.st = .saved ∧ (k.savedWhy ≠ 0 ∨ s.resuming k.ctxid) ∧ s.restoreOk ci core k then (s.restoreCrew ci core k).preemptCheck else s

/-- The crew that has been resident longest on a core, for at least 1 ms (R411). -/
def State.oldest (s : State) (die core : Nat) : Option Nat :=
  (List.range s.crews.length).foldl (fun b ci =>
    match s.crews[ci]?, b with
    | some k, none => if k.die = die ∧ k.core = core ∧ k.st = .running ∧ k.placed + 1000000 ≤ s.dtime then some ci else none
    | some k, some x =>
      if k.die = die ∧ k.core = core ∧ k.st = .running ∧ k.placed + 1000000 ≤ s.dtime ∧ s.crewIs (fun q => decide (k.placed < q.placed)) x then some ci else b
    | none, b => b) none

/-- THERMAL_MIGRATION (R411): a save with WHY 1 and a restore at once, reported as an event (R397); which cores are hot and cool is the sensors' matter. -/
def State.migrate (s : State) (die src dst : Nat) : State :=
  match s.dies[die]?, s.oldest die src with
  | some d, some ci =>
    (match s.crews[ci]? with
    | none => s
    | some k =>
      let img := s.imageOf ci 1 k
      match s.saveRoom k.ctxid img.length with
      | none => s
      | some a =>
        if src ≠ dst ∧ s.saveReady ci ∧ s.restoreOk ci dst k ∧ d.moved.all (fun m => decide (m.1 ≠ src ∨ m.2 + 1000000 ≤ s.dtime)) then
          (((s.saveCrew ci 1 k a img).restoreCrew ci dst k).modDie die (fun d =>
            { d with moved := (src, s.dtime) :: d.moved.filter (fun m => decide (m.1 ≠ src)) })).event die src .migration dst false
        else s)
  | _, _ => s

/-- The budget that has taken effect. -/
def State.budgetWindow (s : State) (die : Nat) : State :=
  let b := s.powerBudget die
  s.modDie die (fun d => { d with budget := b, nextBudget := if d.budget = b then d.nextBudget else none })

/-- A core's allowances for the next window, between 25 % and 100 %, at most 50 % under the clamp (R408, R409). -/
def State.setAllowance (s : State) (die core vec mat : Nat) : State :=
  let top := if s.clamp.getLsbD die then 50 else 100
  if 25 ≤ vec ∧ vec ≤ top ∧ 25 ≤ mat ∧ mat ≤ top ∧ die < 2 ∧ core < 268 then
    { s with throttle := s.throttle.set (coreKey die core) (BitVec.ofNat 16 ((100 - vec) * 256 + (100 - mat))) }
  else s

/-- A grant of a core for the window that begins (R408): one for each core and window, of which neither allowance has fallen further than
that of the larger consumer (log entry 116); one that falls is reported (R397). -/
def State.grantPower (s : State) (die core vec mat : Nat) : State :=
  match s.dies[die]? with
  | none => s
  | some d =>
    let w := s.dtime / 1000
    let falls := if Config.matrixLeads die core w then decide (mat ≤ vec) else decide (vec ≤ mat)
    if d.granted.contains (core, w) ∨ !falls then s
    else
      let a := s.allowance die core
      let s1 := (s.setAllowance die core vec mat).modDie die (fun d => { d with granted := (core, w) :: d.granted.filter (fun g => decide (g.1 ≠ core)) })
      let b := s1.allowance die core
      if b.1 < a.1 ∨ b.2 < a.2 then s1.event die core .power (256 * b.1 + b.2) false else s1

/-- THERMAL_CLAMP (R409): both allowances of every core at most 50 %; reported where it begins (R397). -/
def State.clampDie (s : State) (die : Nat) : State :=
  if 2 ≤ die then s
  else
    let s1 := (List.range 268).foldl (fun s core =>
      let a := s.allowance die core
      s.setAllowance die core (min a.1 50) (min a.2 50)) { s with clamp := s.clamp ||| (1#2 <<< die) }
    if s.clamp.getLsbD die then s1 else s1.event die 0 .clamp 0 false

/-- The clamp of a die ends (R409): reported (R397). -/
def State.unclamp (s : State) (die : Nat) : State :=
  if die < 2 ∧ s.clamp.getLsbD die then ({ s with clamp := s.clamp &&& ~~~(1#2 <<< die) } : State).event die 0 .clampEnd 0 false else s

/-- The frames of the page engines that hold a byte of memory, as die and frame (R292). -/
def State.framesAt (s : State) (key : Nat) : List (Nat × Nat) :=
  [0, 1].flatMap (fun die => (s.pe die).ranges.filterMap (fun r =>
    let base := memKey (tierTgt die r.tier) r.fbase
    let i := (key - base) / 2 ^ (s.pe die).frshift
    if base ≤ key ∧ i < r.count ∧ (2 ≤ r.tier ∨ r.tier = die) then some (die, r.tier * 2 ^ 29 + r.first + i) else none))

/-- A frame with an error becomes LOST, and is reported (R307, R414). -/
def State.loseFrame (s : State) (die f : Nat) : State :=
  if feState (s.frEnt die f) = 0 then s else (s.modFr die f (fun e => setBits e 31 31 1)).event die 0 .frame f false

/-- An error in the storage of a warp's frontier, loop stack or CSRs kills its threads with cause 11 (R413); TRAPPC and TRAPINFO are not
stated. -/
def State.killWarp (s : State) (ci wi : Nat) : State :=
  match s.warp? ci wi with
  | none => s
  | some w =>
    let m := w.liveMask ||| w.loops.foldl (fun a l => a ||| l.members) 0
    let t : Trap := ⟨11, Config.free s.free, none, 0⟩
    let s1 := (s.modCrew ci (fun k => k.kill 11 s.nextKill)).modWarp ci wi (fun w =>
      { w.recordTrap (BitVec.ofNat 32 (Config.free (s.free + 1)).toNat) t with nkill := addKill w.nkill (popMask m) })
    { s1 with free := s1.free + 2 }.endThreads ci wi m true

/-- Marks a granule of a crew. -/
def Crew.poisonGranule (k : Crew) : Granule → Crew
  | .lane _ wi reg lane => k.modWarp wi (fun w => w.setLanes reg (1#64 <<< lane) (fun i => { w.lane reg i with poison := true }))
  | .scalar _ wi reg => if 1 ≤ reg ∧ reg < 64 then k.modWarp wi (fun w => { w with spoison := w.spoison ||| (1#64 <<< reg) }) else k
  | .mask _ wi reg => if 1 ≤ reg ∧ reg < 8 then k.modWarp wi (fun w => { w with mpoison := w.mpoison ||| (1#8 <<< reg) }) else k
  | .scratch _ word => if 4 * word < k.z then { k with spPoison := k.spPoison.set word 1 } else k
  | .tile _ word => if 4 * word < 1024 * k.image.tilekib then { k with tilePoison := k.tilePoison.set word 1 } else k
  | .acc _ a elem => if elem < 4096 then { k with accs := modAt k.accs a (fun x => { x with poison := x.poison.set elem 1 }) } else k
  | .tag _ slot => if slot < 8 * k.image.warps then { k with tagPoison := k.tagPoison.set slot 1 } else k
  | _ => k

/-- The crew of a granule. -/
def granuleCrew : Granule → Option Nat
  | .lane ci _ _ _ => some ci
  | .scalar ci _ _ => some ci
  | .mask ci _ _ => some ci
  | .scratch ci _ => some ci
  | .tile ci _ => some ci
  | .acc ci _ _ => some ci
  | .tag ci _ => some ci
  | .core ci _ => some ci
  | .ctxScalar _ _ => none
  | .cacheWord _ => none
  | .block _ => none

/-- The crew in whose storage a granule lies. -/
def State.granuleOwner (s : State) (g : Granule) : Option Nat :=
  match g with
  | .ctxScalar x _ => s.ctxs[x]?.map (fun c => c.crew)
  | g => granuleCrew g

/-- Where a granule lies: die and core. -/
def State.granuleAt (s : State) (g : Granule) : Nat × Nat :=
  match s.granuleOwner g with
  | some ci => (match s.crews[ci]? with | some k => (k.die, k.core) | none => (0, 0))
  | none => (match g with | .block b => (keyDie (32 * b), 0) | .cacheWord w => (keyDie (4 * w), 0) | _ => (0, 0))

/-- The number of a granule's structure in a record (R412, R414). -/
def structNo : Granule → Nat
  | .lane _ _ _ _ => 0
  | .scalar _ _ _ => 1
  | .mask _ _ _ => 2
  | .scratch _ _ => 3
  | .tile _ _ => 4
  | .acc _ _ _ => 5
  | .tag _ _ => 6
  | .core _ _ => 7
  | .ctxScalar _ _ => 8
  | .cacheWord _ => 9
  | .block _ => 10

/-- Where a granule lies in its structure, as a record names it: with the crew, or by its address. -/
def granuleNo : Granule → Nat
  | .lane ci wi reg lane => ci * 2 ^ 32 + (wi * 128 + reg) * 64 + lane
  | .scalar ci wi reg => ci * 2 ^ 32 + wi * 64 + reg
  | .mask ci wi reg => ci * 2 ^ 32 + wi * 8 + reg
  | .scratch ci word => ci * 2 ^ 32 + word
  | .tile ci word => ci * 2 ^ 32 + word
  | .acc ci a elem => ci * 2 ^ 32 + a * 4096 + elem
  | .tag ci slot => ci * 2 ^ 32 + slot
  | .core ci wi => ci * 2 ^ 32 + wi
  | .ctxScalar x reg => x * 2 ^ 32 + reg
  | .cacheWord w => 4 * w
  | .block b => 32 * b

/-- A granule of memory at a key loses its frame, and the error is recorded (R414). -/
def State.memError (s : State) (g : Granule) (key : Nat) : State :=
  ((s.framesAt key).foldl (fun s p => s.loseFrame p.1 p.2) s).event (s.granuleAt g).1 0 (.granule (structNo g)) (granuleNo g) false

/-- A byte of the package's own memories. -/
def deviceKey (key : Nat) : Bool := decide (key < 3 * 2 ^ 52 ∧ keyPa key < tgtSize (keyTgt key))

/-- UNCORRECTABLE_ERROR (R412 to R414). -/
def State.uncorrectable (s : State) (g : Granule) : State :=
  let at_ := s.granuleAt g
  let rec_ := fun (t : State) => t.event at_.1 at_.2 (.granule (structNo g)) (granuleNo g) false
  match g with
  | .block b => if deviceKey (32 * b) then ({ s with memPoison := s.memPoison.set b 1 } : State).memError g (32 * b) else s
  | .cacheWord w => if deviceKey (4 * w) then ({ s with wordPoison := s.wordPoison.set w 1 } : State).memError g (4 * w) else s
  | .ctxScalar x r =>
    (match s.ctxs[x]? with
    | some c =>
      if c.st ≠ .ended ∧ s.crewIs (fun k => decide (k.st = .running)) c.crew ∧ 1 ≤ r ∧ r < c.sregs.length
      then rec_ (s.modCtx x (fun c => { c with spoison := c.spoison ||| (1#64 <<< r) })) else s
    | none => s)
  | .core ci wi => if s.crewIs (fun k => decide (k.st = .running ∧ wi < k.warps.length)) ci then rec_ (s.killWarp ci wi) else s
  | g =>
    match granuleCrew g with
    | some ci => if s.crewIs (fun k => decide (k.st = .running)) ci then rec_ (s.modCrew ci (fun k => k.poisonGranule g)) else s
    | none => s

/-- The count of a structure's corrected errors with one more, and whether a record reports it: at most once per ms (R412, R414). -/
def State.countError (s : State) (x : Nat) : ErrCount × Bool :=
  let c := (s.errs.find? (fun c => decide (c.struct = x))).getD ⟨x, 0, none⟩
  let tell := match c.told with | some t => decide (t + 1000000 ≤ s.dtime) | none => true
  (⟨x, c.count + 1, if tell then some s.dtime else c.told⟩, tell)

/-- CORRECTABLE_ERROR: corrected, written back and counted by its structure, die and core; nothing else changes (R412, R414). -/
def State.correctable (s : State) (g : Granule) : State :=
  let at_ := s.granuleAt g
  let r := s.countError (structNo g + 16 * (512 * at_.1 + at_.2))
  let s1 : State := { s with errs := r.1 :: s.errs.filter (fun c => decide (c.struct ≠ r.1.struct)) }
  if r.2 then s1.event at_.1 at_.2 (.count (structNo g)) r.1.count true else s1

/-- CREW_SAVE (R405). -/
def execCrewSave (crew why : Nat) (s : State) : Host.Outcome State Fault Refusal := .next (s.byWork (fun s => s.crewSave crew why))
/-- CREW_RESTORE (R406). -/
def execCrewRestore (crew core : Nat) (s : State) : Host.Outcome State Fault Refusal := .next (s.byWork (fun s => s.crewRestore crew core))
/-- POWER_WINDOW (R408): the manager works under the budget of the window that begins. -/
def execPowerWindow (die core vec mat : Nat) (s : State) : Host.Outcome State Fault Refusal :=
  .next ((s.budgetWindow die).grantPower die core vec mat)
/-- THERMAL_CLAMP (R409). -/
def execThermalClamp (die : Nat) (s : State) : Host.Outcome State Fault Refusal := .next (s.clampDie die)
/-- THERMAL_CLAMP_RELEASE (R409). -/
def execThermalClampRelease (die : Nat) (s : State) : Host.Outcome State Fault Refusal :=
  .next (s.unclamp die)
/-- THERMAL_MIGRATION (R411). -/
def execThermalMigration (die src dst : Nat) (s : State) : Host.Outcome State Fault Refusal := .next (s.byWork (fun s => s.migrate die src dst))
/-- UNCORRECTABLE_ERROR (R412). -/
def execUncorrectableError (g : Granule) (s : State) : Host.Outcome State Fault Refusal := .next (s.uncorrectable g)
/-- CORRECTABLE_ERROR (R412, R414). -/
def execCorrectableError (g : Granule) (s : State) : Host.Outcome State Fault Refusal := .next (s.correctable g)

end Sys2Proof.Machine
end

