-- ==== Sys2Proof/Machine/Boot.lean ====
section
/-! DEFINITION. Cold reset, the loss of power, function reset and the firmware watchdog (R416, R422 to R429). -/
namespace Sys2Proof.Machine

/-- The ROM takes the firmware image (R425): its public key is that of its slot, the slot is not revoked, and the signature over the
manifest and the image digest holds. -/
def imageSigned (b : BootInput) : Bool :=
  decide (b.slot < 4 ∧ Config.shake256 b.pub = Config.fuseDigest b.fuses b.slot) && !(Config.fuseRevoked b.fuses b.slot)
    && Config.falconOk b.pub (b.manifest ++ bytes64 (Config.shake256 b.image)) b.sig

/-- The FAILCODE with which a stage of a boot ends, 0 where it succeeds (R11, R423, R425); `fused` is the version counter. -/
def stageFail (b : BootInput) (fused : Nat) : Nat → Nat
  | 2 => if b.cores0 < 264 then 3 else if b.cores1 < 264 then 4 else 0
  | 3 => if !b.memOk then 5 else if !b.bridgeOk then 6 else 0
  | 4 => if !(imageSigned b) then 1 else if b.version < fused then 2 else 0
  | 5 => if !b.heartbeat then 7 else 0
  | _ => 0

/-- STATE after a stage of a boot that succeeded (R423). -/
def stageNext : Nat → Nat
  | 3 => 2
  | 4 => 3
  | 5 => 4
  | _ => 1

/-- What the loss of power leaves (R416): the fuses, the staged map in the flash, and what lies outside the package, of which the model
holds host memory and what the host saw. -/
def State.powerLoss (s : State) : State :=
  { State.reset with
    agenda := s.agenda, free := s.free, mem := s.mem.filter (fun p => decide (3 * 2 ^ 52 ≤ p.1)), irqs := s.irqs, hostSaw := s.hostSaw
    boot := { State.reset.boot with fused := s.boot.fused, staged := s.boot.staged } }

/-- A cold reset (R416, R423): the boot ROM begins; each stage of the boot is a turn of its own. -/
def State.coldReset (s : State) (b : BootInput) : State :=
  let s1 := s.powerLoss
  { s1 with boot := { s1.boot with stat := 1, run := some (1, b) } }

/-- A measurement register is extended (R424). -/
def Boot.extended (m : Boot) (i : Nat) (item : List Byte) : Boot :=
  { m with meas := modAt m.meas i (fun v => extend v (bytes64 (Config.shake256 item))) }

/-- What a stage of a boot does before its checks (R423 to R425, R429): the fuses are read, the maps applied, the image measured. -/
def State.stageWork (s : State) (b : BootInput) : Nat → State
  | 1 => { s with devid := BitVec.setWidth 64 b.devid, boot := { s.boot.extended 0 b.fuses with fused := min 64 (max s.boot.fused b.fused) } }
  | 2 => { s with boot := { s.boot.extended 1 (b.maps ++ s.boot.staged.getD []) with
                            stat := BitVec.ofNat 64 (b.cores1 % 2 ^ 9 * 2 ^ 41 + b.cores0 % 2 ^ 9 * 2 ^ 32 + 1) } }
  | 4 => { s with boot := (s.boot.extended 2 b.image).extended 3 b.manifest }
  | _ => s

/-- What a stage of a boot does once its checks have passed: firmware runs, and is up; the manifest may advance the counter. -/
def State.stagePassed (s : State) (b : BootInput) : Nat → State
  | 4 => { s with boot := { s.boot with fwver := b.version } }
  | 5 =>
    let beats := List.replicate 4 s.dtime
    { s with
      boot := { s.boot with fused := if b.advance then min 64 (max s.boot.fused b.version) else s.boot.fused }
      dies := s.dies.map (fun d => { d with beats := beats }) }
  | _ => s

/-- BOOTSTAT with another STATE and FAILCODE (R423). -/
def statWith (stat : W64) (state fail : Nat) : W64 := BitVec.ofNat 64 (setBits (setBits stat.toNat 3 0 state) 15 8 fail)

/-- The next stage of the boot in progress (R423): STATE moves on, or is FAIL until the next cold reset. -/
def State.bootStep (s : State) : State :=
  match s.boot.run with
  | none => s
  | some (n, b) =>
    let s1 := s.stageWork b n
    let fail := stageFail b s1.boot.fused n
    if fail ≠ 0 then { s1 with boot := { s1.boot with run := none, stat := statWith s1.boot.stat 5 fail } }
    else
      let s2 := s1.stagePassed b n
      { s2 with boot := { s2.boot with run := if n < 5 then some (n + 1, b) else none, stat := statWith s2.boot.stat (stageNext n) 0 } }

/-- A scheduler core gives its heartbeat (R427). -/
def State.heartbeat (s : State) (die core : Nat) : State := s.modDie die (fun d => { d with beats := modAt d.beats core (fun _ => s.dtime) })

/-- STATE of BOOTSTAT (R423). -/
def State.bootState (s : State) : Nat := s.boot.stat.toNat % 16

/-- Changes STATE. -/
def State.setBootState (s : State) (v : Nat) : State :=
  { s with boot := { s.boot with stat := BitVec.ofNat 64 (setBits s.boot.stat.toNat 3 0 v) } }

/-- A warp whose threads have all ended, without a handler (R422). -/
def Warp.cut (w : Warp) : Warp := { w with frontier := [], loops := [], shadow := [], hact := false, hmask := 0, cohorts := [] }

/-- A crew at a function reset: its threads have ended; what was saved is discarded; no line keeps an operation waiting for what nothing
lands there any more (R422). -/
def Crew.cut (k : Crew) : Crew :=
  { k with warps := k.warps.map Warp.cut, st := if k.st = .saved then .ended else k.st, stepGroup := none, lines := [] }

/-- An operation ends with a function reset without a message: a transfer, a reduction or a remote atomic (R422). -/
def Op.sends (o : Op) : Bool := match o.eng with | some (.net _) => true | some (.ra _ _ _ _ _) => true | _ => false

/-- A live sequence retires with RSN 8 and without a final record (R422). -/
def State.cutSeq (s : State) (die slot : Nat) : State :=
  let r := setBits (s.recOf die slot) 399 396 8
  let s1 := (s.setRec die slot r).releaseAll (rcSeqid r)
  (s1.modSched die (fun d =>
    { d with commit := d.commit - (d.needs.get slot).toNat, needs := d.needs.set slot 0, inbars := d.inbars.set slot 0, gone := d.gone.set slot 0
             gens := d.gens.set slot (BitVec.ofNat 18 ((((d.gens.get slot).toNat + 1) % (2 ^ 18 - 1)))) })).setRec die slot (setBits r 403 400 0)

/-- A live sequence: its die and slot. -/
def State.liveSlot (s : State) : Option (Nat × Nat) :=
  ([0, 1].flatMap (fun die => (s.sched die).needs.map (fun n => (die, n.1)))).find? (fun p => decide (rcState (s.recOf p.1 p.2) ≠ 0))

/-- Stores to host memory that have not been sent across the link are dropped (R422). -/
def Op.cutHost (o : Op) : Op := { o with cells := o.cells.filter (fun c => decide (keyTgt c.key ≠ 3)) }

/-- An MCAST at a function reset delivers nothing to a crew that has not been placed. -/
def State.cutMcast (s : State) (o : Op) : Op :=
  match o.eng with
  | some (.cp c) =>
    if c.fn ≠ 10 then o
    else { o with eng := some (.cp ((List.range c.recv.length).foldl (fun c j =>
      match c.recv[j]? with
      | some d => if (s.crewOf (s.launchOf o.crew) d.crew).isNone ∧ c.restOf j ≠ 0 then c.refuse j else c
      | none => c) c)) }
  | _ => o

/-- The operation goes on after a function reset: it moves nothing to another package, is not done, and a save would not withdraw it (R288,
R422). -/
def State.outlasts (s : State) (o : Op) : Bool := !o.sends && !(o.cutHost).done && !(s.withdraws o)

/-- The requests at an Iris that a function reset drops (R422): a crew's destination barrier, an inbound sequence's, the package's own. -/
def Req.cut (r : Req) : Bool := r.own || (match r.bar with | .none => false | _ => true)

/-- Requests are dropped, and their senders told (R422). -/
def State.cutReqs (s : State) (die : Nat) : State :=
  ((s.iris die).reqs.filter Req.cut).foldl (fun s r =>
    let s1 := s.endReq die r
    if r.own then s1 else s1.workWith r.seen (fun s => s.send r.peer r.mid (.orphaned (some (rangeSum r.unland))))) s

/-- A die's queues, windows and rings at a function reset. -/
def Die.cut (d : Die) : Die :=
  { d with mrbase := 0, mrlogn := 0, mrtail := 0, mrhead := 0, pend := none, aggs := [], devq := []
           sched := { d.sched with iters := List.replicate 16 ⟨0, false, none, none, none, [], none⟩ } }

/-- FUNCTION_RESET (R422): the package leaves READY, except from FAIL and before boot. -/
def State.functionReset (s : State) : State :=
  let s1 := [0, 1].foldl State.cutReqs s
  let s2 : State := { s1 with
    windows := List.replicate 64 0, wlock := false, ev := ⟨0, 0, 0, 0, 0⟩, msix := [], rings := []
    crews := s1.crews.map Crew.cut, ctxs := s1.ctxs.map (fun c => { c with st := .ended, wait := none })
    forkQ := [], cohorts := [], heldUpds := [], coming := [], ops := (s1.ops.filter s.outlasts).map (fun o => s.cutMcast o.cutHost), withdrawn := [], rels := [], pgWaits := []
    dies := s1.dies.map Die.cut, queues := [], jobs := [] }
  if s.boot.run = none ∧ (s.bootState = 3 ∨ s.bootState = 4 ∨ s.bootState = 6) then s2.setBootState 3 else s2

/-- A die's configuration returns to its reset values (R422); the generations of its slots stay. -/
def Die.clear (d : Die) : Die :=
  { d with pe := PageEng.reset, sched := { Sched.reset with gens := d.sched.gens }, iris := { d.iris with cfg := Iris.cfgReset } }

/-- FUNCTION_RESET_COMPLETE (R422): one scheduler step retires a live sequence; then, once nothing is outstanding any more, what was
configured returns to its reset values and STATE to READY. -/
def State.functionResetDone (s : State) : State :=
  if s.bootState ≠ 3 ∨ s.boot.run ≠ none then s
  else
    match s.liveSlot with
    | some p => s.cutSeq p.1 p.2
    | none =>
      if s.ops ≠ [] then s
      else
        ({ s with
          crews := s.crews.map (fun k => { k with st := .ended }), steps := [], wins := [], redgrps := [], saves := [], roots := []
          xlat := [], xfers := [], dies := s.dies.map Die.clear } : State).setBootState 4

/-- A scheduler core of the die has given no heartbeat for 10 ms (R427). -/
def State.silent (s : State) (die : Nat) : Bool :=
  match s.dies[die]? with | some d => d.beats.any (fun t => decide (t + 10000000 ≤ s.dtime)) | none => false

/-- WATCHDOG_TIMEOUT (R427): the die whose firmware is silent stops dispatch; crews run on. -/
def State.watchdog (s : State) (die : Nat) : State :=
  if die < 2 ∧ s.boot.run = none ∧ (s.bootState = 3 ∨ s.bootState = 4 ∨ s.bootState = 6) ∧ s.silent die = true then
    let s1 := s.modDie die (fun d => { d with stopped := true })
    { s1 with boot := { s1.boot with stat := statWith s1.boot.stat 6 7 } }
  else s

/-- COLD_RESET (R423). -/
def execColdReset (b : BootInput) (s : State) : Host.Outcome State Fault Refusal := .next (s.coldReset b)
/-- POWER_LOSS (R416). -/
def execPowerLoss (s : State) : Host.Outcome State Fault Refusal := .next s.powerLoss
/-- FUNCTION_RESET (R422). -/
def execFunctionReset (s : State) : Host.Outcome State Fault Refusal := .next s.functionReset
/-- FUNCTION_RESET_COMPLETE (R422). -/
def execFunctionResetComplete (s : State) : Host.Outcome State Fault Refusal := .next s.functionResetDone
/-- WATCHDOG_TIMEOUT (R427). -/
def execWatchdogTimeout (die : Nat) (s : State) : Host.Outcome State Fault Refusal := .next (s.watchdog die)

end Sys2Proof.Machine
end

