-- ==== Sys2Proof/Machine/Control.lean ====
section
/-! DEFINITION. Control flow, traps and cohorts as instructions (R106 to R112, R402). -/
namespace Sys2Proof.Machine

/-- The loop stack of the issuer, innermost first (R95, R267). -/
def loopsOf (s : State) (e : Env) : List LoopEnt :=
  match e.who with
  | .warp _ _ => match e.w? s with | some w => w.loops | none => []
  | .ctx x => match s.ctxs[x]? with | some c => c.loops | none => []

/-- The target of a B-format word: OFF16 parcels from the word (R106). -/
def bTarget (e : Env) (off : BitVec 16) : W32 := e.pc + BitVec.ofInt 32 (2 * off.toInt)

/-- The threads `t` take a branch that the loop rules allow; the others of the entry go on at `npc` (R97, R98, R107). -/
def State.branch (s : State) (e : Env) (v : Leave) (t : W64) (tgt : W32) : State :=
  match e.who with
  | .warp c w => s.modWarp c w (fun w => ((w.takeBranch e.k.image v t tgt).moveTo e.k.image (e.m0 &&& ~~~t) e.npc).settle e.k.image)
  | .ctx x =>
    s.modCtx x (fun c =>
      if t = 0 then { c with pc := e.npc, wait := none }
      else
        match v, c.loops with
        | .leave n, ls => { c with pc := tgt, wait := none, loops := ls.drop n }
        | .brk _ stop, _ :: r => { c with pc := stop, wait := none, loops := r }
        | _, _ => { c with pc := tgt, wait := none })

/-- The body of BR and BRS for the taken threads `t` (R107). -/
def branchBody (s : State) (e : Env) (t : W64) (off : BitVec 16) (brk : Bool) : Exe State :=
  match loopCheck (loopsOf s e) t (bTarget e off) brk with
  | .bad info => .error (trapOf 5 info)
  | v => .ok (s.branch e v t (bTarget e off))

/-- BR: the active lanes that m[CR], exclusive-or NEG, names take the branch (R107). -/
def execBr (o : OpBM) (s : State) : Host.Outcome State Fault Refusal :=
  runCtl (.br o) s (fun e => do
    let w ← theWarp s e
    let m ← rdM e w o.m.toNat
    branchBody s e (e.m0 &&& (if o.neg then ~~~m else m)) o.off o.brk)

/-- BRS: the whole entry branches where s[CR] is not 0, exclusive-or NEG (R107). -/
def execBrs (o : OpBS) (s : State) : Host.Outcome State Fault Refusal :=
  runCtl (.brs o) s (fun e => do
    let x ← rdS s e o.s.toNat
    branchBody s e (if decide (x ≠ 0) != o.neg then e.m0 else 0) o.off o.brk)

/-- CALL: the return address to s[CR], every active thread to the target, without a leaving check (R97, R108). -/
def execCall (o : OpBC) (s : State) : Host.Outcome State Fault Refusal :=
  runCtl (.call o) s (fun e => do
    let s1 ← wrS s e o.s.toNat (e.npc.setWidth 64)
    pure (s1.jump e (bTarget e o.off)))

/-- Pushes a loop for the active threads and moves them into its body (R110). -/
def State.pushLoop (s : State) (e : Env) (l : LoopEnt) : State :=
  match e.who with
  | .warp c w => s.modWarp c w (fun w => ({ w with loops := l :: w.loops } : Warp).place e.k.image e.m0 e.npc)
  | .ctx x => s.modCtx x (fun c => { c with loops := l :: c.loops, pc := e.npc, wait := none })

/-- LOOP: a new innermost loop, or a uniform jump to END where the count is 0 (R97, R110). -/
def execLoop (o : OpBC) (s : State) : Host.Outcome State Fault Refusal :=
  runCtl (.loop o) s (fun e => do
    let x ← rdS s e o.s.toNat
    let c : W32 := x.setWidth 32
    if c = 0 then branchBody s e e.m0 o.off false
    else if (loopsOf s e).length = 4 then .error (trapOf 5 (loopInfo 1 4 0))
    else pure (s.pushLoop e ⟨e.npc, bTarget e o.off, c, e.m0, 0⟩))

/-- The target of a lane of JMPX. -/
def jmpTarget (w : Warp) (r i : Nat) : W32 := (w.lane r i).data

/-- The lanes of `m` that share lane `i`'s target (R109). -/
def jmpGroup (w : Warp) (r : Nat) (m : W64) (i : Nat) : W64 :=
  m &&& maskOf (fun j => decide (jmpTarget w r j = jmpTarget w r i))

/-- JMPX: each active thread to its lane's target; the loop rules for each set of threads apart (R97, R109). -/
def execJmpx (o : OpX1) (s : State) : Host.Outcome State Fault Refusal :=
  runCtl (.jmpx o) s (fun e => do
    let w ← theWarp s e
    let r := o.a.toNat
    regsOk e.k [r]
    checkSrcs w 0 [⟨r, e.m0, false⟩]
    let ls := lanesOf e.m0
    match ls.find? (fun i => (jmpTarget w r i).getLsbD 0) with
    | some i => .error (illegal 10 (jmpTarget w r i).toNat)
    | none =>
      let verdict := fun i => loopCheck w.loops (jmpGroup w r e.m0 i) (jmpTarget w r i) false
      match ls.findSome? (fun i => match verdict i with | .bad info => some info | _ => none) with
      | some info => .error (trapOf 5 info)
      | none =>
        let leaders := ls.filter (fun i => decide (lowLane (jmpGroup w r e.m0 i) = some i))
        pure (s.modWarp e.ci e.wi (fun w0 =>
          (leaders.foldl (fun x i => x.takeBranch e.k.image (verdict i) (jmpGroup w r e.m0 i) (jmpTarget w r i)) w0).settle e.k.image)))

/-- RET: every active thread to bits 31:0 of s[A], without a leaving check (R97, R109). -/
def execRet (o : OpX1) (s : State) : Host.Outcome State Fault Refusal :=
  runCtl (.ret o) s (fun e => do
    let x ← rdS s e o.a.toNat
    let tgt : W32 := x.setWidth 32
    need (!tgt.getLsbD 0) (illegal 10 tgt.toNat)
    pure (s.jump e tgt))

/-- NOP: no effect (R111). -/
def execNop (s : State) : Host.Outcome State Fault Refusal := run .nop s (fun _ => .ok s)

/-- EXIT: the active threads end, with their implicit leaves and their removal from loops (R99, R104, R111). -/
def execExit (s : State) : Host.Outcome State Fault Refusal :=
  runCtl .exit s (fun e => .ok (s.endThreads e.ci e.wi e.m0 false))

/-- TRAP: the SOFTWARE trap with an 18-bit code (R106, R111). -/
def execTrap (o : OpX3) (s : State) : Host.Outcome State Fault Refusal :=
  runCtl (.trap o) s (fun _ => .error (trapOf 13 ((o.c ++ o.b ++ o.a).setWidth 64)))

/-- TRET in one of its three forms, to the address `tgt` gives (R402). -/
def tretTo (i : Instr) (s : State) (tgt : Env → Warp → Exe W32) : Host.Outcome State Fault Refusal :=
  runCtl i s (fun e => do
    let w ← theWarp s e
    need w.hact (e.ill 6)
    let pc ← tgt e w
    pure (s.modWarp e.ci e.wi (fun w => w.trapReturn e.k.image e.m0 pc)))

/-- TRET: the trapping group runs again (R402). -/
def execTret (s : State) : Host.Outcome State Fault Refusal :=
  tretTo .tret s (fun _ w => .ok (w.trappc.setWidth 32))

/-- TRET.SKIP: on at TRAPPC + TLEN (R402). -/
def execTretSkip (s : State) : Host.Outcome State Fault Refusal :=
  tretTo .tretSkip s (fun _ w => .ok (w.trappc.setWidth 32 + w.tlen.setWidth 32))

/-- TRET.JMP: on at bits 31:0 of s[B] (R402). -/
def execTretJmp (o : OpXB) (s : State) : Host.Outcome State Fault Refusal :=
  tretTo (.tretJmp o) s (fun e _ => do
    let x ← rdS s e o.b.toNat
    need (!x.getLsbD 0) (illegal 10 (x.toNat % 2 ^ 32))
    pure (x.setWidth 32))

/-- A free slot of the crew's cluster table, lowest first (R102; which one is the model's choice, log entry 9). -/
def State.freeSlot (s : State) (k : Crew) : Option Nat :=
  (List.range 64).find? (fun n => !(s.cohorts.any (fun c =>
    decide (c.count ≠ 0 ∧ c.die = k.die ∧ c.cluster = clusterOf k.core ∧ c.slot = n))))

/-- The memberships of a warp with the threads `add` in the cohort `key` (R103). -/
def membersAdd (key : W32) (slot : Nat) (add : W64) (ms : List Member) : List Member :=
  if ms.any (fun m => decide (m.key = key)) then ms.map (fun m => if m.key = key then { m with mask := m.mask ||| add } else m)
  else ms ++ [⟨slot, key, add, 0, 0⟩]

/-- The threads `add` join the cohort `key` of the crew, which is made where there is none (R103, R112); a bound
barrier expects them (R232). -/
def State.joinCohort (s : State) (e : Env) (key : W32) (add : W64) (slot : Nat) : State :=
  let s : State := match s.cohort? e.k key with
    | some _ => s
    | none => { s with cohorts := s.cohorts.filter (fun c => decide (c.count ≠ 0)) ++ [⟨e.k.die, clusterOf e.k.core, slot, key, e.k.ctxid, 0, none⟩] }
  let n := popMask add
  let upd := fun (c : Cohort) =>
    if c.die = e.k.die ∧ c.cluster = clusterOf e.k.core ∧ c.ctxid = e.k.ctxid ∧ c.key = key then { c with count := c.count + n } else c
  let s1 : State := { s with cohorts := s.cohorts.map upd }
  let s2 := s1.modWarp e.ci e.wi (fun w => { w with cohorts := membersAdd key slot add w.cohorts })
  match s1.cohort? e.k key with
  | some c => (match c.bound with | some (bc, off) => s2.barUpd bc off (.joined n) | none => s2)
  | none => s2

/-- JOIN: the cases of R112 in their order. -/
def execJoin (o : OpX2) (s : State) : Host.Outcome State Fault Refusal :=
  run (.join o) s (fun e => do
    let w ← theWarp s e
    let x ← rdS s e o.b.toNat
    freeS s e o.a.toNat
    let key : W32 := x.setWidth 32
    let old := match w.cohorts.find? (fun m => decide (m.key = key)) with | some m => m.mask | none => 0
    let slot := match s.cohort? e.k key with | some c => some c.slot | none => s.freeSlot e.k
    if key = 0 then pure (s.setS e.who o.a.toNat (w64 (-3)))
    else if e.m0 &&& ~~~old = 0 then pure (s.setS e.who o.a.toNat (BitVec.ofNat 64 (s.cohortCount e.k key)))
    else if old = 0 ∧ 4 ≤ w.cohorts.length then pure (s.setS e.who o.a.toNat (w64 (-2)))
    else
      match slot with
      | none => pure (s.setS e.who o.a.toNat (w64 (-1)))
      | some n =>
        let s1 := s.joinCohort e key (e.m0 &&& ~~~old) n
        pure (s1.setS e.who o.a.toNat (BitVec.ofNat 64 (s1.cohortCount e.k key))))

/-- LEAVE: the active members leave (R112, R232). -/
def execLeave (o : OpX2) (s : State) : Host.Outcome State Fault Refusal :=
  run (.leave o) s (fun e => do
    let w ← theWarp s e
    let x ← rdS s e o.b.toNat
    freeS s e o.a.toNat
    let key : W32 := x.setWidth 32
    if key = 0 then pure (s.setS e.who o.a.toNat (w64 (-3)))
    else
      match w.cohorts.find? (fun m => decide (m.key = key)) with
      | none => pure (s.setS e.who o.a.toNat (w64 (-1)))
      | some m =>
        let s1 := if m.mask &&& e.m0 = 0 then s else s.leaveCohort e.ci m e.m0 false
        let s2 := s1.modWarp e.ci e.wi (fun w => { w with cohorts := membersDrop e.m0 (some key) w.cohorts })
        pure (s2.setS e.who o.a.toNat (BitVec.ofNat 64 (s2.cohortCount e.k key))))

end Sys2Proof.Machine
end

