-- ==== Sys2Proof/Machine/CrossLane.lean ====
section
/-! DEFINITION. Cross-lane operations: shuffles, broadcasts, reductions, scans, ballots (R155 to R162). -/
namespace Sys2Proof.Machine

/-- The segment width (R155): LANES shifted right by PFX.IMX bits 2:0. -/
def segW (p : Option Pfx) : Nat :=
  match p with
  | some q => 64 / 2 ^ (q.imx.toNat % 8)
  | none => 64

/-- The four shuffles (R156). -/
inductive Shfl where
  | idx | up | dn | xr
  deriving DecidableEq, Repr

/-- The source lane of lane `i` in segments of width `w`, for operand `n`; none outside the segment (R156). -/
def shflFrom (k : Shfl) (w n i : Nat) : Option Nat :=
  match k with
  | .idx => some (i - i % w + n % w)
  | .up => if n ≤ i % w then some (i - n) else none
  | .dn => if i % w + n < w then some (i + n) else none
  | .xr => some (i - i % w + ((i % w) ^^^ n) % w)

/-- The lane whose va lane `i` receives: its source where that is active, else itself (R156). -/
def shflLane (k : Shfl) (w n : Nat) (act : W64) (i : Nat) : Nat :=
  match shflFrom k w n i with
  | some j => if act.getLsbD j then j else i
  | none => i

/-- A shuffle. `vb` is judged before va, and va only over the lanes that are read (R156); the poison of the mask, of `vb` and of va comes
after both (log entry 91). -/
def shuffle (i : Instr) (s : State) (k : Shfl) (vd va : BitVec 7) (ea : Bool) (p : Option Pfx) (vb : List (BitVec 7 × Bool))
    (n : VEnv → Nat → Nat) : Host.Outcome State Fault Refusal :=
  run i s (fun e => do
    let v ← venvW s e
    regsOk e.k (vd.toNat :: va.toNat :: vb.map (fun b => b.1.toNat))
    let bs := vb.map (fun b => v.src b.1 b.2)
    emptyCheck v.w bs
    pendCheck v.w bs
    let src := fun l => shflLane k (segW p) (n v l) v.act l
    let as := [⟨va.toNat, maskOf (fun j => (lanesOf v.act).any (fun l => decide (src l = j))), ea⟩]
    emptyCheck v.w as
    pendCheck v.w as
    maskOk v
    poisonCheck v.w 0 bs
    poisonCheck v.w 0 as
    dstFree v.w [vd.toNat] (v.act ||| v.zl)
    pure (s.modWarp e.ci e.wi (fun w => w.out v vd.toNat (fun l => v.moved va (src l)))))

/-- A shuffle by a register (T = 0). -/
def shuffleV (i : Instr) (s : State) (k : Shfl) (o : OpV3) : Host.Outcome State Fault Refusal :=
  shuffle i s k o.vd o.vs1 o.e1 o.pfx [(o.vs2, o.e2)] (fun v l => (v.data o.vs2 l).toNat)

/-- A shuffle by an immediate (T = 1). -/
def shuffleI (i : Instr) (s : State) (k : Shfl) (o : OpVShI) : Host.Outcome State Fault Refusal :=
  shuffle i s k o.vd o.vs1 o.e1 o.pfx [] (fun _ _ => o.n.toNat)

/-- SHFL.IDX: from lane base + n mod w of the segment (R156). -/
def execShflIdx (o : OpV3) (s : State) : Host.Outcome State Fault Refusal :=
  shuffleV (.shflIdx o) s .idx o

/-- SHFL.IDX with an immediate (R156). -/
def execShflIdxImm (o : OpVShI) (s : State) : Host.Outcome State Fault Refusal :=
  shuffleI (.shflIdxImm o) s .idx o

/-- SHFL.UP: from lane i - n of the segment (R156). -/
def execShflUp (o : OpV3) (s : State) : Host.Outcome State Fault Refusal :=
  shuffleV (.shflUp o) s .up o

/-- SHFL.UP with an immediate (R156). -/
def execShflUpImm (o : OpVShI) (s : State) : Host.Outcome State Fault Refusal :=
  shuffleI (.shflUpImm o) s .up o

/-- SHFL.DN: from lane i + n of the segment (R156). -/
def execShflDn (o : OpV3) (s : State) : Host.Outcome State Fault Refusal :=
  shuffleV (.shflDn o) s .dn o

/-- SHFL.DN with an immediate (R156). -/
def execShflDnImm (o : OpVShI) (s : State) : Host.Outcome State Fault Refusal :=
  shuffleI (.shflDnImm o) s .dn o

/-- SHFL.XOR: from lane position exclusive-or n of the segment (R156). -/
def execShflXor (o : OpV3) (s : State) : Host.Outcome State Fault Refusal :=
  shuffleV (.shflXor o) s .xr o

/-- SHFL.XOR with an immediate (R156). -/
def execShflXorImm (o : OpVShI) (s : State) : Host.Outcome State Fault Refusal :=
  shuffleI (.shflXorImm o) s .xr o

/-- BCAST from lane `j`: an inactive lane gives 0 (R157). -/
def bcastFrom (s : State) (e : Env) (v : VEnv) (vd va : BitVec 7) (ea : Bool) (j : Nat) (late : Exe Unit) : Exe State := do
  let on := v.act.getLsbD j
  checkV v 0 [⟨va.toNat, if on then 1#64 <<< j else 0, ea⟩]
  late
  dstFree v.w [vd.toNat] (v.act ||| v.zl)
  pure (s.modWarp e.ci e.wi (fun w => w.out v vd.toNat (fun _ => if on then v.moved va j else Lane.full 0 false)))

/-- BCAST: lane s[sk] mod LANES to every active lane (R157). -/
def execBcast (o : OpVSk) (s : State) : Host.Outcome State Fault Refusal :=
  run (.bcast o) s (fun e => do
    let v ← venvW s e
    regsOk e.k [o.vd.toNat, o.vs1.toNat]
    let j ← rdSw s e o.sk.toNat
    bcastFrom s e v o.vd o.vs1 o.e1 (j.toNat % 64) (sOk s e o.sk.toNat))

/-- BCAST first: the lowest active lane to every active lane (R157). -/
def execBcastFirst (o : OpV2) (s : State) : Host.Outcome State Fault Refusal :=
  run (.bcastFirst o) s (fun e => do
    let v ← venvW s e
    regsOk e.k [o.vd.toNat, o.vs1.toNat]
    bcastFrom s e v o.vd o.vs1 o.e1 ((lowLane v.act).getD 0) (.ok ()))

/-- The empty result of an operator (R158). -/
def redEmpty (op : Nat) : W32 :=
  match op with
  | 1 => 0x7FFFFFFF
  | 2 => 0x80000000
  | 3 => 0xFFFFFFFF
  | 5 => 0xFFFFFFFF
  | 9 => 0x7F800000
  | 10 => 0xFF800000
  | _ => 0

/-- One combination of an operator (R158). -/
def redComb (op mode : Nat) (vout : Bool) (a b : W32) : W32 :=
  match op with
  | 0 => a + b
  | 1 => if b.slt a then b else a
  | 2 => if a.slt b then b else a
  | 3 => if b.ult a then b else a
  | 4 => if a.ult b then b else a
  | 5 => a &&& b
  | 6 => a ||| b
  | 7 => a ^^^ b
  | 8 => flush32 vout (fadd32 mode a b)
  | 9 => fminmax32 false false a b
  | 10 => fminmax32 true false a b
  | _ => famax32 a b

/-- A contributing lane as the operator reads it; .FAMAX takes a magnitude from the first (R158). -/
def redRead (v : VEnv) (op : Nat) (va : BitVec 7) (i : Nat) : W32 :=
  if op < 8 then v.data va i
  else if op = 11 then famax32 (v.fp va i) (v.fp va i)
  else v.fp va i

/-- Two nodes, either of which may be absent (R159). -/
def optComb (f : W32 → W32 → W32) (a b : Option W32) : Option W32 :=
  match a, b with
  | some x, some y => some (f x y)
  | some x, none => some x
  | none, y => y

/-- One level of the balanced tree (R159). -/
def pairUp (f : W32 → W32 → W32) : List (Option W32) → List (Option W32)
  | a :: b :: r => optComb f a b :: pairUp f r
  | l => l

/-- The root of the balanced tree over a power of two of nodes. -/
def treeRoot (f : W32 → W32 → W32) : Nat → List (Option W32) → Option W32
  | 0, l => l.head?.join
  | n + 1, l => treeRoot f n (pairUp f l)

/-- The tree over the segment of `w` lanes that begins at `base` (R159). -/
def redSegment (v : VEnv) (op w base : Nat) (va : BitVec 7) : W32 :=
  let nodes := (List.range w).map (fun j => if v.act.getLsbD (base + j) then some (redRead v op va (base + j)) else none)
  (treeRoot (redComb op v.mode v.vout) 6 nodes).getD (redEmpty op)

/-- The ordered fold of SCAN and SSCAN (R161): each lane's result, in lane order. -/
def scanFold (f : W32 → W32 → W32) (read : Nat → W32) (act hd : Nat → Bool) (ex : Bool) (empty : W32) :
    Option W32 → List Nat → List W32
  | _, [] => []
  | acc, i :: r =>
    let acc := if hd i then none else acc
    if act i then
      let next := match acc with | none => read i | some a => f a (read i)
      (if ex then acc.getD empty else next) :: scanFold f read act hd ex empty (some next) r
    else 0 :: scanFold f read act hd ex empty acc r

/-- SCAN and SSCAN with heads `hd`. -/
def scanOp (i : Instr) (s : State) (vd va : BitVec 7) (ea : Bool) (op : Nat) (ex : Bool) (hd : Env → VEnv → Exe (Nat → Bool)) :
    Host.Outcome State Fault Refusal :=
  run i s (fun e => do
    let v ← venvW s e
    regsOk e.k [vd.toNat, va.toNat]
    checkV v 0 [v.src va ea]
    let h ← hd e v
    dstFree v.w [vd.toNat] (v.act ||| v.zl)
    let res := scanFold (redComb op v.mode v.vout) (redRead v op va) v.act.getLsbD h ex (redEmpty op) none (List.range 64)
    pure (s.modWarp e.ci e.wi (fun w => w.out v vd.toNat (fun l => ires (res.getD l 0)))))

/-- The heads of SCAN: the first lane of each segment (R155, R161). -/
def segHeads (p : Option Pfx) (_ : Env) (_ : VEnv) : Exe (Nat → Bool) := .ok (fun i => decide (i % segW p = 0))

/-- The heads of SSCAN: the lanes set in mh (R161). -/
def maskHeads (mh : BitVec 3) (e : Env) (v : VEnv) : Exe (Nat → Bool) := do
  let m ← rdM e v.w mh.toNat
  pure (fun i => m.getLsbD i)

/-- RED: each segment reduced in a balanced tree, the root to its active lanes (R159). -/
def execRed (o : OpVRed) (s : State) : Host.Outcome State Fault Refusal :=
  runVec (.red o) s o.vd.toNat noPre (fun v => [v.src o.vs1 o.e1])
    (fun v l => ires (redSegment v o.op.toNat (segW o.pfx) (l - l % segW o.pfx) o.vs1))

/-- REDW: the tree over the whole warp to a scalar register (R160). -/
def execRedw (o : OpVRedS) (s : State) : Host.Outcome State Fault Refusal :=
  runToScalar (.redw o) s o.sd (fun v => [v.src o.vs1 o.e1])
    (fun v => .ok (let r := redSegment v o.op.toNat 64 0 o.vs1
      if o.op.toNat < 3 then r.signExtend 64 else r.setWidth 64))

/-- SCAN: the inclusive scan of each segment (R161). -/
def execScan (o : OpVRed) (s : State) : Host.Outcome State Fault Refusal :=
  scanOp (.scan o) s o.vd o.vs1 o.e1 o.op.toNat false (segHeads o.pfx)

/-- SCAN.EX: the exclusive scan of each segment (R161). -/
def execScanEx (o : OpVRed) (s : State) : Host.Outcome State Fault Refusal :=
  scanOp (.scanEx o) s o.vd o.vs1 o.e1 o.op.toNat true (segHeads o.pfx)

/-- SSCAN: the inclusive scan of the warp, split at the lanes of mh (R161). -/
def execSscan (o : OpVSsc) (s : State) : Host.Outcome State Fault Refusal :=
  scanOp (.sscan o) s o.vd o.vs1 o.e1 o.op.toNat false (maskHeads o.mh)

/-- SSCAN.EX: the exclusive form (R161). -/
def execSscanEx (o : OpVSsc) (s : State) : Host.Outcome State Fault Refusal :=
  scanOp (.sscanEx o) s o.vd o.vs1 o.e1 o.op.toNat true (maskHeads o.mh)

/-- BALLOT: bit n of each active lane to a scalar register, 0 elsewhere (R162). -/
def execBallot (o : OpVBal) (s : State) : Host.Outcome State Fault Refusal :=
  runToScalar (.ballot o) s o.sd (fun v => [v.src o.vs1 o.e1])
    (fun v => .ok (maskOf (fun i => v.act.getLsbD i && (v.data o.vs1 i).getLsbD o.n.toNat)))

/-- BALLOT: bit n of each active lane to a mask register (R162). -/
def execBallotM (o : OpVBalM) (s : State) : Host.Outcome State Fault Refusal :=
  runMask (.ballotM o) s o.md (fun v => [v.src o.vs1 o.e1])
    (fun v i => (v.data o.vs1 i).getLsbD o.n.toNat)

end Sys2Proof.Machine
end

