-- ==== Sys2Proof/Machine/LaneInt.lean ====
section
/-! DEFINITION. Integer lane operations: compact, V3, VI and packed 16-bit forms (R53, R54, R136 to R143). -/
namespace Sys2Proof.Machine

/-- Two sources, one destination, on the data bits (INT_V3 of R136). -/
def intV3 (i : Instr) (s : State) (o : OpV3) (f : W32 → W32 → W32) : Host.Outcome State Fault Refusal :=
  runVec i s o.vd.toNat noPre (fun v => [v.src o.vs1 o.e1, v.src o.vs2 o.e2])
    (fun v l => ires (f (v.data o.vs1 l) (v.data o.vs2 l)))

/-- The alias of a compact parcel: vd is destination and first source (R53). -/
def c16v3 (o : OpC16) : OpV3 := ⟨o.vd.setWidth 7, o.vd.setWidth 7, o.vs.setWidth 7, false, false, none⟩

/-- One source and an immediate (R141). -/
def intVI (i : Instr) (s : State) (o : OpVI) (f : W32 → W32 → W32) : Host.Outcome State Fault Refusal :=
  runVec i s o.vd.toNat noPre (fun v => [v.src o.vs1 o.e1])
    (fun v l => ires (f (v.data o.vs1 l) (viImm o.imm9 o.pfx o.lim)))

/-- A signed value clamped to `n` bits (R136, R142). -/
def clampS (n : Nat) (x : Int) : Int := max (-(2 ^ (n - 1) : Int)) (min x (2 ^ (n - 1) - 1))

def satAdd (a b : W32) : W32 := BitVec.ofInt 32 (clampS 32 (a.toInt + b.toInt))
def satSub (a b : W32) : W32 := BitVec.ofInt 32 (clampS 32 (a.toInt - b.toInt))
def mulHigh (a b : W32) : W32 := BitVec.ofInt 32 (a.toInt * b.toInt / 2 ^ 32)
def minS (a b : W32) : W32 := if b.slt a then b else a
def maxS (a b : W32) : W32 := if a.slt b then b else a
def minU (a b : W32) : W32 := if b.ult a then b else a
def maxU (a b : W32) : W32 := if a.ult b then b else a
/-- Shifts by b[4:0] (R136). -/
def shl5 (a b : W32) : W32 := a <<< (b.toNat % 32)
def shr5 (a b : W32) : W32 := a >>> (b.toNat % 32)
def sar5 (a b : W32) : W32 := a.sshiftRight (b.toNat % 32)
/-- Leading zeros (R136). -/
def clz32 (a : W32) : W32 := BitVec.ofNat 32 (32 - bitLen 32 a.toNat)
/-- Set bits among the low `n` of a value. -/
def popNat : Nat → Nat → Nat
  | 0, _ => 0
  | n + 1, v => v % 2 + popNat n (v / 2)
def popc32 (a : W32) : W32 := BitVec.ofNat 32 (popNat 32 a.toNat)

/-- Each 16-bit half on its own (R142). -/
def p16 (f : BitVec 16 → BitVec 16 → BitVec 16) (a b : W32) : W32 :=
  f (a.extractLsb' 16 16) (b.extractLsb' 16 16) ++ f (a.setWidth 16) (b.setWidth 16)
def satAdd16 (a b : BitVec 16) : BitVec 16 := BitVec.ofInt 16 (clampS 16 (a.toInt + b.toInt))
def satSub16 (a b : BitVec 16) : BitVec 16 := BitVec.ofInt 16 (clampS 16 (a.toInt - b.toInt))
def mulHigh16 (a b : BitVec 16) : BitVec 16 := BitVec.ofInt 16 (a.toInt * b.toInt / 2 ^ 16)

/-- One add-compare-select of two unsigned saturating sums; ties choose the first (R143). -/
def vacs (isMax : Bool) (a b : W32) : W32 :=
  let c0 := min (a.toNat % 2 ^ 16 + b.toNat % 2 ^ 16) 0xFFFF
  let c1 := min (a.toNat / 2 ^ 16 + b.toNat / 2 ^ 16) 0xFFFF
  let pick : Bool := if isMax then decide (c0 < c1) else decide (c1 < c0)
  BitVec.ofNat 32 (if pick then 2 ^ 16 + c1 else c0)

/-- IADD_I32: a + b modulo 2^32 (R136). -/
def execIaddI32 (o : OpV3) (s : State) : Host.Outcome State Fault Refusal :=
  intV3 (.iaddI32 o) s o (fun a b => a + b)

/-- IADD_I32_SAT: the signed sum, clamped (R136). -/
def execIaddI32Sat (o : OpV3) (s : State) : Host.Outcome State Fault Refusal :=
  intV3 (.iaddI32Sat o) s o (satAdd)

/-- ISUB_I32: a - b modulo 2^32 (R136). -/
def execIsubI32 (o : OpV3) (s : State) : Host.Outcome State Fault Refusal :=
  intV3 (.isubI32 o) s o (fun a b => a - b)

/-- ISUB_I32_SAT: the signed difference, clamped (R136). -/
def execIsubI32Sat (o : OpV3) (s : State) : Host.Outcome State Fault Refusal :=
  intV3 (.isubI32Sat o) s o (satSub)

/-- IMUL_I32: the low 32 bits of a * b (R136). -/
def execImulI32 (o : OpV3) (s : State) : Host.Outcome State Fault Refusal :=
  intV3 (.imulI32 o) s o (fun a b => a * b)

/-- IMULH_I32: bits 63:32 of the signed product (R136). -/
def execImulhI32 (o : OpV3) (s : State) : Host.Outcome State Fault Refusal :=
  intV3 (.imulhI32 o) s o (mulHigh)

/-- IMIN_I32: the signed minimum (R136). -/
def execIminI32 (o : OpV3) (s : State) : Host.Outcome State Fault Refusal :=
  intV3 (.iminI32 o) s o (minS)

/-- IMIN_UI32: the unsigned minimum (R136). -/
def execIminUi32 (o : OpV3) (s : State) : Host.Outcome State Fault Refusal :=
  intV3 (.iminUi32 o) s o (minU)

/-- IMAX_I32: the signed maximum (R136). -/
def execImaxI32 (o : OpV3) (s : State) : Host.Outcome State Fault Refusal :=
  intV3 (.imaxI32 o) s o (maxS)

/-- IMAX_UI32: the unsigned maximum (R136). -/
def execImaxUi32 (o : OpV3) (s : State) : Host.Outcome State Fault Refusal :=
  intV3 (.imaxUi32 o) s o (maxU)

/-- AND: bitwise and (R136). -/
def execAnd (o : OpV3) (s : State) : Host.Outcome State Fault Refusal :=
  intV3 (.and o) s o (fun a b => a &&& b)

/-- OR: bitwise or (R136). -/
def execOr (o : OpV3) (s : State) : Host.Outcome State Fault Refusal :=
  intV3 (.or o) s o (fun a b => a ||| b)

/-- XOR: bitwise exclusive or (R136). -/
def execXor (o : OpV3) (s : State) : Host.Outcome State Fault Refusal :=
  intV3 (.xor o) s o (fun a b => a ^^^ b)

/-- SHL: a shifted left by b[4:0] (R136). -/
def execShl (o : OpV3) (s : State) : Host.Outcome State Fault Refusal :=
  intV3 (.shl o) s o (shl5)

/-- SHR_UI32: a shifted right by b[4:0] (R136). -/
def execShrUi32 (o : OpV3) (s : State) : Host.Outcome State Fault Refusal :=
  intV3 (.shrUi32 o) s o (shr5)

/-- SHR_I32: a shifted right arithmetically by b[4:0] (R136). -/
def execShrI32 (o : OpV3) (s : State) : Host.Outcome State Fault Refusal :=
  intV3 (.shrI32 o) s o (sar5)

/-- IADD_I32_16: the compact alias of IADD_I32 (R53). -/
def execIaddI32_16 (o : OpC16) (s : State) : Host.Outcome State Fault Refusal :=
  intV3 (.iaddI32_16 o) s (c16v3 o) (fun a b => a + b)

/-- ISUB_I32_16: the compact alias of ISUB_I32 (R53). -/
def execIsubI32_16 (o : OpC16) (s : State) : Host.Outcome State Fault Refusal :=
  intV3 (.isubI32_16 o) s (c16v3 o) (fun a b => a - b)

/-- AND_16: the compact alias of AND (R53). -/
def execAnd_16 (o : OpC16) (s : State) : Host.Outcome State Fault Refusal :=
  intV3 (.and_16 o) s (c16v3 o) (fun a b => a &&& b)

/-- OR_16: the compact alias of OR (R53). -/
def execOr_16 (o : OpC16) (s : State) : Host.Outcome State Fault Refusal :=
  intV3 (.or_16 o) s (c16v3 o) (fun a b => a ||| b)

/-- XOR_16: the compact alias of XOR (R53). -/
def execXor_16 (o : OpC16) (s : State) : Host.Outcome State Fault Refusal :=
  intV3 (.xor_16 o) s (c16v3 o) (fun a b => a ^^^ b)

/-- SHL_16: the compact alias of SHL (R53). -/
def execShl_16 (o : OpC16) (s : State) : Host.Outcome State Fault Refusal :=
  intV3 (.shl_16 o) s (c16v3 o) (shl5)

/-- SHR_UI32_16: the compact alias of SHR_UI32 (R53). -/
def execShrUi32_16 (o : OpC16) (s : State) : Host.Outcome State Fault Refusal :=
  intV3 (.shrUi32_16 o) s (c16v3 o) (shr5)

/-- SHR_I32_16: the compact alias of SHR_I32 (R53). -/
def execShrI32_16 (o : OpC16) (s : State) : Host.Outcome State Fault Refusal :=
  intV3 (.shrI32_16 o) s (c16v3 o) (sar5)

/-- IMIN_I32_16: the compact alias of IMIN_I32 (R53). -/
def execIminI32_16 (o : OpC16) (s : State) : Host.Outcome State Fault Refusal :=
  intV3 (.iminI32_16 o) s (c16v3 o) (minS)

/-- IMAX_I32_16: the compact alias of IMAX_I32 (R53). -/
def execImaxI32_16 (o : OpC16) (s : State) : Host.Outcome State Fault Refusal :=
  intV3 (.imaxI32_16 o) s (c16v3 o) (maxS)

/-- NOP_16: no register is read, checked or written (R54). -/
def execNop_16 (o : OpC16) (s : State) : Host.Outcome State Fault Refusal :=
  run (.nop_16 o) s (fun _ => .ok s)

/-- MOV of vs2 to vd (R140): where they are one register nothing is read or written but the lanes Z zeroes; the
register is then not waited for, but for those lanes (R64). -/
def movReg (i : Instr) (s : State) (vd vs2 : BitVec 7) (e2 : Bool) : Host.Outcome State Fault Refusal :=
  if vd = vs2 then
    run i s (fun e => do
      let v ← venvW s e
      regsOk e.k [vd.toNat]
      maskOk v
      dstFree v.w [vd.toNat] v.zl
      pure (s.modWarp e.ci e.wi (fun w => w.zeroRun v [vd.toNat])))
  else runVec i s vd.toNat noPre (fun v => [v.src vs2 e2]) (fun v l => v.moved vs2 l)

/-- MOV_16: the compact alias of MOV (R53, R140). -/
def execMov_16 (o : OpC16) (s : State) : Host.Outcome State Fault Refusal :=
  movReg (.mov_16 o) s (o.vd.setWidth 7) (o.vs.setWidth 7) false

/-- MOV: copies data and S (R140). -/
def execMov (o : OpVMov) (s : State) : Host.Outcome State Fault Refusal :=
  movReg (.mov o) s o.vd o.vs2 o.e2

/-- MOV_LANE: the lane index, S = 0 (R70, R140). -/
def execMovLane (o : OpV1) (s : State) : Host.Outcome State Fault Refusal :=
  runVec (.movLane o) s o.vd.toNat noPre (fun _ => []) (fun _ l => ires (BitVec.ofNat 32 l))

/-- The addend of a multiply-add blocks on empty lanes whatever E1 and E2 say (R57, R137). -/
def imad (i : Instr) (s : State) (o : OpV3) (c : BitVec 7) (pre : Env → Exe Unit) : Host.Outcome State Fault Refusal :=
  runVec i s o.vd.toNat pre (fun v => [v.src o.vs1 o.e1, v.src o.vs2 o.e2, v.src c false])
    (fun v l => ires (v.data c l + v.data o.vs1 l * v.data o.vs2 l))

/-- The fourth operand of a prefix (R57). -/
def vs3Of (p : Option Pfx) : BitVec 7 := match p with | some q => q.vs3 | none => 0

/-- The prefix a form cannot do without: reason 6 (R136, R139, R144, R154). -/
def needPfx (p : Option Pfx) (e : Env) : Exe Unit := need p.isSome (e.ill 6)

/-- IMAD_I32: vd + a * b, low 32 bits (R136). -/
def execImadI32 (o : OpV3) (s : State) : Host.Outcome State Fault Refusal :=
  imad (.imadI32 o) s o o.vd noPre

/-- IMAD_I32_VC: c + a * b with c from PFX.VS3; without a prefix reason 6 (R136). -/
def execImadI32Vc (o : OpV3) (s : State) : Host.Outcome State Fault Refusal :=
  imad (.imadI32Vc o) s o (vs3Of o.pfx) (needPfx o.pfx)

/-- SEL: va where the mask that PFX.IMX names is set, else vb, data and S together (R139). -/
def execSel (o : OpV3) (s : State) : Host.Outcome State Fault Refusal :=
  run (.sel o) s (fun e => do
    needPfx o.pfx e
    let v ← venvW s e
    regsOk e.k [o.vd.toNat, o.vs1.toNat, o.vs2.toNat]
    checkV v 0 [v.src o.vs1 o.e1, v.src o.vs2 o.e2]
    let mk ← rdM e v.w (match o.pfx with | some q => q.imx.toNat % 8 | none => 0)
    dstFree v.w [o.vd.toNat] (v.act ||| v.zl)
    pure (s.modWarp e.ci e.wi (fun w => w.out v o.vd.toNat (fun l => if mk.getLsbD l then v.moved o.vs1 l else v.moved o.vs2 l))))

/-- CLZ: leading zeros, 0 to 32 (R136). -/
def execClz (o : OpV2) (s : State) : Host.Outcome State Fault Refusal :=
  runVec (.clz o) s o.vd.toNat noPre (fun v => [v.src o.vs1 o.e1]) (fun v l => ires (clz32 (v.data o.vs1 l)))

/-- POPC: set bits, 0 to 32 (R136). -/
def execPopc (o : OpV2) (s : State) : Host.Outcome State Fault Refusal :=
  runVec (.popc o) s o.vd.toNat noPre (fun v => [v.src o.vs1 o.e1]) (fun v l => ires (popc32 (v.data o.vs1 l)))

/-- ICMP_I32: a mask of integer comparisons (R138). -/
def execIcmpI32 (o : OpVCmp) (s : State) : Host.Outcome State Fault Refusal :=
  runMask (.icmpI32 o) s o.md (fun v => [v.src o.vs1 o.e1, v.src o.vs2 o.e2])
    (fun v l => icmp true o.cc (v.data o.vs1 l) (v.data o.vs2 l))

/-- ICMP_UI32: a mask of integer comparisons (R138). -/
def execIcmpUi32 (o : OpVCmp) (s : State) : Host.Outcome State Fault Refusal :=
  runMask (.icmpUi32 o) s o.md (fun v => [v.src o.vs1 o.e1, v.src o.vs2 o.e2])
    (fun v l => icmp false o.cc (v.data o.vs1 l) (v.data o.vs2 l))

/-- IADDI: a + imm modulo 2^32 (R141). -/
def execIaddi (o : OpVI) (s : State) : Host.Outcome State Fault Refusal :=
  intVI (.iaddi o) s o (fun a n => a + n)

/-- ANDI: a AND imm (R141). -/
def execAndi (o : OpVI) (s : State) : Host.Outcome State Fault Refusal :=
  intVI (.andi o) s o (fun a n => a &&& n)

/-- ORI: a OR imm (R141). -/
def execOri (o : OpVI) (s : State) : Host.Outcome State Fault Refusal :=
  intVI (.ori o) s o (fun a n => a ||| n)

/-- XORI: a XOR imm (R141). -/
def execXori (o : OpVI) (s : State) : Host.Outcome State Fault Refusal :=
  intVI (.xori o) s o (fun a n => a ^^^ n)

/-- SHLI: a shifted left by imm bits 4:0 (R141). -/
def execShli (o : OpVI) (s : State) : Host.Outcome State Fault Refusal :=
  intVI (.shli o) s o (shl5)

/-- SHRI: a shifted right by imm bits 4:0 (R141). -/
def execShri (o : OpVI) (s : State) : Host.Outcome State Fault Refusal :=
  intVI (.shri o) s o (shr5)

/-- SHRI_A: a shifted right arithmetically by imm bits 4:0 (R141). -/
def execShriA (o : OpVI) (s : State) : Host.Outcome State Fault Refusal :=
  intVI (.shriA o) s o (sar5)

/-- MOVI: the immediate (R141). -/
def execMovi (o : OpVImm) (s : State) : Host.Outcome State Fault Refusal :=
  runVec (.movi o) s o.vd.toNat noPre (fun _ => []) (fun _ _ => ires (viImm o.imm9 o.pfx o.lim))

/-- ICMPI: a mask of comparisons with the immediate (R141). -/
def execIcmpi (o : OpVICmp) (s : State) : Host.Outcome State Fault Refusal :=
  runMask (.icmpi o) s o.md (fun v => [v.src o.vs1 o.e1])
    (fun v l => icmp true o.cc (v.data o.vs1 l) (viImm o.imm9 o.pfx o.lim))

/-- ICMPI_U: a mask of comparisons with the immediate (R141). -/
def execIcmpiU (o : OpVICmp) (s : State) : Host.Outcome State Fault Refusal :=
  runMask (.icmpiU o) s o.md (fun v => [v.src o.vs1 o.e1])
    (fun v l => icmp false o.cc (v.data o.vs1 l) (viImm o.imm9 o.pfx o.lim))

/-- IADD_P16: each 16-bit half on its own (R142). -/
def execIaddP16 (o : OpV3) (s : State) : Host.Outcome State Fault Refusal :=
  intV3 (.iaddP16 o) s o (p16 (fun a b => a + b))

/-- IADD_P16_SAT: each 16-bit half on its own (R142). -/
def execIaddP16Sat (o : OpV3) (s : State) : Host.Outcome State Fault Refusal :=
  intV3 (.iaddP16Sat o) s o (p16 (satAdd16))

/-- ISUB_P16: each 16-bit half on its own (R142). -/
def execIsubP16 (o : OpV3) (s : State) : Host.Outcome State Fault Refusal :=
  intV3 (.isubP16 o) s o (p16 (fun a b => a - b))

/-- ISUB_P16_SAT: each 16-bit half on its own (R142). -/
def execIsubP16Sat (o : OpV3) (s : State) : Host.Outcome State Fault Refusal :=
  intV3 (.isubP16Sat o) s o (p16 (satSub16))

/-- IMUL_P16: each 16-bit half on its own (R142). -/
def execImulP16 (o : OpV3) (s : State) : Host.Outcome State Fault Refusal :=
  intV3 (.imulP16 o) s o (p16 (fun a b => a * b))

/-- IMULH_P16: each 16-bit half on its own (R142). -/
def execImulhP16 (o : OpV3) (s : State) : Host.Outcome State Fault Refusal :=
  intV3 (.imulhP16 o) s o (p16 (mulHigh16))

/-- IMIN_P16: each 16-bit half on its own (R142). -/
def execIminP16 (o : OpV3) (s : State) : Host.Outcome State Fault Refusal :=
  intV3 (.iminP16 o) s o (p16 (fun a b => if b.slt a then b else a))

/-- IMAX_P16: each 16-bit half on its own (R142). -/
def execImaxP16 (o : OpV3) (s : State) : Host.Outcome State Fault Refusal :=
  intV3 (.imaxP16 o) s o (p16 (fun a b => if a.slt b then b else a))

/-- SHL_P16: each 16-bit half on its own (R142). -/
def execShlP16 (o : OpV3) (s : State) : Host.Outcome State Fault Refusal :=
  intV3 (.shlP16 o) s o (p16 (fun a b => a <<< (b.toNat % 16)))

/-- SHR_P16: each 16-bit half on its own (R142). -/
def execShrP16 (o : OpV3) (s : State) : Host.Outcome State Fault Refusal :=
  intV3 (.shrP16 o) s o (p16 (fun a b => a >>> (b.toNat % 16)))

/-- VACS_P16: add-compare-select, the smaller path (R143). -/
def execVacsP16 (o : OpV3) (s : State) : Host.Outcome State Fault Refusal :=
  intV3 (.vacsP16 o) s o (vacs false)

/-- VACS_P16_MAX: add-compare-select, the larger path (R143). -/
def execVacsP16Max (o : OpV3) (s : State) : Host.Outcome State Fault Refusal :=
  intV3 (.vacsP16Max o) s o (vacs true)

end Sys2Proof.Machine
end

