-- ==== Sys2Proof/Machine/Trans.lean ====
section
/-! DEFINITION. The transcendental functions that R148 and R315 bound and do not fix: any FP32 value within the bound may come
out. The true value is computed to far more bits than the bound asks for, and the free value of Config is taken where it
lies within the bound (log entry 5). -/
namespace Sys2Proof.Machine

/-- The dyadic m * 2^e as an integer multiple of 2^k. -/
def dyAt (neg : Bool) (m : Nat) (e k : Int) : Int := (if neg then -1 else 1) * ((m * 2 ^ (e - k).toNat / 2 ^ (k - e).toNat : Nat) : Int)

/-- Exponent of an FP32 unit in the last place of m * 2^e. -/
def ulp32 (m : Nat) (e : Int) : Int := (if m = 0 then -126 else max (expOf m e) (-126)) - 23

/-- The exponent of the bound: two units in the last place, or 2^floor where that is larger. -/
def boundExp (m : Nat) (e : Int) (floor : Int) : Int := max (ulp32 m e + 1) floor

/-- The FP32 datum lies within the bound of m * 2^e; infinity stands for the next power of two (R148). -/
def withinBound (floor : Int) (neg : Bool) (m : Nat) (e : Int) (x : W32) : Bool :=
  let b := boundExp m e floor
  let near := fun (n : Bool) (p : Nat) (q : Int) =>
    let k := min b (min e q)
    decide ((dyAt n p q k - dyAt neg m e k).natAbs ≤ (dyAt false 1 b k).natAbs)
  match f32 x with
  | .nan => false
  | .inf n => near n 1 128
  | .fin n p q => near n p q

/-- The free value where the bound allows it, the nearest FP32 value otherwise. -/
def bounded (floor : Int) (neg : Bool) (m : Nat) (e : Int) (free : W32) : W32 :=
  if withinBound floor neg m e free then free else round32 (.fin neg m e) 0

/-- Fraction bits of the fixed-point values below. -/
def fixBits : Nat := 128

/-- ln 2 in fixed point. -/
def fixLn2 : Nat := 235865763225513294137944142764154484399

/-- 2 pi with 320 fraction bits: enough to reduce every product of R315. -/
def twoPi320 : Nat := 13420802360424337830311681948440006481608388178854297901454212848703426437343610760199000777828079

/-- A series for e^x in fixed point: `t` is the term before number `k`. -/
def expTerms (x : Nat) : Nat → Nat → Nat → Nat
  | 0, _, _ => 0
  | n + 1, k, t => t + expTerms x n (k + 1) (t * x / 2 ^ fixBits / (k + 1))

/-- 2^x of a fraction in fixed point. -/
def exp2Frac (x : Nat) : Nat := expTerms (x * fixLn2 / 2 ^ fixBits) 50 0 (2 ^ fixBits)

/-- 2^x of a signed fixed-point x: a significand and an exponent. -/
def exp2Fix (x : Int) : Nat × Int :=
  (exp2Frac (x % 2 ^ fixBits).toNat, x / 2 ^ fixBits - fixBits)

/-- The binary digits of log2 u, for u in [1, 2) in fixed point. -/
def log2Digits : Nat → Nat → Nat
  | 0, _ => 0
  | n + 1, u =>
    let v := u * u / 2 ^ fixBits
    if 2 ^ (fixBits + 1) ≤ v then 2 ^ n + log2Digits n (v / 2) else log2Digits n v

/-- A series of sine and cosine at `r`, with 320 fraction bits. -/
def trigTerms (r : Int) : Nat → Nat → Int → Int
  | 0, _, _ => 0
  | n + 1, k, t => t + trigTerms r n (k + 2) (-(t * r / 2 ^ 320 * r / 2 ^ 320 / (((k + 1) * (k + 2) : Nat) : Int)))

/-- The angle m * 2^e reduced by whole turns, with 320 fraction bits (R148: exact for every finite operand). -/
def reduceAngle (m : Nat) (e : Int) : Int := (((m * 2 ^ (e + 320).toNat / 2 ^ (-(e + 320)).toNat) % twoPi320 : Nat) : Int)

/-- sin and cos of m * 2^e, as multiples of 2^-320. -/
def sinFix (neg : Bool) (m : Nat) (e : Int) : Int :=
  let v := trigTerms (reduceAngle m e) 60 1 (reduceAngle m e)
  if neg then -v else v
def cosFix (m : Nat) (e : Int) : Int := trigTerms (reduceAngle m e) 60 0 (2 ^ 320)

/-- A bounded result of a fixed-point value with 320 fraction bits. -/
def boundedFix (floor : Int) (v : Int) (free : W32) : W32 := bounded floor (decide (v < 0)) v.natAbs (-320) free

/-- The floor of m * 2^e in fixed point: a negative value is below 0 however small it is. -/
def floorFix (neg : Bool) (m : Nat) (e : Int) : Int :=
  let k : Int := -(fixBits : Int)
  if neg && dyGt m e (dyAt false m e k).natAbs k then dyAt true m e k - 1 else dyAt neg m e k

/-- 2^a: exact where a is integral and in range, infinities as R148 gives, within 2 ulp otherwise. -/
def ex2Of (a : W32) : W32 :=
  match f32 a with
  | .nan => nan32
  | .inf n => if n then 0 else 0x7F800000
  | .fin n m e =>
    let whole := roundQ false m e 0 1
    let k : Int := if n then -(whole : Int) else whole
    if ¬(dyGt m e whole 0) ∧ -149 ≤ k ∧ k ≤ 127 then exact32 (.fin false 1 k)
    else
      let y := if 512 ≤ whole then (1, if n then -512 else 512) else exp2Fix (floorFix n m e)
      bounded (-400) false y.1 y.2 (Config.ex2 a)

/-- log2 a: exact for a = 2^n, special values as R148 gives, within 2 ulp or 2^-22 otherwise. -/
def lg2Of (a : W32) : W32 :=
  match f32 a with
  | .nan => nan32
  | .inf n => if n then nan32 else 0x7F800000
  | .fin n m e =>
    if m = 0 then 0xFF800000
    else if n then nan32
    else if m = 2 ^ Nat.log2 m then exact32 (extOfInt (expOf m e))
    else
      let v : Int := expOf m e * 2 ^ 80 + (log2Digits 80 (m * 2 ^ fixBits / 2 ^ Nat.log2 m) : Nat)
      bounded (-22) (decide (v < 0)) v.natAbs (-80) (Config.lg2 a)

/-- sin and cos: NaN for infinities, sin keeps both zeros, within 2 ulp or 2^-22 otherwise (R148). -/
def sinOf (a : W32) : W32 :=
  match f32 a with
  | .nan => nan32
  | .inf _ => nan32
  | .fin n m e => if m = 0 then a else boundedFix (-22) (sinFix n m e) (Config.sin a)

def cosOf (a : W32) : W32 :=
  match f32 a with
  | .nan => nan32
  | .inf _ => nan32
  | .fin _ m e => boundedFix (-22) (cosFix m e) (Config.cos a)

/-- tanh: ±1 for infinities, ±0 kept, within 2 ulp or 2^-24 otherwise (R148). -/
def tanhOf (a : W32) : W32 :=
  match f32 a with
  | .nan => nan32
  | .inf n => if n then 0xBF800000 else 0x3F800000
  | .fin n m e =>
    if m = 0 then a
    else
      let x := m * 2 ^ (e + 129).toNat / 2 ^ (-(e + 129)).toNat
      let y := if 2 ^ (fixBits + 6) ≤ x then 2 ^ 100 - 1
        else
          let w := exp2Fix ((x * 2 ^ fixBits / fixLn2 : Nat) : Int)
          let one := 2 ^ fixBits
          let ex := w.1 * 2 ^ (w.2 + fixBits).toNat
          (ex - one) * 2 ^ 100 / (ex + one)
      bounded (-24) n y (-100) (Config.tanh a)

/-- cos or sin of a position times a frequency, the product exact (R315). -/
def ropeOf (isSin : Bool) (p : Nat) (w : W32) : W32 :=
  match f32 w with
  | .fin n m e =>
    if isSin then boundedFix (-22) (sinFix n (p * m) e) (Config.ropeSin (w32 p) w)
    else boundedFix (-22) (cosFix (p * m) e) (Config.ropeCos (w32 p) w)
  | _ => nan32

end Sys2Proof.Machine
end

