-- ==== Sys2Proof/Machine/LaneFp.lean ====
section
/-! DEFINITION. Floating-point lane operations, special functions, conversions (R53, R144 to R154). -/
namespace Sys2Proof.Machine

/-- Two floating-point sources (FP_V3 of R145). -/
def fpV3 (i : Instr) (s : State) (o : OpV3) (f : Nat → W32 → W32 → W32) : Host.Outcome State Fault Refusal :=
  runVec i s o.vd.toNat noPre (fun v => [v.src o.vs1 o.e1, v.src o.vs2 o.e2])
    (fun v l => v.fout (f v.mode (v.fp o.vs1 l) (v.fp o.vs2 l)))

/-- FMIN and FMAX: the selected operand as read (R145). -/
def fpSel (i : Instr) (s : State) (o : OpV3) (f : W32 → W32 → W32) : Host.Outcome State Fault Refusal :=
  runVec i s o.vd.toNat noPre (fun v => [v.src o.vs1 o.e1, v.src o.vs2 o.e2])
    (fun v l => ires (f (v.fp o.vs1 l) (v.fp o.vs2 l)))

/-- FADD_F32: a + b rounded once to FP32 (R145). -/
def execFaddF32 (o : OpV3) (s : State) : Host.Outcome State Fault Refusal :=
  fpV3 (.faddF32 o) s o fadd32

/-- FSUB_F32: a - b rounded once to FP32 (R145). -/
def execFsubF32 (o : OpV3) (s : State) : Host.Outcome State Fault Refusal :=
  fpV3 (.fsubF32 o) s o fsub32

/-- FMUL_F32: a * b rounded once to FP32 (R145). -/
def execFmulF32 (o : OpV3) (s : State) : Host.Outcome State Fault Refusal :=
  fpV3 (.fmulF32 o) s o fmul32

/-- FMIN_F32: the minimum, a NaN yields to a number (R145). -/
def execFminF32 (o : OpV3) (s : State) : Host.Outcome State Fault Refusal :=
  fpSel (.fminF32 o) s o (fminmax32 false false)

/-- FMIN_F32_NAN: the minimum, a NaN propagates (R145). -/
def execFminF32Nan (o : OpV3) (s : State) : Host.Outcome State Fault Refusal :=
  fpSel (.fminF32Nan o) s o (fminmax32 false true)

/-- FMAX_F32: the maximum, a NaN yields to a number (R145). -/
def execFmaxF32 (o : OpV3) (s : State) : Host.Outcome State Fault Refusal :=
  fpSel (.fmaxF32 o) s o (fminmax32 true false)

/-- FMAX_F32_NAN: the maximum, a NaN propagates (R145). -/
def execFmaxF32Nan (o : OpV3) (s : State) : Host.Outcome State Fault Refusal :=
  fpSel (.fmaxF32Nan o) s o (fminmax32 true true)

/-- FADD_F32_16: the compact alias of FADD_F32, rounding under RMODE (R53, R54). -/
def execFaddF32_16 (o : OpC16) (s : State) : Host.Outcome State Fault Refusal :=
  fpV3 (.faddF32_16 o) s (c16v3 o) fadd32

/-- FSUB_F32_16: the compact alias of FSUB_F32, rounding under RMODE (R53, R54). -/
def execFsubF32_16 (o : OpC16) (s : State) : Host.Outcome State Fault Refusal :=
  fpV3 (.fsubF32_16 o) s (c16v3 o) fsub32

/-- FMUL_F32_16: the compact alias of FMUL_F32, rounding under RMODE (R53, R54). -/
def execFmulF32_16 (o : OpC16) (s : State) : Host.Outcome State Fault Refusal :=
  fpV3 (.fmulF32_16 o) s (c16v3 o) fmul32

/-- FMIN_F32_16: the compact alias of FMIN_F32 (R53). -/
def execFminF32_16 (o : OpC16) (s : State) : Host.Outcome State Fault Refusal :=
  fpSel (.fminF32_16 o) s (c16v3 o) (fminmax32 false false)

/-- FMAX_F32_16: the compact alias of FMAX_F32 (R53). -/
def execFmaxF32_16 (o : OpC16) (s : State) : Host.Outcome State Fault Refusal :=
  fpSel (.fmaxF32_16 o) s (c16v3 o) (fminmax32 true false)

/-- a * b + c with one rounding; the addend blocks on empty lanes (R57, R145). -/
def ffma (i : Instr) (s : State) (o : OpV3) (c : BitVec 7) (pre : Env → Exe Unit) : Host.Outcome State Fault Refusal :=
  runVec i s o.vd.toNat pre (fun v => [v.src o.vs1 o.e1, v.src o.vs2 o.e2, v.src c false])
    (fun v l => v.fout (ffma32 v.mode (v.fp o.vs1 l) (v.fp o.vs2 l) (v.fp c l)))

/-- FFMA_F32: a * b + vd (R144, R145). -/
def execFfmaF32 (o : OpV3) (s : State) : Host.Outcome State Fault Refusal :=
  ffma (.ffmaF32 o) s o o.vd noPre

/-- FFMA_F32_VC: a * b + c with c from PFX.VS3; without a prefix reason 6 (R144). -/
def execFfmaF32Vc (o : OpV3) (s : State) : Host.Outcome State Fault Refusal :=
  ffma (.ffmaF32Vc o) s o (vs3Of o.pfx) (needPfx o.pfx)

/-- FCMP_F32: a mask of FP32 comparisons (R146). -/
def execFcmpF32 (o : OpVCmp) (s : State) : Host.Outcome State Fault Refusal :=
  runMask (.fcmpF32 o) s o.md (fun v => [v.src o.vs1 o.e1, v.src o.vs2 o.e2])
    (fun v l => fcmp32 o.cc.toNat (v.fp o.vs1 l) (v.fp o.vs2 l))

/-- FCPYS: the magnitude of a with the sign bit of vb, S of va (R147). -/
def execFcpys (o : OpV3) (s : State) : Host.Outcome State Fault Refusal :=
  runVec (.fcpys o) s o.vd.toNat noPre (fun v => [v.src o.vs1 o.e1, v.src o.vs2 o.e2])
    (fun v l => Lane.full (fcpys32 (v.data o.vs1 l) (v.data o.vs2 l)) (v.w.lane o.vs1.toNat l).s)

/-- FNEG: the sign changed, S of va (R36, R147). -/
def execFneg (o : OpV2) (s : State) : Host.Outcome State Fault Refusal :=
  runVec (.fneg o) s o.vd.toNat noPre (fun v => [v.src o.vs1 o.e1])
    (fun v l => Lane.full (fneg32 (v.data o.vs1 l)) (v.w.lane o.vs1.toNat l).s)

/-- FABS: the sign changed, S of va (R36, R147). -/
def execFabs (o : OpV2) (s : State) : Host.Outcome State Fault Refusal :=
  runVec (.fabs o) s o.vd.toNat noPre (fun v => [v.src o.vs1 o.e1])
    (fun v l => Lane.full (fabs32 (v.data o.vs1 l)) (v.w.lane o.vs1.toNat l).s)

/-- FRINT: rounded to an integral FP32 value (R147). -/
def execFrint (o : OpV2) (s : State) : Host.Outcome State Fault Refusal :=
  runVec (.frint o) s o.vd.toNat noPre (fun v => [v.src o.vs1 o.e1]) (fun v l => v.fout (frint32 v.mode (v.fp o.vs1 l)))

/-- A special function: a producer of one FP32 source (R148). -/
def sfu (i : Instr) (s : State) (o : OpV2) (f : Nat → W32 → W32) : Host.Outcome State Fault Refusal :=
  runProducer i s o.vd.toNat (fun v => [v.src o.vs1 o.e1]) (fun v l => v.fout (f v.mode (v.fp o.vs1 l)))

/-- RCP: 1/a, correctly rounded (R148). -/
def execRcp (o : OpV2) (s : State) : Host.Outcome State Fault Refusal :=
  sfu (.rcp o) s o (rcp32)

/-- RSQ: 1 divided by the square root, correctly rounded (R148). -/
def execRsq (o : OpV2) (s : State) : Host.Outcome State Fault Refusal :=
  sfu (.rsq o) s o (rsq32)

/-- SQRT: the square root, correctly rounded (R148). -/
def execSqrt (o : OpV2) (s : State) : Host.Outcome State Fault Refusal :=
  sfu (.sqrt o) s o (sqrt32)

/-- EX2: 2^a (R148). -/
def execEx2 (o : OpV2) (s : State) : Host.Outcome State Fault Refusal :=
  sfu (.ex2 o) s o (fun _ a => ex2Of a)

/-- LG2: log2 a (R148). -/
def execLg2 (o : OpV2) (s : State) : Host.Outcome State Fault Refusal :=
  sfu (.lg2 o) s o (fun _ a => lg2Of a)

/-- SIN: sin a (R148). -/
def execSin (o : OpV2) (s : State) : Host.Outcome State Fault Refusal :=
  sfu (.sin o) s o (fun _ a => sinOf a)

/-- COS: cos a (R148). -/
def execCos (o : OpV2) (s : State) : Host.Outcome State Fault Refusal :=
  sfu (.cos o) s o (fun _ a => cosOf a)

/-- TANH: tanh a (R148). -/
def execTanh (o : OpV2) (s : State) : Host.Outcome State Fault Refusal :=
  sfu (.tanh o) s o (fun _ a => tanhOf a)

/-- FDIV_F32: a / b correctly rounded; a producer (R149). -/
def execFdivF32 (o : OpV3) (s : State) : Host.Outcome State Fault Refusal :=
  runProducer (.fdivF32 o) s o.vd.toNat (fun v => [v.src o.vs1 o.e1, v.src o.vs2 o.e2])
    (fun v l => v.fout (fdiv32 v.mode (v.fp o.vs1 l) (v.fp o.vs2 l)))

/-- A narrow code as a 32-bit result: signed integers sign-extended, others zero-extended (R151, R153). -/
def intResult (f code : Nat) : W32 :=
  if f = 8 ∨ f = 10 ∨ f = 11 then BitVec.ofInt 32 (sextNat (fmtWidth f) code) else w32 code

/-- The CVT of an exact source with its sticky bit to a format (R151). -/
def cvtTo (src : Ext) (sb : Bool) (f mode : Nat) : Lane :=
  if fmtIsInt f then ires (intResult f (finalRound src sb f mode))
  else if f = 0 then ires (round32 src mode)
  else carried (carry src sb f)

/-- CVT with an integer source (R151). -/
def cvtInt (i : Instr) (s : State) (o : OpVCvt) (rd : W32 → Int) : Host.Outcome State Fault Refusal :=
  runVec i s o.vd.toNat noPre (fun v => [v.src o.vs1 o.e1])
    (fun v l => cvtTo (extOfInt (rd (v.data o.vs1 l))) false o.dfmt.toNat v.mode)

/-- CVT: an FP32 source; to FP32 it keeps value and S (R34, R151). -/
def execCvt (o : OpVCvt) (s : State) : Host.Outcome State Fault Refusal :=
  runVec (.cvt o) s o.vd.toNat noPre (fun v => [v.src o.vs1 o.e1])
    (fun v l => if o.dfmt = 0 then v.moved o.vs1 l else cvtTo (f32 (v.data o.vs1 l)) (v.w.lane o.vs1.toNat l).s o.dfmt.toNat v.mode)

/-- CVT_I32: an INT32 source (R151). -/
def execCvtI32 (o : OpVCvt) (s : State) : Host.Outcome State Fault Refusal :=
  cvtInt (.cvtI32 o) s o (fun x => x.toInt)

/-- CVT_UI32: a UINT32 source (R151). -/
def execCvtUi32 (o : OpVCvt) (s : State) : Host.Outcome State Fault Refusal :=
  cvtInt (.cvtUi32 o) s o (fun x => (x.toNat : Int))

/-- PACK's new lane: the element's code over the old bits; 6-bit formats clear bits 31:24 (R152). -/
def packLane (old : W32) (f idx code : Nat) : W32 :=
  let x := setBits old.toNat (fmtWidth f * idx + fmtWidth f - 1) (fmtWidth f * idx) code
  w32 (if fmtWidth f = 6 then x % 2 ^ 24 else x)

/-- The value of element `idx` of a lane, exact in FP32 (R153). -/
def unpackLane (x : W32) (f idx : Nat) : W32 :=
  let c := x.toNat / 2 ^ (fmtWidth f * idx) % 2 ^ fmtWidth f
  if fmtIsInt f then intResult f c else exact32 (decodeFmt f c)

/-- PACK: one finally rounded element into vd, which is read and blocks (R57, R152). -/
def execPack (o : OpVPack) (s : State) : Host.Outcome State Fault Refusal :=
  runVec (.pack o) s o.vd.toNat noPre (fun v => [v.src o.vs1 o.e1, v.src o.vd false])
    (fun v l =>
      let f := o.fmt.toNat
      let code := if fmtIsInt f then finalRound (extOfInt (v.data o.vs1 l).toInt) false f v.mode
        else finalRound (f32 (v.data o.vs1 l)) (v.w.lane o.vs1.toNat l).s f v.mode
      ires (packLane (v.data o.vd l) f o.idx.toNat code))

/-- UNPACK: element IDX as its exact value (R153). -/
def execUnpack (o : OpVPack) (s : State) : Host.Outcome State Fault Refusal :=
  runVec (.unpack o) s o.vd.toNat noPre (fun v => [v.src o.vs1 o.e1]) (fun v l => ires (unpackLane (v.data o.vs1 l) o.fmt.toNat o.idx.toNat))

/-- QUANT of one lane (R39, R154). -/
def quantLane (x : Lane) (scale f : Nat) : Lane :=
  if scale = 255 then ires nan32
  else
    let y : Ext := match f32 x.data with
      | .fin n m e => .fin n m (e + 127 - scale)
      | q => q
    let q := carry y x.s f
    match q.1 with
    | .fin n m e => if dyGt m e (2 ^ 24 - 1) 104 then ires (exact32 (.inf n)) else carried q
    | _ => carried q

/-- QUANT: scaled by an E8M0 code of vb and carried to the format of PFX.IMX; a prefix is required (R154). -/
def execQuant (o : OpV3) (s : State) : Host.Outcome State Fault Refusal :=
  runVec (.quant o) s o.vd.toNat (needPfx o.pfx) (fun v => [v.src o.vs1 o.e1, v.src o.vs2 o.e2])
    (fun v l => quantLane (v.w.lane o.vs1.toNat l) ((v.data o.vs2 l).toNat % 256)
      (match o.pfx with | some q => q.imx.toNat % 16 | none => 0))

end Sys2Proof.Machine
end

