-- ==== Sys2Proof/Machine/MaskMove.lean ====
section
/-! DEFINITION. Mask logic, moves between vector and scalar registers, full-bit control (R121, R128 to R130). -/
namespace Sys2Proof.Machine

/-- Mask logic into m[md] (R129); naming m0 traps (R128). -/
def maskLogic (i : Instr) (s : State) (md : BitVec 3) (srcs : List (BitVec 3)) (f : List W64 → W64) :
    Host.Outcome State Fault Refusal :=
  run i s (fun e => do
    need (decide (md ≠ 0)) (e.ill 9)
    let v ← venv s e
    let ms ← srcs.mapM (fun r => rdM e v.w r.toNat)
    pure (s.modWarp e.ci e.wi (fun w => w.setM md.toNat v (f ms).getLsbD)))

/-- MAND: lane by lane over the active lanes (R129). -/
def execMand (o : OpM3) (s : State) : Host.Outcome State Fault Refusal :=
  maskLogic (.mand o) s o.md [o.ma, o.mb] (fun l => l.getD 0 0 &&& l.getD 1 0)

/-- MOR: lane by lane over the active lanes (R129). -/
def execMor (o : OpM3) (s : State) : Host.Outcome State Fault Refusal :=
  maskLogic (.mor o) s o.md [o.ma, o.mb] (fun l => l.getD 0 0 ||| l.getD 1 0)

/-- MXOR: lane by lane over the active lanes (R129). -/
def execMxor (o : OpM3) (s : State) : Host.Outcome State Fault Refusal :=
  maskLogic (.mxor o) s o.md [o.ma, o.mb] (fun l => l.getD 0 0 ^^^ l.getD 1 0)

/-- MNOT: the complement over the active lanes (R129). -/
def execMnot (o : OpM2) (s : State) : Host.Outcome State Fault Refusal :=
  maskLogic (.mnot o) s o.md [o.ma] (fun l => ~~~(l.getD 0 0))

/-- MPOPC: the number of active lanes set in ma (R129). -/
def execMpopc (o : OpMS) (s : State) : Host.Outcome State Fault Refusal :=
  run (.mpopc o) s (fun e => do
    let v ← venv s e
    let m ← rdM e v.w o.ma.toNat
    wrS s e o.sd.toNat (BitVec.ofNat 64 (popMask (m &&& v.act))))

/-- VTOS of lane `j`: its data zero-extended, 0 where no lane is active or `j` is not (R130). -/
def vtosFrom (s : State) (e : Env) (v : VEnv) (sd : BitVec 6) (va : BitVec 7) (ea : Bool) (j : Nat) (late : Exe Unit) : Exe State := do
  let on := v.act.getLsbD j
  checkV v 0 [⟨va.toNat, if on then 1#64 <<< j else 0, ea⟩]
  late
  wrS s e sd.toNat (if on then (v.data va j).setWidth 64 else 0)

/-- VTOS: lane s[sk] mod LANES to a scalar register (R130). -/
def execVtos (o : OpVSv) (s : State) : Host.Outcome State Fault Refusal :=
  run (.vtos o) s (fun e => do
    let v ← venvW s e
    regsOk e.k [o.vs1.toNat]
    let j ← rdSw s e o.sk.toNat
    vtosFrom s e v o.sd o.vs1 o.e1 (j.toNat % 64) (sOk s e o.sk.toNat))

/-- VTOS first: the lowest active lane (R130). -/
def execVtosFirst (o : OpVSf) (s : State) : Host.Outcome State Fault Refusal :=
  run (.vtosFirst o) s (fun e => do
    let v ← venvW s e
    regsOk e.k [o.vs1.toNat]
    vtosFrom s e v o.sd o.vs1 o.e1 ((lowLane v.act).getD 0) (.ok ()))

/-- STOV of 32 bits of a scalar register to the active lanes (R130). -/
def stovOf (i : Instr) (s : State) (o : OpVStov) (f : W64 → W32) : Host.Outcome State Fault Refusal :=
  run i s (fun e => do
    let v ← venvW s e
    regsOk e.k [o.vd.toNat]
    maskOk v
    let x ← rdS s e o.ss.toNat
    dstFree v.w [o.vd.toNat] (v.act ||| v.zl)
    pure (s.modWarp e.ci e.wi (fun w => w.out v o.vd.toNat (fun _ => Lane.full (f x) false))))

/-- STOV: bits 31:0 (R130). -/
def execStov (o : OpVStov) (s : State) : Host.Outcome State Fault Refusal :=
  stovOf (.stov o) s o (fun x => x.setWidth 32)

/-- STOV.HI: bits 63:32 (R130). -/
def execStovHi (o : OpVStov) (s : State) : Host.Outcome State Fault Refusal :=
  stovOf (.stovHi o) s o (fun x => x.extractLsb' 32 32)

/-- SETE and SETF: F of the active lanes, data and S unchanged (R121). -/
def setFull (i : Instr) (s : State) (o : OpV1) (full : Bool) : Host.Outcome State Fault Refusal :=
  run i s (fun e => do
    let v ← venvW s e
    regsOk e.k [o.vd.toNat]
    maskOk v
    dstFree v.w [o.vd.toNat] (v.act ||| v.zl)
    pure (s.modWarp e.ci e.wi (fun w => w.out v o.vd.toNat (fun l => { w.lane o.vd.toNat l with f := full }))))

/-- SETE: the active lanes become vacant (R121). -/
def execSete (o : OpV1) (s : State) : Host.Outcome State Fault Refusal :=
  setFull (.sete o) s o false

/-- SETF: the active lanes become full (R121). -/
def execSetf (o : OpV1) (s : State) : Host.Outcome State Fault Refusal :=
  setFull (.setf o) s o true

/-- TSTF: F of each active lane, without a wait (R121). -/
def execTstf (o : OpVTst) (s : State) : Host.Outcome State Fault Refusal :=
  run (.tstf o) s (fun e => do
    need (decide (o.md ≠ 0)) (e.ill 9)
    let v ← venvW s e
    regsOk e.k [o.vs1.toNat]
    maskOk v
    pure (s.modWarp e.ci e.wi (fun w => w.setM o.md.toNat v (fun l => (v.w.lane o.vs1.toNat l).f))))

end Sys2Proof.Machine
end

