-- ==== Sys2Proof/Machine/Scalar.lean ====
section
/-! DEFINITION. Scalar arithmetic and the scalar immediate forms (R125 to R127). -/
namespace Sys2Proof.Machine

/-- A scalar operation of two registers, on 64 bits or, with W = 1, on the low 32 with a sign-extended result
(R126). -/
def salu (i : Instr) (s : State) (o : OpS3) (f : W64 → W64 → W64) (g : W32 → W32 → W32) : Host.Outcome State Fault Refusal :=
  run i s (fun e => do
    let a ← rdS s e o.ss1.toNat
    let b ← rdS s e o.ss2.toNat
    wrS s e o.sd.toNat (if o.w then (g (a.setWidth 32) (b.setWidth 32)).signExtend 64 else f a b))

/-- A scalar operation of one register (R126). -/
def salu1 (i : Instr) (s : State) (o : OpS2) (f : W64 → W64) (g : W32 → W32) : Host.Outcome State Fault Refusal :=
  run i s (fun e => do
    let a ← rdS s e o.ss1.toNat
    wrS s e o.sd.toNat (if o.w then (g (a.setWidth 32)).signExtend 64 else f a))

/-- A truth value as a result. -/
def flag {n : Nat} (b : Bool) : BitVec n := if b then 1 else 0

/-- The high half of the signed product. -/
def mulHi {n : Nat} (a b : BitVec n) : BitVec n := BitVec.ofInt n (a.toInt * b.toInt / 2 ^ n)

/-- The high half of the unsigned product. -/
def mulHiU {n : Nat} (a b : BitVec n) : BitVec n := BitVec.ofNat n (a.toNat * b.toNat / 2 ^ n)

/-- Set bits among the low `n` of a value. -/
def setBitsOf : Nat → Nat → Nat
  | 0, _ => 0
  | n + 1, v => v % 2 + setBitsOf n (v / 2)

/-- A scalar register and an immediate (R127). -/
def saluI (i : Instr) (s : State) (o : OpSI) (f : W64 → W64 → W64) : Host.Outcome State Fault Refusal :=
  run i s (fun e => do
    let a ← rdS s e o.ss1.toNat
    wrS s e o.sd.toNat (f a (siImm o.imm12 o.lim)))

/-- SADD: a + b modulo 2^64 (R126). -/
def execSadd (o : OpS3) (s : State) : Host.Outcome State Fault Refusal :=
  salu (.sadd o) s o (fun a b => a + b) (fun a b => a + b)

/-- SSUB: a - b modulo 2^64 (R126). -/
def execSsub (o : OpS3) (s : State) : Host.Outcome State Fault Refusal :=
  salu (.ssub o) s o (fun a b => a - b) (fun a b => a - b)

/-- SMUL: the low bits of the product (R126). -/
def execSmul (o : OpS3) (s : State) : Host.Outcome State Fault Refusal :=
  salu (.smul o) s o (fun a b => a * b) (fun a b => a * b)

/-- SMULH: the high half of the signed product (R126). -/
def execSmulh (o : OpS3) (s : State) : Host.Outcome State Fault Refusal :=
  salu (.smulh o) s o (fun a b => mulHi a b) (fun a b => mulHi a b)

/-- SMULHU: the high half of the unsigned product (R126). -/
def execSmulhu (o : OpS3) (s : State) : Host.Outcome State Fault Refusal :=
  salu (.smulhu o) s o (fun a b => mulHiU a b) (fun a b => mulHiU a b)

/-- SAND: bitwise and (R126). -/
def execSand (o : OpS3) (s : State) : Host.Outcome State Fault Refusal :=
  salu (.sand o) s o (fun a b => a &&& b) (fun a b => a &&& b)

/-- SOR: bitwise or (R126). -/
def execSor (o : OpS3) (s : State) : Host.Outcome State Fault Refusal :=
  salu (.sor o) s o (fun a b => a ||| b) (fun a b => a ||| b)

/-- SXOR: bitwise exclusive or (R126). -/
def execSxor (o : OpS3) (s : State) : Host.Outcome State Fault Refusal :=
  salu (.sxor o) s o (fun a b => a ^^^ b) (fun a b => a ^^^ b)

/-- SSHL: a shifted left (R126). -/
def execSshl (o : OpS3) (s : State) : Host.Outcome State Fault Refusal :=
  salu (.sshl o) s o (fun a b => a <<< (b.toNat % 64)) (fun a b => a <<< (b.toNat % 32))

/-- SSHR: a shifted right logically (R126). -/
def execSshr (o : OpS3) (s : State) : Host.Outcome State Fault Refusal :=
  salu (.sshr o) s o (fun a b => a >>> (b.toNat % 64)) (fun a b => a >>> (b.toNat % 32))

/-- SSAR: a shifted right arithmetically (R126). -/
def execSsar (o : OpS3) (s : State) : Host.Outcome State Fault Refusal :=
  salu (.ssar o) s o (fun a b => a.sshiftRight (b.toNat % 64)) (fun a b => a.sshiftRight (b.toNat % 32))

/-- SMIN: signed minimum (R126). -/
def execSmin (o : OpS3) (s : State) : Host.Outcome State Fault Refusal :=
  salu (.smin o) s o (fun a b => if b.slt a then b else a) (fun a b => if b.slt a then b else a)

/-- SMAX: signed maximum (R126). -/
def execSmax (o : OpS3) (s : State) : Host.Outcome State Fault Refusal :=
  salu (.smax o) s o (fun a b => if a.slt b then b else a) (fun a b => if a.slt b then b else a)

/-- SMINU: unsigned minimum (R126). -/
def execSminu (o : OpS3) (s : State) : Host.Outcome State Fault Refusal :=
  salu (.sminu o) s o (fun a b => if b.ult a then b else a) (fun a b => if b.ult a then b else a)

/-- SMAXU: unsigned maximum (R126). -/
def execSmaxu (o : OpS3) (s : State) : Host.Outcome State Fault Refusal :=
  salu (.smaxu o) s o (fun a b => if a.ult b then b else a) (fun a b => if a.ult b then b else a)

/-- SSEQ: 1 if a = b (R126). -/
def execSseq (o : OpS3) (s : State) : Host.Outcome State Fault Refusal :=
  salu (.sseq o) s o (fun a b => flag (decide (a = b))) (fun a b => flag (decide (a = b)))

/-- SSNE: 1 if a ≠ b (R126). -/
def execSsne (o : OpS3) (s : State) : Host.Outcome State Fault Refusal :=
  salu (.ssne o) s o (fun a b => flag (decide (a ≠ b))) (fun a b => flag (decide (a ≠ b)))

/-- SSLT: 1 if a < b, signed (R126). -/
def execSslt (o : OpS3) (s : State) : Host.Outcome State Fault Refusal :=
  salu (.sslt o) s o (fun a b => flag (a.slt b)) (fun a b => flag (a.slt b))

/-- SSLTU: 1 if a < b, unsigned (R126). -/
def execSsltu (o : OpS3) (s : State) : Host.Outcome State Fault Refusal :=
  salu (.ssltu o) s o (fun a b => flag (a.ult b)) (fun a b => flag (a.ult b))

/-- SSLE: 1 if a ≤ b, signed (R126). -/
def execSsle (o : OpS3) (s : State) : Host.Outcome State Fault Refusal :=
  salu (.ssle o) s o (fun a b => flag (!b.slt a)) (fun a b => flag (!b.slt a))

/-- SSLEU: 1 if a ≤ b, unsigned (R126). -/
def execSsleu (o : OpS3) (s : State) : Host.Outcome State Fault Refusal :=
  salu (.ssleu o) s o (fun a b => flag (!b.ult a)) (fun a b => flag (!b.ult a))

/-- SCLZ: leading zero bits (R126). -/
def execSclz (o : OpS2) (s : State) : Host.Outcome State Fault Refusal :=
  salu1 (.sclz o) s o (fun a => BitVec.ofNat 64 (64 - bitLen 64 a.toNat)) (fun a => BitVec.ofNat 32 (32 - bitLen 32 a.toNat))

/-- SPOPC: set bits (R126). -/
def execSpopc (o : OpS2) (s : State) : Host.Outcome State Fault Refusal :=
  salu1 (.spopc o) s o (fun a => BitVec.ofNat 64 (setBitsOf 64 a.toNat)) (fun a => BitVec.ofNat 32 (setBitsOf 32 a.toNat))

/-- SADDI: sa + imm modulo 2^64 (R127). -/
def execSaddi (o : OpSI) (s : State) : Host.Outcome State Fault Refusal :=
  saluI (.saddi o) s o (fun a n => a + n)

/-- SANDI: sa AND imm (R127). -/
def execSandi (o : OpSI) (s : State) : Host.Outcome State Fault Refusal :=
  saluI (.sandi o) s o (fun a n => a &&& n)

/-- SORI: sa OR imm (R127). -/
def execSori (o : OpSI) (s : State) : Host.Outcome State Fault Refusal :=
  saluI (.sori o) s o (fun a n => a ||| n)

/-- SXORI: sa XOR imm (R127). -/
def execSxori (o : OpSI) (s : State) : Host.Outcome State Fault Refusal :=
  saluI (.sxori o) s o (fun a n => a ^^^ n)

/-- SSHLI: sa shifted left by imm bits 5:0 (R127). -/
def execSshli (o : OpSI) (s : State) : Host.Outcome State Fault Refusal :=
  saluI (.sshli o) s o (fun a n => a <<< (n.toNat % 64))

/-- SSHRI: sa shifted right by imm bits 5:0 (R127). -/
def execSshri (o : OpSI) (s : State) : Host.Outcome State Fault Refusal :=
  saluI (.sshri o) s o (fun a n => a >>> (n.toNat % 64))

/-- SSHRI_A: sa shifted right arithmetically by imm bits 5:0 (R127). -/
def execSshriA (o : OpSI) (s : State) : Host.Outcome State Fault Refusal :=
  saluI (.sshriA o) s o (fun a n => a.sshiftRight (n.toNat % 64))

/-- SMOVHI: imm above the low 32 bits of sa (R127). -/
def execSmovhi (o : OpSI) (s : State) : Host.Outcome State Fault Refusal :=
  saluI (.smovhi o) s o (fun a n => (n <<< 32) ||| (a.setWidth 32).setWidth 64)

/-- SSLTI: 1 if sa < imm, signed (R127). -/
def execSslti (o : OpSI) (s : State) : Host.Outcome State Fault Refusal :=
  saluI (.sslti o) s o (fun a n => flag (a.slt n))

/-- SMOVI: the immediate (R127). -/
def execSmovi (o : OpSIm) (s : State) : Host.Outcome State Fault Refusal :=
  run (.smovi o) s (fun e => wrS s e o.sd.toNat (siImm o.imm12 o.lim))

end Sys2Proof.Machine
end

