-- ==== Sys2Proof/Machine/Select.lean ====
section
/-! DEFINITION. Selection and sampling instructions of the control warps (R334 to R336, R460), rotary angles (R315)
and the online soft-maximum (R316). -/
namespace Sys2Proof.Machine

/-- Every lane of a warp. -/
def allLanes : W64 := BitVec.allOnes 64

/-- A score as TOPK and SAMPLE read it (R37). -/
def VEnv.score (v : VEnv) (r i : Nat) : W32 := read32 (v.w.lane r i).data (v.w.lane r i).s v.mode

/-- The data bits of any lane of a register. -/
def VEnv.word (v : VEnv) (r i : Nat) : W32 := (v.w.lane r i).data

/-- `a` comes before `b` in TOPK's order: higher score, then lower index (R334). -/
def topBefore (a b : W32 × W32) : Bool := fcmpLt b.1 a.1 || (fcmpEq a.1 b.1 && decide (a.2.toNat ≤ b.2.toNat))

/-- Inserts a pair behind those that come before it. -/
def topInsert (a : W32 × W32) : List (W32 × W32) → List (W32 × W32)
  | [] => [a]
  | b :: r => if topBefore b a then b :: topInsert a r else a :: b :: r

/-- The pairs in order, those without a score left out. -/
def topSort (l : List (W32 × W32)) : List (W32 × W32) := (l.filter (fun p => !(isNan32 p.1))).foldl (fun acc p => topInsert p acc) []

/-- The length of the list (R334). -/
def topK (p : Option Pfx) : Nat :=
  match p with
  | some q => if q.imx.toNat % 128 = 0 then 64 else q.imx.toNat % 128
  | none => 64

/-- An entry of the list, or the empty entry. -/
def topEntry (k : Nat) (u : List (W32 × W32)) (i : Nat) : W32 × W32 := if i < k then u.getD i (0xFF800000, 0xFFFFFFFF) else (0xFF800000, 0xFFFFFFFF)

/-- TOPK: merges the active candidates into the list at vd, vd + 1 (R334, R460). -/
def execTopk (o : OpV3) (s : State) : Host.Outcome State Fault Refusal :=
  run (.topk o) s (fun e => do
    let v ← venvW s e
    let d := o.vd.toNat
    regsOk e.k [d, d + 1, o.vs1.toNat, o.vs2.toNat]
    checkV v 0 [v.src o.vs1 o.e1, v.src o.vs2 o.e2, ⟨d, allLanes, false⟩, ⟨d + 1, allLanes, false⟩]
    let l := (List.range 64).map (fun i => (v.score d i, v.word (d + 1) i))
    let c := (lanesOf v.act).map (fun i => (v.score o.vs1.toNat i, v.word o.vs2.toNat i))
    let u := topSort (l ++ c)
    pure (s.modWarp e.ci e.wi (fun w =>
      (w.setLanes d allLanes (fun i => Lane.full (topEntry (topK o.pfx) u i).1 false)).setLanes (d + 1) allLanes
        (fun i => Lane.full (topEntry (topK o.pfx) u i).2 false))))

/-- The generator of R335, modulo 2^64. -/
def genStep (x : W64) (sh : Nat) (m : W64) : W64 := (x ^^^ (x >>> sh)) * m
def sampleGen (seed ctr : W64) : W64 :=
  let x := genStep (genStep (seed ^^^ (ctr * 0x9E3779B97F4A7C15#64)) 30 0xBF58476D1CE4E5B9#64) 27 0x94D049BB133111EB#64
  x ^^^ (x >>> 31)

/-- The leading entries of the list that hold an index (R335). -/
def sampleLen (idx : Nat → W32) : Nat → Nat → Nat
  | 0, _ => 0
  | n + 1, j => if idx j = 0xFFFFFFFF then 0 else 1 + sampleLen idx n (j + 1)

/-- Running sums under RNE. -/
def sampleSums (acc : Option W32) : List W32 → List W32
  | [] => []
  | w :: r =>
    let c := match acc with | some a => fadd32 0 a w | none => w
    c :: sampleSums (some c) r

/-- A finite number above +0. -/
def posFinite (x : W32) : Bool := !(isNan32 x) && !(sign32 x) && decide (x ≠ 0 ∧ x ≠ 0x7F800000)

/-- The draw of R335. -/
def sampleDraw (sc idx : Nat → W32) (temp topp klim : W32) (seed ctr : W64) : W32 :=
  let k := sampleLen idx (if klim = 0 then 64 else min klim.toNat 64) 0
  if k = 0 then 0xFFFFFFFF
  else if k = 1 ∨ !(posFinite temp) ∨ isNan32 (sc 0) ∨ sc 0 = 0x7F800000 then idx 0
  else
    let cs := sampleSums none ((List.range k).map (fun j => ex2Of (fdiv32 0 (fsub32 0 (sc j) (sc 0)) temp)))
    let p := if posFinite topp && fcmp32 3 topp 0x3F800000 then topp else 0x3F800000
    let cut := fmul32 0 p (cs.getD (k - 1) 0)
    match (List.range k).find? (fun j => fcmp32 5 (cs.getD j 0) cut) with
    | none => idx 0
    | some m =>
      let u := round32 (.fin false (bitsOf (sampleGen seed ctr) 63 40) (-24)) 0
      let t := fmul32 0 u (cs.getD m 0)
      match (List.range (m + 1)).find? (fun j => fcmp32 4 (cs.getD j 0) t) with
      | some j => idx j
      | none => idx 0

/-- SAMPLE (R335, R460). -/
def execSample (o : OpV3) (s : State) : Host.Outcome State Fault Refusal :=
  run (.sample o) s (fun e => do
    let v ← venvW s e
    let a := o.vs1.toNat
    let b := o.vs2.toNat
    regsOk e.k [o.vd.toNat, a, a + 1, b]
    checkV v 0 [⟨a, allLanes, o.e1⟩, ⟨a + 1, allLanes, o.e1⟩, ⟨b, 0x3F, o.e2⟩]
    dstFree v.w [o.vd.toNat] (v.act ||| v.zl)
    let seed := BitVec.ofNat 64 ((v.word b 3).toNat + (v.word b 4).toNat * 2 ^ 32)
    let r := sampleDraw (v.score a) (v.word (a + 1)) (v.score b 0) (v.score b 1) (v.word b 2) seed ((v.word b 5).setWidth 64)
    pure (s.modWarp e.ci e.wi (fun w => w.out v o.vd.toNat (fun _ => Lane.full r false))))

/-- The stop code of R336 for the last eight tokens and the 64 words of a stop set. -/
def stopCode (tok set : Nat → W32) : W32 :=
  let none32 : W32 := 0xFFFFFFFF
  match (List.range 16).find? (fun w => decide (tok 7 ≠ none32 ∧ set w = tok 7)) with
  | some w => BitVec.ofNat 32 (1 + w * 256)
  | none =>
    match (List.range 4).find? (fun t =>
      let n := (set (48 + t)).toNat
      decide (0 < n ∧ n ≤ 8) && (List.range n).all (fun i => decide (tok (8 - n + i) ≠ none32 ∧ tok (8 - n + i) = set (16 + 8 * t + i)))) with
    | some t => BitVec.ofNat 32 (2 + t * 256)
    | none => 0

/-- STOPCHK (R336, R460). -/
def execStopchk (o : OpV3) (s : State) : Host.Outcome State Fault Refusal :=
  run (.stopchk o) s (fun e => do
    let v ← venvW s e
    let a := o.vs1.toNat
    let b := o.vs2.toNat
    regsOk e.k [o.vd.toNat, a, b]
    checkV v 0 [⟨a, 0xFF, o.e1⟩, ⟨b, allLanes, o.e2⟩]
    dstFree v.w [o.vd.toNat] (v.act ||| v.zl)
    let r := stopCode (v.word a) (v.word b)
    pure (s.modWarp e.ci e.wi (fun w => w.out v o.vd.toNat (fun _ => Lane.full r false))))

/-- The angle's cosine or sine (R315): the canonical NaN where a position or frequency is out of range. -/
def ropeLane (isSin : Bool) (p w : W32) : W32 := if 2 ^ 24 ≤ p.toNat then nan32 else ropeOf isSin p.toNat w

/-- ROPE: a producer (R315). -/
def rope (i : Instr) (s : State) (o : OpV3) (isSin : Bool) : Host.Outcome State Fault Refusal :=
  runProducer i s o.vd.toNat (fun v => [v.src o.vs1 o.e1, v.src o.vs2 o.e2]) (fun v l => v.fout (ropeLane isSin (v.data o.vs1 l) (v.fp o.vs2 l)))

/-- ROPE.COS (R315). -/
def execRopeCos (o : OpV3) (s : State) : Host.Outcome State Fault Refusal := rope (.ropeCos o) s o false
/-- ROPE.SIN (R315). -/
def execRopeSin (o : OpV3) (s : State) : Host.Outcome State Fault Refusal := rope (.ropeSin o) s o true

/-- An exact value is above an integer. -/
def extGtInt (x : Ext) (n : Int) : Bool :=
  match x with
  | .nan => false
  | .inf neg => !neg
  | .fin neg m e =>
    let a : Int := (if neg then -1 else 1) * (m * pow2 e : Nat)
    decide (n * (pow2 (-e) : Nat) < a)

/-- clampR of the ceiling of a value that is no NaN (R316). -/
def clampCeil (x : Ext) : Int :=
  match x with
  | .nan => 0
  | .inf neg => if neg then -2 ^ 31 + 1 else 2 ^ 31 - 1
  | .fin neg m e =>
    let a : Int := (if neg then -1 else 1) * (m * pow2 e : Nat)
    min (max (-((-a) / (pow2 (-e) : Nat))) (-2 ^ 31 + 1)) (2 ^ 31 - 1)

/-- The state of a row after a new score (R316): M, REF, L and F. -/
def smxStep (mode : Nat) (m r l b : W32) : W32 × W32 × W32 × W32 :=
  let one : W32 := 0x3F800000
  let m2 := fminmax32 true false m b
  if isNan32 m2 ∨ m2 = 0xFF800000 then (m2, r, l, one)
  else if r = 0x80000000 then (m2, BitVec.ofInt 32 (clampCeil (f32 m2)), l, one)
  else if extGtInt (f32 m2) (r.toInt + 8) then
    let r2 := clampCeil (f32 m2)
    let f := round32 (.fin false 1 (r.toInt - r2)) mode
    (m2, BitVec.ofInt 32 r2, fmul32 mode l f, f)
  else (m2, r, l, one)

/-- A lane of a run register as SMXUPD reads it: R37, flushed under FTZ.VIN. -/
def VEnv.fpAt (v : VEnv) (r i : Nat) : W32 := flush32 v.vin (read32 (v.w.lane r i).data (v.w.lane r i).s v.mode)

/-- The sources of SMXUPD: the score, then M, REF and L, which always block (R57, R316). -/
def smxSrcs (v : VEnv) (o : OpV2) : List Src :=
  let d := o.vd.toNat
  [v.src o.vs1 o.e1, ⟨d, v.act, false⟩, ⟨d + 1, v.act, false⟩, ⟨d + 2, v.act, false⟩]

/-- SMXUPD (R316). -/
def execSmxupd (o : OpV2) (s : State) : Host.Outcome State Fault Refusal :=
  run (.smxupd o) s (fun e => do
    let v ← venvW s e
    let d := o.vd.toNat
    regsOk e.k [d, d + 1, d + 2, d + 3, o.vs1.toNat]
    checkV v 0 (smxSrcs v o)
    dstFree v.w [d, d + 1, d + 2, d + 3] (v.act ||| v.zl)
    let r := fun i => smxStep v.mode (v.fpAt d i) (v.word (d + 1) i) (v.fpAt (d + 2) i) (v.fp o.vs1 i)
    pure (s.modWarp e.ci e.wi (fun w =>
      (((w.out v d (fun i => v.fout (r i).1)).out v (d + 1) (fun i => ires (r i).2.1)).out v (d + 2) (fun i => v.fout (r i).2.2.1)).out v (d + 3)
        (fun i => v.fout (r i).2.2.2))))

/-- SMXUPD.SUM: adds to the running sum (R316). -/
def execSmxupdSum (o : OpV2) (s : State) : Host.Outcome State Fault Refusal :=
  run (.smxupdSum o) s (fun e => do
    let v ← venvW s e
    let d := o.vd.toNat
    regsOk e.k [d, d + 1, d + 2, d + 3, o.vs1.toNat]
    checkV v 0 (smxSrcs v o)
    dstFree v.w [d + 2] (v.act ||| v.zl)
    pure (s.modWarp e.ci e.wi (fun w => w.out v (d + 2) (fun i => v.fout (fadd32 v.mode (v.fpAt (d + 2) i) (v.fp o.vs1 i))))))

end Sys2Proof.Machine
end

