-- ==== Sys2Proof/Machine/Dispatch.lean ====
section
/-! DEFINITION. One arm per row of the opcode table: the one meaning of that instruction or event. -/
namespace Sys2Proof.Machine

/-- The effect of one instruction or event. -/
def exec (i : Instr) (s : State) : Host.Outcome State Fault Refusal :=
  match i with
  | .nop_16 o => Sys2Proof.Machine.execNop_16 o s
  | .mov_16 o => Sys2Proof.Machine.execMov_16 o s
  | .iaddI32_16 o => Sys2Proof.Machine.execIaddI32_16 o s
  | .isubI32_16 o => Sys2Proof.Machine.execIsubI32_16 o s
  | .and_16 o => Sys2Proof.Machine.execAnd_16 o s
  | .or_16 o => Sys2Proof.Machine.execOr_16 o s
  | .xor_16 o => Sys2Proof.Machine.execXor_16 o s
  | .shl_16 o => Sys2Proof.Machine.execShl_16 o s
  | .shrUi32_16 o => Sys2Proof.Machine.execShrUi32_16 o s
  | .shrI32_16 o => Sys2Proof.Machine.execShrI32_16 o s
  | .iminI32_16 o => Sys2Proof.Machine.execIminI32_16 o s
  | .imaxI32_16 o => Sys2Proof.Machine.execImaxI32_16 o s
  | .faddF32_16 o => Sys2Proof.Machine.execFaddF32_16 o s
  | .fsubF32_16 o => Sys2Proof.Machine.execFsubF32_16 o s
  | .fmulF32_16 o => Sys2Proof.Machine.execFmulF32_16 o s
  | .fminF32_16 o => Sys2Proof.Machine.execFminF32_16 o s
  | .fmaxF32_16 o => Sys2Proof.Machine.execFmaxF32_16 o s
  | .iaddI32 o => Sys2Proof.Machine.execIaddI32 o s
  | .iaddI32Sat o => Sys2Proof.Machine.execIaddI32Sat o s
  | .isubI32 o => Sys2Proof.Machine.execIsubI32 o s
  | .isubI32Sat o => Sys2Proof.Machine.execIsubI32Sat o s
  | .imulI32 o => Sys2Proof.Machine.execImulI32 o s
  | .imulhI32 o => Sys2Proof.Machine.execImulhI32 o s
  | .imadI32 o => Sys2Proof.Machine.execImadI32 o s
  | .imadI32Vc o => Sys2Proof.Machine.execImadI32Vc o s
  | .iminI32 o => Sys2Proof.Machine.execIminI32 o s
  | .iminUi32 o => Sys2Proof.Machine.execIminUi32 o s
  | .imaxI32 o => Sys2Proof.Machine.execImaxI32 o s
  | .imaxUi32 o => Sys2Proof.Machine.execImaxUi32 o s
  | .and o => Sys2Proof.Machine.execAnd o s
  | .or o => Sys2Proof.Machine.execOr o s
  | .xor o => Sys2Proof.Machine.execXor o s
  | .shl o => Sys2Proof.Machine.execShl o s
  | .shrUi32 o => Sys2Proof.Machine.execShrUi32 o s
  | .shrI32 o => Sys2Proof.Machine.execShrI32 o s
  | .sel o => Sys2Proof.Machine.execSel o s
  | .mov o => Sys2Proof.Machine.execMov o s
  | .movLane o => Sys2Proof.Machine.execMovLane o s
  | .clz o => Sys2Proof.Machine.execClz o s
  | .popc o => Sys2Proof.Machine.execPopc o s
  | .icmpI32 o => Sys2Proof.Machine.execIcmpI32 o s
  | .icmpUi32 o => Sys2Proof.Machine.execIcmpUi32 o s
  | .iaddi o => Sys2Proof.Machine.execIaddi o s
  | .andi o => Sys2Proof.Machine.execAndi o s
  | .ori o => Sys2Proof.Machine.execOri o s
  | .xori o => Sys2Proof.Machine.execXori o s
  | .shli o => Sys2Proof.Machine.execShli o s
  | .shri o => Sys2Proof.Machine.execShri o s
  | .shriA o => Sys2Proof.Machine.execShriA o s
  | .movi o => Sys2Proof.Machine.execMovi o s
  | .icmpi o => Sys2Proof.Machine.execIcmpi o s
  | .icmpiU o => Sys2Proof.Machine.execIcmpiU o s
  | .iaddP16 o => Sys2Proof.Machine.execIaddP16 o s
  | .iaddP16Sat o => Sys2Proof.Machine.execIaddP16Sat o s
  | .isubP16 o => Sys2Proof.Machine.execIsubP16 o s
  | .isubP16Sat o => Sys2Proof.Machine.execIsubP16Sat o s
  | .imulP16 o => Sys2Proof.Machine.execImulP16 o s
  | .imulhP16 o => Sys2Proof.Machine.execImulhP16 o s
  | .iminP16 o => Sys2Proof.Machine.execIminP16 o s
  | .imaxP16 o => Sys2Proof.Machine.execImaxP16 o s
  | .vacsP16 o => Sys2Proof.Machine.execVacsP16 o s
  | .vacsP16Max o => Sys2Proof.Machine.execVacsP16Max o s
  | .shlP16 o => Sys2Proof.Machine.execShlP16 o s
  | .shrP16 o => Sys2Proof.Machine.execShrP16 o s
  | .topk o => Sys2Proof.Machine.execTopk o s
  | .sample o => Sys2Proof.Machine.execSample o s
  | .stopchk o => Sys2Proof.Machine.execStopchk o s
  | .faddF32 o => Sys2Proof.Machine.execFaddF32 o s
  | .fsubF32 o => Sys2Proof.Machine.execFsubF32 o s
  | .fmulF32 o => Sys2Proof.Machine.execFmulF32 o s
  | .ffmaF32 o => Sys2Proof.Machine.execFfmaF32 o s
  | .ffmaF32Vc o => Sys2Proof.Machine.execFfmaF32Vc o s
  | .fminF32 o => Sys2Proof.Machine.execFminF32 o s
  | .fminF32Nan o => Sys2Proof.Machine.execFminF32Nan o s
  | .fmaxF32 o => Sys2Proof.Machine.execFmaxF32 o s
  | .fmaxF32Nan o => Sys2Proof.Machine.execFmaxF32Nan o s
  | .fcmpF32 o => Sys2Proof.Machine.execFcmpF32 o s
  | .fcpys o => Sys2Proof.Machine.execFcpys o s
  | .fneg o => Sys2Proof.Machine.execFneg o s
  | .fabs o => Sys2Proof.Machine.execFabs o s
  | .frint o => Sys2Proof.Machine.execFrint o s
  | .rcp o => Sys2Proof.Machine.execRcp o s
  | .rsq o => Sys2Proof.Machine.execRsq o s
  | .sqrt o => Sys2Proof.Machine.execSqrt o s
  | .ex2 o => Sys2Proof.Machine.execEx2 o s
  | .lg2 o => Sys2Proof.Machine.execLg2 o s
  | .sin o => Sys2Proof.Machine.execSin o s
  | .cos o => Sys2Proof.Machine.execCos o s
  | .tanh o => Sys2Proof.Machine.execTanh o s
  | .fdivF32 o => Sys2Proof.Machine.execFdivF32 o s
  | .cvt o => Sys2Proof.Machine.execCvt o s
  | .cvtI32 o => Sys2Proof.Machine.execCvtI32 o s
  | .cvtUi32 o => Sys2Proof.Machine.execCvtUi32 o s
  | .pack o => Sys2Proof.Machine.execPack o s
  | .unpack o => Sys2Proof.Machine.execUnpack o s
  | .quant o => Sys2Proof.Machine.execQuant o s
  | .ropeCos o => Sys2Proof.Machine.execRopeCos o s
  | .ropeSin o => Sys2Proof.Machine.execRopeSin o s
  | .smxupd o => Sys2Proof.Machine.execSmxupd o s
  | .smxupdSum o => Sys2Proof.Machine.execSmxupdSum o s
  | .shflIdx o => Sys2Proof.Machine.execShflIdx o s
  | .shflIdxImm o => Sys2Proof.Machine.execShflIdxImm o s
  | .shflUp o => Sys2Proof.Machine.execShflUp o s
  | .shflUpImm o => Sys2Proof.Machine.execShflUpImm o s
  | .shflDn o => Sys2Proof.Machine.execShflDn o s
  | .shflDnImm o => Sys2Proof.Machine.execShflDnImm o s
  | .shflXor o => Sys2Proof.Machine.execShflXor o s
  | .shflXorImm o => Sys2Proof.Machine.execShflXorImm o s
  | .bcastFirst o => Sys2Proof.Machine.execBcastFirst o s
  | .bcast o => Sys2Proof.Machine.execBcast o s
  | .red o => Sys2Proof.Machine.execRed o s
  | .redw o => Sys2Proof.Machine.execRedw o s
  | .scan o => Sys2Proof.Machine.execScan o s
  | .scanEx o => Sys2Proof.Machine.execScanEx o s
  | .sscan o => Sys2Proof.Machine.execSscan o s
  | .sscanEx o => Sys2Proof.Machine.execSscanEx o s
  | .ballot o => Sys2Proof.Machine.execBallot o s
  | .ballotM o => Sys2Proof.Machine.execBallotM o s
  | .mand o => Sys2Proof.Machine.execMand o s
  | .mor o => Sys2Proof.Machine.execMor o s
  | .mxor o => Sys2Proof.Machine.execMxor o s
  | .mnot o => Sys2Proof.Machine.execMnot o s
  | .mpopc o => Sys2Proof.Machine.execMpopc o s
  | .vtosFirst o => Sys2Proof.Machine.execVtosFirst o s
  | .vtos o => Sys2Proof.Machine.execVtos o s
  | .stov o => Sys2Proof.Machine.execStov o s
  | .stovHi o => Sys2Proof.Machine.execStovHi o s
  | .sete o => Sys2Proof.Machine.execSete o s
  | .setf o => Sys2Proof.Machine.execSetf o s
  | .tstf o => Sys2Proof.Machine.execTstf o s
  | .sadd o => Sys2Proof.Machine.execSadd o s
  | .ssub o => Sys2Proof.Machine.execSsub o s
  | .smul o => Sys2Proof.Machine.execSmul o s
  | .smulh o => Sys2Proof.Machine.execSmulh o s
  | .smulhu o => Sys2Proof.Machine.execSmulhu o s
  | .sand o => Sys2Proof.Machine.execSand o s
  | .sor o => Sys2Proof.Machine.execSor o s
  | .sxor o => Sys2Proof.Machine.execSxor o s
  | .sshl o => Sys2Proof.Machine.execSshl o s
  | .sshr o => Sys2Proof.Machine.execSshr o s
  | .ssar o => Sys2Proof.Machine.execSsar o s
  | .smin o => Sys2Proof.Machine.execSmin o s
  | .smax o => Sys2Proof.Machine.execSmax o s
  | .sminu o => Sys2Proof.Machine.execSminu o s
  | .smaxu o => Sys2Proof.Machine.execSmaxu o s
  | .sseq o => Sys2Proof.Machine.execSseq o s
  | .ssne o => Sys2Proof.Machine.execSsne o s
  | .sslt o => Sys2Proof.Machine.execSslt o s
  | .ssltu o => Sys2Proof.Machine.execSsltu o s
  | .ssle o => Sys2Proof.Machine.execSsle o s
  | .ssleu o => Sys2Proof.Machine.execSsleu o s
  | .sclz o => Sys2Proof.Machine.execSclz o s
  | .spopc o => Sys2Proof.Machine.execSpopc o s
  | .saddi o => Sys2Proof.Machine.execSaddi o s
  | .sandi o => Sys2Proof.Machine.execSandi o s
  | .sori o => Sys2Proof.Machine.execSori o s
  | .sxori o => Sys2Proof.Machine.execSxori o s
  | .sshli o => Sys2Proof.Machine.execSshli o s
  | .sshri o => Sys2Proof.Machine.execSshri o s
  | .sshriA o => Sys2Proof.Machine.execSshriA o s
  | .smovi o => Sys2Proof.Machine.execSmovi o s
  | .smovhi o => Sys2Proof.Machine.execSmovhi o s
  | .mxglostRead o => Sys2Proof.Machine.execMxglostRead o s
  | .csrr o => Sys2Proof.Machine.execCsrr o s
  | .csrw o => Sys2Proof.Machine.execCsrw o s
  | .sslti o => Sys2Proof.Machine.execSslti o s
  | .ldB8 o => Sys2Proof.Machine.execLdB8 o s
  | .ldS8 o => Sys2Proof.Machine.execLdS8 o s
  | .ldB16 o => Sys2Proof.Machine.execLdB16 o s
  | .ldS16 o => Sys2Proof.Machine.execLdS16 o s
  | .ldB32 o => Sys2Proof.Machine.execLdB32 o s
  | .ldB64 o => Sys2Proof.Machine.execLdB64 o s
  | .ldB128 o => Sys2Proof.Machine.execLdB128 o s
  | .stB8 o => Sys2Proof.Machine.execStB8 o s
  | .stB16 o => Sys2Proof.Machine.execStB16 o s
  | .stB32 o => Sys2Proof.Machine.execStB32 o s
  | .stB64 o => Sys2Proof.Machine.execStB64 o s
  | .stB128 o => Sys2Proof.Machine.execStB128 o s
  | .stN4 o => Sys2Proof.Machine.execStN4 o s
  | .stN6 o => Sys2Proof.Machine.execStN6 o s
  | .ldAcqB32 o => Sys2Proof.Machine.execLdAcqB32 o s
  | .ldAcqB64 o => Sys2Proof.Machine.execLdAcqB64 o s
  | .stRelB32 o => Sys2Proof.Machine.execStRelB32 o s
  | .stRelB64 o => Sys2Proof.Machine.execStRelB64 o s
  | .atomB32 o => Sys2Proof.Machine.execAtomB32 o s
  | .atomB64 o => Sys2Proof.Machine.execAtomB64 o s
  | .pf o => Sys2Proof.Machine.execPf o s
  | .spldB8 o => Sys2Proof.Machine.execSpldB8 o s
  | .spldB16 o => Sys2Proof.Machine.execSpldB16 o s
  | .spldB32 o => Sys2Proof.Machine.execSpldB32 o s
  | .spldB64 o => Sys2Proof.Machine.execSpldB64 o s
  | .spldB128 o => Sys2Proof.Machine.execSpldB128 o s
  | .spstB8 o => Sys2Proof.Machine.execSpstB8 o s
  | .spstB16 o => Sys2Proof.Machine.execSpstB16 o s
  | .spstB32 o => Sys2Proof.Machine.execSpstB32 o s
  | .spstB64 o => Sys2Proof.Machine.execSpstB64 o s
  | .spstB128 o => Sys2Proof.Machine.execSpstB128 o s
  | .spstN4 o => Sys2Proof.Machine.execSpstN4 o s
  | .spstN6 o => Sys2Proof.Machine.execSpstN6 o s
  | .stimg o => Sys2Proof.Machine.execStimg o s
  | .ldimg o => Sys2Proof.Machine.execLdimg o s
  | .sld o => Sys2Proof.Machine.execSld o s
  | .sst o => Sys2Proof.Machine.execSst o s
  | .br o => Sys2Proof.Machine.execBr o s
  | .brs o => Sys2Proof.Machine.execBrs o s
  | .call o => Sys2Proof.Machine.execCall o s
  | .loop o => Sys2Proof.Machine.execLoop o s
  | .jmpx o => Sys2Proof.Machine.execJmpx o s
  | .ret o => Sys2Proof.Machine.execRet o s
  | .trap o => Sys2Proof.Machine.execTrap o s
  | .tretJmp o => Sys2Proof.Machine.execTretJmp o s
  | .join o => Sys2Proof.Machine.execJoin o s
  | .leave o => Sys2Proof.Machine.execLeave o s
  | .lookup o => Sys2Proof.Machine.execLookup o s
  | .tagset o => Sys2Proof.Machine.execTagset o s
  | .tagclr o => Sys2Proof.Machine.execTagclr o s
  | .lnclr o => Sys2Proof.Machine.execLnclr o s
  | .lnset o => Sys2Proof.Machine.execLnset o s
  | .barinit o => Sys2Proof.Machine.execBarinit o s
  | .barinitCoh o => Sys2Proof.Machine.execBarinitCoh o s
  | .arrive o => Sys2Proof.Machine.execArrive o s
  | .arriveN o => Sys2Proof.Machine.execArriveN o s
  | .expect o => Sys2Proof.Machine.execExpect o s
  | .waitb o => Sys2Proof.Machine.execWaitb o s
  | .barq o => Sys2Proof.Machine.execBarq o s
  | .superstep o => Sys2Proof.Machine.execSuperstep o s
  | .phaseRel o => Sys2Proof.Machine.execPhaseRel o s
  | .phaseAcq o => Sys2Proof.Machine.execPhaseAcq o s
  | .tcfg o => Sys2Proof.Machine.execTcfg o s
  | .tld o => Sys2Proof.Machine.execTld o s
  | .tst o => Sys2Proof.Machine.execTst o s
  | .mma o => Sys2Proof.Machine.execMma o s
  | .mmas o => Sys2Proof.Machine.execMmas o s
  | .aclr o => Sys2Proof.Machine.execAclr o s
  | .adrainSp o => Sys2Proof.Machine.execAdrainSp o s
  | .adrainG o => Sys2Proof.Machine.execAdrainG o s
  | .adrainV o => Sys2Proof.Machine.execAdrainV o s
  | .forkM o => Sys2Proof.Machine.execForkM o s
  | .forkC o => Sys2Proof.Machine.execForkC o s
  | .forkMc o => Sys2Proof.Machine.execForkMc o s
  | .rdvz o => Sys2Proof.Machine.execRdvz o s
  | .shld o => Sys2Proof.Machine.execShld o s
  | .shset o => Sys2Proof.Machine.execShset o s
  | .copy o => Sys2Proof.Machine.execCopy o s
  | .rednet o => Sys2Proof.Machine.execRednet o s
  | .get o => Sys2Proof.Machine.execGet o s
  | .ratom o => Sys2Proof.Machine.execRatom o s
  | .put o => Sys2Proof.Machine.execPut o s
  | .sqadm o => Sys2Proof.Machine.execSqadm o s
  | .tokfb o => Sys2Proof.Machine.execTokfb o s
  | .seqret o => Sys2Proof.Machine.execSeqret o s
  | .launch o => Sys2Proof.Machine.execLaunch o s
  | .kvgather o => Sys2Proof.Machine.execKvgather o s
  | .kvappend o => Sys2Proof.Machine.execKvappend o s
  | .pgreq o => Sys2Proof.Machine.execPgreq o s
  | .gather o => Sys2Proof.Machine.execGather o s
  | .scatter o => Sys2Proof.Machine.execScatter o s
  | .mcast o => Sys2Proof.Machine.execMcast o s
  | .mmag o => Sys2Proof.Machine.execMmag o s
  | .neterrWrite o => Sys2Proof.Machine.execNeterrWrite o s
  | .cpfaultWrite o => Sys2Proof.Machine.execCpfaultWrite o s
  | .mxfaultWrite o => Sys2Proof.Machine.execMxfaultWrite o s
  | .nop => Sys2Proof.Machine.execNop s
  | .exit => Sys2Proof.Machine.execExit s
  | .tret => Sys2Proof.Machine.execTret s
  | .tretSkip => Sys2Proof.Machine.execTretSkip s
  | .fenceLd => Sys2Proof.Machine.execFenceLd s
  | .fenceSt => Sys2Proof.Machine.execFenceSt s
  | .fenceAll => Sys2Proof.Machine.execFenceAll s
  | .seqend => Sys2Proof.Machine.execSeqend s
  | .pgreqShare o => Sys2Proof.Machine.execPgreqShare o s
  | .pgreqRelease o => Sys2Proof.Machine.execPgreqRelease o s
  | .pgreqPin o => Sys2Proof.Machine.execPgreqPin o s
  | .pgreqUnpin o => Sys2Proof.Machine.execPgreqUnpin o s
  | .pgreqFetch o => Sys2Proof.Machine.execPgreqFetch o s
  | .pgreqRequant o => Sys2Proof.Machine.execPgreqRequant o s
  | .producerFill op lane => Sys2Proof.Machine.execProducerFill op lane s
  | .scalarProducerFill op => Sys2Proof.Machine.execScalarProducerFill op s
  | .storeAccept op block => Sys2Proof.Machine.execStoreAccept op block s
  | .atomicUnitExecute op addr => Sys2Proof.Machine.execAtomicUnitExecute op addr s
  | .crewPlace launch => Sys2Proof.Machine.execCrewPlace launch s
  | .crewEnd crew => Sys2Proof.Machine.execCrewEnd crew s
  | .sequencerContextEnd ctx => Sys2Proof.Machine.execSequencerContextEnd ctx s
  | .sequencerTrapEnd ctx => Sys2Proof.Machine.execSequencerTrapEnd ctx s
  | .stepTimeout g => Sys2Proof.Machine.execStepTimeout g s
  | .mmaComplete op => Sys2Proof.Machine.execMmaComplete op s
  | .aclrComplete op => Sys2Proof.Machine.execAclrComplete op s
  | .adrainComplete op => Sys2Proof.Machine.execAdrainComplete op s
  | .tldComplete op => Sys2Proof.Machine.execTldComplete op s
  | .tstComplete op => Sys2Proof.Machine.execTstComplete op s
  | .mmagSliceComplete op member => Sys2Proof.Machine.execMmagSliceComplete op member s
  | .copyPart op part => Sys2Proof.Machine.execCopyPart op part s
  | .kvgatherDelivery op line => Sys2Proof.Machine.execKvgatherDelivery op line s
  | .kvappendWrite op => Sys2Proof.Machine.execKvappendWrite op s
  | .pageWaitTimeout t => Sys2Proof.Machine.execPageWaitTimeout t s
  | .evictionStart die => Sys2Proof.Machine.execEvictionStart die s
  | .evictionCopyEnd die frame => Sys2Proof.Machine.execEvictionCopyEnd die frame s
  | .fetchCopyEnd die frame => Sys2Proof.Machine.execFetchCopyEnd die frame s
  | .copyOnWriteEnd die frame => Sys2Proof.Machine.execCopyOnWriteEnd die frame s
  | .batchFormation die group => Sys2Proof.Machine.execBatchFormation die group s
  | .sequenceSweep die group => Sys2Proof.Machine.execSequenceSweep die group s
  | .iterationGraphComplete die group => Sys2Proof.Machine.execIterationGraphComplete die group s
  | .iterationEnd die group => Sys2Proof.Machine.execIterationEnd die group s
  | .feedbackWaitExpiry die group => Sys2Proof.Machine.execFeedbackWaitExpiry die group s
  | .inboundWithdraw die slot => Sys2Proof.Machine.execInboundWithdraw die slot s
  | .queueDoorbell q w => Sys2Proof.Machine.execQueueDoorbell q w s
  | .qcreate die => Sys2Proof.Machine.execQcreate die s
  | .qdestroy die => Sys2Proof.Machine.execQdestroy die s
  | .qdestroyComplete q => Sys2Proof.Machine.execQdestroyComplete q s
  | .qreset die => Sys2Proof.Machine.execQreset die s
  | .ctxset die => Sys2Proof.Machine.execCtxset die s
  | .inval die => Sys2Proof.Machine.execInval die s
  | .invalComplete die => Sys2Proof.Machine.execInvalComplete die s
  | .peconfig die => Sys2Proof.Machine.execPeconfig die s
  | .sqconfig die => Sys2Proof.Machine.execSqconfig die s
  | .sgassign die => Sys2Proof.Machine.execSgassign die s
  | .ringset die => Sys2Proof.Machine.execRingset die s
  | .winset die => Sys2Proof.Machine.execWinset die s
  | .redset die => Sys2Proof.Machine.execRedset die s
  | .irisset die => Sys2Proof.Machine.execIrisset die s
  | .saveset die => Sys2Proof.Machine.execSaveset die s
  | .ctxpreempt die => Sys2Proof.Machine.execCtxpreempt die s
  | .ctxresume die => Sys2Proof.Machine.execCtxresume die s
  | .attest die => Sys2Proof.Machine.execAttest die s
  | .pwrset die => Sys2Proof.Machine.execPwrset die s
  | .devset die => Sys2Proof.Machine.execDevset die s
  | .mextend die => Sys2Proof.Machine.execMextend die s
  | .repairset die => Sys2Proof.Machine.execRepairset die s
  | .mgmtUnknownCommand die => Sys2Proof.Machine.execMgmtUnknownCommand die s
  | .launchPacket q => Sys2Proof.Machine.execLaunchPacket q s
  | .graphPacket q => Sys2Proof.Machine.execGraphPacket q s
  | .signalPacket q => Sys2Proof.Machine.execSignalPacket q s
  | .barrierAnd q => Sys2Proof.Machine.execBarrierAnd q s
  | .barrierOr q => Sys2Proof.Machine.execBarrierOr q s
  | .barrierPacketPoll job => Sys2Proof.Machine.execBarrierPacketPoll job s
  | .copyPacket q => Sys2Proof.Machine.execCopyPacket q s
  | .seqadmit q => Sys2Proof.Machine.execSeqadmit q s
  | .seqcancel q => Sys2Proof.Machine.execSeqcancel q s
  | .malformedPacket q => Sys2Proof.Machine.execMalformedPacket q s
  | .stealRequest die => Sys2Proof.Machine.execStealRequest die s
  | .queueHandover q => Sys2Proof.Machine.execQueueHandover q s
  | .queueReturn q => Sys2Proof.Machine.execQueueReturn q s
  | .aggregatorWindowClose die win => Sys2Proof.Machine.execAggregatorWindowClose die win s
  | .ringInterruptTimer ring => Sys2Proof.Machine.execRingInterruptTimer ring s
  | .rdidx ring v => Sys2Proof.Machine.execRdidx ring v s
  | .ovf ring => Sys2Proof.Machine.execOvf ring s
  | .mrtail die w => Sys2Proof.Machine.execMrtail die w s
  | .mrbase die logn v => Sys2Proof.Machine.execMrbase die logn v s
  | .hostWindowWrite idx dword v => Sys2Proof.Machine.execHostWindowWrite idx dword v s
  | .wlock => Sys2Proof.Machine.execWlock s
  | .hostRegisterWrite off v => Sys2Proof.Machine.execHostRegisterWrite off v s
  | .rtsReceive m => Sys2Proof.Machine.execRtsReceive m s
  | .rtsRetry x => Sys2Proof.Machine.execRtsRetry x s
  | .irisGrant die => Sys2Proof.Machine.execIrisGrant die s
  | .tokenReceive m => Sys2Proof.Machine.execTokenReceive m s
  | .fabricDataLand m => Sys2Proof.Machine.execFabricDataLand m s
  | .tokenExpiry die tok => Sys2Proof.Machine.execTokenExpiry die tok s
  | .orphanTimeout die req => Sys2Proof.Machine.execOrphanTimeout die req s
  | .transferTimeout x => Sys2Proof.Machine.execTransferTimeout x s
  | .frozen die req => Sys2Proof.Machine.execFrozen die req s
  | .frozenReceive m => Sys2Proof.Machine.execFrozenReceive m s
  | .finished m => Sys2Proof.Machine.execFinished m s
  | .orphaned m => Sys2Proof.Machine.execOrphaned m s
  | .refusalReceive m => Sys2Proof.Machine.execRefusalReceive m s
  | .relinquish m => Sys2Proof.Machine.execRelinquish m s
  | .resume m => Sys2Proof.Machine.execResume m s
  | .abort m => Sys2Proof.Machine.execAbort m s
  | .rmaReadServe m => Sys2Proof.Machine.execRmaReadServe m s
  | .getResponseLand m => Sys2Proof.Machine.execGetResponseLand m s
  | .ratomExecute m => Sys2Proof.Machine.execRatomExecute m s
  | .ratomReply m => Sys2Proof.Machine.execRatomReply m s
  | .reductionArrival m => Sys2Proof.Machine.execReductionArrival m s
  | .reductionSlotTimeout slot => Sys2Proof.Machine.execReductionSlotTimeout slot s
  | .reductionResultLand x line => Sys2Proof.Machine.execReductionResultLand x line s
  | .unreachable x => Sys2Proof.Machine.execUnreachable x s
  | .portDown port => Sys2Proof.Machine.execPortDown port s
  | .unsupportedOperation m => Sys2Proof.Machine.execUnsupportedOperation m s
  | .crewSave crew why => Sys2Proof.Machine.execCrewSave crew why s
  | .crewRestore crew core => Sys2Proof.Machine.execCrewRestore crew core s
  | .powerWindow die core vec mat => Sys2Proof.Machine.execPowerWindow die core vec mat s
  | .thermalClamp die => Sys2Proof.Machine.execThermalClamp die s
  | .thermalClampRelease die => Sys2Proof.Machine.execThermalClampRelease die s
  | .thermalMigration die src dst => Sys2Proof.Machine.execThermalMigration die src dst s
  | .uncorrectableError g => Sys2Proof.Machine.execUncorrectableError g s
  | .correctableError g => Sys2Proof.Machine.execCorrectableError g s
  | .coldReset b => Sys2Proof.Machine.execColdReset b s
  | .powerLoss => Sys2Proof.Machine.execPowerLoss s
  | .functionReset => Sys2Proof.Machine.execFunctionReset s
  | .functionResetComplete => Sys2Proof.Machine.execFunctionResetComplete s
  | .watchdogTimeout die => Sys2Proof.Machine.execWatchdogTimeout die s
  | .capFault q => Sys2Proof.Machine.execCapFault q s
  | .portUp port => Sys2Proof.Machine.execPortUp port s
  | .queueError q => Sys2Proof.Machine.execQueueError q s
  | .mgmtRecordSkip die => Sys2Proof.Machine.execMgmtRecordSkip die s

end Sys2Proof.Machine
end

