-- ==== Sys2Proof/Machine/Step.lean ====
section
/-! DEFINITION. One step of the package: the next turn of the agenda, or, where none is left, the next instruction of the thread
context that issues (log entry 1). -/
namespace Sys2Proof.Machine

/-- A thread context fetches and runs its next group (R49 to R52, R86, R89); nothing where it cannot issue. -/
noncomputable def State.issue (s : State) (t : ThreadRef) : Host.Outcome State Fault Refusal :=
  let s1 := { s with cur := some t }
  match s1.env? t (baseHdr 0) with
  | none => .next s1
  | some e =>
    match s1.fetch e with
    | .ok i => exec i s1
    | .stop st len => .next (s1.fetchStop e st len)

/-- One turn of the agenda. -/
noncomputable def State.turn (s : State) : Turn → Host.Outcome State Fault Refusal
  | .event i => if isEvent i then exec i s else .next s
  | .issue t => s.issue t
  | .elapse ns => .next (s.elapse ns)
  | .lead die ns => .next (s.lead die ns)
  | .hostWrite addr bs => .next (s.hostWrite addr bs)
  | .hostRead addr n => .next (s.hostLoad addr n)
  | .cacheXlat ctx va level => .next (s.cacheXlat ctx va level)
  | .dropXlat ctx va level => .next (s.dropXlat ctx va level)
  | .useCached b => .next { s with useOld := b }
  | .lookBack ts => .next { s with lookBack := ts }
  | .arrive m => .next (s.heard m)
  | .barRead bar off n => .next (s.barRead bar off n)
  | .barWrite bar off v => .next (s.byWork (fun s => s.barWrite bar off v.toNat))
  | .boot => .next s.bootStep
  | .heartbeat die core => .next (s.heartbeat die core)

/-- One step. -/
noncomputable def step (s : State) : Host.Outcome State Fault Refusal :=
  match s.agenda with
  | a :: rest => ({ s with agenda := rest }).turn a
  | [] =>
    match s.cur with
    | some t => s.issue t
    | none => .next s

/-- The instruction of bits `w` as the first that runs: a crew placed with a program that holds it (log entry 1). -/
noncomputable def State.withFetchWord (s : State) (_nbits w : Nat) : State := s.withProgram (engineOf w) 12 w

end Sys2Proof.Machine
end

