-- ==== Sys2Proof/Safety.lean ====
section
/-! DEFINITION. What a safe run is, and the shape that every state of a package keeps. -/
namespace Sys2Proof.Machine

/-- A step of the machine goes on: it meets neither a fault nor a refusal. -/
def State.goesOn (s : State) : Prop := ∃ t, step s = .next t

/-- `t` follows `s` by steps of the machine. -/
inductive Reaches : State → State → Prop where
  | refl (s : State) : Reaches s s
  | step {s t u : State} : Reaches s t → Sys2Proof.Machine.step t = .next u → Reaches s u

/-- A run from `s` is safe: every state it reaches goes on. -/
def State.safe (s : State) : Prop := ∀ t, Reaches s t → t.goesOn

/-- The canonical form of memory: addresses rise strictly, and no listed byte is what an unlisted address reads as (0, log entry 2). -/
def Memory.wf (m : Sparse 8) : Bool := Sparse.wf m

/-- The shape of a package: canonical memory and poison marks, 64 host window entries (R418), eight measurement registers (R424), two
dies (R10), each at most 99 ns ahead of device time, so that their DTIMEs differ by less than 100 ns (R132). -/
structure State.Inv (s : State) : Prop where
  mem : Memory.wf s.mem = true
  poison : Sparse.wf s.memPoison = true
  words : Sparse.wf s.wordPoison = true
  windows : s.windows.length = 64
  meas : s.boot.meas.length = 8
  dies : s.dies.length = 2
  lead0 : s.skew.1 < 100
  lead1 : s.skew.2 < 100

end Sys2Proof.Machine
end

