-- ==== Sys2Proof/Certificates/Slice0/Obligations.lean ====
section
/-! DEFINITION. The statements for the provers, and the words they are written in. A statement of what an instruction
does says when it completes (`Runs`): it issues, its conditions hold, and `exec` answers the one next state given. -/
namespace Sys2Proof.Claims
open Sys2Proof.Machine

/-- `e` is the environment in which the thread context whose turn it is issues `i` (R86, R89, R94), in a kind of program that
takes it (R68, R268). -/
structure Issues (s : State) (i : Instr) (e : Env) : Prop where
  cur : s.cur = some e.who
  env : s.env? e.who (hdrOf i) = some e
  takes : i.takenBy e.eng = true

/-- The threads of the issuing entry go on at the next group; a context's loop ends are passed (R96, R267). -/
def after (e : Env) (t : State) : State := (t.jump e e.npc).ctxSettle e.who

/-- Wherever `i` issues and `pre` holds, it completes with the state `post`. -/
def Runs (i : Instr) (pre : State → Env → Prop) (post : State → Env → State) : Prop :=
  ∀ s e, Issues s i e → pre s e → exec i s = .next (post s e)

/-- Every lane that the sources read is full, with no producer outstanding and no poison (R117, R118, R413). -/
def Readable (w : Warp) (xs : List Src) : Prop :=
  ∀ x ∈ xs, ∀ l ∈ lanesOf x.lanes, (w.lane x.reg l).f = true ∧ (w.lane x.reg l).pend = false ∧ (w.lane x.reg l).poison = false

/-- No lane of the mask in these registers has a producer outstanding (R64). -/
def FreeLanes (w : Warp) (rs : List Nat) (m : W64) : Prop := ∀ r ∈ rs, ∀ l ∈ lanesOf m, (w.lane r l).pend = false

/-- The registers lie below the crew's allocation (R115). -/
def InRange (e : Env) (rs : List Nat) : Prop := ∀ r ∈ rs, r < e.k.image.regs

/-- A scalar register can be read: s0, or no producer outstanding and no poison (R125, R413). -/
def SReady (s : State) (e : Env) (r : Nat) : Prop :=
  r = 0 ∨ ((s.scal e.who).2.1.getLsbD r = false ∧ (s.scal e.who).2.2.getLsbD r = false)

/-- A scalar register can be written: s0, or no producer outstanding (R125). -/
def SFree (s : State) (e : Env) (r : Nat) : Prop := r = 0 ∨ (s.scal e.who).2.1.getLsbD r = false

/-- A mask register can be read (R128, R413). -/
def MReady (w : Warp) (r : Nat) : Prop := r = 0 ∨ w.mpoison.getLsbD r = false

/-- The value of a mask register: m0 is the thread mask of the issuing entry (R128). -/
def mval (e : Env) (w : Warp) (r : Nat) : W64 := if r = 0 then e.m0 else w.mregs.getD (r - 1) 0

/-- Both sources of a V3 word. -/
def two (o : OpV3) (v : VEnv) : List Src := [v.src o.vs1 o.e1, v.src o.vs2 o.e2]

/-- The one source of a V3 word. -/
def one (o : OpV2) (v : VEnv) : List Src := [v.src o.vs1 o.e1]

/-- An integer result of two registers: S = 0, F = 1 (R35, R135). -/
def int2 (o : OpV3) (f : W32 → W32 → W32) (v : VEnv) (l : Nat) : Lane :=
  ⟨f (v.w.lane o.vs1.toNat l).data (v.w.lane o.vs2.toNat l).data, false, true, false, false⟩

/-- An integer result of a register and an immediate (R141). -/
def intI (o : OpVI) (f : W32 → W32 → W32) (v : VEnv) (l : Nat) : Lane :=
  ⟨f (v.w.lane o.vs1.toNat l).data (viImm o.imm9 o.pfx o.lim), false, true, false, false⟩

/-- A floating-point result of two operands read under R37 and FTZ, flushed under FTZ.VOUT (R43, R145). -/
def fp2 (o : OpV3) (f : Nat → W32 → W32 → W32) (v : VEnv) (l : Nat) : Lane :=
  ⟨flush32 v.vout (f v.mode (v.fp o.vs1 l) (v.fp o.vs2 l)), false, true, false, false⟩

/-- A value clamped to a signed range of `n` bits. -/
def clamp (n : Nat) (x : Int) : BitVec n := BitVec.ofInt n (max (-(2 ^ (n - 1) : Int)) (min x (2 ^ (n - 1) - 1)))

/-- A function of 16 bits on each half of two lanes (R142). -/
def halves (f : BitVec 16 → BitVec 16 → BitVec 16) (a b : W32) : W32 :=
  f (a.extractLsb' 16 16) (b.extractLsb' 16 16) ++ f (a.setWidth 16) (b.setWidth 16)

/-- The add-compare-select of R143: the chosen sum, and bit 16 where it is the second. -/
def acs (second : Nat → Nat → Bool) (a b : W32) : W32 :=
  let p := min (a.toNat % 65536 + b.toNat % 65536) 65535
  let q := min (a.toNat / 65536 + b.toNat / 65536) 65535
  if second p q then BitVec.ofNat 32 (65536 + q) else BitVec.ofNat 32 p

/-- The lane instructions with one destination register whose active lanes each become a function of the same lanes of the
sources: destination, sources, and the new lane (R53, R136 to R145, R147, R150 to R154, R159). -/
inductive LaneRow : Instr → Nat → (VEnv → List Src) → (VEnv → Nat → Lane) → Prop where
  | iaddI32 (o : OpV3) : LaneRow (.iaddI32 o) o.vd.toNat (two o) (int2 o (fun a b => a + b))
  | isubI32 (o : OpV3) : LaneRow (.isubI32 o) o.vd.toNat (two o) (int2 o (fun a b => a - b))
  | imulI32 (o : OpV3) : LaneRow (.imulI32 o) o.vd.toNat (two o) (int2 o (fun a b => a * b))
  | iaddI32Sat (o : OpV3) : LaneRow (.iaddI32Sat o) o.vd.toNat (two o) (int2 o (fun a b => clamp 32 (a.toInt + b.toInt)))
  | isubI32Sat (o : OpV3) : LaneRow (.isubI32Sat o) o.vd.toNat (two o) (int2 o (fun a b => clamp 32 (a.toInt - b.toInt)))
  | imulhI32 (o : OpV3) : LaneRow (.imulhI32 o) o.vd.toNat (two o) (int2 o (fun a b => BitVec.ofInt 32 (a.toInt * b.toInt / 2 ^ 32)))
  | iminI32 (o : OpV3) : LaneRow (.iminI32 o) o.vd.toNat (two o) (int2 o (fun a b => if b.slt a then b else a))
  | imaxI32 (o : OpV3) : LaneRow (.imaxI32 o) o.vd.toNat (two o) (int2 o (fun a b => if a.slt b then b else a))
  | iminUi32 (o : OpV3) : LaneRow (.iminUi32 o) o.vd.toNat (two o) (int2 o (fun a b => if b.ult a then b else a))
  | imaxUi32 (o : OpV3) : LaneRow (.imaxUi32 o) o.vd.toNat (two o) (int2 o (fun a b => if a.ult b then b else a))
  | and (o : OpV3) : LaneRow (.and o) o.vd.toNat (two o) (int2 o (fun a b => a &&& b))
  | or (o : OpV3) : LaneRow (.or o) o.vd.toNat (two o) (int2 o (fun a b => a ||| b))
  | xor (o : OpV3) : LaneRow (.xor o) o.vd.toNat (two o) (int2 o (fun a b => a ^^^ b))
  | shl (o : OpV3) : LaneRow (.shl o) o.vd.toNat (two o) (int2 o (fun a b => a <<< (b.toNat % 32)))
  | shrUi32 (o : OpV3) : LaneRow (.shrUi32 o) o.vd.toNat (two o) (int2 o (fun a b => a >>> (b.toNat % 32)))
  | shrI32 (o : OpV3) : LaneRow (.shrI32 o) o.vd.toNat (two o) (int2 o (fun a b => a.sshiftRight (b.toNat % 32)))
  | iaddP16 (o : OpV3) : LaneRow (.iaddP16 o) o.vd.toNat (two o) (int2 o (halves (fun a b => a + b)))
  | isubP16 (o : OpV3) : LaneRow (.isubP16 o) o.vd.toNat (two o) (int2 o (halves (fun a b => a - b)))
  | iaddP16Sat (o : OpV3) : LaneRow (.iaddP16Sat o) o.vd.toNat (two o) (int2 o (halves (fun a b => clamp 16 (a.toInt + b.toInt))))
  | isubP16Sat (o : OpV3) : LaneRow (.isubP16Sat o) o.vd.toNat (two o) (int2 o (halves (fun a b => clamp 16 (a.toInt - b.toInt))))
  | imulP16 (o : OpV3) : LaneRow (.imulP16 o) o.vd.toNat (two o) (int2 o (halves (fun a b => a * b)))
  | imulhP16 (o : OpV3) : LaneRow (.imulhP16 o) o.vd.toNat (two o) (int2 o (halves (fun a b => BitVec.ofInt 16 (a.toInt * b.toInt / 2 ^ 16))))
  | iminP16 (o : OpV3) : LaneRow (.iminP16 o) o.vd.toNat (two o) (int2 o (halves (fun a b => if b.slt a then b else a)))
  | imaxP16 (o : OpV3) : LaneRow (.imaxP16 o) o.vd.toNat (two o) (int2 o (halves (fun a b => if a.slt b then b else a)))
  | shlP16 (o : OpV3) : LaneRow (.shlP16 o) o.vd.toNat (two o) (int2 o (halves (fun a b => a <<< (b.toNat % 16))))
  | shrP16 (o : OpV3) : LaneRow (.shrP16 o) o.vd.toNat (two o) (int2 o (halves (fun a b => a >>> (b.toNat % 16))))
  | vacsP16 (o : OpV3) : LaneRow (.vacsP16 o) o.vd.toNat (two o) (int2 o (acs (fun p q => decide (q < p))))
  | vacsP16Max (o : OpV3) : LaneRow (.vacsP16Max o) o.vd.toNat (two o) (int2 o (acs (fun p q => decide (p < q))))
  | iaddI32_16 (o : OpC16) : LaneRow (.iaddI32_16 o) (c16v3 o).vd.toNat (two (c16v3 o)) (int2 (c16v3 o) (fun a b => a + b))
  | isubI32_16 (o : OpC16) : LaneRow (.isubI32_16 o) (c16v3 o).vd.toNat (two (c16v3 o)) (int2 (c16v3 o) (fun a b => a - b))
  | and_16 (o : OpC16) : LaneRow (.and_16 o) (c16v3 o).vd.toNat (two (c16v3 o)) (int2 (c16v3 o) (fun a b => a &&& b))
  | or_16 (o : OpC16) : LaneRow (.or_16 o) (c16v3 o).vd.toNat (two (c16v3 o)) (int2 (c16v3 o) (fun a b => a ||| b))
  | xor_16 (o : OpC16) : LaneRow (.xor_16 o) (c16v3 o).vd.toNat (two (c16v3 o)) (int2 (c16v3 o) (fun a b => a ^^^ b))
  | shl_16 (o : OpC16) : LaneRow (.shl_16 o) (c16v3 o).vd.toNat (two (c16v3 o)) (int2 (c16v3 o) (fun a b => a <<< (b.toNat % 32)))
  | shrUi32_16 (o : OpC16) : LaneRow (.shrUi32_16 o) (c16v3 o).vd.toNat (two (c16v3 o)) (int2 (c16v3 o) (fun a b => a >>> (b.toNat % 32)))
  | shrI32_16 (o : OpC16) : LaneRow (.shrI32_16 o) (c16v3 o).vd.toNat (two (c16v3 o)) (int2 (c16v3 o) (fun a b => a.sshiftRight (b.toNat % 32)))
  | iminI32_16 (o : OpC16) : LaneRow (.iminI32_16 o) (c16v3 o).vd.toNat (two (c16v3 o)) (int2 (c16v3 o) (fun a b => if b.slt a then b else a))
  | imaxI32_16 (o : OpC16) : LaneRow (.imaxI32_16 o) (c16v3 o).vd.toNat (two (c16v3 o)) (int2 (c16v3 o) (fun a b => if a.slt b then b else a))
  | faddF32 (o : OpV3) : LaneRow (.faddF32 o) o.vd.toNat (two o) (fp2 o fadd32)
  | faddF32_16 (o : OpC16) : LaneRow (.faddF32_16 o) (c16v3 o).vd.toNat (two (c16v3 o)) (fp2 (c16v3 o) fadd32)
  | fsubF32 (o : OpV3) : LaneRow (.fsubF32 o) o.vd.toNat (two o) (fp2 o fsub32)
  | fsubF32_16 (o : OpC16) : LaneRow (.fsubF32_16 o) (c16v3 o).vd.toNat (two (c16v3 o)) (fp2 (c16v3 o) fsub32)
  | fmulF32 (o : OpV3) : LaneRow (.fmulF32 o) o.vd.toNat (two o) (fp2 o fmul32)
  | fmulF32_16 (o : OpC16) : LaneRow (.fmulF32_16 o) (c16v3 o).vd.toNat (two (c16v3 o)) (fp2 (c16v3 o) fmul32)
  | fminF32 (o : OpV3) : LaneRow (.fminF32 o) o.vd.toNat (two o) (fun v l => Lane.full ((fun _ => fminmax32 false false) v.mode (v.fp o.vs1 l) (v.fp o.vs2 l)) false)
  | fminF32Nan (o : OpV3) : LaneRow (.fminF32Nan o) o.vd.toNat (two o) (fun v l => Lane.full ((fun _ => fminmax32 false true) v.mode (v.fp o.vs1 l) (v.fp o.vs2 l)) false)
  | fmaxF32 (o : OpV3) : LaneRow (.fmaxF32 o) o.vd.toNat (two o) (fun v l => Lane.full ((fun _ => fminmax32 true false) v.mode (v.fp o.vs1 l) (v.fp o.vs2 l)) false)
  | fmaxF32Nan (o : OpV3) : LaneRow (.fmaxF32Nan o) o.vd.toNat (two o) (fun v l => Lane.full ((fun _ => fminmax32 true true) v.mode (v.fp o.vs1 l) (v.fp o.vs2 l)) false)
  | fminF32_16 (o : OpC16) : LaneRow (.fminF32_16 o) (c16v3 o).vd.toNat (two (c16v3 o))
      (fun v l => Lane.full ((fun _ => fminmax32 false false) v.mode (v.fp (c16v3 o).vs1 l) (v.fp (c16v3 o).vs2 l)) false)
  | fmaxF32_16 (o : OpC16) : LaneRow (.fmaxF32_16 o) (c16v3 o).vd.toNat (two (c16v3 o))
      (fun v l => Lane.full ((fun _ => fminmax32 true false) v.mode (v.fp (c16v3 o).vs1 l) (v.fp (c16v3 o).vs2 l)) false)
  | imadI32 (o : OpV3) : LaneRow (.imadI32 o) o.vd.toNat (fun v => two o v ++ [v.src o.vd false])
      (fun v l => Lane.full ((v.w.lane o.vd.toNat l).data + (v.w.lane o.vs1.toNat l).data * (v.w.lane o.vs2.toNat l).data) false)
  | imadI32Vc (o : OpV3) (q : Pfx) : o.pfx = some q → LaneRow (.imadI32Vc o) o.vd.toNat (fun v => two o v ++ [v.src q.vs3 false])
      (fun v l => Lane.full ((v.w.lane q.vs3.toNat l).data + (v.w.lane o.vs1.toNat l).data * (v.w.lane o.vs2.toNat l).data) false)
  | ffmaF32 (o : OpV3) : LaneRow (.ffmaF32 o) o.vd.toNat (fun v => two o v ++ [v.src o.vd false])
      (fun v l => v.fout (ffma32 v.mode (v.fp o.vs1 l) (v.fp o.vs2 l) (v.fp o.vd l)))
  | ffmaF32Vc (o : OpV3) (q : Pfx) : o.pfx = some q → LaneRow (.ffmaF32Vc o) o.vd.toNat (fun v => two o v ++ [v.src q.vs3 false])
      (fun v l => v.fout (ffma32 v.mode (v.fp o.vs1 l) (v.fp o.vs2 l) (v.fp q.vs3 l)))
  | mov (o : OpVMov) : o.vd ≠ o.vs2 → LaneRow (.mov o) o.vd.toNat (fun v => [v.src o.vs2 o.e2])
      (fun v l => Lane.full (v.w.lane o.vs2.toNat l).data (v.w.lane o.vs2.toNat l).s)
  | mov_16 (o : OpC16) : o.vd ≠ o.vs → LaneRow (.mov_16 o) o.vd.toNat (fun v => [⟨o.vs.toNat, v.act, false⟩])
      (fun v l => Lane.full (v.w.lane o.vs.toNat l).data (v.w.lane o.vs.toNat l).s)
  | movLane (o : OpV1) : LaneRow (.movLane o) o.vd.toNat (fun _ => []) (fun _ l => Lane.full (BitVec.ofNat 32 l) false)
  | clz (o : OpV2) : LaneRow (.clz o) o.vd.toNat (one o)
      (fun v l => Lane.full (BitVec.ofNat 32 (32 - bitLen 32 (v.w.lane o.vs1.toNat l).data.toNat)) false)
  | popc (o : OpV2) : LaneRow (.popc o) o.vd.toNat (one o) (fun v l => Lane.full (popc32 (v.w.lane o.vs1.toNat l).data) false)
  | movi (o : OpVImm) : LaneRow (.movi o) o.vd.toNat (fun _ => []) (fun _ _ => Lane.full (viImm o.imm9 o.pfx o.lim) false)
  | fcpys (o : OpV3) : LaneRow (.fcpys o) o.vd.toNat (two o)
      (fun v l => Lane.full (fcpys32 (v.w.lane o.vs1.toNat l).data (v.w.lane o.vs2.toNat l).data) (v.w.lane o.vs1.toNat l).s)
  | fneg (o : OpV2) : LaneRow (.fneg o) o.vd.toNat (one o) (fun v l => Lane.full (fneg32 (v.w.lane o.vs1.toNat l).data) (v.w.lane o.vs1.toNat l).s)
  | fabs (o : OpV2) : LaneRow (.fabs o) o.vd.toNat (one o) (fun v l => Lane.full (fabs32 (v.w.lane o.vs1.toNat l).data) (v.w.lane o.vs1.toNat l).s)
  | frint (o : OpV2) : LaneRow (.frint o) o.vd.toNat (one o) (fun v l => v.fout (frint32 v.mode (v.fp o.vs1 l)))
  | cvt (o : OpVCvt) : LaneRow (.cvt o) o.vd.toNat (fun v => [v.src o.vs1 o.e1])
      (fun v l => if o.dfmt = 0 then Lane.full (v.w.lane o.vs1.toNat l).data (v.w.lane o.vs1.toNat l).s
        else cvtTo (f32 (v.w.lane o.vs1.toNat l).data) (v.w.lane o.vs1.toNat l).s o.dfmt.toNat v.mode)
  | cvtI32 (o : OpVCvt) : LaneRow (.cvtI32 o) o.vd.toNat (fun v => [v.src o.vs1 o.e1])
      (fun v l => cvtTo (extOfInt (v.w.lane o.vs1.toNat l).data.toInt) false o.dfmt.toNat v.mode)
  | cvtUi32 (o : OpVCvt) : LaneRow (.cvtUi32 o) o.vd.toNat (fun v => [v.src o.vs1 o.e1])
      (fun v l => cvtTo (extOfInt ((v.w.lane o.vs1.toNat l).data.toNat : Int)) false o.dfmt.toNat v.mode)
  | pack (o : OpVPack) : LaneRow (.pack o) o.vd.toNat (fun v => [v.src o.vs1 o.e1, v.src o.vd false])
      (fun v l => Lane.full (packLane (v.w.lane o.vd.toNat l).data o.fmt.toNat o.idx.toNat
        (if fmtIsInt o.fmt.toNat then finalRound (extOfInt (v.w.lane o.vs1.toNat l).data.toInt) false o.fmt.toNat v.mode
         else finalRound (f32 (v.w.lane o.vs1.toNat l).data) (v.w.lane o.vs1.toNat l).s o.fmt.toNat v.mode)) false)
  | unpack (o : OpVPack) : LaneRow (.unpack o) o.vd.toNat (fun v => [v.src o.vs1 o.e1])
      (fun v l => Lane.full (unpackLane (v.w.lane o.vs1.toNat l).data o.fmt.toNat o.idx.toNat) false)
  | quant (o : OpV3) (q : Pfx) : o.pfx = some q → LaneRow (.quant o) o.vd.toNat (two o)
      (fun v l => quantLane (v.w.lane o.vs1.toNat l) ((v.w.lane o.vs2.toNat l).data.toNat % 256) (q.imx.toNat % 16))
  | red (o : OpVRed) : LaneRow (.red o) o.vd.toNat (fun v => [v.src o.vs1 o.e1])
      (fun v l => Lane.full (redSegment v o.op.toNat (segW o.pfx) (l - l % segW o.pfx) o.vs1) false)
  | iaddi (o : OpVI) : LaneRow (.iaddi o) o.vd.toNat (fun v => [v.src o.vs1 o.e1]) (intI o (fun a n => a + n))
  | andi (o : OpVI) : LaneRow (.andi o) o.vd.toNat (fun v => [v.src o.vs1 o.e1]) (intI o (fun a n => a &&& n))
  | ori (o : OpVI) : LaneRow (.ori o) o.vd.toNat (fun v => [v.src o.vs1 o.e1]) (intI o (fun a n => a ||| n))
  | xori (o : OpVI) : LaneRow (.xori o) o.vd.toNat (fun v => [v.src o.vs1 o.e1]) (intI o (fun a n => a ^^^ n))
  | shli (o : OpVI) : LaneRow (.shli o) o.vd.toNat (fun v => [v.src o.vs1 o.e1]) (intI o (fun a n => a <<< (n.toNat % 32)))
  | shri (o : OpVI) : LaneRow (.shri o) o.vd.toNat (fun v => [v.src o.vs1 o.e1]) (intI o (fun a n => a >>> (n.toNat % 32)))
  | shriA (o : OpVI) : LaneRow (.shriA o) o.vd.toNat (fun v => [v.src o.vs1 o.e1]) (intI o (fun a n => a.sshiftRight (n.toNat % 32)))

/-- The conditions under which a lane instruction with destination `d` issues whole (R63, R64, R73, R115, R118, R413). -/
structure LaneReady (s : State) (e : Env) (v : VEnv) (d : List Nat) (xs : List Src) : Prop where
  env : venv s e = .ok v
  range : InRange e (d ++ xs.map Src.reg)
  read : Readable v.w xs
  free : FreeLanes v.w d (v.act ||| v.zl)

/-- The producers of one register, whose lanes fill later (R117, R148, R149, R315). -/
inductive ProducerRow : Instr → Nat → (VEnv → List Src) → (VEnv → Nat → Lane) → Prop where
  | rcp (o : OpV2) : ProducerRow (.rcp o) o.vd.toNat (one o) (fun v l => v.fout (rcp32 v.mode (v.fp o.vs1 l)))
  | rsq (o : OpV2) : ProducerRow (.rsq o) o.vd.toNat (one o) (fun v l => v.fout (rsq32 v.mode (v.fp o.vs1 l)))
  | sqrt (o : OpV2) : ProducerRow (.sqrt o) o.vd.toNat (one o) (fun v l => v.fout (sqrt32 v.mode (v.fp o.vs1 l)))
  | ex2 (o : OpV2) : ProducerRow (.ex2 o) o.vd.toNat (one o) (fun v l => v.fout (ex2Of (v.fp o.vs1 l)))
  | lg2 (o : OpV2) : ProducerRow (.lg2 o) o.vd.toNat (one o) (fun v l => v.fout (lg2Of (v.fp o.vs1 l)))
  | sin (o : OpV2) : ProducerRow (.sin o) o.vd.toNat (one o) (fun v l => v.fout (sinOf (v.fp o.vs1 l)))
  | cos (o : OpV2) : ProducerRow (.cos o) o.vd.toNat (one o) (fun v l => v.fout (cosOf (v.fp o.vs1 l)))
  | tanh (o : OpV2) : ProducerRow (.tanh o) o.vd.toNat (one o) (fun v l => v.fout (tanhOf (v.fp o.vs1 l)))
  | fdivF32 (o : OpV3) : ProducerRow (.fdivF32 o) o.vd.toNat (two o) (fun v l => v.fout (fdiv32 v.mode (v.fp o.vs1 l) (v.fp o.vs2 l)))
  | ropeCos (o : OpV3) : ProducerRow (.ropeCos o) o.vd.toNat (two o) (fun v l => v.fout (ropeLane false (v.w.lane o.vs1.toNat l).data (v.fp o.vs2 l)))
  | ropeSin (o : OpV3) : ProducerRow (.ropeSin o) o.vd.toNat (two o) (fun v l => v.fout (ropeLane true (v.w.lane o.vs1.toNat l).data (v.fp o.vs2 l)))

/-- The instructions that write m[md] over the active lanes: destination, sources, and the new bit of a lane (R138, R141, R146, R162). -/
inductive MaskRow : Instr → BitVec 3 → (VEnv → List Src) → (VEnv → Nat → Bool) → Prop where
  | icmpI32 (o : OpVCmp) : MaskRow (.icmpI32 o) o.md (fun v => [v.src o.vs1 o.e1, v.src o.vs2 o.e2])
      (fun v l => icmp true o.cc (v.w.lane o.vs1.toNat l).data (v.w.lane o.vs2.toNat l).data)
  | icmpUi32 (o : OpVCmp) : MaskRow (.icmpUi32 o) o.md (fun v => [v.src o.vs1 o.e1, v.src o.vs2 o.e2])
      (fun v l => icmp false o.cc (v.w.lane o.vs1.toNat l).data (v.w.lane o.vs2.toNat l).data)
  | icmpi (o : OpVICmp) : MaskRow (.icmpi o) o.md (fun v => [v.src o.vs1 o.e1])
      (fun v l => icmp true o.cc (v.w.lane o.vs1.toNat l).data (viImm o.imm9 o.pfx o.lim))
  | icmpiU (o : OpVICmp) : MaskRow (.icmpiU o) o.md (fun v => [v.src o.vs1 o.e1])
      (fun v l => icmp false o.cc (v.w.lane o.vs1.toNat l).data (viImm o.imm9 o.pfx o.lim))
  | fcmpF32 (o : OpVCmp) : MaskRow (.fcmpF32 o) o.md (fun v => [v.src o.vs1 o.e1, v.src o.vs2 o.e2])
      (fun v l => fcmp32 o.cc.toNat (v.fp o.vs1 l) (v.fp o.vs2 l))
  | ballotM (o : OpVBalM) : MaskRow (.ballotM o) o.md (fun v => [v.src o.vs1 o.e1])
      (fun v l => (v.w.lane o.vs1.toNat l).data.getLsbD o.n.toNat)

/-- The mask logic forms: destination, sources, and the bitwise function (R129). -/
inductive MaskLogicRow : Instr → BitVec 3 → List (BitVec 3) → (Env → Warp → W64) → Prop where
  | mand (o : OpM3) : MaskLogicRow (.mand o) o.md [o.ma, o.mb] (fun e w => mval e w o.ma.toNat &&& mval e w o.mb.toNat)
  | mor (o : OpM3) : MaskLogicRow (.mor o) o.md [o.ma, o.mb] (fun e w => mval e w o.ma.toNat ||| mval e w o.mb.toNat)
  | mxor (o : OpM3) : MaskLogicRow (.mxor o) o.md [o.ma, o.mb] (fun e w => mval e w o.ma.toNat ^^^ mval e w o.mb.toNat)
  | mnot (o : OpM2) : MaskLogicRow (.mnot o) o.md [o.ma] (fun e w => ~~~(mval e w o.ma.toNat))

/-- A mask register with the active lanes of `p`, the lanes that Z removes clear, and every other bit as before (R128). -/
def maskWrite (s : State) (e : Env) (v : VEnv) (md : BitVec 3) (p : Nat → Bool) : State :=
  s.modWarp e.ci e.wi (fun w => w.setM md.toNat v p)

/-- The shuffles: kind, destination, source with its empty policy, prefix, index register, and the operand of a lane (R156). -/
inductive ShuffleRow : Instr → Shfl → BitVec 7 → BitVec 7 → Bool → Option Pfx → List (BitVec 7 × Bool) → (VEnv → Nat → Nat) → Prop where
  | shflIdx (o : OpV3) : ShuffleRow (.shflIdx o) .idx o.vd o.vs1 o.e1 o.pfx [(o.vs2, o.e2)] (fun v l => (v.w.lane o.vs2.toNat l).data.toNat)
  | shflIdxImm (o : OpVShI) : ShuffleRow (.shflIdxImm o) .idx o.vd o.vs1 o.e1 o.pfx [] (fun _ _ => o.n.toNat)
  | shflUp (o : OpV3) : ShuffleRow (.shflUp o) .up o.vd o.vs1 o.e1 o.pfx [(o.vs2, o.e2)] (fun v l => (v.w.lane o.vs2.toNat l).data.toNat)
  | shflUpImm (o : OpVShI) : ShuffleRow (.shflUpImm o) .up o.vd o.vs1 o.e1 o.pfx [] (fun _ _ => o.n.toNat)
  | shflDn (o : OpV3) : ShuffleRow (.shflDn o) .dn o.vd o.vs1 o.e1 o.pfx [(o.vs2, o.e2)] (fun v l => (v.w.lane o.vs2.toNat l).data.toNat)
  | shflDnImm (o : OpVShI) : ShuffleRow (.shflDnImm o) .dn o.vd o.vs1 o.e1 o.pfx [] (fun _ _ => o.n.toNat)
  | shflXor (o : OpV3) : ShuffleRow (.shflXor o) .xr o.vd o.vs1 o.e1 o.pfx [(o.vs2, o.e2)] (fun v l => (v.w.lane o.vs2.toNat l).data.toNat)
  | shflXorImm (o : OpVShI) : ShuffleRow (.shflXorImm o) .xr o.vd o.vs1 o.e1 o.pfx [] (fun _ _ => o.n.toNat)

/-- The lanes that a shuffle reads. -/
def shuffleReads (k : Shfl) (v : VEnv) (p : Option Pfx) (n : VEnv → Nat → Nat) : W64 :=
  maskOf (fun j => (lanesOf v.act).any (fun l => decide (shflLane k (segW p) (n v l) v.act l = j)))

/-- The scans: destination, source, empty policy, operation, whether exclusive, and the heads (R161). -/
inductive ScanRow : Instr → BitVec 7 → BitVec 7 → Bool → Nat → Bool → (Env → VEnv → Prop) → (Env → VEnv → Nat → Bool) → Prop where
  | scan (o : OpVRed) : ScanRow (.scan o) o.vd o.vs1 o.e1 o.op.toNat false (fun _ _ => True) (fun _ _ i => decide (i % segW o.pfx = 0))
  | scanEx (o : OpVRed) : ScanRow (.scanEx o) o.vd o.vs1 o.e1 o.op.toNat true (fun _ _ => True) (fun _ _ i => decide (i % segW o.pfx = 0))
  | sscan (o : OpVSsc) : ScanRow (.sscan o) o.vd o.vs1 o.e1 o.op.toNat false (fun _ v => MReady v.w o.mh.toNat)
      (fun e v i => (mval e v.w o.mh.toNat).getLsbD i)
  | sscanEx (o : OpVSsc) : ScanRow (.sscanEx o) o.vd o.vs1 o.e1 o.op.toNat true (fun _ v => MReady v.w o.mh.toNat)
      (fun e v i => (mval e v.w o.mh.toNat).getLsbD i)

/-- The scalar forms of R126: the operation on 64 bits, and on the low 32 where W = 1. -/
inductive ScalarRow : Instr → OpS3 → (W64 → W64 → W64) → (W32 → W32 → W32) → Prop where
  | sadd (o : OpS3) : ScalarRow (.sadd o) o (fun a b => a + b) (fun a b => a + b)
  | ssub (o : OpS3) : ScalarRow (.ssub o) o (fun a b => a - b) (fun a b => a - b)
  | smul (o : OpS3) : ScalarRow (.smul o) o (fun a b => a * b) (fun a b => a * b)
  | smulh (o : OpS3) : ScalarRow (.smulh o) o (fun a b => BitVec.ofInt 64 (a.toInt * b.toInt / 2 ^ 64)) (fun a b => BitVec.ofInt 32 (a.toInt * b.toInt / 2 ^ 32))
  | smulhu (o : OpS3) : ScalarRow (.smulhu o) o (fun a b => BitVec.ofNat 64 (a.toNat * b.toNat / 2 ^ 64)) (fun a b => BitVec.ofNat 32 (a.toNat * b.toNat / 2 ^ 32))
  | sand (o : OpS3) : ScalarRow (.sand o) o (fun a b => a &&& b) (fun a b => a &&& b)
  | sor (o : OpS3) : ScalarRow (.sor o) o (fun a b => a ||| b) (fun a b => a ||| b)
  | sxor (o : OpS3) : ScalarRow (.sxor o) o (fun a b => a ^^^ b) (fun a b => a ^^^ b)
  | sshl (o : OpS3) : ScalarRow (.sshl o) o (fun a b => a <<< (b.toNat % 64)) (fun a b => a <<< (b.toNat % 32))
  | sshr (o : OpS3) : ScalarRow (.sshr o) o (fun a b => a >>> (b.toNat % 64)) (fun a b => a >>> (b.toNat % 32))
  | ssar (o : OpS3) : ScalarRow (.ssar o) o (fun a b => a.sshiftRight (b.toNat % 64)) (fun a b => a.sshiftRight (b.toNat % 32))
  | smin (o : OpS3) : ScalarRow (.smin o) o (fun a b => if b.slt a then b else a) (fun a b => if b.slt a then b else a)
  | smax (o : OpS3) : ScalarRow (.smax o) o (fun a b => if a.slt b then b else a) (fun a b => if a.slt b then b else a)
  | sminu (o : OpS3) : ScalarRow (.sminu o) o (fun a b => if b.ult a then b else a) (fun a b => if b.ult a then b else a)
  | smaxu (o : OpS3) : ScalarRow (.smaxu o) o (fun a b => if a.ult b then b else a) (fun a b => if a.ult b then b else a)
  | sseq (o : OpS3) : ScalarRow (.sseq o) o (fun a b => if a = b then 1 else 0) (fun a b => if a = b then 1 else 0)
  | ssne (o : OpS3) : ScalarRow (.ssne o) o (fun a b => if a = b then 0 else 1) (fun a b => if a = b then 0 else 1)
  | sslt (o : OpS3) : ScalarRow (.sslt o) o (fun a b => if a.slt b then 1 else 0) (fun a b => if a.slt b then 1 else 0)
  | ssltu (o : OpS3) : ScalarRow (.ssltu o) o (fun a b => if a.ult b then 1 else 0) (fun a b => if a.ult b then 1 else 0)
  | ssle (o : OpS3) : ScalarRow (.ssle o) o (fun a b => if b.slt a then 0 else 1) (fun a b => if b.slt a then 0 else 1)
  | ssleu (o : OpS3) : ScalarRow (.ssleu o) o (fun a b => if b.ult a then 0 else 1) (fun a b => if b.ult a then 0 else 1)

/-- The scalar immediate forms of R127. -/
inductive ScalarImmRow : Instr → OpSI → (W64 → W64 → W64) → Prop where
  | saddi (o : OpSI) : ScalarImmRow (.saddi o) o (fun a n => a + n)
  | sandi (o : OpSI) : ScalarImmRow (.sandi o) o (fun a n => a &&& n)
  | sori (o : OpSI) : ScalarImmRow (.sori o) o (fun a n => a ||| n)
  | sxori (o : OpSI) : ScalarImmRow (.sxori o) o (fun a n => a ^^^ n)
  | sshli (o : OpSI) : ScalarImmRow (.sshli o) o (fun a n => a <<< (n.toNat % 64))
  | sshri (o : OpSI) : ScalarImmRow (.sshri o) o (fun a n => a >>> (n.toNat % 64))
  | sshriA (o : OpSI) : ScalarImmRow (.sshriA o) o (fun a n => a.sshiftRight (n.toNat % 64))
  | smovhi (o : OpSI) : ScalarImmRow (.smovhi o) o (fun a n => (n <<< 32) ||| BitVec.ofNat 64 (a.toNat % 2 ^ 32))
  | sslti (o : OpSI) : ScalarImmRow (.sslti o) o (fun a n => if a.slt n then 1 else 0)

/-- A register of the run that an M-format word names, and its index register (R55, R69). -/
def mReads (v : VEnv) (rs : List Nat) (ix : Bool) (vi : BitVec 7) : List Src :=
  (if ix then [(⟨vi.toNat, v.act, false⟩ : Src)] else []) ++ rs.map (fun r => ⟨r, v.act, false⟩)

end Sys2Proof.Claims

open Sys2Proof Sys2Proof.Machine Sys2Proof.Claims

/-- R73, R136 to R154: a lane instruction that can issue writes its destination's active lanes with the entry's function of the
source lanes, zeroes the lanes that Z removes, and goes on at the next group; nothing else changes.
Model's choices it rests on: log entries 5, 82, 95. -/
def Obligations.LaneInstructionsCompute : Prop :=
  ∀ i d xs f, LaneRow i d xs f → ∀ v, Runs i (fun s e => LaneReady s e v [d] (xs v))
    (fun s e => after e (s.modWarp e.ci e.wi (fun w => w.out v d (f v))))

/-- R54, R64, R140: NOP and MOV of a register to itself read nothing and only advance; MOV's prefix still zeroes. -/
def Obligations.MovesToSelfAndNops : Prop :=
  Runs .nop (fun _ _ => True) (fun s e => after e s)
  ∧ (∀ o, Runs (.nop_16 o) (fun _ _ => True) (fun s e => after e s))
  ∧ (∀ (o : OpVMov) v, o.vd = o.vs2 → Runs (.mov o) (fun s e => venv s e = .ok v ∧ InRange e [o.vd.toNat] ∧ FreeLanes v.w [o.vd.toNat] v.zl)
      (fun s e => after e (s.modWarp e.ci e.wi (fun w => w.setLanes o.vd.toNat v.zl (fun _ => Lane.full 0 false)))))

/-- R117, R134, R148, R149, R315: a producer empties its active lanes at issue, and holds their results until they fill.
Model's choices it rests on: log entries 5, 82, 86. -/
def Obligations.ProducersEmptyTheirLanes : Prop :=
  ∀ i d xs f, ProducerRow i d xs f → ∀ v, Runs i (fun s e => LaneReady s e v [d] (xs v))
    (fun s e =>
      let t := s.modWarp e.ci e.wi (fun w => (w.setPending [d] v.act).setLanes d v.zl (fun _ => Lane.full 0 false))
      after e (if v.act = 0 then t
        else t.addOp { e.newOp s v.act with fills := (lanesOf v.act).map (fun l => ⟨l, .ready [(d, f v l)]⟩) }))

/-- R128, R129, R138, R141, R146, R162: mask results. -/
def Sys2Proof.Claims.MaskInstructionsCompute : Prop :=
  (∀ i md xs p, MaskRow i md xs p → md ≠ 0 → ∀ v, Runs i (fun s e => LaneReady s e v [] (xs v))
    (fun s e => after e (maskWrite s e v md (p v))))
  ∧ (∀ i md ms f, MaskLogicRow i md ms f → md ≠ 0 → ∀ v, Runs i (fun s e => venv s e = .ok v ∧ ∀ m ∈ ms, MReady v.w m.toNat)
    (fun s e => after e (maskWrite s e v md (fun l => (f e v.w).getLsbD l))))
  ∧ (∀ (o : OpVTst), o.md ≠ 0 → ∀ v, Runs (.tstf o) (fun s e => venv s e = .ok v ∧ InRange e [o.vs1.toNat])
    (fun s e => after e (maskWrite s e v o.md (fun l => (v.w.lane o.vs1.toNat l).f))))

/-- R125, R129, R130, R160, R162: results of a warp's lanes and masks in a scalar register. -/
def Sys2Proof.Claims.LaneToScalarResults : Prop :=
  (∀ (o : OpVRedS) v, Runs (.redw o) (fun s e => LaneReady s e v [] [v.src o.vs1 o.e1] ∧ SFree s e o.sd.toNat)
    (fun s e => after e (s.setS e.who o.sd.toNat
      (if o.op.toNat < 3 then (redSegment v o.op.toNat 64 0 o.vs1).signExtend 64 else (redSegment v o.op.toNat 64 0 o.vs1).setWidth 64))))
  ∧ (∀ (o : OpVBal) v, Runs (.ballot o) (fun s e => LaneReady s e v [] [v.src o.vs1 o.e1] ∧ SFree s e o.sd.toNat)
    (fun s e => after e (s.setS e.who o.sd.toNat
      (maskOf (fun l => v.act.getLsbD l && (v.w.lane o.vs1.toNat l).data.getLsbD o.n.toNat)))))
  ∧ (∀ (o : OpMS) v, Runs (.mpopc o) (fun s e => venv s e = .ok v ∧ MReady v.w o.ma.toNat ∧ SFree s e o.sd.toNat)
    (fun s e => after e (s.setS e.who o.sd.toNat (BitVec.ofNat 64 (lanesOf (mval e v.w o.ma.toNat &&& v.act)).length))))
  ∧ (∀ (o : OpVSv) v, Runs (.vtos o)
    (fun s e => SReady s e o.sk.toNat ∧ SFree s e o.sd.toNat ∧ v.act.getLsbD ((s.sreg e.who o.sk.toNat).toNat % 64) = true
      ∧ LaneReady s e v [] [⟨o.vs1.toNat, 1#64 <<< ((s.sreg e.who o.sk.toNat).toNat % 64), o.e1⟩])
    (fun s e => after e (s.setS e.who o.sd.toNat
      ((v.w.lane o.vs1.toNat ((s.sreg e.who o.sk.toNat).toNat % 64)).data.setWidth 64))))
  ∧ (∀ (o : OpVSv) v, Runs (.vtos o)
    (fun s e => SReady s e o.sk.toNat ∧ SFree s e o.sd.toNat ∧ v.act.getLsbD ((s.sreg e.who o.sk.toNat).toNat % 64) = false
      ∧ venv s e = .ok v ∧ InRange e [o.vs1.toNat])
    (fun s e => after e (s.setS e.who o.sd.toNat 0)))
  ∧ (∀ (o : OpVSf) v l, Runs (.vtosFirst o)
    (fun s e => SFree s e o.sd.toNat ∧ lowLane v.act = some l ∧ LaneReady s e v [] [⟨o.vs1.toNat, 1#64 <<< l, o.e1⟩])
    (fun s e => after e (s.setS e.who o.sd.toNat ((v.w.lane o.vs1.toNat l).data.setWidth 64))))
  ∧ (∀ (o : OpVSf) v, lowLane v.act = none → Runs (.vtosFirst o)
    (fun s e => venv s e = .ok v ∧ SFree s e o.sd.toNat ∧ InRange e [o.vs1.toNat])
    (fun s e => after e (s.setS e.who o.sd.toNat 0)))

/-- R121, R130, R139, R157: SEL, STOV, SETE, SETF and BCAST. -/
def Sys2Proof.Claims.SelectionsAndBroadcasts : Prop :=
  (∀ (o : OpV3) (q : Pfx) v, o.pfx = some q → Runs (.sel o)
    (fun s e => LaneReady s e v [o.vd.toNat] (two o v) ∧ MReady v.w (q.imx.toNat % 8))
    (fun s e => after e (s.modWarp e.ci e.wi (fun w => w.out v o.vd.toNat (fun l =>
      if (mval e v.w (q.imx.toNat % 8)).getLsbD l then Lane.full (v.w.lane o.vs1.toNat l).data (v.w.lane o.vs1.toNat l).s
      else Lane.full (v.w.lane o.vs2.toNat l).data (v.w.lane o.vs2.toNat l).s)))))
  ∧ (∀ (o : OpVStov) v, Runs (.stov o) (fun s e => LaneReady s e v [o.vd.toNat] [] ∧ SReady s e o.ss.toNat)
    (fun s e => after e (s.modWarp e.ci e.wi (fun w => w.out v o.vd.toNat (fun _ =>
      Lane.full ((s.sreg e.who o.ss.toNat).setWidth 32) false)))))
  ∧ (∀ (o : OpVStov) v, Runs (.stovHi o) (fun s e => LaneReady s e v [o.vd.toNat] [] ∧ SReady s e o.ss.toNat)
    (fun s e => after e (s.modWarp e.ci e.wi (fun w => w.out v o.vd.toNat (fun _ =>
      Lane.full ((s.sreg e.who o.ss.toNat).extractLsb' 32 32) false)))))
  ∧ (∀ (o : OpV1) v, Runs (.sete o) (fun s e => LaneReady s e v [o.vd.toNat] [])
    (fun s e => after e (s.modWarp e.ci e.wi (fun w => w.out v o.vd.toNat (fun l => { w.lane o.vd.toNat l with f := false })))))
  ∧ (∀ (o : OpV1) v, Runs (.setf o) (fun s e => LaneReady s e v [o.vd.toNat] [])
    (fun s e => after e (s.modWarp e.ci e.wi (fun w => w.out v o.vd.toNat (fun l => { w.lane o.vd.toNat l with f := true })))))
  ∧ (∀ (o : OpVSk) v, Runs (.bcast o)
    (fun s e => SReady s e o.sk.toNat ∧ v.act.getLsbD ((s.sreg e.who o.sk.toNat).toNat % 64) = true
      ∧ LaneReady s e v [o.vd.toNat] [⟨o.vs1.toNat, 1#64 <<< ((s.sreg e.who o.sk.toNat).toNat % 64), o.e1⟩])
    (fun s e => after e (s.modWarp e.ci e.wi (fun w => w.out v o.vd.toNat (fun _ =>
      v.moved o.vs1 ((s.sreg e.who o.sk.toNat).toNat % 64))))))
  ∧ (∀ (o : OpVSk) v, Runs (.bcast o)
    (fun s e => SReady s e o.sk.toNat ∧ v.act.getLsbD ((s.sreg e.who o.sk.toNat).toNat % 64) = false
      ∧ LaneReady s e v [o.vd.toNat] [] ∧ InRange e [o.vs1.toNat])
    (fun s e => after e (s.modWarp e.ci e.wi (fun w => w.out v o.vd.toNat (fun _ => Lane.full 0 false)))))
  ∧ (∀ (o : OpV2) v l, Runs (.bcastFirst o)
    (fun s e => lowLane v.act = some l ∧ LaneReady s e v [o.vd.toNat] [⟨o.vs1.toNat, 1#64 <<< l, o.e1⟩])
    (fun s e => after e (s.modWarp e.ci e.wi (fun w => w.out v o.vd.toNat (fun _ => v.moved o.vs1 l)))))
  ∧ (∀ (o : OpV2) v, v.act = 0 → Runs (.bcastFirst o)
    (fun s e => LaneReady s e v [o.vd.toNat] [] ∧ InRange e [o.vs1.toNat])
    (fun s e => after e (s.modWarp e.ci e.wi (fun w => w.setLanes o.vd.toNat v.zl (fun _ => Lane.full 0 false)))))

/-- R155, R156: each active lane receives data and S of the lane its shuffle names, or its own where that lane is not active or
lies outside its segment. -/
def Sys2Proof.Claims.ShufflesMoveLanes : Prop :=
  ∀ i k vd va ea p vb n, ShuffleRow i k vd va ea p vb n → ∀ v, Runs i
    (fun s e => LaneReady s e v [vd.toNat] (vb.map (fun b => v.src b.1 b.2) ++ [⟨va.toNat, shuffleReads k v p n, ea⟩]))
    (fun s e => after e (s.modWarp e.ci e.wi (fun w => w.out v vd.toNat (fun l => v.moved va (shflLane k (segW p) (n v l) v.act l)))))

/-- R161: SCAN and SSCAN. -/
def Sys2Proof.Claims.ScansFoldInLaneOrder : Prop :=
  ∀ i vd va ea op ex ok hd, ScanRow i vd va ea op ex ok hd → ∀ v, Runs i
    (fun s e => LaneReady s e v [vd.toNat] [v.src va ea] ∧ ok e v)
    (fun s e => after e (s.modWarp e.ci e.wi (fun w => w.out v vd.toNat (fun l => Lane.full
      ((scanFold (redComb op v.mode v.vout) (redRead v op va) v.act.getLsbD (hd e v) ex (redEmpty op) none (List.range 64)).getD l 0) false))))

/-- R316, R334 to R336, R460: TOPK merges candidates into its list, SAMPLE draws a token, STOPCHK answers the stop code, SMXUPD updates the running softmax.
Model's choices it rests on: log entry 5. -/
def Obligations.SelectionInstructionsCompute : Prop :=
  (∀ (o : OpV3) v, Runs (.topk o)
    (fun s e => venv s e = .ok v ∧ InRange e [o.vd.toNat, o.vd.toNat + 1, o.vs1.toNat, o.vs2.toNat]
      ∧ Readable v.w [v.src o.vs1 o.e1, v.src o.vs2 o.e2, ⟨o.vd.toNat, allLanes, false⟩, ⟨o.vd.toNat + 1, allLanes, false⟩])
    (fun s e =>
      let u := topSort ((List.range 64).map (fun l => (v.score o.vd.toNat l, v.word (o.vd.toNat + 1) l))
        ++ (lanesOf v.act).map (fun l => (v.score o.vs1.toNat l, v.word o.vs2.toNat l)))
      after e (s.modWarp e.ci e.wi (fun w =>
        (w.setLanes o.vd.toNat allLanes (fun l => Lane.full (topEntry (topK o.pfx) u l).1 false)).setLanes (o.vd.toNat + 1) allLanes
          (fun l => Lane.full (topEntry (topK o.pfx) u l).2 false)))))
  ∧ (∀ (o : OpV3) v, Runs (.sample o)
    (fun s e => venv s e = .ok v ∧ InRange e [o.vd.toNat, o.vs1.toNat, o.vs1.toNat + 1, o.vs2.toNat]
      ∧ Readable v.w [⟨o.vs1.toNat, allLanes, o.e1⟩, ⟨o.vs1.toNat + 1, allLanes, o.e1⟩, ⟨o.vs2.toNat, 0x3F, o.e2⟩]
      ∧ FreeLanes v.w [o.vd.toNat] (v.act ||| v.zl))
    (fun s e => after e (s.modWarp e.ci e.wi (fun w => w.out v o.vd.toNat (fun _ => Lane.full
      (sampleDraw (v.score o.vs1.toNat) (v.word (o.vs1.toNat + 1)) (v.score o.vs2.toNat 0) (v.score o.vs2.toNat 1) (v.word o.vs2.toNat 2)
        (BitVec.ofNat 64 ((v.word o.vs2.toNat 3).toNat + (v.word o.vs2.toNat 4).toNat * 2 ^ 32)) ((v.word o.vs2.toNat 5).setWidth 64)) false)))))
  ∧ (∀ (o : OpV3) v, Runs (.stopchk o)
    (fun s e => venv s e = .ok v ∧ InRange e [o.vd.toNat, o.vs1.toNat, o.vs2.toNat]
      ∧ Readable v.w [⟨o.vs1.toNat, 0xFF, o.e1⟩, ⟨o.vs2.toNat, allLanes, o.e2⟩] ∧ FreeLanes v.w [o.vd.toNat] (v.act ||| v.zl))
    (fun s e => after e (s.modWarp e.ci e.wi (fun w => w.out v o.vd.toNat (fun _ =>
      Lane.full (stopCode (v.word o.vs1.toNat) (v.word o.vs2.toNat)) false)))))
  ∧ (∀ (o : OpV2) v, Runs (.smxupd o)
    (fun s e => venv s e = .ok v ∧ InRange e [o.vd.toNat, o.vd.toNat + 1, o.vd.toNat + 2, o.vd.toNat + 3, o.vs1.toNat]
      ∧ Readable v.w (smxSrcs v o) ∧ FreeLanes v.w [o.vd.toNat, o.vd.toNat + 1, o.vd.toNat + 2, o.vd.toNat + 3] (v.act ||| v.zl))
    (fun s e =>
      let r := fun l => smxStep v.mode (v.fpAt o.vd.toNat l) (v.word (o.vd.toNat + 1) l) (v.fpAt (o.vd.toNat + 2) l) (v.fp o.vs1 l)
      after e (s.modWarp e.ci e.wi (fun w =>
        (((w.out v o.vd.toNat (fun l => v.fout (r l).1)).out v (o.vd.toNat + 1) (fun l => Lane.full (r l).2.1 false)).out v (o.vd.toNat + 2)
          (fun l => v.fout (r l).2.2.1)).out v (o.vd.toNat + 3) (fun l => v.fout (r l).2.2.2)))))
  ∧ (∀ (o : OpV2) v, Runs (.smxupdSum o)
    (fun s e => venv s e = .ok v ∧ InRange e [o.vd.toNat, o.vd.toNat + 1, o.vd.toNat + 2, o.vd.toNat + 3, o.vs1.toNat]
      ∧ Readable v.w (smxSrcs v o) ∧ FreeLanes v.w [o.vd.toNat + 2] (v.act ||| v.zl))
    (fun s e => after e (s.modWarp e.ci e.wi (fun w => w.out v (o.vd.toNat + 2) (fun l =>
      v.fout (fadd32 v.mode (v.fpAt (o.vd.toNat + 2) l) (v.fp o.vs1 l)))))))

/-- R125 to R127: scalar results; with W = 1 the operation on the low 32 bits, its result sign-extended; s0 reads 0 and discards. -/
def Obligations.ScalarInstructionsCompute : Prop :=
  (∀ i o f g, ScalarRow i o f g → Runs i (fun s e => SReady s e o.ss1.toNat ∧ SReady s e o.ss2.toNat ∧ SFree s e o.sd.toNat)
    (fun s e =>
      let a := s.sreg e.who o.ss1.toNat
      let b := s.sreg e.who o.ss2.toNat
      after e (s.setS e.who o.sd.toNat (if o.w then (g (a.setWidth 32) (b.setWidth 32)).signExtend 64 else f a b))))
  ∧ (∀ (o : OpS2), Runs (.sclz o) (fun s e => SReady s e o.ss1.toNat ∧ SFree s e o.sd.toNat)
    (fun s e => after e (s.setS e.who o.sd.toNat
      (if o.w then BitVec.ofNat 64 (32 - bitLen 32 ((s.sreg e.who o.ss1.toNat).toNat % 2 ^ 32)) else BitVec.ofNat 64 (64 - bitLen 64 (s.sreg e.who o.ss1.toNat).toNat)))))
  ∧ (∀ (o : OpS2), Runs (.spopc o) (fun s e => SReady s e o.ss1.toNat ∧ SFree s e o.sd.toNat)
    (fun s e => after e (s.setS e.who o.sd.toNat (BitVec.ofNat 64 (popNat (if o.w then 32 else 64) (s.sreg e.who o.ss1.toNat).toNat)))))
  ∧ (∀ i o f, ScalarImmRow i o f → Runs i (fun s e => SReady s e o.ss1.toNat ∧ SFree s e o.sd.toNat)
    (fun s e => after e (s.setS e.who o.sd.toNat (f (s.sreg e.who o.ss1.toNat) (siImm o.imm12 o.lim)))))
  ∧ (∀ (o : OpSIm), Runs (.smovi o) (fun s e => SFree s e o.sd.toNat) (fun s e => after e (s.setS e.who o.sd.toNat (siImm o.imm12 o.lim))))

/-- R69, R121, R128, R138, R146, R160: the instructions that write a mask register or one scalar register from lanes. -/
def Obligations.MasksAndScalarResultsCompute : Prop := Claims.MaskInstructionsCompute ∧ Claims.LaneToScalarResults

/-- R139, R154 to R161: selections, broadcasts, shuffles and scans move and fold lanes as their rules say. -/
def Obligations.LanesMoveAndFold : Prop := Claims.SelectionsAndBroadcasts ∧ Claims.ShufflesMoveLanes ∧ Claims.ScansFoldInLaneOrder

namespace Sys2Proof.Claims
open Sys2Proof.Machine

/-- Wherever `i` issues and `pre` holds, it traps: nothing of its effect happens, and the trap is taken (R50, R397). -/
def Traps (i : Instr) (pre : State → Env → Prop) (t : State → Env → Trap) : Prop :=
  ∀ s e, Issues s i e → pre s e → exec i s = .next ((s.raise e (t s e)).ctxSettle e.who)

/-- Wherever `i` issues and `pre` holds, it completes with the state `post`, which says itself where the threads are. -/
def RunsTo (i : Instr) (pre : State → Env → Prop) (post : State → Env → State) : Prop :=
  ∀ s e, Issues s i e → pre s e → exec i s = .next ((post s e).ctxSettle e.who)

/-- The registers of a warp in a trap (R398). -/
def trapWord (cause : Nat) (info : W64) : Trap := ⟨cause, info, none, 0⟩

/-- The values of the control and status registers of every program (R70, R84, R98, R102, R116, R131, R163, R178, R191, R310, R386,
R410): number and value. -/
inductive CsrRow (s : State) (e : Env) : Nat → W64 → Prop where
  | lanes : CsrRow s e 0x000 64
  | cores : CsrRow s e 0x001 528
  | die : CsrRow s e 0x002 (BitVec.ofNat 64 e.k.die)
  | core : CsrRow s e 0x003 (BitVec.ofNat 64 e.k.core)
  | warp : CsrRow s e 0x004 (BitVec.ofNat 64 e.wi)
  | ctxid : CsrRow s e 0x006 (BitVec.ofNat 64 e.k.ctxid)
  | dtime : CsrRow s e 0x020 (BitVec.ofNat 64 (s.dtime + (if e.k.die = 0 then s.skew.1 else s.skew.2)))
  | kdata : CsrRow s e 0x040 e.k.kdata
  | kparam : CsrRow s e 0x041 e.k.kparam
  | crewid : CsrRow s e 0x042 (BitVec.ofNat 64 e.k.crewid)
  | ncrews : CsrRow s e 0x043 (BitVec.ofNat 64 e.k.ncrews)
  | cluster : CsrRow s e 0x085 (BitVec.ofNat 64 (e.k.core / 8))
  | regs : CsrRow s e 0x090 (BitVec.ofNat 64 e.k.image.regs)
  | regbytes : CsrRow s e 0x091 272
  | spadBytes : CsrRow s e 0x0A0 (BitVec.ofNat 64 (128 * e.k.image.scrlines))
  | tagSlots : CsrRow s e 0x0A1 (BitVec.ofNat 64 (8 * e.k.image.warps))
  | thbase : CsrRow s e 0x0C5 e.k.thbase
  | thcount : CsrRow s e 0x0C6 (e.k.thcount.setWidth 64)
  | cpfault : CsrRow s e 0x0C8 e.k.cpfault
  | pgwait : CsrRow s e 0x0D0 (e.k.pgwait.setWidth 64)
  | neterr : CsrRow s e 0x0E0 e.k.neterr
  | devid : CsrRow s e 0x0E1 s.devid
  | loop (i : Nat) : i < 4 → CsrRow s e (0x081 + i) (match (s.loopsOf e).reverse[i]? with | some l => l.count.setWidth 64 | none => 0)
  | recva (d : Die) : s.dies[e.k.die]? = some d → CsrRow s e 0x0D8 d.sched.recva
  | pwrstat : CsrRow s e 0x0F4 (BitVec.ofNat 64 ((if s.clamp.getLsbD e.k.die then 2 ^ 63 else 0) + (s.allowance e.k.die e.k.core).1 * 2 ^ 8
      + (s.allowance e.k.die e.k.core).2))

/-- The values of the registers of a warp's own (R42, R43, R98, R274, R398, R413, R459). -/
inductive WarpCsrRow (w : Warp) (k : Crew) : Nat → W64 → Prop where
  | rmode : WarpCsrRow w k 0x010 (w.rmode.setWidth 64)
  | ftz : WarpCsrRow w k 0x011 (w.ftz.setWidth 64)
  | depth : WarpCsrRow w k 0x080 (BitVec.ofNat 64 w.loops.length)
  | trapcause : WarpCsrRow w k 0x030 w.trapcause
  | trappc : WarpCsrRow w k 0x031 w.trappc
  | trapinfo : WarpCsrRow w k 0x032 w.trapinfo
  | faultdet : WarpCsrRow w k 0x0B0 w.faultdet
  | sqtcause : WarpCsrRow w k 0x0C9 w.sqtcause
  | sqtpc : WarpCsrRow w k 0x0CA w.sqtpc
  | sqtinfo : WarpCsrRow w k 0x0CB w.sqtinfo
  | tvec : WarpCsrRow w k 0x0F0 (k.tvec.setWidth 64)
  | tstat : WarpCsrRow w k 0x0F1 (BitVec.ofNat 64 ((if w.hact then 2 ^ 63 else 0) + w.nkill.toNat * 2 ^ 8 + w.tlen.toNat))
  | poisonva : WarpCsrRow w k 0x0F2 w.poisonva
  | hmask : WarpCsrRow w k 0x0F3 w.hmask

/-- What CSRW of a number does with a value that it takes (R42, R43, R131, R132, R253, R274, R310, R386, R398). -/
inductive CsrwRow : Nat → (W64 → Prop) → (State → Env → W64 → State) → Prop where
  | rmode : CsrwRow 0x010 (fun v => v.toNat % 8 < 6) (fun s e v => s.setModes e (fun q => (v.setWidth 3, q.2)))
  | ftz : CsrwRow 0x011 (fun _ => True) (fun s e v => s.setModes e (fun q => (q.1, v.setWidth 3)))
  | mxbar : CsrwRow 0x0C0 (fun _ => True) (fun s e v => s.modOwnCtx e (fun c => { c with mxbar := v &&& 0x80000000FFFFFFFF#64 }))
  | mxshape : CsrwRow 0x0C1 (fun _ => True) (fun s e v => s.modOwnCtx e (fun c => { c with mxshape := v &&& 0x80FFFFFF0000000F#64 }))
  | mxgang : CsrwRow 0x0C2 (fun _ => True) (fun s e v => s.modOwnCtx e (fun c => { c with mxgang := v &&& 0xFFFFFFFF#64 }))
  | pgwait : CsrwRow 0x0D0 (fun _ => True) (fun s e v => s.modCrew e.ci (fun k => { k with pgwait := v.setWidth 16 }))
  | cpfault : CsrwRow 0x0C8 (fun _ => True) (fun s e _ => s.modCrew e.ci (fun k => { k with cpfault := 0 }))
  | neterr : CsrwRow 0x0E0 (fun _ => True) (fun s e _ => s.modCrew e.ci (fun k => { k with neterr := 0 }))
  | tvec : CsrwRow 0x0F0 (fun v => v.toNat % 2 = 0) (fun s e v => s.modCrew e.ci (fun k => { k with tvec := v.setWidth 32 }))

/-- The lanes of an access at their places: the scratchpad offset of the aperture (R181), or the key of a translated memory address
(R187, R199). -/
def Places (s : State) (e : Env) (sum : Nat → Nat) (n kind : Nat) (ls : List Nat) (f : Nat → Spot) : Prop :=
  ∀ i ∈ ls, (∃ off, placeOf e.k (sum i) n = .spad off ∧ f i = .spad off)
    ∨ (∃ va key, placeOf e.k (sum i) n = .mem va ∧ s.xlate e.k.ctxid va n kind = .ok key ∧ f i = .mem key)

/-- The lanes of `ls`, each with its place. -/
def placed (ls : List Nat) (f : Nat → Spot) : List (Nat × Spot) := ls.map (fun i => (i, f i))

/-- The lanes whose place lies in the scratchpad, with its offset. -/
def spadLanes (ps : List (Nat × Spot)) : List (Nat × Nat) := ps.filterMap (fun p => match p.2 with | .spad off => some (p.1, off) | .mem _ => none)

/-- The loads by lanes: run, base, index, offset, bytes a lane, whether sign-extended, the scope of an acquire (R198, R200, R203). -/
inductive LoadRow : Instr → BitVec 7 → BitVec 6 → BitVec 7 → Bool → Option Pfx → Option (BitVec 24) → Nat → Bool → Option Nat → Prop where
  | ldB8 (o : OpM) : LoadRow (.ldB8 o) o.vt o.sb o.vi o.ix o.pfx o.lim 1 false none
  | ldS8 (o : OpM) : LoadRow (.ldS8 o) o.vt o.sb o.vi o.ix o.pfx o.lim 1 true none
  | ldB16 (o : OpM) : LoadRow (.ldB16 o) o.vt o.sb o.vi o.ix o.pfx o.lim 2 false none
  | ldS16 (o : OpM) : LoadRow (.ldS16 o) o.vt o.sb o.vi o.ix o.pfx o.lim 2 true none
  | ldB32 (o : OpM) : LoadRow (.ldB32 o) o.vt o.sb o.vi o.ix o.pfx o.lim 4 false none
  | ldB64 (o : OpM) : LoadRow (.ldB64 o) o.vt o.sb o.vi o.ix o.pfx o.lim 8 false none
  | ldB128 (o : OpM) : LoadRow (.ldB128 o) o.vt o.sb o.vi o.ix o.pfx o.lim 16 false none
  | ldAcqB32 (o : OpMSc) : LoadRow (.ldAcqB32 o) o.vt o.sb o.vi o.ix o.pfx o.lim 4 false (some o.sc.toNat)
  | ldAcqB64 (o : OpMSc) : LoadRow (.ldAcqB64 o) o.vt o.sb o.vi o.ix o.pfx o.lim 8 false (some o.sc.toNat)

/-- The stores by lanes, with the scope of a release (R198, R201, R203). -/
inductive StoreRow : Instr → BitVec 7 → BitVec 6 → BitVec 7 → Bool → Option Pfx → Option (BitVec 24) → Nat → Option Nat → Prop where
  | stB8 (o : OpM) : StoreRow (.stB8 o) o.vt o.sb o.vi o.ix o.pfx o.lim 1 none
  | stB16 (o : OpM) : StoreRow (.stB16 o) o.vt o.sb o.vi o.ix o.pfx o.lim 2 none
  | stB32 (o : OpM) : StoreRow (.stB32 o) o.vt o.sb o.vi o.ix o.pfx o.lim 4 none
  | stB64 (o : OpM) : StoreRow (.stB64 o) o.vt o.sb o.vi o.ix o.pfx o.lim 8 none
  | stB128 (o : OpM) : StoreRow (.stB128 o) o.vt o.sb o.vi o.ix o.pfx o.lim 16 none
  | stRelB32 (o : OpMSc) : StoreRow (.stRelB32 o) o.vt o.sb o.vi o.ix o.pfx o.lim 4 (some o.sc.toNat)
  | stRelB64 (o : OpMSc) : StoreRow (.stRelB64 o) o.vt o.sb o.vi o.ix o.pfx o.lim 8 (some o.sc.toNat)

/-- The scratchpad loads and stores, with their bytes a lane (R174). -/
inductive SpldRow : Instr → OpMSwz → Nat → Prop where
  | b8 (o : OpMSwz) : SpldRow (.spldB8 o) o 1
  | b16 (o : OpMSwz) : SpldRow (.spldB16 o) o 2
  | b32 (o : OpMSwz) : SpldRow (.spldB32 o) o 4
  | b64 (o : OpMSwz) : SpldRow (.spldB64 o) o 8
  | b128 (o : OpMSwz) : SpldRow (.spldB128 o) o 16

inductive SpstRow : Instr → OpMSwz → Nat → Prop where
  | b8 (o : OpMSwz) : SpstRow (.spstB8 o) o 1
  | b16 (o : OpMSwz) : SpstRow (.spstB16 o) o 2
  | b32 (o : OpMSwz) : SpstRow (.spstB32 o) o 4
  | b64 (o : OpMSwz) : SpstRow (.spstB64 o) o 8
  | b128 (o : OpMSwz) : SpstRow (.spstB128 o) o 16

/-- The run of an M-format word and, where IX = 1, its index. -/
def runRegs (rs : List Nat) (ix : Bool) (vi : BitVec 7) : List Nat := if ix then rs ++ [vi.toNat] else rs

/-- The index as a source. -/
def idxReads (v : VEnv) (ix : Bool) (vi : BitVec 7) : List Src := if ix then [⟨vi.toNat, v.act, false⟩] else []

/-- A lane's 64-bit address sum: base, sign-extended index, byte offset (R58, R166, R199). -/
def lanesSum (v : VEnv) (base : W64) (ix : Bool) (vi : BitVec 7) (p : Option Pfx) (l : Option (BitVec 24)) (i : Nat) : Nat :=
  (((base.toNat : Int) + (if ix then (v.w.lane vi.toNat i).data.toInt else 0) + mOff p l) % 2 ^ 64).toNat

/-- The scratchpad address of a lane (R166, R167). -/
def spadAt (e : Env) (v : VEnv) (base : W64) (o : OpMSwz) (n i : Nat) : Nat :=
  spAddr e.k.z (lanesSum v base o.ix o.vi o.pfx o.lim i) o.swz.toNat n

/-- The run `rs` pending in the active lanes, 0 in the lanes that Z removes, with `fills` to come (R59, R117); `acq` is the scope of an
acquire. -/
def loadStarted (s : State) (e : Env) (v : VEnv) (vt n : Nat) (acq : Option Nat) (fills : List Fill) : State :=
  let t := s.modWarp e.ci e.wi (fun w => (w.setPending (runOf vt n) v.act).zeroRun v (runOf vt n))
  if v.act = 0 then t
  else t.addOp { e.newOp s v.act with isLoad := true, acq := acq.isSome, scope := acq.getD 0, fills := fills, vt := vt }

/-- The instruction's reads of its crew's scratchpad, one acceptance: each lane with the bytes it names (R169, R210). -/
def spReads (s : State) (e : Env) (acq : Option Nat) (n : Nat) (ads : List (Nat × Nat)) : State :=
  ads.foldl (fun t p => t.spRead (s.agreed e (ads.map (fun p => (1#64 <<< p.1, p.2, n)))) e (1#64 <<< p.1) p.2 n acq) s

/-- What a lane's scratchpad read of `n` bytes brings (R175, R220): the bytes as the read sees them, with their poison. -/
def spBrings (s : State) (e : Env) (vt n : Nat) (sx : Bool) (ads : List (Nat × Nat)) (l a : Nat) : List (Nat × Lane) :=
  spLane (s.agreed e (ads.map (fun p => (1#64 <<< p.1, p.2, n)))) e vt n sx l a

/-- The instruction's writes of its crew's scratchpad, in lane order: a lane, where, and what (R169, R176). -/
def spPuts (s : State) (e : Env) (n : Nat) (ads : List (Nat × Nat × Nat)) : State :=
  ads.foldl (fun t x => t.spPut e (1#64 <<< x.1) none false x.2.1 n x.2.2) s

/-- The registers of a store can be read: its index without poison that traps as a source, its data with poison that traps as a
store's (R413). -/
def StoreReads (s : State) (e : Env) (v : VEnv) (rs : List Nat) (ix : Bool) (vi : BitVec 7) : Prop :=
  venv s e = .ok v ∧ InRange e (runRegs rs ix vi) ∧ Readable v.w (idxReads v ix vi ++ rs.map (fun r => ⟨r, v.act, false⟩))

end Sys2Proof.Claims

/-- R70, R131, R253: CSRR writes the register's value; a read of MXFAULT or MXGLOST completes once the context's matrix operations have. -/
def Sys2Proof.Claims.ControlRegistersRead : Prop :=
  (∀ (o : OpCsrr) x, Runs (.csrr o)
    (fun s e => s.csr? e o.csr.toNat = some x ∧ SFree s e o.sd.toNat ∧ (o.csr = 0x0C3 ∨ o.csr = 0x0C4 → s.mxOut e.who = false))
    (fun s e => after e (s.setS e.who o.sd.toNat x)))
  ∧ (∀ (o : OpCsrMx) x c, Runs (.mxglostRead o)
    (fun s e => (∃ j, e.who = .ctx j ∧ s.ctxs[j]? = some c) ∧ e.eng = .matrix ∧ x = (if o.lost then c.mxglost else c.mxfault)
      ∧ SFree s e o.sd.toNat ∧ s.mxOut e.who = false)
    (fun s e => after e (s.setS e.who o.sd.toNat x)))
  ∧ (∀ (o : OpCsrr), Traps (.csrr o) (fun s e => s.csr? e o.csr.toNat = none)
    (fun _ e => trapWord 1 (BitVec.ofNat 64 (1 * 2 ^ 56 + e.h.word % 2 ^ 32))))
  ∧ (∀ s e n x, CsrRow s e n x → s.csr? e n = some x)
  ∧ (∀ (s : State) (e : Env) n x c i w k, e.who = .warp c i → s.warp? c i = some w → e.k = k → WarpCsrRow w k n x → s.csr? e n = some x)

/-- R131, R132, R253, R254, R274, R386, R398: CSRW changes the named register and nothing else; a number unassigned in the issuer's kind of
program traps with reason 1, every other number that is not writable, LANE among them, with reason 9, and so do the values that RMODE and
TVEC do not take. -/
def Sys2Proof.Claims.ControlRegistersWritten : Prop :=
  (∀ n ok f, CsrwRow n ok f → ∀ o : OpCsrw, o.csr.toNat = n → Runs (.csrw o)
    (fun s e => (s.csr? e n).isSome ∧ SReady s e o.ss1.toNat ∧ ok (s.sreg e.who o.ss1.toNat))
    (fun s e => after e (f s e (s.sreg e.who o.ss1.toNat))))
  ∧ (∀ (o : OpCsrW0), Runs (.neterrWrite o) (fun s e => SReady s e o.ss1.toNat)
    (fun s e => after e (s.modCrew e.ci (fun k => { k with neterr := 0 }))))
  ∧ (∀ (o : OpCsrW0), Runs (.cpfaultWrite o) (fun s e => SReady s e o.ss1.toNat)
    (fun s e => after e (s.modCrew e.ci (fun k => { k with cpfault := 0 }))))
  ∧ (∀ (o : OpCsrW0) x c, Runs (.mxfaultWrite o)
    (fun s e => e.who = .ctx x ∧ s.ctxs[x]? = some c ∧ e.eng = .matrix ∧ s.mxOut e.who = false ∧ SReady s e o.ss1.toNat)
    (fun s e => after e (s.modCtx x (fun c => { c with mxfault := 0, mxbad := none }))))
  ∧ (∀ (o : OpCsrw), o.csr ≠ 0x005 → Traps (.csrw o) (fun s e => s.csr? e o.csr.toNat = none)
    (fun _ e => trapWord 1 (BitVec.ofNat 64 (1 * 2 ^ 56 + e.h.word % 2 ^ 32))))
  ∧ (∀ (o : OpCsrw), o.csr.toNat ∉ [0x010, 0x011, 0x0C0, 0x0C1, 0x0C2, 0x0C3, 0x0C8, 0x0D0, 0x0E0, 0x0F0] →
    Traps (.csrw o) (fun s e => o.csr = 0x005 ∨ (s.csr? e o.csr.toNat).isSome)
      (fun _ e => trapWord 1 (BitVec.ofNat 64 (9 * 2 ^ 56 + e.h.word % 2 ^ 32))))
  ∧ (∀ (o : OpCsrw), o.csr.toNat = 0x0F0 →
    Traps (.csrw o) (fun s e => (s.csr? e 0x0F0).isSome ∧ SReady s e o.ss1.toNat ∧ (s.sreg e.who o.ss1.toNat).toNat % 2 = 1)
      (fun _ e => trapWord 1 (BitVec.ofNat 64 (9 * 2 ^ 56 + e.h.word % 2 ^ 32))))
  ∧ (∀ (o : OpCsrw), o.csr.toNat = 0x010 → Traps (.csrw o) (fun s e => SReady s e o.ss1.toNat ∧ 6 ≤ (s.sreg e.who o.ss1.toNat).toNat % 8)
    (fun _ e => trapWord 1 (BitVec.ofNat 64 (9 * 2 ^ 56 + e.h.word % 2 ^ 32))))

/-- R166 to R171, R174, R175, R220: a scratchpad load empties its run and brings each active lane its little-endian element; a read that
does not look back sees the bytes as they are. -/
def Sys2Proof.Claims.ScratchpadLoads : Prop :=
  (∀ (s : State) e vt n sx ads l a, s.lookBack = [] →
    spBrings s e vt n sx ads l a = loadLanes vt n sx (e.k.spRd a n) (fun j => e.k.spBad (a + 4 * j) (min n 4)))
  ∧ ∀ i o n, SpldRow i o n → ∀ v, Runs i
    (fun s e => venv s e = .ok v ∧ InRange e (runRegs (runOf o.vt.toNat n) o.ix o.vi) ∧ SReady s e o.sb.toNat ∧ Readable v.w (idxReads v o.ix o.vi)
      ∧ FreeLanes v.w (runOf o.vt.toNat n) (v.act ||| v.zl) ∧ s.spReadReady e = true
      ∧ ∀ l ∈ lanesOf v.act, e.k.linesFull (spadAt e v (s.sreg e.who o.sb.toNat) o n l) n = true)
    (fun s e =>
      let ads := (lanesOf v.act).map (fun l => (l, spadAt e v (s.sreg e.who o.sb.toNat) o n l))
      after e (loadStarted (spReads s e none n ads) e v o.vt.toNat n none (ads.map (fun p => ⟨p.1, .ready (spBrings s e o.vt.toNat n false ads p.1 p.2)⟩))))

/-- R166, R167, R169, R174, R176, R177: a scratchpad store writes each active lane's element at its address as one acceptance, a later lane
over an earlier one; memory and every other crew stay. -/
def Sys2Proof.Claims.ScratchpadStores : Prop :=
  (∀ i o n, SpstRow i o n → ∀ v, Runs i
    (fun s e => StoreReads s e v (runOf o.vt.toNat n) o.ix o.vi ∧ SReady s e o.sb.toNat ∧ s.spWriteReady e = true)
    (fun s e => after e (s.asOne (spPuts s e n ((lanesOf v.act).map (fun l =>
      (l, spAddr e.k.z (lanesSum v (s.sreg e.who o.sb.toNat) o.ix o.vi o.pfx o.lim l) o.swz.toNat n, storeVal v (runOf o.vt.toNat n) l)))))))
  ∧ (∀ (o : OpMSwz) v, ∀ p ∈ [(Instr.spstN4 o, 4), (Instr.spstN6 o, 6)], Runs p.1
    (fun s e => StoreReads s e v [o.vt.toNat] o.ix o.vi ∧ SReady s e o.sb.toNat ∧ s.spWriteReady e = true)
    (fun s e => after e (s.asOne ((allElems v p.2 o.vt o.vi o.ix).foldl (fun t b => t.spPutBits e (1#64 <<< b.1)
      (spAddr e.k.z ((((s.sreg e.who o.sb.toNat).toNat : Int) + b.2.off + mOff o.pfx o.lim) % 2 ^ 64).toNat o.swz.toNat 1) b.2.mask b.2.val) s))))
  ∧ (∀ (s : State) e n ads, ∀ t, t = s.asOne (spPuts s e n ads) → t.mem = s.mem ∧ t.ops = s.ops ∧ t.ctxs = s.ctxs
      ∧ t.crews = modAt s.crews e.ci (fun k => ads.foldl (fun k x => k.spWr x.2.1 n x.2.2) k))

/-- R122, R123, R170, R173: register images out and in, and the line-state instructions.
Model's choices it rests on: log entries 90, 92. -/
def Obligations.ImagesAndLines : Prop :=
  (∀ (o : OpMImg) v, Runs (.stimg o)
    (fun s e => venv s e = .ok v ∧ InRange e [o.vt.toNat] ∧ SReady s e o.sb.toNat ∧ s.spWriteReady e = true
      ∧ ∀ l ∈ lanesOf v.act, (v.w.lane o.vt.toNat l).pend = false ∧ (v.w.lane o.vt.toNat l).poison = false)
    (fun s e =>
      let a := imgBase (s.sreg e.who o.sb.toNat) o.lim
      let w := fun i => v.w.lane o.vt.toNat i
      let t := s.asOne ((imgParts e.k.z a).foldl (fun t p => t.spNote e v.act none false p 16) s)
      after e (t.modCrew e.ci (fun k => imgMask (imgMask ((lanesOf v.act).foldl (fun k i =>
        k.spWr (imgAddr k.z a (4 * i)) 4 (if (w i).f then (w i).data.toNat else 0)) k) a 256 v.act (fun i => (w i).f && (w i).s)) a 264 v.act
        (fun i => (w i).f)))))
  ∧ (∀ (o : OpMImg) v, Runs (.ldimg o)
    (fun s e => venv s e = .ok v ∧ InRange e [o.vt.toNat] ∧ SReady s e o.sb.toNat ∧ FreeLanes v.w [o.vt.toNat] v.act
      ∧ s.spReadReady e = true
      ∧ ∀ i ∈ lanesOf v.act, ∀ t ∈ [4 * i, 256 + i / 8, 264 + i / 8], e.k.linesFull (imgAddr e.k.z (imgBase (s.sreg e.who o.sb.toNat) o.lim) t) 1 = true)
    (fun s e =>
      let a := imgBase (s.sreg e.who o.sb.toNat) o.lim
      let q := s.agreed e ((imgParts e.k.z a).map (fun p => (v.act, p, 16)))
      let k := (imgParts e.k.z a).foldl (fun k p => q.spSeen e v.act k p 16) e.k
      after e (((imgParts e.k.z a).foldl (fun t p => t.spRead q e v.act p 16 none) s).startLoad e v o.vt.toNat 4 none
        ((lanesOf v.act).map (fun i => ⟨i, .ready [(o.vt.toNat, imgLane k a i)]⟩)))))
  ∧ (∀ (o : OpX2) full, ∀ i ∈ [if full then Instr.lnset o else .lnclr o], Runs i (fun s e => SReady s e o.a.toNat ∧ SReady s e o.b.toNat)
    (fun s e => after e (s.modCrew e.ci (fun k => (List.range (min (s.sreg e.who o.b.toNat).toNat k.image.scrlines)).foldl (fun k j =>
      k.setLf (spAddr k.z ((s.sreg e.who o.a.toNat).toNat + 128 * j) 0 1 / 128) full) k))))

/-- R178 to R180: the tag table. A hit answers its slot and makes it the most recent; a miss answers with a hint; TAGSET and TAGCLR.
Model's choices it rests on: log entry 20. -/
def Obligations.TagTable : Prop :=
  (∀ (o : OpX2) v, Runs (.lookup o)
    (fun s e => venv s e = .ok v ∧ InRange e [o.a.toNat, o.b.toNat] ∧ Readable v.w [⟨o.b.toNat, v.act, false⟩] ∧ FreeLanes v.w [o.a.toNat] v.act
      ∧ ∀ t < 8 * e.k.image.warps, e.k.tagPoison.get t = 0)
    (fun s e =>
      let q := tagLookups (8 * e.k.image.warps) (fun i => (v.w.lane o.b.toNat i).data) (lanesOf v.act) e.k.tags
      after e (s.modCrew e.ci (fun k => ({ k with tags := q.2 } : Crew).modWarp e.wi (fun w => w.out v o.a.toNat (fun l =>
        Lane.full (match q.1.find? (fun p => decide (p.1 = l)) with | some p => p.2 | none => 0) false))))))
  ∧ (∀ (o : OpX2) v, Runs (.tagset o)
    (fun s e => venv s e = .ok v ∧ InRange e [o.a.toNat, o.b.toNat] ∧ Readable v.w [⟨o.a.toNat, v.act, false⟩, ⟨o.b.toNat, v.act, false⟩]
      ∧ ∀ t < 8 * e.k.image.warps, e.k.tagPoison.get t = 0)
    (fun s e => after e (s.modCrew e.ci (fun k => (lanesOf v.act).foldl (fun k i =>
      let t := (v.w.lane o.b.toNat i).data.toNat
      let key := (v.w.lane o.a.toNat i).data
      if 8 * k.image.warps ≤ t then k
      else { k with tags := k.tags.filter (fun x => decide (x.1 ≠ t ∧ x.2 ≠ key)) ++ [(t, key)] }) k))))
  ∧ (∀ (o : OpX1) v, Runs (.tagclr o)
    (fun s e => venv s e = .ok v ∧ InRange e [o.a.toNat] ∧ Readable v.w [⟨o.a.toNat, v.act, false⟩])
    (fun s e => after e (s.modCrew e.ci (fun k => (lanesOf v.act).foldl (fun k i =>
      let t := (v.w.lane o.a.toNat i).data.toNat
      if 8 * k.image.warps ≤ t then k
      else { k with tags := k.tags.filter (fun x => decide (x.1 ≠ t)), tagPoison := k.tagPoison.set t 0 }) k))))
  ∧ (∀ n tags key t, tags.find? (fun x : Nat × W32 => decide (x.2 = key)) = some t → (tagLookup n tags key).1 = BitVec.ofNat 32 t.1)

/-- R181, R187, R198 to R200, R203: a load empties its run; each active lane holds its place until its element arrives. -/
def Sys2Proof.Claims.LoadsEmptyTheirRun : Prop :=
  ∀ i vt sb vi ix p l n sx acq, LoadRow i vt sb vi ix p l n sx acq → ∀ v f, Runs i
    (fun s e => venv s e = .ok v ∧ InRange e (runRegs (runOf vt.toNat n) ix vi) ∧ SReady s e sb.toNat ∧ Readable v.w (idxReads v ix vi)
      ∧ Places s e (lanesSum v (s.sreg e.who sb.toNat) ix vi p l) n kRead (lanesOf v.act) f
      ∧ FreeLanes v.w (runOf vt.toNat n) (v.act ||| v.zl)
      ∧ ∀ j ∈ lanesOf v.act, ∀ off, f j = .spad off → e.k.linesFull off n = true ∧ s.spReadReady e = true)
    (fun s e =>
      let ads := spadLanes (placed (lanesOf v.act) f)
      after e (loadStarted (spReads s e acq n ads) e v vt.toNat n acq ((lanesOf v.act).map (fun j =>
        ⟨j, match f j with
          | .spad off => .ready (spBrings s e vt.toNat n sx ads j off)
          | .mem key => .mem key n sx vt.toNat⟩))))

/-- R181, R182, R187, R198, R201 to R203: a store reads its lanes at issue; the scratchpad's share is written, memory's goes to its ports. -/
def Sys2Proof.Claims.StoresLeaveForTheirPorts : Prop :=
  (∀ i vt sb vi ix p l n rel, StoreRow i vt sb vi ix p l n rel → ∀ v f, Runs i
    (fun s e => StoreReads s e v (runOf vt.toNat n) ix vi ∧ SReady s e sb.toNat
      ∧ Places s e (lanesSum v (s.sreg e.who sb.toNat) ix vi p l) n kWrite (lanesOf v.act) f
      ∧ ∀ j ∈ lanesOf v.act, ∀ off, f j = .spad off → s.spWriteReady e = true ∧ (rel.isSome → s.olderPending e.who s.nextOp e.m0 true = false))
    (fun s e =>
      let ps := placed (lanesOf v.act) f
      let t := s.asOne ((spadLanes ps).foldl (fun t p => t.spPut e (1#64 <<< p.1) rel false p.2 n (storeVal v (runOf vt.toNat n) p.1)) s)
      let cells := memCells n ps (fun l => 1#64 <<< l) (storeVal v (runOf vt.toNat n))
      after e (if cells = [] then t else t.addOp { e.newOp s v.act with rel := rel.isSome, scope := rel.getD 0, cells := cells })))
  ∧ (∀ (o : OpM) v ps, ∀ q ∈ [(Instr.stN4 o, 4), (Instr.stN6 o, 6)], Runs q.1
    (fun s e => StoreReads s e v [o.vt.toNat] o.ix o.vi ∧ SReady s e o.sb.toNat
      ∧ resolveElems s e (fun b => ((((s.sreg e.who o.sb.toNat).toNat : Int) + b.off + mOff o.pfx o.lim) % 2 ^ 64).toNat)
          (allElems v q.2 o.vt o.vi o.ix) = .ok ps
      ∧ ∀ x ∈ ps, ∀ off, x.2.2 = .spad off → s.spWriteReady e = true)
    (fun s e =>
      let t := s.asOne (ps.foldl (fun t x =>
        match x.2.2 with | .spad off => t.spPutBits e (1#64 <<< x.1) off x.2.1.mask x.2.1.val | .mem _ => t) s)
      let cells := ps.filterMap (fun x => match x.2.2 with
        | .spad _ => none | .mem key => some (⟨1#64 <<< x.1, key, 1, x.2.1.val, x.2.1.mask⟩ : Cellw))
      after e (if cells = [] then t else t.addOp { e.newOp s v.act with cells := cells })))

/-- R125, R199, R204: SLD leaves its register pending; SST sends a scalar register's 8 bytes. -/
def Sys2Proof.Claims.ScalarLoadsAndStores : Prop :=
  (∀ (o : OpMSc1) f, Runs (.sld o)
    (fun s e => SReady s e o.sb.toNat ∧ SFree s e o.sd.toNat
      ∧ Places s e (fun _ => (((s.sreg e.who o.sb.toNat).toNat + mOff none o.lim) % 2 ^ 64 : Int).toNat) 8 kRead [0] f
      ∧ (match f 0 with
        | .spad off => e.k.linesFull off 8 = true ∧ s.spReadReady e = true ∧ e.k.spBad off 8 = false
        | .mem key => s.bad key 8 = false))
    (fun s e => after e (match f 0 with
      | .spad off => ((s.spRead s e e.m0 off 8 none).pendS e.who o.sd.toNat).addOp { e.newOp s e.m0 with
          isLoad := true, sload := some ⟨o.sd.toNat, 0, some (BitVec.ofNat 64 ((s.spSeen e e.m0 e.k off 8).spRd off 8))⟩ }
      | .mem key => (s.pendS e.who o.sd.toNat).addOp { e.newOp s e.m0 with isLoad := true, sload := some ⟨o.sd.toNat, key, none⟩ })))
  ∧ (∀ (s : State) e m k off n, s.lookBack = [] → (s.spSeen e m k off n).spRd off n = k.spRd off n)
  ∧ (∀ (o : OpMSc1) f, Runs (.sst o)
    (fun s e => SReady s e o.sb.toNat ∧ SReady s e o.sd.toNat
      ∧ Places s e (fun _ => (((s.sreg e.who o.sb.toNat).toNat + mOff none o.lim) % 2 ^ 64 : Int).toNat) 8 kWrite [0] f
      ∧ ∀ off, f 0 = .spad off → s.spWriteReady e = true)
    (fun s e => after e (match f 0 with
      | .spad off => s.asOne (s.spPut e e.m0 none false off 8 (s.sreg e.who o.sd.toNat).toNat)
      | .mem key => s.addOp { e.newOp s e.m0 with
          cells := [⟨e.m0, key, 8, (s.sreg e.who o.sd.toNat).toNat % 256 ^ 8, ones 8⟩] })))

/-- R182, R205, R206: an ATOM empties its run; its scratchpad lanes execute in ascending order, its memory lanes go to the atomic units.
Model's choices it rests on: log entries 19, 27, 90, 91. -/
def Obligations.AtomicsAtIssue : Prop :=
  ∀ (o : OpMAt) v f, ∀ q ∈ [(Instr.atomB32 o, 4), (Instr.atomB64 o, 8)], Runs q.1
    (fun s e =>
      let n := q.2
      let rs := runOf o.vt.toNat (if o.aop = 1 then 2 * n else n)
      venv s e = .ok v ∧ InRange e (rs ++ [o.vi.toNat]) ∧ SReady s e o.sb.toNat
        ∧ Readable v.w (⟨o.vi.toNat, v.act, false⟩ :: rs.map (fun r => ⟨r, v.act, false⟩))
        ∧ Places s e (lanesSum v (s.sreg e.who o.sb.toNat) true o.vi o.pfx o.lim) n kAtomic (lanesOf v.act) f
        ∧ FreeLanes v.w (runOf o.vt.toNat n) (v.act ||| v.zl)
        ∧ ∀ j ∈ lanesOf v.act, ∀ off, f j = .spad off → e.k.linesFull off n = true ∧ s.spWriteReady e = true)
    (fun s e =>
      let n := q.2
      let cmp := fun l => atomVal v o.aop.toNat o.vt.toNat n l
      let b := fun l => atomVal v o.aop.toNat (if o.aop = 1 then o.vt.toNat + n / 4 else o.vt.toNat) n l
      let ps := placed (lanesOf v.act) f
      let x := State.spAtoms e o.aop.toNat n o.vt.toNat cmp b ps s
      let t := (s.asOne x.2).modWarp e.ci e.wi (fun w => (w.setPending (runOf o.vt.toNat n) v.act).zeroRun v (runOf o.vt.toNat n))
      after e (if v.act = 0 then t else t.addOp { e.newOp s v.act with
        fills := x.1, aop := o.aop.toNat, awidth := 8 * n, vt := o.vt.toNat
        atoms := ps.filterMap (fun p => match p.2 with | .spad _ => none | .mem key => some (⟨p.1, key, cmp p.1, b p.1⟩ : AtomLane)) }))

/-- R207, R208, R213, R224: prefetch changes no value; fences and phases complete once what they wait for is done, and wait in place until
then; PHASE.REL marks a release point of its threads and its scope, PHASE.ACQ an acquire point.
Model's choices it rests on: log entry 90. -/
def Obligations.FencesAndPhases : Prop :=
  (∀ (o : OpMPf) v, Runs (.pf o)
    (fun s e => venv s e = .ok v ∧ InRange e (runRegs [] o.ix o.vi) ∧ SReady s e o.sb.toNat ∧ Readable v.w (idxReads v o.ix o.vi))
    (fun s e => after e s))
  ∧ Runs .fenceLd (fun s e => s.loadsOut e.who = false) (fun s e => after e s)
  ∧ Runs .fenceSt (fun s e => s.storesOut e.who = false) (fun s e => after e s)
  ∧ Runs .fenceAll (fun s e => s.loadsOut e.who = false ∧ s.storesOut e.who = false) (fun s e => after e s)
  ∧ RunsTo .fenceLd (fun s e => s.loadsOut e.who = true) (fun s _ => s)
  ∧ RunsTo .fenceSt (fun s e => s.storesOut e.who = true) (fun s _ => s)
  ∧ RunsTo .fenceAll (fun s e => s.loadsOut e.who = true ∨ s.storesOut e.who = true) (fun s _ => s)
  ∧ (∀ (o : OpXSc), Runs (.phaseRel o) (fun s e => s.storesOut e.who = false)
    (fun s e => after e { s with rels := s.rels ++ [⟨e.who, e.m0, s.nextOp, o.sc.toNat⟩] }))
  ∧ (∀ (o : OpXSc), RunsTo (.phaseRel o) (fun s e => s.storesOut e.who = true) (fun s _ => s))
  ∧ (∀ (o : OpXSc), Runs (.phaseAcq o) (fun s e => s.loadsOut e.who = false) (fun s e => after e (s.markAcquire e.who e.m0 o.sc.toNat)))
  ∧ (∀ (o : OpXSc), RunsTo (.phaseAcq o) (fun s e => s.loadsOut e.who = true) (fun s _ => s))
  ∧ (∀ (s : State) who m sc, { s.markAcquire who m sc with known := s.known } = s)

/-- R70, R131, R398: CSRR reads and CSRW writes the control registers.
Model's choices it rests on: log entries 3, 21, 87. -/
def Obligations.ControlRegistersReadAndWritten : Prop := Claims.ControlRegistersRead ∧ Claims.ControlRegistersWritten

/-- R168 to R178, R220: scratchpad loads and stores.
Model's choices it rests on: log entry 90. -/
def Obligations.ScratchpadAccesses : Prop := Claims.ScratchpadLoads ∧ Claims.ScratchpadStores

/-- R198 to R205, R210: vector and scalar loads and stores at issue.
Model's choices it rests on: log entries 6, 19, 26, 90, 91. -/
def Obligations.MemoryAccessesIssue : Prop := Claims.LoadsEmptyTheirRun ∧ Claims.StoresLeaveForTheirPorts ∧ Claims.ScalarLoadsAndStores

namespace Sys2Proof.Claims
open Sys2Proof.Machine

/-- The threads of the entry that take a BR (R107). -/
def brTaken (e : Env) (w : Warp) (o : OpBM) : W64 := e.m0 &&& (if o.neg then ~~~(mval e w o.m.toNat) else mval e w o.m.toNat)

/-- What TRAPINFO says of a leave that the loop rules refuse (R98). -/
def leaveInfo : Leave → Option W64
  | .bad x => some x
  | _ => none

/-- The threads of the entry that take a BRS: all of them or none (R107). -/
def brsTaken (s : State) (e : Env) (o : OpBS) : W64 := if (decide (s.sreg e.who o.s.toNat ≠ 0)) != o.neg then e.m0 else 0

/-- The barrier of a register: its 32-byte block in the crew's scratchpad, without poison (R226, R228). -/
def BarAt (s : State) (e : Env) (r : BitVec 6) (off : Nat) : Prop :=
  e.k.z ≠ 0 ∧ SReady s e r.toNat ∧ off = spAddr e.k.z (s.sreg e.who r.toNat).toNat 0 32 ∧ e.k.spBad off 32 = false

/-- The barrier instructions, each with the scalar register that names its barrier (R226). -/
def NamesBarrier (i : Instr) (r : BitVec 6) : Prop :=
  (∃ o : OpX2, (i = .barinit o ∨ i = .barinitCoh o ∨ i = .expect o ∨ i = .waitb o) ∧ r = o.a)
    ∨ (∃ o : OpX2, i = .arrive o ∧ r = o.b) ∨ (∃ o : OpX3, (i = .arriveN o ∨ i = .barq o) ∧ r = o.b)

/-- The barrier's phase completed with a fault of a gang partner, on behalf of the issuing warp (R236). -/
def PartnerLost (e : Env) (off : Nat) : Prop :=
  bFault (e.k.bar off) = true ∧ bIvalid (e.k.bar off) = true ∧ bIwarp (e.k.bar off) = e.wi

/-- The old members of a warp in a cohort (R103). -/
def oldMembers (w : Warp) (key : W32) : W64 := match w.cohorts.find? (fun m => decide (m.key = key)) with | some m => m.mask | none => 0

end Sys2Proof.Claims

/-- R97, R98, R106 to R110: branches, calls, loops, indexed jumps and returns; a branch that the loop rules
refuse traps LOOP_DIVERGE, and an odd target reason 10 of ILLEGAL_INSTR.
Model's choices it rests on: log entry 83. -/
def Obligations.ControlFlowMovesThreads : Prop :=
  (∀ (o : OpBM) w vd, RunsTo (.br o)
    (fun s e => e.w? s = some w ∧ MReady w o.m.toNat ∧ loopCheck w.loops (brTaken e w o) (e.pc + BitVec.ofInt 32 (2 * o.off.toInt)) o.brk = vd
      ∧ (∃ x, e.who = .warp e.ci x) ∧ ∀ i, vd ≠ .bad i)
    (fun s e => s.branch e vd (brTaken e w o) (e.pc + BitVec.ofInt 32 (2 * o.off.toInt))))
  ∧ (∀ (o : OpBM) w i, Traps (.br o)
    (fun s e => e.w? s = some w ∧ MReady w o.m.toNat ∧ (∃ x, e.who = .warp e.ci x)
      ∧ loopCheck w.loops (brTaken e w o) (e.pc + BitVec.ofInt 32 (2 * o.off.toInt)) o.brk = .bad i)
    (fun _ _ => trapWord 5 i))
  ∧ (∀ (o : OpBS) vd, RunsTo (.brs o)
    (fun s e => SReady s e o.s.toNat ∧ loopCheck (s.loopsOf e) (brsTaken s e o) (e.pc + BitVec.ofInt 32 (2 * o.off.toInt)) o.brk = vd ∧ ∀ i, vd ≠ .bad i)
    (fun s e => s.branch e vd (brsTaken s e o) (e.pc + BitVec.ofInt 32 (2 * o.off.toInt))))
  ∧ (∀ (o : OpBS) i, Traps (.brs o)
    (fun s e => SReady s e o.s.toNat
      ∧ loopCheck (s.loopsOf e) (brsTaken s e o) (e.pc + BitVec.ofInt 32 (2 * o.off.toInt)) o.brk = .bad i)
    (fun _ _ => trapWord 5 i))
  ∧ (∀ (o : OpBC), RunsTo (.call o) (fun s e => SFree s e o.s.toNat)
    (fun s e => (s.setS e.who o.s.toNat (e.npc.setWidth 64)).jump e (e.pc + BitVec.ofInt 32 (2 * o.off.toInt))))
  ∧ (∀ (o : OpBC), RunsTo (.loop o)
    (fun s e => SReady s e o.s.toNat ∧ (s.sreg e.who o.s.toNat).setWidth 32 ≠ (0 : W32) ∧ (s.loopsOf e).length ≠ 4)
    (fun s e => s.pushLoop e ⟨e.npc, e.pc + BitVec.ofInt 32 (2 * o.off.toInt), (s.sreg e.who o.s.toNat).setWidth 32, e.m0, 0⟩))
  ∧ (∀ (o : OpBC) vd, RunsTo (.loop o)
    (fun s e => SReady s e o.s.toNat ∧ (s.sreg e.who o.s.toNat).setWidth 32 = (0 : W32)
      ∧ loopCheck (s.loopsOf e) e.m0 (e.pc + BitVec.ofInt 32 (2 * o.off.toInt)) false = vd ∧ ∀ i, vd ≠ .bad i)
    (fun s e => s.branch e vd e.m0 (e.pc + BitVec.ofInt 32 (2 * o.off.toInt))))
  ∧ (∀ (o : OpBC), Traps (.loop o)
    (fun s e => SReady s e o.s.toNat ∧ (s.sreg e.who o.s.toNat).setWidth 32 ≠ (0 : W32) ∧ (s.loopsOf e).length = 4)
    (fun _ _ => trapWord 5 (BitVec.ofNat 64 (2 ^ 56 + 3 * 2 ^ 32))))
  ∧ (∀ (o : OpBC) i, Traps (.loop o)
    (fun s e => SReady s e o.s.toNat ∧ (s.sreg e.who o.s.toNat).setWidth 32 = (0 : W32)
      ∧ loopCheck (s.loopsOf e) e.m0 (e.pc + BitVec.ofInt 32 (2 * o.off.toInt)) false = .bad i)
    (fun _ _ => trapWord 5 i))
  ∧ (∀ (o : OpX1) w i, Traps (.jmpx o)
    (fun s e => e.w? s = some w ∧ InRange e [o.a.toNat] ∧ Readable w [⟨o.a.toNat, e.m0, false⟩]
      ∧ (lanesOf e.m0).find? (fun j => (w.lane o.a.toNat j).data.getLsbD 0) = some i)
    (fun _ _ => trapWord 1 (BitVec.ofNat 64 (10 * 2 ^ 56 + (w.lane o.a.toNat i).data.toNat))))
  ∧ (∀ (o : OpX1) w x, Traps (.jmpx o)
    (fun s e => e.w? s = some w ∧ InRange e [o.a.toNat] ∧ Readable w [⟨o.a.toNat, e.m0, false⟩]
      ∧ (∀ i ∈ lanesOf e.m0, (w.lane o.a.toNat i).data.getLsbD 0 = false)
      ∧ (lanesOf e.m0).findSome? (fun i => leaveInfo (loopCheck w.loops (jmpGroup w o.a.toNat e.m0 i) (w.lane o.a.toNat i).data false)) = some x)
    (fun _ _ => trapWord 5 x))
  ∧ (∀ (o : OpX1) w, RunsTo (.jmpx o)
    (fun s e => e.w? s = some w ∧ InRange e [o.a.toNat] ∧ Readable w [⟨o.a.toNat, e.m0, false⟩]
      ∧ (∀ i ∈ lanesOf e.m0, (w.lane o.a.toNat i).data.getLsbD 0 = false)
      ∧ ∀ i ∈ lanesOf e.m0, ∀ x, loopCheck w.loops (jmpGroup w o.a.toNat e.m0 i) (w.lane o.a.toNat i).data false ≠ .bad x)
    (fun s e => s.modWarp e.ci e.wi (fun w0 =>
      (((lanesOf e.m0).filter (fun i => decide (lowLane (jmpGroup w o.a.toNat e.m0 i) = some i))).foldl (fun x i =>
        x.takeBranch e.k.image (loopCheck w.loops (jmpGroup w o.a.toNat e.m0 i) (w.lane o.a.toNat i).data false) (jmpGroup w o.a.toNat e.m0 i)
          (w.lane o.a.toNat i).data) w0).settle e.k.image)))
  ∧ (∀ (o : OpX1), RunsTo (.ret o) (fun s e => SReady s e o.a.toNat ∧ (s.sreg e.who o.a.toNat).getLsbD 0 = false)
    (fun s e => s.jump e ((s.sreg e.who o.a.toNat).setWidth 32)))
  ∧ (∀ (o : OpX1), Traps (.ret o) (fun s e => SReady s e o.a.toNat ∧ (s.sreg e.who o.a.toNat).getLsbD 0 = true)
    (fun s e => trapWord 1 (BitVec.ofNat 64 (10 * 2 ^ 56 + (s.sreg e.who o.a.toNat).toNat % 2 ^ 32))))

/-- R99, R106, R111, R402: EXIT ends the active threads, TRAP takes the SOFTWARE trap with its code, and TRET returns the handler's threads. -/
def Obligations.ThreadsEndTrapAndReturn : Prop :=
  RunsTo .exit (fun _ _ => True) (fun s e => s.endThreads e.ci e.wi e.m0 false)
  ∧ (∀ (o : OpX3), Traps (.trap o) (fun _ _ => True) (fun _ _ => trapWord 13 (BitVec.ofNat 64 (o.a.toNat + o.b.toNat * 2 ^ 6 + o.c.toNat * 2 ^ 12))))
  ∧ (∀ w, RunsTo .tret (fun s e => e.w? s = some w ∧ w.hact = true)
    (fun s e => s.modWarp e.ci e.wi (fun x => x.trapReturn e.k.image e.m0 (w.trappc.setWidth 32))))
  ∧ (∀ w, RunsTo .tretSkip (fun s e => e.w? s = some w ∧ w.hact = true)
    (fun s e => s.modWarp e.ci e.wi (fun x => x.trapReturn e.k.image e.m0 (w.trappc.setWidth 32 + w.tlen.setWidth 32))))
  ∧ (∀ (o : OpXB) w, RunsTo (.tretJmp o)
    (fun s e => e.w? s = some w ∧ w.hact = true ∧ SReady s e o.b.toNat ∧ (s.sreg e.who o.b.toNat).getLsbD 0 = false)
    (fun s e => s.modWarp e.ci e.wi (fun x => x.trapReturn e.k.image e.m0 ((s.sreg e.who o.b.toNat).setWidth 32))))
  ∧ (∀ (o : OpXB) w, Traps (.tretJmp o)
    (fun s e => e.w? s = some w ∧ w.hact = true ∧ SReady s e o.b.toNat ∧ (s.sreg e.who o.b.toNat).getLsbD 0 = true)
    (fun s e => trapWord 1 (BitVec.ofNat 64 (10 * 2 ^ 56 + (s.sreg e.who o.b.toNat).toNat % 2 ^ 32))))
  ∧ (∀ i w, i = .tret ∨ i = .tretSkip ∨ (∃ o, i = .tretJmp o) → Traps i (fun s e => e.w? s = some w ∧ w.hact = false)
    (fun _ e => trapWord 1 (BitVec.ofNat 64 (6 * 2 ^ 56 + e.h.word % 2 ^ 32))))

/-- R396 to R398, R400: a trap of a warp with a handler and none active is delivered: the cause, the group's first word's address, the
information, the length, the threads, the shadowed loops; registers stay, and the threads stand READY at TVEC. -/
def Sys2Proof.Claims.TrapsAreDelivered : Prop :=
  ∀ (s : State) ci wi k w h pc len t, s.crews[ci]? = some k → k.warps[wi]? = some w → w.hact = false → k.tvec ≠ 0 → h ≠ 0 →
    ∃ w', (s.takeTrap ci wi h pc len t).warp? ci wi = some w' ∧ w'.trapcause = BitVec.ofNat 64 t.cause ∧ w'.trappc = pc.setWidth 64
      ∧ w'.trapinfo = t.info ∧ w'.tlen = BitVec.ofNat 4 len ∧ w'.hact = true ∧ w'.hmask = h ∧ w'.shadow = w.loops ∧ w'.loops = []
      ∧ w'.regs = w.regs ∧ w'.sregs = w.sregs ∧ w'.mregs = w.mregs ∧ w'.rmode = w.rmode ∧ w'.ftz = w.ftz ∧ w'.nkill = w.nkill
      ∧ (∃ x ∈ w'.frontier, x.pc = k.tvec ∧ x.st = .ready ∧ h &&& ~~~x.mask = 0)
      ∧ (s.takeTrap ci wi h pc len t).mem = s.mem

/-- R399, R401: a trap without a handler, or in one, kills its threads: the warp's trap registers record it, NKILL counts them, and the
crew keeps the cause of its first kill. -/
def Sys2Proof.Claims.TrapsWithoutHandlerKill : Prop :=
  ∀ (s : State) ci wi k w h pc len t, s.crews[ci]? = some k → k.warps[wi]? = some w → (w.hact = true ∨ k.tvec = 0) →
    s.takeTrap ci wi h pc len t
      = ((s.modCrew ci (fun k => if k.firstKill = 0 then { k with firstKill := BitVec.ofNat 8 t.cause, killNo := s.nextKill } else k)).modWarp ci wi
          (fun w => { w.recordTrap pc t with nkill := BitVec.ofNat 8 (min (w.nkill.toNat + popMask h) 255) })).endThreads ci wi h true

/-- R269: a trap of a sequencer context is recorded there, and the context issues nothing more. -/
def Sys2Proof.Claims.ContextTrapsAreRecorded : Prop :=
  ∀ (s : State) x c (e : Env) t, e.who = .ctx x → s.ctxs[x]? = some c →
    ∃ c', (s.raise e t).ctxs[x]? = some c' ∧ c'.st = .trapped ∧ c'.cause = BitVec.ofNat 64 t.cause ∧ c'.tpc = e.pc.setWidth 64 ∧ c'.info = t.info
      ∧ c'.sregs = c.sregs ∧ (∀ h, (s.raise e t).env? (.ctx x) h = none) ∧ (s.raise e t).crews = s.crews ∧ (s.raise e t).mem = s.mem

/-- R102 to R104, R112, R232: JOIN makes its threads members of the cohort of its key, in a new slot where none has it, and answers the count; LEAVE takes them out; a key of 0,
a fifth cohort, a full table and a cohort that is not there answer a negative code.
Model's choices it rests on: log entry 9. -/
def Obligations.CohortsJoinAndLeave : Prop :=
  (∀ (o : OpX2) w, Runs (.join o)
    (fun s e => e.w? s = some w ∧ SReady s e o.b.toNat ∧ SFree s e o.a.toNat ∧ (s.sreg e.who o.b.toNat).setWidth 32 = (0 : W32))
    (fun s e => after e (s.setS e.who o.a.toNat (BitVec.ofInt 64 (-3)))))
  ∧ (∀ (o : OpX2) w key, key ≠ 0 → Runs (.join o)
    (fun s e => e.w? s = some w ∧ SReady s e o.b.toNat ∧ SFree s e o.a.toNat ∧ (s.sreg e.who o.b.toNat).setWidth 32 = key
      ∧ e.m0 &&& ~~~(oldMembers w key) = 0)
    (fun s e => after e (s.setS e.who o.a.toNat (BitVec.ofNat 64 (s.cohortCount e.k key)))))
  ∧ (∀ (o : OpX2) w key, key ≠ 0 → Runs (.join o)
    (fun s e => e.w? s = some w ∧ SReady s e o.b.toNat ∧ SFree s e o.a.toNat ∧ (s.sreg e.who o.b.toNat).setWidth 32 = key
      ∧ e.m0 ≠ 0 ∧ oldMembers w key = 0 ∧ 4 ≤ w.cohorts.length)
    (fun s e => after e (s.setS e.who o.a.toNat (BitVec.ofInt 64 (-2)))))
  ∧ (∀ (o : OpX2) w key n, key ≠ 0 → Runs (.join o)
    (fun s e => e.w? s = some w ∧ SReady s e o.b.toNat ∧ SFree s e o.a.toNat ∧ (s.sreg e.who o.b.toNat).setWidth 32 = key
      ∧ e.m0 &&& ~~~(oldMembers w key) ≠ 0 ∧ (oldMembers w key ≠ 0 ∨ w.cohorts.length < 4)
      ∧ (match s.cohort? e.k key with | some c => some c.slot | none => s.freeSlot e.k) = some n)
    (fun s e =>
      let t := s.joinCohort e key (e.m0 &&& ~~~(oldMembers w key)) n
      after e (t.setS e.who o.a.toNat (BitVec.ofNat 64 (t.cohortCount e.k key)))))
  ∧ (∀ (o : OpX2) w key, key ≠ 0 → Runs (.join o)
    (fun s e => e.w? s = some w ∧ SReady s e o.b.toNat ∧ SFree s e o.a.toNat ∧ (s.sreg e.who o.b.toNat).setWidth 32 = key
      ∧ e.m0 &&& ~~~(oldMembers w key) ≠ 0 ∧ (oldMembers w key ≠ 0 ∨ w.cohorts.length < 4)
      ∧ s.cohort? e.k key = none ∧ s.freeSlot e.k = none)
    (fun s e => after e (s.setS e.who o.a.toNat (BitVec.ofInt 64 (-1)))))
  ∧ (∀ (o : OpX2) w, Runs (.leave o)
    (fun s e => e.w? s = some w ∧ SReady s e o.b.toNat ∧ SFree s e o.a.toNat ∧ (s.sreg e.who o.b.toNat).setWidth 32 = (0 : W32))
    (fun s e => after e (s.setS e.who o.a.toNat (BitVec.ofInt 64 (-3)))))
  ∧ (∀ (o : OpX2) w key, key ≠ 0 → Runs (.leave o)
    (fun s e => e.w? s = some w ∧ SReady s e o.b.toNat ∧ SFree s e o.a.toNat ∧ (s.sreg e.who o.b.toNat).setWidth 32 = key
      ∧ w.cohorts.find? (fun m => decide (m.key = key)) = none)
    (fun s e => after e (s.setS e.who o.a.toNat (BitVec.ofInt 64 (-1)))))
  ∧ (∀ (o : OpX2) w key m, key ≠ 0 → Runs (.leave o)
    (fun s e => e.w? s = some w ∧ SReady s e o.b.toNat ∧ SFree s e o.a.toNat ∧ (s.sreg e.who o.b.toNat).setWidth 32 = key
      ∧ w.cohorts.find? (fun m => decide (m.key = key)) = some m)
    (fun s e =>
      let t := (if m.mask &&& e.m0 = 0 then s else s.leaveCohort e.ci m e.m0 false).modWarp e.ci e.wi
        (fun w => { w with cohorts := membersDrop e.m0 (some key) w.cohorts })
      after e (t.setS e.who o.a.toNat (BitVec.ofNat 64 (t.cohortCount e.k key)))))

/-- R226, R232, R234 to R236, R239 to R244: the barrier instructions. ARRIVE answers the phase that its arrivals complete; WAITB parks until its phase is reached
and traps GANG_PARTNER to the warp of a lost slice; a barrier that overflows, carries poison or has no scratchpad traps.
Model's choices it rests on: log entries 8, 25, 84, 88, 90, 119, 120. -/
def Obligations.BarrierInstructions : Prop :=
  (∀ (o : OpX2) off, Runs (.barinit o) (fun s e => BarAt s e o.a off ∧ SReady s e o.b.toNat)
    (fun s e =>
      let n := (s.sreg e.who o.b.toNat).toNat % 2 ^ 24
      after e ((s.unbind e.ci off).initBar e.ci off (n * 2 ^ 152 + n * 2 ^ 128))))
  ∧ (∀ (o : OpX2) off c key, key ≠ 0 → Runs (.barinitCoh o)
    (fun s e => BarAt s e o.a off ∧ SReady s e o.b.toNat ∧ (s.sreg e.who o.b.toNat).setWidth 32 = key
      ∧ (s.unbind e.ci off).cohort? e.k key = some c ∧ c.bound = none)
    (fun s e => after e (((s.unbind e.ci off).modCohort e.k key (fun c => { c with bound := some (e.ci, off) })).initBar e.ci off
      (bSetApend (setBits (setBits 0 71 71 1) 255 224 key.toNat) c.count))))
  ∧ (∀ (o : OpX2) off, Runs (.barinitCoh o)
    (fun s e => BarAt s e o.a off ∧ SReady s e o.b.toNat ∧ ∀ c, (s.unbind e.ci off).cohort? e.k ((s.sreg e.who o.b.toNat).setWidth 32) = some c →
      (s.sreg e.who o.b.toNat).setWidth 32 = (0 : W32) ∨ c.bound ≠ none)
    (fun s e => after e ((s.unbind e.ci off).initBar e.ci off (2 ^ 66))))
  ∧ (∀ (o : OpX2) off, Runs (.arrive o)
    (fun s e => BarAt s e o.b off ∧ SFree s e o.a.toNat ∧ s.storesOut e.who = false ∧ s.olderPending e.who s.nextOp e.m0 true = false)
    (fun s e => after e ((arriveUpd (noteArrive s e off none) e off none).setS e.who o.a.toNat (BitVec.ofNat 64 ((bPhase (e.k.bar off) + 1) % 2 ^ 16)))))
  ∧ (∀ (o : OpX3) off, Runs (.arriveN o)
    (fun s e => BarAt s e o.b off ∧ SReady s e o.c.toNat ∧ SFree s e o.a.toNat ∧ s.storesOut e.who = false
      ∧ s.olderPending e.who s.nextOp e.m0 true = false)
    (fun s e =>
      let n := some ((s.sreg e.who o.c.toNat).toNat % 2 ^ 24)
      after e ((arriveUpd (noteArrive s e off n) e off n).setS e.who o.a.toNat (BitVec.ofNat 64 ((bPhase (e.k.bar off) + 1) % 2 ^ 16)))))
  ∧ (∀ (o : OpX2) off, Runs (.expect o)
    (fun s e => BarAt s e o.a off ∧ SReady s e o.b.toNat ∧ bBpend (e.k.bar off) + ((s.sreg e.who o.b.toNat).toNat : Int) ≤ 2 ^ 23 - 1)
    (fun s e => after e (s.putBar e.ci off (bSetBpend (e.k.bar off) (bBpend (e.k.bar off) + (s.sreg e.who o.b.toNat).toNat)) true)))
  ∧ (∀ (o : OpX2) off, RunsTo (.waitb o)
    (fun s e => s.waitOf e = none ∧ BarAt s e o.a off ∧ SReady s e o.b.toNat
      ∧ reached (bPhase (e.k.bar off)) ((s.sreg e.who o.b.toNat).toNat % 2 ^ 16) = true ∧ ¬PartnerLost e off)
    (fun s e => (s.joined e.who e.m0 (s.arrivedBefore e.ci off ((s.sreg e.who o.b.toNat).toNat % 2 ^ 16))).jump e e.npc))
  ∧ (∀ (o : OpX2) off (t : BitVec 16) seen, RunsTo (.waitb o)
    (fun s e => s.waitOf e = some (.bar off t (some seen)) ∧ e.k.z ≠ 0 ∧ off = spAddr e.k.z (off % 2 ^ 64) 0 32 ∧ e.k.spBad off 32 = false
      ∧ ¬PartnerLost e off)
    (fun s e => (s.joined e.who e.m0 seen).jump e e.npc))
  ∧ (∀ (o : OpX2) off, RunsTo (.waitb o)
    (fun s e => s.waitOf e = none ∧ BarAt s e o.a off ∧ SReady s e o.b.toNat
      ∧ reached (bPhase (e.k.bar off)) ((s.sreg e.who o.b.toNat).toNat % 2 ^ 16) = false)
    (fun s e => s.park e (.bar off ((s.sreg e.who o.b.toNat).setWidth 16) none)))
  ∧ (∀ (o : OpX2) off, Traps (.waitb o)
    (fun s e => s.waitOf e = none ∧ BarAt s e o.a off ∧ SReady s e o.b.toNat
      ∧ reached (bPhase (e.k.bar off)) ((s.sreg e.who o.b.toNat).toNat % 2 ^ 16) = true ∧ PartnerLost e off)
    (fun _ e => trapWord 9 (BitVec.ofNat 64 (bFpart (e.k.bar off) * 2 ^ 56 + off))))
  ∧ (∀ (o : OpX2) off (t : BitVec 16) seen, Traps (.waitb o)
    (fun s e => s.waitOf e = some (.bar off t (some seen)) ∧ e.k.z ≠ 0 ∧ off = spAddr e.k.z (off % 2 ^ 64) 0 32 ∧ e.k.spBad off 32 = false ∧ PartnerLost e off)
    (fun _ e => trapWord 9 (BitVec.ofNat 64 (bFpart (e.k.bar off) * 2 ^ 56 + off))))
  ∧ (∀ (o : OpX2) off, Traps (.expect o)
    (fun s e => BarAt s e o.a off ∧ SReady s e o.b.toNat ∧ 2 ^ 23 ≤ bBpend (e.k.bar off) + ((s.sreg e.who o.b.toNat).toNat : Int))
    (fun _ e => trapWord 8 (BitVec.ofNat 64 (off * 2 ^ 32 + bits (e.k.bar off) 127 104))))
  ∧ (∀ (o : OpX3) off, Runs (.barq o) (fun s e => BarAt s e o.b off ∧ SReady s e o.c.toNat ∧ SFree s e o.a.toNat)
    (fun s e => after e ((s.putBar e.ci off (bClear (e.k.bar off) ((s.sreg e.who o.c.toNat).toNat % 128)) false).setS e.who o.a.toNat
      (bQuery (e.k.bar off)))))
  ∧ (∀ (o : OpX2) g, RunsTo (.superstep o)
    (fun s e => SReady s e o.b.toNat ∧ (SFree s e o.a.toNat ∨ s.stepHolds e o.a.toNat = true) ∧ e.k.stepGroup = some g
      ∧ (s.sreg e.who o.b.toNat).toNat = g
      ∧ s.steps.any (fun t => decide (t.g = g)) = true ∧ s.olderPending e.who s.nextOp e.m0 true = false)
    (fun s e => (((s.stepNote e.ci (s.past e.who s.nextOp e.m0)).pendS e.who o.a.toNat).park e (.step o.a.toNat none)).stepArrive e.ci))
  ∧ (∀ (o : OpX2), Runs (.superstep o)
    (fun s e => SReady s e o.b.toNat ∧ SFree s e o.a.toNat
      ∧ ∀ g, e.k.stepGroup = some g → (s.sreg e.who o.b.toNat).toNat = g → s.steps.any (fun t => decide (t.g = g)) = false)
    (fun s e => after e (s.setS e.who o.a.toNat (BitVec.ofInt 64 (-1)))))
  ∧ (∀ i r, NamesBarrier i r → Traps i (fun s e => e.k.z = 0 ∧ ((∃ o, i = .waitb o) → s.waitOf e = none))
    (fun _ e => trapWord 1 (BitVec.ofNat 64 (6 * 2 ^ 56 + e.h.word % 2 ^ 32))))
  ∧ (∀ i r, NamesBarrier i r → Traps i
    (fun s e => e.k.z ≠ 0 ∧ SReady s e r.toNat ∧ e.k.spBad (spAddr e.k.z (s.sreg e.who r.toNat).toNat 0 32) 32 = true
      ∧ ((∃ o, i = .waitb o) → s.waitOf e = none))
    (fun s e => ⟨11, poisonInfo 3 0 0, none, BitVec.ofNat 64 (spAddr e.k.z (s.sreg e.who r.toNat).toNat 0 32)⟩))

/-- R229 to R232, R238, R239: an update that brings both counts of a barrier to 0 completes its phase: PHASE advances modulo 2^16 and APEND reloads,
from AEXP or, for a bound barrier, from the cohort's count; no update by itself, an arrival, an expectation, a landing, a settlement, a
clearing of status, changes PHASE. -/
def Obligations.BarrierPhasesComplete : Prop :=
  ∀ cnt b, b < 2 ^ 256 →
    (bApend b = 0 → bBpend b = 0 → bPhase (bEval cnt b) = (bPhase b + 1) % 2 ^ 16
      ∧ bApend (bEval cnt b) = (if bBound b then min cnt (2 ^ 24 - 1) else bAexp b) ∧ bBpend (bEval cnt b) = 0 ∧ bAexp (bEval cnt b) = bAexp b)
    ∧ (bApend b ≠ 0 ∨ bBpend b ≠ 0 → bEval cnt b = b)
    ∧ (∀ n, n ≤ bApend b → bApend (bArrive b n) = bApend b - n ∧ bPhase (bArrive b n) = bPhase b ∧ bBpend (bArrive b n) = bBpend b)
    ∧ (∀ n, bApend b < n → bApend (bArrive b n) = 0 ∧ bits (bArrive b n) 65 65 = 1 ∧ bPhase (bArrive b n) = bPhase b ∧ bBpend (bArrive b n) = bBpend b)
    ∧ (∀ x, bPhase (bSetBpend b x) = bPhase b) ∧ (∀ sel, bPhase (bClear b sel) = bPhase b) ∧ (∀ u, bPhase (bApply b u) = bPhase b)
    ∧ (∀ u, b < 2 ^ 256 → bApply b u < 2 ^ 256)

/-- R269, R396 to R401: a trap is delivered to the handler, or kills, or ends a context. -/
def Obligations.TrapsAreTaken : Prop := Claims.TrapsAreDelivered ∧ Claims.TrapsWithoutHandlerKill ∧ Claims.ContextTrapsAreRecorded

namespace Sys2Proof.Claims
open Sys2Proof.Machine

/-- The context that issues (R266). -/
def CtxIs (s : State) (e : Env) (x : Nat) (c : SCtx) : Prop := e.who = .ctx x ∧ s.ctxs[x]? = some c

/-- A matrix operation at issue: the context's CSRs, the shape register that MXSHAPE names, FTZ.MAT (R252, R253, R276). -/
def mxIssued (e : Env) (c : SCtx) (fn acc : Nat) : MxOp :=
  { fn := fn, acc := acc, tda := 0, tdb := 0, bar := c.mxbar, shape := c.mxshape
    sh := e.k.sh.getD (c.mxshape.toNat % 16) 0, x := 0, c := 0, mat := c.ftz.getLsbD 2, rm := 0, dst := 0, add := false
    rows := BitVec.allOnes 64, lanes := 0, lines := [], members := [], was := [], shares := none, btile := none }

/-- The lanes that a drain to registers writes, from the rows that are valid (R264). -/
def drainLanes (c : SCtx) (ctl rows : W64) : W64 := c.mask &&& maskOf (fun i => decide (i < drRows ctl) && rows.getLsbD (drRow0 ctl + i))

/-- The scratchpad lines that a drain arms at issue: none without a scratchpad (R170, R264). -/
def drainLines (e : Env) (dst : Nat) (base ctl rows : W64) : List Nat := if dst = 0 ∧ e.k.z ≠ 0 then drLines e.k base.toNat ctl rows else []

/-- An operation at work: the step is one of its thread, with its issuers' past behind it (R210, R217). -/
def inThread (s : State) (o : Op) : State := { s with actor := ⟨.op o.id, s.past o.who o.id o.lanes, []⟩ }

/-- A step of firmware, the page engine, a scheduler or a command, with some writes behind it. -/
def inWork (s : State) (past : List Nat) : State := { s with actor := ⟨.work, past, []⟩ }

/-- Such a step, or that of an operation's thread, ends in `t`. -/
def leaves (s t : State) : Host.Outcome State Fault Refusal := .next { t with actor := s.actor }

/-- The drains: accumulator, destination (0 scratchpad, 1 memory, 2 registers), add-on-store, address and control registers (R264). -/
inductive DrainRow : Instr → Nat → Nat → Bool → BitVec 6 → BitVec 6 → Prop where
  | sp (o : OpXDr) : DrainRow (.adrainSp o) o.acc.toNat 0 o.add o.sa o.sc
  | g (o : OpXDr) : DrainRow (.adrainG o) o.acc.toNat 1 o.add o.sa o.sc
  | v (o : OpXDrV) : DrainRow (.adrainV o) o.acc.toNat 2 false 0 o.sc

/-- The reason of ILLEGAL_INSTR that a drain's control register gives, if any: RM, the format, and the values of its other fields, in this
order (R264). -/
def drainReason (ctl : W64) (dst : Nat) (add : Bool) : Option Nat :=
  if drRm ctl = 7 then some 4
  else if 7 < drFmt ctl then some 5
  else if 64 < drRow0 ctl + drRows ctl ∨ 64 < drCol0 ctl + drCols ctl then some 6
  else if dst = 2 then (if drPitch ctl = 0 then none else some 6)
  else if drVreg ctl ≠ 0 ∨ drCols ctl * fmtWidth (drFmt ctl) % 8 ≠ 0 ∨ drPitch ctl < drRowBytes ctl then some 6
  else if add = true ∧ 1 < drFmt ctl then some 6
  else none

/-- The completions of matrix operations: event, the kinds of operation it completes, and their work (R258, R259, R263, R264). -/
inductive MxRow : (Nat → Instr) → (Nat → Bool) → (State → Op → MxOp → MxEnd) → Prop where
  | mma : MxRow .mmaComplete (fun f => decide (f = 3 ∨ f = 4)) runProduct
  | aclr : MxRow .aclrComplete (fun f => decide (f = 6)) (fun s o m =>
      match s.acc? o.crew m.acc with | some a => .done (s.setAcc o.crew m.acc { a with elems := [], poison := [] }) | none => .wait)
  | adrain : MxRow .adrainComplete (fun f => decide (f = 7)) runDrain
  | tld : MxRow .tldComplete (fun f => decide (f = 1)) runMove
  | tst : MxRow .tstComplete (fun f => decide (f = 2)) runMove

/-- A slice of an MMAG has ended: its member's accumulator is full, and with the last of them the whole MMAG ends (R251, R261). -/
def sliceEnds (t : State) (o : Op) (m : MxOp) (q : Slice) (x : Nat) : State :=
  let u := (t.modOp o.id (fun o => { o with eng := some (.mx m) })).refreshAcc q.crew m.acc
  if m.members.all (fun r => r.ended.isSome) then u.gangFinish o m x else u

/-- The forks: instruction, register ID, matrix and copy entry offsets (R271). -/
inductive ForkRow : Instr → BitVec 6 → Option Nat → Option Nat → Prop where
  | m (o : OpX3) : ForkRow (.forkM o) o.a (some (16 * (o.b.toNat + 64 * o.c.toNat))) none
  | c (o : OpX3) : ForkRow (.forkC o) o.a none (some (16 * (o.b.toNat + 64 * o.c.toNat)))
  | mc (o : OpX3) : ForkRow (.forkMc o) o.a (some (16 * o.b.toNat)) (some (16 * o.c.toNat))

/-- A context at its start: the scalar registers, RMODE and FTZ of the forking warp, everything else 0 or empty (R22, R267). -/
def forked (s : State) (e : Env) (w : Warp) (matrix : Bool) (rid pc : Nat) : SCtx :=
  { matrix := matrix, st := .running, wasTrapped := false, joined := false, crew := e.ci, warp := e.wi, mask := e.m0
    rid := rid, pc := BitVec.ofNat 32 pc, sregs := w.sregs, spend := 0, spoison := 0, loops := [], rmode := w.rmode, ftz := w.ftz
    wait := none, mxbar := 0, mxshape := 0, mxgang := 0, mxfault := 0, mxglost := 0, mxbad := none, forkOp := s.nextOp
    cause := 0, tpc := 0, info := 0 }

end Sys2Proof.Claims

/-- R246, R247, R257: TCFG writes a whole descriptor that is well-formed, or all zero; every other pair of words traps: reason 5 for its
format code, else reason 6. -/
def Obligations.TileDescriptorsAreChecked : Prop :=
  (∀ (o : OpXTd) (t : BitVec 128), Runs (.tcfg o)
    (fun s e => SReady s e o.b.toNat ∧ SReady s e o.c.toNat ∧ t = s.sreg e.who o.c.toNat ++ s.sreg e.who o.b.toNat
      ∧ (t = 0 ∨ (t.getLsbD 127 = true ∧ 1 ≤ tdFmt t ∧ tdFmt t ≤ 7 ∧ tdWf t e.k.image.tilekib = true)))
    (fun s e => after e (s.modCrew e.ci (fun k => { k with td := modAt k.td o.td.toNat (fun _ => t) }))))
  ∧ (∀ (o : OpXTd) (t : BitVec 128), Traps (.tcfg o)
    (fun s e => SReady s e o.b.toNat ∧ SReady s e o.c.toNat ∧ t = s.sreg e.who o.c.toNat ++ s.sreg e.who o.b.toNat
      ∧ t.getLsbD 127 = true ∧ (tdFmt t = 0 ∨ 7 < tdFmt t))
    (fun _ e => trapWord 1 (BitVec.ofNat 64 (5 * 2 ^ 56 + e.h.word % 2 ^ 32))))
  ∧ (∀ (o : OpXTd) (t : BitVec 128), Traps (.tcfg o)
    (fun s e => SReady s e o.b.toNat ∧ SReady s e o.c.toNat ∧ t = s.sreg e.who o.c.toNat ++ s.sreg e.who o.b.toNat
      ∧ t.getLsbD 127 = true ∧ 1 ≤ tdFmt t ∧ tdFmt t ≤ 7 ∧ tdWf t e.k.image.tilekib = false)
    (fun _ e => trapWord 1 (BitVec.ofNat 64 (6 * 2 ^ 56 + e.h.word % 2 ^ 32))))
  ∧ (∀ (t : BitVec 128) kib, tdWf t kib = true → tdBlk t ≠ 3 ∧ tdRowBytes t ≤ tdPitch t ∧ tdRowsEnd t ≤ 1024 * kib
      ∧ tdCols t * fmtWidth (tdFmt t) % 8 = 0 ∧ (tdBlk t ≠ 0 → tdScalesEnd t ≤ 1024 * kib ∧ 3 ≤ tdFmt t))
  ∧ (∀ (o : OpXTd) (t : BitVec 128), Traps (.tcfg o)
    (fun s e => SReady s e o.b.toNat ∧ SReady s e o.c.toNat ∧ t = s.sreg e.who o.c.toNat ++ s.sreg e.who o.b.toNat
      ∧ t.getLsbD 127 = false ∧ t ≠ 0)
    (fun _ e => trapWord 1 (BitVec.ofNat 64 (6 * 2 ^ 56 + e.h.word % 2 ^ 32))))

/-- R251 to R253, R258 to R264: a matrix operation is captured at issue with its context's registers, and the accumulators that it will
write are empty until it ends, but for the accumulator of a member of an MMAG that is saved, whose slice has failed; one whose checks fail
traps, and a drain whose row extents cannot be read faults at issue.
Model's choices it rests on: log entries 28, 29, 90, 91, 106, 110. -/
def Obligations.MatrixOperationsIssue : Prop :=
  (∀ (o : OpXTd) x c, ∀ q ∈ [(Instr.tld o, 1), (Instr.tst o, 2)], Runs q.1
    (fun s e => CtxIs s e x c ∧ SReady s e o.b.toNat ∧ SReady s e o.c.toNat)
    (fun s e => after e (s.addOp { e.newOp s 1 with eng := some (.mx { mxIssued e c q.2 8 with
      tda := e.k.td.getD o.td.toNat 0, x := s.sreg e.who o.b.toNat, c := s.sreg e.who o.c.toNat }) })))
  ∧ (∀ (o : OpXMma) x c, ∀ q ∈ [(Instr.mma o, 3), (Instr.mmas o, 4)], Runs q.1
    (fun s e => CtxIs s e x c ∧ o.acc.toNat < e.k.image.acc)
    (fun s e => after e ((s.addOp { e.newOp s 1 with eng := some (.mx { mxIssued e c q.2 o.acc.toNat with
      tda := e.k.td.getD o.tda.toNat 0, tdb := e.k.td.getD o.tdb.toNat 0 }) }).refreshAcc e.ci o.acc.toNat)))
  ∧ (∀ (o : OpXAcc) x c, Runs (.aclr o) (fun s e => CtxIs s e x c ∧ o.acc.toNat < e.k.image.acc)
    (fun s e => after e ((s.addOp { e.newOp s 1 with eng := some (.mx (mxIssued e c 6 o.acc.toNat)) }).refreshAcc e.ci o.acc.toNat)))
  ∧ (∀ (o : OpXMma) x c ms, Runs (.mmag o)
    (fun s e => CtxIs s e x c ∧ ms = gangMembers s e.k (c.mxgang.setWidth 32) ∧ 1 ≤ ms.length ∧ ms.length ≤ 8 ∧ e.ci ∈ ms
      ∧ c.mxbar.getLsbD 63 = true ∧ o.acc.toNat < e.k.image.acc)
    (fun s e => after e (s.issueMx e { mxIssued e c 5 o.acc.toNat with
      tda := e.k.td.getD o.tda.toNat 0, tdb := e.k.td.getD o.tdb.toNat 0
      members := ms.map (fun q => match s.crews[q]? with
        | some k => (⟨q, k.td.getD o.tda.toNat 0, if k.st = .running then none else some false⟩ : Slice)
        | none => ⟨q, 0, some false⟩) })))
  ∧ (∀ i acc dst add sa sc, DrainRow i acc dst add sa sc → ∀ x c w rows, Runs i
    (fun s e =>
      let ctl := s.sreg e.who sc.toNat
      CtxIs s e x c ∧ e.w? s = some w ∧ SReady s e sc.toNat ∧ SReady s e sa.toNat ∧ drainReason ctl dst add = none ∧ acc < e.k.image.acc
        ∧ (dst = 2 → InRange e (drRegs ctl)) ∧ s.accIsFull e.ci acc = true ∧ drExtents s e c (mxIssued e c 7 acc) ctl = .mask rows
        ∧ (dst = 2 → FreeLanes w (drRegs ctl) (drainLanes c ctl rows))
        ∧ e.k.canArm (drainLines e dst (s.sreg e.who sa.toNat) ctl rows) = true)
    (fun s e =>
      let ctl := s.sreg e.who sc.toNat
      let base := s.sreg e.who sa.toNat
      let lanes := drainLanes c ctl rows
      let lines := drainLines e dst base ctl rows
      let regs := if dst = 2 then drRegs ctl else []
      let t := (if dst = 2 then s.modWarp e.ci e.wi (fun w => w.setPending regs lanes) else s).modCrew e.ci (fun k => k.armLines lines)
      after e ((t.noteExtents s e (mxIssued e c 7 acc) ctl).issueMx e { mxIssued e c 7 acc with
        x := base, c := ctl, dst := dst, add := add, rows := rows, lanes := lanes, lines := lines
        was := regs.map (fun r => (r, maskOf (fun i => (w.lane r i).f), maskOf (fun i => (w.lane r i).poison)))
        rm := if drRm ctl = 6 then c.rmode.toNat else drRm ctl })))
  ∧ (∀ i acc dst add sa sc, DrainRow i acc dst add sa sc → ∀ x c f, Runs i
    (fun s e =>
      let ctl := s.sreg e.who sc.toNat
      CtxIs s e x c ∧ SReady s e sc.toNat ∧ SReady s e sa.toNat ∧ drainReason ctl dst add = none ∧ acc < e.k.image.acc
        ∧ (dst = 2 → InRange e (drRegs ctl)) ∧ s.accIsFull e.ci acc = true ∧ drExtents s e c (mxIssued e c 7 acc) ctl = .fault f)
    (fun s e =>
      let t := (s.noteExtents s e (mxIssued e c 7 acc) (s.sreg e.who sc.toNat)).mxRecord x s.nextOp 7 f
      after e ((t.asOp (e.newOp t 1) (fun u => u.mxArrive e.ci c.mxbar (.arrive 1 true))).stepOpDone e.ci (some 1))))
  ∧ (∀ (o : OpXMma) x c ms, Traps (.mmag o)
    (fun s e => CtxIs s e x c ∧ ms = gangMembers s e.k (c.mxgang.setWidth 32)
      ∧ (ms.length = 0 ∨ 8 < ms.length ∨ e.ci ∉ ms ∨ c.mxbar.getLsbD 63 = false))
    (fun _ e => trapWord 1 (BitVec.ofNat 64 (6 * 2 ^ 56 + e.h.word % 2 ^ 32))))
  ∧ (∀ (o : OpXMma) x c ms, Traps (.mmag o)
    (fun s e => CtxIs s e x c ∧ ms = gangMembers s e.k (c.mxgang.setWidth 32) ∧ 1 ≤ ms.length ∧ ms.length ≤ 8 ∧ e.ci ∈ ms
      ∧ c.mxbar.getLsbD 63 = true ∧ e.k.image.acc ≤ o.acc.toNat)
    (fun _ _ => trapWord 2 (BitVec.ofNat 64 (128 + o.acc.toNat))))
  ∧ (∀ i acc dst add sa sc, DrainRow i acc dst add sa sc → ∀ n, Traps i
    (fun s e => SReady s e sc.toNat ∧ SReady s e sa.toNat ∧ drainReason (s.sreg e.who sc.toNat) dst add = some n)
    (fun _ e => trapWord 1 (BitVec.ofNat 64 (n * 2 ^ 56 + e.h.word % 2 ^ 32))))
  ∧ (∀ i acc dst add sa sc, DrainRow i acc dst add sa sc → Traps i
    (fun s e => SReady s e sc.toNat ∧ SReady s e sa.toNat ∧ drainReason (s.sreg e.who sc.toNat) dst add = none ∧ e.k.image.acc ≤ acc)
    (fun _ _ => trapWord 2 (BitVec.ofNat 64 (128 + acc))))
  ∧ (∀ (o : OpXDrV) r, Traps (.adrainV o)
    (fun s e =>
      let ctl := s.sreg e.who o.sc.toNat
      SReady s e o.sc.toNat ∧ drainReason ctl 2 false = none ∧ o.acc.toNat < e.k.image.acc
        ∧ (drRegs ctl).find? (fun r => decide (e.k.image.regs ≤ r)) = some r)
    (fun _ _ => trapWord 2 (BitVec.ofNat 64 r)))
  ∧ (∀ i acc dst add sa sc, DrainRow i acc dst add sa sc → Traps i
    (fun s e =>
      let ctl := s.sreg e.who sc.toNat
      SReady s e sc.toNat ∧ SReady s e sa.toNat ∧ drainReason ctl dst add = none ∧ acc < e.k.image.acc ∧ (dst = 2 → InRange e (drRegs ctl))
        ∧ ctl.getLsbD 56 = true ∧ s.accIsFull e.ci acc = false)
    (fun _ _ => trapWord 3 (poisonInfo 2 0 (128 + acc))))
  ∧ (∀ (s : State) e c m ctl, ctl.getLsbD 55 = false → drExtents s e c m ctl = .mask (BitVec.allOnes 64))
  ∧ (∀ (o : OpXMma), ∀ i ∈ [Instr.mma o, .mmas o, .aclr ⟨o.acc⟩], Traps i (fun _ e => e.k.image.acc ≤ o.acc.toNat)
    (fun _ _ => trapWord 2 (BitVec.ofNat 64 (128 + o.acc.toNat))))

/-- R245, R254: a matrix operation whose turn has come does its work and ends, or is recorded as its context's fault, or, in a faulted
context, is discarded; add-on-store and transfers go on share by share. A slice of an MMAG commits or is lost on its own, and the last to
end ends the MMAG: MXGLOST names the lost slices, and each member's barrier has its arrival, with FAULT, FPART, and at the issuing warp's
own crew IVALID and IWARP (R227, R261).
Model's choices it rests on: log entries 29, 93, 96, 106, 107. -/
def Obligations.MatrixOperationsEnd : Prop :=
  (∀ ev p work, MxRow ev p work → ∀ (s : State) id o m x, s.mxTurn id p = some (o, m, x) →
    (∀ t, s.ctxBad x o.id = false → work (inThread s o) o m = .done t → exec (ev id) s = leaves s (t.mxFinish o m false))
    ∧ (∀ t, s.ctxBad x o.id = false → work (inThread s o) o m = .part t → exec (ev id) s = leaves s t)
    ∧ (s.ctxBad x o.id = false → work (inThread s o) o m = .wait → exec (ev id) s = .next s)
    ∧ (∀ f, s.ctxBad x o.id = false → work (inThread s o) o m = .fault f →
        exec (ev id) s = leaves s ((((inThread s o).undoDrain o m).mxRecord x o.id m.fn f).mxFinish o m true))
    ∧ (s.ctxBad x o.id = true → exec (ev id) s = leaves s (((inThread s o).undoDrain o m).mxFinish o m true)))
  ∧ (∀ (s : State) id n o m x q ok t, s.mxTurn id (fun f => decide (f = 5)) = some (o, m, x) → s.ctxBad x o.id = false → m.members[n]? = some q →
      q.ended = none → s.accFree o.id q.crew m.acc = true →
      (let u := inThread s o
       ((ok = true ∧ runSlice u o (m.withB u o) q = .done t) ∨ (ok = false ∧ (∃ f, runSlice u o (m.withB u o) q = .fault f) ∧ t = u)) →
       exec (.mmagSliceComplete id n) s
         = leaves s (sliceEnds t o { m.withB u o with members := modAt m.members n (fun q => { q with ended := some ok }) } q x)))
  ∧ (∀ (s : State) id n o m x, s.mxTurn id (fun f => decide (f = 5)) = some (o, m, x) → s.ctxBad x o.id = true →
      exec (.mmagSliceComplete id n) s = leaves s ((inThread s o).mxFinish o m true))
  ∧ (∀ (s : State) o m x, s.gangFinish o m x =
      (let lost := lostSlices m.members
       let t := if lost = [] then s else s.modCtx x (fun c => { c with mxglost := maskOf (fun i => lost.contains i) })
       (m.members.foldl (fun s q => s.mxArrive q.crew m.bar (.gang (if q.crew = o.crew then some o.warp else none) (lost.headD 0) (decide (lost ≠ []))))
         (((t.modOp o.id (fun o => { o with eng := none })).sweepOp o.id).refreshAccs (m.members.map Slice.crew) m.acc)).stepOpDone o.crew
           (if lost = [] then none else some 1)) ∨ m.fn ≠ 5)
  ∧ (∀ b part, b < 2 ^ 256 → part < 8 →
      (∀ w, w < 32 → bFault (bApply b (.gang (some w) part true)) = true ∧ bFpart (bApply b (.gang (some w) part true)) = part
        ∧ bIvalid (bApply b (.gang (some w) part true)) = true ∧ bIwarp (bApply b (.gang (some w) part true)) = w)
      ∧ bFault (bApply b (.gang none part true)) = true ∧ bFpart (bApply b (.gang none part true)) = part
      ∧ bIvalid (bApply b (.gang none part true)) = bIvalid b ∧ bIwarp (bApply b (.gang none part true)) = bIwarp b
      ∧ ∀ w, bFault (bApply b (.gang w part false)) = bFault b ∧ bIvalid (bApply b (.gang w part false)) = bIvalid b)
  ∧ (∀ (s : State) x id fn f c, s.ctxs[x]? = some c → ∃ c', (s.mxRecord x id fn f).ctxs[x]? = some c'
      ∧ c'.mxbad = some (match c.mxbad with | some n => min n id | none => id)
      ∧ (c.mxfault.toNat / 2 ^ 60 = 0 → c'.mxfault = BitVec.ofNat 64 (f.reason * 2 ^ 60 + fn * 2 ^ 57 + f.addr % 2 ^ 57))
      ∧ (c.mxfault.toNat / 2 ^ 60 ≠ 0 → c'.mxfault = c.mxfault))

/-- R44 to R47, R255, R259: a product leaves in each element of a valid row the sum of its group contributions, one rounding each in group
order onto the old value, and leaves every other element; where an element it consumes is poisoned, and only there, it writes none and
faults with reason 3.
Model's choices it rests on: log entries 29, 118. -/
def Obligations.ProductsAccumulate : Prop :=
  (∀ ka kb ta tb mat valid a, product ka kb ta tb mat valid a = none ↔
    ∃ i, i < tdRows ta ∧ valid.getLsbD i = true ∧ (tileRowBad ka ta i = true
      ∨ ∃ j, j < tdRows tb ∧ (tileRowBad kb tb j = true ∨ a.poison.get (64 * i + j) ≠ 0)))
  ∧ (∀ (s : State) ci ka kb scaled ta tb mat acc rows a v, pairOk scaled ta tb = true → s.crews[ci]? = some ka → s.acc? ci acc = some a →
    rows s ka = .mask v → productOn s ci (some kb) scaled ta tb mat acc rows
      = (match product ka kb ta tb mat v a with | some b => .done (s.setAcc ci acc b) | none => .fault ⟨3, 0⟩))
  ∧ ∀ ka kb ta tb mat valid a b, product ka kb ta tb mat valid a = some b → Sparse.wf a.elems = true →
    b.poison = a.poison ∧ b.full = a.full
    ∧ (∀ i j, i < tdRows ta → j < tdRows tb → valid.getLsbD i = true →
        b.elems.get (64 * i + j) = (List.range ((tdCols ta + groupLen ta - 1) / groupLen ta)).foldl
          (fun t g => accStep mat t (contribution ka kb ta tb i j g)) (a.elems.get (64 * i + j)))
    ∧ (∀ i j, j < 64 → (valid.getLsbD i = false ∨ tdRows ta ≤ i ∨ tdRows tb ≤ j) → b.elems.get (64 * i + j) = a.elems.get (64 * i + j))

/-- R266, R267, R271 to R273, R276 to R279: FORK starts its contexts with the warp's scalar registers; RDVZ joins ended contexts and reports
them; SEQEND, and the ends of contexts; the shape registers.
Model's choices it rests on: log entries 90, 112. -/
def Obligations.SequencersRun : Prop :=
  (∀ i rid m c, ForkRow i rid m c → ∀ w, RunsTo i
    (fun s e => e.w? s = some w ∧ w.spend = 0 ∧ w.spoison = 0 ∧ (m.isSome → e.k.image.matLen ≠ 0) ∧ (c.isSome → e.k.image.copyLen ≠ 0)
      ∧ s.ctxFree e.k m.isSome c.isSome = true ∧ s.forkAhead e m.isSome c.isSome = false)
    (fun s e => ({ s with
        ctxs := s.ctxs ++ ((match m with | some pc => [forked s e w true rid.toNat pc] | none => [])
          ++ (match c with | some pc => [forked s e w false rid.toNat pc] | none => []))
        forkQ := s.forkQ.filter (fun f => !(decide (f.crew = e.ci ∧ f.warp = e.wi ∧ f.pc = e.pc))) } : State).jump e e.npc))
  ∧ (∀ i rid m c, ForkRow i rid m c → Traps i
    (fun _ e => (m.isSome = true ∧ e.k.image.matLen = 0) ∨ (c.isSome = true ∧ e.k.image.copyLen = 0))
    (fun _ e => trapWord 1 (BitVec.ofNat 64 (6 * 2 ^ 56 + e.h.word % 2 ^ 32))))
  ∧ (∀ (o : OpX2) cs, Runs (.rdvz o)
    (fun s e => SFree s e o.a.toNat ∧ cs = s.ctxs.filter (rdvzJoins e o.b.toNat) ∧ (∀ c ∈ cs, c.st = .ended))
    (fun s e =>
      let t := ({ s with ctxs := s.ctxs.map (fun c => if rdvzJoins e o.b.toNat c then { c with joined := true } else c) } : State).joined e.who e.m0
        (s.rdvzPast e o.b.toNat)
      let u := match cs.find? (fun c => c.wasTrapped) with
        | some c => t.modWarp e.ci e.wi (fun w => { w with sqtcause := c.cause, sqtpc := c.tpc, sqtinfo := c.info })
        | none => t
      let nt := (cs.filter (fun c => c.wasTrapped)).length
      let nf := (cs.filter (fun c => c.matrix && !c.wasTrapped && decide (c.mxfault.toNat / 2 ^ 60 ≠ 0))).length
      after e (u.setS e.who o.a.toNat (BitVec.ofNat 64 (nt % 256 * 2 ^ 56 + nf % 256 * 2 ^ 48 + cs.length % 256 * 2 ^ 40)))))
  ∧ (∀ x c, RunsTo .seqend (fun s e => CtxIs s e x c) (fun s _ => s.modCtx x (fun c => { c with st := .ending })))
  ∧ (∀ (o : OpX2) c, RunsTo (.rdvz o)
    (fun s e => SFree s e o.a.toNat ∧ c ∈ s.ctxs ∧ rdvzJoins e o.b.toNat c = true ∧ c.st ≠ .ended) (fun s _ => s))
  ∧ (∀ (s : State) x c, s.ctxs[x]? = some c → ((∃ o ∈ s.ops ++ s.withdrawn, o.who = .ctx x) ∨ ∃ k, s.crews[c.crew]? = some k ∧ k.st = .saved) →
      exec (.sequencerContextEnd x) s = .next s ∧ exec (.sequencerTrapEnd x) s = .next s)
  ∧ (∀ (s : State) x c k, s.ctxs[x]? = some c → (∀ o ∈ s.ops ++ s.withdrawn, o.who ≠ .ctx x) → s.crews[c.crew]? = some k → k.st ≠ .saved →
      (c.st = .ending → exec (.sequencerContextEnd x) s = .next (s.modCtx x (fun c => { c with st := .ended })))
      ∧ (c.st = .trapped → exec (.sequencerTrapEnd x) s = .next (s.modCtx x (fun c => { c with st := .ended }))))
  ∧ (∀ (o : OpXSh) f, Runs (.shld o)
    (fun s e => SReady s e o.sa.toNat ∧ Places s e (fun _ => (s.sreg e.who o.sa.toNat).toNat) 64 kRead [0] f
      ∧ s.spReadReady e = true
      ∧ (match f 0 with
        | .spad off => e.k.linesFull off 64 = true ∧ e.k.spBad off 64 = false
        | .mem key => s.quietAt e.who (BitVec.allOnes 64) key 64 = true ∧ s.bad key 64 = false))
    (fun s e =>
      let ps := match f 0 with | .spad off => [(0, Spot.spad off, 64)] | .mem key => (List.range 4).map (fun j => (j, Spot.mem (key + 16 * j), 16))
      let bs := ps.flatMap (fun p => s.seen e p.1 p.2.1 p.2.2)
      after e ((ps.foldl (fun t p => t.noteSeen s e p.1 p.2.1 p.2.2) s).modCrew e.ci (fun k =>
        { k with sh := modAt k.sh o.sh.toNat (fun _ => BitVec.ofNat 512 (leNat (bs.map Prod.fst))) }))))
  ∧ (∀ (s : State) e j n, s.lookBack = [] →
      (∀ off, s.seen e j (.spad off) n = (List.range n).map (fun i => (BitVec.ofNat 8 (e.k.spRd (off + i) 1), e.k.spBad (off + i) 1)))
      ∧ ∀ key, s.seen e j (.mem key) n = (List.range n).map (fun i => (BitVec.ofNat 8 (s.rd key n / 256 ^ i), s.bad (key + i) 1)))
  ∧ (∀ (o : OpXShs), Runs (.shset o) (fun s e => SReady s e o.sv.toNat)
    (fun s e =>
      let q := match o.f.toNat with
        | 0 => (2, 0) | 1 => (7, 4) | 2 => (159, 128) | 3 => (191, 160) | 4 => (223, 192) | 5 => (255, 224)
        | 6 => (351, 304) | 7 => (399, 352) | 8 => (447, 400) | _ => (511, 448)
      after e (s.modCrew e.ci (fun k => { k with sh := modAt k.sh o.sh.toNat (fun r =>
        BitVec.ofNat 512 (setBits r.toNat q.1 q.2 (s.sreg e.who o.sv.toNat).toNat)) }))))

namespace Sys2Proof.Claims
open Sys2Proof.Machine

/-- The three scalar operands of an X-format word can be read. -/
def ThreeReady (s : State) (e : Env) (o : OpX3) : Prop := SReady s e o.a.toNat ∧ SReady s e o.b.toNat ∧ SReady s e o.c.toNat

/-- The last two can be read and the first can be written. -/
def TwoAndFree (s : State) (e : Env) (o : OpX3) : Prop := SReady s e o.b.toNat ∧ SReady s e o.c.toNat ∧ SFree s e o.a.toNat

/-- COPY, GATHER and SCATTER with their function numbers (R274, R284 to R286). -/
inductive CopyRow : Instr → OpX3 → Nat → Prop where
  | copy (o : OpX3) : CopyRow (.copy o) o 7
  | gather (o : OpX3) : CopyRow (.gather o) o 8
  | scatter (o : OpX3) : CopyRow (.scatter o) o 9

/-- The captured operation: for GATHER and SCATTER with the shape register that the control word names (R280, R281). -/
def copyOf (s : State) (e : Env) (o : OpX3) (fn : Nat) : CpOp :=
  CpOp.fresh fn (s.sreg e.who o.a.toNat) (s.sreg e.who o.b.toNat) (s.sreg e.who o.c.toNat)
    (if fn = 7 then 0 else e.k.sh.getD (cpSh (s.sreg e.who o.c.toNat)) 0)

/-- The captured MCAST before its list is read: the list in place of the destination (R287). -/
def mcastOf (s : State) (e : Env) (o : OpX3) : CpOp :=
  CpOp.fresh 10 (s.sreg e.who o.b.toNat) (s.sreg e.who o.a.toNat) (s.sreg e.who o.c.toNat) 0

/-- What R281 and R287 ask of an MCAST's control word: BEN = 1, EXP = 0, and its reserved fields 0. -/
def McastControl (ctl : W64) : Prop :=
  ctl.getLsbD 25 = true ∧ ctl.getLsbD 26 = false ∧ bitsOf ctl 27 27 = 0 ∧ bitsOf ctl 24 23 = 0 ∧ bitsOf ctl 47 36 = 0 ∧ bitsOf ctl 31 28 = 0

/-- Operation `id` is the copy-engine operation `c` of a crew that is not saved, and its issuers' earlier accesses are performed (R217). -/
structure CopyRuns (s : State) (id : Nat) (o : Op) (c : CpOp) (k : Crew) : Prop where
  op : s.op? id = some o
  cp : o.eng = some (.cp c)
  crew : s.crews[o.crew]? = some k
  live : k.st ≠ .saved
  forked : s.forked o = true

/-- An MCAST whose entry `j` delivers nothing more: the bytes that it has not delivered are to be acknowledged with FAULT (R287). -/
def mcRefused (c : CpOp) (j : Nat) : CpOp :=
  let rest := fun (rs : List (Nat × Nat)) => rs.filter (fun q => decide (c.recvOf q.1 ≠ j))
  { c with left := rest c.left, unread := rest c.unread, begun := true, bad := true
           owed := (j * cpLen c.ctl, c.restOf j, true) :: c.owed.filter (fun q => decide (c.recvOf q.1 ≠ j)) }

/-- Byte `b` of an operation lies in the part `p`, which has been read and no destination has accepted (R280). -/
def PartWaits (c : CpOp) (b : Nat) (p : Nat × Nat) : Prop :=
  rangeAt b c.unread = none ∧ (∃ r, rangeAt b c.left = some r ∧ p = partAt c c.index r b) ∧ ∀ q ∈ c.unread, meets p.1 p.2 q.1 q.2 = false

/-- The operands of KVGATHER pass its checks, and its status register can be written (R309, R311). -/
def GatherArgs (s : State) (e : Env) (o : OpX3) (x : KvArgs) (w : Warp) : Prop :=
  SReady s e o.b.toNat ∧ SReady s e o.c.toNat ∧ kvArgs s e (s.sreg e.who o.b.toNat) (s.sreg e.who o.c.toNat) false = .ok x ∧ InRange e [o.a.toNat]
    ∧ (x.tr = true → poolScaled (s.pool (sqDie x.seq) x.pool) = true → 32 ≤ poolP (s.pool (sqDie x.seq) x.pool) ∧ x.pos % 32 = 0)
    ∧ e.w? s = some w ∧ FreeLanes w [o.a.toNat] (s.kvMask e)

/-- The operands of KVAPPEND pass its checks, and its row can be read (R309, R313). -/
def AppendArgs (s : State) (e : Env) (o : OpX3) (x : KvArgs) (w : Warp) : Prop :=
  SReady s e o.b.toNat ∧ SReady s e o.c.toNat ∧ kvArgs s e (s.sreg e.who o.b.toNat) (s.sreg e.who o.c.toNat) true = .ok x ∧ e.w? s = some w
    ∧ InRange e ((kaSrcs o.a.toNat (poolHdim (s.pool (sqDie x.seq) x.pool))).map Src.reg)
    ∧ Readable w (kaSrcs o.a.toNat (poolHdim (s.pool (sqDie x.seq) x.pool)))

/-- The page of a KVAPPEND's position: its status and frame (R300). -/
def rowPage (s : State) (e : Env) (x : KvArgs) : Nat × Nat := s.resolve e.k.ctxid x.seq x.pool x.pos

/-- The forms of PGREQ and the command that each names; none where operand bits do (R314). -/
inductive PageRow : Instr → OpX3 → Option Nat → Prop where
  | any (o : OpX3) : PageRow (.pgreq o) o none
  | share (o : OpX3) : PageRow (.pgreqShare o) o (some 0)
  | release (o : OpX3) : PageRow (.pgreqRelease o) o (some 1)
  | pin (o : OpX3) : PageRow (.pgreqPin o) o (some 2)
  | unpin (o : OpX3) : PageRow (.pgreqUnpin o) o (some 3)
  | fetch (o : OpX3) : PageRow (.pgreqFetch o) o (some 4)
  | requant (o : OpX3) : PageRow (.pgreqRequant o) o (some 5)

/-- A transfer as it enters the engine: its kind, the remote word, its local address and length (R381, R382). -/
def transferOf (s : State) (e : Env) (fn : Nat) (rw ctl : W64) (addr len : Nat) : NetOp :=
  { fn := fn, die := e.k.die, mid := s.nextMsg, rword := rw, ctl := ctl, addr := addr, len := len, rts := false, sentAt := 0, tokens := []
    left := [(0, len)], last := s.dtime, asked := false, result := none, lines := [], grp := none
    asks := [], landing := none, unconf := [(0, len)], edge := [], held := [], heard := [] }

end Sys2Proof.Claims

/-- R170, R280, R281, R287: a copy-engine operation that passes its checks arms its lines, expects its bytes and is in flight; one without
bytes is done at once; a control word that fails a check traps with no effect. -/
def Sys2Proof.Claims.CopiesIssue : Prop :=
  (∀ i o fn, CopyRow i o fn → Runs i
    (fun s e => ThreeReady s e o ∧ cpCheck e (copyOf s e o fn) = .ok () ∧ s.cpCount e.k < 64
      ∧ e.k.canArm (cpLines e.k (copyOf s e o fn)) = true)
    (fun s e =>
      let c := { copyOf s e o fn with lines := cpLines e.k (copyOf s e o fn) }
      let t := s.modCrew e.ci (fun k => k.armLines c.lines)
      let u := if c.ctl.getLsbD 26 then t.cpBarUpd e.ci c.ctl (.expect c.total) else t
      after e (if c.ranges = [] then u else u.addOp { e.newOp s e.m0 with eng := some (.cp { c with left := c.ranges, unread := c.ranges }) })))
  ∧ (∀ i o fn, CopyRow i o fn → Traps i (fun s e => ThreeReady s e o ∧ cpCheck e (copyOf s e o fn) ≠ .ok ())
    (fun _ e => trapWord 1 (BitVec.ofNat 64 (6 * 2 ^ 56 + e.h.word % 2 ^ 32))))
  ∧ (∀ (o : OpX3), Traps (.mcast o) (fun s e => ThreeReady s e o ∧ ¬ McastControl (s.sreg e.who o.c.toNat))
    (fun _ e => trapWord 1 (BitVec.ofNat 64 (6 * 2 ^ 56 + e.h.word % 2 ^ 32))))
  ∧ (∀ i o fn, CopyRow i o fn → RunsTo i
    (fun s e => ThreeReady s e o ∧ cpCheck e (copyOf s e o fn) = .ok ()
      ∧ (64 ≤ s.cpCount e.k ∨ e.k.canArm (cpLines e.k (copyOf s e o fn)) = false)) (fun s _ => s))
  ∧ (∀ (o : OpX3), Runs (.mcast o)
    (fun s e =>
      let ctl := s.sreg e.who o.c.toNat
      ThreeReady s e o ∧ s.cpCount e.k < 64 ∧ McastControl ctl
        ∧ ∀ j < bitsOf ctl 35 32 + 1,
          let off := mcOff e.k (s.sreg e.who o.b.toNat).toNat j
          let d := mcEntry s e.k (e.k.spRd off 16)
          e.k.linesFull off 16 = true ∧ (d.1.ok = true → d.2 = true → s.mcHeld e.k.launch d.1 = false))
    (fun s e =>
      let ctl := s.sreg e.who o.c.toNat
      let lst := (s.sreg e.who o.b.toNat).toNat
      let ents := (List.range (bitsOf ctl 35 32 + 1)).map (fun j => mcEntry s e.k (e.k.spRd (mcOff e.k lst j) 16))
      let t := ents.foldl (fun s d => if d.1.ok && d.2 then s.mcUpd e.k.launch d.1 (.expect (cpLen ctl)) else s) s
      let u := t.asOp (e.newOp s e.m0) (fun t =>
        ents.foldl (fun s d => if d.1.ok then s.cpBarUpd e.ci ctl (.arrive 1 false) else s.mcRefuse e.ci ctl 0) t)
      after e (if cpLen ctl = 0 then (if ents.all (fun d => d.1.ok) then u else u.stepOpDone e.ci (some 1))
        else t.issueCp e { mcastOf s e o with recv := ents.map Prod.fst })))

/-- R171, R211, R284 to R287: an operation reads its bytes in whole accesses at the source, once the lines and indices that it needs are full; a
source that faults ends it with CPFAULT and the rest settled; a row of a SCATTER whose index is out of range is skipped, an MCAST entry that can
deliver nothing is refused.
Model's choices it rests on: log entry 90. -/
def Sys2Proof.Claims.CopySourcesAreRead : Prop :=
  ∀ (s : State) id b o c k r, CopyRuns s id o c k → rangeAt b c.unread = some r →
    let u := inThread s o
    let j := b / cpRow c
    let v := u.actJoins (u.landedOn o.crew (cpIndexOff k c j) 4)
    (∀ d w, (((c.fn = 7 ∨ c.fn = 10 ∧ ∀ x, c.recv[c.recvOf b]? = some x → x.ok = true) ∧ d = c ∧ w = u)
          ∨ (∃ x, (c.fn = 8 ∨ c.fn = 9 ∧ x < shDim1 c.sh) ∧ cpIndex? u o.crew k c j = some x ∧ d = { c.withIndex j x with begun := true } ∧ w = v)) →
      let p := readAt d r b
      let a := cpSrc d p.1
      (a.1 = 2 → exec (.copyPart id b) s = leaves s (w.cpNext o (d.take p k.die (List.replicate p.2 (0, false)))))
      ∧ (a.1 ≠ 2 → ∀ bs, cpReadRun w o.crew k d a.1 a.2 p.2 = .bytes bs →
          exec (.copyPart id b) s = leaves s ((w.runJoined o.crew k a.1 a.2 p.2).cpNext o (d.take p (cpDieOf w k a.1 a.2) bs)))
      ∧ (a.1 ≠ 2 → ∀ f, cpReadRun w o.crew k d a.1 a.2 p.2 = .fault f → exec (.copyPart id b) s = leaves s (w.cpFault o d (cpReason f) f.va))
      ∧ (a.1 ≠ 2 → cpReadRun w o.crew k d a.1 a.2 p.2 = .wait → exec (.copyPart id b) s = leaves s w))
    ∧ (c.fn = 8 ∨ c.fn = 9 → cpIndex? u o.crew k c j = none → exec (.copyPart id b) s = .next s)
    ∧ (∀ x, c.fn = 9 → cpIndex? u o.crew k c j = some x → shDim1 c.sh ≤ x → exec (.copyPart id b) s = leaves s (
        let row := (j * cpRow c, cpRow c)
        v.cpNext o { c.withIndex j x with begun := true, left := cutRange row c.left, unread := cutRange row c.unread, part := true
                                          owed := if cpBen c.ctl then (row.1, row.2, true) :: c.owed else c.owed }))
    ∧ (∀ x, c.fn = 10 → c.recv[c.recvOf b]? = some x → x.ok = false → exec (.copyPart id b) s = leaves s (u.cpNext o (mcRefused c (c.recvOf b))))

/-- R14, R280, R282, R284 to R287, R289: a part whose bytes have been read is accepted whole at its destination: memory, a scratchpad, a
tile range, or the receiver's scratchpad; a destination that faults ends the operation with CPFAULT and the rest settled; a part for a saved
receiver waits, and an ended receiver's entry delivers nothing more.
Model's choices it rests on: log entries 38, 90, 108. -/
def Sys2Proof.Claims.CopyPartsMove : Prop :=
  ∀ (s : State) id b o c k p, CopyRuns s id o c k → PartWaits c b p →
    let u := inThread s o
    (c.fn ∈ [7, 8, 9] →
      let d := cpDest c c.index p.1
      (∀ ps, d.1 ≠ 1 → u.piecesOf k k.ctxid kWrite d.2 p.2 = .ok ps →
          (c.crosses p (match ps with | q :: _ => q.1.die k | [] => k.die) = true →
            u.bridgeShut (match ps with | q :: _ => q.1.die k | [] => k.die) c.tried = false) →
          exec (.copyPart id b) s = leaves s ((u.writePieces o.crew ps (c.bytes p)).cpNext o (c.accept p)))
      ∧ (d.1 = 1 → c.crosses p k.die = false →
          exec (.copyPart id b) s = leaves s ((u.modCrew o.crew (fun k => k.tileWr d.2 (c.bytes p))).cpNext o (c.accept p)))
      ∧ (∀ f, d.1 ≠ 1 → u.piecesOf k k.ctxid kWrite d.2 p.2 = .error f → exec (.copyPart id b) s = leaves s (u.cpFault o c (cpReason f) f.va)))
    ∧ (∀ d r rk, c.fn = 10 → c.recv[c.recvOf p.1]? = some d → s.crewOf k.launch d.crew = some r → s.crews[r]? = some rk →
      (rk.st = .running → (c.crosses p rk.die = true → u.bridgeShut rk.die c.tried = false) → exec (.copyPart id b) s = leaves s (
        let off := spAddr rk.z (d.doff + p.1 % cpLen c.ctl) 0 1
        ((u.noteSp r off p.2 none).modCrew r (fun q => q.spWrMarked off (c.bytes p))).cpNext o (c.accept p)))
      ∧ (rk.st = .saved → exec (.copyPart id b) s = .next s)
      ∧ (rk.st = .ended → exec (.copyPart id b) s = leaves s (u.cpNext o (mcRefused c (c.recvOf p.1)))))

/-- R218, R280, R285, R287: parts are accounted on the barrier once every byte of the operation, or of an MCAST's receiver, has been accepted:
COPY, GATHER and SCATTER by landing their bytes, a skipped row by settling it, the last part of a GATHER with the bit for an index out of range;
an MCAST, which waits for no receiver that is saved or not placed, at its receiver's barrier, and at the sender's with the last, or with FAULT
and what an entry did not deliver. The operation ends when nothing of it is left.
Model's choices it rests on: log entries 90, 108, 109. -/
def Sys2Proof.Claims.CopiesAccount : Prop :=
  (∀ (s : State) id b o c k q, CopyRuns s id o c k → rangeAt b c.unread = none → rangeAt b c.left = none →
    c.owed.find? (fun q => decide (q.1 ≤ b ∧ b < q.1 + q.2.1)) = some q →
    let c2 := { c with owed := c.owed.filter (fun x => decide (x ≠ q)) }
    let u := inThread s o
    (c.fn ≠ 10 → c.unread = [] → c.left = [] → exec (.copyPart id b) s = leaves s ((u.cpBarUpd o.crew c.ctl (c.account q)).cpNext o c2))
    ∧ (c.fn ≠ 10 → (c.unread ≠ [] ∨ c.left ≠ []) → exec (.copyPart id b) s = .next s)
    ∧ (∀ d, c.fn = 10 → c.recv[c.recvOf q.1]? = some d →
        (c.unread = [] → c.restOf (c.recvOf q.1) = 0 → (∀ r ∈ c.left, s.mcRuns o c r.1 = false) →
          (q.2.2 = false → exec (.copyPart id b) s = leaves s (
            let t := u.mcUpd k.launch d (.land q.2.1)
            (if c2.owedOf (c.recvOf q.1) = [] then t.cpBarUpd o.crew c.ctl (.arrive 1 false) else t).cpNext o c2))
          ∧ (q.2.2 = true → exec (.copyPart id b) s = leaves s (
            ((u.cpBarUpd o.crew c.ctl (.ack q.2.1 66)).modCrew o.crew (fun k => k.cpRecord 3 10 0)).cpNext o c2)))
        ∧ ((c.unread ≠ [] ∨ c.restOf (c.recvOf q.1) ≠ 0 ∨ ∃ r ∈ c.left, s.mcRuns o c r.1 = true) → exec (.copyPart id b) s = .next s)))
  ∧ (∀ (c : CpOp) q, (q.2.2 = true → c.account q = .settle q.2.1 70) ∧ (q.2.2 = false → c.part = false → c.account q = .land q.2.1)
      ∧ (c.fn = 8 → c.part = true → c.left = [] → c.owed = [q] → q.2.2 = false → c.account q = .landBit q.2.1 70))
  ∧ (∀ (s : State) o c, c.lines = [] → (c.unread ≠ [] ∨ c.left ≠ [] ∨ c.owed ≠ []) →
      s.cpNext o c = s.modOp o.id (fun o => { o with eng := some (.cp c) }))
  ∧ (∀ (s : State) o c, c.lines = [] → c.unread = [] → c.left = [] → c.owed = [] →
      s.cpNext o c = s.endEng o (if c.bad then some 1 else if c.part then some 3 else none))
  ∧ (∀ c k, (c.unread ≠ [] → cpLanded k c = []) ∧ (c.unread = [] → c.left = [] → cpLanded k c = c.lines)
      ∧ ∀ l ∈ cpLanded k c, l ∈ c.lines)

/-- R300, R309 to R311, R313: KVGATHER of resident pages takes its holds, writes its lanes' statuses and issues its delivery; KVAPPEND of a
position outside its sequence settles its row with FAULT and writes nothing. -/
def Sys2Proof.Claims.KvInstructionsIssue : Prop :=
  (∀ (o : OpX3) x w ls, Runs (.kvgather o)
    (fun s e =>
      let die := sqDie x.seq
      let q := s.pool die x.pool
      let g : KvGather := ⟨die, q, alignDown x.dest 16, x.tr, x.kv, x.head, x.pos, x.bar, ls, [], [], [], none⟩
      SReady s e o.b.toNat ∧ SReady s e o.c.toNat ∧ kvArgs s e (s.sreg e.who o.b.toNat) (s.sreg e.who o.c.toNat) false = .ok x ∧ InRange e [o.a.toNat]
        ∧ (x.tr = true → poolScaled q = true → 32 ≤ poolP q ∧ x.pos % 32 = 0) ∧ e.w? s = some w ∧ FreeLanes w [o.a.toNat] (s.kvMask e)
        ∧ ls = kgResolve s e x (s.kvMask e) ∧ (∀ l ∈ ls, l.2.1 = 0 → s.awaited die l.2.2 = false) ∧ s.pgLate? e = none ∧ s.cpCount e.k < 64
        ∧ e.k.canArm (kgLines e.k g) = true ∧ kgLines e.k g ≠ [])
    (fun s e =>
      let die := sqDie x.seq
      let q := s.pool die x.pool
      let g : KvGather := ⟨die, q, alignDown x.dest 16, x.tr, x.kv, x.head, x.pos, x.bar, ls, [], [], [], none⟩
      let t := ((kgFrames ls).eraseDups.foldl (fun s f => s.touchFrame die f) (s.pgDrop e.who e.pc)).modWarp e.ci e.wi (fun w =>
        w.setLanes o.a.toNat (s.kvMask e) (fun i => Lane.full (match g.lane? i with | some r => BitVec.ofNat 32 r.1 | none => 2) false))
      let u := (t.modCrew e.ci (fun k => k.armLines (kgLines e.k g))).kvBarUpd e.ci x.bar (.expect (kgOffsets q x.tr (ls.map Prod.fst)).length)
      after e (u.addOp { e.newOp s e.m0 with eng := some (.kg { g with left := kgLines e.k g }) })))
  ∧ (∀ (o : OpX3) x w, Runs (.kvappend o)
    (fun s e =>
      let q := s.pool (sqDie x.seq) x.pool
      SReady s e o.b.toNat ∧ SReady s e o.c.toNat ∧ kvArgs s e (s.sreg e.who o.b.toNat) (s.sreg e.who o.c.toNat) true = .ok x ∧ e.w? s = some w
        ∧ InRange e ((kaSrcs o.a.toNat (poolHdim q)).map Src.reg) ∧ Readable w (kaSrcs o.a.toNat (poolHdim q))
        ∧ 2 ≤ (s.resolve e.k.ctxid x.seq x.pool x.pos).1 ∧ s.pgLate? e = none ∧ s.cpCount e.k < 64)
    (fun s e =>
      let n := poolRb (s.pool (sqDie x.seq) x.pool)
      after e ((((s.pgDrop e.who e.pc).kvBarUpd e.ci x.bar (.expect n)).kvBarUpd e.ci x.bar (.settle n 66)).stepOpDone e.ci (some 1))))
  ∧ (∀ (o : OpX3) x w f u, Runs (.kvappend o)
    (fun s e =>
      let q := s.pool (sqDie x.seq) x.pool
      let r := s.resolve e.k.ctxid x.seq x.pool x.pos
      SReady s e o.b.toNat ∧ SReady s e o.c.toNat ∧ kvArgs s e (s.sreg e.who o.b.toNat) (s.sreg e.who o.c.toNat) true = .ok x ∧ e.w? s = some w
        ∧ InRange e ((kaSrcs o.a.toNat (poolHdim q)).map Src.reg) ∧ Readable w (kaSrcs o.a.toNat (poolHdim q))
        ∧ r.1 < 2 ∧ (r.1 = 0 → s.awaited (sqDie x.seq) r.2 = false) ∧ kaPage s (sqDie x.seq) x r = some (f, u) ∧ s.pgLate? e = none
        ∧ s.cpCount e.k < 64)
    (fun s e =>
      let die := sqDie x.seq
      let q := s.pool die x.pool
      let r := s.resolve e.k.ctxid x.seq x.pool x.pos
      let mode := (s.modesOf e).1.toNat
      let codes := kaCodes s q (s.frBase die r.2) x (kaMax w o.a.toNat mode) (decide (r.1 = 1))
      let fixes := if poolScaled q then ((List.range (poolNb q)).filter (fun i => (codes.getD i (0, false)).2)).map (fun i =>
        (poolScaleAt q x.head x.kv i, (codes.getD i (0, false)).1)) else []
      let es := kaRow q w o.a.toNat mode codes
      let cow := decide (r.1 = 0 ∧ f ≠ r.2)
      let t := (u.pgDrop e.who e.pc).touchFrame die f
      let y := if cow then t else fixes.foldl (fun s p => s.wr (s.frBase die f + p.1) 1 p.2) t
      after e ((y.kvBarUpd e.ci x.bar (.expect (poolRb q))).addOp { e.newOp s e.m0 with eng := some (.ka
        { die := die, seq := x.seq, frame := f, addr := poolRow q x.head x.kv (x.pos % poolP q), off := x.pos % poolP q, bar := x.bar
          row := natLe (poolRb q) (Machine.packElems (poolW q) (es.map Prod.fst)), clip := es.any (fun p => p.2), fix := if cow then fixes else [], tried := none }) })))

/-- R170, R310: KVGATHER and KVAPPEND wait in place for a page that is on its way or in tier 2, whose fetch they request, and KVAPPEND for a
free frame: the wait is recorded with the time from which its limit counts, and the thread stays; one that has stood that long traps, though
its page has come since. Waiting for the engine or for lines has no limit:
the count stands still.
Model's choices it rests on: log entry 90. -/
def Sys2Proof.Claims.PagesAreAwaited : Prop :=
  (∀ (o : OpX3) x w l, RunsTo (.kvgather o)
    (fun s e => GatherArgs s e o x w
      ∧ (kgResolve s e x (s.kvMask e)).find? (fun l => decide (l.2.1 = 0) && s.awaited (sqDie x.seq) l.2.2) = some l)
    (fun s e =>
      let t := s.fetchAll e.ci (sqDie x.seq) (kgFrames (kgResolve s e x (s.kvMask e)))
      t.pgStand e (t.pgNeedOf 0 l.1 (sqDie x.seq) l.2.2)))
  ∧ (∀ (o : OpX3) x w, RunsTo (.kvgather o)
    (fun s e =>
      let die := sqDie x.seq
      let ls := kgResolve s e x (s.kvMask e)
      GatherArgs s e o x w ∧ (∀ l ∈ ls, l.2.1 = 0 → s.awaited die l.2.2 = false) ∧ s.pgLate? e = none
        ∧ (64 ≤ s.cpCount e.k
          ∨ e.k.canArm (kgLines e.k ⟨die, s.pool die x.pool, alignDown x.dest 16, x.tr, x.kv, x.head, x.pos, x.bar, ls, [], [], [], none⟩) = false))
    (fun s e => s.pgPause e))
  ∧ (∀ (o : OpX3) x w, RunsTo (.kvappend o)
    (fun s e => AppendArgs s e o x w ∧ (rowPage s e x).1 = 0 ∧ s.awaited (sqDie x.seq) (rowPage s e x).2 = true)
    (fun s e =>
      let t := s.fetchAll e.ci (sqDie x.seq) [(rowPage s e x).2]
      t.pgStand e (t.pgNeedOf 1 0 (sqDie x.seq) (rowPage s e x).2)))
  ∧ (∀ (o : OpX3) x w, RunsTo (.kvappend o)
    (fun s e => AppendArgs s e o x w ∧ ((rowPage s e x).1 = 0 → s.awaited (sqDie x.seq) (rowPage s e x).2 = false)
      ∧ s.pgLate? e = none ∧ 64 ≤ s.cpCount e.k)
    (fun s e => s.pgPause e))
  ∧ (∀ (o : OpX3) x w, RunsTo (.kvappend o)
    (fun s e => AppendArgs s e o x w ∧ (rowPage s e x).1 < 2 ∧ ((rowPage s e x).1 = 0 → s.awaited (sqDie x.seq) (rowPage s e x).2 = false)
      ∧ s.pgLate? e = none ∧ s.cpCount e.k < 64 ∧ kaPage s (sqDie x.seq) x (rowPage s e x) = none)
    (fun s e => s.pgStand e ⟨1, 0, noFrame, sqDie x.seq, (s.pe (sqDie x.seq)).reserve + 1⟩))
  ∧ (∀ (o : OpX3) x w p, RunsTo (.kvgather o)
    (fun s e => GatherArgs s e o x w ∧ (∀ l ∈ kgResolve s e x (s.kvMask e), l.2.1 = 0 → s.awaited (sqDie x.seq) l.2.2 = false) ∧ s.pgLate? e = some p)
    (fun s e => (s.pgDrop e.who e.pc).raise e (trapWord 10 (BitVec.ofNat 64 (p.lane * 2 ^ 40 + p.frame % 2 ^ 32)))))
  ∧ (∀ (o : OpX3) x w p, RunsTo (.kvappend o)
    (fun s e => AppendArgs s e o x w ∧ ((rowPage s e x).1 = 0 → s.awaited (sqDie x.seq) (rowPage s e x).2 = false) ∧ s.pgLate? e = some p)
    (fun s e => (s.pgDrop e.who e.pc).raise e (trapWord 10 (BitVec.ofNat 64 (2 ^ 56 + p.frame % 2 ^ 32)))))
  ∧ (∀ (s : State) e p, s.pgLate? e = some p → p ∈ s.pgWaits ∧ p.who = e.who ∧ p.pc = e.pc ∧ p.paused = false ∧ e.k.pgwait ≠ 0
      ∧ p.since + 1000 * e.k.pgwait.toNat ≤ s.dtime)
  ∧ (∀ (s : State) e x, (∀ p ∈ s.pgWaits, ¬ (p.who = e.who ∧ p.pc = e.pc)) →
      s.pgStand e x = { s with pgWaits := s.pgWaits.filter s.pgLive ++ [⟨e.who, e.pc, s.dtime, x.kind, x.lane, x.frame, x.die, x.need, false⟩] })
  ∧ (∀ (s : State) e x p, s.pgWaits.find? (fun p => decide (p.who = e.who ∧ p.pc = e.pc)) = some p → p.paused = false →
      (e.k.pgwait = 0 ∨ s.dtime < p.since + 1000 * e.k.pgwait.toNat →
        s.pgStand e x = { s with pgWaits := s.pgWaits.map (fun q =>
          if q.who = e.who ∧ q.pc = e.pc then ⟨e.who, e.pc, p.since, x.kind, x.lane, x.frame, x.die, x.need, false⟩ else q) })
      ∧ (e.k.pgwait ≠ 0 → p.since + 1000 * e.k.pgwait.toNat ≤ s.dtime → x.kind ≠ 2 →
        s.pgStand e x = (s.pgDrop e.who e.pc).raise e (trapWord 10 (BitVec.ofNat 64 (x.kind * 2 ^ 56 + x.lane * 2 ^ 40 + x.frame % 2 ^ 32))))
      ∧ (e.k.pgwait ≠ 0 → p.since + 1000 * e.k.pgwait.toNat ≤ s.dtime → x.kind = 2 →
        s.pgStand e x = ((s.pgDrop e.who e.pc).setS e.who x.lane 7).jump e (e.pc + 4)))

/-- R310, R314: PGREQ, in each of its forms: acts and answers 0, or answers a status that its tables give, or waits for the page it needs. -/
def Sys2Proof.Claims.PageRequestsAnswer : Prop :=
  (∀ i o op, PageRow i o op → Runs i
    (fun s e =>
      let x := pgArgs (s.sreg e.who o.b.toNat) (s.sreg e.who o.c.toNat) op
      TwoAndFree s e o ∧ s.pgStatuses e.k.ctxid x = [] ∧ s.pgNeeds x = [] ∧ s.pgLate? e = none)
    (fun s e =>
      let x := pgArgs (s.sreg e.who o.b.toNat) (s.sreg e.who o.c.toNat) op
      after e (((s.pgDrop e.who e.pc).pgAct x).setS e.who o.a.toNat 0)))
  ∧ (∀ i o op f fs, PageRow i o op → RunsTo i
    (fun s e =>
      let x := pgArgs (s.sreg e.who o.b.toNat) (s.sreg e.who o.c.toNat) op
      TwoAndFree s e o ∧ s.pgStatuses e.k.ctxid x = [] ∧ (s.pgFetch e.ci x).pgNeeds x = f :: fs)
    (fun s e =>
      let x := pgArgs (s.sreg e.who o.b.toNat) (s.sreg e.who o.c.toNat) op
      let t := s.pgFetch e.ci x
      t.pgStand e (t.pgNeedFor x o.a.toNat f)))
  ∧ (∀ i o op p, PageRow i o op → RunsTo i
    (fun s e =>
      let x := pgArgs (s.sreg e.who o.b.toNat) (s.sreg e.who o.c.toNat) op
      TwoAndFree s e o ∧ s.pgStatuses e.k.ctxid x = [] ∧ s.pgNeeds x = [] ∧ s.pgLate? e = some p)
    (fun s e => ((s.pgDrop e.who e.pc).setS e.who o.a.toNat 7).jump e (e.pc + 4)))
  ∧ (∀ i o op st, PageRow i o op → Runs i
    (fun s e => TwoAndFree s e o ∧ s.pgStatuses e.k.ctxid (pgArgs (s.sreg e.who o.b.toNat) (s.sreg e.who o.c.toNat) op) = [st])
    (fun s e => after e (({ s.pgDrop e.who e.pc with free := s.free + 1 } : State).setS e.who o.a.toNat (BitVec.ofNat 64 st))))
  ∧ (∀ i o op, PageRow i o op → ∀ s e, Issues s i e → TwoAndFree s e o →
      s.pgStatuses e.k.ctxid (pgArgs (s.sreg e.who o.b.toNat) (s.sreg e.who o.c.toNat) op) ≠ [] →
      ∃ st ∈ s.pgStatuses e.k.ctxid (pgArgs (s.sreg e.who o.b.toNat) (s.sreg e.who o.c.toNat) op),
        exec i s = .next (after e (({ s.pgDrop e.who e.pc with free := s.free + 1 } : State).setS e.who o.a.toNat (BitVec.ofNat 64 st))))

/-- R381 to R385, R391: PUT, GET, RATOM and REDNET enter the fabric, after their checks, with the word that names the remote place; a PUT of
no bytes arrives at its barrier at once.
Model's choices it rests on: log entries 70, 71, 72. -/
def Obligations.TransfersIssue : Prop :=
  (∀ (o : OpX3), Runs (.put o)
    (fun s e => ThreeReady s e o ∧ ncZeros (s.sreg e.who o.c.toNat) = true ∧ (s.sreg e.who o.c.toNat).getLsbD 26 = false ∧ s.cpCount e.k < 64)
    (fun s e =>
      let ctl := s.sreg e.who o.c.toNat
      after e (if ncLen ctl = 0 then s.asOp (e.newOp s e.m0) (fun u => u.cpBarUpd e.ci ctl (.arrive 1 false))
        else ({ s with nextMsg := s.nextMsg + 1 } : State).addOp { e.newOp s e.m0 with
          eng := some (.net (transferOf s e 0 (s.sreg e.who o.b.toNat) ctl (s.sreg e.who o.a.toNat).toNat (ncLen ctl))) })))
  ∧ (∀ (o : OpX3), Runs (.get o)
    (fun s e =>
      let ctl := s.sreg e.who o.c.toNat
      ThreeReady s e o ∧ ncZeros ctl = true ∧ ncClass ctl = 0 ∧ (ctl.getLsbD 26 = true → ctl.getLsbD 25 = true)
        ∧ rwInb (s.sreg e.who o.b.toNat) = false ∧ s.cpCount e.k < 64
        ∧ e.k.canArm (getLines e.k (s.sreg e.who o.a.toNat).toNat (ncLen ctl)) = true)
    (fun s e =>
      let ctl := s.sreg e.who o.c.toNat
      let a := (s.sreg e.who o.a.toNat).toNat
      let t := s.modCrew e.ci (fun k => k.armLines (getLines e.k a (ncLen ctl)))
      let u := if ctl.getLsbD 26 then t.cpBarUpd e.ci ctl (.expect (ncLen ctl)) else t
      after e (if ncLen ctl = 0 then s
        else u.addNet e { transferOf s e 1 (s.sreg e.who o.b.toNat) ctl a (ncLen ctl) with lines := getLines e.k a (ncLen ctl) })))
  ∧ (∀ (o : OpX3) v n, Runs (.ratom o)
    (fun s e =>
      let ctl := s.sreg e.who o.c.toNat
      let rs := o.a.toNat :: runOf (o.a.toNat + 1) (if bitsOf ctl 3 0 = 1 then 2 * n else n)
      venv s e = .ok v ∧ SReady s e o.b.toNat ∧ SReady s e o.c.toNat ∧ ctl.toNat / 2 ^ 6 = 0 ∧ n = (if ctl.getLsbD 4 then 8 else 4)
        ∧ rwInb (s.sreg e.who o.b.toNat) = false ∧ InRange e rs ∧ Readable v.w (rs.map (fun r => ⟨r, v.act, false⟩))
        ∧ FreeLanes v.w (runOf (o.a.toNat + 1) n) v.act ∧ s.storesOut e.who = false ∧ s.olderPending e.who s.nextOp e.m0 true = false)
    (fun s e =>
      let ctl := s.sreg e.who o.c.toNat
      let rw := s.sreg e.who o.b.toNat
      let vt := o.a.toNat
      let aop := bitsOf ctl 3 0
      let lanes := (lanesOf v.act).map (fun l => (⟨l, alignDown (rwOff rw + (v.w.lane vt l).data.toNat) n, atomVal v aop (vt + 1) n l,
        atomVal v aop (if aop = 1 then vt + 1 + n / 4 else vt + 1) n l⟩ : RaLane))
      let q := { e.newOp s v.act with fills := lanes.map (fun l => ⟨l.lane, .unit⟩), eng := some (.ra s.nextMsg (vt + 1) n s.dtime rw) }
      let t := (({ s with nextMsg := s.nextMsg + 1 } : State).modWarp e.ci e.wi (fun w => w.setPending (runOf (vt + 1) n) v.act)).addOp q
      after e (if v.act = 0 then s else t.asOp q (fun u => u.send (rwDev rw) s.nextMsg (.ratom aop n (ctl.getLsbD 5) rw lanes)))))
  ∧ (∀ (o : OpX3) g, Runs (.rednet o)
    (fun s e =>
      let ctl := s.sreg e.who o.c.toNat
      let gw := s.sreg e.who o.b.toNat
      ThreeReady s e o ∧ s.redgrps.find? (fun g => decide (g.idx = bitsOf gw 55 48 ∧ g.ctxid = e.k.ctxid)) = some g
        ∧ rnFmt ctl ∈ [0, 1, 3, 4, 11] ∧ bitsOf gw 63 56 = 0 ∧ bitsOf gw 47 32 = 0 ∧ bitsOf ctl 19 16 = 0 ∧ rnOp ctl ≤ 3
        ∧ rnCount ctl * max (fmtWidth (rnFmt ctl)) (rnOut ctl) / 8 ≤ 8192 ∧ (rnFmt ctl = 11 → rnOp ctl ≠ 3 ∧ rnRf ctl = false)
        ∧ (ctl.getLsbD 21 = true → ctl.getLsbD 20 = true) ∧ s.cpCount e.k < 64)
    (fun s e =>
      let ctl := s.sreg e.who o.c.toNat
      let t := if ctl.getLsbD 21 ∧ e.k.z ≠ 0 then s.barUpd e.ci (cpBarOff e.k ctl) (.expect (32 + rnPayload ctl)) else s
      after e (t.addNet e { transferOf s e 3 (s.sreg e.who o.b.toNat) ctl (s.sreg e.who o.a.toNat).toNat (32 + rnPayload ctl) with
        left := [], unconf := [], grp := some g })))
  ∧ (∀ (o : OpX3), Traps (.put o) (fun s e => ThreeReady s e o ∧ (s.sreg e.who o.c.toNat).getLsbD 26 = true)
    (fun _ e => trapWord 1 (BitVec.ofNat 64 (6 * 2 ^ 56 + e.h.word % 2 ^ 32))))

/-- R322, R324, R327, R337, R339, R356: SQADM, TOKFB, SEQRET and LAUNCH answer what the scheduler or the device queue says. A scheduler's step
begins after the writes of the asking warp, and its return is an acquire; the threads of a child come after what its parent did.
Model's choices it rests on: log entries 56, 63, 88, 90, 105. -/
def Obligations.SchedulerInstructions : Prop :=
  (∀ (o : OpX2) b, Runs (.sqadm o)
    (fun s e => SReady s e o.b.toNat ∧ SFree s e o.a.toNat ∧ s.storesOut e.who = false
      ∧ s.blockAt e (s.sreg e.who o.b.toNat).toNat 128 = (false, some b))
    (fun s e =>
      let u := s.schedAsk e e.k.die
      after e (match u.enterSeq e.k.ctxid e.k.die b with
        | .ok (t, id) => (t.schedReturn s e e.k.die).setS e.who o.a.toNat (BitVec.ofNat 64 id)
        | .error st => (u.schedReturn s e e.k.die).setS e.who o.a.toNat (BitVec.ofInt 64 st))))
  ∧ (∀ (o : OpX2), Runs (.sqadm o)
    (fun s e => SReady s e o.b.toNat ∧ SFree s e o.a.toNat ∧ s.storesOut e.who = false
      ∧ s.blockAt e (s.sreg e.who o.b.toNat).toNat 128 = (false, none))
    (fun s e => after e (((s.schedAsk e e.k.die).schedReturn s e e.k.die).setS e.who o.a.toNat (BitVec.ofInt 64 (-5)))))
  ∧ (∀ (o : OpX3), Runs (.tokfb o)
    (fun s e => TwoAndFree s e o ∧ s.storesOut e.who = false ∧ (s.sreg e.who o.b.toNat).toNat < 2 ^ 32 ∧ (s.sreg e.who o.c.toNat).toNat < 2 ^ 32)
    (fun s e =>
      let die := sqDie (s.sreg e.who o.b.toNat).toNat
      let q := (s.schedAsk e die).feedToken (s.sreg e.who o.b.toNat).toNat (s.sreg e.who o.c.toNat).toNat
      after e ((q.1.schedReturn s e die).setS e.who o.a.toNat (BitVec.ofInt 64 q.2))))
  ∧ (∀ (o : OpX3), Runs (.tokfb o)
    (fun s e => TwoAndFree s e o ∧ s.storesOut e.who = false
      ∧ (2 ^ 32 ≤ (s.sreg e.who o.b.toNat).toNat ∨ 2 ^ 32 ≤ (s.sreg e.who o.c.toNat).toNat))
    (fun s e =>
      let die := sqDie (s.sreg e.who o.b.toNat).toNat
      after e (((s.schedAsk e die).schedReturn s e die).setS e.who o.a.toNat (BitVec.ofInt 64 (-4)))))
  ∧ (∀ (o : OpX3), Runs (.seqret o)
    (fun s e => TwoAndFree s e o ∧ s.storesOut e.who = false ∧ 1 ≤ (s.sreg e.who o.c.toNat).toNat ∧ (s.sreg e.who o.c.toNat).toNat ≤ 6)
    (fun s e =>
      let die := sqDie ((s.sreg e.who o.b.toNat).toNat % 2 ^ 32)
      let q := (s.schedAsk e die).seqReturn ((s.sreg e.who o.b.toNat).toNat % 2 ^ 32) (s.sreg e.who o.c.toNat).toNat
      after e ((q.1.schedReturn s e die).setS e.who o.a.toNat (BitVec.ofInt 64 q.2))))
  ∧ (∀ (o : OpX3), Runs (.seqret o)
    (fun s e => TwoAndFree s e o ∧ s.storesOut e.who = false ∧ ((s.sreg e.who o.c.toNat).toNat = 0 ∨ 6 < (s.sreg e.who o.c.toNat).toNat))
    (fun s e =>
      let die := sqDie ((s.sreg e.who o.b.toNat).toNat % 2 ^ 32)
      after e (((s.schedAsk e die).schedReturn s e die).setS e.who o.a.toNat (BitVec.ofInt 64 (-4)))))
  ∧ (∀ (t s : State) e die, { t.schedReturn s e die with known := t.known, dies := t.dies, actor := t.actor } = t)
  ∧ (∀ (s : State) seq tok, s.live? seq = none → s.feedToken seq tok = (s, if (s.sched (sqDie seq)).lost.contains seq then -2 else -1))
  ∧ (∀ (o : OpX3) p, Runs (.launch o)
    (fun s e => TwoAndFree s e o ∧ s.storesOut e.who = false ∧ s.olderPending e.who s.nextOp e.m0 true = false
      ∧ s.blockAt e (alignDown (s.sreg e.who o.b.toNat).toNat 64) 64 = (false, some p)
      ∧ s.pendingKids e.k.die < 4096 ∧ childOk p = true)
    (fun s e => after e ((s.modDie e.k.die (fun d => d.addKid (childKey p) e.k.ctxid s.dtime ⟨s.sreg e.who o.c.toNat, pkCq p, pkCompl p, pkTag p,
      s.past e.who s.nextOp e.m0⟩)).setS
      e.who o.a.toNat 0)))
  ∧ (∀ (o : OpX3) p, Runs (.launch o)
    (fun s e => TwoAndFree s e o ∧ s.storesOut e.who = false ∧ s.olderPending e.who s.nextOp e.m0 true = false
      ∧ s.blockAt e (alignDown (s.sreg e.who o.b.toNat).toNat 64) 64 = (false, some p)
      ∧ s.pendingKids e.k.die < 4096 ∧ childOk p = false)
    (fun s e => after e (s.setS e.who o.a.toNat (BitVec.ofInt 64 (-3)))))

/-- R280 to R287: the copy engine.
Model's choices it rests on: log entries 38, 85, 90, 101, 108, 109. -/
def Obligations.CopiesIssueAndMove : Prop :=
  Claims.CopiesIssue ∧ Claims.CopySourcesAreRead ∧ Claims.CopyPartsMove ∧ Claims.CopiesAccount

/-- R309 to R314: KVGATHER, KVAPPEND and PGREQ.
Model's choices it rests on: log entries 32, 33, 35, 36, 37, 89, 90, 102. -/
def Obligations.PageInstructionsIssue : Prop :=
  Claims.KvInstructionsIssue ∧ Claims.PagesAreAwaited ∧ Claims.PageRequestsAnswer

namespace Sys2Proof.Claims
open Sys2Proof.Machine

/-- No operation in flight lies before operation number `id` of the threads `m` of `who` (R210). -/
def NoneBefore (s : State) (who : ThreadRef) (id : Nat) (m : W64) : Prop := ∀ p ∈ s.ops, s.earlierLanes who id m p = 0

/-- The cells of an operation in one 64-byte block. -/
def cellsIn (o : Op) (block : Nat) : List Cellw := o.cells.filter (fun c => decide (c.key / 64 = block))

/-- The lanes of an ATOM that name one word. -/
def atomsAt (o : Op) (addr : Nat) : List AtomLane := o.atoms.filter (fun l => decide (l.key = addr))

end Sys2Proof.Claims

/-- R117, R125, R175, R194, R200, R220: a pending lane that can fill takes its values, each register poisoned by its own words, and a scalar
load its register; memory stays. A 16-byte lane in
host memory is read as two requests of 8 bytes. With nothing before it in flight a load reads what memory holds, or held where the agenda asks for
that and R220 lets it; a lane that must wait leaves the package as it is.
Model's choices it rests on: log entries 19, 90. -/
def Sys2Proof.Claims.ProducersFill : Prop :=
  (∀ (s : State) id lane o f vals, s.op? id = some o → o.fills.find? (fun f => decide (f.lane = lane)) = some f →
    (f.src = .ready vals
      ∨ (∃ key n sx vt v b u, f.src = .mem key n sx vt ∧ ¬ (keyTgt key = 3 ∧ n = 16) ∧ s.threadRead o (1#64 <<< lane) key n = some (v, b, u)
          ∧ vals = loadLanes vt n sx v (fun j => b && s.bad (key + 4 * j) (min n 4)))
      ∨ (∃ lo lbad key vt v b u, f.src = .half lo lbad key vt ∧ s.threadRead o (1#64 <<< lane) key 8 = some (v, b, u)
          ∧ vals = loadLanes vt 16 false (lo + 2 ^ 64 * v) (fun j => if j < 2 then lbad else b && s.bad (key + 4 * (j - 2)) 4))) →
    ∃ t, exec (.producerFill id lane) s = .next t ∧ t.mem = s.mem
      ∧ t.warp? o.crew o.warp = (s.warp? o.crew o.warp).map (fun w => vals.foldl (fun w p => w.setLanes p.1 (1#64 <<< lane) (fun _ => p.2)) w)
      ∧ (∀ p ∈ t.ops, p.id = id → ∀ g ∈ p.fills, g.lane ≠ lane))
  ∧ (∀ (s : State) id lane o f key sx vt v b u, s.op? id = some o → o.fills.find? (fun f => decide (f.lane = lane)) = some f →
    f.src = .mem key 16 sx vt → keyTgt key = 3 → s.threadRead o (1#64 <<< lane) key 8 = some (v, b, u) →
    exec (.producerFill id lane) s = .next (u.modOp id (fun o =>
      { o with fills := o.fills.map (fun f => if f.lane = lane then ⟨lane, .half v b (key + 8) vt⟩ else f) })))
  ∧ (∀ (s : State) id lane o f key n sx vt, s.op? id = some o → o.fills.find? (fun f => decide (f.lane = lane)) = some f →
    f.src = .mem key n sx vt → s.threadRead o (1#64 <<< lane) key (if keyTgt key = 3 ∧ n = 16 then 8 else n) = none →
    exec (.producerFill id lane) s = .next s)
  ∧ (∀ (s : State) id o l v, s.op? id = some o → o.sload = some l →
    (l.val = some v ∨ (l.val = none ∧ ∃ n b u, s.threadRead o o.lanes l.key 8 = some (n, b, u) ∧ v = BitVec.ofNat 64 n)) →
    ∃ t, exec (.scalarProducerFill id) s = .next t ∧ t.mem = s.mem ∧ t.scal o.who = (s.setS o.who l.sd v).scal o.who
      ∧ (∀ p ∈ t.ops, p.id = id → p.sload = none))
  ∧ (∀ (s : State) o m key n, NoneBefore s o.who o.id m →
      ∃ u, s.threadRead o m key n = some (s.rdAt key n (s.readPoint o.who o.id m none key n), s.bad key n, u) ∧ u.mem = s.mem ∧ u.hist = s.hist)
  ∧ (∀ (s : State) who id m key n, (∀ t, s.lookBack.head? = some t → s.mayRead who id m none key n t = false) →
      s.rdAt key n (s.readPoint who id m none key n) = s.rd key n)

/-- R194, R201, R206: the bytes of a store at one home port reach memory together, as one unit, each cell over the ones before it under its bit mask, and
no byte outside its cells changes; in host memory a request of at most 8 bytes at a time. An atomic unit executes the lanes of one word in ascending
order, each on the value before it, and leaves a poisoned word as it is. -/
def Sys2Proof.Claims.StoresAndAtomicsReachMemory : Prop :=
  (∀ (s : State) id block o, s.op? id = some o → s.mem.wf = true →
    (∀ c ∈ o.cellsOf block, s.writeReady o c.lanes c.key c.n = true) →
    ∃ t, exec (.storeAccept id block) s = .next t ∧ t.crews = s.crews
      ∧ t.mem = (o.cellsOf block).foldl (fun m c => wrBytes m c.key c.n (blend (rdBytes m c.key c.n) c.val c.mask)) s.mem
      ∧ (∀ a, (∀ c ∈ o.cellsOf block, a < c.key ∨ c.key + c.n ≤ a) → t.mem.get a = s.mem.get a)
      ∧ (∀ c, o.cellsOf block = [c] → c.mask = ones c.n → t.rd c.key c.n = c.val % 256 ^ c.n)
      ∧ (∀ p ∈ t.ops, p.id = id → ∃ q ∈ s.ops, q.id = id ∧ p.cells = q.cellsLeft block))
  ∧ (∀ (o : Op) block, keyTgt (64 * block) ≠ 3 → ∀ c, (c ∈ o.cellsOf block ↔ c ∈ o.cells ∧ (c.key / 64 = block
        ∨ keyTgt (64 * (c.key / 64)) = keyTgt (64 * block) ∧ Config.homePort (c.key / 64) = Config.homePort block))
      ∧ (c ∈ o.cellsLeft block ↔ c ∈ o.cells ∧ c ∉ o.cellsOf block))
  ∧ (∀ (o : Op) block c cs, keyTgt (64 * block) = 3 → cellsIn o block = c :: cs → o.cellsOf block = [c] ∧ o.cellsLeft block = o.cells.erase c)
  ∧ (∀ (s : State) id block o c, s.op? id = some o → c ∈ o.cellsOf block → s.writeReady o c.lanes c.key c.n = false →
    exec (.storeAccept id block) s = .next s)
  ∧ (∀ (s : State) id addr o, s.op? id = some o → s.mem.wf = true → atomsAt o addr ≠ [] →
    (∀ l ∈ atomsAt o addr, s.writeReady o (1#64 <<< l.lane) l.key (o.awidth / 8) = true) →
    ∃ t, exec (.atomicUnitExecute id addr) s = .next t ∧ t.crews = s.crews
      ∧ t.mem = (if s.bad addr (o.awidth / 8) then s.mem
        else wrBytes s.mem addr (o.awidth / 8) (atomFold o.aop o.awidth (s.rd addr (o.awidth / 8)) (atomsAt o addr)).1)
      ∧ (∀ a, a < addr ∨ addr + o.awidth / 8 ≤ a → t.mem.get a = s.mem.get a)
      ∧ (∀ p ∈ t.ops, p.id = id → atomsAt p addr = []))

/-- R117, R194, R201, R206, R220: lanes fill, stores and atomics reach memory.
Model's choices it rests on: log entries 19, 27, 90. -/
def Obligations.AccessesAreAccepted : Prop := Claims.ProducersFill ∧ Claims.StoresAndAtomicsReachMemory

namespace Sys2Proof.Claims
open Sys2Proof.Machine

/-- Job `id` is the launch `l`. -/
def IsLaunch (s : State) (id : Nat) (j : Job) (l : Launch) : Prop := s.job? id = some j ∧ j.kind = .launch l

/-- The crew that a launch places next on a core, with its parameter (R84, R350). -/
def nextCrew (s : State) (id : Nat) (j : Job) (l : Launch) (c : Nat × Nat) (kp : Nat) : Crew :=
  Crew.start l.image id c.1 c.2 j.ctxid l.placed l.ncrews s.dtime (pkCtlc l.pkt.toNat) (BitVec.ofNat 64 kp) (BitVec.ofNat 64 (pkThtab l.pkt.toNat))
    (BitVec.ofNat 16 (pkThcount l.pkt.toNat)) (if pkSgv l.pkt.toNat then some (pkSg l.pkt.toNat) else none)

/-- Nothing waits for crew `n` of launch `id` to be placed: no update of an MCAST or of a fabric request. -/
def NothingAwaits (s : State) (id n : Nat) : Prop := ∀ u ∈ s.coming, ¬ (u.1 = id ∧ u.2.1 = n)

/-- A step of the copy of a packet or node whose job is `j`: operation thread `op`, forked where its job began (R350, R352). -/
def inCopy (s : State) (op : Nat) (j : Job) : State := { s with actor := ⟨.op op, j.seen, []⟩ }

/-- The next crew of a launch has a core to go to: position `i` of the search order, the core `c`. -/
def HasCore (s : State) (id : Nat) (j : Job) (l : Launch) (i : Nat) (c : Nat × Nat) : Prop :=
  IsLaunch s id j l ∧ l.placed < l.ncrews ∧ l.halted = false ∧ s.serves j.die = true
    ∧ s.findCore j l = some i ∧ (coreOrder l.pkt.toNat j.die)[i]? = some c

/-- Operation `op` is the copy `c` of the packet or node whose job is `j` (R352). -/
def PacketCopies (s : State) (op : Nat) (j : Job) (c : CpOp) : Prop := s.op? op = none ∧ s.copyJob? op = some (j, c)

end Sys2Proof.Claims

/-- R84 to R86, R217, R350: a crew is placed on a core that has its resources; its warps stand at the start of .text with every thread READY, after
all that happens before its fork; other crews and memory stay. A launch whose next parameter cannot be read places no more. -/
def Sys2Proof.Claims.CrewsArePlaced : Prop :=
  (∀ (s : State) id j l i c kp, HasCore s id j l i c → s.kparam j l = some kp →
    exec (.crewPlace id) s = .next (((s.startCrew (nextCrew s id j l c kp) (l.forkSeen j.seen)).reqsPlaced id l.placed).modLaunch
      id (decide (l.placed + 1 < l.ncrews)) (fun x => { x with placed := l.placed + 1, next := (i + 1) % (coreOrder l.pkt.toNat j.die).length })))
  ∧ (∀ (s : State) id j l i c kp, HasCore s id j l i c → s.kparam j l = some kp → NothingAwaits s id l.placed →
    s.fits l.image j.id c = true ∧
    ∃ t k, exec (.crewPlace id) s = .next t ∧ t.crews = s.crews ++ [k] ∧ t.mem = s.mem ∧ t.ops = s.ops
      ∧ k.st = .running ∧ k.image = l.image ∧ (k.die, k.core) = c ∧ k.ctxid = j.ctxid ∧ k.launch = id ∧ k.crewid = l.placed ∧ k.ncrews = l.ncrews
      ∧ k.kparam = BitVec.ofNat 64 kp ∧ k.tvec = 0 ∧ k.sp = [] ∧ k.tile = [] ∧ k.firstKill = 0
      ∧ k.warps.length = l.image.warps
      ∧ (∀ w ∈ k.warps, w.frontier = [⟨prioOf l.image 0, 0, .ready, BitVec.allOnes 64, none⟩] ∧ w.sregs = List.replicate 64 0 ∧ w.loops = []
          ∧ w.hact = false ∧ (∀ r < l.image.regs, ∀ x < 64, w.lane r x = ⟨0, false, true, false, false⟩))
      ∧ ∀ w < l.image.warps, ∀ x ∈ l.forkSeen j.seen, x ∈ t.past (.warp s.crews.length w) t.nextOp (BitVec.allOnes 64))
  ∧ (∀ (s : State) id j l, IsLaunch s id j l → s.findCore j l = none → exec (.crewPlace id) s = .next s)
  ∧ (∀ (s : State) id j l i c, HasCore s id j l i c → s.kparam j l = none →
    exec (.crewPlace id) s = .next ((s.modLaunch id false (fun l => { l with halted := true, bad := true })).launchCheck id))

/-- R87, R347, R350, R401: a crew ends once its threads and contexts have ended and its accesses are done; a launch whose crews have all been
placed and have ended completes, with KERNEL_FAULT where one was killed. -/
def Sys2Proof.Claims.CrewsEndAndLaunchesComplete : Prop :=
  (∀ (s : State) ci k, s.crews[ci]? = some k → k.st = .running → s.crewQuiet ci k = true →
    exec (.crewEnd ci) s = .next ((((s.leaveOps ci).modCrew ci (fun k => { k with st := .ended })).launchCheck k.launch).preemptCheck))
  ∧ (∀ (s : State) ci k, s.crews[ci]? = some k → k.st = .running → s.crewQuiet ci k = false → exec (.crewEnd ci) s = .next s)
  ∧ (∀ (s : State) ci k, s.crews[ci]? = some k → k.st = .ended → exec (.crewEnd ci) s = .next (s.launchCheck k.launch))
  ∧ (∀ (s : State) ci k, s.crews[ci]? = some k → (s.crewQuiet ci k = true ↔
      (∀ w ∈ k.warps, w.liveMask = 0) ∧ ∀ c ∈ s.ctxs, c.crew = ci → c.st = .ended))
  ∧ (∀ (s : State) id j l, IsLaunch s id j l → l.kids = [] → j.parent = none → l.placed = l.ncrews → l.bad = false → l.cut = false →
    (∀ k ∈ s.crewsOf id, k.st = .ended) → (∀ c ∈ s.launchCrews id, s.crewWork c = false) →
    s.launchCheck id = s.finishJob { j with seen := unionOf (j.seen :: (s.launchCrews id).map s.crewAll) } (if firstKill (s.crewsOf id) = 0 then 0 else 6) l.placed 0 (firstKill (s.crewsOf id)))
  ∧ (∀ (s : State) id j l, IsLaunch s id j l → l.kids = [] → ((∃ k ∈ s.crewsOf id, k.st ≠ .ended) ∨ ∃ c ∈ s.launchCrews id, s.crewWork c = true) →
    s.launchCheck id = s)

/-- R352: a poll of a wait that holds completes it, one that does not leaves everything; a fault of a read completes it with status 6. A part of a
packet's copy is read, and then moves the bytes of one 64-byte block of its destination, which leave what is left to do; the last completes it. A
read or a write of a part that faults completes it with status 6.
Model's choices it rests on: log entries 38, 90. -/
def Sys2Proof.Claims.WaitsAndPacketCopiesAdvance : Prop :=
  (∀ (s : State) id j cs all, s.job? id = some j → j.kind = .wait cs all →
    let i := { j with seen := unionOf (j.seen :: cs.map (fun c => s.vobserved j.ctxid c.1 8)) }
    let t := s.modJob id (fun x => { x with seen := i.seen })
    (∀ bs, t.condsOf j.ctxid cs = some bs →
      exec (.barrierPacketPoll id) s = .next (if (all = true ∧ ∀ b ∈ bs, b = true) ∨ (all = false ∧ ∃ b ∈ bs, b = true) then t.jobDone i 0 0 0 0 else t))
    ∧ (t.condsOf j.ctxid cs = none → exec (.barrierPacketPoll id) s = .next (t.jobDone i 6 0 0 0)))
  ∧ (∀ (s : State) op b j c r, PacketCopies s op j c → rangeAt b c.unread = some r →
    let p := readAt c r b
    let u := inCopy s op j
    (∀ ks, u.vkeys j.ctxid kRead ((c.src + p.1) % 2 ^ 64) p.2 = .ok ks →
      exec (.copyPart op b) s = leaves s (u.copyGoes j op (c.take p (runsDie ks) (u.runBytes ks))))
    ∧ (∀ f, u.vkeys j.ctxid kRead ((c.src + p.1) % 2 ^ 64) p.2 = .error f →
      exec (.copyPart op b) s = leaves s (u.jobDone { j with seen := addAll j.seen u.actSeen } 6 0 0 0)))
  ∧ (∀ (s : State) op b j c p, PacketCopies s op j c → PartWaits c b p →
    let u := inCopy s op j
    (∀ ks, u.vkeys j.ctxid kWrite ((c.dst + p.1) % 2 ^ 64) p.2 = .ok ks →
      (c.crosses p (runsDie ks) = true → u.bridgeShut (runsDie ks) c.tried = false) →
      exec (.copyPart op b) s = leaves s ((u.wrRunsMarked ks (c.bytes p)).copyGoes j op (c.accept p)))
    ∧ (∀ f, u.vkeys j.ctxid kWrite ((c.dst + p.1) % 2 ^ 64) p.2 = .error f →
      exec (.copyPart op b) s = leaves s (u.jobDone { j with seen := addAll j.seen u.actSeen } 6 0 0 0)))
  ∧ (∀ (s : State) j op c, s.copyGoes j op c = if c.left = [] then s.jobDone { j with seen := addAll j.seen s.actSeen } 0 0 0 0 else s.modJob j.id (fun j => { j with kind := .copy op c }))
  ∧ (∀ (c : CpOp) p b, PartWaits c b p → c.fn = 7 → cpDk c.ctl ≠ 1 → inAperture (c.dst + b) = false →
      (c.dst + p.1) / 64 = (c.dst + p.1 + p.2 - 1) / 64)

/-- R241 to R243: a step whose timeout passes from its first arrival ends: the crews that had arrived return with bit 62; before that, or without
a timeout, nothing happens. -/
def Sys2Proof.Claims.StepsTimeOut : Prop :=
  ∀ (s : State) g x l t0, s.steps.find? (fun x => decide (x.g = g)) = some x → x.launch = some l → x.first = some t0 →
    (x.timeout ≠ 0 → t0 + x.timeout ≤ s.dtime →
      let back := (s.launchCrews l).filter (s.crewIs (fun k => k.arrived && decide (k.stepNo = x.step)))
      exec (.stepTimeout g) s = .next ((back.foldl (fun t c => t.stepReturn c (BitVec.ofNat 64 (2 ^ 62)) (s.stepSeen x back)) s).nextStep g l))
    ∧ (x.timeout = 0 ∨ s.dtime < t0 + x.timeout → exec (.stepTimeout g) s = .next s)

/-- R84 to R87, R350: crews are placed and end.
Model's choices it rests on: log entries 40, 41, 42, 98. -/
def Obligations.CrewsArePlacedAndEnd : Prop := Claims.CrewsArePlaced ∧ Claims.CrewsEndAndLaunchesComplete

/-- R241, R352: waits, copies of packets, steps that time out.
Model's choices it rests on: log entries 25, 38, 44, 45, 48, 90, 115. -/
def Obligations.WaitsCopiesAndStepsAdvance : Prop := Claims.WaitsAndPacketCopiesAdvance ∧ Claims.StepsTimeOut

namespace Sys2Proof.Claims
open Sys2Proof.Machine

/-- A KVGATHER in flight whose crew is not saved and whose issuers' earlier accesses are performed (R217, R311, R312). -/
def Gathering (s : State) (id : Nat) (o : Op) (g : KvGather) (k : Crew) : Prop :=
  s.op? id = some o ∧ o.eng = some (.kg g) ∧ s.crews[o.crew]? = some k ∧ k.st ≠ .saved ∧ s.forked o = true

/-- The delivered offsets that lie on the lines `ls`. -/
def offsetsOn (k : Crew) (g : KvGather) (ls : List Nat) : List Nat :=
  (kgOffsets g.pool g.tr (g.lanes.map Prod.fst)).filter (fun f => ls.contains (kgSpot k g f / 128))

/-- A KVAPPEND in flight whose crew is not saved (R313). -/
def Appending (s : State) (id : Nat) (o : Op) (a : KvAppend) (k : Crew) : Prop :=
  s.op? id = some o ∧ o.eng = some (.ka a) ∧ s.crews[o.crew]? = some k ∧ k.st ≠ .saved ∧ s.forked o = true

end Sys2Proof.Claims

/-- R14, R217, R218, R283, R311 to R313, R317, R380: a gather reads the rows of its lanes; then its lines land with their bytes and poison; then
they count on the barrier, and the last one ends the gather and lets its frames go; a frame beyond its memory settles what has not landed. A quantized
row lands in its frame once that is RESIDENT, FILL grows to its offset, and it counts on the barrier. Bytes that cross the bridge are requests at the
Iris of the die that they go to, and are sent again later where that can take none.
Model's choices it rests on: log entries 36, 90. -/
def Sys2Proof.Claims.GatheredLinesAndAppendedRowsLand : Prop :=
  (∀ (s : State) id o g k, Gathering s id o g k →
    let u := inThread s o
    (kgBeyond u g = false →
      (∀ i f, i ∈ g.unread → g.lane? i = some (0, f) →
        exec (.kvgatherDelivery id i) s = leaves s (u.modOp o.id (fun o => { o with eng := some (.kg { g with rows := (i, kgRow u o.crew k g i f) :: g.rows }) })))
      ∧ (∀ line i is f, g.unread = i :: is → line ∉ g.unread → g.lane? i = some (0, f) →
        exec (.kvgatherDelivery id line) s
          = leaves s (u.modOp o.id (fun o => { o with eng := some (.kg { g with rows := (i, kgRow u o.crew k g i f) :: g.rows }) })))
      ∧ (∀ line, g.unread = [] → line ∈ g.left → (kgCrosses u k g line = true → u.bridgeShut k.die g.tried = false) →
        let t := ((u.noteSp o.crew (128 * line) 128 none).modCrew o.crew (fun q =>
          q.spScatter ((offsetsOn k g [line]).map (fun f => (kgSpot k g f, kgByte g f))))).landLines o.crew [line]
        exec (.kvgatherDelivery id line) s = leaves s (t.modOp o.id (fun o =>
          { o with eng := some (.kg { g with left := g.left.filter (fun l => decide (l ≠ line)), owed := line :: g.owed, tried := none }) })))
      ∧ (∀ line, g.unread = [] → line ∈ g.left → kgCrosses u k g line = true → u.bridgeShut k.die g.tried = true →
        exec (.kvgatherDelivery id line) s = leaves s (u.modOp o.id (fun o => { o with eng := some (.kg { g with tried := u.triedAt g.tried }) })))
      ∧ (∀ line, g.unread = [] → g.left = [] → line ∈ g.owed →
        let t := u.kvBarUpd o.crew g.bar (.land (offsetsOn k g [line]).length)
        ((∀ l ∈ g.owed, l = line) → exec (.kvgatherDelivery id line) s = leaves s ((t.endEng o none).dropHolds g.die (kgFrames g.lanes)))
        ∧ ((∃ l ∈ g.owed, l ≠ line) → exec (.kvgatherDelivery id line) s
            = leaves s (t.modOp o.id (fun o => { o with eng := some (.kg { g with owed := g.owed.filter (fun l => decide (l ≠ line)) }) }))))
      ∧ (∀ line, g.unread = [] → line ∉ g.left → (g.left ≠ [] ∨ line ∉ g.owed) → exec (.kvgatherDelivery id line) s = .next s))
    ∧ (kgBeyond u g = true → ∀ line, exec (.kvgatherDelivery id line) s
        = leaves s ((((g.owed.foldl (fun s l => s.kvBarUpd o.crew g.bar (.land (offsetsOn k g [l]).length))
          ((u.landLines o.crew g.left).modCrew o.crew (fun k => k.cpRecord 1 0 0))).kvBarUpd o.crew g.bar
          (.settle (offsetsOn k g g.left).length 66)).endEng o (some 1)).dropHolds g.die (kgFrames g.lanes))))
  ∧ (∀ (s : State) id o a k, Appending s id o a k → feState (s.frEnt a.die a.frame) = 1 →
    let die := keyDie (s.frBase a.die a.frame)
    ((k.die ≠ die → s.bridgeShut die a.tried = false) →
      let t := ((inThread s o).wrL (s.frBase a.die a.frame + a.addr) a.row).modFr a.die a.frame (fun e =>
        let e1 := setBits e 8 0 (max (feFill e) (a.off + 1))
        if a.clip then setBits e1 32 32 1 else e1)
      exec (.kvappendWrite id) s = leaves s ((((if a.clip then t.countClip a.seq else t).kvBarUpd o.crew a.bar (.land a.row.length)).endEng o none).dropHolds
        a.die [a.frame]))
    ∧ (k.die ≠ die → s.bridgeShut die a.tried = true →
        exec (.kvappendWrite id) s = .next (s.modOp id (fun o => { o with eng := some (.ka { a with tried := s.triedAt a.tried }) }))))
  ∧ (∀ (s : State) id o a k, Appending s id o a k → feState (s.frEnt a.die a.frame) ≠ 1 → exec (.kvappendWrite id) s = .next s)

/-- R310: a page wait that outlasts PGWAIT ends: KVGATHER and KVAPPEND trap with PAGE_WAIT_TIMEOUT, PGREQ answers 7; a limit of 0 never passes, and
a page that has come, or a wait for something else, has no limit. -/
def Sys2Proof.Claims.PageWaitsTimeOut : Prop :=
  ∀ (s : State) t e p, s.env? t (baseHdr 0) = some e → s.pgWaits.find? (fun p => decide (p.who = t ∧ p.pc = e.pc)) = some p →
    (s.pgAwaited p = true → e.k.pgwait ≠ 0 → p.since + 1000 * e.k.pgwait.toNat ≤ s.dtime → p.kind ≠ 2 →
      exec (.pageWaitTimeout t) s = .next (((s.pgDrop t e.pc).raise e
        ⟨10, BitVec.ofNat 64 (p.kind * 2 ^ 56 + p.lane * 2 ^ 40 + p.frame % 2 ^ 32), none, 0⟩).ctxSettle t))
    ∧ (s.pgAwaited p = true → e.k.pgwait ≠ 0 → p.since + 1000 * e.k.pgwait.toNat ≤ s.dtime → p.kind = 2 →
      exec (.pageWaitTimeout t) s = .next ((((s.pgDrop t e.pc).setS t p.lane 7).jump e (e.pc + 4)).ctxSettle t))
    ∧ (s.pgAwaited p = false ∨ e.k.pgwait = 0 ∨ s.dtime < p.since + 1000 * e.k.pgwait.toNat → exec (.pageWaitTimeout t) s = .next s)
    ∧ (p.paused = true → s.pgAwaited p = false)
    ∧ (p.paused = false → p.frame ≠ noFrame → (s.pgAwaited p = true ↔
        feState (s.frEnt p.die p.frame) = 3 ∨ feState (s.frEnt p.die p.frame) = 4 ∨ s.copySource p.die p.frame = true))

/-- A page copy into a frame of the die needs no more tries at the bridge (R380). -/
def Sys2Proof.Claims.sentOver (s : State) (die dst : Nat) : State :=
  s.modDie die (fun d => { d with tries := d.tries.filter (fun t => decide (t.1 ≠ dst)) })

/-- R294, R302, R304 to R307, R440: the page engine starts to evict below LOWAT the RESIDENT, unpinned, owned and unheld HBM4 frame of the lowest LRU
and number; copies end by moving the page to its new frame, whose owner's entry then names it; the end of a copy-on-write also brings FILL and CLIP.
Model's choices it rests on: log entries 29, 31, 32, 33, 34, 38, 90. -/
def Obligations.PagesMoveBetweenTiers : Prop :=
  (∀ (s : State) die f g, s.freeOutside die < (s.pe die).lowat → s.victim die = some f → s.pick (s.freeFrames die 2) = some g →
    exec (.evictionStart die) s = .next { ((s.setFr die f (setBits (setBits (s.frEnt die f) 35 33 2) 159 128 g)).setFr die g
      (setBits (setBits 0 35 33 2) 159 128 f)) with free := s.free + 1 })
  ∧ (∀ (s : State) die f, s.victim die = some f → s.evictable die f = true ∧ f ∈ (s.pe die).frames die die
      ∧ (∀ g ∈ (s.pe die).frames die die, s.evictable die g = true →
          feLru (s.frEnt die f) < feLru (s.frEnt die g) ∨ (feLru (s.frEnt die f) = feLru (s.frEnt die g) ∧ f ≤ g)))
  ∧ (∀ (s : State) die, (s.pe die).lowat ≤ s.freeOutside die → exec (.evictionStart die) s = .next s)
  ∧ (∀ (s : State) die f, ((s.pe die).range? die f).isSome = true → frTier f = die → feState (s.frEnt die f) = 2 → s.frHeld die f = false →
    (Claims.inWork s []).pageShut die f (feBack (s.frEnt die f)) = false →
    exec (.evictionCopyEnd die f) s
      = Claims.leaves s (Claims.sentOver ((Claims.inWork s []).movePage die f (feBack (s.frEnt die f))) die (feBack (s.frEnt die f))))
  ∧ (∀ (s : State) die g, ((s.pe die).range? die g).isSome = true → frTier g = die → feState (s.frEnt die g) = 3 → frTier (feBack (s.frEnt die g)) = 2 →
    (Claims.inWork s []).pageShut die (feBack (s.frEnt die g)) g = false →
    exec (.fetchCopyEnd die g) s
      = Claims.leaves s (Claims.sentOver (((Claims.inWork s []).movePage die (feBack (s.frEnt die g)) g).xferDone die g) die g))
  ∧ (∀ (s : State) die g f, ((s.pe die).range? die g).isSome = true → frTier g = die → feState (s.frEnt die g) = 3 → f = feBack (s.frEnt die g) →
    frTier f ≠ 2 → ((s.pe die).range? die f).isSome = true →
    let t := (Claims.inWork s []).copyPage die f g
    let e := setBits (setBits (t.frEnt die g) 8 0 (feFill (s.frEnt die f))) 32 32 (bits (s.frEnt die f) 32 32)
    exec (.copyOnWriteEnd die g) s = Claims.leaves s ((((t.setFr die g (feMoved e (feLost e))).reFix die g).frSettle die f).frSettle die g))

/-- R310 to R313: gathered lines, appended rows, and page waits that run out.
Model's choices it rests on: log entries 29, 35, 36, 90, 101, 102. -/
def Obligations.PageEngineDelivers : Prop := Claims.GatheredLinesAndAppendedRowsLand ∧ Claims.PageWaitsTimeOut

namespace Sys2Proof.Claims
open Sys2Proof.Machine

/-- The runnable records of a group in the order of R329: earliest deadline, 0 last, then priority, then index. -/
def inBatchOrder (s : State) (die g : Nat) : List Nat :=
  (((s.groupSlots die g).map (s.recOf die)).filter runnable).foldl (fun acc r => seqInsert r acc) []

/-- The state once prompts have been read, and the entries of the next iteration with their output rows: after the sweep, the decode entries, at most
as many as the budget, then as much of the prompts as the budget left takes, each from the next whole group of slots (R329, R330). -/
def batchOf (s : State) (die g : Nat) : State × List (BatchEnt × Option Nat) :=
  let t := s.sweep die g
  let d := s.group die g
  let rs := inBatchOrder t die g
  let ds := decodeEnts ((rs.filter (fun r => decide (rcState r = 3))).take (grpBudget d))
  let q := State.prefillEnts die d (rs.filter (fun r => decide (rcState r = 2))) t (grpBudget d - ds.length)
    (alignUp ds.length (grpG d))
  (q.1, outRows 0 (ds ++ q.2))

/-- A group forms its next iteration now: it is ready, no lower group is, and the die's firmware serves (R329). -/
def Forms (s : State) (die g : Nat) : Prop :=
  s.groupReady die g = true ∧ (∀ h < g, s.groupReady die h = false) ∧ s.serves die = true

/-- The iteration has begun: its number taken, its entries listed, none fed back. -/
def begun (t : State) (die g : Nat) (es : List (BatchEnt × Option Nat)) : State :=
  t.modIter die g (fun i => { i with n := i.n + 1, opn := true, job := none, result := none, graphAt := none
                                     ents := es.map (fun e => ⟨e.1.seq, e.1.pos0, e.1.toks.length, e.2, false⟩) })

end Sys2Proof.Claims

/-- R322, R329 to R333: a ready group forms an iteration: the sweep, the entries, the batch table at the buffer of its parity, then its graph, whose
argument is the table, and whose work comes after the scheduler's writes; without an entry none begins; a table that cannot be written ends it at once,
with FAULT on the control barrier.
Model's choices it rests on: log entries 53, 54, 90. -/
def Obligations.BatchesForm : Prop :=
  ∀ (s : State) die g,
    let u := s.schedBegin die []
    let t := (batchOf u die g).1
    let es := (batchOf u die g).2
    let d := u.group die g
    let n := (t.iterOf die g).n
    (Forms u die g → es = [] → exec (.batchFormation die g) s = .next (t.schedEnd s die))
    ∧ (∀ v, Forms u die g → es ≠ [] → (begun t die g es).wrParts (grpCtx d) (batchParts g d (grpBtb d n) n s.dtime es) = some v →
      exec (.batchFormation die g) s = .next (((v.modIter die g (fun i => { i with job := some v.nextJob })).beginGraph
        { id := v.nextJob, queue := none, index := 0, ctxid := grpCtx d, die := die, tag := 0, cq := false, compl := 0, parent := none
          iter := some (die, g), opn := false, kind := .wait [] true, seen := v.actor.past } (grpGraph d) (BitVec.ofNat 64 (grpBtb d n)) 0).schedEnd s die))
    ∧ (Forms u die g → es ≠ [] → (begun t die g es).wrParts (grpCtx d) (batchParts g d (grpBtb d n) n s.dtime es) = none →
      exec (.batchFormation die g) s
        = .next (((((begun t die g es).ctlArrive die g true).endIter die g true).event die 0 .badTable (grpBtb d n) false).schedEnd s die))
    ∧ (u.groupReady die g = false → exec (.batchFormation die g) s = .next (u.schedEnd s die))

/-- R322, R326, R329, R332, R333, R339: a sweep retires what is cancelled or late while no iteration is open; the end of a graph arrives on the control
barrier, with FAULT and the end of the iteration where it failed; an iteration ends once every output row is fed back, or once the feedback wait passes;
an INBOUND sequence that is due is withdrawn. What a scheduler does comes after its earlier steps, and a step that does nothing leaves the package as it
is.
Model's choices it rests on: log entries 52, 55, 58, 90, 105. -/
def Obligations.IterationsEnd : Prop :=
  (∀ (s : State) die g, (s.iterOf die g).opn = false → grpV (s.group die g) = true → s.serves die = true →
    exec (.sequenceSweep die g) s = .next (((s.schedBegin die []).sweep die g).schedEnd s die))
  ∧ (∀ (s : State) die, (s.schedBegin die []).schedEnd s die = s)
  ∧ (∀ (s : State) die g, (∀ k ∈ s.groupSlots die g, rcState (s.recOf die k) = 1 ∨ s.due (s.recOf die k) = false) → s.sweep die g = s)
  ∧ (∀ (s : State) die g, s.sweep die g = (s.groupSlots die g).foldl (fun t k =>
      if rcState (t.recOf die k) ≠ 1 ∧ t.due (t.recOf die k) = true
        then (({ t with free := t.free + 1 } : State).retire die k (t.sweepRsn (t.recOf die k))).1 else t) s)
  ∧ (∀ (s : State) r, (s.due r = true ↔ rcCancel r = true ∨ (rcDeadline r ≠ 0 ∧ rcDeadline r ≤ s.dtime))
      ∧ (rcCancel r = false → s.sweepRsn r = 4)
      ∧ (rcCancel r = true → (rcDeadline r = 0 ∨ s.dtime < rcDeadline r) → s.sweepRsn r = 5)
      ∧ (s.sweepRsn r = 4 ∨ s.sweepRsn r = 5))
  ∧ (∀ (s : State) die g, (s.iterOf die g).opn = true ∨ s.serves die = false → exec (.sequenceSweep die g) s = .next s)
  ∧ (∀ (s : State) die g,
      let u := s.schedBegin die []
      let i := s.iterOf die g
      let back := (u.modIter die g (fun i => { i with result := none, graphAt := some s.dtime }))
      (i.opn = true → i.result = some 0 → exec (.iterationGraphComplete die g) s = .next ((back.ctlArrive die g false).schedEnd s die))
      ∧ (∀ st, i.opn = true → i.result = some st → st ≠ 0 →
        exec (.iterationGraphComplete die g) s = .next (((back.ctlArrive die g true).endIter die g true).schedEnd s die))
      ∧ (∀ t, i.opn = true → i.graphAt = some t →
        (∀ x ∈ i.ents, x.fed = true ∨ x.row = none ∨ u.live? x.seq = none ∨ ∃ r, u.live? x.seq = some r ∧ rcState r = 4) →
        exec (.iterationEnd die g) s = .next ((u.endIter die g false).schedEnd s die))
      ∧ (∀ x r, x ∈ i.ents → x.fed = false → x.row.isSome = true → u.live? x.seq = some r → rcState r ≠ 4 →
        exec (.iterationEnd die g) s = .next (u.schedEnd s die))
      ∧ (∀ t, i.opn = true → i.graphAt = some t → grpFbwait (u.group die g) ≠ 0 →
        exec (.feedbackWaitExpiry die g) s
          = .next ((if t + grpFbwait (u.group die g) ≤ s.dtime then u.endIter die g false else u).schedEnd s die))
      ∧ (grpFbwait (u.group die g) = 0 → exec (.feedbackWaitExpiry die g) s = .next (u.schedEnd s die)))
  ∧ (∀ (s : State) die slot, s.due (s.recOf die slot) = true →
      exec (.inboundWithdraw die slot) s = .next (((s.schedBegin die []).withdrawInbound die slot).schedEnd s die))
  ∧ (∀ (s : State) die slot, s.due (s.recOf die slot) = false → exec (.inboundWithdraw die slot) s = .next s)

namespace Sys2Proof.Claims
open Sys2Proof.Machine

/-- The queue's core takes its next packet, `p`, now (R348, R353, R354). -/
def NextPacket (s : State) (q : Nat) (x : Queue) (p : Nat) : Prop := s.queue? q = some x ∧ s.packetOf x = some p ∧ s.picked x = true

/-- The packets with their types and their effects on a job (R346, R350, R352). -/
inductive PacketRow (q : Nat) : Instr → Nat → (State → Job → Nat → State) → Prop where
  | launch (h : q < 2 ^ 15) : PacketRow q (.launchPacket q) 1 (fun s j p =>
      match s.beginLaunch j p (pkNcrews p) [] with | .ok t => t | .error st => s.finishJob j st 0 0 0)
  | graph : PacketRow q (.graphPacket q) 2 (fun s j p => s.beginGraph j (bits p 511 448) (BitVec.ofNat 64 (bits p 447 384)) (pkDeadline p))
  | signal : PacketRow q (.signalPacket q) 3 (fun s j p =>
      match (inWork s j.seen).signal j.ctxid p with
      | some t => ({ t with actor := s.actor } : State).finishJob { j with seen := t.actor.past } 0 0 0 0
      | none => s.finishJob j 6 0 0 0)
  | barrierAnd : PacketRow q (.barrierAnd q) 4 (fun s j p => s.addJob { j with opn := true, kind := .wait (pkConds p) true })
  | barrierOr : PacketRow q (.barrierOr q) 5 (fun s j p => s.addJob { j with opn := true, kind := .wait (pkConds p) false })
  | copy : PacketRow q (.copyPacket q) 6 (fun s j p =>
      if bits p 383 344 = 0 then s.finishJob j 0 0 0 0
      else ({ s with nextOp := s.nextOp + 1 } : State).addJob
        { j with kind := .copy s.nextOp (hostCp (bits p 511 448) (bits p 447 384) (bits p 383 344)) })
  | seqin : PacketRow q (.seqadmit q) 7 (fun s j p =>
      let die := bits p 447 447
      let u := s.schedBegin die j.seen
      let fin := fun (t : State) => (t.schedEnd s die).finishJob { j with seen := t.actor.past }
      match u.vrd j.ctxid (bits p 511 448) 128 with
      | none => fin u 8 0 5 0
      | some b => match u.enterSeq j.ctxid die b with
        | .ok r => fin r.1 0 r.2 0 0
        | .error st => fin u 8 0 (-st).toNat 0)
  | cancel : PacketRow q (.seqcancel q) 8 (fun s j p =>
      let id := bits p 511 480
      let u := s.schedBegin (sqDie id) j.seen
      let fin := fun (t : State) => (t.schedEnd s (sqDie id)).finishJob { j with seen := t.actor.past }
      if (u.live? id).isSome then fin (u.cancelSeq id) 0 0 0 0 else fin u 9 0 0 0)

/-- What happens before a packet's work: what its queue's core has acquired, and for an ORD packet or a SIGNAL what the packets before it did
(R343, R345, R352). -/
def seenBefore (x : Queue) (p : Nat) : List Nat := if pkOrd p = true ∨ bits p 7 0 = 3 then addAll x.seen x.done else x.seen

/-- The job that a packet begins with: its queue and index, context, serving die, and what its header asks for (R345, R347). -/
def jobOf (s : State) (x : Queue) (p : Nat) : Job :=
  { id := s.nextJob, queue := some x.qid, index := x.head, ctxid := x.ctxid, die := x.server, tag := bits p 47 32
    cq := pkCq p && decide (bits p 191 128 % 16 = 0), compl := bits p 191 128, parent := none, iter := none, opn := false, kind := .wait [] true
    seen := seenBefore x p }

/-- The queue after its core has taken a packet: HEAD moves on and the round robin stands behind the queue (R348). -/
def taken (s : State) (x : Queue) (p : Nat) : State :=
  (s.modQueue x.qid (fun x => { x with head := x.head + 1, seen := seenBefore x p })).modDie x.server (fun d => { d with rr := modAt d.rr (x.qid % 4) (fun _ => x.qid + 1) })

end Sys2Proof.Claims

/-- R345 to R354, R427: the next packet of a queue is taken and does what its type says, or, past its deadline, completes with status 1 and does nothing
else; a malformed one completes with status 2; a read that faults, and a packet whose fields leave the queue's capability, put the queue into ERROR with
a record of status 10.
Model's choices it rests on: log entries 43, 45, 46, 47, 59, 60, 90, 113, 114, 115. -/
def Obligations.QueuesDispatchPackets : Prop :=
  (∀ q i ty f, PacketRow q i ty f → ∀ s x p, NextPacket s q x p → x.capFits p = true → packetOk p = true → bits p 7 0 = ty →
    (bits p 127 64 = 0 ∨ s.dtime < bits p 127 64 → exec i s = .next (f (taken s x p) (jobOf s x p) p))
    ∧ (bits p 127 64 ≠ 0 → bits p 127 64 ≤ s.dtime → exec i s = .next ((taken s x p).finishJob (jobOf s x p) 1 0 0 0)))
  ∧ (∀ q i ty f, PacketRow q i ty f → ∀ (s : State) x p, s.queue? q = some x → s.packetOf x = some p → bits p 7 0 ≠ ty → exec i s = .next s)
  ∧ (∀ s q x p, NextPacket s q x p → x.capFits p = true → packetOk p = false →
    exec (.malformedPacket q) s = .next (
      let t := (taken s x p).finishJob (jobOf s x p) 2 0 0 0
      if pkCq p = true ∧ bits p 191 128 % 16 ≠ 0 then t.event x.server 0 .misaligned (q * 2 ^ 64 + x.head) false else t))
  ∧ (∀ (s : State) q x, s.queue? q = some x → s.picked x = true → s.packetOf x = none →
    exec (.queueError q) s
      = leaves s ((inWork (s.modQueue q (fun x => { x with st := .error })) x.seen).complete x.ctxid x.err (complRecord 0 x.head 0 x.qid 0 0 10)))
  ∧ (∀ s q x p, NextPacket s q x p → x.capFits p = false →
    exec (.capFault q) s
      = leaves s ((inWork (s.modQueue q (fun x => { x with st := .error })) x.seen).complete x.ctxid x.err (complRecord 0 x.head 0 x.qid 0 0 10)))
  ∧ (∀ s q x p, NextPacket s q x p → x.capFits p = true → exec (.capFault q) s = .next s)
  ∧ (∀ (x : Queue) p a n w, (a, n, w) ∈ pkAccesses p → packetOk p = true → x.capFits p = true →
    x.cap.valid = true ∧ x.cap.base ≤ a ∧ a + n ≤ x.cap.base + x.cap.len ∧ (if w then x.cap.write else x.cap.read) = true)
  ∧ (∀ (s : State) die w t, s.serves die = true → s.grid? die = some w → s.packetLate w.key.toNat = false →
    (s.modDie die (fun d => { d with devq := d.devq.tail })).beginLaunch
      { id := s.nextJob, queue := none, index := 0, ctxid := w.ctxid, die := die, tag := 0, cq := false, compl := 0, parent := none
        iter := none, opn := false, kind := .wait [] true, seen := [] } w.key.toNat (w.kids.length * pkNcrews w.key.toNat) w.kids = .ok t →
    exec (.launchPacket (2 ^ 15 + die)) s = .next t)

/-- R342, R343, R362 to R364: a doorbell within the ring's length moves TAIL, as an acquire, one beyond it puts the queue into OVERRUN with a record of status 7; RDIDX
moves only forward and not past WRIDX; OVF is cleared; a ring's interrupt is sent once its time has passed. Before READY none of the registers answers. -/
def Sys2Proof.Claims.HostRegistersOfQueuesAndRings : Prop :=
  (∀ (s : State) q (w : W64) x, s.bar2 = true → s.queue? q = some x → x.st = .active →
    exec (.queueDoorbell q w) s = .next (if x.tail ≤ w.toNat ∧ w.toNat - x.head ≤ 2 ^ x.logn then s.modQueue q (fun x => { x with tail := w.toNat, seen := addAll x.seen s.hostSeen })
      else { (inWork (s.modQueue q (fun x => { x with st := .overrun })) x.seen).complete x.ctxid x.err (complRecord w.toNat x.tail 0 x.qid 0 0 7) with
        actor := s.actor }))
  ∧ (∀ (s : State) q (w : W64) x, s.queue? q = some x → x.st ≠ .active → exec (.queueDoorbell q w) s = .next s)
  ∧ (∀ (s : State) id (v : W64) r, s.bar2 = true → s.ring? id = some r →
    ∃ t, exec (.rdidx id v) s = .next t ∧ t.mem = s.mem
      ∧ t.ring? id = some (if r.rd ≤ v.toNat ∧ v.toNat ≤ r.wr then { r with rd := v.toNat } else r)
      ∧ (∀ x ≠ id, t.ring? x = s.ring? x))
  ∧ (∀ (s : State) id r, s.bar2 = true → s.ring? id = some r →
    ∃ t, exec (.ovf id) s = .next t ∧ t.mem = s.mem ∧ t.ring? id = some { r with ovf := false } ∧ (∀ x ≠ id, t.ring? x = s.ring? x))
  ∧ (∀ (s : State) id r, s.ring? id = some r → r.pend ≠ 0 → r.time ≠ 0 → r.first + r.time ≤ s.dtime →
    ∃ t, exec (.ringInterruptTimer id) s = .next t ∧ t.msix = s.msix.set r.vec 1 ∧ t.ring? id = some { r with pend := 0 })
  ∧ (∀ (s : State) id r, s.ring? id = some r → (r.pend = 0 ∨ r.time = 0 ∨ s.dtime < r.first + r.time) → exec (.ringInterruptTimer id) s = .next s)
  ∧ (∀ (s : State) q (w : W64), s.bar2 = false →
    exec (.queueDoorbell q w) s = .next s ∧ exec (.rdidx q w) s = .next s ∧ exec (.ovf q) s = .next s)

/-- R354, R357: an idle die asks for a queue, the owner hands over one whose next packet is a LAUNCH with DIES 0, and it returns once nothing more of it
may be served there; a window of children closes 40 ns after it opened. -/
def Sys2Proof.Claims.QueuesAreStolenAndWindowsClose : Prop :=
  (∀ (s : State) die d, s.dies[1 - die]? = some d → s.serves die = true → s.runListsEmpty die = true → s.freeCore die = true →
    exec (.stealRequest die) s = .next (if d.steals < 64 then s.modDie (1 - die) (fun d => { d with steals := d.steals + 1 }) else s))
  ∧ (∀ (s : State) die, s.runListsEmpty die = false → exec (.stealRequest die) s = .next s)
  ∧ (∀ (s : State) q x d p, s.queue? q = some x → s.dies[qHome q]? = some d → x.stolen = false → 0 < d.steals → s.serves (qHome q) = true →
    x.listed = true → s.dispatchEnded q = true → s.packetOf x = some p → bits p 7 0 = 1 → bits p 245 244 = 0 →
    exec (.queueHandover q) s = .next ((s.modQueue q (fun x => { x with stolen := true })).modDie (qHome q) (fun d => { d with steals := d.steals - 1 })))
  ∧ (∀ (s : State) q x p, s.queue? q = some x → s.packetOf x = some p → (bits p 7 0 ≠ 1 ∨ bits p 245 244 ≠ 0) → exec (.queueHandover q) s = .next s)
  ∧ (∀ (s : State) q x, s.queue? q = some x → x.stolen = true → s.dispatchEnded q = true →
    (x.listed = false ∨ ∃ p, s.packetOf x = some p ∧ (bits p 7 0 ≠ 1 ∨ bits p 245 244 ≠ 0)) →
    exec (.queueReturn q) s = .next (s.modQueue q (fun x => { x with stolen := false })))
  ∧ (∀ (s : State) die d win w, s.dies[die]? = some d → d.aggs[win]? = some w → w.opened + 40 ≤ s.dtime →
    ∃ t, exec (.aggregatorWindowClose die win) s = .next t ∧ t.dies[die]? = some { d with aggs := d.aggs.eraseIdx win, devq := d.devq ++ [w] })
  ∧ (∀ (s : State) die d win w, s.dies[die]? = some d → d.aggs[win]? = some w → s.dtime < w.opened + 40 →
    ∃ t, exec (.aggregatorWindowClose die win) s = .next t ∧ t.dies[die]? = some d)

/-- R343, R354, R357, R362 to R364: doorbells, rings, stolen queues, windows of children.
Model's choices it rests on: log entries 49, 61, 90, 94, 103, 104, 115. -/
def Obligations.HostRegistersStealingAndWindows : Prop := Claims.HostRegistersOfQueuesAndRings ∧ Claims.QueuesAreStolenAndWindowsClose

namespace Sys2Proof.Claims
open Sys2Proof.Machine

/-- Argument `k` of a command record (R344). -/
def cmdArg (r k : Nat) : Nat := bits r (127 + 64 * k) (64 + 64 * k)

/-- The next record of a die's management ring is `r`, a command with code `c` and its reserved fields 0 (R344, R462). -/
def NextCmd (s : State) (die c r : Nat) : Prop :=
  s.cmdNext die = some (some r) ∧ bits r 7 0 = c ∧ bits r 15 8 = 0 ∧ bits r 63 32 = 0

/-- MRHEAD has moved past the record (R462). -/
def headOn (s : State) (die : Nat) : State := s.modDie die (fun d => { d with mrhead := d.mrhead + 1 })

/-- The command completes: its record, with TAG and a status, goes to the address of argument 6 (R344, R347). -/
def answers (t : State) (die r st : Nat) : State := t.cmdRecord die (cmdArg r 6) (bits r 31 16) st 0

/-- The commands whose effect is whole at once: code, what their arguments must be, and the effect (R344). -/
inductive CmdRow (die : Nat) : Instr → Nat → (State → (Nat → Nat) → Prop) → (State → (Nat → Nat) → State) → Prop where
  | qcreate : CmdRow die (.qcreate die) 1
      (fun s a => a 0 < 2 ^ 15 ∧ qHome (a 0) = die ∧ a 1 % 4096 = 0 ∧ 4 ≤ bits (a 2) 4 0 ∧ bits (a 2) 4 0 ≤ 16 ∧ bits (a 2) 7 5 = 0 ∧ a 2 < 2 ^ 11
        ∧ a 3 < 2 ^ 32 ∧ a 4 % 16 = 0 ∧ s.queue? (a 0) = none)
      (fun s a => { s with queues := s.queues ++ [{ qid := a 0, st := .active, stolen := false, base := a 1, logn := bits (a 2) 4 0
                                                    prio := bits (a 2) 10 8, ctxid := a 3, err := a 4, head := 0, tail := 0
                                                    cap := queueCap (a 0) (a 1) (bits (a 2) 4 0) (a 3), seen := [], done := [] }] })
  | qreset : CmdRow die (.qreset die) 3
      (fun s a => a 0 < 2 ^ 15 ∧ qHome (a 0) = die ∧ (∃ x, s.queue? (a 0) = some x ∧ (x.st = .overrun ∨ x.st = .error)) ∧ s.dispatchEnded (a 0) = true)
      (fun s a => s.modQueue (a 0) (fun x => { x with st := .active, head := a 1, tail := a 1 }))
  | ctxset : CmdRow die (.ctxset die) 4
      (fun _ a => a 0 ≠ 0 ∧ a 0 < 2 ^ 32 ∧ bits (a 1) 2 0 ≤ 2 ∧ bits (a 1) 63 52 = 0 ∧ bits (a 1) 14 3 = 0
        ∧ bits (a 1) 51 15 * 2 ^ 15 + 2 ^ 15 ≤ tgtSize (bits (a 1) 2 0))
      (fun s a => { s with roots := s.roots.set (a 0) (BitVec.ofNat 64 (memKey (bits (a 1) 2 0) (bits (a 1) 51 15 * 2 ^ 15) + 1)) })
  | sgassign : CmdRow die (.sgassign die) 8
      (fun _ a => a 0 < 2 ^ 9 ∧ a 0 / 2 ^ 8 = die ∧ a 1 < 2 ^ 32 ∧ a 2 ≤ 1000000)
      (fun s a => if s.steps.any (fun g => decide (g.g = a 0)) then s.modStep (a 0) (fun g => { g with ctxid := a 1, timeout := a 2 * 1000 })
        else { s with steps := s.steps ++ [⟨a 0, a 1, a 2 * 1000, none, 0, 0, none, 0, []⟩] })
  | ringset : CmdRow die (.ringset die) 9
      (fun _ a => a 0 < 2 ^ 16 ∧ a 0 / 2 ^ 15 = die ∧ bits (a 0) 14 10 = 0 ∧ a 1 % 4096 = 0 ∧ 4 ≤ a 2 ∧ a 2 ≤ 20 ∧ a 3 % 8 = 0 ∧ a 4 < 2 ^ 59)
      (fun s a => { s with rings := s.rings.filter (fun r => decide (r.id ≠ a 0)) ++
        [{ id := a 0, base := a 1, logn := a 2, wback := a 3, cnt := bits (a 4) 15 0, time := bits (a 4) 47 16, vec := bits (a 4) 58 48
           wr := 0, rd := 0, lost := 0, ovf := false, pend := 0, first := 0 }] })
  | winset : CmdRow die (.winset die) 10
      (fun _ a => a 0 < 2048 ∧ a 1 < 2 ^ 32 ∧ a 3 ≤ 2 ^ 40 ∧ bits (a 4) 15 6 = 0 ∧ a 4 < 2 ^ 29 ∧ bits (a 4) 5 4 ≤ 1 ∧ a 5 < 2 ^ 56)
      (fun s a => { s with wins := s.wins.filter (fun p => decide (p.1 ≠ a 0)) ++ (if a 3 = 0 then [] else
        [(a 0, { ctxid := a 1, base := a 2, len := a 3, perm := BitVec.ofNat 3 (a 4), die := bits (a 4) 3 3, acct := bits (a 4) 5 4
                 anyPeer := decide (bits (a 4) 28 28 = 1), peer := bits (a 4) 27 16, ltag := bits (a 5) 15 0, rcrew := bits (a 5) 39 16
                 rbar := bits (a 5) 55 40 })]) })
  | redset : CmdRow die (.redset die) 11
      (fun _ a => a 0 < 256 ∧ a 1 < 2 ^ 24 ∧ a 2 < 2 ^ 15 ∧ bits (a 2) 7 6 = 0 ∧ 1 ≤ bits (a 2) 14 8 ∧ bits (a 2) 14 8 ≤ 64
        ∧ bits (a 2) 5 0 < bits (a 2) 14 8 ∧ a 3 < 2 ^ 32 ∧ a 4 ≤ 10000)
      (fun s a => { s with redgrps := s.redgrps.filter (fun g => decide (g.idx ≠ a 0)) ++
        [⟨a 0, a 1, bits (a 2) 5 0, bits (a 2) 14 8, a 3, 1000 * (if a 4 = 0 then 100 else a 4)⟩] })
  | saveset : CmdRow die (.saveset die) 13
      (fun _ a => a 0 < 2 ^ 32 ∧ a 1 % 4096 = 0 ∧ a 2 ≤ 2 ∧ a 1 + a 3 ≤ tgtSize (a 2))
      (fun s a => { s with saves := s.saves.filter (fun x => decide (x.ctxid ≠ a 0)) ++ [⟨a 0, a 2, a 1, a 3, 0⟩] })
  | pwrset : CmdRow die (.pwrset die) 17
      (fun _ a => a 0 = die ∧ 300 ≤ a 1 ∧ a 1 ≤ 1100 ∧ a 2 = 0)
      (fun s a => s.modDie die (fun d => { d with budget := s.powerBudget die, nextBudget := some (a 1, s.dtime) }))
  | devset : CmdRow die (.devset die) 18
      (fun s a => a 0 < 2 ^ 12 ∧ s.boot.ports = 0)
      (fun s a => { s with devid := BitVec.ofNat 64 (a 0) })

/-- The commands that take a record from host memory: code, what the arguments must be, the record's address and length, what it must say, and the
effect (R292, R323, R373, R424, R429, R461). -/
inductive RecRow (die : Nat) : Instr → Nat → ((Nat → Nat) → Prop) → ((Nat → Nat) → Nat) → Nat → (State → Nat → Prop) → (State → (Nat → Nat) → Nat → State) →
    Prop where
  | peconfig : RecRow die (.peconfig die) 6 (fun a => a 0 = die) (fun a => a 1) 240
      (fun s v =>
        let rs := (List.range 3).map (fun i => bits v (383 + 256 * i) (128 + 256 * i))
        s.noSeq die = true ∧ s.framesFree die = true ∧ bits v 127 64 = 0 ∧ bits v 31 5 = 0 ∧ 12 ≤ bits v 4 0 ∧ bits v 4 0 ≤ 21
          ∧ (∀ r ∈ rs, tierOk die (bits v 4 0) r = true) ∧ (((rs.map tierOf).filter (fun t => decide (t.count ≠ 0))).map TierRange.tier).Nodup
          ∧ (∀ i < 16, poolOk (bits v 4 0) (bits v (959 + 64 * i) (896 + 64 * i)) = true)
          ∧ (∀ t ∈ rs.map tierOf, t.tier < 2 ∨ ∀ u ∈ (s.pe (1 - die)).ranges, tiersMeet t u = false))
      (fun s _ v =>
        let ts := ((List.range 3).map (fun i => bits v (383 + 256 * i) (128 + 256 * i))).map tierOf
        let ps := (List.range 16).map (fun i => BitVec.ofNat 64 (bits v (959 + 64 * i) (896 + 64 * i)))
        (ts.filter (fun t => decide (t.count ≠ 0))).foldl (fun s t => s.zeroRange (memKey (tierTgt die t.tier) t.tbase) (32 * t.count))
          (s.modDie die (fun d => { d with pe := ⟨bits v 63 48, bits v 47 32, bits v 4 0, ts, ps⟩ })))
  | sqconfig : RecRow die (.sqconfig die) 7 (fun a => a 0 = die) (fun a => a 1) 1088
      (fun s v => s.noSeq die = true ∧ (∀ i ∈ (s.sched die).iters, i.opn = false) ∧ bits v 383 64 = 0 ∧ bits v 31 0 = 0 ∧ bits v 511 448 % 128 = 0
        ∧ bits v 511 448 + 2 ^ 20 ≤ tgtSize die ∧ (∀ i < 16, groupDescOk (bits v (1023 + 512 * i) (512 + 512 * i)) = true))
      (fun s _ v =>
        let t := if bits v 511 448 = (s.sched die).recbase ∧ (s.sched die).gens ≠ [] then s else s.zeroRange (memKey die (bits v 511 448)) (2 ^ 20)
        t.modSched die (fun d => { d with recbase := bits v 511 448, recva := BitVec.ofNat 64 (bits v 447 384), pagecap := bits v 63 32
                                          groups := (List.range 16).map (fun i => BitVec.ofNat 512 (bits v (1023 + 512 * i) (512 + 512 * i))) }))
  | irisset : RecRow die (.irisset die) 12 (fun a => a 0 = die) (fun a => a 1) 64 (fun _ v => irisOk v = true)
      (fun s _ v => s.modIris die (fun x => { x with cfg := BitVec.ofNat 512 v }))
  | mextend : RecRow die (.mextend die) 19 (fun a => 4 ≤ a 0 ∧ a 0 ≤ 7) (fun a => a 1) 64 (fun _ _ => True)
      (fun s a v => { s with boot := { s.boot with meas := modAt s.boot.meas (a 0) (fun m => Config.shake256 (natLe 64 m.toNat ++ natLe 64 v)) } })
  | repairset : RecRow die (.repairset die) 20 (fun _ => True) (fun a => a 0) 512 (fun _ _ => True)
      (fun s _ v => { s with boot := { s.boot with staged := some (natLe 512 v) } })

/-- The commands that go on after they begin: code, what the arguments must be, the state they begin with, and what is then in progress (R190, R355, R407). -/
inductive GoesRow (die : Nat) : Instr → Nat → (State → (Nat → Nat) → Prop) → (State → (Nat → Nat) → State) → (State → (Nat → Nat) → CmdKind) → Prop where
  | qdestroy (x : Queue) : GoesRow die (.qdestroy die) 2 (fun s a => a 0 < 2 ^ 15 ∧ qHome (a 0) = die ∧ s.queue? (a 0) = some x)
      (fun s _ => (s.jobs.filter (fun j => decide (j.queue = some x.qid))).foldl State.destroyJob
        ((s.modQueue x.qid (fun x => { x with st := .draining })).cancelPackets x (x.tail - x.head)))
      (fun _ a => .destroy (a 0))
  | inval : GoesRow die (.inval die) 5 (fun _ a => a 0 < 2 ^ 32) (fun s _ => s) (fun s a => .inval (a 0) (a 1) (a 2) s.nextOp)
  | ctxpreempt : GoesRow die (.ctxpreempt die) 14 (fun _ a => a 0 < 2 ^ 32) (fun s _ => s) (fun _ a => .preempt (a 0) 0)
  | ctxresume : GoesRow die (.ctxresume die) 15 (fun _ a => a 0 < 2 ^ 32) (fun s _ => s) (fun _ a => .resume (a 0))

end Sys2Proof.Claims

/-- R344: a command whose arguments are as its row says has its effect and completes with status 0; otherwise, and where a reserved field is not 0, it
completes with status 2 and has none. -/
def Sys2Proof.Claims.CommandsTakeEffect : Prop :=
  (∀ die i c ok f, CmdRow die i c ok f → ∀ s r,
    let t := headOn (inWork s []) die
    NextCmd (inWork s []) die c r →
    (ok t (cmdArg r) → exec i s = leaves s (answers (f t (cmdArg r)) die r 0)) ∧ (¬ ok t (cmdArg r) → exec i s = leaves s (answers t die r 2)))
  ∧ (∀ die i c ok f, CmdRow die i c ok f → ∀ s r, (inWork s []).cmdNext die = some (some r) → bits r 7 0 = c → (bits r 15 8 ≠ 0 ∨ bits r 63 32 ≠ 0) →
    exec i s = leaves s (answers (headOn (inWork s []) die) die r 2))

/-- R292, R323, R344, R373, R424, R426, R429, R461: a command with a record has its effect if record and arguments are as they must be; a record outside the
host windows gives status 6, anything else status 2. ATTEST writes its report, signed, or answers 6. -/
def Sys2Proof.Claims.CommandsWithRecordsTakeEffect : Prop :=
  (∀ die i c ok at_ n good f, RecRow die i c ok at_ n good f → ∀ s r,
    let t := headOn (inWork s []) die
    NextCmd (inWork s []) die c r →
    (∀ v, ok (cmdArg r) → t.hostRd (at_ (cmdArg r)) n = some v → good t v → exec i s = leaves s (answers (f t (cmdArg r) v) die r 0))
    ∧ (∀ v, ok (cmdArg r) → t.hostRd (at_ (cmdArg r)) n = some v → ¬ good t v → exec i s = leaves s (answers t die r 2))
    ∧ (ok (cmdArg r) → t.hostRd (at_ (cmdArg r)) n = none → exec i s = leaves s (answers t die r 6))
    ∧ (¬ ok (cmdArg r) → exec i s = leaves s (answers t die r 2)))
  ∧ (∀ s die r v,
    let t := headOn (inWork s []) die
    NextCmd (inWork s []) die 16 r → t.hostRd (cmdArg r 0) 32 = some v →
    let rep := t.report v
    let sig := (Config.attestSign rep).take 1536
    exec (.attest die) s = leaves s (if t.hostOk (cmdArg r 1) (rep.length + 1538) true
      then answers (t.wrL (memKey 3 (cmdArg r 1)) (rep ++ natLe 2 sig.length ++ sig ++ List.replicate (1536 - sig.length) 0)) die r 0
      else answers t die r 6))

/-- R190, R344, R355, R407: QDESTROY, INVAL, CTXPREEMPT and CTXRESUME begin and stay in progress with TAG and address; a queue is gone, with its record, once
every packet that had begun has completed; an invalidation completes once no earlier access of the context is left, and no cached translation of its range.
Model's choices it rests on: log entries 6, 64, 65, 79. -/
def Obligations.CommandsThatGoOn : Prop :=
  (∀ die i c ok f k, GoesRow die i c ok f k → ∀ s r,
    let t := headOn (inWork s []) die
    NextCmd (inWork s []) die c r → ok t (cmdArg r) →
    exec i s = leaves s (((f t (cmdArg r)).modDie die (fun d => { d with pend := some ⟨k t (cmdArg r), bits r 31 16, cmdArg r 6⟩ })).preemptCheck))
  ∧ (∀ die s r,
    let t := headOn (inWork s []) die
    NextCmd (inWork s []) die 2 r → (2 ^ 15 ≤ cmdArg r 0 ∨ qHome (cmdArg r 0) ≠ die ∨ t.queue? (cmdArg r 0) = none) →
    exec (.qdestroy die) s = leaves s (answers t die r 2))
  ∧ (∀ die i c s r, (i, c) ∈ [(.inval die, 5), (.ctxpreempt die, 14), (.ctxresume die, 15)] → NextCmd (inWork s []) die c r → 2 ^ 32 ≤ cmdArg r 0 →
    exec i s = leaves s (answers (headOn (inWork s []) die) die r 2))
  ∧ (∀ (s : State) q d c, s.dies[qHome q]? = some d → d.pend = some c → c.kind = .destroy q →
    exec (.qdestroyComplete q) s = .next (if s.allDone q
      then ({ s with queues := s.queues.filter (fun y => decide (y.qid ≠ q)) } : State).endCmd (qHome q) c 0 0 else s))
  ∧ (∀ (s : State) die d c ctx start len op, s.dies[die]? = some d → d.pend = some c → c.kind = .inval ctx start len op →
    (∀ o ∈ s.ops, (∃ k, s.crews[o.crew]? = some k ∧ k.ctxid = ctx) → o.translated = false) →
    ∃ t : State, exec (.invalComplete die) s = .next (t.endCmd die c 0 0) ∧ t.mem = s.mem ∧ t.dies = s.dies
      ∧ (∀ x ∈ t.xlat, xlatIn ctx start len x = false) ∧ (∀ x ∈ s.xlat, xlatIn ctx start len x = false → x ∈ t.xlat))
  ∧ (∀ (s : State) die d c ctx start len op o k, s.dies[die]? = some d → d.pend = some c → c.kind = .inval ctx start len op →
    o ∈ s.ops → o.id < op → s.crews[o.crew]? = some k → k.ctxid = ctx → o.translated = true → exec (.invalComplete die) s = .next s)

/-- R344, R418, R420, R421, R461, R462: an unknown code completes with status 2; a record outside the windows is skipped and reported; MRTAIL moves within the
ring's length or the write is reported; MRBASE and MRLOGN take values only while the ring is idle; WLOCK freezes the window table until reset; the host's
reads of the BARs return the registers, write-only ones 0, and all ones while a BAR does not answer.
Model's choices it rests on: log entries 66, 94, 104. -/
def Obligations.ManagementRegisters : Prop :=
  (∀ (s : State) die r, s.cmdNext die = some (some r) → (bits r 7 0 = 0 ∨ 20 < bits r 7 0) →
    exec (.mgmtUnknownCommand die) s = leaves s (answers (headOn (inWork s []) die) die r 2))
  ∧ (∀ (s : State) die d, s.cmdNext die = some none → s.dies[die]? = some d →
    exec (.mgmtRecordSkip die) s = .next ((headOn s die).event die 0 .mrSkip d.mrhead false))
  ∧ (∀ (s : State) die d (w : W64), s.bar0 = true → s.dies[die]? = some d →
    exec (.mrtail die w) s = .next (if d.mrtail ≤ w.toNat ∧ w.toNat - d.mrhead ≤ 2 ^ d.mrlogn then s.modDie die (fun d => { d with mrtail := w.toNat })
      else s.event die 0 .mrTail w.toNat false))
  ∧ (∀ (s : State) die d b (v : W64), s.bar0 = true → s.dies[die]? = some d →
    ∃ t, exec (.mrbase die b v) s = .next t ∧ t.mem = s.mem ∧ t.dies[die]? = some
      (if d.mrhead ≠ d.mrtail then d
       else if b then (if 4 ≤ v.toNat ∧ v.toNat ≤ 12 then { d with mrlogn := v.toNat } else d)
       else if v.toNat % 4096 = 0 then { d with mrbase := v.toNat } else d))
  ∧ (∀ (s : State) i w (v : W64), s.bar0 = true → s.wlock = false → s.windows[i]? = some w →
    (∃ t, exec (.hostWindowWrite i 0 v) s = .next t ∧ t.mem = s.mem ∧ t.windows.length = s.windows.length ∧ (∀ j ≠ i, t.windows[j]? = s.windows[j]?)
      ∧ ∃ x, t.windows[i]? = some x ∧ (∀ b < 3, x.getLsbD b = v.getLsbD b) ∧ (∀ b, 3 ≤ b → x.getLsbD b = w.getLsbD b))
    ∧ (∀ d, (d = 2 ∨ d = 3) → ∃ t, exec (.hostWindowWrite i d v) s = .next t ∧ t.mem = s.mem ∧ (∀ j ≠ i, t.windows[j]? = s.windows[j]?)
      ∧ ∃ x, t.windows[i]? = some x ∧ (∀ b < 64, x.getLsbD (64 * d + b) = v.getLsbD b) ∧ (∀ b, (b < 64 * d ∨ 64 * d + 64 ≤ b) → x.getLsbD b = w.getLsbD b)))
  ∧ (∀ (s : State) i d (v : W64), s.wlock = true → exec (.hostWindowWrite i d v) s = .next s)
  ∧ (∀ (s : State), s.bar0 = true → ∃ t, exec .wlock s = .next t ∧ t.wlock = true ∧ t.windows = s.windows ∧ t.mem = s.mem)
  ∧ (∀ (s : State) (v : W64), s.bar0 = true →
    (∀ die, die < 2 → exec (.hostRegisterWrite (0x2010 + 64 * die) v) s = exec (.mrtail die v) s)
    ∧ (∀ die, die < 2 → exec (.hostRegisterWrite (0x2000 + 64 * die) v) s = exec (.mrbase die false v) s
        ∧ exec (.hostRegisterWrite (0x2008 + 64 * die) v) s = exec (.mrbase die true v) s)
    ∧ (∀ i d, i < 64 → d < 4 → exec (.hostRegisterWrite (0x1000 + 32 * i + 8 * d) v) s = exec (.hostWindowWrite i d v) s)
    ∧ (v.getLsbD 0 = true → exec (.hostRegisterWrite 8 v) s = exec .wlock s)
    ∧ exec (.hostRegisterWrite 0x2118 v) s = .next { s with ev := { s.ev with rd := v.toNat } })
  ∧ (∀ (s : State) bar off n rest, s.agenda = .barRead bar off n :: rest → step s = .next { s with
      agenda := rest, hostSaw := s.hostSaw ++ [(bar, off, n, s.barReg bar (alignDown off 8) / 2 ^ (8 * (off % 8)) % 2 ^ (8 * n))] })
  ∧ (∀ (s : State) bar off, (if bar = 0 then s.bar0 else s.bar2) = false → s.barReg bar off = 2 ^ 64 - 1)
  ∧ (∀ (s : State), s.bar0 = true → s.barReg 0 0 = s.boot.stat.toNat ∧ s.barReg 0 0x10 = s.dieTime 0 ∧ s.barReg 0 0x2118 = s.ev.rd
    ∧ (∀ die d, die < 2 → s.dies[die]? = some d → s.barReg 0 (0x2000 + 64 * die) = d.mrbase ∧ s.barReg 0 (0x2008 + 64 * die) = d.mrlogn
        ∧ s.barReg 0 (0x2010 + 64 * die) = 0 ∧ s.barReg 0 (0x2018 + 64 * die) = d.mrhead)
    ∧ (∀ i w, i < 64 → s.windows[i]? = some w → ∀ d < 4, s.barReg 0 (0x1000 + 32 * i + 8 * d) = bitsOf w (64 * d + 63) (64 * d))
    ∧ (∀ i m, i < 8 → s.boot.meas[i]? = some m → ∀ d < 8, s.barReg 0 (0x10000 + 64 * i + 8 * d) = bitsOf m (64 * d + 63) (64 * d)))
  ∧ (∀ (s : State) q x, s.bar2 = true → q < 2 ^ 15 → s.queue? q = some x → s.barReg 2 (0x1000 * q) = 0 ∧ s.barReg 2 (0x1000 * q + 8) = x.head
    ∧ s.barReg 2 (0x1000 * q + 16) = (if x.stolen then 8 else 0) + (match x.st with | .active => 1 | .overrun => 2 | .error => 3 | .draining => 4))
  ∧ (∀ (s : State) die i r, s.bar2 = true → die < 2 → i < 1024 → s.ring? (2 ^ 15 * die + i) = some r →
    s.barReg 2 (0x8000000 + 0x4000 * die + 16 * i) = r.rd
    ∧ s.barReg 2 (0x8000000 + 0x4000 * die + 16 * i + 8) = (if r.ovf then 2 ^ 32 else 0) + r.lost % 2 ^ 32)
  ∧ (∀ (s : State) rest (v : W64) t,
    let u := inWork { s with agenda := rest } []
    (∀ q, q < 2 ^ 15 → s.agenda = .barWrite 2 (0x1000 * q) v :: rest → exec (.queueDoorbell q v) u = .next t → step s = leaves s t)
    ∧ (∀ die i, die < 2 → i < 1024 → s.agenda = .barWrite 2 (0x8000000 + 0x4000 * die + 16 * i) v :: rest →
      exec (.rdidx (2 ^ 15 * die + i) v) u = .next t → step s = leaves s t)
    ∧ (∀ off, s.agenda = .barWrite 0 off v :: rest → exec (.hostRegisterWrite off v) u = .next t → step s = leaves s t))
  ∧ (∀ (s : State) die i b (v : W64), s.bar0 = false → exec (.mrtail die v) s = .next s ∧ exec (.mrbase die b v) s = .next s
    ∧ exec (.hostWindowWrite i 0 v) s = .next s ∧ exec .wlock s = .next s ∧ exec (.hostRegisterWrite i v) s = .next s)

/-- R344, R461: management commands, with and without a record.
Model's choices it rests on: log entries 7, 64, 114. -/
def Obligations.ManagementCommands : Prop := Claims.CommandsTakeEffect ∧ Claims.CommandsWithRecordsTakeEffect

namespace Sys2Proof.Claims
open Sys2Proof.Machine

/-- Message `m` has come: from `peer`, of its transfer `mid`, saying `b`, with the writes `seen` behind it. -/
def Came (s : State) (m peer mid : Nat) (b : WireBody) (seen : List Nat) : Prop := s.msg? m = some ⟨peer, mid, b, seen⟩

/-- A request as its RTS is accepted (R374): queued, or frozen where its crew is saved (R389), with what its prefix does not bring still ungranted. -/
def newReq (s : State) (x : Iris) (peer mid len prio : Nat) (rw : W64) (w : Option Win) (b : DstBar) (p : Nat) (seen : List Nat) : Req :=
  { seq := x.next, peer := peer, mid := mid, own := false, prio := prio, rword := rw, win := w, bar := b, len := len
    ungr := if p < len then [(p, len - p)] else [], unland := [(0, len)], st := if s.barSaved b then .frozen else .queued
    unused := 0, spoke := s.dtime, frozenAt := s.dtime, silent := 0, held := [], seen := seen }

/-- A die's next grant: its level and deficits, request, range, and port with the fewest outstanding bytes (R375). -/
def Grants (s : State) (die level : Nat) (ds : List Nat) (r : Req) (q : Nat × Nat) (p : Nat) : Prop :=
  let x := s.iris die
  s.grantLevel x = some (level, ds) ∧ x.nextReq level = some r ∧ q = s.tokenRange x r ∧ p = x.bestPort (s.irisPorts die)

/-- The token granted: it ends EXPIRY after now, but a standing reservation never does (R376, R379). -/
def tokenOf (s : State) (die : Nat) (r : Req) (q : Nat × Nat) (p : Nat) : Token :=
  { tok := s.nextMsg, peer := r.peer, mid := r.mid, lo := q.1, n := q.2, port := p
    expiry := if s.standing r then none else some (s.dtime + irExpiry (s.iris die).cfg), left := [q] }

end Sys2Proof.Claims

/-- R372, R374, R389: an RTS that passes its checks becomes a request, and its prefix lands packet by packet; a repeat only shows that its sender
speaks (R377); a full table, or a barrier unit that can hold no more for a saved crew, answers FULL; an RTS
that fails its checks is refused with reason 3.
Model's choices it rests on: log entries 67, 90, 100, 117. -/
def Obligations.RequestsToSendAreAccepted : Prop :=
  ∀ s m peer mid len prio rw pre seen, Came s m peer mid (.rts len prio rw pre) seen →
    (∀ die r, s.req? peer mid = some (die, r) → exec (.rtsReceive m) s = .next ((s.takeMsg m).modReq die r.seq (fun r => { r with spoke := s.dtime })))
    ∧ (s.req? peer mid = none → s.rtsCheck peer len rw = none → exec (.rtsReceive m) s = .next ((s.takeMsg m).send peer mid (.refused 3 len)))
    ∧ (∀ die w b, s.req? peer mid = none → s.rtsCheck peer len rw = some (die, w, b) →
      ((8192 ≤ (s.iris die).reqs.length ∨ s.barFull b = true) → exec (.rtsReceive m) s = .next ((s.takeMsg m).send peer mid .full))
      ∧ ((s.iris die).reqs.length < 8192 → s.barFull b = false →
        let p := (pre.take len).length
        let r := newReq s (s.iris die) peer mid len prio rw w b p seen
        let t := (s.takeMsg m).modIris die (fun x => { x with reqs := x.reqs ++ [r], next := x.next + 1 })
        exec (.rtsReceive m) s = .next (t.landPackets die r.seq [] 0 (pre.take len))))
    ∧ (∀ ci off, s.barFull (.crew ci off) = true ↔ ∃ k, s.crews[ci]? = some k ∧ k.st = .saved ∧ s.holdFull k.die = true)
    ∧ (∀ (t : State) die n new off bs, t.reqAt die n = none → t.landPackets die n new off bs = t)
    ∧ (∀ (t : State) die n new off bs r, t.reqAt die n = some r →
        let u := (packets off bs).foldl (fun u c => match u.reqAt die n with | some r => u.landReq die r c.1 c.2 | none => u)
          (Claims.inWork t (addAll r.seen new))
        t.landPackets die n new off bs = { u.modReq die n (fun r => { r with seen := u.actor.past }) with actor := t.actor })

/-- R375, R376, R379: a grant takes the next request of the level that the deficit round robin serves and gives one token of at most a token's bytes at the port
with the fewest outstanding, where the window of that port has room; data under a token that has not ended lands, all other data is dropped, though its sender has spoken; an expired
token's missing bytes are ungranted again.
Model's choices it rests on: log entries 68, 69, 90, 117. -/
def Obligations.IrisGrantsAndLandsData : Prop :=
  (∀ s die level ds r q p, Grants s die level ds r q p →
    ((s.iris die).outstanding p + q.2 ≤ irGwin (s.iris die).cfg →
      let t := (({ s with nextMsg := s.nextMsg + 1 } : State).modReq die r.seq (fun r => { r with ungr := dropRange q.1 q.2 r.ungr })).modIris die (fun x =>
        { x with toks := x.toks ++ [tokenOf s die r q p], deficit := ds, turn := if 2 ≤ level then level else x.turn
                 served := (level, r.seq) :: x.served.filter (fun p => decide (p.1 ≠ level)) })
      exec (.irisGrant die) s = .next (if r.own then t.loop r.mid (.token s.nextMsg q.1 q.2 p) else t.send r.peer r.mid (.token s.nextMsg q.1 q.2 p)))
    ∧ (irGwin (s.iris die).cfg < (s.iris die).outstanding p + q.2 → exec (.irisGrant die) s = .next s))
  ∧ (∀ s die, s.grantLevel (s.iris die) = none → exec (.irisGrant die) s = .next s)
  ∧ (∀ s m peer mid off bs tok seen die r t, Came s m peer mid (.data off bs (some tok)) seen → s.req? peer mid = some (die, r) →
    s.tokenFor die tok r off bs.length = some t →
    exec (.fabricDataLand m) s = .next (((s.takeMsg m).tokenLand die t off bs.length).landPackets die r.seq seen off bs))
  ∧ (∀ s m peer mid off bs tok seen, Came s m peer mid (.data off bs tok) seen → (tok = none ∨ s.req? peer mid = none) →
    exec (.fabricDataLand m) s = .next (s.takeMsg m))
  ∧ (∀ s m peer mid off bs tok seen die r, Came s m peer mid (.data off bs (some tok)) seen → s.req? peer mid = some (die, r) →
    s.tokenFor die tok r off bs.length = none →
    exec (.fabricDataLand m) s = .next ((s.takeMsg m).modReq die r.seq (fun r => { r with spoke := s.dtime })))
  ∧ (∀ (s : State) die tok t x, (s.iris die).toks.find? (fun t => decide (t.tok = tok)) = some t → t.expiry = some x → s.dtime < x →
    exec (.tokenExpiry die tok) s = .next s)
  ∧ (∀ (s : State) die tok t x r, (s.iris die).toks.find? (fun t => decide (t.tok = tok)) = some t → t.expiry = some x → x ≤ s.dtime →
    (s.iris die).reqs.find? (fun r => t.of r) = some r →
    let un := if r.own then 0 else if t.left = [(t.lo, t.n)] then r.unused + 1 else r.unused
    let r2 := { r with ungr := t.left.foldl (fun rs p => addRange p rs) r.ungr, unused := un }
    let u := (s.modIris die (fun x => { x with toks := x.toks.filter (fun u => decide (u.tok ≠ tok)) })).modReq die r.seq (fun _ => r2)
    exec (.tokenExpiry die tok) s = .next (if un = 3 then u.orphan die r2 else u))

/-- R367, R368, R377, R378, R383, R388, R389, R426: a request whose sender is silent too long is orphaned, its remainder settled, unless frozen; FROZEN
goes out every 100 µs; RELINQUISH suspends, RESUME queues again, ABORT settles the remainder with FAULT; an unsupported operation is answered; a port goes
down and comes up. -/
def Sys2Proof.Claims.RequestsChangeState : Prop :=
  (∀ (s : State) die n r, s.reqAt die n = some r → r.own = false → r.isFrozen = false → r.spoke + irOrphto (s.iris die).cfg ≤ s.dtime →
    exec (.orphanTimeout die n) s
      = leaves s (((inWork s r.seen).settleReq die r 68).send r.peer r.mid (.orphaned (some (r.unland.map Prod.snd).sum))))
  ∧ (∀ (s : State) die n r, s.reqAt die n = some r → (r.own = true ∨ r.isFrozen = true ∨ s.dtime < r.spoke + irOrphto (s.iris die).cfg) →
    exec (.orphanTimeout die n) s = .next s)
  ∧ (∀ (s : State) die n r, s.reqAt die n = some r → r.own = false → r.isFrozen = true → r.frozenAt + 100000 ≤ s.dtime →
    exec (.frozen die n) s = .next ((s.modReq die n (fun r => { r with frozenAt := s.dtime })).send r.peer r.mid .frozen))
  ∧ (∀ (s : State) die n r, s.reqAt die n = some r → (r.own = true ∨ r.isFrozen = false ∨ s.dtime < r.frozenAt + 100000) →
    exec (.frozen die n) s = .next s)
  ∧ (∀ s m peer mid sent seen die r, Came s m peer mid (.relinquish sent) seen → s.req? peer mid = some (die, r) →
    let back := (s.iris die).toks.filter (fun t => t.of r && !(sent.contains t.tok))
    exec (.relinquish m) s = .next (((s.takeMsg m).modIris die (fun x => { x with toks := x.toks.filter (fun t => !(t.of r) || sent.contains t.tok) })).modReq
      die r.seq (fun r => { r with ungr := (back.flatMap Token.left).foldl (fun rs p => addRange p rs) r.ungr, spoke := s.dtime
                                   st := if r.isFrozen then .frozenSusp else .suspended })))
  ∧ (∀ s m peer mid seen die r, Came s m peer mid .resume seen → s.req? peer mid = some (die, r) →
    exec (.resume m) s = .next ((s.takeMsg m).modReq die r.seq (fun r =>
      { r with unused := 0, spoke := s.dtime, st := if r.isFrozen then .frozen else .queued })))
  ∧ (∀ s m peer mid seen, Came s m peer mid .resume seen → s.req? peer mid = none →
    exec (.resume m) s = .next ((s.takeMsg m).send peer mid (.orphaned none)))
  ∧ (∀ s m peer mid seen die r, Came s m peer mid .abort seen → s.req? peer mid = some (die, r) →
    exec (.abort m) s = .next ((s.takeMsg m).settleReq die r 66))
  ∧ (∀ s m peer mid seen, Came s m peer mid .unsupported seen → exec (.unsupportedOperation m) s = .next ((s.takeMsg m).send peer mid .unsupportedResp))
  ∧ (∀ (s : State) p, p < 18 → ∃ t u, exec (.portDown p) s = .next t ∧ exec (.portUp p) s = .next u ∧ t.dies = s.dies ∧ t.wire = s.wire ∧ u.dies = s.dies
    ∧ u.wire = s.wire ∧ t.boot.ports.getLsbD p = false ∧ u.boot.ports.getLsbD p = true
    ∧ (∀ q ≠ p, t.boot.ports.getLsbD q = s.boot.ports.getLsbD q ∧ u.boot.ports.getLsbD q = s.boot.ports.getLsbD q))

/-- The target's memory has these bytes for a read of `n` from `lo` of a window: the aligned words that the read cuts, whole, or what the window has of
them (R211); the first is at offset `p` of the part of the window that the word names. -/
def Sys2Proof.Claims.WindowKeys (s : State) (w : Win) (rw : W64) (lo n p : Nat) (ks : Except XFault (List (Nat × Nat))) : Prop :=
  let a := w.base + rwOff rw
  p = wordLo a lo ∧ s.vkeys w.ctxid kRead ((a + p) % 2 ^ 64) (wordHi a (w.len - rwOff rw) (lo + n - 1) - p) = ks

/-- R366, R372, R379, R384: an RMA read of a window that permits it answers the bytes of its range in packets of at most 4,096 bytes, each with the bytes of
the words that it cuts; any other is refused with reason 3. -/
def Sys2Proof.Claims.RemoteReadsAreServed : Prop :=
  (∀ s m peer mid rw lo n tok seen w p ks, Came s m peer mid (.rmaRead rw lo n tok) seen → s.winFor peer 1 rw = some w → rwInb rw = false →
    rwOff rw + lo + n ≤ w.len → WindowKeys s w rw lo n p (.ok ks) →
    let a := w.base + rwOff rw
    let len := w.len - rwOff rw
    let t := inWork (s.takeMsg m) seen
    let bs := ks.flatMap (fun q => t.memBytes q.1 q.2)
    let whole := fun (c : Nat × List MByte) => (numbered p bs).filter (fun x => (cutOffs a len c.1 c.2.length).contains x.1)
    exec (.rmaReadServe m) s
      = leaves s ((packets lo ((bs.drop (lo - p)).take n)).foldl (fun u c => u.send peer mid (.rmaResp c.1 tok c.2 (whole c))) t))
  ∧ (∀ lo bs, ((packets lo bs).flatMap Prod.snd) = bs ∧ ∀ c ∈ packets lo bs, c.2 ≠ [] ∧ c.2.length ≤ 4096)
  ∧ (∀ a len lo n i, i ∈ cutOffs a len lo n → i < len)
  ∧ (∀ s m peer mid rw lo n tok seen, Came s m peer mid (.rmaRead rw lo n tok) seen →
    (s.winFor peer 1 rw = none ∨ rwInb rw = true ∨ ∃ w, s.winFor peer 1 rw = some w ∧ (w.len < rwOff rw + lo + n
      ∨ ∃ p f, WindowKeys s w rw lo n p (.error f))) →
    exec (.rmaReadServe m) s = .next ((s.takeMsg m).send peer mid (.refused 3 n)))

/-- R366 to R368, R377 to R389: requests change state, remote reads are served.
Model's choices it rests on: log entries 80, 90, 100, 117. -/
def Obligations.RequestsChangeAndReadsAreServed : Prop := Claims.RequestsChangeState ∧ Claims.RemoteReadsAreServed

namespace Sys2Proof.Claims
open Sys2Proof.Machine

/-- Operation `id` is a transfer of a crew that runs, and what its issuers did before it is performed (R217, R381, R387). -/
def Sending (s : State) (id : Nat) (o : Op) (n : NetOp) : Prop := s.netOf id = some (o, n) ∧ s.netReady o = true

/-- A message of `peer` reaches the transfer that it names, whose other end `peer` is. -/
def Hears (s : State) (m peer : Nat) (b : WireBody) (seen : List Nat) (o : Op) (n : NetOp) : Prop :=
  Came s m peer n.mid b seen ∧ s.net? n.mid = some (o, n) ∧ peer = rwDev n.rword

/-- A step of the operation's thread to which a message has come, with what happens before the message behind it too (R387). -/
def hearing (s : State) (o : Op) (seen : List Nat) : State := (inThread s o).actJoins seen

/-- The request of a PUT leaves with the first `p` of the bytes `bs` of the source words that its prefix touches; the words that the prefix cuts are kept. -/
def asksWith (s : State) (o : Op) (n : NetOp) (p : Nat) (bs : List MByte) : State :=
  let u := if p = 0 then s else s.netJoined o n.addr (n.wordsLen 0 p)
  (u.setNet o.id { n.keep 0 p 0 bs with rts := true, sentAt := s.dtime, last := s.dtime, left := if p < n.len then [(p, n.len - p)] else [] }).send
    (rwDev n.rword) n.mid (.rts n.len (ncPrio n.ctl) n.rword (bs.take p))

/-- A PUT's bytes `[lo, lo + len)` leave under a token, from the bytes `bs` of the source words that hold them; a token that waited has counted already. -/
def sendsUnder (s : State) (m tok lo len : Nat) (o : Op) (n : NetOp) (bs : List MByte) : State :=
  let p := n.wordsLo lo
  let last := if n.heard.contains tok then n.last else s.dtime
  (packets lo ((bs.drop (lo - p)).take len)).foldl (fun s c => s.send (rwDev n.rword) n.mid (.data c.1 c.2 (some tok)))
    (((s.takeMsg m).netJoined o (n.addr + p) (n.wordsLen lo len)).setNet o.id
      { n.keep lo len p bs with tokens := tok :: n.tokens, left := dropRange lo len n.left, last := last })

/-- A response that a GET takes up under its token, or is landing: the transfer, with what lands next, and the state. -/
inductive Landing (s : State) (m lo tok : Nat) (bs : List MByte) (edge : List (Nat × MByte)) (n : NetOp) (r : Req) : NetOp → State → Prop where
  | begins (t : Token) : n.landing = none → s.tokenFor n.die tok r lo bs.length = some t →
    Landing s m lo tok bs edge n r (n.take1 s.dtime m lo bs edge) (s.tokenLand n.die t lo bs.length)
  | goesOn (q : Nat × List MByte × Nat) : n.landing = some (m, q) → Landing s m lo tok bs edge n r n s

/-- Where a transfer's target is, as NETERR says it. -/
def target (n : NetOp) : Option Nat := if rwInb n.rword then none else some (rwOff n.rword)

/-- The transfer has waited for XFERTO since it last heard of its other end (R378). -/
def Silent (s : State) (last die : Nat) : Prop := last + irXferto (s.iris die).cfg ≤ s.dtime

end Sys2Proof.Claims

/-- R374, R376, R378, R379, R381: the request of a PUT leaves with its prefix, that of a GET or REDNET is registered at its own Iris; a PUT that met a full table
asks again after 2 µs; a token makes a PUT send its bytes, a GET ask for its range, a REDNET contribute; a token whose source lines are not full waits and
has been heard; while the crew is saved a token is not answered, and that of a REDNET's standing reservation waits.
Model's choices it rests on: log entries 68, 70, 90, 117. -/
def Obligations.TransfersSend : Prop :=
  (∀ s id o n u p bs, Sending s id o n → n.fn = 0 →
    ((n.rts = false ∧ u = s) ∨ (n.rts = true ∧ ∃ m, s.fullMsg? n.mid = some m ∧ n.sentAt + 2000 ≤ s.dtime ∧ u = s.takeMsg m)) →
    p = min n.len (irPrefix (s.iris n.die).cfg (ncClass n.ctl)) → ((p = 0 ∧ bs = []) ∨ (p ≠ 0 ∧ (Claims.inThread u o).putRead o n 0 p = .bytes bs)) →
    exec (.rtsRetry id) s = Claims.leaves s (asksWith (Claims.inThread u o) o n p bs))
  ∧ (∀ s id o n k, Sending s id o n → n.rts = false → n.fn ≠ 0 → s.crews[o.crew]? = some k →
    exec (.rtsRetry id) s = .next (if 8192 ≤ (s.iris n.die).reqs.length then s
      else (s.modIris n.die (fun x => { x with
          reqs := x.reqs ++ [{ seq := (s.iris n.die).next, peer := s.devid.toNat, mid := n.mid, own := true
                               prio := if n.fn = 3 then bitsOf n.ctl 15 13 else bitsOf n.ctl 47 45, rword := n.rword, win := none
                               bar := if n.ben = true ∧ k.z ≠ 0 then .crew o.crew (cpBarOff k n.ctl) else .none, len := n.len
                               ungr := [(0, n.len)], unland := [(0, n.len)], st := .queued, unused := 0, spoke := s.dtime
                               frozenAt := s.dtime, silent := 0, held := [], seen := [] }]
          next := x.next + 1 })).setNet o.id { n with rts := true, sentAt := s.dtime, last := s.dtime }))
  ∧ (∀ s id o n m, Sending s id o n → n.rts = true → s.fullMsg? n.mid = some m → s.dtime < n.sentAt + 2000 → exec (.rtsRetry id) s = .next s)
  ∧ (∀ s id o n, Sending s id o n → n.rts = true → s.fullMsg? n.mid = none → exec (.rtsRetry id) s = .next s)
  ∧ (∀ s m peer tok lo len port seen o n bs, Hears s m peer (.token tok lo len port) seen o n → s.netReady o = true → n.fn = 0 → lo + len ≤ n.len →
    let u := hearing s o seen
    (u.putRead o n lo len = .bytes bs → exec (.tokenReceive m) s = Claims.leaves s (sendsUnder u m tok lo len o n bs))
    ∧ (u.putRead o n lo len = .wait →
        exec (.tokenReceive m) s = Claims.leaves s (if n.heard.contains tok then u else u.setNet o.id { n with heard := tok :: n.heard, last := s.dtime })))
  ∧ (∀ s m peer tok lo len port seen o n, Came s m peer n.mid (.token tok lo len port) seen → s.net? n.mid = some (o, n) → s.netReady o = true → n.fn = 1 →
    exec (.tokenReceive m) s = Claims.leaves s ((((hearing s o seen).takeMsg m).setNet o.id
      { n with asked := true, asks := newAsks s.dtime lo len n.asks }).send (rwDev n.rword) n.mid (.rmaRead n.rword lo len tok)))
  ∧ (∀ s m peer tok lo len port seen o n, Came s m peer n.mid (.token tok lo len port) seen → s.net? n.mid = some (o, n) → s.opRuns o = false →
    exec (.tokenReceive m) s = .next (if n.fn = 3 then s else s.takeMsg m))
  ∧ (∀ s m peer tok lo len port seen o n bs, Came s m peer n.mid (.token tok lo len port) seen → s.net? n.mid = some (o, n) → s.netReady o = true →
    n.fn = 3 → let bytes := rnCount n.ctl * fmtWidth (rnFmt n.ctl) / 8
    (hearing s o seen).netRead o n.addr bytes = .bytes bs →
    exec (.tokenReceive m) s = Claims.leaves s (((((hearing s o seen).takeMsg m).netJoined o n.addr bytes).setNet o.id
      { n with asked := true, last := s.dtime }).loop n.mid (.contrib (contribOf n bs))))
  ∧ (∀ s m peer mid tok lo len port seen, Came s m peer mid (.token tok lo len port) seen → s.net? mid = none →
    exec (.tokenReceive m) s = .next (s.takeMsg m))

/-- R372, R376, R377, R378, R383, R386, R388: FINISHED acknowledges a PUT; a refusal, an orphaning and a timeout end it with what was not delivered, its status bit
and, as the first failure, NETERR; FROZEN starts the sender's count again. -/
def Sys2Proof.Claims.PutsEnd : Prop :=
  (∀ s m peer seen o n, Hears s m peer .finished seen o n → n.fn = 0 →
    exec (.finished m) s = leaves s (((hearing (s.takeMsg m) o seen).netBar o n (.arrive 1 false)).endEng o none))
  ∧ (∀ s m peer seen o n short, Hears s m peer (.orphaned short) seen o n → n.fn = 0 →
    let u := (s.takeMsg m).netErr o.crew 5 0 (some (rwDev n.rword)) (target n)
    exec (.orphaned m) s = leaves u (((hearing u o seen).netBar o n (.ack (short.getD (rangeSum n.unconf)) 68)).endEng o (some 2)))
  ∧ (∀ s m peer seen o n reason short, Hears s m peer (.refused reason short) seen o n → n.fn = 0 →
    let u := (s.takeMsg m).netErr o.crew reason 0 (some (rwDev n.rword)) (target n)
    exec (.refusalReceive m) s = leaves u (((hearing u o seen).netBar o n (.ack short 66)).endEng o (some 1)))
  ∧ (∀ s m peer seen o n, Came s m peer n.mid .frozen seen → s.net? n.mid = some (o, n) →
    exec (.frozenReceive m) s = .next ((s.takeMsg m).setNet o.id { n with last := s.dtime }))
  ∧ (∀ (s : State) id o n, s.op? id = some o → o.eng = some (.net n) → s.opRuns o = true → Silent s n.last n.die → n.fn = 0 → n.rts = true →
    s.fullMsg? n.mid = none →
    let u := s.netErr o.crew 6 0 (some (rwDev n.rword)) (target n)
    exec (.transferTimeout id) s = leaves u (((inThread u o).netBar o n (.ack (rangeSum n.unconf) 69)).endEng o (some 0)))
  ∧ (∀ (s : State) id o n, s.op? id = some o → o.eng = some (.net n) → n.fn ≠ 1 → ¬ Silent s n.last n.die → exec (.transferTimeout id) s = .next s)

/-- R372, R376, R379, R384, R386: a GET's answer lands under its token, in whole words, a line or block at a time, the lines that it completes with it, and is
accounted once it has; the last one ends the GET; a late one is dropped; a refusal ends the GET; its ranges without an answer for XFERTO settle. -/
def Sys2Proof.Claims.GetsEnd : Prop :=
  (∀ s m peer seen o n reason short, Hears s m peer (.refused reason short) seen o n → n.fn = 1 →
    let u := (s.takeMsg m).netErr o.crew reason 1 (some (rwDev n.rword)) (target n)
    exec (.refusalReceive m) s = leaves u (((((hearing u o seen).dropOwn n).landLines o.crew n.lines).netBar o n
      (.settle (rangeSum n.left + n.unaccounted) 66)).endEng o (some 1)))
  ∧ (∀ s m peer lo tok bs edge seen o n k r n1 v at_ xs got, Hears s m peer (.rmaResp lo tok bs edge) seen o n → n.fn = 1 →
    s.ownReq? n.die n.mid = some r → s.crews[o.crew]? = some k → k.st ≠ .saved → Landing s m lo tok bs edge n r n1 v →
    n1.landing = some (m, at_, xs, got) →
    let u := hearing v o seen
    let len := getStep (n.addr + at_) xs.length
    (xs = [] → exec (.getResponseLand m) s = leaves s (u.getLanded m o n1))
    ∧ (∀ ps, xs ≠ [] → u.piecesOf k k.ctxid kWrite (n.addr + at_) len = .ok ps →
      let left := dropRange at_ len n1.left
      let ls := netLanded k n1 left
      let w := ((u.writePieces o.crew ps (xs.take len)).modReq n.die r.seq (fun r => { r with unland := dropRange at_ len r.unland })).landLines o.crew ls
      let n2 := { n1 with left := left, lines := n1.lines.filter (fun l => !(ls.contains l)), landing := some (m, at_ + len, xs.drop len, got + len) }
      exec (.getResponseLand m) s = leaves s (if len < xs.length then w.setNet o.id n2 else w.getLanded m o n2))
    ∧ (∀ f, xs ≠ [] → u.piecesOf k k.ctxid kWrite (n.addr + at_) len = .error f → exec (.getResponseLand m) s
        = leaves s ((((((u.takeMsg m).netErr o.crew (netLocal f) 1 (some (rwDev n.rword)) (some f.va)).dropOwn n1).landLines o.crew n1.lines).netBar
          o n1 (.settle (rangeSum n1.left + got) 66)).endEng o (some 1))))
  ∧ (∀ (s : State) m o n at_ xs got, n.landing = some (m, at_, xs, got) →
    let u := if got = 0 then s.takeMsg m else (s.takeMsg m).netBar o n (.land got)
    s.getLanded m o n = if n.left = [] then (u.dropOwn n).endEng o none else u.setNet o.id { n with landing := none })
  ∧ (∀ s m peer lo tok bs edge seen o n k r, Hears s m peer (.rmaResp lo tok bs edge) seen o n → n.fn = 1 → s.ownReq? n.die n.mid = some r →
    s.crews[o.crew]? = some k → k.st ≠ .saved →
    (n.landing = none → s.tokenFor n.die tok r lo bs.length = none → exec (.getResponseLand m) s = .next (s.takeMsg m))
    ∧ (∀ x q, n.landing = some (x, q) → x ≠ m → exec (.getResponseLand m) s = .next s))
  ∧ (∀ s m peer lo tok bs edge seen mid, Came s m peer mid (.rmaResp lo tok bs edge) seen →
    (s.net? mid = none ∨ ∃ o n k, s.net? mid = some (o, n) ∧ s.crews[o.crew]? = some k ∧ k.st = .saved) →
    exec (.getResponseLand m) s = .next (s.takeMsg m))
  ∧ (∀ (s : State) id o n k, s.op? id = some o → o.eng = some (.net n) → s.crews[o.crew]? = some k → k.st ≠ .saved → n.fn = 1 →
    let due := n.asks.filter (fun a => decide (a.2.2 + irXferto (s.iris n.die).cfg ≤ s.dtime))
    (due = [] → exec (.transferTimeout id) s = .next s)
    ∧ (due ≠ [] →
      let cut := fun (rs : List (Nat × Nat)) => due.foldl (fun rs a => dropRange a.1 a.2.1 rs) rs
      let whole := heldDone n.addr n.len (cut n.left) n.held
      let q := ((inThread s o).netErr o.crew 6 1 (some (rwDev n.rword)) (target n)).getHeld o { n with left := cut n.left } k whole
      let ls := netLanded k q.2 q.2.left
      let n2 := { q.2 with held := n.held.filter (fun h => !(whole.contains h)), lines := q.2.lines.filter (fun l => !(ls.contains l))
                           asks := n.asks.filter (fun a => !(due.contains a)) }
      let t := ((q.1.landLines o.crew ls).modIris n.die (fun x => { x with
          reqs := x.reqs.map (fun r => if r.own ∧ r.mid = n.mid then { r with ungr := cut r.ungr, unland := q.2.left } else r)
          toks := (x.toks.map (fun t => if t.mid = n.mid ∧ t.peer = s.devid.toNat then { t with left := cut t.left } else t)).filter
            (fun t => decide (t.left ≠ [])) })).netBar o n (.settle (rangeSum n.left - rangeSum (cut n.left)) 69)
      exec (.transferTimeout id) s = leaves s (if q.2.left = [] ∧ q.2.landing = none then (t.dropOwn n).endEng o (some 0)
        else (t.setNet o.id n2).stepOpDone o.crew (some 0))))

/-- R372, R376 to R378, R383, R384, R386, R388: how a PUT and a GET end.
Model's choices it rests on: log entries 29, 70, 90, 117. -/
def Obligations.TransfersEnd : Prop := Claims.PutsEnd ∧ Claims.GetsEnd

/-- R206, R385, R386: the lanes of a remote atomic execute in ascending order at their words, a lane past the window or whose word cannot be reached is answered
with its reason, and the reply lands the old values; a write belongs to the release sequences of what it reads, and with REL is a release (R213, R214). -/
def Sys2Proof.Claims.RemoteAtomicsExecute : Prop :=
  (∀ s m peer mid aop n rel rw lanes seen w, Came s m peer mid (.ratom aop n rel rw lanes) seen → s.winFor peer 2 rw = some w →
    let q := (inWork (s.takeMsg m) seen).raExecs w aop n rel lanes
    exec (.ratomExecute m) s = leaves s (q.1.send peer mid (.ratomReply q.2)))
  ∧ (∀ s m peer mid aop n rel rw lanes seen, Came s m peer mid (.ratom aop n rel rw lanes) seen → s.winFor peer 2 rw = none →
    exec (.ratomExecute m) s = .next ((s.takeMsg m).send peer mid (.ratomReply (lanes.map (fun l => ⟨l.lane, 0, 3, false⟩)))))
  ∧ (∀ (s : State) w aop n rel l ls, ∃ t x, s.raExecs w aop n rel (l :: ls) = ((t.raExecs w aop n rel ls).1, x :: (t.raExecs w aop n rel ls).2) ∧ x.lane = l.lane
      ∧ (w.len < l.off + n → t = s ∧ x.reason = 3)
      ∧ (∀ f, l.off + n ≤ w.len → s.xlate w.ctxid ((w.base + l.off) % 2 ^ 64) n kAtomic = .error f → t = s ∧ x.reason = 4)
      ∧ (∀ key, l.off + n ≤ w.len → s.xlate w.ctxid ((w.base + l.off) % 2 ^ 64) n kAtomic = .ok key → x.reason = 0 ∧ x.old = s.rd key n
          ∧ x.bad = s.bad key n ∧ (s.bad key n = true → t = s) ∧ (s.bad key n = false →
            let hs : List Head := (if rel then [⟨none, 2, s.actor.past⟩] else []) ++ headsIn (s.lastWrites none key n s.hist.length)
            t = ((s.withHeads hs).wr key n (atomNew aop (8 * n) (s.rd key n) l.cmp l.b)).relaxed)))
  ∧ (∀ s m peer rs seen o mid d n last rw, Came s m peer mid (.ratomReply rs) seen → peer = rwDev rw → o.eng = some (.ra mid d n last rw) →
    s.ops.findSome? (fun o => match o.eng with | some (.ra i d n _ rw) => if i = mid then some (o, d, n, rw) else none | _ => none) = some (o, d, n, rw) →
    (∀ f ∈ o.fills, ∃ r ∈ rs, r.lane = f.lane) → (∀ r ∈ rs, r.reason = 0) →
    let here := o.fills.filterMap (fun f => rs.find? (fun r => decide (r.lane = f.lane)))
    exec (.ratomReply m) s = .next (((here.foldl (fun s r => s.landLane o r.lane (loadLanes d n false r.old (fun _ => r.bad))) (s.takeMsg m)).modOp o.id
      (fun o => { o with fills := [] })).endEng o none))

/-- R390 to R394: the switch opens a slot for a new key, adds inputs that agree with it, answers a closed key 2, a mismatch 3, a full table 4, and closes a slot
that every input below has reached or whose time has passed, before anything that comes later; a switch that is not the root forwards its partials; the
answer lands by lines and its last byte ends the REDNET; the device itself answers 5. -/
def Sys2Proof.Claims.ReductionsComplete : Prop :=
  (∀ s m peer mid c seen, Came s m peer mid (.contrib c) seen →
    let v := (s.takeMsg m).slotsDue
    let t : State := { v with closed := v.closed.filter (fun k => decide (s.dtime ≤ k.2.2.2)) }
    let shut := ∃ k ∈ t.closed, k.1 = c.fgrp ∧ k.2.1 = c.cseq ∧ k.2.2.1 = c.op
    (shut → exec (.reductionArrival m) s = .next (t.send peer mid (.redResult 2 false 0 [])))
    ∧ (∀ x, ¬ shut → v.slots.find? (fun x => x.head.sameKey c) = some x → x.mismatch c = true →
        exec (.reductionArrival m) s = .next (t.send peer mid (.redResult 3 false 0 [])))
    ∧ (¬ shut → v.slots.find? (fun x => x.head.sameKey c) = none → 4096 ≤ v.slots.length →
        exec (.reductionArrival m) s = .next (t.send peer mid (.redResult 4 false 0 [])))
    ∧ (∀ x, ¬ shut → v.slots.find? (fun x => x.head.sameKey c) = some x → x.mismatch c = false →
        let y : SwSlot := { x with inputs := x.inputs ++ [(c, peer, mid)] }
        let u : State := { t with slots := v.slots.map (fun z => if z.id = x.id then y else z) }
        exec (.reductionArrival m) s = .next (if Config.swBelow c.fgrp ≤ popMask y.ranks then u.closeSlot y else u))
    ∧ (¬ shut → v.slots.find? (fun x => x.head.sameKey c) = none → v.slots.length < 4096 →
        let y : SwSlot := ⟨v.nextMsg, c, [(c, peer, mid)], s.dtime⟩
        let u : State := { t with slots := v.slots ++ [y], nextMsg := v.nextMsg + 1 }
        exec (.reductionArrival m) s = .next (if Config.swBelow c.fgrp ≤ popMask y.ranks then u.closeSlot y else u)))
  ∧ (∀ (s : State) id x, s.slots.find? (fun x => decide (x.id = id)) = some x →
    exec (.reductionSlotTimeout id) s = .next (if x.opened + x.head.timeout ≤ s.dtime then s.closeSlot x else s))
  ∧ (∀ (s : State), s.slotsDue = (s.slots.filter (fun x => decide (x.opened + x.head.timeout ≤ s.dtime))).foldl State.closeSlot s)
  ∧ (∀ (s : State) x, Config.swRoot x.head.fgrp = false → s.closeSlot x =
      { s with slots := s.slots.filter (fun y => decide (y.id ≠ x.id))
               closed := s.closed ++ [(x.head.fgrp, x.head.cseq, x.head.op, s.dtime + 4 * x.head.timeout)]
               up := s.up ++ [slotPartial x.head (x.inputs.map Prod.fst) x.ranks] })
  ∧ (∀ (s : State) id o n k st bs b, s.netOf id = some (o, n) → s.crews[o.crew]? = some k → k.st ≠ .saved → n.fn = 3 → n.result = some (st, bs) →
    exec (.reductionResultLand id b) s = leaves s ((inThread s o).redLand o n st bs b))
  ∧ (∀ (s : State) id o n k m st ns rk pl b, s.netOf id = some (o, n) → s.crews[o.crew]? = some k → k.st ≠ .saved → n.fn = 3 → n.result = none →
    n.asked = true → s.redAnswer? n.mid = some (m, .redResult st ns rk pl) →
    let bs := natLe 32 (redHeader ((n.grp.map RedGrp.fgrp).getD 0) (bitsOf n.rword 31 0) st ns rk pl.length) ++ pl
    let n2 : NetOp := { n with result := some (st, bs), left := [(0, bs.length)] }
    let u := (s.takeMsg m).setNet id n2
    exec (.reductionResultLand id b) s = leaves u ((inThread u o).redLand o n2 st bs b))
  ∧ (∀ (s : State) id o n, s.netOf id = some (o, n) → n.fn = 3 → n.asked = true → n.result = none → s.redAnswer? n.mid = none → Silent s n.last n.die →
    let bs := natLe 32 (redHeader ((n.grp.map RedGrp.fgrp).getD 0) (bitsOf n.rword 31 0) 5 false 0 0)
    exec (.unreachable id) s = .next (s.setNet o.id { n with result := some (5, bs), left := [(0, bs.length)] }))
  ∧ (∀ (s : State) id o n, s.netOf id = some (o, n) → ¬ Silent s n.last n.die → exec (.unreachable id) s = .next s)

/-- R385, R390 to R394: remote atomics and reductions.
Model's choices it rests on: log entries 12, 71, 90, 103. -/
def Obligations.RemoteAtomicsAndReductions : Prop := Claims.RemoteAtomicsExecute ∧ Claims.ReductionsComplete

namespace Sys2Proof.Claims
open Sys2Proof.Machine

/-- Crew `ci` can be saved, and its image is `img` (R403 to R405). -/
def Savable (s : State) (ci why : Nat) (k : Crew) (img : List Byte) : Prop :=
  s.crews[ci]? = some k ∧ s.saveReady ci = true ∧ img = s.imageOf ci why k

/-- The crew of a granule of a crew's storage, and what becomes of the crew (R412). -/
inductive GranuleRow : Granule → Nat → (Crew → Crew) → Prop where
  | lane (ci wi r l : Nat) : GranuleRow (.lane ci wi r l) ci
      (fun k => k.modWarp wi (fun w => w.setLanes r (1#64 <<< l) (fun i => { w.lane r i with poison := true })))
  | scalar (ci wi r : Nat) (h : 1 ≤ r ∧ r < 64) : GranuleRow (.scalar ci wi r) ci
      (fun k => k.modWarp wi (fun w => { w with spoison := w.spoison ||| (1#64 <<< r) }))
  | mask (ci wi r : Nat) (h : 1 ≤ r ∧ r < 8) : GranuleRow (.mask ci wi r) ci
      (fun k => k.modWarp wi (fun w => { w with mpoison := w.mpoison ||| (1#8 <<< r) }))
  | scratch (ci w : Nat) : GranuleRow (.scratch ci w) ci (fun k => if 4 * w < k.z then { k with spPoison := k.spPoison.set w 1 } else k)
  | tile (ci w : Nat) : GranuleRow (.tile ci w) ci (fun k => if 4 * w < 1024 * k.image.tilekib then { k with tilePoison := k.tilePoison.set w 1 } else k)
  | acc (ci a x : Nat) (h : x < 4096) : GranuleRow (.acc ci a x) ci
      (fun k => { k with accs := modAt k.accs a (fun q => { q with poison := q.poison.set x 1 }) })
  | tag (ci t : Nat) : GranuleRow (.tag ci t) ci (fun k => if t < 8 * k.image.warps then { k with tagPoison := k.tagPoison.set t 1 } else k)

/-- The ROM takes a firmware image (R425): its public key is that of its slot by the slot's digest in the fuses, the slot is not revoked, and the
signature over the manifest and the image's digest holds. -/
def Signed (b : BootInput) : Prop :=
  (b.slot < 4 ∧ Config.shake256 b.pub = Config.fuseDigest b.fuses b.slot) ∧ Config.fuseRevoked b.fuses b.slot = false
    ∧ Config.falconOk b.pub (b.manifest ++ bytes64 (Config.shake256 b.image)) b.sig = true

/-- The FAILCODE of a cold reset that meets these, in the order of its stages (R423, R425). -/
def failOf (b : BootInput) (fused : Nat) : Nat :=
  if b.cores0 < 264 then 3 else if b.cores1 < 264 then 4 else if b.memOk = false then 5 else if b.bridgeOk = false then 6
  else if imageSigned b = false then 1 else if b.version < fused then 2 else if b.heartbeat = false then 7 else 0

end Sys2Proof.Claims

/-- R288, R389, R403 to R405, R407: a crew that can be saved is, its image at the next place of its context's area; an area without room ends the command with
status 3. -/
def Sys2Proof.Claims.CrewsAreSaved : Prop :=
  (∀ (s : State) ci k img die c a, let v := inWork s []
    Savable v ci 0 k img → v.preempting k.ctxid = some (die, c) → v.saveRoom k.ctxid img.length = some a →
    exec (.crewSave ci 0) s = leaves s (((v.saveCrew ci 0 k a img).countSaved die).preemptCheck))
  ∧ (∀ (s : State) ci k img die c, let v := inWork s []
    Savable v ci 0 k img → v.preempting k.ctxid = some (die, c) → v.saveRoom k.ctxid img.length = none →
    exec (.crewSave ci 0) s = leaves s (v.endCmd die c 3 c.saved))
  ∧ (∀ (s : State) ci k img a, let v := inWork s []
    Savable v ci 2 k img → v.preempting k.ctxid = none → v.saveRoom k.ctxid img.length = some a →
    exec (.crewSave ci 2) s = leaves s (v.saveCrew ci 2 k a img))
  ∧ (∀ (s : State) ci why, (inWork s []).saveReady ci = false → exec (.crewSave ci why) s = .next s)
  ∧ (∀ (s : State) ci why k a img, s.crews[ci]? = some k →
    let t := s.saveCrew ci why k a img
    t.crews[ci]? = some { k with st := .saved, savedWhy := why, savedAt := memKey a.tgt (a.base + a.used) } ∧ (∀ j ≠ ci, t.crews[j]? = s.crews[j]?)
      ∧ t.mem = (s.wrL (memKey a.tgt (a.base + a.used)) img).mem
      ∧ (∀ o ∈ t.ops, o.crew = ci → s.withdraws o = false) ∧ (∀ o ∈ s.ops, o.crew = ci → s.withdraws o = true → o.withdrawn ∈ t.withdrawn))
  ∧ (∀ (s : State) o c, o.eng = some (.cp c) → c.begun = true →
    (s.withdraws o = true ↔ c.fn = 10 ∧ c.left ≠ [] ∧ (∀ r ∈ c.left, s.recvSaved o c (c.recvOf r.1) = true)
      ∧ ∀ q ∈ c.owed, ∃ r ∈ c.left, c.recvOf r.1 = c.recvOf q.1))

/-- R403, R406, R411: a saved crew comes back, on a core that can take it, with the resources of its image and room in the copy engine, its registers and
scratchpad as the bytes of the image stand in memory; a migration saves with WHY 1, restores at once, and is reported. -/
def Sys2Proof.Claims.CrewsAreRestored : Prop :=
  (∀ (s : State) ci core k, let v := inWork s []
    s.crews[ci]? = some k → k.st = .saved → (k.savedWhy ≠ 0 ∨ v.resuming k.ctxid = true) → v.restoreOk ci core k = true →
    s.fits k.image k.launch (k.die, core) = true ∧ exec (.crewRestore ci core) s = leaves s ((v.restoreCrew ci core k).preemptCheck))
  ∧ (∀ (s : State) ci core k, s.crews[ci]? = some k → (k.st ≠ .saved ∨ (inWork s []).restoreOk ci core k = false) →
    exec (.crewRestore ci core) s = .next s)
  ∧ (∀ (s : State) (k : Crew) wi w, k.warps[wi]? = some w → ∃ x, (s.loadCrew k).warps[wi]? = some x
    ∧ (∀ r < 64, x.sregs[r]? = some (BitVec.ofNat 64 (s.rd (k.savedAt + 512 + 3072 * wi + 1536 + 8 * r) 8)))
    ∧ (∀ r v l y, w.regs[r]? = some v → v[l]? = some y → ∃ u z, x.regs[r]? = some u ∧ u[l]? = some z
      ∧ z.data = BitVec.ofNat 32 (s.rd (k.savedAt + imgRegs k.image + 272 * (k.image.regs * wi + r) + 4 * l) 4)))
  ∧ (∀ (s : State) (k : Crew) i, i < 128 * k.image.scrlines → (s.loadCrew k).sp.get i = s.mem.get (k.savedAt + imgSpad k.image + i))
  ∧ (∀ (k : Crew), let i := k.image
    imgRegs i = 512 + 3072 * i.warps ∧ imgSpad i = imgRegs i + alignUp (272 * (i.warps * i.regs)) 256
      ∧ imgTags i = imgSpad i + alignUp (128 * i.scrlines + (i.scrlines + 7) / 8) 256)
  ∧ (∀ (s : State) die src dst d ci k a, let v := inWork s []
    s.dies[die]? = some d → v.oldest die src = some ci → s.crews[ci]? = some k →
    v.saveRoom k.ctxid (v.imageOf ci 1 k).length = some a → src ≠ dst → v.saveReady ci = true → v.restoreOk ci dst k = true →
    (∀ m ∈ d.moved, m.1 ≠ src ∨ m.2 + 1000000 ≤ s.dtime) →
    exec (.thermalMigration die src dst) s = leaves s ((((v.saveCrew ci 1 k a (v.imageOf ci 1 k)).restoreCrew ci dst k).modDie die (fun d =>
      { d with moved := (src, s.dtime) :: d.moved.filter (fun m => decide (m.1 ≠ src)) })).event die src .migration dst false))
  ∧ (∀ (s : State) die src dst, s.oldest die src = none → exec (.thermalMigration die src dst) s = .next s)

/-- R288, R389, R403 to R407, R411: crews leave their cores and come back.
Model's choices it rests on: log entries 11, 79, 90, 99. -/
def Obligations.CrewsAreSavedAndRestored : Prop := Claims.CrewsAreSaved ∧ Claims.CrewsAreRestored

/-- The power manager may give a core these allowances for the window that begins: it has given it none, and neither falls below what the larger consumer of
the two gets (R408). -/
def Sys2Proof.Claims.Grantable (s : State) (d : Die) (die core vec mat : Nat) : Prop :=
  (core, s.dtime / 1000) ∉ d.granted ∧ if Config.matrixLeads die core (s.dtime / 1000) = true then mat ≤ vec else vec ≤ mat

/-- R397, R408 to R410, R417: the budget that PWRSET set takes effect with the next window; a core gets its allowances once in a window, between 25 % and 100 %,
at most 50 % under the thermal clamp, and the larger consumer's falls first; the clamp lowers both of every core of its die; an allowance that falls, and the
clamp's beginning and end, are reported; nothing else changes. -/
def Sys2Proof.Claims.PowerSetsAllowances : Prop :=
  (∀ (s : State) die core vec mat d, s.dies[die]? = some d → die < 2 → core < 268 → 25 ≤ vec → vec ≤ 100 → 25 ≤ mat → mat ≤ 100 →
    (s.clamp.getLsbD die = true → vec ≤ 50 ∧ mat ≤ 50) → s.throttle.wf = true → Grantable s d die core vec mat →
    ∃ t, exec (.powerWindow die core vec mat) s = .next t ∧ t.allowance die core = (vec, mat)
      ∧ (let u := ({ s.budgetWindow die with throttle := t.throttle } : State).modDie die (fun d =>
          { d with granted := (core, s.dtime / 1000) :: d.granted.filter (fun g => decide (g.1 ≠ core)) })
        t = if vec < (s.allowance die core).1 ∨ mat < (s.allowance die core).2 then u.event die core .power (256 * vec + mat) false else u)
      ∧ (∀ d c, d < 2 → c < 268 → (d, c) ≠ (die, core) → t.allowance d c = s.allowance d c))
  ∧ (∀ (s : State) die core vec mat, (vec < 25 ∨ mat < 25 ∨ 100 < vec ∨ 100 < mat ∨ (s.clamp.getLsbD die = true ∧ (50 < vec ∨ 50 < mat))) →
    ∃ t, exec (.powerWindow die core vec mat) s = .next t ∧ t.throttle = s.throttle)
  ∧ (∀ (s : State) die core vec mat d, s.dies[die]? = some d → ¬ Grantable s d die core vec mat →
    exec (.powerWindow die core vec mat) s = .next (s.budgetWindow die))
  ∧ (∀ (s : State) die d, s.dies[die]? = some d → ∃ e, (s.budgetWindow die).dies[die]? = some e ∧ e.budget = s.powerBudget die
      ∧ { e with budget := d.budget, nextBudget := d.nextBudget } = d
      ∧ (∀ b t, d.nextBudget = some (b, t) → s.powerBudget die = if t / 1000 < s.dtime / 1000 then b else d.budget)
      ∧ (d.nextBudget = none → s.powerBudget die = d.budget) ∧ ∀ x ≠ die, (s.budgetWindow die).dies[x]? = s.dies[x]?)
  ∧ (∀ (s : State) die, die < 2 → s.throttle.wf = true → (∀ c < 268, 25 ≤ (s.allowance die c).1 ∧ 25 ≤ (s.allowance die c).2) →
    ∃ t, exec (.thermalClamp die) s = .next t ∧ t.clamp.getLsbD die = true
      ∧ (let u := { s with throttle := t.throttle, clamp := t.clamp }
        t = if s.clamp.getLsbD die then u else u.event die 0 .clamp 0 false)
      ∧ (∀ c < 268, t.allowance die c = (min (s.allowance die c).1 50, min (s.allowance die c).2 50))
      ∧ (∀ d c, d < 2 → d ≠ die → c < 268 → t.allowance d c = s.allowance d c))
  ∧ (∀ (s : State) die, die < 2 → ∃ t, exec (.thermalClampRelease die) s = .next t ∧ t.clamp.getLsbD die = false
      ∧ (let u := { s with clamp := t.clamp }
        t = if s.clamp.getLsbD die then u.event die 0 .clampEnd 0 false else u)
      ∧ (∀ d ≠ die, t.clamp.getLsbD d = s.clamp.getLsbD d))

/-- R307, R412 to R414: an uncorrectable error poisons its granule, loses the frames that hold it, or kills the warp whose own state it hit, and is reported with
its structure; a corrected one is only counted, by its structure, and reported at most once per millisecond.
Model's choices it rests on: log entries 10, 75. -/
def Sys2Proof.Claims.ErrorsPoison : Prop :=
  (∀ g ci f, GranuleRow g ci f → ∀ (s : State) k, s.crews[ci]? = some k → k.st = .running →
    exec (.uncorrectableError g) s = .next ((s.modCrew ci f).event k.die k.core (.granule (structNo g)) (granuleNo g) false))
  ∧ (∀ (s : State) b, 32 * b < 3 * 2 ^ 52 → keyPa (32 * b) < tgtSize (keyTgt (32 * b)) →
    exec (.uncorrectableError (.block b)) s = .next (((s.framesAt (32 * b)).foldl (fun (s : State) p => s.loseFrame p.1 p.2)
      { s with memPoison := s.memPoison.set b 1 }).event (keyDie (32 * b)) 0 (.granule 10) (32 * b) false))
  ∧ (∀ (s : State) w, 4 * w < 3 * 2 ^ 52 → keyPa (4 * w) < tgtSize (keyTgt (4 * w)) →
    exec (.uncorrectableError (.cacheWord w)) s = .next (((s.framesAt (4 * w)).foldl (fun (s : State) p => s.loseFrame p.1 p.2)
      { s with wordPoison := s.wordPoison.set w 1 }).event (keyDie (4 * w)) 0 (.granule 9) (4 * w) false))
  ∧ (∀ (s : State) x c k r, s.ctxs[x]? = some c → c.st ≠ .ended → s.crews[c.crew]? = some k → k.st = .running → 1 ≤ r → r < c.sregs.length →
    exec (.uncorrectableError (.ctxScalar x r)) s = .next ((s.modCtx x (fun c => { c with spoison := c.spoison ||| (1#64 <<< r) })).event k.die k.core
      (.granule 8) (x * 2 ^ 32 + r) false))
  ∧ (∀ (s : State) ci wi k, s.crews[ci]? = some k → k.st = .running → wi < k.warps.length →
    exec (.uncorrectableError (.core ci wi)) s = .next ((s.killWarp ci wi).event k.die k.core (.granule 7) (ci * 2 ^ 32 + wi) false))
  ∧ (∀ (s : State) g, ∃ t, exec (.correctableError g) s = .next t ∧ t.crews = s.crews ∧ t.dies = s.dies ∧ t.ops = s.ops ∧ t.ctxs = s.ctxs
      ∧ (∀ a, a < 3 * 2 ^ 52 → s.mem.wf = true → t.mem.get a = s.mem.get a)
      ∧ (let x := structNo g + 16 * (512 * (s.granuleAt g).1 + (s.granuleAt g).2)
         let c := (s.errs.find? (fun c => decide (c.struct = x))).getD ⟨x, 0, none⟩
         (∃ told, t.errs = ⟨x, c.count + 1, told⟩ :: s.errs.filter (fun c => decide (c.struct ≠ x)))
         ∧ (∀ t0, c.told = some t0 → s.dtime < t0 + 1000000 → t = { s with errs := t.errs })))

/-- R416, R422, R423: the loss of power leaves BOOTSTAT RESET and, of the package, the fused counter and the staged map; a cold reset does the same and
starts the boot ROM. Host memory, and what the host has seen, lie outside the package.
Model's choices it rests on: log entries 2, 4, 76. -/
def Sys2Proof.Claims.PowerIsLost : Prop :=
  ∀ (s : State) b, ∀ p ∈ [(Instr.powerLoss, (0 : W64), (none : Option (Nat × BootInput))), (.coldReset b, 1, some (1, b))],
    ∃ t, exec p.1 s = .next t ∧ t.boot = { State.reset.boot with fused := s.boot.fused, staged := s.boot.staged, stat := p.2.1, run := p.2.2 }
      ∧ t = { State.reset with agenda := s.agenda, free := s.free, mem := t.mem, irqs := s.irqs, hostSaw := s.hostSaw, boot := t.boot }
      ∧ (s.mem.wf = true → ∀ a, t.mem.get a = if a < 3 * 2 ^ 52 then 0 else s.mem.get a)
      ∧ t.crews = [] ∧ t.ctxs = [] ∧ t.queues = [] ∧ t.jobs = [] ∧ t.ops = [] ∧ t.roots = [] ∧ t.rings = [] ∧ t.steps = [] ∧ t.wins = [] ∧ t.redgrps = []
      ∧ t.saves = [] ∧ t.slots = [] ∧ t.wire = [] ∧ t.memPoison = [] ∧ t.wordPoison = [] ∧ t.windows = List.replicate 64 0 ∧ t.wlock = false
      ∧ t.dies = [Die.reset, Die.reset] ∧ t.dtime = 0

/-- R11, R423 to R425, R427, R429: each turn of the boot is one stage: it ends in FAIL with its code, until the next cold reset, or moves STATE on; all five
end READY, or FAIL with the code of the first that fails, the good cores of both dies counted.
Model's choices it rests on: log entries 7, 77. -/
def Sys2Proof.Claims.BootRunsInStages : Prop :=
  (∀ b, imageSigned b = true ↔ Signed b)
  ∧ (∀ (s : State) rest, s.agenda = .boot :: rest → step s = .next ({ s with agenda := rest } : State).bootStep)
  ∧ (∀ (s : State), s.boot.run = none → s.bootStep = s)
  ∧ (∀ (s : State) n b, s.boot.run = some (n, b) →
      let w := s.stageWork b n
      let t := s.bootStep
      (stageFail b w.boot.fused n ≠ 0 → stageFail b w.boot.fused n < 256 → t.boot.run = none ∧ t.boot.stat.toNat % 16 = 5
        ∧ t.boot.stat.toNat / 2 ^ 8 % 2 ^ 8 = stageFail b w.boot.fused n)
      ∧ (stageFail b w.boot.fused n = 0 → t.boot.run = (if n < 5 then some (n + 1, b) else none)
        ∧ t.boot.stat.toNat % 16 = (match n with | 3 => 2 | 4 => 3 | 5 => 4 | _ => 1))
      ∧ t.mem = s.mem ∧ t.crews = s.crews)
  ∧ (∀ (s : State) b, let t := (s.coldReset b).bootStep.bootStep.bootStep.bootStep.bootStep
      let code := failOf b (min 64 (max s.boot.fused b.fused))
      t.boot.run = none ∧ t.boot.stat.toNat % 16 = (if code = 0 then 4 else 5) ∧ t.boot.stat.toNat / 2 ^ 8 % 2 ^ 8 = code
      ∧ t.boot.stat.toNat / 2 ^ 32 % 2 ^ 9 = b.cores0 % 2 ^ 9 ∧ t.boot.stat.toNat / 2 ^ 41 % 2 ^ 9 = b.cores1 % 2 ^ 9
      ∧ t.devid = b.devid.setWidth 64 ∧ t.boot.staged = s.boot.staged
      ∧ t.boot.fused = (let f := min 64 (max s.boot.fused b.fused); if code = 0 ∧ b.advance = true then min 64 (max f b.version) else f)
      ∧ (∀ i, 4 ≤ i → i < 8 → t.boot.meas[i]? = some 0) ∧ t.dies = [Die.reset, Die.reset] ∧ t.crews = [] ∧ t.mem = (s.coldReset b).mem)

/-- R422: a function reset ends every thread, frees the queues, rings and jobs, closes the host windows and drops stores to host memory not yet sent; live
sequences then retire one by one, and it completes once nothing is outstanding: what was configured returns to its reset values.
Model's choices it rests on: log entry 78. -/
def Sys2Proof.Claims.FunctionResets : Prop :=
  (∀ (s : State), ∃ t, exec .functionReset s = .next t ∧ t.windows = List.replicate 64 0 ∧ t.wlock = false ∧ t.queues = [] ∧ t.jobs = [] ∧ t.msix = []
      ∧ t.rings = [] ∧ t.heldUpds = [] ∧ t.withdrawn = [] ∧ (∀ o ∈ t.ops, ∃ p ∈ s.ops, p.id = o.id ∧ s.withdraws p = false)
      ∧ t.dtime = s.dtime ∧ t.devid = s.devid ∧ t.boot.meas = s.boot.meas ∧ t.boot.ports = s.boot.ports ∧ t.crews = s.crews.map Crew.cut
      ∧ (∀ k ∈ t.crews, k.st ≠ .saved ∧ ∀ w ∈ k.warps, w.liveMask = 0) ∧ (∀ o ∈ t.ops, ∀ c ∈ o.cells, keyTgt c.key ≠ 3)
      ∧ t.boot.stat.toNat % 16 = (if s.boot.run = none ∧ s.boot.stat.toNat % 16 ∈ [3, 4, 6] then 3 else s.boot.stat.toNat % 16))
  ∧ (∀ (s : State), s.boot.stat.toNat % 16 = 3 → s.boot.run = none → s.liveSlot = none → s.ops = [] →
      ∃ t, exec .functionResetComplete s = .next t ∧ t.boot.stat.toNat % 16 = 4
      ∧ t.steps = [] ∧ t.wins = [] ∧ t.redgrps = [] ∧ t.saves = [] ∧ t.roots = [] ∧ t.mem = s.mem
      ∧ (∀ k ∈ t.crews, k.st = .ended) ∧ (∀ d ∈ t.dies, d.pe = PageEng.reset ∧ d.iris.cfg = Iris.cfgReset))
  ∧ (∀ (s : State) p, s.boot.stat.toNat % 16 = 3 → s.boot.run = none → s.liveSlot = some p →
      rcState (s.recOf p.1 p.2) ≠ 0 ∧ exec .functionResetComplete s = .next (s.cutSeq p.1 p.2))
  ∧ (∀ (s : State), (s.boot.stat.toNat % 16 ≠ 3 ∨ s.boot.run ≠ none ∨ (s.liveSlot = none ∧ s.ops ≠ [])) → exec .functionResetComplete s = .next s)

/-- R427: a die whose scheduler core gives no heartbeat for 10 ms is stopped, with FWFAIL and FAILCODE 7, while its crews run on.
Model's choices it rests on: log entries 7, 78. -/
def Sys2Proof.Claims.SilentFirmwareStops : Prop :=
  (∀ (s : State) die core rest, s.agenda = .heartbeat die core :: rest →
    step s = .next (({ s with agenda := rest } : State).modDie die (fun d => { d with beats := modAt d.beats core (fun _ => s.dtime) })))
  ∧ (∀ (s : State) die d, die < 2 → s.dies[die]? = some d → s.boot.run = none → s.boot.stat.toNat % 16 ∈ [3, 4, 6] →
    (∃ t ∈ d.beats, t + 10000000 ≤ s.dtime) →
    ∃ t, exec (.watchdogTimeout die) s = .next t ∧ t.boot.stat.toNat % 16 = 6 ∧ t.boot.stat.toNat / 2 ^ 8 % 2 ^ 8 = 7 ∧ t.crews = s.crews
      ∧ t.dies[die]? = some { d with stopped := true } ∧ t.serves die = false)
  ∧ (∀ (s : State) die d, s.dies[die]? = some d →
    (s.boot.run ≠ none ∨ s.boot.stat.toNat % 16 ∉ [3, 4, 6] ∨ ∀ t ∈ d.beats, s.dtime < t + 10000000) → exec (.watchdogTimeout die) s = .next s)

/-- R11, R416, R422 to R425, R427, R429: the loss of power, the boot, function reset, the watchdog.
Model's choices it rests on: log entries 2, 4, 7, 76, 77, 78. -/
def Obligations.ResetsAndBoot : Prop :=
  Claims.PowerIsLost ∧ Claims.BootRunsInStages ∧ Claims.FunctionResets ∧ Claims.SilentFirmwareStops

/-- R408 to R414: allowances, and errors of storage.
Model's choices it rests on: log entries 10, 73, 74, 75, 116. -/
def Obligations.PowerAndErrors : Prop := Claims.PowerSetsAllowances ∧ Claims.ErrorsPoison

namespace Sys2Proof.Claims
open Sys2Proof.Machine

/-- The parcels at the issuing PC are `ps`, no shorter run of them is a group, and all of them are the group of `i` (R49 to R52). -/
structure Fetches (s : State) (e : Env) (ps : List Parcel) (i : Instr) : Prop where
  len : ps.length ≤ 6
  read : ∀ n < ps.length, s.parcel e (e.pc.toNat + 2 * n) = .ok (ps.getD n 0)
  short : ∀ n < ps.length, decode e.eng (ps.take n) = .more
  group : decode e.eng ps = .ok i

/-- What the instructions whose destination is a register of the issuer leave: every byte of memory and its poison, the operations in
flight, and all else but the crew of the issuer, of that crew all but its warps, and every other warp and context. -/
structure LeavesTheMachine (s t : State) (e : Env) : Prop where
  memory : ∀ a, t.rd a 1 = s.rd a 1
  poison : ∀ a n, t.bad a n = s.bad a n
  rest : t = { s with crews := t.crews, ctxs := t.ctxs }
  crews : ∀ c, c ≠ e.ci → t.crews[c]? = s.crews[c]?
  crew : ∀ k, s.crews[e.ci]? = some k → ∃ k', t.crews[e.ci]? = some k' ∧ k' = { k with warps := k'.warps }
  warps : ∀ w, w ≠ e.wi → t.warp? e.ci w = s.warp? e.ci w
  ctxs : ∀ x, e.who ≠ .ctx x → t.ctxs[x]? = s.ctxs[x]?

/-- Of the issuing warp, only the vector register `d` in the lanes `m`, the frontier and the loops may change. -/
def LeavesRegisters (w w' : Warp) (d : Nat) (m : W64) : Prop :=
  w' = { w with regs := w'.regs, frontier := w'.frontier, loops := w'.loops }
    ∧ (∀ r, r ≠ d → w'.regs[r]? = w.regs[r]?)
    ∧ (∀ l < 64, m.getLsbD l = false → w'.lane d l = w.lane d l)

/-- Of the issuing warp, only the mask register `md` in the lanes `m`, its poison mark, the frontier and the loops may change. -/
def LeavesMasks (w w' : Warp) (md : BitVec 3) (m : W64) : Prop :=
  w' = { w with mregs := w'.mregs, mpoison := w'.mpoison, frontier := w'.frontier, loops := w'.loops }
    ∧ (∀ r, r + 1 ≠ md.toNat → w'.mregs[r]? = w.mregs[r]?)
    ∧ (∀ r, r ≠ md.toNat → w'.mpoison.getLsbD r = w.mpoison.getLsbD r)
    ∧ (∀ l < 64, m.getLsbD l = false → (w'.mregs.getD (md.toNat - 1) 0).getLsbD l = (w.mregs.getD (md.toNat - 1) 0).getLsbD l)

/-- An instruction that writes the active lanes of one vector register, and can complete: the lane instructions, SEL, the shuffles and the scans. -/
inductive VectorForm (v : VEnv) (s : State) (e : Env) : Instr → Nat → Prop where
  | lane (i : Instr) (d : Nat) (xs : VEnv → List Src) (f : VEnv → Nat → Lane) : LaneRow i d xs f → LaneReady s e v [d] (xs v) → VectorForm v s e i d
  | sel (o : OpV3) (q : Pfx) : o.pfx = some q → LaneReady s e v [o.vd.toNat] (two o v) → MReady v.w (q.imx.toNat % 8) →
      VectorForm v s e (.sel o) o.vd.toNat
  | shuffle (i : Instr) (k : Shfl) (vd va : BitVec 7) (ea : Bool) (p : Option Pfx) (vb : List (BitVec 7 × Bool)) (n : VEnv → Nat → Nat) :
      ShuffleRow i k vd va ea p vb n → LaneReady s e v [vd.toNat] (vb.map (fun b => v.src b.1 b.2) ++ [⟨va.toNat, shuffleReads k v p n, ea⟩]) →
      VectorForm v s e i vd.toNat
  | scan (i : Instr) (vd va : BitVec 7) (ea : Bool) (op : Nat) (ex : Bool) (ok : Env → VEnv → Prop) (hd : Env → VEnv → Nat → Bool) :
      ScanRow i vd va ea op ex ok hd → LaneReady s e v [vd.toNat] [v.src va ea] → ok e v → VectorForm v s e i vd.toNat

/-- An instruction that writes the active lanes of one mask register, and can complete: the comparisons, the mask logic, TSTF. -/
inductive MaskForm (v : VEnv) (s : State) (e : Env) : Instr → BitVec 3 → Prop where
  | lane (i : Instr) (md : BitVec 3) (xs : VEnv → List Src) (p : VEnv → Nat → Bool) : MaskRow i md xs p → LaneReady s e v [] (xs v) → MaskForm v s e i md
  | logic (i : Instr) (md : BitVec 3) (ms : List (BitVec 3)) (f : Env → Warp → W64) : MaskLogicRow i md ms f → venv s e = .ok v →
      (∀ m ∈ ms, MReady v.w m.toNat) → MaskForm v s e i md
  | tstf (o : OpVTst) : venv s e = .ok v → InRange e [o.vs1.toNat] → MaskForm v s e (.tstf o) o.md

/-- An instruction that writes one scalar register from scalar registers and immediates, and can complete. -/
inductive ScalarForm (s : State) (e : Env) : Instr → Nat → Prop where
  | alu (i : Instr) (o : OpS3) (f : W64 → W64 → W64) (g : W32 → W32 → W32) : ScalarRow i o f g → SReady s e o.ss1.toNat → SReady s e o.ss2.toNat →
      ScalarForm s e i o.sd.toNat
  | imm (i : Instr) (o : OpSI) (f : W64 → W64 → W64) : ScalarImmRow i o f → SReady s e o.ss1.toNat → ScalarForm s e i o.sd.toNat
  | clz (o : OpS2) : SReady s e o.ss1.toNat → ScalarForm s e (.sclz o) o.sd.toNat
  | popc (o : OpS2) : SReady s e o.ss1.toNat → ScalarForm s e (.spopc o) o.sd.toNat
  | movi (o : OpSIm) : ScalarForm s e (.smovi o) o.sd.toNat

/-- The value of a finite exact value as a rational number. -/
def value : Ext → Option ℚ
  | .fin neg m e => some ((if neg then -1 else 1) * (m : ℚ) * (2 : ℚ) ^ e)
  | _ => none

/-- A floating-point format of R25: its code, exponent and mantissa widths, bias, emin, whether it encodes infinity, its largest finite
encoding, and that value. -/
inductive FloatRow : Nat → Nat → Nat → Int → Int → Bool → Nat → ℚ → Prop where
  | fp32 : FloatRow 0 8 23 127 (-126) true 0x7F7FFFFF ((2 - 2 ^ (-23 : Int)) * 2 ^ (127 : Int))
  | bf16 : FloatRow 1 8 7 127 (-126) true 0x7F7F ((2 - 2 ^ (-7 : Int)) * 2 ^ (127 : Int))
  | fp16 : FloatRow 2 5 10 15 (-14) true 0x7BFF 65504
  | e4m3 : FloatRow 3 4 3 7 (-6) false 0x7E 448
  | e5m2 : FloatRow 4 5 2 15 (-14) true 0x7B 57344
  | e3m2 : FloatRow 5 3 2 3 (-2) false 0x1F 28
  | e2m3 : FloatRow 6 2 3 1 0 false 0x1F (15 / 2)
  | e2m1 : FloatRow 7 2 1 1 0 false 0x7 6

/-- The number that a code of the fields sign, E, m stands for; none where it is an infinity or a NaN. -/
def floatValue (mb : Nat) (bias emin : Int) (neg : Bool) (E m : Nat) : ℚ :=
  (if neg then -1 else 1) * (if E = 0 then (m : ℚ) * 2 ^ (emin - mb) else (1 + (m : ℚ) * 2 ^ (-(mb : Int))) * 2 ^ ((E : Int) - bias))

/-- The up decision of round_q (R31): the modes are 0 RNE, 1 RTZ, 2 RUP, 3 RDN, 4 RNA, 5 RTO. -/
def roundsUp (mode : Nat) (neg : Bool) (n : Nat) (f : ℚ) : Prop :=
  (mode = 0 ∧ (1 / 2 < f ∨ (f = 1 / 2 ∧ n % 2 = 1))) ∨ (mode = 4 ∧ 1 / 2 ≤ f) ∨ (mode = 2 ∧ 0 < f ∧ neg = false)
    ∨ (mode = 3 ∧ 0 < f ∧ neg = true) ∨ (mode = 5 ∧ 0 < f ∧ n % 2 = 0)

end Sys2Proof.Claims

/-- R345, R416, R417, R423, R424 where they give reset values; the rest by log entries 2 and 4: no crew, no operation, no queue; memory lists
nothing and reads 0 (log entry 2); BOOTSTAT reads 0; device time is 0 and no die is ahead of it (log entry 87); every host window entry and measurement register is 0. -/
def Obligations.ResetState : Prop :=
  State.reset.crews = [] ∧ State.reset.ctxs = [] ∧ State.reset.ops = [] ∧ State.reset.queues = [] ∧ State.reset.jobs = []
    ∧ State.reset.cur = none ∧ State.reset.agenda = [] ∧ State.reset.dtime = 0 ∧ State.reset.skew = (0, 0)
    ∧ State.reset.boot.stat = 0 ∧ State.reset.wlock = false ∧ State.reset.windows = List.replicate 64 0 ∧ State.reset.boot.meas = List.replicate 8 0
    ∧ (∀ a, State.reset.rd a 1 = 0) ∧ (∀ a n, State.reset.bad a n = false) ∧ step State.reset = .next State.reset

/-- The shape that `State.Inv` gives holds right after reset (R10, R132, R418, R424; the canonical form: log entry 2; the two leads: log entry 87). -/
def Obligations.ResetKeepsShape : Prop := State.Inv State.reset

/-- Every step keeps the shape: memory and its poison marks stay canonical, so that equal memories are equal data; the host window table keeps
its 64 entries (R418), the measurement registers stay eight (R424), the dies stay two (R10); their DTIMEs differ by less
than 100 ns (R132).
Model's choices it rests on: log entries 2, 87. -/
def Obligations.StepsKeepShape : Prop := ∀ s t, State.Inv s → step s = .next t → State.Inv t

/-- R49 to R52, R86, R89: with nothing else due, the context whose turn it is fetches its next group and runs it: a step is `exec` of the
instruction that the parcels at its PC decode to. A turn of the agenda that names a context does the same; a turn that is an agent's
indivisible step is `exec` of that row (log entry 1).
Model's choices it rests on: log entries 1, 13. -/
def Obligations.StepRunsTheDecodedInstruction : Prop :=
  (∀ (s : State) (e : Env) ps i, s.agenda = [] → s.cur = some e.who → s.env? e.who (baseHdr 0) = some e → Fetches s e ps i → step s = exec i s)
  ∧ (∀ (s : State) (e : Env) ps i rest, s.agenda = .issue e.who :: rest →
    let s1 : State := { s with agenda := rest, cur := some e.who }
    s1.env? e.who (baseHdr 0) = some e → Fetches s1 e ps i → step s = exec i s1)
  ∧ (∀ (s : State) i rest, s.agenda = .event i :: rest → isEvent i = true → step s = exec i ({ s with agenda := rest } : State))

/-- R49 to R67: words written out from the encodings of the spec decode to the instructions they stand for. -/
def Obligations.WordsDecode : Prop :=
  -- IADD.I32 v1, v2, v3: opcode 0x01, VD 14:8, VS1 21:15, VS2 28:22
  decode .vector [0x0103, 0x00C1] = .ok (.iaddI32 ⟨1, 2, 3, false, false, none⟩)
  -- ISUB_I32_16 v1, v2: OP 4:1 = 2, VD 9:5, VS 14:10
  ∧ decode .vector [0x0824] = .ok (.isubI32_16 ⟨1, 2⟩)
  -- PFX MASK = 1, RM = 0b110, Z = 1, then FADD.F32 v4, v5, v6
  ∧ decode .vector [0x319B, 0x0020, 0x8441, 0x0182] = .ok (.faddF32 ⟨4, 5, 6, false, false, some ⟨0, true, 0, 6, 1⟩⟩)
  -- SADD s1, s2, s3: opcode 0x40, FN5 30:26 = 0, SD 13:8, SS1 19:14, SS2 25:20
  ∧ decode .matrix [0x8181, 0x0030] = .ok (.sadd ⟨1, 2, 3, false⟩)
  -- EXIT: opcode 0x79, FN6 31:26 = 3
  ∧ decode .vector [0x00F3, 0x0C00] = .ok .exit
  -- SEQEND: opcode 0x7C, FN6 = 4; a vector program does not take it (R68, R268)
  ∧ decode .copy [0x00F9, 0x1000] = .ok .seqend
  ∧ decode .vector [0x00F9, 0x1000] = .bad 7 0x100000F9
  -- an all-zero parcel is ill-formed (R54)
  ∧ decode .vector [0] = .bad 2 0

/-- R49 to R68: no bit of an encoding is dropped. The parcels that encode a well-formed instruction decode to it again, with every operand at
every value its encoding admits, in every kind of program that takes it. -/
def Obligations.DecodeEncodeAgree : Prop :=
  ∀ (e : Engine) (i : Instr), i.isWord = true → i.WellFormed → i.takenBy e = true → decode e (encode i) = .ok i

/-- R59, R73, R125 to R129, R138, R139, R146, R154 to R156, R161: what the instructions with one register destination leave unchanged. A lane instruction, a
selection, a shuffle or a scan changes only the active lanes of its destination and the lanes that Z removes, a mask instruction only those bits of its
mask register, a scalar instruction only its register (nothing where that is s0, R125); memory, poison, special registers, other warps and crews stay. -/
def Obligations.RegisterInstructionsLeaveTheRest : Prop :=
  (∀ i d v s e, Issues s i e → VectorForm v s e i d →
    ∃ t w', exec i s = .next t ∧ LeavesTheMachine s t e ∧ t.warp? e.ci e.wi = some w' ∧ LeavesRegisters v.w w' d (v.act ||| v.zl))
  ∧ (∀ i md v s e, Issues s i e → MaskForm v s e i md → md ≠ 0 →
    ∃ t w', exec i s = .next t ∧ LeavesTheMachine s t e ∧ t.warp? e.ci e.wi = some w' ∧ LeavesMasks v.w w' md (v.act ||| v.zl))
  ∧ (∀ i d s e, Issues s i e → ScalarForm s e i d → SFree s e d →
    ∃ t, exec i s = .next t ∧ LeavesTheMachine s t e
      ∧ (∀ r, r ≠ d → t.sreg e.who r = s.sreg e.who r) ∧ t.sreg e.who 0 = 0
      ∧ (∀ w, s.warp? e.ci e.wi = some w → ∃ w', t.warp? e.ci e.wi = some w'
          ∧ w' = { w with sregs := w'.sregs, spend := w'.spend, spoison := w'.spoison, frontier := w'.frontier, loops := w'.loops }))

/-- R68: an instruction that a sequencer program does not execute traps ILLEGAL_INSTR with reason 7 in that context, and changes nothing else. -/
def Obligations.SequencersTrapOtherInstructions : Prop :=
  ∀ (s : State) (i : Instr) (e : Env) x c, isEvent i = false → s.cur = some e.who → e.who = .ctx x → s.ctxs[x]? = some c → s.env? e.who (hdrOf i) = some e →
    i.takenBy e.eng = false →
    exec i s = .next ({ s with ctxs := s.ctxs.set x { c with st := .trapped, wasTrapped := true, cause := 1, tpc := c.pc.setWidth 64
                                                             info := BitVec.ofNat 64 (7 * 2 ^ 56 + i.baseWord % 2 ^ 32) } } : State)

/-- R353: while a die has a grid of its own that it can begin, no packet of a host queue that it serves is taken. -/
def Obligations.DeviceQueueFirst : Prop :=
  ∀ (s : State) q x, s.queue? q = some x → (s.grid? x.server).isSome = true → q < 2 ^ 15 →
    exec (.launchPacket q) s = .next s ∧ exec (.graphPacket q) s = .next s ∧ exec (.signalPacket q) s = .next s
    ∧ exec (.barrierAnd q) s = .next s ∧ exec (.barrierOr q) s = .next s ∧ exec (.copyPacket q) s = .next s
    ∧ exec (.seqadmit q) s = .next s ∧ exec (.seqcancel q) s = .next s ∧ exec (.malformedPacket q) s = .next s

/-- R25 to R27, R29: the value of every code of every number format, and round_q of R31 on exact values. -/
def Obligations.FormatValues : Prop :=
  (∀ f eb mb bias emin inf lc lv, FloatRow f eb mb bias emin inf lc lv →
    fmtP f = mb + 1 ∧ fmtEmin f = emin ∧ value (decodeFmt f lc) = some lv ∧ value (decodeFmt f 1) = some (2 ^ (emin - mb))
    ∧ ∀ (neg : Bool) E m, E < 2 ^ eb → m < 2 ^ mb →
      let c := (if neg then 2 ^ (eb + mb) else 0) + E * 2 ^ mb + m
      (inf = true → E = 2 ^ eb - 1 → decodeFmt f c = if m = 0 then .inf neg else .nan)
      ∧ (f = 3 → E = 15 → m = 7 → decodeFmt f c = .nan)
      ∧ ((inf = false ∨ E ≠ 2 ^ eb - 1) → ¬(f = 3 ∧ E = 15 ∧ m = 7) → value (decodeFmt f c) = some (floatValue mb bias emin neg E m)))
  ∧ (∀ c < 255, value (decodeFmt 12 c) = some (2 ^ ((c : Int) - 127))) ∧ decodeFmt 12 255 = .nan ∧ fmtP 12 = 1 ∧ fmtEmin 12 = -127
  ∧ (∀ E < 16, ∀ m < 8, value (decodeFmt 13 (8 * E + m)) = if E = 15 ∧ m = 7 then none else some (floatValue 3 15 (-14) false E m))
  ∧ (∀ c, 128 ≤ c → c < 256 → decodeFmt 13 c = .nan)
  ∧ (∀ c < 2 ^ 8, value (decodeFmt 8 c) = some ((BitVec.ofNat 8 c).toInt : ℚ)) ∧ (∀ c < 2 ^ 8, value (decodeFmt 9 c) = some (c : ℚ))
  ∧ (∀ c < 2 ^ 16, value (decodeFmt 10 c) = some ((BitVec.ofNat 16 c).toInt : ℚ))
  ∧ (∀ c < 2 ^ 32, value (decodeFmt 11 c) = some ((BitVec.ofNat 32 c).toInt : ℚ))
  ∧ (∀ f ∈ [8, 9, 10, 11], ∀ m e, ulpExp f m e = 0)
  ∧ (∀ (neg : Bool) (m : Nat) (e k : Int) mode, mode < 6 →
    let x : ℚ := (m : ℚ) * 2 ^ e / 2 ^ k
    let n := ⌊x⌋₊
    (roundsUp mode neg n (x - n) → roundQ neg m e k mode = n + 1) ∧ (¬ roundsUp mode neg n (x - n) → roundQ neg m e k mode = n))
end

