-- ==== Sys2Proof/Laws/Encoding.lean ====
section
/-! SUPPORT. What the decoder reads from the words the encoder writes: prefixes, base words of each shape,
compact parcels (R49 to R62). -/
namespace Sys2Proof.Laws

/-- Only a vector program takes a base that a PFX word may stand before (R58, R68). -/
theorem pfx_vector {e : Engine} {w : Nat} (hp : pfxTakes w = true) (ht : engineTakes e w = true) : e = .vector := by
  have hp' : w / 2 % 2 ^ 7 ≤ 0x3D ∨ (0x50 ≤ w / 2 % 2 ^ 7 ∧ w / 2 % 2 ^ 7 ≤ 0x70) := of_decide_eq_true hp
  cases e with
  | vector => rfl
  | matrix | copy =>
    exfalso
    simp only [engineTakes, Bool.and_eq_true, Bool.or_eq_true, decide_eq_true_eq] at ht
    omega
/-- A program that takes a base which a LIM word may stand before takes the LIM word too (R58, R60). -/
theorem lim_engine {e : Engine} {w : Nat} (hl : limTakes .vector w = true) (ht : engineTakes e w = true) : limTakes e w = true := by
  cases e with
  | vector => exact hl
  | matrix | copy =>
    simp only [engineTakes, limTakes, Bool.and_eq_true, Bool.or_eq_true, decide_eq_true_eq] at ht hl ⊢
    omega

/-- The two parcels of an odd word are split off as that word (R49). -/
theorem nextUnit_parcels (w : Nat) (h1 : w % 2 = 1) (h2 : w < 2 ^ 32) (ps : List Parcel) :
    nextUnit (parcelsOf w ++ ps) = .word w ps := by
  simp only [parcelsOf, List.cons_append, List.nil_append, nextUnit, BitVec.toNat_ofNat]
  rw [if_neg (by omega)]
  congr 1; omega

/-- A well-formed instruction has no reserved rounding code (R59). -/
theorem check_rm {i : Instr} (h : i.check = none) : rmLegal i.pfx? = true := by
  unfold Instr.check firstBad at h
  split at h
  · assumption
  · cases h

/-- A base word that decodes to a well-formed instruction is that instruction after its prefixes. -/
theorem finish_ok {e : Engine} {i : Instr} {w : Nat} (wf : i.WellFormed) (ht : engineTakes e w = true)
    (hp : i.pfx?.isSome = true → pfxTakes w = true) (hl : i.lim?.isSome = true → limTakes .vector w = true)
    (hd : decodeBase w i.pfx? i.lim? = .ok ⟨i, true⟩) : finishBase e w i.pfx? i.lim? = .ok i := by
  have h1 : (i.pfx?.isSome && !(pfxTakes w)) = false := by
    cases h : i.pfx?.isSome <;> simp_all
  have h2 : (i.lim?.isSome && !(limTakes e w)) = false := by
    cases h : i.lim?.isSome
    · rfl
    · simp [lim_engine (hl h) ht]
  unfold finishBase
  rw [hd]
  simp only [h1, h2, ht, check_rm wf, show i.check = none from wf]
  rfl

/-- The PFX word of the fields holds those fields (R55). -/
theorem pfx_word (p : Pfx) : putPfx p % 2 = 1 ∧ putPfx p < 2 ^ 32 ∧ isPfxWord (putPfx p) = true ∧ getPfx (putPfx p) = p := by
  obtain ⟨imx, z, vs3, rm, mask⟩ := p
  have := imx.isLt; have := vs3.isLt; have := rm.isLt; have := mask.isLt
  have hz : b2n z ≤ 1 := by cases z <;> decide
  refine ⟨?_, ?_, ?_, ?_⟩ 
  · simp only [putPfx]; omega
  · simp only [putPfx]; omega
  · have : putPfx ⟨imx, z, vs3, rm, mask⟩ / 2 % 2 ^ 7 = 0x4D := by simp only [putPfx]; omega
    exact decide_eq_true this
  · simp only [getPfx, putPfx, fld, bitAt, Pfx.mk.injEq, ← BitVec.toNat_inj, BitVec.toNat_ofNat]
    refine ⟨by omega, ?_, by omega, by omega, by omega⟩
    cases z <;> simp [b2n] <;> omega

/-- The LIM word of an immediate holds it (R55). -/
theorem lim_word (l : BitVec 24) : putLim l % 2 = 1 ∧ putLim l < 2 ^ 32 ∧ isPfxWord (putLim l) = false ∧ isLimWord (putLim l) = true ∧ fld 24 (putLim l) 8 = l := by
  have := l.isLt
  refine ⟨?_, ?_, ?_, ?_, ?_⟩ 
  · simp only [putLim]; omega
  · simp only [putLim]; omega
  · have : ¬ putLim l / 2 % 2 ^ 7 = 0x4D := by simp only [putLim]; omega
    exact decide_eq_false this
  · have : putLim l / 2 % 2 ^ 7 = 0x4E := by simp only [putLim]; omega
    exact decide_eq_true this
  · simp only [putLim, fld, ← BitVec.toNat_inj, BitVec.toNat_ofNat]; omega


/-- The parcels of a group with the words `p` and `l` before the base word `w`. -/
def groupOf (p : Option Pfx) (l : Option (BitVec 24)) (w : Nat) : List Parcel :=
  (match p with | some p => parcelsOf (putPfx p) | none => [])
    ++ (match l with | some l => parcelsOf (putLim l) | none => []) ++ parcelsOf w

/-- A group that begins with a PFX word. -/
theorem decode_pfx {x : Nat} {p : Pfx} (h1 : x % 2 = 1) (h2 : x < 2 ^ 32) (hx : isPfxWord x = true) (hg : getPfx x = p)
    (ps : List Parcel) : decode .vector (parcelsOf x ++ ps) = decodeAfterPfx .vector p ps := by
  unfold decode
  rw [nextUnit_parcels x h1 h2 ps]
  simp only [hx, hg, if_true]

/-- The base word after a LIM word. -/
theorem after_lim {e : Engine} {p : Option Pfx} {l : BitVec 24} {w : Nat} (h1 : w % 2 = 1) (h2 : w < 2 ^ 32)
    (hnp : isPfxWord w = false) (hnl : isLimWord w = false) : decodeAfterLim e p l (parcelsOf w) = finishBase e w p (some l) := by
  unfold decodeAfterLim
  rw [show nextUnit (parcelsOf w) = .word w [] by simpa using nextUnit_parcels w h1 h2 []]
  simp [hnp, hnl]

/-- A group that begins with a LIM word. -/
theorem decode_lim {e : Engine} {x : Nat} {l : BitVec 24} (h1 : x % 2 = 1) (h2 : x < 2 ^ 32) (hx : isPfxWord x = false)
    (hy : isLimWord x = true) (hg : fld 24 x 8 = l) (ps : List Parcel) :
    decode e (parcelsOf x ++ ps) = decodeAfterLim e none l ps := by
  unfold decode
  rw [nextUnit_parcels x h1 h2 ps]
  simp [hx, hy, hg]

/-- A LIM word after a PFX word. -/
theorem after_pfx_lim {e : Engine} {x : Nat} {p : Pfx} {l : BitVec 24} (h1 : x % 2 = 1) (h2 : x < 2 ^ 32) (hx : isPfxWord x = false)
    (hy : isLimWord x = true) (hg : fld 24 x 8 = l) (ps : List Parcel) :
    decodeAfterPfx e p (parcelsOf x ++ ps) = decodeAfterLim e (some p) l ps := by
  unfold decodeAfterPfx
  rw [nextUnit_parcels x h1 h2 ps]
  simp [hx, hy, hg]

/-- The base word after a PFX word. -/
theorem after_pfx {e : Engine} {p : Pfx} {w : Nat} (h1 : w % 2 = 1) (h2 : w < 2 ^ 32)
    (hnp : isPfxWord w = false) (hnl : isLimWord w = false) : decodeAfterPfx e p (parcelsOf w) = finishBase e w (some p) none := by
  unfold decodeAfterPfx
  rw [show nextUnit (parcelsOf w) = .word w [] by simpa using nextUnit_parcels w h1 h2 []]
  simp [hnp, hnl]

/-- A group of one base word. -/
theorem decode_base {e : Engine} {w : Nat} (h1 : w % 2 = 1) (h2 : w < 2 ^ 32)
    (hnp : isPfxWord w = false) (hnl : isLimWord w = false) : decode e (parcelsOf w) = finishBase e w none none := by
  unfold decode
  rw [show nextUnit (parcelsOf w) = .word w [] by simpa using nextUnit_parcels w h1 h2 []]
  simp [hnp, hnl]

/-- A group decodes as its base word with its prefixes. -/
theorem group_agrees {e : Engine} {p : Option Pfx} {l : Option (BitVec 24)} {w : Nat} (h1 : w % 2 = 1) (h2 : w < 2 ^ 32)
    (hnp : isPfxWord w = false) (hnl : isLimWord w = false) (hv : p.isSome = true → e = .vector) :
    decode e (groupOf p l w) = finishBase e w p l := by
  cases p with
  | none =>
    cases l with
    | none => exact decode_base h1 h2 hnp hnl
    | some l =>
      obtain ⟨a, b, c, c2, d⟩ := lim_word l
      exact (decode_lim a b c c2 d _).trans (after_lim h1 h2 hnp hnl)
  | some p =>
    obtain ⟨a', b', c', d'⟩ := pfx_word p
    obtain rfl := hv rfl
    cases l with
    | none => exact (decode_pfx a' b' c' d' _).trans (after_pfx h1 h2 hnp hnl)
    | some l =>
      obtain ⟨a, b, c, c2, d⟩ := lim_word l
      exact (decode_pfx a' b' c' d' _).trans ((after_pfx_lim a b c c2 d _).trans (after_lim h1 h2 hnp hnl))

/-- The parcels of an instruction that is no compact one. -/
theorem encode_word {i : Instr} (hc : i.isCompact = false) : encode i = groupOf i.pfx? i.lim? i.baseWord := by
  unfold encode
  rw [hc]; rfl


/-- A bit is at most 1. -/
theorem b2n_le (b : Bool) : b2n b ≤ 1 := by cases b <;> decide

/-- A field from its number. -/
theorem fld_eq {n w lo : Nat} {x : BitVec n} (h : w / 2 ^ lo % 2 ^ n = x.toNat) : fld n w lo = x := by
  rw [← BitVec.toNat_inj, fld, BitVec.toNat_ofNat, h]

/-- A bit from its number. -/
theorem bit_eq {w lo : Nat} {b : Bool} (h : w / 2 ^ lo % 2 = b2n b) : bitAt w lo = b := by
  rw [bitAt, h]; cases b <;> rfl

/-- Different vectors have different numbers. -/
theorem ne_num {n : Nat} {x y : BitVec n} (h : x ≠ y) : x.toNat ≠ y.toNat :=
  fun k => h (BitVec.eq_of_toNat_eq k)

/-- A bit fits one bit. -/
theorem b2n_lt (b : Bool) : b2n b < 2 ^ 1 := by cases b <;> decide

/-- Two conditions that hold. -/
theorem band {a b : Bool} (ha : a = true) (hb : b = true) : (a && b) = true := by rw [ha, hb]; rfl

/-- Bit 0 of a word, and the rest of it. -/
theorem peel_zero {w r : Nat} (h : w = 1 + 2 * r) : w % 2 = 1 ∧ w / 2 = r := by omega

/-- The `n` bits at `lo` of a word, and what stands above them. -/
theorem peel {w lo n x r : Nat} (h : w / 2 ^ lo = x + 2 ^ n * r) (hx : x < 2 ^ n) :
    w / 2 ^ lo % 2 ^ n = x ∧ w / 2 ^ (lo + n) = r := by
  constructor
  · rw [h, Nat.add_mul_mod_self_left, Nat.mod_eq_of_lt hx]
  · rw [Nat.pow_add, ← Nat.div_div_eq_div_mul, h, Nat.add_mul_div_left _ _ (Nat.two_pow_pos n), Nat.div_eq_of_lt hx, Nat.zero_add]

theorem peel_one {w x r : Nat} (h : w / 2 = x + 2 ^ 7 * r) (hx : x < 128) : w / 2 % 2 ^ 7 = x ∧ w / 2 ^ 8 = r := by
  have h' := peel (w := w) (lo := 1) (n := 7) (x := x) (r := r) (by simpa using h) (by simpa using hx)
  simpa using h'

/-- A base row and its must-be-0 bits. -/
theorem raw_ok {i j : Instr} {z : Bool} (h : i = j) (hz : z = true) :
    (Except.ok ⟨i, z⟩ : Except Nat Raw) = .ok ⟨j, true⟩ := by rw [h, hz]

/-- The opcodes a PFX word may stand before. -/
theorem pfx_takes {w op : Nat} (h : w / 2 % 2 ^ 7 = op) (ho : op ≤ 0x3D ∨ (0x50 ≤ op ∧ op ≤ 0x70)) : pfxTakes w = true := by
  rw [pfxTakes, h]; exact decide_eq_true ho

/-- The opcodes a LIM word may stand before. -/
theorem lim_takes {w op : Nat} (h : w / 2 % 2 ^ 7 = op)
    (ho : (((0x41 ≤ op ∧ op ≤ 0x48) ∨ op = 0x4B) ∨ ((0x10 ≤ op ∧ op ≤ 0x17) ∨ (0x50 ≤ op ∧ op ≤ 0x74)))) :
    limTakes .vector w = true := by
  subst h
  simpa [limTakes] using ho

/-- Where no condition fails, the last one holds. -/
theorem firstBad_last {l : List (Bool × Nat)} {b : Bool} {r : Nat} (h : firstBad (l ++ [(b, r)]) = none) : b = true := by
  induction l with
  | nil => cases b <;> simp_all [firstBad]
  | cons a l ih =>
    obtain ⟨x, y⟩ := a
    cases x
    · simp [firstBad] at h
    · exact ih h

/-- The last condition of a well-formed instruction holds. -/
theorem check_last {i : Instr} (wf : i.WellFormed) {l : List (Bool × Nat)} {b : Bool} {r : Nat}
    (hl : i.conds = l ++ [(b, r)]) : b = true := by
  have h : i.check = none := wf
  rw [Instr.check, hl, ← List.cons_append] at h
  exact firstBad_last h

/-- The opcodes whose base words decodeInt reads. -/
theorem decodeBase_int {w op : Nat} {p : Option Pfx} {l : Option (BitVec 24)} (h : w / 2 % 2 ^ 7 = op) (ho : 0 ≤ op ∧ op < 0x18) :
    decodeBase w p l = decodeInt w p l := by
  unfold decodeBase
  simp only [h]
  exact if_pos ho.2

/-- The opcodes whose base words decodeFp reads. -/
theorem decodeBase_fp {w op : Nat} {p : Option Pfx} {l : Option (BitVec 24)} (h : w / 2 % 2 ^ 7 = op) (ho : 0x18 ≤ op ∧ op < 0x30) :
    decodeBase w p l = decodeFp w p l := by
  unfold decodeBase
  simp only [h]
  rw [if_neg (by omega), if_pos (by omega)]

/-- The opcodes whose base words decodeCross reads. -/
theorem decodeBase_cross {w op : Nat} {p : Option Pfx} {l : Option (BitVec 24)} (h : w / 2 % 2 ^ 7 = op) (ho : 0x30 ≤ op ∧ op < 0x40) :
    decodeBase w p l = decodeCross w p l := by
  unfold decodeBase
  simp only [h]
  rw [if_neg (by omega), if_neg (by omega), if_pos (by omega)]

/-- The opcodes whose base words decodeScal reads. -/
theorem decodeBase_scal {w op : Nat} {p : Option Pfx} {l : Option (BitVec 24)} (h : w / 2 % 2 ^ 7 = op) (ho : 0x40 ≤ op ∧ op < 0x50) :
    decodeBase w p l = decodeScal w p l := by
  unfold decodeBase
  simp only [h]
  rw [if_neg (by omega), if_neg (by omega), if_neg (by omega), if_pos (by omega)]

/-- The opcodes whose base words decodeMem reads. -/
theorem decodeBase_mem {w op : Nat} {p : Option Pfx} {l : Option (BitVec 24)} (h : w / 2 % 2 ^ 7 = op) (ho : 0x50 ≤ op ∧ op < 0x79) :
    decodeBase w p l = decodeMem w p l := by
  unfold decodeBase
  simp only [h]
  rw [if_neg (by omega), if_neg (by omega), if_neg (by omega), if_neg (by omega), if_pos (by omega)]

/-- The opcodes whose base words decodeX reads. -/
theorem decodeBase_x {w op : Nat} {p : Option Pfx} {l : Option (BitVec 24)} (h : w / 2 % 2 ^ 7 = op) (ho : 0x79 ≤ op ∧ op < 0x80) :
    decodeBase w p l = decodeX w p l := by
  unfold decodeBase
  simp only [h]
  rw [if_neg (by omega), if_neg (by omega), if_neg (by omega), if_neg (by omega), if_neg (by omega)]

/-- A base word that decodes to `i` makes the group of `i` decode to it, in every program that takes it. -/
theorem word_agrees {e : Engine} {i : Instr} {w op : Nat} (hw : i.baseWord = w) (wf : i.WellFormed) (ht : i.takenBy e = true)
    (hc : i.isCompact = false) (h1 : w % 2 = 1) (h2 : w < 2 ^ 32) (h3 : w / 2 % 2 ^ 7 = op) (h4 : op ≠ 0x4D ∧ op ≠ 0x4E)
    (hp : i.pfx?.isSome = true → pfxTakes w = true) (hl : i.lim?.isSome = true → limTakes .vector w = true)
    (hd : decodeBase w i.pfx? i.lim? = .ok ⟨i, true⟩) : decode e (encode i) = .ok i := by
  unfold Instr.takenBy at ht
  rw [encode_word hc, hw]
  rw [hw] at ht
  exact (group_agrees h1 h2 (by rw [isPfxWord, h3]; exact decide_eq_false h4.1) (by rw [isLimWord, h3]; exact decide_eq_false h4.2)
    fun h => pfx_vector (hp h) ht).trans (finish_ok wf ht hp hl hd)

/-- A compact parcel that decodes to `i` makes the group of `i` decode to it, in every program that takes it. -/
theorem compact_agrees {e : Engine} {i : Instr} {w : Nat} (hw : i.baseWord = w) (ht : i.takenBy e = true) (hc : i.isCompact = true)
    (h1 : w % 2 = 0) (h2 : w < 2 ^ 16) (hd : decodeCompact w = .ok i) : decode e (encode i) = .ok i := by
  unfold Instr.takenBy at ht
  rw [hw] at ht
  have he : e = .vector := by
    cases e with
    | vector => rfl
    | matrix | copy => simp [engineTakes, h1] at ht
  have hu : nextUnit [BitVec.ofNat 16 w] = .compact w := by
    simp only [nextUnit, BitVec.toNat_ofNat, Nat.mod_eq_of_lt h2, h1, if_true]
  unfold encode decode
  simp only [hc, hw, if_true, hu, hd, he]

/-- The fields of a compact parcel (R53). -/
theorem compact_row {v w : Nat} {o : OpC16} (hv : v < 16) (hw : w = 2 * v + putC16 o) (h0 : v ≠ 0 ∨ o.vd.toNat ≠ 0 ∨ o.vs.toNat ≠ 0) :
    w % 2 = 0 ∧ w < 2 ^ 16 ∧ ¬ (w / 2 ^ 15 = 1 ∨ w = 0) ∧ w / 2 % 2 ^ 4 = v ∧ w / 2 ^ 5 % 2 ^ 5 = o.vd.toNat
      ∧ w / 2 ^ 10 % 2 ^ 5 = o.vs.toNat ∧ getC16 w = o := by
  obtain ⟨x_vd, x_vs⟩ := o
  have i_vd := x_vd.isLt
  have i_vs := x_vs.isLt
  simp only [putC16] at hw h0 ⊢
  refine ⟨by omega, by omega, by omega, by omega, by omega, by omega, ?_⟩
  simp only [getC16, OpC16.mk.injEq]
  exact ⟨fld_eq (by omega), fld_eq (by omega)⟩

/-- The fields and the tested bits of the words of one shape (1). -/
theorem row1 {w c v0 : Nat} {o : OpV3} (b0 : v0 < 128) (hc : c = 1 + v0 * 2 + 2147483648) (hw : w = c + putV3 o) :
    w % 2 = 1 ∧ w < 2 ^ 32 ∧ w / 2 % 2 ^ 7 = v0 ∧ (w / 2 ^ 31 % 2 = 1) ∧ getV3 w o.pfx = o := by
  obtain ⟨x_vd, x_vs1, x_vs2, x_e1, x_e2, x_p⟩ := o
  simp only [putV3] at hw
  have h0 : w = 1 + 2 * (v0 + 2 ^ 7 * (x_vd.toNat + 2 ^ 7 * (x_vs1.toNat + 2 ^ 7 * (x_vs2.toNat + 2 ^ 7 * (b2n x_e1 + 2 ^ 1 * (b2n x_e2 + 2 ^ 1 * (1 + 2 ^ 1 * (0)))))))) := by rw [hw, hc]; ring
  obtain ⟨a0, q0⟩ := peel_zero h0
  obtain ⟨a1, q1⟩ := peel_one q0 b0
  obtain ⟨a8, q8⟩ := peel (lo := 8) (n := 7) q1 (x_vd.isLt)
  obtain ⟨a15, q15⟩ := peel (lo := 15) (n := 7) q8 (x_vs1.isLt)
  obtain ⟨a22, q22⟩ := peel (lo := 22) (n := 7) q15 (x_vs2.isLt)
  obtain ⟨a29, q29⟩ := peel (lo := 29) (n := 1) q22 (b2n_lt x_e1)
  obtain ⟨a30, q30⟩ := peel (lo := 30) (n := 1) q29 (b2n_lt x_e2)
  obtain ⟨a31, q31⟩ := peel (lo := 31) (n := 1) q30 (by decide)
  exact ⟨a0, Nat.lt_of_div_eq_zero (by decide) q31, a1, a31, by simp only [getV3, OpV3.mk.injEq]; exact ⟨fld_eq a8, fld_eq a15, fld_eq a22, bit_eq a29, bit_eq a30, True.intro⟩⟩

/-- The fields and the tested bits of the words of one shape (2). -/
theorem row2 {w c v0 : Nat} {o : OpV3} (b0 : v0 < 128) (hc : c = 1 + v0 * 2) (hw : w = c + putV3 o) :
    w % 2 = 1 ∧ w < 2 ^ 32 ∧ w / 2 % 2 ^ 7 = v0 ∧ ¬ (w / 2 ^ 31 % 2 = 1) ∧ getV3 w o.pfx = o := by
  obtain ⟨x_vd, x_vs1, x_vs2, x_e1, x_e2, x_p⟩ := o
  simp only [putV3] at hw
  have h0 : w = 1 + 2 * (v0 + 2 ^ 7 * (x_vd.toNat + 2 ^ 7 * (x_vs1.toNat + 2 ^ 7 * (x_vs2.toNat + 2 ^ 7 * (b2n x_e1 + 2 ^ 1 * (b2n x_e2 + 2 ^ 1 * (0 + 2 ^ 1 * (0)))))))) := by rw [hw, hc]; ring
  obtain ⟨a0, q0⟩ := peel_zero h0
  obtain ⟨a1, q1⟩ := peel_one q0 b0
  obtain ⟨a8, q8⟩ := peel (lo := 8) (n := 7) q1 (x_vd.isLt)
  obtain ⟨a15, q15⟩ := peel (lo := 15) (n := 7) q8 (x_vs1.isLt)
  obtain ⟨a22, q22⟩ := peel (lo := 22) (n := 7) q15 (x_vs2.isLt)
  obtain ⟨a29, q29⟩ := peel (lo := 29) (n := 1) q22 (b2n_lt x_e1)
  obtain ⟨a30, q30⟩ := peel (lo := 30) (n := 1) q29 (b2n_lt x_e2)
  obtain ⟨a31, q31⟩ := peel (lo := 31) (n := 1) q30 (by decide)
  exact ⟨a0, Nat.lt_of_div_eq_zero (by decide) q31, a1, fun h => absurd (a31.symm.trans h) (by decide), by simp only [getV3, OpV3.mk.injEq]; exact ⟨fld_eq a8, fld_eq a15, fld_eq a22, bit_eq a29, bit_eq a30, True.intro⟩⟩

/-- The fields and the tested bits of the words of one shape (3). -/
theorem row3 {w c v0 : Nat} {o : OpV3} (b0 : v0 < 128) (hc : c = 1 + v0 * 2) (hw : w = c + putV3 o) :
    w % 2 = 1 ∧ w < 2 ^ 32 ∧ w / 2 % 2 ^ 7 = v0 ∧ (w / 2 ^ 31 % 2 ^ 1 = 0) ∧ getV3 w o.pfx = o := by
  obtain ⟨x_vd, x_vs1, x_vs2, x_e1, x_e2, x_p⟩ := o
  simp only [putV3] at hw
  have h0 : w = 1 + 2 * (v0 + 2 ^ 7 * (x_vd.toNat + 2 ^ 7 * (x_vs1.toNat + 2 ^ 7 * (x_vs2.toNat + 2 ^ 7 * (b2n x_e1 + 2 ^ 1 * (b2n x_e2 + 2 ^ 1 * (0 + 2 ^ 1 * (0)))))))) := by rw [hw, hc]; ring
  obtain ⟨a0, q0⟩ := peel_zero h0
  obtain ⟨a1, q1⟩ := peel_one q0 b0
  obtain ⟨a8, q8⟩ := peel (lo := 8) (n := 7) q1 (x_vd.isLt)
  obtain ⟨a15, q15⟩ := peel (lo := 15) (n := 7) q8 (x_vs1.isLt)
  obtain ⟨a22, q22⟩ := peel (lo := 22) (n := 7) q15 (x_vs2.isLt)
  obtain ⟨a29, q29⟩ := peel (lo := 29) (n := 1) q22 (b2n_lt x_e1)
  obtain ⟨a30, q30⟩ := peel (lo := 30) (n := 1) q29 (b2n_lt x_e2)
  obtain ⟨a31, q31⟩ := peel (lo := 31) (n := 1) q30 (by decide)
  exact ⟨a0, Nat.lt_of_div_eq_zero (by decide) q31, a1, a31, by simp only [getV3, OpV3.mk.injEq]; exact ⟨fld_eq a8, fld_eq a15, fld_eq a22, bit_eq a29, bit_eq a30, True.intro⟩⟩

/-- The fields and the tested bits of the words of one shape (4). -/
theorem row4 {w c v0 : Nat} {o : OpV1} (b0 : v0 < 128) (hc : c = 1 + v0 * 2 + 2147483648) (hw : w = c + putV1 o) :
    w % 2 = 1 ∧ w < 2 ^ 32 ∧ w / 2 % 2 ^ 7 = v0 ∧ (w / 2 ^ 31 % 2 = 1) ∧ (zeroAt w 15 16) = true ∧ getV1 w o.pfx = o := by
  obtain ⟨x_vd, x_p⟩ := o
  simp only [putV1] at hw
  have h0 : w = 1 + 2 * (v0 + 2 ^ 7 * (x_vd.toNat + 2 ^ 7 * (0 + 2 ^ 16 * (1 + 2 ^ 1 * (0))))) := by rw [hw, hc]; ring
  obtain ⟨a0, q0⟩ := peel_zero h0
  obtain ⟨a1, q1⟩ := peel_one q0 b0
  obtain ⟨a8, q8⟩ := peel (lo := 8) (n := 7) q1 (x_vd.isLt)
  obtain ⟨a15, q15⟩ := peel (lo := 15) (n := 16) q8 (by decide)
  obtain ⟨a31, q31⟩ := peel (lo := 31) (n := 1) q15 (by decide)
  exact ⟨a0, Nat.lt_of_div_eq_zero (by decide) q31, a1, a31, decide_eq_true a15, by simp only [getV1, OpV1.mk.injEq]; exact ⟨fld_eq a8, True.intro⟩⟩

/-- The fields and the tested bits of the words of one shape (5). -/
theorem row5 {w c v0 : Nat} {o : OpVMov} (b0 : v0 < 128) (hc : c = 1 + v0 * 2) (hw : w = c + putVMov o) :
    w % 2 = 1 ∧ w < 2 ^ 32 ∧ w / 2 % 2 ^ 7 = v0 ∧ ¬ (w / 2 ^ 31 % 2 = 1) ∧ (zeroAt w 29 1 && decide (w / 2 ^ 15 % 2 ^ 7 = w / 2 ^ 8 % 2 ^ 7)) = true ∧ getVMov w o.pfx = o := by
  obtain ⟨x_vd, x_vs2, x_e2, x_p⟩ := o
  simp only [putVMov] at hw
  have h0 : w = 1 + 2 * (v0 + 2 ^ 7 * (x_vd.toNat + 2 ^ 7 * (x_vd.toNat + 2 ^ 7 * (x_vs2.toNat + 2 ^ 7 * (0 + 2 ^ 1 * (b2n x_e2 + 2 ^ 1 * (0 + 2 ^ 1 * (0)))))))) := by rw [hw, hc]; ring
  obtain ⟨a0, q0⟩ := peel_zero h0
  obtain ⟨a1, q1⟩ := peel_one q0 b0
  obtain ⟨a8, q8⟩ := peel (lo := 8) (n := 7) q1 (x_vd.isLt)
  obtain ⟨a15, q15⟩ := peel (lo := 15) (n := 7) q8 x_vd.isLt
  obtain ⟨a22, q22⟩ := peel (lo := 22) (n := 7) q15 (x_vs2.isLt)
  obtain ⟨a29, q29⟩ := peel (lo := 29) (n := 1) q22 (by decide)
  obtain ⟨a30, q30⟩ := peel (lo := 30) (n := 1) q29 (b2n_lt x_e2)
  obtain ⟨a31, q31⟩ := peel (lo := 31) (n := 1) q30 (by decide)
  exact ⟨a0, Nat.lt_of_div_eq_zero (by decide) q31, a1, fun h => absurd (a31.symm.trans h) (by decide), band (decide_eq_true a29) (decide_eq_true (a15.trans a8.symm)), by simp only [getVMov, OpVMov.mk.injEq]; exact ⟨fld_eq a8, fld_eq a22, bit_eq a30, True.intro⟩⟩

/-- The fields and the tested bits of the words of one shape (6). -/
theorem row6 {w c v0 : Nat} {o : OpV2} (b0 : v0 < 128) (hc : c = 1 + v0 * 2 + 2147483648) (hw : w = c + putV2 o) :
    w % 2 = 1 ∧ w < 2 ^ 32 ∧ w / 2 % 2 ^ 7 = v0 ∧ (w / 2 ^ 31 % 2 = 1) ∧ (zeroAt w 22 7 && zeroAt w 30 1) = true ∧ getV2 w o.pfx = o := by
  obtain ⟨x_vd, x_vs1, x_e1, x_p⟩ := o
  simp only [putV2] at hw
  have h0 : w = 1 + 2 * (v0 + 2 ^ 7 * (x_vd.toNat + 2 ^ 7 * (x_vs1.toNat + 2 ^ 7 * (0 + 2 ^ 7 * (b2n x_e1 + 2 ^ 1 * (0 + 2 ^ 1 * (1 + 2 ^ 1 * (0)))))))) := by rw [hw, hc]; ring
  obtain ⟨a0, q0⟩ := peel_zero h0
  obtain ⟨a1, q1⟩ := peel_one q0 b0
  obtain ⟨a8, q8⟩ := peel (lo := 8) (n := 7) q1 (x_vd.isLt)
  obtain ⟨a15, q15⟩ := peel (lo := 15) (n := 7) q8 (x_vs1.isLt)
  obtain ⟨a22, q22⟩ := peel (lo := 22) (n := 7) q15 (by decide)
  obtain ⟨a29, q29⟩ := peel (lo := 29) (n := 1) q22 (b2n_lt x_e1)
  obtain ⟨a30, q30⟩ := peel (lo := 30) (n := 1) q29 (by decide)
  obtain ⟨a31, q31⟩ := peel (lo := 31) (n := 1) q30 (by decide)
  exact ⟨a0, Nat.lt_of_div_eq_zero (by decide) q31, a1, a31, band (decide_eq_true a22) (decide_eq_true a30), by simp only [getV2, OpV2.mk.injEq]; exact ⟨fld_eq a8, fld_eq a15, bit_eq a29, True.intro⟩⟩

/-- The fields and the tested bits of the words of one shape (7). -/
theorem row7 {w c v0 : Nat} {o : OpV2} (b0 : v0 < 128) (hc : c = 1 + v0 * 2) (hw : w = c + putV2 o) :
    w % 2 = 1 ∧ w < 2 ^ 32 ∧ w / 2 % 2 ^ 7 = v0 ∧ ¬ (w / 2 ^ 31 % 2 = 1) ∧ (zeroAt w 22 7 && zeroAt w 30 1) = true ∧ getV2 w o.pfx = o := by
  obtain ⟨x_vd, x_vs1, x_e1, x_p⟩ := o
  simp only [putV2] at hw
  have h0 : w = 1 + 2 * (v0 + 2 ^ 7 * (x_vd.toNat + 2 ^ 7 * (x_vs1.toNat + 2 ^ 7 * (0 + 2 ^ 7 * (b2n x_e1 + 2 ^ 1 * (0 + 2 ^ 1 * (0 + 2 ^ 1 * (0)))))))) := by rw [hw, hc]; ring
  obtain ⟨a0, q0⟩ := peel_zero h0
  obtain ⟨a1, q1⟩ := peel_one q0 b0
  obtain ⟨a8, q8⟩ := peel (lo := 8) (n := 7) q1 (x_vd.isLt)
  obtain ⟨a15, q15⟩ := peel (lo := 15) (n := 7) q8 (x_vs1.isLt)
  obtain ⟨a22, q22⟩ := peel (lo := 22) (n := 7) q15 (by decide)
  obtain ⟨a29, q29⟩ := peel (lo := 29) (n := 1) q22 (b2n_lt x_e1)
  obtain ⟨a30, q30⟩ := peel (lo := 30) (n := 1) q29 (by decide)
  obtain ⟨a31, q31⟩ := peel (lo := 31) (n := 1) q30 (by decide)
  exact ⟨a0, Nat.lt_of_div_eq_zero (by decide) q31, a1, fun h => absurd (a31.symm.trans h) (by decide), band (decide_eq_true a22) (decide_eq_true a30), by simp only [getV2, OpV2.mk.injEq]; exact ⟨fld_eq a8, fld_eq a15, bit_eq a29, True.intro⟩⟩

/-- The fields and the tested bits of the words of one shape (8). -/
theorem row8 {w c v0 : Nat} {o : OpVCmp} (b0 : v0 < 128) (hc : c = 1 + v0 * 2 + 2147483648) (hw : w = c + putVCmp o) :
    w % 2 = 1 ∧ w < 2 ^ 32 ∧ w / 2 % 2 ^ 7 = v0 ∧ (w / 2 ^ 31 % 2 = 1) ∧ (zeroAt w 14 1) = true ∧ getVCmp w o.pfx = o := by
  obtain ⟨x_md, x_cc, x_vs1, x_vs2, x_e1, x_e2, x_p⟩ := o
  simp only [putVCmp] at hw
  have h0 : w = 1 + 2 * (v0 + 2 ^ 7 * (x_md.toNat + 2 ^ 3 * (x_cc.toNat + 2 ^ 3 * (0 + 2 ^ 1 * (x_vs1.toNat + 2 ^ 7 * (x_vs2.toNat + 2 ^ 7 * (b2n x_e1 + 2 ^ 1 * (b2n x_e2 + 2 ^ 1 * (1 + 2 ^ 1 * (0)))))))))) := by rw [hw, hc]; ring
  obtain ⟨a0, q0⟩ := peel_zero h0
  obtain ⟨a1, q1⟩ := peel_one q0 b0
  obtain ⟨a8, q8⟩ := peel (lo := 8) (n := 3) q1 (x_md.isLt)
  obtain ⟨a11, q11⟩ := peel (lo := 11) (n := 3) q8 (x_cc.isLt)
  obtain ⟨a14, q14⟩ := peel (lo := 14) (n := 1) q11 (by decide)
  obtain ⟨a15, q15⟩ := peel (lo := 15) (n := 7) q14 (x_vs1.isLt)
  obtain ⟨a22, q22⟩ := peel (lo := 22) (n := 7) q15 (x_vs2.isLt)
  obtain ⟨a29, q29⟩ := peel (lo := 29) (n := 1) q22 (b2n_lt x_e1)
  obtain ⟨a30, q30⟩ := peel (lo := 30) (n := 1) q29 (b2n_lt x_e2)
  obtain ⟨a31, q31⟩ := peel (lo := 31) (n := 1) q30 (by decide)
  exact ⟨a0, Nat.lt_of_div_eq_zero (by decide) q31, a1, a31, decide_eq_true a14, by simp only [getVCmp, OpVCmp.mk.injEq]; exact ⟨fld_eq a8, fld_eq a11, fld_eq a15, fld_eq a22, bit_eq a29, bit_eq a30, True.intro⟩⟩

/-- The fields and the tested bits of the words of one shape (9). -/
theorem row9 {w c v0 : Nat} {o : OpVCmp} (b0 : v0 < 128) (hc : c = 1 + v0 * 2) (hw : w = c + putVCmp o) :
    w % 2 = 1 ∧ w < 2 ^ 32 ∧ w / 2 % 2 ^ 7 = v0 ∧ ¬ (w / 2 ^ 31 % 2 = 1) ∧ (zeroAt w 14 1) = true ∧ getVCmp w o.pfx = o := by
  obtain ⟨x_md, x_cc, x_vs1, x_vs2, x_e1, x_e2, x_p⟩ := o
  simp only [putVCmp] at hw
  have h0 : w = 1 + 2 * (v0 + 2 ^ 7 * (x_md.toNat + 2 ^ 3 * (x_cc.toNat + 2 ^ 3 * (0 + 2 ^ 1 * (x_vs1.toNat + 2 ^ 7 * (x_vs2.toNat + 2 ^ 7 * (b2n x_e1 + 2 ^ 1 * (b2n x_e2 + 2 ^ 1 * (0 + 2 ^ 1 * (0)))))))))) := by rw [hw, hc]; ring
  obtain ⟨a0, q0⟩ := peel_zero h0
  obtain ⟨a1, q1⟩ := peel_one q0 b0
  obtain ⟨a8, q8⟩ := peel (lo := 8) (n := 3) q1 (x_md.isLt)
  obtain ⟨a11, q11⟩ := peel (lo := 11) (n := 3) q8 (x_cc.isLt)
  obtain ⟨a14, q14⟩ := peel (lo := 14) (n := 1) q11 (by decide)
  obtain ⟨a15, q15⟩ := peel (lo := 15) (n := 7) q14 (x_vs1.isLt)
  obtain ⟨a22, q22⟩ := peel (lo := 22) (n := 7) q15 (x_vs2.isLt)
  obtain ⟨a29, q29⟩ := peel (lo := 29) (n := 1) q22 (b2n_lt x_e1)
  obtain ⟨a30, q30⟩ := peel (lo := 30) (n := 1) q29 (b2n_lt x_e2)
  obtain ⟨a31, q31⟩ := peel (lo := 31) (n := 1) q30 (by decide)
  exact ⟨a0, Nat.lt_of_div_eq_zero (by decide) q31, a1, fun h => absurd (a31.symm.trans h) (by decide), decide_eq_true a14, by simp only [getVCmp, OpVCmp.mk.injEq]; exact ⟨fld_eq a8, fld_eq a11, fld_eq a15, fld_eq a22, bit_eq a29, bit_eq a30, True.intro⟩⟩

/-- The fields and the tested bits of the words of one shape (10). -/
theorem row10 {w c v0 : Nat} {o : OpVI} (b0 : v0 < 128) (hc : c = 1 + v0 * 2) (hw : w = c + putVI o) :
    w % 2 = 1 ∧ w < 2 ^ 32 ∧ w / 2 % 2 ^ 7 = v0 ∧ getVI w o.pfx o.lim = o := by
  obtain ⟨x_vd, x_vs1, x_imm9, x_e1, x_p, x_l⟩ := o
  simp only [putVI] at hw
  have h0 : w = 1 + 2 * (v0 + 2 ^ 7 * (x_vd.toNat + 2 ^ 7 * (x_vs1.toNat + 2 ^ 7 * (x_imm9.toNat + 2 ^ 9 * (b2n x_e1 + 2 ^ 1 * (0)))))) := by rw [hw, hc]; ring
  obtain ⟨a0, q0⟩ := peel_zero h0
  obtain ⟨a1, q1⟩ := peel_one q0 b0
  obtain ⟨a8, q8⟩ := peel (lo := 8) (n := 7) q1 (x_vd.isLt)
  obtain ⟨a15, q15⟩ := peel (lo := 15) (n := 7) q8 (x_vs1.isLt)
  obtain ⟨a22, q22⟩ := peel (lo := 22) (n := 9) q15 (x_imm9.isLt)
  obtain ⟨a31, q31⟩ := peel (lo := 31) (n := 1) q22 (b2n_lt x_e1)
  exact ⟨a0, Nat.lt_of_div_eq_zero (by decide) q31, a1, by simp only [getVI, OpVI.mk.injEq]; exact ⟨fld_eq a8, fld_eq a15, fld_eq a22, bit_eq a31, True.intro, True.intro⟩⟩

/-- The fields and the tested bits of the words of one shape (11). -/
theorem row11 {w c v0 : Nat} {o : OpVI} (b0 : v0 < 128) (hx : bitAt o.imm9.toNat 5 = true) (hc : c = 1 + v0 * 2) (hw : w = c + putVI o) :
    w % 2 = 1 ∧ w < 2 ^ 32 ∧ w / 2 % 2 ^ 7 = v0 ∧ (w / 2 ^ 27 % 2 = 1) ∧ getVI w o.pfx o.lim = o := by
  obtain ⟨x_vd, x_vs1, x_imm9, x_e1, x_p, x_l⟩ := o
  have i_vd := x_vd.isLt
  have i_vs1 := x_vs1.isLt
  have i_imm9 := x_imm9.isLt
  have i_e1 := b2n_le x_e1
  simp only [putVI] at hw
  simp only [bitAt, decide_eq_true_eq] at hx
  refine ⟨by omega, by omega, by omega, by omega, ?_⟩
  · simp only [getVI, OpVI.mk.injEq]; exact ⟨fld_eq (by omega), fld_eq (by omega), fld_eq (by omega), bit_eq (by omega), True.intro, True.intro⟩

/-- The fields and the tested bits of the words of one shape (12). -/
theorem row12 {w c v0 : Nat} {o : OpVI} (b0 : v0 < 128) (hx : bitAt o.imm9.toNat 5 = false) (hc : c = 1 + v0 * 2) (hw : w = c + putVI o) :
    w % 2 = 1 ∧ w < 2 ^ 32 ∧ w / 2 % 2 ^ 7 = v0 ∧ ¬ (w / 2 ^ 27 % 2 = 1) ∧ getVI w o.pfx o.lim = o := by
  obtain ⟨x_vd, x_vs1, x_imm9, x_e1, x_p, x_l⟩ := o
  have i_vd := x_vd.isLt
  have i_vs1 := x_vs1.isLt
  have i_imm9 := x_imm9.isLt
  have i_e1 := b2n_le x_e1
  simp only [putVI] at hw
  simp only [bitAt, decide_eq_false_iff_not] at hx
  refine ⟨by omega, by omega, by omega, by omega, ?_⟩
  · simp only [getVI, OpVI.mk.injEq]; exact ⟨fld_eq (by omega), fld_eq (by omega), fld_eq (by omega), bit_eq (by omega), True.intro, True.intro⟩

/-- The fields and the tested bits of the words of one shape (13). -/
theorem row13 {w c v0 : Nat} {o : OpVImm} (b0 : v0 < 128) (hc : c = 1 + v0 * 2) (hw : w = c + putVImm o) :
    w % 2 = 1 ∧ w < 2 ^ 32 ∧ w / 2 % 2 ^ 7 = v0 ∧ (zeroAt w 15 7 && zeroAt w 31 1) = true ∧ getVImm w o.pfx o.lim = o := by
  obtain ⟨x_vd, x_imm9, x_p, x_l⟩ := o
  simp only [putVImm] at hw
  have h0 : w = 1 + 2 * (v0 + 2 ^ 7 * (x_vd.toNat + 2 ^ 7 * (0 + 2 ^ 7 * (x_imm9.toNat + 2 ^ 9 * (0 + 2 ^ 1 * (0)))))) := by rw [hw, hc]; ring
  obtain ⟨a0, q0⟩ := peel_zero h0
  obtain ⟨a1, q1⟩ := peel_one q0 b0
  obtain ⟨a8, q8⟩ := peel (lo := 8) (n := 7) q1 (x_vd.isLt)
  obtain ⟨a15, q15⟩ := peel (lo := 15) (n := 7) q8 (by decide)
  obtain ⟨a22, q22⟩ := peel (lo := 22) (n := 9) q15 (x_imm9.isLt)
  obtain ⟨a31, q31⟩ := peel (lo := 31) (n := 1) q22 (by decide)
  exact ⟨a0, Nat.lt_of_div_eq_zero (by decide) q31, a1, band (decide_eq_true a15) (decide_eq_true a31), by simp only [getVImm, OpVImm.mk.injEq]; exact ⟨fld_eq a8, fld_eq a22, True.intro, True.intro⟩⟩

/-- The fields and the tested bits of the words of one shape (14). -/
theorem row14 {w c v0 : Nat} {o : OpVICmp} (b0 : v0 < 128) (hc : c = 1 + v0 * 2 + 16384) (hw : w = c + putVICmp o) :
    w % 2 = 1 ∧ w < 2 ^ 32 ∧ w / 2 % 2 ^ 7 = v0 ∧ (w / 2 ^ 14 % 2 = 1) ∧ getVICmp w o.pfx o.lim = o := by
  obtain ⟨x_md, x_cc, x_vs1, x_imm9, x_e1, x_p, x_l⟩ := o
  simp only [putVICmp] at hw
  have h0 : w = 1 + 2 * (v0 + 2 ^ 7 * (x_md.toNat + 2 ^ 3 * (x_cc.toNat + 2 ^ 3 * (1 + 2 ^ 1 * (x_vs1.toNat + 2 ^ 7 * (x_imm9.toNat + 2 ^ 9 * (b2n x_e1 + 2 ^ 1 * (0)))))))) := by rw [hw, hc]; ring
  obtain ⟨a0, q0⟩ := peel_zero h0
  obtain ⟨a1, q1⟩ := peel_one q0 b0
  obtain ⟨a8, q8⟩ := peel (lo := 8) (n := 3) q1 (x_md.isLt)
  obtain ⟨a11, q11⟩ := peel (lo := 11) (n := 3) q8 (x_cc.isLt)
  obtain ⟨a14, q14⟩ := peel (lo := 14) (n := 1) q11 (by decide)
  obtain ⟨a15, q15⟩ := peel (lo := 15) (n := 7) q14 (x_vs1.isLt)
  obtain ⟨a22, q22⟩ := peel (lo := 22) (n := 9) q15 (x_imm9.isLt)
  obtain ⟨a31, q31⟩ := peel (lo := 31) (n := 1) q22 (b2n_lt x_e1)
  exact ⟨a0, Nat.lt_of_div_eq_zero (by decide) q31, a1, a14, by simp only [getVICmp, OpVICmp.mk.injEq]; exact ⟨fld_eq a8, fld_eq a11, fld_eq a15, fld_eq a22, bit_eq a31, True.intro, True.intro⟩⟩

/-- The fields and the tested bits of the words of one shape (15). -/
theorem row15 {w c v0 : Nat} {o : OpVICmp} (b0 : v0 < 128) (hc : c = 1 + v0 * 2) (hw : w = c + putVICmp o) :
    w % 2 = 1 ∧ w < 2 ^ 32 ∧ w / 2 % 2 ^ 7 = v0 ∧ ¬ (w / 2 ^ 14 % 2 = 1) ∧ getVICmp w o.pfx o.lim = o := by
  obtain ⟨x_md, x_cc, x_vs1, x_imm9, x_e1, x_p, x_l⟩ := o
  simp only [putVICmp] at hw
  have h0 : w = 1 + 2 * (v0 + 2 ^ 7 * (x_md.toNat + 2 ^ 3 * (x_cc.toNat + 2 ^ 3 * (0 + 2 ^ 1 * (x_vs1.toNat + 2 ^ 7 * (x_imm9.toNat + 2 ^ 9 * (b2n x_e1 + 2 ^ 1 * (0)))))))) := by rw [hw, hc]; ring
  obtain ⟨a0, q0⟩ := peel_zero h0
  obtain ⟨a1, q1⟩ := peel_one q0 b0
  obtain ⟨a8, q8⟩ := peel (lo := 8) (n := 3) q1 (x_md.isLt)
  obtain ⟨a11, q11⟩ := peel (lo := 11) (n := 3) q8 (x_cc.isLt)
  obtain ⟨a14, q14⟩ := peel (lo := 14) (n := 1) q11 (by decide)
  obtain ⟨a15, q15⟩ := peel (lo := 15) (n := 7) q14 (x_vs1.isLt)
  obtain ⟨a22, q22⟩ := peel (lo := 22) (n := 9) q15 (x_imm9.isLt)
  obtain ⟨a31, q31⟩ := peel (lo := 31) (n := 1) q22 (b2n_lt x_e1)
  exact ⟨a0, Nat.lt_of_div_eq_zero (by decide) q31, a1, fun h => absurd (a14.symm.trans h) (by decide), by simp only [getVICmp, OpVICmp.mk.injEq]; exact ⟨fld_eq a8, fld_eq a11, fld_eq a15, fld_eq a22, bit_eq a31, True.intro, True.intro⟩⟩

/-- The fields and the tested bits of the words of one shape (16). -/
theorem row16 {w c v0 : Nat} {o : OpVCmp} (b0 : v0 < 128) (hc : c = 1 + v0 * 2) (hw : w = c + putVCmp o) :
    w % 2 = 1 ∧ w < 2 ^ 32 ∧ w / 2 % 2 ^ 7 = v0 ∧ (w / 2 ^ 31 % 2 ^ 1 = 0) ∧ (zeroAt w 14 1) = true ∧ getVCmp w o.pfx = o := by
  obtain ⟨x_md, x_cc, x_vs1, x_vs2, x_e1, x_e2, x_p⟩ := o
  simp only [putVCmp] at hw
  have h0 : w = 1 + 2 * (v0 + 2 ^ 7 * (x_md.toNat + 2 ^ 3 * (x_cc.toNat + 2 ^ 3 * (0 + 2 ^ 1 * (x_vs1.toNat + 2 ^ 7 * (x_vs2.toNat + 2 ^ 7 * (b2n x_e1 + 2 ^ 1 * (b2n x_e2 + 2 ^ 1 * (0 + 2 ^ 1 * (0)))))))))) := by rw [hw, hc]; ring
  obtain ⟨a0, q0⟩ := peel_zero h0
  obtain ⟨a1, q1⟩ := peel_one q0 b0
  obtain ⟨a8, q8⟩ := peel (lo := 8) (n := 3) q1 (x_md.isLt)
  obtain ⟨a11, q11⟩ := peel (lo := 11) (n := 3) q8 (x_cc.isLt)
  obtain ⟨a14, q14⟩ := peel (lo := 14) (n := 1) q11 (by decide)
  obtain ⟨a15, q15⟩ := peel (lo := 15) (n := 7) q14 (x_vs1.isLt)
  obtain ⟨a22, q22⟩ := peel (lo := 22) (n := 7) q15 (x_vs2.isLt)
  obtain ⟨a29, q29⟩ := peel (lo := 29) (n := 1) q22 (b2n_lt x_e1)
  obtain ⟨a30, q30⟩ := peel (lo := 30) (n := 1) q29 (b2n_lt x_e2)
  obtain ⟨a31, q31⟩ := peel (lo := 31) (n := 1) q30 (by decide)
  exact ⟨a0, Nat.lt_of_div_eq_zero (by decide) q31, a1, a31, decide_eq_true a14, by simp only [getVCmp, OpVCmp.mk.injEq]; exact ⟨fld_eq a8, fld_eq a11, fld_eq a15, fld_eq a22, bit_eq a29, bit_eq a30, True.intro⟩⟩

/-- The fields and the tested bits of the words of one shape (17). -/
theorem row17 {w c v0 v1 : Nat} {o : OpV2} (b0 : v0 < 128) (b1 : v1 < 8) (hc : c = 1 + v0 * 2 + v1 * 4194304) (hw : w = c + putV2 o) :
    w % 2 = 1 ∧ w < 2 ^ 32 ∧ w / 2 % 2 ^ 7 = v0 ∧ w / 2 ^ 22 % 2 ^ 3 = v1 ∧ ¬ (w / 2 ^ 31 % 2 = 1) ∧ (zeroAt w 25 4 && zeroAt w 30 1) = true ∧ getV2 w o.pfx = o := by
  obtain ⟨x_vd, x_vs1, x_e1, x_p⟩ := o
  simp only [putV2] at hw
  have h0 : w = 1 + 2 * (v0 + 2 ^ 7 * (x_vd.toNat + 2 ^ 7 * (x_vs1.toNat + 2 ^ 7 * (v1 + 2 ^ 3 * (0 + 2 ^ 4 * (b2n x_e1 + 2 ^ 1 * (0 + 2 ^ 1 * (0 + 2 ^ 1 * (0))))))))) := by rw [hw, hc]; ring
  obtain ⟨a0, q0⟩ := peel_zero h0
  obtain ⟨a1, q1⟩ := peel_one q0 b0
  obtain ⟨a8, q8⟩ := peel (lo := 8) (n := 7) q1 (x_vd.isLt)
  obtain ⟨a15, q15⟩ := peel (lo := 15) (n := 7) q8 (x_vs1.isLt)
  obtain ⟨a22, q22⟩ := peel (lo := 22) (n := 3) q15 b1
  obtain ⟨a25, q25⟩ := peel (lo := 25) (n := 4) q22 (by decide)
  obtain ⟨a29, q29⟩ := peel (lo := 29) (n := 1) q25 (b2n_lt x_e1)
  obtain ⟨a30, q30⟩ := peel (lo := 30) (n := 1) q29 (by decide)
  obtain ⟨a31, q31⟩ := peel (lo := 31) (n := 1) q30 (by decide)
  exact ⟨a0, Nat.lt_of_div_eq_zero (by decide) q31, a1, a22, fun h => absurd (a31.symm.trans h) (by decide), band (decide_eq_true a25) (decide_eq_true a30), by simp only [getV2, OpV2.mk.injEq]; exact ⟨fld_eq a8, fld_eq a15, bit_eq a29, True.intro⟩⟩

/-- The fields and the tested bits of the words of one shape (18). -/
theorem row18 {w c v0 v1 : Nat} {o : OpV2} (b0 : v0 < 128) (b1 : v1 < 8) (hc : c = 1 + v0 * 2 + v1 * 4194304) (hw : w = c + putV2 o) :
    w % 2 = 1 ∧ w < 2 ^ 32 ∧ w / 2 % 2 ^ 7 = v0 ∧ w / 2 ^ 22 % 2 ^ 3 = v1 ∧ (w / 2 ^ 31 % 2 ^ 1 = 0) ∧ (zeroAt w 25 4 && zeroAt w 30 1) = true ∧ getV2 w o.pfx = o := by
  obtain ⟨x_vd, x_vs1, x_e1, x_p⟩ := o
  simp only [putV2] at hw
  have h0 : w = 1 + 2 * (v0 + 2 ^ 7 * (x_vd.toNat + 2 ^ 7 * (x_vs1.toNat + 2 ^ 7 * (v1 + 2 ^ 3 * (0 + 2 ^ 4 * (b2n x_e1 + 2 ^ 1 * (0 + 2 ^ 1 * (0 + 2 ^ 1 * (0))))))))) := by rw [hw, hc]; ring
  obtain ⟨a0, q0⟩ := peel_zero h0
  obtain ⟨a1, q1⟩ := peel_one q0 b0
  obtain ⟨a8, q8⟩ := peel (lo := 8) (n := 7) q1 (x_vd.isLt)
  obtain ⟨a15, q15⟩ := peel (lo := 15) (n := 7) q8 (x_vs1.isLt)
  obtain ⟨a22, q22⟩ := peel (lo := 22) (n := 3) q15 b1
  obtain ⟨a25, q25⟩ := peel (lo := 25) (n := 4) q22 (by decide)
  obtain ⟨a29, q29⟩ := peel (lo := 29) (n := 1) q25 (b2n_lt x_e1)
  obtain ⟨a30, q30⟩ := peel (lo := 30) (n := 1) q29 (by decide)
  obtain ⟨a31, q31⟩ := peel (lo := 31) (n := 1) q30 (by decide)
  exact ⟨a0, Nat.lt_of_div_eq_zero (by decide) q31, a1, a22, a31, band (decide_eq_true a25) (decide_eq_true a30), by simp only [getV2, OpV2.mk.injEq]; exact ⟨fld_eq a8, fld_eq a15, bit_eq a29, True.intro⟩⟩

/-- The fields and the tested bits of the words of one shape (19). -/
theorem row19 {w c v0 v1 : Nat} {o : OpVCvt} (b0 : v0 < 128) (b1 : v1 < 8) (hc : c = 1 + v0 * 2 + v1 * 67108864) (hw : w = c + putVCvt o) :
    w % 2 = 1 ∧ w < 2 ^ 32 ∧ w / 2 % 2 ^ 7 = v0 ∧ w / 2 ^ 26 % 2 ^ 3 = v1 ∧ (w / 2 ^ 31 % 2 ^ 1 = 0) ∧ (zeroAt w 30 1) = true ∧ getVCvt w o.pfx = o := by
  obtain ⟨x_vd, x_vs1, x_dfmt, x_e1, x_p⟩ := o
  simp only [putVCvt] at hw
  have h0 : w = 1 + 2 * (v0 + 2 ^ 7 * (x_vd.toNat + 2 ^ 7 * (x_vs1.toNat + 2 ^ 7 * (x_dfmt.toNat + 2 ^ 4 * (v1 + 2 ^ 3 * (b2n x_e1 + 2 ^ 1 * (0 + 2 ^ 1 * (0 + 2 ^ 1 * (0))))))))) := by rw [hw, hc]; ring
  obtain ⟨a0, q0⟩ := peel_zero h0
  obtain ⟨a1, q1⟩ := peel_one q0 b0
  obtain ⟨a8, q8⟩ := peel (lo := 8) (n := 7) q1 (x_vd.isLt)
  obtain ⟨a15, q15⟩ := peel (lo := 15) (n := 7) q8 (x_vs1.isLt)
  obtain ⟨a22, q22⟩ := peel (lo := 22) (n := 4) q15 (x_dfmt.isLt)
  obtain ⟨a26, q26⟩ := peel (lo := 26) (n := 3) q22 b1
  obtain ⟨a29, q29⟩ := peel (lo := 29) (n := 1) q26 (b2n_lt x_e1)
  obtain ⟨a30, q30⟩ := peel (lo := 30) (n := 1) q29 (by decide)
  obtain ⟨a31, q31⟩ := peel (lo := 31) (n := 1) q30 (by decide)
  exact ⟨a0, Nat.lt_of_div_eq_zero (by decide) q31, a1, a26, a31, decide_eq_true a30, by simp only [getVCvt, OpVCvt.mk.injEq]; exact ⟨fld_eq a8, fld_eq a15, fld_eq a22, bit_eq a29, True.intro⟩⟩

/-- The fields and the tested bits of the words of one shape (20). -/
theorem row20 {w c v0 : Nat} {o : OpVPack} (b0 : v0 < 128) (hc : c = 1 + v0 * 2) (hw : w = c + putVPack o) :
    w % 2 = 1 ∧ w < 2 ^ 32 ∧ w / 2 % 2 ^ 7 = v0 ∧ (w / 2 ^ 31 % 2 ^ 1 = 0) ∧ (zeroAt w 30 1) = true ∧ getVPack w o.pfx = o := by
  obtain ⟨x_vd, x_vs1, x_fmt, x_idx, x_e1, x_p⟩ := o
  simp only [putVPack] at hw
  have h0 : w = 1 + 2 * (v0 + 2 ^ 7 * (x_vd.toNat + 2 ^ 7 * (x_vs1.toNat + 2 ^ 7 * (x_fmt.toNat + 2 ^ 4 * (x_idx.toNat + 2 ^ 3 * (b2n x_e1 + 2 ^ 1 * (0 + 2 ^ 1 * (0 + 2 ^ 1 * (0))))))))) := by rw [hw, hc]; ring
  obtain ⟨a0, q0⟩ := peel_zero h0
  obtain ⟨a1, q1⟩ := peel_one q0 b0
  obtain ⟨a8, q8⟩ := peel (lo := 8) (n := 7) q1 (x_vd.isLt)
  obtain ⟨a15, q15⟩ := peel (lo := 15) (n := 7) q8 (x_vs1.isLt)
  obtain ⟨a22, q22⟩ := peel (lo := 22) (n := 4) q15 (x_fmt.isLt)
  obtain ⟨a26, q26⟩ := peel (lo := 26) (n := 3) q22 (x_idx.isLt)
  obtain ⟨a29, q29⟩ := peel (lo := 29) (n := 1) q26 (b2n_lt x_e1)
  obtain ⟨a30, q30⟩ := peel (lo := 30) (n := 1) q29 (by decide)
  obtain ⟨a31, q31⟩ := peel (lo := 31) (n := 1) q30 (by decide)
  exact ⟨a0, Nat.lt_of_div_eq_zero (by decide) q31, a1, a31, decide_eq_true a30, by simp only [getVPack, OpVPack.mk.injEq]; exact ⟨fld_eq a8, fld_eq a15, fld_eq a22, fld_eq a26, bit_eq a29, True.intro⟩⟩

/-- The fields and the tested bits of the words of one shape (21). -/
theorem row21 {w c v0 : Nat} {o : OpVShI} (b0 : v0 < 128) (hc : c = 1 + v0 * 2 + 2147483648) (hw : w = c + putVShI o) :
    w % 2 = 1 ∧ w < 2 ^ 32 ∧ w / 2 % 2 ^ 7 = v0 ∧ (w / 2 ^ 31 % 2 = 1) ∧ (zeroAt w 30 1) = true ∧ getVShI w o.pfx = o := by
  obtain ⟨x_vd, x_vs1, x_n, x_e1, x_p⟩ := o
  simp only [putVShI] at hw
  have h0 : w = 1 + 2 * (v0 + 2 ^ 7 * (x_vd.toNat + 2 ^ 7 * (x_vs1.toNat + 2 ^ 7 * (x_n.toNat + 2 ^ 7 * (b2n x_e1 + 2 ^ 1 * (0 + 2 ^ 1 * (1 + 2 ^ 1 * (0)))))))) := by rw [hw, hc]; ring
  obtain ⟨a0, q0⟩ := peel_zero h0
  obtain ⟨a1, q1⟩ := peel_one q0 b0
  obtain ⟨a8, q8⟩ := peel (lo := 8) (n := 7) q1 (x_vd.isLt)
  obtain ⟨a15, q15⟩ := peel (lo := 15) (n := 7) q8 (x_vs1.isLt)
  obtain ⟨a22, q22⟩ := peel (lo := 22) (n := 7) q15 (x_n.isLt)
  obtain ⟨a29, q29⟩ := peel (lo := 29) (n := 1) q22 (b2n_lt x_e1)
  obtain ⟨a30, q30⟩ := peel (lo := 30) (n := 1) q29 (by decide)
  obtain ⟨a31, q31⟩ := peel (lo := 31) (n := 1) q30 (by decide)
  exact ⟨a0, Nat.lt_of_div_eq_zero (by decide) q31, a1, a31, decide_eq_true a30, by simp only [getVShI, OpVShI.mk.injEq]; exact ⟨fld_eq a8, fld_eq a15, fld_eq a22, bit_eq a29, True.intro⟩⟩

/-- The fields and the tested bits of the words of one shape (22). -/
theorem row22 {w c v0 : Nat} {o : OpV2} (b0 : v0 < 128) (hc : c = 1 + v0 * 2 + 268435456) (hw : w = c + putV2 o) :
    w % 2 = 1 ∧ w < 2 ^ 32 ∧ w / 2 % 2 ^ 7 = v0 ∧ (w / 2 ^ 31 % 2 ^ 1 = 0) ∧ (w / 2 ^ 28 % 2 = 1) ∧ (zeroAt w 22 6 && zeroAt w 30 1) = true ∧ getV2 w o.pfx = o := by
  obtain ⟨x_vd, x_vs1, x_e1, x_p⟩ := o
  simp only [putV2] at hw
  have h0 : w = 1 + 2 * (v0 + 2 ^ 7 * (x_vd.toNat + 2 ^ 7 * (x_vs1.toNat + 2 ^ 7 * (0 + 2 ^ 6 * (1 + 2 ^ 1 * (b2n x_e1 + 2 ^ 1 * (0 + 2 ^ 1 * (0 + 2 ^ 1 * (0))))))))) := by rw [hw, hc]; ring
  obtain ⟨a0, q0⟩ := peel_zero h0
  obtain ⟨a1, q1⟩ := peel_one q0 b0
  obtain ⟨a8, q8⟩ := peel (lo := 8) (n := 7) q1 (x_vd.isLt)
  obtain ⟨a15, q15⟩ := peel (lo := 15) (n := 7) q8 (x_vs1.isLt)
  obtain ⟨a22, q22⟩ := peel (lo := 22) (n := 6) q15 (by decide)
  obtain ⟨a28, q28⟩ := peel (lo := 28) (n := 1) q22 (by decide)
  obtain ⟨a29, q29⟩ := peel (lo := 29) (n := 1) q28 (b2n_lt x_e1)
  obtain ⟨a30, q30⟩ := peel (lo := 30) (n := 1) q29 (by decide)
  obtain ⟨a31, q31⟩ := peel (lo := 31) (n := 1) q30 (by decide)
  exact ⟨a0, Nat.lt_of_div_eq_zero (by decide) q31, a1, a31, a28, band (decide_eq_true a22) (decide_eq_true a30), by simp only [getV2, OpV2.mk.injEq]; exact ⟨fld_eq a8, fld_eq a15, bit_eq a29, True.intro⟩⟩

/-- The fields and the tested bits of the words of one shape (23). -/
theorem row23 {w c v0 : Nat} {o : OpVSk} (b0 : v0 < 128) (hc : c = 1 + v0 * 2) (hw : w = c + putVSk o) :
    w % 2 = 1 ∧ w < 2 ^ 32 ∧ w / 2 % 2 ^ 7 = v0 ∧ (w / 2 ^ 31 % 2 ^ 1 = 0) ∧ ¬ (w / 2 ^ 28 % 2 = 1) ∧ (zeroAt w 30 1) = true ∧ getVSk w o.pfx = o := by
  obtain ⟨x_vd, x_vs1, x_sk, x_e1, x_p⟩ := o
  simp only [putVSk] at hw
  have h0 : w = 1 + 2 * (v0 + 2 ^ 7 * (x_vd.toNat + 2 ^ 7 * (x_vs1.toNat + 2 ^ 7 * (x_sk.toNat + 2 ^ 6 * (0 + 2 ^ 1 * (b2n x_e1 + 2 ^ 1 * (0 + 2 ^ 1 * (0 + 2 ^ 1 * (0))))))))) := by rw [hw, hc]; ring
  obtain ⟨a0, q0⟩ := peel_zero h0
  obtain ⟨a1, q1⟩ := peel_one q0 b0
  obtain ⟨a8, q8⟩ := peel (lo := 8) (n := 7) q1 (x_vd.isLt)
  obtain ⟨a15, q15⟩ := peel (lo := 15) (n := 7) q8 (x_vs1.isLt)
  obtain ⟨a22, q22⟩ := peel (lo := 22) (n := 6) q15 (x_sk.isLt)
  obtain ⟨a28, q28⟩ := peel (lo := 28) (n := 1) q22 (by decide)
  obtain ⟨a29, q29⟩ := peel (lo := 29) (n := 1) q28 (b2n_lt x_e1)
  obtain ⟨a30, q30⟩ := peel (lo := 30) (n := 1) q29 (by decide)
  obtain ⟨a31, q31⟩ := peel (lo := 31) (n := 1) q30 (by decide)
  exact ⟨a0, Nat.lt_of_div_eq_zero (by decide) q31, a1, a31, fun h => absurd (a28.symm.trans h) (by decide), decide_eq_true a30, by simp only [getVSk, OpVSk.mk.injEq]; exact ⟨fld_eq a8, fld_eq a15, fld_eq a22, bit_eq a29, True.intro⟩⟩

/-- The fields and the tested bits of the words of one shape (24). -/
theorem row24 {w c v0 : Nat} {o : OpVRed} (b0 : v0 < 128) (hc : c = 1 + v0 * 2) (hw : w = c + putVRed o) :
    w % 2 = 1 ∧ w < 2 ^ 32 ∧ w / 2 % 2 ^ 7 = v0 ∧ (w / 2 ^ 31 % 2 ^ 1 = 0) ∧ (zeroAt w 26 3 && zeroAt w 30 1) = true ∧ getVRed w o.pfx = o := by
  obtain ⟨x_vd, x_vs1, x_op, x_e1, x_p⟩ := o
  simp only [putVRed] at hw
  have h0 : w = 1 + 2 * (v0 + 2 ^ 7 * (x_vd.toNat + 2 ^ 7 * (x_vs1.toNat + 2 ^ 7 * (x_op.toNat + 2 ^ 4 * (0 + 2 ^ 3 * (b2n x_e1 + 2 ^ 1 * (0 + 2 ^ 1 * (0 + 2 ^ 1 * (0))))))))) := by rw [hw, hc]; ring
  obtain ⟨a0, q0⟩ := peel_zero h0
  obtain ⟨a1, q1⟩ := peel_one q0 b0
  obtain ⟨a8, q8⟩ := peel (lo := 8) (n := 7) q1 (x_vd.isLt)
  obtain ⟨a15, q15⟩ := peel (lo := 15) (n := 7) q8 (x_vs1.isLt)
  obtain ⟨a22, q22⟩ := peel (lo := 22) (n := 4) q15 (x_op.isLt)
  obtain ⟨a26, q26⟩ := peel (lo := 26) (n := 3) q22 (by decide)
  obtain ⟨a29, q29⟩ := peel (lo := 29) (n := 1) q26 (b2n_lt x_e1)
  obtain ⟨a30, q30⟩ := peel (lo := 30) (n := 1) q29 (by decide)
  obtain ⟨a31, q31⟩ := peel (lo := 31) (n := 1) q30 (by decide)
  exact ⟨a0, Nat.lt_of_div_eq_zero (by decide) q31, a1, a31, band (decide_eq_true a26) (decide_eq_true a30), by simp only [getVRed, OpVRed.mk.injEq]; exact ⟨fld_eq a8, fld_eq a15, fld_eq a22, bit_eq a29, True.intro⟩⟩

/-- The fields and the tested bits of the words of one shape (25). -/
theorem row25 {w c v0 : Nat} {o : OpVRedS} (b0 : v0 < 128) (hc : c = 1 + v0 * 2) (hw : w = c + putVRedS o) :
    w % 2 = 1 ∧ w < 2 ^ 32 ∧ w / 2 % 2 ^ 7 = v0 ∧ (w / 2 ^ 31 % 2 ^ 1 = 0) ∧ (zeroAt w 14 1 && zeroAt w 26 3 && zeroAt w 30 1) = true ∧ getVRedS w o.pfx = o := by
  obtain ⟨x_sd, x_vs1, x_op, x_e1, x_p⟩ := o
  simp only [putVRedS] at hw
  have h0 : w = 1 + 2 * (v0 + 2 ^ 7 * (x_sd.toNat + 2 ^ 6 * (0 + 2 ^ 1 * (x_vs1.toNat + 2 ^ 7 * (x_op.toNat + 2 ^ 4 * (0 + 2 ^ 3 * (b2n x_e1 + 2 ^ 1 * (0 + 2 ^ 1 * (0 + 2 ^ 1 * (0)))))))))) := by rw [hw, hc]; ring
  obtain ⟨a0, q0⟩ := peel_zero h0
  obtain ⟨a1, q1⟩ := peel_one q0 b0
  obtain ⟨a8, q8⟩ := peel (lo := 8) (n := 6) q1 (x_sd.isLt)
  obtain ⟨a14, q14⟩ := peel (lo := 14) (n := 1) q8 (by decide)
  obtain ⟨a15, q15⟩ := peel (lo := 15) (n := 7) q14 (x_vs1.isLt)
  obtain ⟨a22, q22⟩ := peel (lo := 22) (n := 4) q15 (x_op.isLt)
  obtain ⟨a26, q26⟩ := peel (lo := 26) (n := 3) q22 (by decide)
  obtain ⟨a29, q29⟩ := peel (lo := 29) (n := 1) q26 (b2n_lt x_e1)
  obtain ⟨a30, q30⟩ := peel (lo := 30) (n := 1) q29 (by decide)
  obtain ⟨a31, q31⟩ := peel (lo := 31) (n := 1) q30 (by decide)
  exact ⟨a0, Nat.lt_of_div_eq_zero (by decide) q31, a1, a31, band (band (decide_eq_true a14) (decide_eq_true a26)) (decide_eq_true a30), by simp only [getVRedS, OpVRedS.mk.injEq]; exact ⟨fld_eq a8, fld_eq a15, fld_eq a22, bit_eq a29, True.intro⟩⟩

/-- The fields and the tested bits of the words of one shape (26). -/
theorem row26 {w c v0 : Nat} {o : OpVRed} (b0 : v0 < 128) (hc : c = 1 + v0 * 2 + 2147483648) (hw : w = c + putVRed o) :
    w % 2 = 1 ∧ w < 2 ^ 32 ∧ w / 2 % 2 ^ 7 = v0 ∧ (w / 2 ^ 31 % 2 = 1) ∧ (zeroAt w 26 3 && zeroAt w 30 1) = true ∧ getVRed w o.pfx = o := by
  obtain ⟨x_vd, x_vs1, x_op, x_e1, x_p⟩ := o
  simp only [putVRed] at hw
  have h0 : w = 1 + 2 * (v0 + 2 ^ 7 * (x_vd.toNat + 2 ^ 7 * (x_vs1.toNat + 2 ^ 7 * (x_op.toNat + 2 ^ 4 * (0 + 2 ^ 3 * (b2n x_e1 + 2 ^ 1 * (0 + 2 ^ 1 * (1 + 2 ^ 1 * (0))))))))) := by rw [hw, hc]; ring
  obtain ⟨a0, q0⟩ := peel_zero h0
  obtain ⟨a1, q1⟩ := peel_one q0 b0
  obtain ⟨a8, q8⟩ := peel (lo := 8) (n := 7) q1 (x_vd.isLt)
  obtain ⟨a15, q15⟩ := peel (lo := 15) (n := 7) q8 (x_vs1.isLt)
  obtain ⟨a22, q22⟩ := peel (lo := 22) (n := 4) q15 (x_op.isLt)
  obtain ⟨a26, q26⟩ := peel (lo := 26) (n := 3) q22 (by decide)
  obtain ⟨a29, q29⟩ := peel (lo := 29) (n := 1) q26 (b2n_lt x_e1)
  obtain ⟨a30, q30⟩ := peel (lo := 30) (n := 1) q29 (by decide)
  obtain ⟨a31, q31⟩ := peel (lo := 31) (n := 1) q30 (by decide)
  exact ⟨a0, Nat.lt_of_div_eq_zero (by decide) q31, a1, a31, band (decide_eq_true a26) (decide_eq_true a30), by simp only [getVRed, OpVRed.mk.injEq]; exact ⟨fld_eq a8, fld_eq a15, fld_eq a22, bit_eq a29, True.intro⟩⟩

/-- The fields and the tested bits of the words of one shape (27). -/
theorem row27 {w c v0 : Nat} {o : OpVRed} (b0 : v0 < 128) (hc : c = 1 + v0 * 2) (hw : w = c + putVRed o) :
    w % 2 = 1 ∧ w < 2 ^ 32 ∧ w / 2 % 2 ^ 7 = v0 ∧ ¬ (w / 2 ^ 31 % 2 = 1) ∧ (zeroAt w 26 3 && zeroAt w 30 1) = true ∧ getVRed w o.pfx = o := by
  obtain ⟨x_vd, x_vs1, x_op, x_e1, x_p⟩ := o
  simp only [putVRed] at hw
  have h0 : w = 1 + 2 * (v0 + 2 ^ 7 * (x_vd.toNat + 2 ^ 7 * (x_vs1.toNat + 2 ^ 7 * (x_op.toNat + 2 ^ 4 * (0 + 2 ^ 3 * (b2n x_e1 + 2 ^ 1 * (0 + 2 ^ 1 * (0 + 2 ^ 1 * (0))))))))) := by rw [hw, hc]; ring
  obtain ⟨a0, q0⟩ := peel_zero h0
  obtain ⟨a1, q1⟩ := peel_one q0 b0
  obtain ⟨a8, q8⟩ := peel (lo := 8) (n := 7) q1 (x_vd.isLt)
  obtain ⟨a15, q15⟩ := peel (lo := 15) (n := 7) q8 (x_vs1.isLt)
  obtain ⟨a22, q22⟩ := peel (lo := 22) (n := 4) q15 (x_op.isLt)
  obtain ⟨a26, q26⟩ := peel (lo := 26) (n := 3) q22 (by decide)
  obtain ⟨a29, q29⟩ := peel (lo := 29) (n := 1) q26 (b2n_lt x_e1)
  obtain ⟨a30, q30⟩ := peel (lo := 30) (n := 1) q29 (by decide)
  obtain ⟨a31, q31⟩ := peel (lo := 31) (n := 1) q30 (by decide)
  exact ⟨a0, Nat.lt_of_div_eq_zero (by decide) q31, a1, fun h => absurd (a31.symm.trans h) (by decide), band (decide_eq_true a26) (decide_eq_true a30), by simp only [getVRed, OpVRed.mk.injEq]; exact ⟨fld_eq a8, fld_eq a15, fld_eq a22, bit_eq a29, True.intro⟩⟩

/-- The fields and the tested bits of the words of one shape (28). -/
theorem row28 {w c v0 : Nat} {o : OpVSsc} (b0 : v0 < 128) (hc : c = 1 + v0 * 2 + 2147483648) (hw : w = c + putVSsc o) :
    w % 2 = 1 ∧ w < 2 ^ 32 ∧ w / 2 % 2 ^ 7 = v0 ∧ (w / 2 ^ 31 % 2 = 1) ∧ (zeroAt w 30 1) = true ∧ getVSsc w o.pfx = o := by
  obtain ⟨x_vd, x_vs1, x_op, x_mh, x_e1, x_p⟩ := o
  simp only [putVSsc] at hw
  have h0 : w = 1 + 2 * (v0 + 2 ^ 7 * (x_vd.toNat + 2 ^ 7 * (x_vs1.toNat + 2 ^ 7 * (x_op.toNat + 2 ^ 4 * (x_mh.toNat + 2 ^ 3 * (b2n x_e1 + 2 ^ 1 * (0 + 2 ^ 1 * (1 + 2 ^ 1 * (0))))))))) := by rw [hw, hc]; ring
  obtain ⟨a0, q0⟩ := peel_zero h0
  obtain ⟨a1, q1⟩ := peel_one q0 b0
  obtain ⟨a8, q8⟩ := peel (lo := 8) (n := 7) q1 (x_vd.isLt)
  obtain ⟨a15, q15⟩ := peel (lo := 15) (n := 7) q8 (x_vs1.isLt)
  obtain ⟨a22, q22⟩ := peel (lo := 22) (n := 4) q15 (x_op.isLt)
  obtain ⟨a26, q26⟩ := peel (lo := 26) (n := 3) q22 (x_mh.isLt)
  obtain ⟨a29, q29⟩ := peel (lo := 29) (n := 1) q26 (b2n_lt x_e1)
  obtain ⟨a30, q30⟩ := peel (lo := 30) (n := 1) q29 (by decide)
  obtain ⟨a31, q31⟩ := peel (lo := 31) (n := 1) q30 (by decide)
  exact ⟨a0, Nat.lt_of_div_eq_zero (by decide) q31, a1, a31, decide_eq_true a30, by simp only [getVSsc, OpVSsc.mk.injEq]; exact ⟨fld_eq a8, fld_eq a15, fld_eq a22, fld_eq a26, bit_eq a29, True.intro⟩⟩

/-- The fields and the tested bits of the words of one shape (29). -/
theorem row29 {w c v0 : Nat} {o : OpVSsc} (b0 : v0 < 128) (hc : c = 1 + v0 * 2) (hw : w = c + putVSsc o) :
    w % 2 = 1 ∧ w < 2 ^ 32 ∧ w / 2 % 2 ^ 7 = v0 ∧ ¬ (w / 2 ^ 31 % 2 = 1) ∧ (zeroAt w 30 1) = true ∧ getVSsc w o.pfx = o := by
  obtain ⟨x_vd, x_vs1, x_op, x_mh, x_e1, x_p⟩ := o
  simp only [putVSsc] at hw
  have h0 : w = 1 + 2 * (v0 + 2 ^ 7 * (x_vd.toNat + 2 ^ 7 * (x_vs1.toNat + 2 ^ 7 * (x_op.toNat + 2 ^ 4 * (x_mh.toNat + 2 ^ 3 * (b2n x_e1 + 2 ^ 1 * (0 + 2 ^ 1 * (0 + 2 ^ 1 * (0))))))))) := by rw [hw, hc]; ring
  obtain ⟨a0, q0⟩ := peel_zero h0
  obtain ⟨a1, q1⟩ := peel_one q0 b0
  obtain ⟨a8, q8⟩ := peel (lo := 8) (n := 7) q1 (x_vd.isLt)
  obtain ⟨a15, q15⟩ := peel (lo := 15) (n := 7) q8 (x_vs1.isLt)
  obtain ⟨a22, q22⟩ := peel (lo := 22) (n := 4) q15 (x_op.isLt)
  obtain ⟨a26, q26⟩ := peel (lo := 26) (n := 3) q22 (x_mh.isLt)
  obtain ⟨a29, q29⟩ := peel (lo := 29) (n := 1) q26 (b2n_lt x_e1)
  obtain ⟨a30, q30⟩ := peel (lo := 30) (n := 1) q29 (by decide)
  obtain ⟨a31, q31⟩ := peel (lo := 31) (n := 1) q30 (by decide)
  exact ⟨a0, Nat.lt_of_div_eq_zero (by decide) q31, a1, fun h => absurd (a31.symm.trans h) (by decide), decide_eq_true a30, by simp only [getVSsc, OpVSsc.mk.injEq]; exact ⟨fld_eq a8, fld_eq a15, fld_eq a22, fld_eq a26, bit_eq a29, True.intro⟩⟩

/-- The fields and the tested bits of the words of one shape (30). -/
theorem row30 {w c v0 : Nat} {o : OpVBalM} (b0 : v0 < 128) (hc : c = 1 + v0 * 2 + 2147483648) (hw : w = c + putVBalM o) :
    w % 2 = 1 ∧ w < 2 ^ 32 ∧ w / 2 % 2 ^ 7 = v0 ∧ (w / 2 ^ 31 % 2 = 1) ∧ (zeroAt w 11 4 && zeroAt w 27 2 && zeroAt w 30 1) = true ∧ getVBalM w o.pfx = o := by
  obtain ⟨x_md, x_vs1, x_n, x_e1, x_p⟩ := o
  simp only [putVBalM] at hw
  have h0 : w = 1 + 2 * (v0 + 2 ^ 7 * (x_md.toNat + 2 ^ 3 * (0 + 2 ^ 4 * (x_vs1.toNat + 2 ^ 7 * (x_n.toNat + 2 ^ 5 * (0 + 2 ^ 2 * (b2n x_e1 + 2 ^ 1 * (0 + 2 ^ 1 * (1 + 2 ^ 1 * (0)))))))))) := by rw [hw, hc]; ring
  obtain ⟨a0, q0⟩ := peel_zero h0
  obtain ⟨a1, q1⟩ := peel_one q0 b0
  obtain ⟨a8, q8⟩ := peel (lo := 8) (n := 3) q1 (x_md.isLt)
  obtain ⟨a11, q11⟩ := peel (lo := 11) (n := 4) q8 (by decide)
  obtain ⟨a15, q15⟩ := peel (lo := 15) (n := 7) q11 (x_vs1.isLt)
  obtain ⟨a22, q22⟩ := peel (lo := 22) (n := 5) q15 (x_n.isLt)
  obtain ⟨a27, q27⟩ := peel (lo := 27) (n := 2) q22 (by decide)
  obtain ⟨a29, q29⟩ := peel (lo := 29) (n := 1) q27 (b2n_lt x_e1)
  obtain ⟨a30, q30⟩ := peel (lo := 30) (n := 1) q29 (by decide)
  obtain ⟨a31, q31⟩ := peel (lo := 31) (n := 1) q30 (by decide)
  exact ⟨a0, Nat.lt_of_div_eq_zero (by decide) q31, a1, a31, band (band (decide_eq_true a11) (decide_eq_true a27)) (decide_eq_true a30), by simp only [getVBalM, OpVBalM.mk.injEq]; exact ⟨fld_eq a8, fld_eq a15, fld_eq a22, bit_eq a29, True.intro⟩⟩

/-- The fields and the tested bits of the words of one shape (31). -/
theorem row31 {w c v0 : Nat} {o : OpVBal} (b0 : v0 < 128) (hc : c = 1 + v0 * 2) (hw : w = c + putVBal o) :
    w % 2 = 1 ∧ w < 2 ^ 32 ∧ w / 2 % 2 ^ 7 = v0 ∧ ¬ (w / 2 ^ 31 % 2 = 1) ∧ (zeroAt w 14 1 && zeroAt w 27 2 && zeroAt w 30 1) = true ∧ getVBal w o.pfx = o := by
  obtain ⟨x_sd, x_vs1, x_n, x_e1, x_p⟩ := o
  simp only [putVBal] at hw
  have h0 : w = 1 + 2 * (v0 + 2 ^ 7 * (x_sd.toNat + 2 ^ 6 * (0 + 2 ^ 1 * (x_vs1.toNat + 2 ^ 7 * (x_n.toNat + 2 ^ 5 * (0 + 2 ^ 2 * (b2n x_e1 + 2 ^ 1 * (0 + 2 ^ 1 * (0 + 2 ^ 1 * (0)))))))))) := by rw [hw, hc]; ring
  obtain ⟨a0, q0⟩ := peel_zero h0
  obtain ⟨a1, q1⟩ := peel_one q0 b0
  obtain ⟨a8, q8⟩ := peel (lo := 8) (n := 6) q1 (x_sd.isLt)
  obtain ⟨a14, q14⟩ := peel (lo := 14) (n := 1) q8 (by decide)
  obtain ⟨a15, q15⟩ := peel (lo := 15) (n := 7) q14 (x_vs1.isLt)
  obtain ⟨a22, q22⟩ := peel (lo := 22) (n := 5) q15 (x_n.isLt)
  obtain ⟨a27, q27⟩ := peel (lo := 27) (n := 2) q22 (by decide)
  obtain ⟨a29, q29⟩ := peel (lo := 29) (n := 1) q27 (b2n_lt x_e1)
  obtain ⟨a30, q30⟩ := peel (lo := 30) (n := 1) q29 (by decide)
  obtain ⟨a31, q31⟩ := peel (lo := 31) (n := 1) q30 (by decide)
  exact ⟨a0, Nat.lt_of_div_eq_zero (by decide) q31, a1, fun h => absurd (a31.symm.trans h) (by decide), band (band (decide_eq_true a14) (decide_eq_true a27)) (decide_eq_true a30), by simp only [getVBal, OpVBal.mk.injEq]; exact ⟨fld_eq a8, fld_eq a15, fld_eq a22, bit_eq a29, True.intro⟩⟩

/-- The fields and the tested bits of the words of one shape (32). -/
theorem row32 {w c v0 v1 : Nat} {o : OpM3} (b0 : v0 < 128) (b1 : v1 < 8) (hc : c = 1 + v0 * 2 + v1 * 33554432) (hw : w = c + putM3 o) :
    w % 2 = 1 ∧ w < 2 ^ 32 ∧ w / 2 % 2 ^ 7 = v0 ∧ w / 2 ^ 25 % 2 ^ 3 = v1 ∧ (w / 2 ^ 31 % 2 ^ 1 = 0) ∧ (zeroAt w 11 4 && zeroAt w 18 4 && zeroAt w 28 3) = true ∧ getM3 w o.pfx = o := by
  obtain ⟨x_md, x_ma, x_mb, x_p⟩ := o
  simp only [putM3] at hw
  have h0 : w = 1 + 2 * (v0 + 2 ^ 7 * (x_md.toNat + 2 ^ 3 * (0 + 2 ^ 4 * (x_ma.toNat + 2 ^ 3 * (0 + 2 ^ 4 * (x_mb.toNat + 2 ^ 3 * (v1 + 2 ^ 3 * (0 + 2 ^ 3 * (0 + 2 ^ 1 * (0)))))))))) := by rw [hw, hc]; ring
  obtain ⟨a0, q0⟩ := peel_zero h0
  obtain ⟨a1, q1⟩ := peel_one q0 b0
  obtain ⟨a8, q8⟩ := peel (lo := 8) (n := 3) q1 (x_md.isLt)
  obtain ⟨a11, q11⟩ := peel (lo := 11) (n := 4) q8 (by decide)
  obtain ⟨a15, q15⟩ := peel (lo := 15) (n := 3) q11 (x_ma.isLt)
  obtain ⟨a18, q18⟩ := peel (lo := 18) (n := 4) q15 (by decide)
  obtain ⟨a22, q22⟩ := peel (lo := 22) (n := 3) q18 (x_mb.isLt)
  obtain ⟨a25, q25⟩ := peel (lo := 25) (n := 3) q22 b1
  obtain ⟨a28, q28⟩ := peel (lo := 28) (n := 3) q25 (by decide)
  obtain ⟨a31, q31⟩ := peel (lo := 31) (n := 1) q28 (by decide)
  exact ⟨a0, Nat.lt_of_div_eq_zero (by decide) q31, a1, a25, a31, band (band (decide_eq_true a11) (decide_eq_true a18)) (decide_eq_true a28), by simp only [getM3, OpM3.mk.injEq]; exact ⟨fld_eq a8, fld_eq a15, fld_eq a22, True.intro⟩⟩

/-- The fields and the tested bits of the words of one shape (33). -/
theorem row33 {w c v0 v1 : Nat} {o : OpM2} (b0 : v0 < 128) (b1 : v1 < 8) (hc : c = 1 + v0 * 2 + v1 * 33554432) (hw : w = c + putM2 o) :
    w % 2 = 1 ∧ w < 2 ^ 32 ∧ w / 2 % 2 ^ 7 = v0 ∧ w / 2 ^ 25 % 2 ^ 3 = v1 ∧ (w / 2 ^ 31 % 2 ^ 1 = 0) ∧ (zeroAt w 11 4 && zeroAt w 18 7 && zeroAt w 28 3) = true ∧ getM2 w o.pfx = o := by
  obtain ⟨x_md, x_ma, x_p⟩ := o
  simp only [putM2] at hw
  have h0 : w = 1 + 2 * (v0 + 2 ^ 7 * (x_md.toNat + 2 ^ 3 * (0 + 2 ^ 4 * (x_ma.toNat + 2 ^ 3 * (0 + 2 ^ 7 * (v1 + 2 ^ 3 * (0 + 2 ^ 3 * (0 + 2 ^ 1 * (0))))))))) := by rw [hw, hc]; ring
  obtain ⟨a0, q0⟩ := peel_zero h0
  obtain ⟨a1, q1⟩ := peel_one q0 b0
  obtain ⟨a8, q8⟩ := peel (lo := 8) (n := 3) q1 (x_md.isLt)
  obtain ⟨a11, q11⟩ := peel (lo := 11) (n := 4) q8 (by decide)
  obtain ⟨a15, q15⟩ := peel (lo := 15) (n := 3) q11 (x_ma.isLt)
  obtain ⟨a18, q18⟩ := peel (lo := 18) (n := 7) q15 (by decide)
  obtain ⟨a25, q25⟩ := peel (lo := 25) (n := 3) q18 b1
  obtain ⟨a28, q28⟩ := peel (lo := 28) (n := 3) q25 (by decide)
  obtain ⟨a31, q31⟩ := peel (lo := 31) (n := 1) q28 (by decide)
  exact ⟨a0, Nat.lt_of_div_eq_zero (by decide) q31, a1, a25, a31, band (band (decide_eq_true a11) (decide_eq_true a18)) (decide_eq_true a28), by simp only [getM2, OpM2.mk.injEq]; exact ⟨fld_eq a8, fld_eq a15, True.intro⟩⟩

/-- The fields and the tested bits of the words of one shape (34). -/
theorem row34 {w c v0 v1 : Nat} {o : OpMS} (b0 : v0 < 128) (b1 : v1 < 8) (hc : c = 1 + v0 * 2 + v1 * 33554432) (hw : w = c + putMS o) :
    w % 2 = 1 ∧ w < 2 ^ 32 ∧ w / 2 % 2 ^ 7 = v0 ∧ w / 2 ^ 25 % 2 ^ 3 = v1 ∧ (w / 2 ^ 31 % 2 ^ 1 = 0) ∧ (zeroAt w 14 1 && zeroAt w 18 7 && zeroAt w 28 3) = true ∧ getMS w o.pfx = o := by
  obtain ⟨x_sd, x_ma, x_p⟩ := o
  simp only [putMS] at hw
  have h0 : w = 1 + 2 * (v0 + 2 ^ 7 * (x_sd.toNat + 2 ^ 6 * (0 + 2 ^ 1 * (x_ma.toNat + 2 ^ 3 * (0 + 2 ^ 7 * (v1 + 2 ^ 3 * (0 + 2 ^ 3 * (0 + 2 ^ 1 * (0))))))))) := by rw [hw, hc]; ring
  obtain ⟨a0, q0⟩ := peel_zero h0
  obtain ⟨a1, q1⟩ := peel_one q0 b0
  obtain ⟨a8, q8⟩ := peel (lo := 8) (n := 6) q1 (x_sd.isLt)
  obtain ⟨a14, q14⟩ := peel (lo := 14) (n := 1) q8 (by decide)
  obtain ⟨a15, q15⟩ := peel (lo := 15) (n := 3) q14 (x_ma.isLt)
  obtain ⟨a18, q18⟩ := peel (lo := 18) (n := 7) q15 (by decide)
  obtain ⟨a25, q25⟩ := peel (lo := 25) (n := 3) q18 b1
  obtain ⟨a28, q28⟩ := peel (lo := 28) (n := 3) q25 (by decide)
  obtain ⟨a31, q31⟩ := peel (lo := 31) (n := 1) q28 (by decide)
  exact ⟨a0, Nat.lt_of_div_eq_zero (by decide) q31, a1, a25, a31, band (band (decide_eq_true a14) (decide_eq_true a18)) (decide_eq_true a28), by simp only [getMS, OpMS.mk.injEq]; exact ⟨fld_eq a8, fld_eq a15, True.intro⟩⟩

/-- The fields and the tested bits of the words of one shape (35). -/
theorem row35 {w c v0 : Nat} {o : OpVStov} (b0 : v0 < 128) (hc : c = 1 + v0 * 2 + 2147483648) (hw : w = c + putVStov o) :
    w % 2 = 1 ∧ w < 2 ^ 32 ∧ w / 2 % 2 ^ 7 = v0 ∧ (w / 2 ^ 31 % 2 = 1) ∧ (w / 2 ^ 21 % 2 ^ 1 = 0) ∧ (zeroAt w 22 9) = true ∧ getVStov w o.pfx = o := by
  obtain ⟨x_vd, x_ss, x_p⟩ := o
  simp only [putVStov] at hw
  have h0 : w = 1 + 2 * (v0 + 2 ^ 7 * (x_vd.toNat + 2 ^ 7 * (x_ss.toNat + 2 ^ 6 * (0 + 2 ^ 1 * (0 + 2 ^ 9 * (1 + 2 ^ 1 * (0))))))) := by rw [hw, hc]; ring
  obtain ⟨a0, q0⟩ := peel_zero h0
  obtain ⟨a1, q1⟩ := peel_one q0 b0
  obtain ⟨a8, q8⟩ := peel (lo := 8) (n := 7) q1 (x_vd.isLt)
  obtain ⟨a15, q15⟩ := peel (lo := 15) (n := 6) q8 (x_ss.isLt)
  obtain ⟨a21, q21⟩ := peel (lo := 21) (n := 1) q15 (by decide)
  obtain ⟨a22, q22⟩ := peel (lo := 22) (n := 9) q21 (by decide)
  obtain ⟨a31, q31⟩ := peel (lo := 31) (n := 1) q22 (by decide)
  exact ⟨a0, Nat.lt_of_div_eq_zero (by decide) q31, a1, a31, a21, decide_eq_true a22, by simp only [getVStov, OpVStov.mk.injEq]; exact ⟨fld_eq a8, fld_eq a15, True.intro⟩⟩

/-- The fields and the tested bits of the words of one shape (36). -/
theorem row36 {w c v0 : Nat} {o : OpVStov} (b0 : v0 < 128) (hc : c = 1 + v0 * 2 + 2149580800) (hw : w = c + putVStov o) :
    w % 2 = 1 ∧ w < 2 ^ 32 ∧ w / 2 % 2 ^ 7 = v0 ∧ (w / 2 ^ 31 % 2 = 1) ∧ ¬ (w / 2 ^ 21 % 2 ^ 1 = 0) ∧ (w / 2 ^ 21 % 2 ^ 1 = 1) ∧ (zeroAt w 22 9) = true ∧ getVStov w o.pfx = o := by
  obtain ⟨x_vd, x_ss, x_p⟩ := o
  simp only [putVStov] at hw
  have h0 : w = 1 + 2 * (v0 + 2 ^ 7 * (x_vd.toNat + 2 ^ 7 * (x_ss.toNat + 2 ^ 6 * (1 + 2 ^ 1 * (0 + 2 ^ 9 * (1 + 2 ^ 1 * (0))))))) := by rw [hw, hc]; ring
  obtain ⟨a0, q0⟩ := peel_zero h0
  obtain ⟨a1, q1⟩ := peel_one q0 b0
  obtain ⟨a8, q8⟩ := peel (lo := 8) (n := 7) q1 (x_vd.isLt)
  obtain ⟨a15, q15⟩ := peel (lo := 15) (n := 6) q8 (x_ss.isLt)
  obtain ⟨a21, q21⟩ := peel (lo := 21) (n := 1) q15 (by decide)
  obtain ⟨a22, q22⟩ := peel (lo := 22) (n := 9) q21 (by decide)
  obtain ⟨a31, q31⟩ := peel (lo := 31) (n := 1) q22 (by decide)
  exact ⟨a0, Nat.lt_of_div_eq_zero (by decide) q31, a1, a31, fun h => absurd (a21.symm.trans h) (by decide), a21, decide_eq_true a22, by simp only [getVStov, OpVStov.mk.injEq]; exact ⟨fld_eq a8, fld_eq a15, True.intro⟩⟩

/-- The fields and the tested bits of the words of one shape (37). -/
theorem row37 {w c v0 : Nat} {o : OpVSf} (b0 : v0 < 128) (hc : c = 1 + v0 * 2 + 268435456) (hw : w = c + putVSf o) :
    w % 2 = 1 ∧ w < 2 ^ 32 ∧ w / 2 % 2 ^ 7 = v0 ∧ ¬ (w / 2 ^ 31 % 2 = 1) ∧ (w / 2 ^ 28 % 2 = 1) ∧ (zeroAt w 14 1 && zeroAt w 22 6 && zeroAt w 30 1) = true ∧ getVSf w o.pfx = o := by
  obtain ⟨x_sd, x_vs1, x_e1, x_p⟩ := o
  simp only [putVSf] at hw
  have h0 : w = 1 + 2 * (v0 + 2 ^ 7 * (x_sd.toNat + 2 ^ 6 * (0 + 2 ^ 1 * (x_vs1.toNat + 2 ^ 7 * (0 + 2 ^ 6 * (1 + 2 ^ 1 * (b2n x_e1 + 2 ^ 1 * (0 + 2 ^ 1 * (0 + 2 ^ 1 * (0)))))))))) := by rw [hw, hc]; ring
  obtain ⟨a0, q0⟩ := peel_zero h0
  obtain ⟨a1, q1⟩ := peel_one q0 b0
  obtain ⟨a8, q8⟩ := peel (lo := 8) (n := 6) q1 (x_sd.isLt)
  obtain ⟨a14, q14⟩ := peel (lo := 14) (n := 1) q8 (by decide)
  obtain ⟨a15, q15⟩ := peel (lo := 15) (n := 7) q14 (x_vs1.isLt)
  obtain ⟨a22, q22⟩ := peel (lo := 22) (n := 6) q15 (by decide)
  obtain ⟨a28, q28⟩ := peel (lo := 28) (n := 1) q22 (by decide)
  obtain ⟨a29, q29⟩ := peel (lo := 29) (n := 1) q28 (b2n_lt x_e1)
  obtain ⟨a30, q30⟩ := peel (lo := 30) (n := 1) q29 (by decide)
  obtain ⟨a31, q31⟩ := peel (lo := 31) (n := 1) q30 (by decide)
  exact ⟨a0, Nat.lt_of_div_eq_zero (by decide) q31, a1, fun h => absurd (a31.symm.trans h) (by decide), a28, band (band (decide_eq_true a14) (decide_eq_true a22)) (decide_eq_true a30), by simp only [getVSf, OpVSf.mk.injEq]; exact ⟨fld_eq a8, fld_eq a15, bit_eq a29, True.intro⟩⟩

/-- The fields and the tested bits of the words of one shape (38). -/
theorem row38 {w c v0 : Nat} {o : OpVSv} (b0 : v0 < 128) (hc : c = 1 + v0 * 2) (hw : w = c + putVSv o) :
    w % 2 = 1 ∧ w < 2 ^ 32 ∧ w / 2 % 2 ^ 7 = v0 ∧ ¬ (w / 2 ^ 31 % 2 = 1) ∧ ¬ (w / 2 ^ 28 % 2 = 1) ∧ (zeroAt w 14 1 && zeroAt w 30 1) = true ∧ getVSv w o.pfx = o := by
  obtain ⟨x_sd, x_vs1, x_sk, x_e1, x_p⟩ := o
  simp only [putVSv] at hw
  have h0 : w = 1 + 2 * (v0 + 2 ^ 7 * (x_sd.toNat + 2 ^ 6 * (0 + 2 ^ 1 * (x_vs1.toNat + 2 ^ 7 * (x_sk.toNat + 2 ^ 6 * (0 + 2 ^ 1 * (b2n x_e1 + 2 ^ 1 * (0 + 2 ^ 1 * (0 + 2 ^ 1 * (0)))))))))) := by rw [hw, hc]; ring
  obtain ⟨a0, q0⟩ := peel_zero h0
  obtain ⟨a1, q1⟩ := peel_one q0 b0
  obtain ⟨a8, q8⟩ := peel (lo := 8) (n := 6) q1 (x_sd.isLt)
  obtain ⟨a14, q14⟩ := peel (lo := 14) (n := 1) q8 (by decide)
  obtain ⟨a15, q15⟩ := peel (lo := 15) (n := 7) q14 (x_vs1.isLt)
  obtain ⟨a22, q22⟩ := peel (lo := 22) (n := 6) q15 (x_sk.isLt)
  obtain ⟨a28, q28⟩ := peel (lo := 28) (n := 1) q22 (by decide)
  obtain ⟨a29, q29⟩ := peel (lo := 29) (n := 1) q28 (b2n_lt x_e1)
  obtain ⟨a30, q30⟩ := peel (lo := 30) (n := 1) q29 (by decide)
  obtain ⟨a31, q31⟩ := peel (lo := 31) (n := 1) q30 (by decide)
  exact ⟨a0, Nat.lt_of_div_eq_zero (by decide) q31, a1, fun h => absurd (a31.symm.trans h) (by decide), fun h => absurd (a28.symm.trans h) (by decide), band (decide_eq_true a14) (decide_eq_true a30), by simp only [getVSv, OpVSv.mk.injEq]; exact ⟨fld_eq a8, fld_eq a15, fld_eq a22, bit_eq a29, True.intro⟩⟩

/-- The fields and the tested bits of the words of one shape (39). -/
theorem row39 {w c v0 v1 : Nat} {o : OpV1} (b0 : v0 < 128) (b1 : v1 < 8) (hc : c = 1 + v0 * 2 + v1 * 33554432) (hw : w = c + putV1 o) :
    w % 2 = 1 ∧ w < 2 ^ 32 ∧ w / 2 % 2 ^ 7 = v0 ∧ w / 2 ^ 25 % 2 ^ 3 = v1 ∧ (w / 2 ^ 31 % 2 ^ 1 = 0) ∧ (zeroAt w 15 10 && zeroAt w 28 3) = true ∧ getV1 w o.pfx = o := by
  obtain ⟨x_vd, x_p⟩ := o
  simp only [putV1] at hw
  have h0 : w = 1 + 2 * (v0 + 2 ^ 7 * (x_vd.toNat + 2 ^ 7 * (0 + 2 ^ 10 * (v1 + 2 ^ 3 * (0 + 2 ^ 3 * (0 + 2 ^ 1 * (0))))))) := by rw [hw, hc]; ring
  obtain ⟨a0, q0⟩ := peel_zero h0
  obtain ⟨a1, q1⟩ := peel_one q0 b0
  obtain ⟨a8, q8⟩ := peel (lo := 8) (n := 7) q1 (x_vd.isLt)
  obtain ⟨a15, q15⟩ := peel (lo := 15) (n := 10) q8 (by decide)
  obtain ⟨a25, q25⟩ := peel (lo := 25) (n := 3) q15 b1
  obtain ⟨a28, q28⟩ := peel (lo := 28) (n := 3) q25 (by decide)
  obtain ⟨a31, q31⟩ := peel (lo := 31) (n := 1) q28 (by decide)
  exact ⟨a0, Nat.lt_of_div_eq_zero (by decide) q31, a1, a25, a31, band (decide_eq_true a15) (decide_eq_true a28), by simp only [getV1, OpV1.mk.injEq]; exact ⟨fld_eq a8, True.intro⟩⟩

/-- The fields and the tested bits of the words of one shape (40). -/
theorem row40 {w c v0 v1 : Nat} {o : OpVTst} (b0 : v0 < 128) (b1 : v1 < 8) (hc : c = 1 + v0 * 2 + v1 * 33554432) (hw : w = c + putVTst o) :
    w % 2 = 1 ∧ w < 2 ^ 32 ∧ w / 2 % 2 ^ 7 = v0 ∧ w / 2 ^ 25 % 2 ^ 3 = v1 ∧ (w / 2 ^ 31 % 2 ^ 1 = 0) ∧ (zeroAt w 11 4 && zeroAt w 22 3 && zeroAt w 28 3) = true ∧ getVTst w o.pfx = o := by
  obtain ⟨x_md, x_vs1, x_p⟩ := o
  simp only [putVTst] at hw
  have h0 : w = 1 + 2 * (v0 + 2 ^ 7 * (x_md.toNat + 2 ^ 3 * (0 + 2 ^ 4 * (x_vs1.toNat + 2 ^ 7 * (0 + 2 ^ 3 * (v1 + 2 ^ 3 * (0 + 2 ^ 3 * (0 + 2 ^ 1 * (0))))))))) := by rw [hw, hc]; ring
  obtain ⟨a0, q0⟩ := peel_zero h0
  obtain ⟨a1, q1⟩ := peel_one q0 b0
  obtain ⟨a8, q8⟩ := peel (lo := 8) (n := 3) q1 (x_md.isLt)
  obtain ⟨a11, q11⟩ := peel (lo := 11) (n := 4) q8 (by decide)
  obtain ⟨a15, q15⟩ := peel (lo := 15) (n := 7) q11 (x_vs1.isLt)
  obtain ⟨a22, q22⟩ := peel (lo := 22) (n := 3) q15 (by decide)
  obtain ⟨a25, q25⟩ := peel (lo := 25) (n := 3) q22 b1
  obtain ⟨a28, q28⟩ := peel (lo := 28) (n := 3) q25 (by decide)
  obtain ⟨a31, q31⟩ := peel (lo := 31) (n := 1) q28 (by decide)
  exact ⟨a0, Nat.lt_of_div_eq_zero (by decide) q31, a1, a25, a31, band (band (decide_eq_true a11) (decide_eq_true a22)) (decide_eq_true a28), by simp only [getVTst, OpVTst.mk.injEq]; exact ⟨fld_eq a8, fld_eq a15, True.intro⟩⟩

/-- The fields and the tested bits of the words of one shape (41). -/
theorem row41 {w c v0 v1 : Nat} {o : OpS3} (b0 : v0 < 128) (b1 : v1 < 32) (hc : c = 1 + v0 * 2 + v1 * 67108864) (hw : w = c + putS3 o) :
    w % 2 = 1 ∧ w < 2 ^ 32 ∧ w / 2 % 2 ^ 7 = v0 ∧ w / 2 ^ 26 % 2 ^ 5 = v1 ∧ getS3 w = o := by
  obtain ⟨x_sd, x_ss1, x_ss2, x_w⟩ := o
  simp only [putS3] at hw
  have h0 : w = 1 + 2 * (v0 + 2 ^ 7 * (x_sd.toNat + 2 ^ 6 * (x_ss1.toNat + 2 ^ 6 * (x_ss2.toNat + 2 ^ 6 * (v1 + 2 ^ 5 * (b2n x_w + 2 ^ 1 * (0))))))) := by rw [hw, hc]; ring
  obtain ⟨a0, q0⟩ := peel_zero h0
  obtain ⟨a1, q1⟩ := peel_one q0 b0
  obtain ⟨a8, q8⟩ := peel (lo := 8) (n := 6) q1 (x_sd.isLt)
  obtain ⟨a14, q14⟩ := peel (lo := 14) (n := 6) q8 (x_ss1.isLt)
  obtain ⟨a20, q20⟩ := peel (lo := 20) (n := 6) q14 (x_ss2.isLt)
  obtain ⟨a26, q26⟩ := peel (lo := 26) (n := 5) q20 b1
  obtain ⟨a31, q31⟩ := peel (lo := 31) (n := 1) q26 (b2n_lt x_w)
  exact ⟨a0, Nat.lt_of_div_eq_zero (by decide) q31, a1, a26, by simp only [getS3, OpS3.mk.injEq]; exact ⟨fld_eq a8, fld_eq a14, fld_eq a20, bit_eq a31⟩⟩

/-- The fields and the tested bits of the words of one shape (42). -/
theorem row42 {w c v0 v1 : Nat} {o : OpS2} (b0 : v0 < 128) (b1 : v1 < 32) (hc : c = 1 + v0 * 2 + v1 * 67108864) (hw : w = c + putS2 o) :
    w % 2 = 1 ∧ w < 2 ^ 32 ∧ w / 2 % 2 ^ 7 = v0 ∧ w / 2 ^ 26 % 2 ^ 5 = v1 ∧ (zeroAt w 20 6) = true ∧ getS2 w = o := by
  obtain ⟨x_sd, x_ss1, x_w⟩ := o
  simp only [putS2] at hw
  have h0 : w = 1 + 2 * (v0 + 2 ^ 7 * (x_sd.toNat + 2 ^ 6 * (x_ss1.toNat + 2 ^ 6 * (0 + 2 ^ 6 * (v1 + 2 ^ 5 * (b2n x_w + 2 ^ 1 * (0))))))) := by rw [hw, hc]; ring
  obtain ⟨a0, q0⟩ := peel_zero h0
  obtain ⟨a1, q1⟩ := peel_one q0 b0
  obtain ⟨a8, q8⟩ := peel (lo := 8) (n := 6) q1 (x_sd.isLt)
  obtain ⟨a14, q14⟩ := peel (lo := 14) (n := 6) q8 (x_ss1.isLt)
  obtain ⟨a20, q20⟩ := peel (lo := 20) (n := 6) q14 (by decide)
  obtain ⟨a26, q26⟩ := peel (lo := 26) (n := 5) q20 b1
  obtain ⟨a31, q31⟩ := peel (lo := 31) (n := 1) q26 (b2n_lt x_w)
  exact ⟨a0, Nat.lt_of_div_eq_zero (by decide) q31, a1, a26, decide_eq_true a20, by simp only [getS2, OpS2.mk.injEq]; exact ⟨fld_eq a8, fld_eq a14, bit_eq a31⟩⟩

/-- The fields and the tested bits of the words of one shape (43). -/
theorem row43 {w c v0 : Nat} {o : OpSI} (b0 : v0 < 128) (hc : c = 1 + v0 * 2) (hw : w = c + putSI o) :
    w % 2 = 1 ∧ w < 2 ^ 32 ∧ w / 2 % 2 ^ 7 = v0 ∧ getSI w o.lim = o := by
  obtain ⟨x_sd, x_ss1, x_imm12, x_l⟩ := o
  simp only [putSI] at hw
  have h0 : w = 1 + 2 * (v0 + 2 ^ 7 * (x_sd.toNat + 2 ^ 6 * (x_ss1.toNat + 2 ^ 6 * (x_imm12.toNat + 2 ^ 12 * (0))))) := by rw [hw, hc]; ring
  obtain ⟨a0, q0⟩ := peel_zero h0
  obtain ⟨a1, q1⟩ := peel_one q0 b0
  obtain ⟨a8, q8⟩ := peel (lo := 8) (n := 6) q1 (x_sd.isLt)
  obtain ⟨a14, q14⟩ := peel (lo := 14) (n := 6) q8 (x_ss1.isLt)
  obtain ⟨a20, q20⟩ := peel (lo := 20) (n := 12) q14 (x_imm12.isLt)
  exact ⟨a0, Nat.lt_of_div_eq_zero (by decide) q20, a1, by simp only [getSI, OpSI.mk.injEq]; exact ⟨fld_eq a8, fld_eq a14, fld_eq a20, True.intro⟩⟩

/-- The fields and the tested bits of the words of one shape (44). -/
theorem row44 {w c v0 : Nat} {o : OpSI} (b0 : v0 < 128) (hx : bitAt o.imm12.toNat 6 = true) (hc : c = 1 + v0 * 2) (hw : w = c + putSI o) :
    w % 2 = 1 ∧ w < 2 ^ 32 ∧ w / 2 % 2 ^ 7 = v0 ∧ (w / 2 ^ 26 % 2 = 1) ∧ getSI w o.lim = o := by
  obtain ⟨x_sd, x_ss1, x_imm12, x_l⟩ := o
  have i_sd := x_sd.isLt
  have i_ss1 := x_ss1.isLt
  have i_imm12 := x_imm12.isLt
  simp only [putSI] at hw
  simp only [bitAt, decide_eq_true_eq] at hx
  refine ⟨by omega, by omega, by omega, by omega, ?_⟩
  · simp only [getSI, OpSI.mk.injEq]; exact ⟨fld_eq (by omega), fld_eq (by omega), fld_eq (by omega), True.intro⟩

/-- The fields and the tested bits of the words of one shape (45). -/
theorem row45 {w c v0 : Nat} {o : OpSI} (b0 : v0 < 128) (hx : bitAt o.imm12.toNat 6 = false) (hc : c = 1 + v0 * 2) (hw : w = c + putSI o) :
    w % 2 = 1 ∧ w < 2 ^ 32 ∧ w / 2 % 2 ^ 7 = v0 ∧ ¬ (w / 2 ^ 26 % 2 = 1) ∧ getSI w o.lim = o := by
  obtain ⟨x_sd, x_ss1, x_imm12, x_l⟩ := o
  have i_sd := x_sd.isLt
  have i_ss1 := x_ss1.isLt
  have i_imm12 := x_imm12.isLt
  simp only [putSI] at hw
  simp only [bitAt, decide_eq_false_iff_not] at hx
  refine ⟨by omega, by omega, by omega, by omega, ?_⟩
  · simp only [getSI, OpSI.mk.injEq]; exact ⟨fld_eq (by omega), fld_eq (by omega), fld_eq (by omega), True.intro⟩

/-- The fields and the tested bits of the words of one shape (46). -/
theorem row46 {w c v0 : Nat} {o : OpSIm} (b0 : v0 < 128) (hc : c = 1 + v0 * 2) (hw : w = c + putSIm o) :
    w % 2 = 1 ∧ w < 2 ^ 32 ∧ w / 2 % 2 ^ 7 = v0 ∧ (zeroAt w 14 6) = true ∧ getSIm w o.lim = o := by
  obtain ⟨x_sd, x_imm12, x_l⟩ := o
  simp only [putSIm] at hw
  have h0 : w = 1 + 2 * (v0 + 2 ^ 7 * (x_sd.toNat + 2 ^ 6 * (0 + 2 ^ 6 * (x_imm12.toNat + 2 ^ 12 * (0))))) := by rw [hw, hc]; ring
  obtain ⟨a0, q0⟩ := peel_zero h0
  obtain ⟨a1, q1⟩ := peel_one q0 b0
  obtain ⟨a8, q8⟩ := peel (lo := 8) (n := 6) q1 (x_sd.isLt)
  obtain ⟨a14, q14⟩ := peel (lo := 14) (n := 6) q8 (by decide)
  obtain ⟨a20, q20⟩ := peel (lo := 20) (n := 12) q14 (x_imm12.isLt)
  exact ⟨a0, Nat.lt_of_div_eq_zero (by decide) q20, a1, decide_eq_true a14, by simp only [getSIm, OpSIm.mk.injEq]; exact ⟨fld_eq a8, fld_eq a20, True.intro⟩⟩

/-- The fields and the tested bits of the words of one shape (47). -/
theorem row47 {w c v0 : Nat} {o : OpCsrMx} (b0 : v0 < 128) (hc : c = 1 + v0 * 2) (hw : w = c + putCsrMx o) :
    w % 2 = 1 ∧ w < 2 ^ 32 ∧ w / 2 % 2 ^ 7 = v0 ∧ (w / 2 ^ 20 = 0xC3 ∨ w / 2 ^ 20 = 0xC4) ∧ (zeroAt w 14 6) = true ∧ getCsrMx w = o := by
  obtain ⟨x_sd, x_lost⟩ := o
  have i_sd := x_sd.isLt
  have i_lost := b2n_le x_lost
  cases x_lost <;> simp only [putCsrMx, if_true, if_false, Bool.false_eq_true] at hw
  all_goals
    refine ⟨by omega, by omega, by omega, by omega, ?_, ?_⟩
    · simp only [zeroAt, decide_eq_true_eq]; omega
    · simp only [getCsrMx, OpCsrMx.mk.injEq]; exact ⟨fld_eq (by omega), by simp only [bitAt]; first | (rw [decide_eq_true (by omega)]; rfl) | (rw [decide_eq_false (by omega)]; rfl)⟩

/-- The fields and the tested bits of the words of one shape (48). -/
theorem row48 {w c v0 : Nat} {o : OpCsrr} (b0 : v0 < 128) (hx : o.csr.toNat ≠ 0xC3 ∧ o.csr.toNat ≠ 0xC4) (hc : c = 1 + v0 * 2) (hw : w = c + putCsrr o) :
    w % 2 = 1 ∧ w < 2 ^ 32 ∧ w / 2 % 2 ^ 7 = v0 ∧ ¬ (w / 2 ^ 20 = 0xC3 ∨ w / 2 ^ 20 = 0xC4) ∧ (zeroAt w 14 6) = true ∧ getCsrr w = o := by
  obtain ⟨x_sd, x_csr⟩ := o
  have i_sd := x_sd.isLt
  have i_csr := x_csr.isLt
  simp only [putCsrr] at hw
  dsimp only at hx
  refine ⟨by omega, by omega, by omega, by omega, ?_, ?_⟩
  · simp only [zeroAt, decide_eq_true_eq]; omega
  · simp only [getCsrr, OpCsrr.mk.injEq]; exact ⟨fld_eq (by omega), fld_eq (by omega)⟩

/-- The fields and the tested bits of the words of one shape (49). -/
theorem row49 {w c v0 : Nat} {o : OpCsrW0} (b0 : v0 < 128) (hc : c = 1 + v0 * 2 + 204472320) (hw : w = c + putCsrW0 o) :
    w % 2 = 1 ∧ w < 2 ^ 32 ∧ w / 2 % 2 ^ 7 = v0 ∧ (w / 2 ^ 20 % 2 ^ 12 = 195) ∧ (zeroAt w 8 6) = true ∧ getCsrW0 w = o := by
  obtain ⟨x_ss1⟩ := o
  simp only [putCsrW0] at hw
  have h0 : w = 1 + 2 * (v0 + 2 ^ 7 * (0 + 2 ^ 6 * (x_ss1.toNat + 2 ^ 6 * (195 + 2 ^ 12 * (0))))) := by rw [hw, hc]; ring
  obtain ⟨a0, q0⟩ := peel_zero h0
  obtain ⟨a1, q1⟩ := peel_one q0 b0
  obtain ⟨a8, q8⟩ := peel (lo := 8) (n := 6) q1 (by decide)
  obtain ⟨a14, q14⟩ := peel (lo := 14) (n := 6) q8 (x_ss1.isLt)
  obtain ⟨a20, q20⟩ := peel (lo := 20) (n := 12) q14 (by decide)
  exact ⟨a0, Nat.lt_of_div_eq_zero (by decide) q20, a1, a20, decide_eq_true a8, by simp only [getCsrW0, OpCsrW0.mk.injEq]; exact fld_eq a14⟩

/-- The fields and the tested bits of the words of one shape (50). -/
theorem row50 {w c v0 : Nat} {o : OpCsrW0} (b0 : v0 < 128) (hc : c = 1 + v0 * 2 + 209715200) (hw : w = c + putCsrW0 o) :
    w % 2 = 1 ∧ w < 2 ^ 32 ∧ w / 2 % 2 ^ 7 = v0 ∧ ¬ (w / 2 ^ 20 % 2 ^ 12 = 195) ∧ (w / 2 ^ 20 % 2 ^ 12 = 200) ∧ (zeroAt w 8 6) = true ∧ getCsrW0 w = o := by
  obtain ⟨x_ss1⟩ := o
  simp only [putCsrW0] at hw
  have h0 : w = 1 + 2 * (v0 + 2 ^ 7 * (0 + 2 ^ 6 * (x_ss1.toNat + 2 ^ 6 * (200 + 2 ^ 12 * (0))))) := by rw [hw, hc]; ring
  obtain ⟨a0, q0⟩ := peel_zero h0
  obtain ⟨a1, q1⟩ := peel_one q0 b0
  obtain ⟨a8, q8⟩ := peel (lo := 8) (n := 6) q1 (by decide)
  obtain ⟨a14, q14⟩ := peel (lo := 14) (n := 6) q8 (x_ss1.isLt)
  obtain ⟨a20, q20⟩ := peel (lo := 20) (n := 12) q14 (by decide)
  exact ⟨a0, Nat.lt_of_div_eq_zero (by decide) q20, a1, fun h => absurd (a20.symm.trans h) (by decide), a20, decide_eq_true a8, by simp only [getCsrW0, OpCsrW0.mk.injEq]; exact fld_eq a14⟩

/-- The fields and the tested bits of the words of one shape (51). -/
theorem row51 {w c v0 : Nat} {o : OpCsrW0} (b0 : v0 < 128) (hc : c = 1 + v0 * 2 + 234881024) (hw : w = c + putCsrW0 o) :
    w % 2 = 1 ∧ w < 2 ^ 32 ∧ w / 2 % 2 ^ 7 = v0 ∧ ¬ (w / 2 ^ 20 % 2 ^ 12 = 195) ∧ ¬ (w / 2 ^ 20 % 2 ^ 12 = 200) ∧ (w / 2 ^ 20 % 2 ^ 12 = 224) ∧ (zeroAt w 8 6) = true ∧ getCsrW0 w = o := by
  obtain ⟨x_ss1⟩ := o
  simp only [putCsrW0] at hw
  have h0 : w = 1 + 2 * (v0 + 2 ^ 7 * (0 + 2 ^ 6 * (x_ss1.toNat + 2 ^ 6 * (224 + 2 ^ 12 * (0))))) := by rw [hw, hc]; ring
  obtain ⟨a0, q0⟩ := peel_zero h0
  obtain ⟨a1, q1⟩ := peel_one q0 b0
  obtain ⟨a8, q8⟩ := peel (lo := 8) (n := 6) q1 (by decide)
  obtain ⟨a14, q14⟩ := peel (lo := 14) (n := 6) q8 (x_ss1.isLt)
  obtain ⟨a20, q20⟩ := peel (lo := 20) (n := 12) q14 (by decide)
  exact ⟨a0, Nat.lt_of_div_eq_zero (by decide) q20, a1, fun h => absurd (a20.symm.trans h) (by decide), fun h => absurd (a20.symm.trans h) (by decide), a20, decide_eq_true a8, by simp only [getCsrW0, OpCsrW0.mk.injEq]; exact fld_eq a14⟩

/-- The fields and the tested bits of the words of one shape (52). -/
theorem row52 {w c v0 : Nat} {o : OpCsrw} (b0 : v0 < 128) (hx : o.csr.toNat ≠ 0xC3 ∧ o.csr.toNat ≠ 0xC8 ∧ o.csr.toNat ≠ 0xE0) (hc : c = 1 + v0 * 2) (hw : w = c + putCsrw o) :
    w % 2 = 1 ∧ w < 2 ^ 32 ∧ w / 2 % 2 ^ 7 = v0 ∧ ¬ (w / 2 ^ 20 % 2 ^ 12 = 195) ∧ ¬ (w / 2 ^ 20 % 2 ^ 12 = 200) ∧ ¬ (w / 2 ^ 20 % 2 ^ 12 = 224) ∧ (zeroAt w 8 6) = true ∧ getCsrw w = o := by
  obtain ⟨x_ss1, x_csr⟩ := o
  simp only [putCsrw] at hw
  dsimp only at hx
  have h0 : w = 1 + 2 * (v0 + 2 ^ 7 * (0 + 2 ^ 6 * (x_ss1.toNat + 2 ^ 6 * (x_csr.toNat + 2 ^ 12 * (0))))) := by rw [hw, hc]; ring
  obtain ⟨a0, q0⟩ := peel_zero h0
  obtain ⟨a1, q1⟩ := peel_one q0 b0
  obtain ⟨a8, q8⟩ := peel (lo := 8) (n := 6) q1 (by decide)
  obtain ⟨a14, q14⟩ := peel (lo := 14) (n := 6) q8 (x_ss1.isLt)
  obtain ⟨a20, q20⟩ := peel (lo := 20) (n := 12) q14 (x_csr.isLt)
  exact ⟨a0, Nat.lt_of_div_eq_zero (by decide) q20, a1, fun h => hx.1 (a20.symm.trans h), fun h => hx.2.1 (a20.symm.trans h), fun h => hx.2.2 (a20.symm.trans h), decide_eq_true a8, by simp only [getCsrw, OpCsrw.mk.injEq]; exact ⟨fld_eq a14, fld_eq a20⟩⟩

/-- The fields and the tested bits of the words of one shape (53). -/
theorem row53 {w c v0 v1 : Nat} {o : OpX3} (b0 : v0 < 128) (b1 : v1 < 64) (hc : c = 1 + v0 * 2 + v1 * 67108864) (hw : w = c + putX3 o) :
    w % 2 = 1 ∧ w < 2 ^ 32 ∧ w / 2 % 2 ^ 7 = v0 ∧ w / 2 ^ 26 % 2 ^ 6 = v1 ∧ getX3 w = o := by
  obtain ⟨x_a, x_b, x_c⟩ := o
  simp only [putX3] at hw
  have h0 : w = 1 + 2 * (v0 + 2 ^ 7 * (x_a.toNat + 2 ^ 6 * (x_b.toNat + 2 ^ 6 * (x_c.toNat + 2 ^ 6 * (v1 + 2 ^ 6 * (0)))))) := by rw [hw, hc]; ring
  obtain ⟨a0, q0⟩ := peel_zero h0
  obtain ⟨a1, q1⟩ := peel_one q0 b0
  obtain ⟨a8, q8⟩ := peel (lo := 8) (n := 6) q1 (x_a.isLt)
  obtain ⟨a14, q14⟩ := peel (lo := 14) (n := 6) q8 (x_b.isLt)
  obtain ⟨a20, q20⟩ := peel (lo := 20) (n := 6) q14 (x_c.isLt)
  obtain ⟨a26, q26⟩ := peel (lo := 26) (n := 6) q20 b1
  exact ⟨a0, Nat.lt_of_div_eq_zero (by decide) q26, a1, a26, by simp only [getX3, OpX3.mk.injEq]; exact ⟨fld_eq a8, fld_eq a14, fld_eq a20⟩⟩

/-- The fields and the tested bits of the words of one shape (54). -/
theorem row54 {w c v0 : Nat} {o : OpM} (b0 : v0 < 128) (hc : c = 1 + v0 * 2) (hw : w = c + putM o) :
    w % 2 = 1 ∧ w < 2 ^ 32 ∧ w / 2 % 2 ^ 7 = v0 ∧ (zeroAt w 28 3) = true ∧ getM w o.pfx o.lim = o := by
  obtain ⟨x_vt, x_sb, x_vi, x_ix, x_p, x_l⟩ := o
  simp only [putM] at hw
  have h0 : w = 1 + 2 * (v0 + 2 ^ 7 * (x_vt.toNat + 2 ^ 7 * (x_sb.toNat + 2 ^ 6 * (x_vi.toNat + 2 ^ 7 * (0 + 2 ^ 3 * (b2n x_ix + 2 ^ 1 * (0))))))) := by rw [hw, hc]; ring
  obtain ⟨a0, q0⟩ := peel_zero h0
  obtain ⟨a1, q1⟩ := peel_one q0 b0
  obtain ⟨a8, q8⟩ := peel (lo := 8) (n := 7) q1 (x_vt.isLt)
  obtain ⟨a15, q15⟩ := peel (lo := 15) (n := 6) q8 (x_sb.isLt)
  obtain ⟨a21, q21⟩ := peel (lo := 21) (n := 7) q15 (x_vi.isLt)
  obtain ⟨a28, q28⟩ := peel (lo := 28) (n := 3) q21 (by decide)
  obtain ⟨a31, q31⟩ := peel (lo := 31) (n := 1) q28 (b2n_lt x_ix)
  exact ⟨a0, Nat.lt_of_div_eq_zero (by decide) q31, a1, decide_eq_true a28, by simp only [getM, OpM.mk.injEq]; exact ⟨fld_eq a8, fld_eq a15, fld_eq a21, bit_eq a31, True.intro, True.intro⟩⟩

/-- The fields and the tested bits of the words of one shape (55). -/
theorem row55 {w c v0 : Nat} {o : OpMSc} (b0 : v0 < 128) (hc : c = 1 + v0 * 2) (hw : w = c + putMSc o) :
    w % 2 = 1 ∧ w < 2 ^ 32 ∧ w / 2 % 2 ^ 7 = v0 ∧ (zeroAt w 30 1) = true ∧ getMSc w o.pfx o.lim = o := by
  obtain ⟨x_vt, x_sb, x_vi, x_sc, x_ix, x_p, x_l⟩ := o
  simp only [putMSc] at hw
  have h0 : w = 1 + 2 * (v0 + 2 ^ 7 * (x_vt.toNat + 2 ^ 7 * (x_sb.toNat + 2 ^ 6 * (x_vi.toNat + 2 ^ 7 * (x_sc.toNat + 2 ^ 2 * (0 + 2 ^ 1 * (b2n x_ix + 2 ^ 1 * (0)))))))) := by rw [hw, hc]; ring
  obtain ⟨a0, q0⟩ := peel_zero h0
  obtain ⟨a1, q1⟩ := peel_one q0 b0
  obtain ⟨a8, q8⟩ := peel (lo := 8) (n := 7) q1 (x_vt.isLt)
  obtain ⟨a15, q15⟩ := peel (lo := 15) (n := 6) q8 (x_sb.isLt)
  obtain ⟨a21, q21⟩ := peel (lo := 21) (n := 7) q15 (x_vi.isLt)
  obtain ⟨a28, q28⟩ := peel (lo := 28) (n := 2) q21 (x_sc.isLt)
  obtain ⟨a30, q30⟩ := peel (lo := 30) (n := 1) q28 (by decide)
  obtain ⟨a31, q31⟩ := peel (lo := 31) (n := 1) q30 (b2n_lt x_ix)
  exact ⟨a0, Nat.lt_of_div_eq_zero (by decide) q31, a1, decide_eq_true a30, by simp only [getMSc, OpMSc.mk.injEq]; exact ⟨fld_eq a8, fld_eq a15, fld_eq a21, fld_eq a28, bit_eq a31, True.intro, True.intro⟩⟩

/-- The fields and the tested bits of the words of one shape (56). -/
theorem row56 {w c v0 : Nat} {o : OpMAt} (b0 : v0 < 128) (hc : c = 1 + v0 * 2) (hw : w = c + putMAt o) :
    w % 2 = 1 ∧ w < 2 ^ 32 ∧ w / 2 % 2 ^ 7 = v0 ∧ getMAt w o.pfx o.lim = o := by
  obtain ⟨x_vt, x_sb, x_vi, x_aop, x_p, x_l⟩ := o
  simp only [putMAt] at hw
  have h0 : w = 1 + 2 * (v0 + 2 ^ 7 * (x_vt.toNat + 2 ^ 7 * (x_sb.toNat + 2 ^ 6 * (x_vi.toNat + 2 ^ 7 * (x_aop.toNat + 2 ^ 4 * (0)))))) := by rw [hw, hc]; ring
  obtain ⟨a0, q0⟩ := peel_zero h0
  obtain ⟨a1, q1⟩ := peel_one q0 b0
  obtain ⟨a8, q8⟩ := peel (lo := 8) (n := 7) q1 (x_vt.isLt)
  obtain ⟨a15, q15⟩ := peel (lo := 15) (n := 6) q8 (x_sb.isLt)
  obtain ⟨a21, q21⟩ := peel (lo := 21) (n := 7) q15 (x_vi.isLt)
  obtain ⟨a28, q28⟩ := peel (lo := 28) (n := 4) q21 (x_aop.isLt)
  exact ⟨a0, Nat.lt_of_div_eq_zero (by decide) q28, a1, by simp only [getMAt, OpMAt.mk.injEq]; exact ⟨fld_eq a8, fld_eq a15, fld_eq a21, fld_eq a28, True.intro, True.intro⟩⟩

/-- The fields and the tested bits of the words of one shape (57). -/
theorem row57 {w c v0 : Nat} {o : OpMPf} (b0 : v0 < 128) (hc : c = 1 + v0 * 2) (hw : w = c + putMPf o) :
    w % 2 = 1 ∧ w < 2 ^ 32 ∧ w / 2 % 2 ^ 7 = v0 ∧ (zeroAt w 8 7 && zeroAt w 30 1) = true ∧ getMPf w o.pfx o.lim = o := by
  obtain ⟨x_sb, x_vi, x_lvl, x_ix, x_p, x_l⟩ := o
  simp only [putMPf] at hw
  have h0 : w = 1 + 2 * (v0 + 2 ^ 7 * (0 + 2 ^ 7 * (x_sb.toNat + 2 ^ 6 * (x_vi.toNat + 2 ^ 7 * (x_lvl.toNat + 2 ^ 2 * (0 + 2 ^ 1 * (b2n x_ix + 2 ^ 1 * (0)))))))) := by rw [hw, hc]; ring
  obtain ⟨a0, q0⟩ := peel_zero h0
  obtain ⟨a1, q1⟩ := peel_one q0 b0
  obtain ⟨a8, q8⟩ := peel (lo := 8) (n := 7) q1 (by decide)
  obtain ⟨a15, q15⟩ := peel (lo := 15) (n := 6) q8 (x_sb.isLt)
  obtain ⟨a21, q21⟩ := peel (lo := 21) (n := 7) q15 (x_vi.isLt)
  obtain ⟨a28, q28⟩ := peel (lo := 28) (n := 2) q21 (x_lvl.isLt)
  obtain ⟨a30, q30⟩ := peel (lo := 30) (n := 1) q28 (by decide)
  obtain ⟨a31, q31⟩ := peel (lo := 31) (n := 1) q30 (b2n_lt x_ix)
  exact ⟨a0, Nat.lt_of_div_eq_zero (by decide) q31, a1, band (decide_eq_true a8) (decide_eq_true a30), by simp only [getMPf, OpMPf.mk.injEq]; exact ⟨fld_eq a15, fld_eq a21, fld_eq a28, bit_eq a31, True.intro, True.intro⟩⟩

/-- The fields and the tested bits of the words of one shape (58). -/
theorem row58 {w c v0 : Nat} {o : OpMSwz} (b0 : v0 < 128) (hc : c = 1 + v0 * 2) (hw : w = c + putMSwz o) :
    w % 2 = 1 ∧ w < 2 ^ 32 ∧ w / 2 % 2 ^ 7 = v0 ∧ getMSwz w o.pfx o.lim = o := by
  obtain ⟨x_vt, x_sb, x_vi, x_swz, x_ix, x_p, x_l⟩ := o
  simp only [putMSwz] at hw
  have h0 : w = 1 + 2 * (v0 + 2 ^ 7 * (x_vt.toNat + 2 ^ 7 * (x_sb.toNat + 2 ^ 6 * (x_vi.toNat + 2 ^ 7 * (x_swz.toNat + 2 ^ 3 * (b2n x_ix + 2 ^ 1 * (0))))))) := by rw [hw, hc]; ring
  obtain ⟨a0, q0⟩ := peel_zero h0
  obtain ⟨a1, q1⟩ := peel_one q0 b0
  obtain ⟨a8, q8⟩ := peel (lo := 8) (n := 7) q1 (x_vt.isLt)
  obtain ⟨a15, q15⟩ := peel (lo := 15) (n := 6) q8 (x_sb.isLt)
  obtain ⟨a21, q21⟩ := peel (lo := 21) (n := 7) q15 (x_vi.isLt)
  obtain ⟨a28, q28⟩ := peel (lo := 28) (n := 3) q21 (x_swz.isLt)
  obtain ⟨a31, q31⟩ := peel (lo := 31) (n := 1) q28 (b2n_lt x_ix)
  exact ⟨a0, Nat.lt_of_div_eq_zero (by decide) q31, a1, by simp only [getMSwz, OpMSwz.mk.injEq]; exact ⟨fld_eq a8, fld_eq a15, fld_eq a21, fld_eq a28, bit_eq a31, True.intro, True.intro⟩⟩

/-- The fields and the tested bits of the words of one shape (59). -/
theorem row59 {w c v0 : Nat} {o : OpMImg} (b0 : v0 < 128) (hc : c = 1 + v0 * 2) (hw : w = c + putMImg o) :
    w % 2 = 1 ∧ w < 2 ^ 32 ∧ w / 2 % 2 ^ 7 = v0 ∧ (zeroAt w 21 11) = true ∧ getMImg w o.lim = o := by
  obtain ⟨x_vt, x_sb, x_l⟩ := o
  simp only [putMImg] at hw
  have h0 : w = 1 + 2 * (v0 + 2 ^ 7 * (x_vt.toNat + 2 ^ 7 * (x_sb.toNat + 2 ^ 6 * (0 + 2 ^ 11 * (0))))) := by rw [hw, hc]; ring
  obtain ⟨a0, q0⟩ := peel_zero h0
  obtain ⟨a1, q1⟩ := peel_one q0 b0
  obtain ⟨a8, q8⟩ := peel (lo := 8) (n := 7) q1 (x_vt.isLt)
  obtain ⟨a15, q15⟩ := peel (lo := 15) (n := 6) q8 (x_sb.isLt)
  obtain ⟨a21, q21⟩ := peel (lo := 21) (n := 11) q15 (by decide)
  exact ⟨a0, Nat.lt_of_div_eq_zero (by decide) q21, a1, decide_eq_true a21, by simp only [getMImg, OpMImg.mk.injEq]; exact ⟨fld_eq a8, fld_eq a15, True.intro⟩⟩

/-- The fields and the tested bits of the words of one shape (60). -/
theorem row60 {w c v0 : Nat} {o : OpMSc1} (b0 : v0 < 128) (hc : c = 1 + v0 * 2) (hw : w = c + putMSc1 o) :
    w % 2 = 1 ∧ w < 2 ^ 32 ∧ w / 2 % 2 ^ 7 = v0 ∧ (zeroAt w 14 1 && zeroAt w 21 11) = true ∧ getMSc1 w o.lim = o := by
  obtain ⟨x_sd, x_sb, x_l⟩ := o
  simp only [putMSc1] at hw
  have h0 : w = 1 + 2 * (v0 + 2 ^ 7 * (x_sd.toNat + 2 ^ 6 * (0 + 2 ^ 1 * (x_sb.toNat + 2 ^ 6 * (0 + 2 ^ 11 * (0)))))) := by rw [hw, hc]; ring
  obtain ⟨a0, q0⟩ := peel_zero h0
  obtain ⟨a1, q1⟩ := peel_one q0 b0
  obtain ⟨a8, q8⟩ := peel (lo := 8) (n := 6) q1 (x_sd.isLt)
  obtain ⟨a14, q14⟩ := peel (lo := 14) (n := 1) q8 (by decide)
  obtain ⟨a15, q15⟩ := peel (lo := 15) (n := 6) q14 (x_sb.isLt)
  obtain ⟨a21, q21⟩ := peel (lo := 21) (n := 11) q15 (by decide)
  exact ⟨a0, Nat.lt_of_div_eq_zero (by decide) q21, a1, band (decide_eq_true a14) (decide_eq_true a21), by simp only [getMSc1, OpMSc1.mk.injEq]; exact ⟨fld_eq a8, fld_eq a15, True.intro⟩⟩

/-- The fields and the tested bits of the words of one shape (61). -/
theorem row61 {w c v0 : Nat} {o : OpBM} (b0 : v0 < 128) (hc : c = 1 + v0 * 2) (hw : w = c + putBM o) :
    w % 2 = 1 ∧ w < 2 ^ 32 ∧ w / 2 % 2 ^ 7 = v0 ∧ (zeroAt w 11 3) = true ∧ getBM w = o := by
  obtain ⟨x_m, x_neg, x_brk, x_off⟩ := o
  simp only [putBM] at hw
  have h0 : w = 1 + 2 * (v0 + 2 ^ 7 * (x_m.toNat + 2 ^ 3 * (0 + 2 ^ 3 * (b2n x_neg + 2 ^ 1 * (b2n x_brk + 2 ^ 1 * (x_off.toNat + 2 ^ 16 * (0))))))) := by rw [hw, hc]; ring
  obtain ⟨a0, q0⟩ := peel_zero h0
  obtain ⟨a1, q1⟩ := peel_one q0 b0
  obtain ⟨a8, q8⟩ := peel (lo := 8) (n := 3) q1 (x_m.isLt)
  obtain ⟨a11, q11⟩ := peel (lo := 11) (n := 3) q8 (by decide)
  obtain ⟨a14, q14⟩ := peel (lo := 14) (n := 1) q11 (b2n_lt x_neg)
  obtain ⟨a15, q15⟩ := peel (lo := 15) (n := 1) q14 (b2n_lt x_brk)
  obtain ⟨a16, q16⟩ := peel (lo := 16) (n := 16) q15 (x_off.isLt)
  exact ⟨a0, Nat.lt_of_div_eq_zero (by decide) q16, a1, decide_eq_true a11, by simp only [getBM, OpBM.mk.injEq]; exact ⟨fld_eq a8, bit_eq a14, bit_eq a15, fld_eq a16⟩⟩

/-- The fields and the tested bits of the words of one shape (62). -/
theorem row62 {w c v0 : Nat} {o : OpBS} (b0 : v0 < 128) (hc : c = 1 + v0 * 2) (hw : w = c + putBS o) :
    w % 2 = 1 ∧ w < 2 ^ 32 ∧ w / 2 % 2 ^ 7 = v0 ∧ getBS w = o := by
  obtain ⟨x_s, x_neg, x_brk, x_off⟩ := o
  simp only [putBS] at hw
  have h0 : w = 1 + 2 * (v0 + 2 ^ 7 * (x_s.toNat + 2 ^ 6 * (b2n x_neg + 2 ^ 1 * (b2n x_brk + 2 ^ 1 * (x_off.toNat + 2 ^ 16 * (0)))))) := by rw [hw, hc]; ring
  obtain ⟨a0, q0⟩ := peel_zero h0
  obtain ⟨a1, q1⟩ := peel_one q0 b0
  obtain ⟨a8, q8⟩ := peel (lo := 8) (n := 6) q1 (x_s.isLt)
  obtain ⟨a14, q14⟩ := peel (lo := 14) (n := 1) q8 (b2n_lt x_neg)
  obtain ⟨a15, q15⟩ := peel (lo := 15) (n := 1) q14 (b2n_lt x_brk)
  obtain ⟨a16, q16⟩ := peel (lo := 16) (n := 16) q15 (x_off.isLt)
  exact ⟨a0, Nat.lt_of_div_eq_zero (by decide) q16, a1, by simp only [getBS, OpBS.mk.injEq]; exact ⟨fld_eq a8, bit_eq a14, bit_eq a15, fld_eq a16⟩⟩

/-- The fields and the tested bits of the words of one shape (63). -/
theorem row63 {w c v0 : Nat} {o : OpBC} (b0 : v0 < 128) (hc : c = 1 + v0 * 2) (hw : w = c + putBC o) :
    w % 2 = 1 ∧ w < 2 ^ 32 ∧ w / 2 % 2 ^ 7 = v0 ∧ (zeroAt w 14 2) = true ∧ getBC w = o := by
  obtain ⟨x_s, x_off⟩ := o
  simp only [putBC] at hw
  have h0 : w = 1 + 2 * (v0 + 2 ^ 7 * (x_s.toNat + 2 ^ 6 * (0 + 2 ^ 2 * (x_off.toNat + 2 ^ 16 * (0))))) := by rw [hw, hc]; ring
  obtain ⟨a0, q0⟩ := peel_zero h0
  obtain ⟨a1, q1⟩ := peel_one q0 b0
  obtain ⟨a8, q8⟩ := peel (lo := 8) (n := 6) q1 (x_s.isLt)
  obtain ⟨a14, q14⟩ := peel (lo := 14) (n := 2) q8 (by decide)
  obtain ⟨a16, q16⟩ := peel (lo := 16) (n := 16) q14 (x_off.isLt)
  exact ⟨a0, Nat.lt_of_div_eq_zero (by decide) q16, a1, decide_eq_true a14, by simp only [getBC, OpBC.mk.injEq]; exact ⟨fld_eq a8, fld_eq a16⟩⟩

/-- The fields and the tested bits of the words of one shape (64). -/
theorem row64 {w c v0 v1 : Nat} (b0 : v0 < 128) (b1 : v1 < 64) (hc : c = 1 + v0 * 2 + v1 * 67108864) (hw : w = c) :
    w % 2 = 1 ∧ w < 2 ^ 32 ∧ w / 2 % 2 ^ 7 = v0 ∧ w / 2 ^ 26 % 2 ^ 6 = v1 ∧ (zeroAt w 8 18) = true := by
  have h0 : w = 1 + 2 * (v0 + 2 ^ 7 * (0 + 2 ^ 18 * (v1 + 2 ^ 6 * (0)))) := by rw [hw, hc]; ring
  obtain ⟨a0, q0⟩ := peel_zero h0
  obtain ⟨a1, q1⟩ := peel_one q0 b0
  obtain ⟨a8, q8⟩ := peel (lo := 8) (n := 18) q1 (by decide)
  obtain ⟨a26, q26⟩ := peel (lo := 26) (n := 6) q8 b1
  exact ⟨a0, Nat.lt_of_div_eq_zero (by decide) q26, a1, a26, decide_eq_true a8⟩

/-- The fields and the tested bits of the words of one shape (65). -/
theorem row65 {w c v0 v1 : Nat} {o : OpX1} (b0 : v0 < 128) (b1 : v1 < 64) (hc : c = 1 + v0 * 2 + v1 * 67108864) (hw : w = c + putX1 o) :
    w % 2 = 1 ∧ w < 2 ^ 32 ∧ w / 2 % 2 ^ 7 = v0 ∧ w / 2 ^ 26 % 2 ^ 6 = v1 ∧ (zeroAt w 14 12) = true ∧ getX1 w = o := by
  obtain ⟨x_a⟩ := o
  simp only [putX1] at hw
  have h0 : w = 1 + 2 * (v0 + 2 ^ 7 * (x_a.toNat + 2 ^ 6 * (0 + 2 ^ 12 * (v1 + 2 ^ 6 * (0))))) := by rw [hw, hc]; ring
  obtain ⟨a0, q0⟩ := peel_zero h0
  obtain ⟨a1, q1⟩ := peel_one q0 b0
  obtain ⟨a8, q8⟩ := peel (lo := 8) (n := 6) q1 (x_a.isLt)
  obtain ⟨a14, q14⟩ := peel (lo := 14) (n := 12) q8 (by decide)
  obtain ⟨a26, q26⟩ := peel (lo := 26) (n := 6) q14 b1
  exact ⟨a0, Nat.lt_of_div_eq_zero (by decide) q26, a1, a26, decide_eq_true a14, by simp only [getX1, OpX1.mk.injEq]; exact fld_eq a8⟩

/-- The fields and the tested bits of the words of one shape (66). -/
theorem row66 {w c v0 v1 : Nat} (b0 : v0 < 128) (b1 : v1 < 64) (hc : c = 1 + v0 * 2 + v1 * 67108864) (hw : w = c) :
    w % 2 = 1 ∧ w < 2 ^ 32 ∧ w / 2 % 2 ^ 7 = v0 ∧ w / 2 ^ 26 % 2 ^ 6 = v1 ∧ (w / 2 ^ 8 % 2 ^ 6 = 0) ∧ (zeroAt w 14 12) = true := by
  have h0 : w = 1 + 2 * (v0 + 2 ^ 7 * (0 + 2 ^ 6 * (0 + 2 ^ 12 * (v1 + 2 ^ 6 * (0))))) := by rw [hw, hc]; ring
  obtain ⟨a0, q0⟩ := peel_zero h0
  obtain ⟨a1, q1⟩ := peel_one q0 b0
  obtain ⟨a8, q8⟩ := peel (lo := 8) (n := 6) q1 (by decide)
  obtain ⟨a14, q14⟩ := peel (lo := 14) (n := 12) q8 (by decide)
  obtain ⟨a26, q26⟩ := peel (lo := 26) (n := 6) q14 b1
  exact ⟨a0, Nat.lt_of_div_eq_zero (by decide) q26, a1, a26, a8, decide_eq_true a14⟩

/-- The fields and the tested bits of the words of one shape (67). -/
theorem row67 {w c v0 v1 : Nat} (b0 : v0 < 128) (b1 : v1 < 64) (hc : c = 1 + v0 * 2 + v1 * 67108864 + 256) (hw : w = c) :
    w % 2 = 1 ∧ w < 2 ^ 32 ∧ w / 2 % 2 ^ 7 = v0 ∧ w / 2 ^ 26 % 2 ^ 6 = v1 ∧ ¬ (w / 2 ^ 8 % 2 ^ 6 = 0) ∧ (w / 2 ^ 8 % 2 ^ 6 = 1) ∧ (zeroAt w 14 12) = true := by
  have h0 : w = 1 + 2 * (v0 + 2 ^ 7 * (1 + 2 ^ 6 * (0 + 2 ^ 12 * (v1 + 2 ^ 6 * (0))))) := by rw [hw, hc]; ring
  obtain ⟨a0, q0⟩ := peel_zero h0
  obtain ⟨a1, q1⟩ := peel_one q0 b0
  obtain ⟨a8, q8⟩ := peel (lo := 8) (n := 6) q1 (by decide)
  obtain ⟨a14, q14⟩ := peel (lo := 14) (n := 12) q8 (by decide)
  obtain ⟨a26, q26⟩ := peel (lo := 26) (n := 6) q14 b1
  exact ⟨a0, Nat.lt_of_div_eq_zero (by decide) q26, a1, a26, fun h => absurd (a8.symm.trans h) (by decide), a8, decide_eq_true a14⟩

/-- The fields and the tested bits of the words of one shape (68). -/
theorem row68 {w c v0 v1 : Nat} {o : OpXB} (b0 : v0 < 128) (b1 : v1 < 64) (hc : c = 1 + v0 * 2 + v1 * 67108864 + 512) (hw : w = c + putXB o) :
    w % 2 = 1 ∧ w < 2 ^ 32 ∧ w / 2 % 2 ^ 7 = v0 ∧ w / 2 ^ 26 % 2 ^ 6 = v1 ∧ ¬ (w / 2 ^ 8 % 2 ^ 6 = 0) ∧ ¬ (w / 2 ^ 8 % 2 ^ 6 = 1) ∧ (w / 2 ^ 8 % 2 ^ 6 = 2) ∧ (zeroAt w 20 6) = true ∧ getXB w = o := by
  obtain ⟨x_b⟩ := o
  simp only [putXB] at hw
  have h0 : w = 1 + 2 * (v0 + 2 ^ 7 * (2 + 2 ^ 6 * (x_b.toNat + 2 ^ 6 * (0 + 2 ^ 6 * (v1 + 2 ^ 6 * (0)))))) := by rw [hw, hc]; ring
  obtain ⟨a0, q0⟩ := peel_zero h0
  obtain ⟨a1, q1⟩ := peel_one q0 b0
  obtain ⟨a8, q8⟩ := peel (lo := 8) (n := 6) q1 (by decide)
  obtain ⟨a14, q14⟩ := peel (lo := 14) (n := 6) q8 (x_b.isLt)
  obtain ⟨a20, q20⟩ := peel (lo := 20) (n := 6) q14 (by decide)
  obtain ⟨a26, q26⟩ := peel (lo := 26) (n := 6) q20 b1
  exact ⟨a0, Nat.lt_of_div_eq_zero (by decide) q26, a1, a26, fun h => absurd (a8.symm.trans h) (by decide), fun h => absurd (a8.symm.trans h) (by decide), a8, decide_eq_true a20, by simp only [getXB, OpXB.mk.injEq]; exact fld_eq a14⟩

/-- The fields and the tested bits of the words of one shape (69). -/
theorem row69 {w c v0 v1 : Nat} {o : OpX2} (b0 : v0 < 128) (b1 : v1 < 64) (hc : c = 1 + v0 * 2 + v1 * 67108864) (hw : w = c + putX2 o) :
    w % 2 = 1 ∧ w < 2 ^ 32 ∧ w / 2 % 2 ^ 7 = v0 ∧ w / 2 ^ 26 % 2 ^ 6 = v1 ∧ (zeroAt w 20 6) = true ∧ getX2 w = o := by
  obtain ⟨x_a, x_b⟩ := o
  simp only [putX2] at hw
  have h0 : w = 1 + 2 * (v0 + 2 ^ 7 * (x_a.toNat + 2 ^ 6 * (x_b.toNat + 2 ^ 6 * (0 + 2 ^ 6 * (v1 + 2 ^ 6 * (0)))))) := by rw [hw, hc]; ring
  obtain ⟨a0, q0⟩ := peel_zero h0
  obtain ⟨a1, q1⟩ := peel_one q0 b0
  obtain ⟨a8, q8⟩ := peel (lo := 8) (n := 6) q1 (x_a.isLt)
  obtain ⟨a14, q14⟩ := peel (lo := 14) (n := 6) q8 (x_b.isLt)
  obtain ⟨a20, q20⟩ := peel (lo := 20) (n := 6) q14 (by decide)
  obtain ⟨a26, q26⟩ := peel (lo := 26) (n := 6) q20 b1
  exact ⟨a0, Nat.lt_of_div_eq_zero (by decide) q26, a1, a26, decide_eq_true a20, by simp only [getX2, OpX2.mk.injEq]; exact ⟨fld_eq a8, fld_eq a14⟩⟩

/-- The fields and the tested bits of the words of one shape (70). -/
theorem row70 {w c v0 v1 : Nat} (b0 : v0 < 128) (b1 : v1 < 64) (hc : c = 1 + v0 * 2 + v1 * 67108864 + 256) (hw : w = c) :
    w % 2 = 1 ∧ w < 2 ^ 32 ∧ w / 2 % 2 ^ 7 = v0 ∧ w / 2 ^ 26 % 2 ^ 6 = v1 ∧ (w / 2 ^ 8 % 2 ^ 6 = 1) ∧ (zeroAt w 14 12) = true := by
  have h0 : w = 1 + 2 * (v0 + 2 ^ 7 * (1 + 2 ^ 6 * (0 + 2 ^ 12 * (v1 + 2 ^ 6 * (0))))) := by rw [hw, hc]; ring
  obtain ⟨a0, q0⟩ := peel_zero h0
  obtain ⟨a1, q1⟩ := peel_one q0 b0
  obtain ⟨a8, q8⟩ := peel (lo := 8) (n := 6) q1 (by decide)
  obtain ⟨a14, q14⟩ := peel (lo := 14) (n := 12) q8 (by decide)
  obtain ⟨a26, q26⟩ := peel (lo := 26) (n := 6) q14 b1
  exact ⟨a0, Nat.lt_of_div_eq_zero (by decide) q26, a1, a26, a8, decide_eq_true a14⟩

/-- The fields and the tested bits of the words of one shape (71). -/
theorem row71 {w c v0 v1 : Nat} (b0 : v0 < 128) (b1 : v1 < 64) (hc : c = 1 + v0 * 2 + v1 * 67108864 + 512) (hw : w = c) :
    w % 2 = 1 ∧ w < 2 ^ 32 ∧ w / 2 % 2 ^ 7 = v0 ∧ w / 2 ^ 26 % 2 ^ 6 = v1 ∧ ¬ (w / 2 ^ 8 % 2 ^ 6 = 1) ∧ (w / 2 ^ 8 % 2 ^ 6 = 2) ∧ (zeroAt w 14 12) = true := by
  have h0 : w = 1 + 2 * (v0 + 2 ^ 7 * (2 + 2 ^ 6 * (0 + 2 ^ 12 * (v1 + 2 ^ 6 * (0))))) := by rw [hw, hc]; ring
  obtain ⟨a0, q0⟩ := peel_zero h0
  obtain ⟨a1, q1⟩ := peel_one q0 b0
  obtain ⟨a8, q8⟩ := peel (lo := 8) (n := 6) q1 (by decide)
  obtain ⟨a14, q14⟩ := peel (lo := 14) (n := 12) q8 (by decide)
  obtain ⟨a26, q26⟩ := peel (lo := 26) (n := 6) q14 b1
  exact ⟨a0, Nat.lt_of_div_eq_zero (by decide) q26, a1, a26, fun h => absurd (a8.symm.trans h) (by decide), a8, decide_eq_true a14⟩

/-- The fields and the tested bits of the words of one shape (72). -/
theorem row72 {w c v0 v1 : Nat} (b0 : v0 < 128) (b1 : v1 < 64) (hc : c = 1 + v0 * 2 + v1 * 67108864 + 768) (hw : w = c) :
    w % 2 = 1 ∧ w < 2 ^ 32 ∧ w / 2 % 2 ^ 7 = v0 ∧ w / 2 ^ 26 % 2 ^ 6 = v1 ∧ ¬ (w / 2 ^ 8 % 2 ^ 6 = 1) ∧ ¬ (w / 2 ^ 8 % 2 ^ 6 = 2) ∧ (w / 2 ^ 8 % 2 ^ 6 = 3) ∧ (zeroAt w 14 12) = true := by
  have h0 : w = 1 + 2 * (v0 + 2 ^ 7 * (3 + 2 ^ 6 * (0 + 2 ^ 12 * (v1 + 2 ^ 6 * (0))))) := by rw [hw, hc]; ring
  obtain ⟨a0, q0⟩ := peel_zero h0
  obtain ⟨a1, q1⟩ := peel_one q0 b0
  obtain ⟨a8, q8⟩ := peel (lo := 8) (n := 6) q1 (by decide)
  obtain ⟨a14, q14⟩ := peel (lo := 14) (n := 12) q8 (by decide)
  obtain ⟨a26, q26⟩ := peel (lo := 26) (n := 6) q14 b1
  exact ⟨a0, Nat.lt_of_div_eq_zero (by decide) q26, a1, a26, fun h => absurd (a8.symm.trans h) (by decide), fun h => absurd (a8.symm.trans h) (by decide), a8, decide_eq_true a14⟩

/-- The fields and the tested bits of the words of one shape (73). -/
theorem row73 {w c v0 v1 : Nat} {o : OpX2} (b0 : v0 < 128) (b1 : v1 < 64) (hc : c = 1 + v0 * 2 + v1 * 67108864) (hw : w = c + putX2 o) :
    w % 2 = 1 ∧ w < 2 ^ 32 ∧ w / 2 % 2 ^ 7 = v0 ∧ w / 2 ^ 26 % 2 ^ 6 = v1 ∧ (w / 2 ^ 20 % 2 ^ 6 = 0) ∧ getX2 w = o := by
  obtain ⟨x_a, x_b⟩ := o
  simp only [putX2] at hw
  have h0 : w = 1 + 2 * (v0 + 2 ^ 7 * (x_a.toNat + 2 ^ 6 * (x_b.toNat + 2 ^ 6 * (0 + 2 ^ 6 * (v1 + 2 ^ 6 * (0)))))) := by rw [hw, hc]; ring
  obtain ⟨a0, q0⟩ := peel_zero h0
  obtain ⟨a1, q1⟩ := peel_one q0 b0
  obtain ⟨a8, q8⟩ := peel (lo := 8) (n := 6) q1 (x_a.isLt)
  obtain ⟨a14, q14⟩ := peel (lo := 14) (n := 6) q8 (x_b.isLt)
  obtain ⟨a20, q20⟩ := peel (lo := 20) (n := 6) q14 (by decide)
  obtain ⟨a26, q26⟩ := peel (lo := 26) (n := 6) q20 b1
  exact ⟨a0, Nat.lt_of_div_eq_zero (by decide) q26, a1, a26, a20, by simp only [getX2, OpX2.mk.injEq]; exact ⟨fld_eq a8, fld_eq a14⟩⟩

/-- The fields and the tested bits of the words of one shape (74). -/
theorem row74 {w c v0 v1 : Nat} {o : OpX2} (b0 : v0 < 128) (b1 : v1 < 64) (hc : c = 1 + v0 * 2 + v1 * 67108864 + 1048576) (hw : w = c + putX2 o) :
    w % 2 = 1 ∧ w < 2 ^ 32 ∧ w / 2 % 2 ^ 7 = v0 ∧ w / 2 ^ 26 % 2 ^ 6 = v1 ∧ ¬ (w / 2 ^ 20 % 2 ^ 6 = 0) ∧ (w / 2 ^ 20 % 2 ^ 6 = 1) ∧ getX2 w = o := by
  obtain ⟨x_a, x_b⟩ := o
  simp only [putX2] at hw
  have h0 : w = 1 + 2 * (v0 + 2 ^ 7 * (x_a.toNat + 2 ^ 6 * (x_b.toNat + 2 ^ 6 * (1 + 2 ^ 6 * (v1 + 2 ^ 6 * (0)))))) := by rw [hw, hc]; ring
  obtain ⟨a0, q0⟩ := peel_zero h0
  obtain ⟨a1, q1⟩ := peel_one q0 b0
  obtain ⟨a8, q8⟩ := peel (lo := 8) (n := 6) q1 (x_a.isLt)
  obtain ⟨a14, q14⟩ := peel (lo := 14) (n := 6) q8 (x_b.isLt)
  obtain ⟨a20, q20⟩ := peel (lo := 20) (n := 6) q14 (by decide)
  obtain ⟨a26, q26⟩ := peel (lo := 26) (n := 6) q20 b1
  exact ⟨a0, Nat.lt_of_div_eq_zero (by decide) q26, a1, a26, fun h => absurd (a20.symm.trans h) (by decide), a20, by simp only [getX2, OpX2.mk.injEq]; exact ⟨fld_eq a8, fld_eq a14⟩⟩

/-- The fields and the tested bits of the words of one shape (75). -/
theorem row75 {w c v0 v1 : Nat} {o : OpX3} (b0 : v0 < 128) (b1 : v1 < 64) (hx : o.c.toNat ≠ 0) (hc : c = 1 + v0 * 2 + v1 * 67108864) (hw : w = c + putX3 o) :
    w % 2 = 1 ∧ w < 2 ^ 32 ∧ w / 2 % 2 ^ 7 = v0 ∧ w / 2 ^ 26 % 2 ^ 6 = v1 ∧ ¬ (w / 2 ^ 20 % 2 ^ 6 = 0) ∧ getX3 w = o := by
  obtain ⟨x_a, x_b, x_c⟩ := o
  simp only [putX3] at hw
  dsimp only at hx
  have h0 : w = 1 + 2 * (v0 + 2 ^ 7 * (x_a.toNat + 2 ^ 6 * (x_b.toNat + 2 ^ 6 * (x_c.toNat + 2 ^ 6 * (v1 + 2 ^ 6 * (0)))))) := by rw [hw, hc]; ring
  obtain ⟨a0, q0⟩ := peel_zero h0
  obtain ⟨a1, q1⟩ := peel_one q0 b0
  obtain ⟨a8, q8⟩ := peel (lo := 8) (n := 6) q1 (x_a.isLt)
  obtain ⟨a14, q14⟩ := peel (lo := 14) (n := 6) q8 (x_b.isLt)
  obtain ⟨a20, q20⟩ := peel (lo := 20) (n := 6) q14 (x_c.isLt)
  obtain ⟨a26, q26⟩ := peel (lo := 26) (n := 6) q20 b1
  exact ⟨a0, Nat.lt_of_div_eq_zero (by decide) q26, a1, a26, fun h => hx (a20.symm.trans h), by simp only [getX3, OpX3.mk.injEq]; exact ⟨fld_eq a8, fld_eq a14, fld_eq a20⟩⟩

/-- The fields and the tested bits of the words of one shape (76). -/
theorem row76 {w c v0 v1 : Nat} {o : OpXSc} (b0 : v0 < 128) (b1 : v1 < 64) (hc : c = 1 + v0 * 2 + v1 * 67108864) (hw : w = c + putXSc o) :
    w % 2 = 1 ∧ w < 2 ^ 32 ∧ w / 2 % 2 ^ 7 = v0 ∧ w / 2 ^ 26 % 2 ^ 6 = v1 ∧ (zeroAt w 10 16) = true ∧ getXSc w = o := by
  obtain ⟨x_sc⟩ := o
  simp only [putXSc] at hw
  have h0 : w = 1 + 2 * (v0 + 2 ^ 7 * (x_sc.toNat + 2 ^ 2 * (0 + 2 ^ 16 * (v1 + 2 ^ 6 * (0))))) := by rw [hw, hc]; ring
  obtain ⟨a0, q0⟩ := peel_zero h0
  obtain ⟨a1, q1⟩ := peel_one q0 b0
  obtain ⟨a8, q8⟩ := peel (lo := 8) (n := 2) q1 (x_sc.isLt)
  obtain ⟨a10, q10⟩ := peel (lo := 10) (n := 16) q8 (by decide)
  obtain ⟨a26, q26⟩ := peel (lo := 26) (n := 6) q10 b1
  exact ⟨a0, Nat.lt_of_div_eq_zero (by decide) q26, a1, a26, decide_eq_true a10, by simp only [getXSc, OpXSc.mk.injEq]; exact fld_eq a8⟩

/-- The fields and the tested bits of the words of one shape (77). -/
theorem row77 {w c v0 v1 : Nat} {o : OpXTd} (b0 : v0 < 128) (b1 : v1 < 64) (hc : c = 1 + v0 * 2 + v1 * 67108864) (hw : w = c + putXTd o) :
    w % 2 = 1 ∧ w < 2 ^ 32 ∧ w / 2 % 2 ^ 7 = v0 ∧ w / 2 ^ 26 % 2 ^ 6 = v1 ∧ (zeroAt w 12 2) = true ∧ getXTd w = o := by
  obtain ⟨x_td, x_b, x_c⟩ := o
  simp only [putXTd] at hw
  have h0 : w = 1 + 2 * (v0 + 2 ^ 7 * (x_td.toNat + 2 ^ 4 * (0 + 2 ^ 2 * (x_b.toNat + 2 ^ 6 * (x_c.toNat + 2 ^ 6 * (v1 + 2 ^ 6 * (0))))))) := by rw [hw, hc]; ring
  obtain ⟨a0, q0⟩ := peel_zero h0
  obtain ⟨a1, q1⟩ := peel_one q0 b0
  obtain ⟨a8, q8⟩ := peel (lo := 8) (n := 4) q1 (x_td.isLt)
  obtain ⟨a12, q12⟩ := peel (lo := 12) (n := 2) q8 (by decide)
  obtain ⟨a14, q14⟩ := peel (lo := 14) (n := 6) q12 (x_b.isLt)
  obtain ⟨a20, q20⟩ := peel (lo := 20) (n := 6) q14 (x_c.isLt)
  obtain ⟨a26, q26⟩ := peel (lo := 26) (n := 6) q20 b1
  exact ⟨a0, Nat.lt_of_div_eq_zero (by decide) q26, a1, a26, decide_eq_true a12, by simp only [getXTd, OpXTd.mk.injEq]; exact ⟨fld_eq a8, fld_eq a14, fld_eq a20⟩⟩

/-- The fields and the tested bits of the words of one shape (78). -/
theorem row78 {w c v0 v1 : Nat} {o : OpXMma} (b0 : v0 < 128) (b1 : v1 < 64) (hc : c = 1 + v0 * 2 + v1 * 67108864) (hw : w = c + putXMma o) :
    w % 2 = 1 ∧ w < 2 ^ 32 ∧ w / 2 % 2 ^ 7 = v0 ∧ w / 2 ^ 26 % 2 ^ 6 = v1 ∧ (zeroAt w 13 1 && zeroAt w 18 2 && zeroAt w 24 2) = true ∧ getXMma w = o := by
  obtain ⟨x_acc, x_ra, x_rb, x_tda, x_tdb⟩ := o
  simp only [putXMma] at hw
  have h0 : w = 1 + 2 * (v0 + 2 ^ 7 * (x_acc.toNat + 2 ^ 3 * (b2n x_ra + 2 ^ 1 * (b2n x_rb + 2 ^ 1 * (0 + 2 ^ 1 * (x_tda.toNat + 2 ^ 4 * (0 + 2 ^ 2 * (x_tdb.toNat + 2 ^ 4 * (0 + 2 ^ 2 * (v1 + 2 ^ 6 * (0))))))))))) := by rw [hw, hc]; ring
  obtain ⟨a0, q0⟩ := peel_zero h0
  obtain ⟨a1, q1⟩ := peel_one q0 b0
  obtain ⟨a8, q8⟩ := peel (lo := 8) (n := 3) q1 (x_acc.isLt)
  obtain ⟨a11, q11⟩ := peel (lo := 11) (n := 1) q8 (b2n_lt x_ra)
  obtain ⟨a12, q12⟩ := peel (lo := 12) (n := 1) q11 (b2n_lt x_rb)
  obtain ⟨a13, q13⟩ := peel (lo := 13) (n := 1) q12 (by decide)
  obtain ⟨a14, q14⟩ := peel (lo := 14) (n := 4) q13 (x_tda.isLt)
  obtain ⟨a18, q18⟩ := peel (lo := 18) (n := 2) q14 (by decide)
  obtain ⟨a20, q20⟩ := peel (lo := 20) (n := 4) q18 (x_tdb.isLt)
  obtain ⟨a24, q24⟩ := peel (lo := 24) (n := 2) q20 (by decide)
  obtain ⟨a26, q26⟩ := peel (lo := 26) (n := 6) q24 b1
  exact ⟨a0, Nat.lt_of_div_eq_zero (by decide) q26, a1, a26, band (band (decide_eq_true a13) (decide_eq_true a18)) (decide_eq_true a24), by simp only [getXMma, OpXMma.mk.injEq]; exact ⟨fld_eq a8, bit_eq a11, bit_eq a12, fld_eq a14, fld_eq a20⟩⟩

/-- The fields and the tested bits of the words of one shape (79). -/
theorem row79 {w c v0 v1 : Nat} {o : OpXAcc} (b0 : v0 < 128) (b1 : v1 < 64) (hc : c = 1 + v0 * 2 + v1 * 67108864) (hw : w = c + putXAcc o) :
    w % 2 = 1 ∧ w < 2 ^ 32 ∧ w / 2 % 2 ^ 7 = v0 ∧ w / 2 ^ 26 % 2 ^ 6 = v1 ∧ (zeroAt w 11 15) = true ∧ getXAcc w = o := by
  obtain ⟨x_acc⟩ := o
  simp only [putXAcc] at hw
  have h0 : w = 1 + 2 * (v0 + 2 ^ 7 * (x_acc.toNat + 2 ^ 3 * (0 + 2 ^ 15 * (v1 + 2 ^ 6 * (0))))) := by rw [hw, hc]; ring
  obtain ⟨a0, q0⟩ := peel_zero h0
  obtain ⟨a1, q1⟩ := peel_one q0 b0
  obtain ⟨a8, q8⟩ := peel (lo := 8) (n := 3) q1 (x_acc.isLt)
  obtain ⟨a11, q11⟩ := peel (lo := 11) (n := 15) q8 (by decide)
  obtain ⟨a26, q26⟩ := peel (lo := 26) (n := 6) q11 b1
  exact ⟨a0, Nat.lt_of_div_eq_zero (by decide) q26, a1, a26, decide_eq_true a11, by simp only [getXAcc, OpXAcc.mk.injEq]; exact fld_eq a8⟩

/-- The fields and the tested bits of the words of one shape (80). -/
theorem row80 {w c v0 v1 : Nat} {o : OpXDr} (b0 : v0 < 128) (b1 : v1 < 64) (hc : c = 1 + v0 * 2 + v1 * 67108864) (hw : w = c + putXDr o) :
    w % 2 = 1 ∧ w < 2 ^ 32 ∧ w / 2 % 2 ^ 7 = v0 ∧ w / 2 ^ 26 % 2 ^ 6 = v1 ∧ (w / 2 ^ 11 % 2 ^ 2 = 0) ∧ getXDr w = o := by
  obtain ⟨x_acc, x_add, x_sa, x_sc⟩ := o
  simp only [putXDr] at hw
  have h0 : w = 1 + 2 * (v0 + 2 ^ 7 * (x_acc.toNat + 2 ^ 3 * (0 + 2 ^ 2 * (b2n x_add + 2 ^ 1 * (x_sa.toNat + 2 ^ 6 * (x_sc.toNat + 2 ^ 6 * (v1 + 2 ^ 6 * (0)))))))) := by rw [hw, hc]; ring
  obtain ⟨a0, q0⟩ := peel_zero h0
  obtain ⟨a1, q1⟩ := peel_one q0 b0
  obtain ⟨a8, q8⟩ := peel (lo := 8) (n := 3) q1 (x_acc.isLt)
  obtain ⟨a11, q11⟩ := peel (lo := 11) (n := 2) q8 (by decide)
  obtain ⟨a13, q13⟩ := peel (lo := 13) (n := 1) q11 (b2n_lt x_add)
  obtain ⟨a14, q14⟩ := peel (lo := 14) (n := 6) q13 (x_sa.isLt)
  obtain ⟨a20, q20⟩ := peel (lo := 20) (n := 6) q14 (x_sc.isLt)
  obtain ⟨a26, q26⟩ := peel (lo := 26) (n := 6) q20 b1
  exact ⟨a0, Nat.lt_of_div_eq_zero (by decide) q26, a1, a26, a11, by simp only [getXDr, OpXDr.mk.injEq]; exact ⟨fld_eq a8, bit_eq a13, fld_eq a14, fld_eq a20⟩⟩

/-- The fields and the tested bits of the words of one shape (81). -/
theorem row81 {w c v0 v1 : Nat} {o : OpXDr} (b0 : v0 < 128) (b1 : v1 < 64) (hc : c = 1 + v0 * 2 + v1 * 67108864 + 2048) (hw : w = c + putXDr o) :
    w % 2 = 1 ∧ w < 2 ^ 32 ∧ w / 2 % 2 ^ 7 = v0 ∧ w / 2 ^ 26 % 2 ^ 6 = v1 ∧ ¬ (w / 2 ^ 11 % 2 ^ 2 = 0) ∧ (w / 2 ^ 11 % 2 ^ 2 = 1) ∧ getXDr w = o := by
  obtain ⟨x_acc, x_add, x_sa, x_sc⟩ := o
  simp only [putXDr] at hw
  have h0 : w = 1 + 2 * (v0 + 2 ^ 7 * (x_acc.toNat + 2 ^ 3 * (1 + 2 ^ 2 * (b2n x_add + 2 ^ 1 * (x_sa.toNat + 2 ^ 6 * (x_sc.toNat + 2 ^ 6 * (v1 + 2 ^ 6 * (0)))))))) := by rw [hw, hc]; ring
  obtain ⟨a0, q0⟩ := peel_zero h0
  obtain ⟨a1, q1⟩ := peel_one q0 b0
  obtain ⟨a8, q8⟩ := peel (lo := 8) (n := 3) q1 (x_acc.isLt)
  obtain ⟨a11, q11⟩ := peel (lo := 11) (n := 2) q8 (by decide)
  obtain ⟨a13, q13⟩ := peel (lo := 13) (n := 1) q11 (b2n_lt x_add)
  obtain ⟨a14, q14⟩ := peel (lo := 14) (n := 6) q13 (x_sa.isLt)
  obtain ⟨a20, q20⟩ := peel (lo := 20) (n := 6) q14 (x_sc.isLt)
  obtain ⟨a26, q26⟩ := peel (lo := 26) (n := 6) q20 b1
  exact ⟨a0, Nat.lt_of_div_eq_zero (by decide) q26, a1, a26, fun h => absurd (a11.symm.trans h) (by decide), a11, by simp only [getXDr, OpXDr.mk.injEq]; exact ⟨fld_eq a8, bit_eq a13, fld_eq a14, fld_eq a20⟩⟩

/-- The fields and the tested bits of the words of one shape (82). -/
theorem row82 {w c v0 v1 : Nat} {o : OpXDrV} (b0 : v0 < 128) (b1 : v1 < 64) (hc : c = 1 + v0 * 2 + v1 * 67108864 + 4096) (hw : w = c + putXDrV o) :
    w % 2 = 1 ∧ w < 2 ^ 32 ∧ w / 2 % 2 ^ 7 = v0 ∧ w / 2 ^ 26 % 2 ^ 6 = v1 ∧ ¬ (w / 2 ^ 11 % 2 ^ 2 = 0) ∧ ¬ (w / 2 ^ 11 % 2 ^ 2 = 1) ∧ (w / 2 ^ 11 % 2 ^ 2 = 2) ∧ (zeroAt w 13 7) = true ∧ getXDrV w = o := by
  obtain ⟨x_acc, x_sc⟩ := o
  simp only [putXDrV] at hw
  have h0 : w = 1 + 2 * (v0 + 2 ^ 7 * (x_acc.toNat + 2 ^ 3 * (2 + 2 ^ 2 * (0 + 2 ^ 7 * (x_sc.toNat + 2 ^ 6 * (v1 + 2 ^ 6 * (0))))))) := by rw [hw, hc]; ring
  obtain ⟨a0, q0⟩ := peel_zero h0
  obtain ⟨a1, q1⟩ := peel_one q0 b0
  obtain ⟨a8, q8⟩ := peel (lo := 8) (n := 3) q1 (x_acc.isLt)
  obtain ⟨a11, q11⟩ := peel (lo := 11) (n := 2) q8 (by decide)
  obtain ⟨a13, q13⟩ := peel (lo := 13) (n := 7) q11 (by decide)
  obtain ⟨a20, q20⟩ := peel (lo := 20) (n := 6) q13 (x_sc.isLt)
  obtain ⟨a26, q26⟩ := peel (lo := 26) (n := 6) q20 b1
  exact ⟨a0, Nat.lt_of_div_eq_zero (by decide) q26, a1, a26, fun h => absurd (a11.symm.trans h) (by decide), fun h => absurd (a11.symm.trans h) (by decide), a11, decide_eq_true a13, by simp only [getXDrV, OpXDrV.mk.injEq]; exact ⟨fld_eq a8, fld_eq a20⟩⟩

/-- The fields and the tested bits of the words of one shape (83). -/
theorem row83 {w c v0 v1 : Nat} {o : OpXSh} (b0 : v0 < 128) (b1 : v1 < 64) (hc : c = 1 + v0 * 2 + v1 * 67108864) (hw : w = c + putXSh o) :
    w % 2 = 1 ∧ w < 2 ^ 32 ∧ w / 2 % 2 ^ 7 = v0 ∧ w / 2 ^ 26 % 2 ^ 6 = v1 ∧ (zeroAt w 12 2 && zeroAt w 20 6) = true ∧ getXSh w = o := by
  obtain ⟨x_sh, x_sa⟩ := o
  simp only [putXSh] at hw
  have h0 : w = 1 + 2 * (v0 + 2 ^ 7 * (x_sh.toNat + 2 ^ 4 * (0 + 2 ^ 2 * (x_sa.toNat + 2 ^ 6 * (0 + 2 ^ 6 * (v1 + 2 ^ 6 * (0))))))) := by rw [hw, hc]; ring
  obtain ⟨a0, q0⟩ := peel_zero h0
  obtain ⟨a1, q1⟩ := peel_one q0 b0
  obtain ⟨a8, q8⟩ := peel (lo := 8) (n := 4) q1 (x_sh.isLt)
  obtain ⟨a12, q12⟩ := peel (lo := 12) (n := 2) q8 (by decide)
  obtain ⟨a14, q14⟩ := peel (lo := 14) (n := 6) q12 (x_sa.isLt)
  obtain ⟨a20, q20⟩ := peel (lo := 20) (n := 6) q14 (by decide)
  obtain ⟨a26, q26⟩ := peel (lo := 26) (n := 6) q20 b1
  exact ⟨a0, Nat.lt_of_div_eq_zero (by decide) q26, a1, a26, band (decide_eq_true a12) (decide_eq_true a20), by simp only [getXSh, OpXSh.mk.injEq]; exact ⟨fld_eq a8, fld_eq a14⟩⟩

/-- The fields and the tested bits of the words of one shape (84). -/
theorem row84 {w c v0 v1 : Nat} {o : OpXShs} (b0 : v0 < 128) (b1 : v1 < 64) (hc : c = 1 + v0 * 2 + v1 * 67108864) (hw : w = c + putXShs o) :
    w % 2 = 1 ∧ w < 2 ^ 32 ∧ w / 2 % 2 ^ 7 = v0 ∧ w / 2 ^ 26 % 2 ^ 6 = v1 ∧ (zeroAt w 12 2 && zeroAt w 18 2) = true ∧ getXShs w = o := by
  obtain ⟨x_sh, x_f, x_sv⟩ := o
  simp only [putXShs] at hw
  have h0 : w = 1 + 2 * (v0 + 2 ^ 7 * (x_sh.toNat + 2 ^ 4 * (0 + 2 ^ 2 * (x_f.toNat + 2 ^ 4 * (0 + 2 ^ 2 * (x_sv.toNat + 2 ^ 6 * (v1 + 2 ^ 6 * (0)))))))) := by rw [hw, hc]; ring
  obtain ⟨a0, q0⟩ := peel_zero h0
  obtain ⟨a1, q1⟩ := peel_one q0 b0
  obtain ⟨a8, q8⟩ := peel (lo := 8) (n := 4) q1 (x_sh.isLt)
  obtain ⟨a12, q12⟩ := peel (lo := 12) (n := 2) q8 (by decide)
  obtain ⟨a14, q14⟩ := peel (lo := 14) (n := 4) q12 (x_f.isLt)
  obtain ⟨a18, q18⟩ := peel (lo := 18) (n := 2) q14 (by decide)
  obtain ⟨a20, q20⟩ := peel (lo := 20) (n := 6) q18 (x_sv.isLt)
  obtain ⟨a26, q26⟩ := peel (lo := 26) (n := 6) q20 b1
  exact ⟨a0, Nat.lt_of_div_eq_zero (by decide) q26, a1, a26, band (decide_eq_true a12) (decide_eq_true a18), by simp only [getXShs, OpXShs.mk.injEq]; exact ⟨fld_eq a8, fld_eq a14, fld_eq a20⟩⟩

end Sys2Proof.Laws
end

