-- ==== Sys2Proof/Laws/Hdr.lean ====
section
/-! SUPPORT. The header of each instruction past the constructors that Lean's code generator builds: a word of no PFX and no LIM
(log entry 30). -/
namespace Sys2Proof.Laws
open Sys2Proof.Machine

theorem hdr_copy (o : OpX3) : hdrOf (.copy o) = baseHdr (0x1C0000F9 + putX3 o) := rfl
theorem hdr_gather (o : OpX3) : hdrOf (.gather o) = baseHdr (0x200000F9 + putX3 o) := rfl
theorem hdr_scatter (o : OpX3) : hdrOf (.scatter o) = baseHdr (0x240000F9 + putX3 o) := rfl
theorem hdr_mcast (o : OpX3) : hdrOf (.mcast o) = baseHdr (0x280000F9 + putX3 o) := rfl
theorem hdr_neterrWrite (o : OpCsrW0) : hdrOf (.neterrWrite o) = baseHdr (0xE000095 + putCsrW0 o) := rfl
theorem hdr_cpfaultWrite (o : OpCsrW0) : hdrOf (.cpfaultWrite o) = baseHdr (0xC800095 + putCsrW0 o) := rfl
theorem hdr_mxfaultWrite (o : OpCsrW0) : hdrOf (.mxfaultWrite o) = baseHdr (0xC300095 + putCsrW0 o) := rfl
theorem hdr_put (o : OpX3) : hdrOf (.put o) = baseHdr (0x99 + putX3 o) := rfl
theorem hdr_get (o : OpX3) : hdrOf (.get o) = baseHdr (0x4000099 + putX3 o) := rfl
theorem hdr_ratom (o : OpX3) : hdrOf (.ratom o) = baseHdr (0x8000099 + putX3 o) := rfl
theorem hdr_kvgather (o : OpX3) : hdrOf (.kvgather o) = baseHdr (0xFB + putX3 o) := rfl
theorem hdr_kvappend (o : OpX3) : hdrOf (.kvappend o) = baseHdr (0x40000FB + putX3 o) := rfl
theorem hdr_pgreq (o : OpX3) : hdrOf (.pgreq o) = baseHdr (0x80000FB + putX3 o) := rfl
theorem hdr_pgreqShare (o : OpX3) : hdrOf (.pgreqShare o) = baseHdr (0x80000FB + putX3 o) := rfl
theorem hdr_pgreqRelease (o : OpX3) : hdrOf (.pgreqRelease o) = baseHdr (0x80000FB + putX3 o) := rfl
theorem hdr_pgreqPin (o : OpX3) : hdrOf (.pgreqPin o) = baseHdr (0x80000FB + putX3 o) := rfl
theorem hdr_pgreqUnpin (o : OpX3) : hdrOf (.pgreqUnpin o) = baseHdr (0x80000FB + putX3 o) := rfl
theorem hdr_pgreqFetch (o : OpX3) : hdrOf (.pgreqFetch o) = baseHdr (0x80000FB + putX3 o) := rfl
theorem hdr_pgreqRequant (o : OpX3) : hdrOf (.pgreqRequant o) = baseHdr (0x80000FB + putX3 o) := rfl
theorem hdr_mmag (o : OpXMma) : hdrOf (.mmag o) = baseHdr (0x140000F7 + putXMma o) := rfl
theorem hdr_launch (o : OpX3) : hdrOf (.launch o) = baseHdr (0xC0000FD + putX3 o) := rfl
theorem hdr_rednet (o : OpX3) : hdrOf (.rednet o) = baseHdr (0xC000099 + putX3 o) := rfl
theorem hdr_forkM (o : OpX3) : hdrOf (.forkM o) = baseHdr (0xF9 + putX3 o) := rfl
theorem hdr_forkC (o : OpX3) : hdrOf (.forkC o) = baseHdr (0x40000F9 + putX3 o) := rfl
theorem hdr_forkMc (o : OpX3) : hdrOf (.forkMc o) = baseHdr (0x80000F9 + putX3 o) := rfl
theorem hdr_rdvz (o : OpX2) : hdrOf (.rdvz o) = baseHdr (0xC0000F9 + putX2 o) := rfl
theorem hdr_seqend : hdrOf (.seqend) = baseHdr 0x100000F9 := rfl
theorem hdr_shld (o : OpXSh) : hdrOf (.shld o) = baseHdr (0x140000F9 + putXSh o) := rfl
theorem hdr_shset (o : OpXShs) : hdrOf (.shset o) = baseHdr (0x180000F9 + putXShs o) := rfl
theorem hdr_sqadm (o : OpX2) : hdrOf (.sqadm o) = baseHdr (0xFD + putX2 o) := rfl
theorem hdr_tokfb (o : OpX3) : hdrOf (.tokfb o) = baseHdr (0x40000FD + putX3 o) := rfl
theorem hdr_seqret (o : OpX3) : hdrOf (.seqret o) = baseHdr (0x80000FD + putX3 o) := rfl

end Sys2Proof.Laws
end

