-- ==== Sys2Proof/Laws/Memory.lean ====
section
/-! SUPPORT. The sparse stores: a read after a write, the bytes a write leaves alone, and that every memory operation keeps the
canonical form (log entry 2). -/
namespace Sys2Proof.Laws
open Sys2Proof.Machine

variable {n : Nat}

theorem wfFrom_cons {lo k : Nat} {v : BitVec n} {r : Sparse n} :
    Sparse.wfFrom lo ((k, v) :: r) = true ↔ lo ≤ k ∧ v ≠ 0 ∧ Sparse.wfFrom (k + 1) r = true := by
  simp [Sparse.wfFrom, and_assoc]

/-- A lower bound may be lowered. -/
theorem wfFrom_le {m : Sparse n} {lo lo' : Nat} (h : Sparse.wfFrom lo m = true) (hl : lo' ≤ lo) : Sparse.wfFrom lo' m = true := by
  cases m with
  | nil => rfl
  | cons p r =>
    obtain ⟨k, v⟩ := p
    rw [wfFrom_cons] at h ⊢
    exact ⟨hl.trans h.1, h.2⟩

/-- Keys below the first one read as 0. -/
theorem get_below {m : Sparse n} {lo a : Nat} (h : Sparse.wfFrom lo m = true) (ha : a < lo) : m.get a = 0 := by
  cases m with
  | nil => rfl
  | cons p r =>
    obtain ⟨k, v⟩ := p
    have hk := (wfFrom_cons.1 h).1
    simp [Sparse.get, show ¬ a = k by omega, show a < k by omega]

/-- A write keeps keys above a bound that it lies above. -/
theorem set_wfFrom {m : Sparse n} {lo a : Nat} {v : BitVec n} (h : Sparse.wfFrom lo m = true) (ha : lo ≤ a) :
    Sparse.wfFrom lo (m.set a v) = true := by
  induction m generalizing lo with
  | nil =>
    unfold Sparse.set
    split
    · rfl
    · rename_i hv; exact wfFrom_cons.2 ⟨ha, hv, rfl⟩
  | cons p r ih =>
    obtain ⟨k, x⟩ := p
    have hh := wfFrom_cons.1 h
    unfold Sparse.set
    split
    · split
      · exact h
      · rename_i hv
        exact wfFrom_cons.2 ⟨ha, hv, wfFrom_cons.2 ⟨by omega, hh.2⟩⟩
    · split
      · split
        · exact wfFrom_le hh.2.2 (by omega)
        · rename_i he hv
          exact wfFrom_cons.2 ⟨ha, hv, he ▸ hh.2.2⟩
      · exact wfFrom_cons.2 ⟨hh.1, hh.2.1, ih hh.2.2 (by omega)⟩

/-- A write keeps the canonical form. -/
theorem set_wf {m : Sparse n} {a : Nat} {v : BitVec n} (h : m.wf = true) : (m.set a v).wf = true := set_wfFrom h (Nat.zero_le a)

/-- A read after a write, in a store whose keys rise. -/
theorem get_set_from {m : Sparse n} {lo a b : Nat} {v : BitVec n} (h : Sparse.wfFrom lo m = true) :
    (m.set a v).get b = if b = a then v else m.get b := by
  induction m generalizing lo with
  | nil =>
    unfold Sparse.set
    split
    · rename_i hv; simp [Sparse.get, hv]
    · simp [Sparse.get]
  | cons p r ih =>
    obtain ⟨k, x⟩ := p
    have hh := wfFrom_cons.1 h
    unfold Sparse.set
    split
    · rename_i hak
      split
      · rename_i hv
        split
        · rename_i hb; subst hb hv
          simp [Sparse.get, hak, show ¬ b = k by omega]
        · rfl
      · by_cases hb : b = a
        · simp [Sparse.get, hb]
        · by_cases hb2 : b < a
          · simp [Sparse.get, hb, hb2, show ¬ b = k by omega, show b < k by omega]
          · simp [Sparse.get, hb, hb2]
    · rename_i hak
      split
      · rename_i he
        subst he
        split
        · rename_i hv
          by_cases hb : b = a
          · subst hb; simp [hv, get_below hh.2.2 (Nat.lt_succ_self b)]
          · by_cases hb2 : b < a
            · simp [Sparse.get, hb, hb2, get_below hh.2.2 (show b < a + 1 by omega)]
            · simp [Sparse.get, hb, hb2]
        · by_cases hb : b = a
          · simp [Sparse.get, hb]
          · simp [Sparse.get, hb]
      · rename_i he
        simp only [Sparse.get, ih hh.2.2]
        by_cases hb : b = a
        · subst hb; simp [he, hak]
        · simp [hb]

/-- A read after a write to the same key gives the value written; every other key reads as before. -/
theorem get_set {m : Sparse n} {a b : Nat} {v : BitVec n} (h : m.wf = true) :
    (m.set a v).get b = if b = a then v else m.get b := get_set_from h

theorem get_set_same {m : Sparse n} {a : Nat} {v : BitVec n} (h : m.wf = true) : (m.set a v).get a = v := by simp [get_set h]

theorem get_set_other {m : Sparse n} {a b : Nat} {v : BitVec n} (h : m.wf = true) (hb : b ≠ a) : (m.set a v).get b = m.get b := by
  simp [get_set h, hb]

/-- Removing entries keeps keys above a bound. -/
theorem filter_wfFrom {m : Sparse n} {lo : Nat} (p : Nat × BitVec n → Bool) (h : Sparse.wfFrom lo m = true) :
    Sparse.wfFrom lo (m.filter p) = true := by
  induction m generalizing lo with
  | nil => rfl
  | cons q r ih =>
    obtain ⟨k, v⟩ := q
    have hh := wfFrom_cons.1 h
    have hr := ih hh.2.2
    by_cases hp : p (k, v) = true
    · rw [List.filter_cons_of_pos hp]; exact wfFrom_cons.2 ⟨hh.1, hh.2.1, hr⟩
    · rw [List.filter_cons_of_neg hp]; exact wfFrom_le hr (by omega)

/-- Removing entries keeps the canonical form. -/
theorem filter_wf {m : Sparse n} (p : Nat × BitVec n → Bool) (h : m.wf = true) : Sparse.wf (m.filter p) = true := filter_wfFrom p h

/-- Writes in a row keep the canonical form. -/
theorem foldl_set_wf {α : Type} {f : Sparse n → α → Sparse n} (hf : ∀ m x, m.wf = true → (f m x).wf = true) (l : List α) {m : Sparse n}
    (h : m.wf = true) : (l.foldl f m).wf = true := by
  induction l generalizing m with
  | nil => exact h
  | cons x l ih => exact ih (hf m x h)

/-- A write of bytes keeps the canonical form. -/
theorem wrBytes_wf {m : Sparse 8} {a : Nat} (k : Nat) {v : Nat} (h : m.wf = true) : (wrBytes m a k v).wf = true := by
  induction k generalizing m a v with
  | zero => exact h
  | succ k ih => exact ih (set_wf h)

/-- A write of a list of bytes keeps the canonical form. -/
theorem wrList_wf {m : Sparse 8} {a : Nat} {bs : List Byte} (h : m.wf = true) : (wrList m a bs).wf = true := by
  induction bs generalizing m a with
  | nil => exact h
  | cons b bs ih => exact ih (set_wf h)

/-- Clearing poison keeps the canonical form of the marks. -/
theorem clearPoison_wf {m : Sparse 1} {a : Nat} (k : Nat) (h : m.wf = true) : (clearPoison m a k).wf = true := by
  induction k generalizing m a with
  | zero => exact h
  | succ k ih => exact ih (set_wf h)

theorem poisonAfter_wf {m : Sparse 1} {g a k : Nat} (h : m.wf = true) : (poisonAfter m g a k).wf = true := clearPoison_wf _ h

/-- The bytes that a write of `k` bytes at `a` leaves alone (R3). -/
theorem wrBytes_other {m : Sparse 8} {a b : Nat} (k : Nat) {v : Nat} (h : m.wf = true) (hb : b < a ∨ a + k ≤ b) :
    (wrBytes m a k v).get b = m.get b := by
  induction k generalizing m a v with
  | zero => rfl
  | succ k ih =>
    have := ih (a := a + 1) (v := v / 256) (set_wf (a := a) (v := BitVec.ofNat 8 v) h) (by omega)
    rw [wrBytes, this, get_set_other h (by omega)]

/-- The bytes that a write of a list at `a` leaves alone. -/
theorem wrList_other {m : Sparse 8} {a b : Nat} {bs : List Byte} (h : m.wf = true) (hb : b < a ∨ a + bs.length ≤ b) :
    (wrList m a bs).get b = m.get b := by
  induction bs generalizing m a with
  | nil => rfl
  | cons x bs ih =>
    simp only [List.length_cons] at hb
    have := ih (m := m.set a x) (a := a + 1) (set_wf h) (by omega)
    rw [wrList, this, get_set_other h (by omega)]

/-- The bytes of a number written at `a` read back, the low byte first (R3). -/
theorem rdBytes_wrBytes {m : Sparse 8} {a : Nat} (k : Nat) {v : Nat} (h : m.wf = true) :
    rdBytes (wrBytes m a k v) a k = v % 256 ^ k := by
  induction k generalizing m a v with
  | zero => simp [rdBytes, Nat.mod_one]
  | succ k ih =>
    have hs : (m.set a (BitVec.ofNat 8 v)).wf = true := set_wf h
    have hv : v % 256 ^ (k + 1) = v % 256 + 256 * (v / 256 % 256 ^ k) := by rw [pow_succ, mul_comm, Nat.mod_mul]
    rw [hv, wrBytes, rdBytes, ih hs, wrBytes_other k hs (by omega), get_set_same h, BitVec.toNat_ofNat]

/-- The memory right after reset is canonical, and lists nothing. -/
theorem reset_mem_wf : Memory.wf State.reset.mem = true := rfl

/-- The canonical form of memory and of the marks of its blocks and words (R412). -/
structure StoreWf (s : State) : Prop where
  mem : Memory.wf s.mem = true
  blocks : Sparse.wf s.memPoison = true
  words : Sparse.wf s.wordPoison = true

variable {s : State}

/-- A physical write keeps the canonical forms. -/
theorem wrBy_wf {key k v : Nat} {a : Option Author} (h : StoreWf s) : StoreWf (s.wrBy key k v a) :=
  ⟨wrBytes_wf k h.mem, poisonAfter_wf h.blocks, poisonAfter_wf h.words⟩

theorem wr_wf {key k v : Nat} (h : StoreWf s) : StoreWf (s.wr key k v) := wrBy_wf h

theorem wrL_wf {key : Nat} {bs : List Byte} (h : StoreWf s) : StoreWf (s.wrL key bs) :=
  ⟨wrList_wf h.mem, poisonAfter_wf h.blocks, poisonAfter_wf h.words⟩

/-- A cell of a store keeps the canonical forms (R194). -/
theorem applyCell_wf {o : Op} {c : Cellw} (h : StoreWf s) : StoreWf (State.applyCell o s c) := by
  unfold State.applyCell
  dsimp only
  split
  · exact wrBy_wf h
  · exact ⟨wrBytes_wf _ h.mem, h.blocks, h.words⟩

/-- Cells accepted as one unit keep the canonical forms (R194, R412). -/
theorem applyCells_wf {o : Op} {cs : List Cellw} (h : StoreWf s) : StoreWf (s.applyCells o cs) := by
  have hf : ∀ (l : List Cellw) {s : State}, StoreWf s → StoreWf (l.foldl (State.applyCell o) s) := by
    intro l
    induction l with
    | nil => exact fun h => h
    | cons c l ih => exact fun h => ih (applyCell_wf h)
  exact ⟨(hf cs h).mem, foldl_set_wf (fun _ _ => set_wf) _ (hf cs h).blocks, foldl_set_wf (fun _ _ => set_wf) _ (hf cs h).words⟩

/-- Bytes written with their marks keep the canonical forms (R280, R412). -/
theorem wrMarked_wf {key : Nat} {bs : List (Byte × Bool)} (h : StoreWf s) : StoreWf (s.wrMarked key bs) :=
  ⟨wrList_wf h.mem, foldl_set_wf (fun _ _ => set_wf) _ (poisonAfter_wf h.blocks), poisonAfter_wf h.words⟩

/-- A record of zeros keeps the canonical forms. -/
theorem zeroRange_wf {key k : Nat} (h : StoreWf s) : StoreWf (s.zeroRange key k) := ⟨filter_wf _ h.mem, filter_wf _ h.blocks, filter_wf _ h.words⟩

/-- The loss of power keeps the canonical forms (R416). -/
theorem powerLoss_wf (h : Memory.wf s.mem = true) : StoreWf s.powerLoss := ⟨filter_wf _ h, rfl, rfl⟩

/-- An event record keeps the canonical forms (R414). -/
theorem event_wf {d c a : Nat} {k : EvKind} {x : Bool} (h : StoreWf s) : StoreWf (s.event d c k a x) := by
  have hw : ∀ (key n v : Nat) (x : EvRing), StoreWf { s.wr key n v with ev := x } := fun key n v x =>
    ⟨wrBytes_wf n h.mem, poisonAfter_wf h.blocks, poisonAfter_wf h.words⟩
  unfold State.event
  extract_lets
  split
  · exact ⟨h.mem, h.blocks, h.words⟩
  · split
    · exact hw _ _ _ _
    · exact h

end Sys2Proof.Laws
end

