-- ==== Sys2Proof/Laws/PerInstr.lean ====
section
/-! SUPPORT. Decoding undoes encoding, one lemma per constructor of Instr. -/
namespace Sys2Proof.Laws.RoundTrip

/-- R49 to R68: the parcels of a well-formed instruction that a word names decode to it, in every program that takes it. -/
def Statement (i : Instr) : Prop :=
  ∀ e : Engine, i.isWord = true → i.WellFormed → i.takenBy e = true → decode e (encode i) = .ok i

/-- The round trip of nop_16. -/
theorem nop_16 (o : OpC16) : Statement (.nop_16 o) := by
  intro e _ wf ht
  obtain ⟨w, hw⟩ : ∃ w, w = 0 + putC16 o := ⟨_, rfl⟩
  have h := of_decide_eq_true (check_last wf (l := []) rfl)
  obtain ⟨h1, h2, h3, m0, f1, f2, hg⟩ := compact_row (v := 0) (o := o) (by decide) hw (.inr (.inl (ne_num h.2)))
  exact compact_agrees hw.symm ht rfl h1 h2 (by unfold decodeCompact; rw [if_neg h3, m0]; exact (if_pos (f1.trans ((congrArg BitVec.toNat h.1).trans f2.symm))).trans (congrArg _ (congrArg _ hg)))

/-- The round trip of mov_16. -/
theorem mov_16 (o : OpC16) : Statement (.mov_16 o) := by
  intro e _ wf ht
  obtain ⟨w, hw⟩ : ∃ w, w = 0 + putC16 o := ⟨_, rfl⟩
  have h := of_decide_eq_true (check_last wf (l := []) rfl)
  have h0 : (0 : Nat) ≠ 0 ∨ o.vd.toNat ≠ 0 ∨ o.vs.toNat ≠ 0 := by
    have := ne_num h
    omega
  obtain ⟨h1, h2, h3, m0, f1, f2, hg⟩ := compact_row (v := 0) (o := o) (by decide) hw h0
  exact compact_agrees hw.symm ht rfl h1 h2 (by unfold decodeCompact; rw [if_neg h3, m0]; exact (if_neg (fun k => ne_num h (f1.symm.trans (k.trans f2)))).trans (congrArg _ (congrArg _ hg)))

/-- The round trip of iaddI32_16. -/
theorem iaddI32_16 (o : OpC16) : Statement (.iaddI32_16 o) := by
  intro e _ wf ht
  obtain ⟨w, hw⟩ : ∃ w, w = 2 + putC16 o := ⟨_, rfl⟩
  obtain ⟨h1, h2, h3, m0, _, _, hg⟩ := compact_row (v := 1) (o := o) (by decide) hw (.inl (by decide))
  exact compact_agrees hw.symm ht rfl h1 h2 (by unfold decodeCompact; rw [if_neg h3, m0]; exact congrArg _ (congrArg _ hg))

/-- The round trip of isubI32_16. -/
theorem isubI32_16 (o : OpC16) : Statement (.isubI32_16 o) := by
  intro e _ wf ht
  obtain ⟨w, hw⟩ : ∃ w, w = 4 + putC16 o := ⟨_, rfl⟩
  obtain ⟨h1, h2, h3, m0, _, _, hg⟩ := compact_row (v := 2) (o := o) (by decide) hw (.inl (by decide))
  exact compact_agrees hw.symm ht rfl h1 h2 (by unfold decodeCompact; rw [if_neg h3, m0]; exact congrArg _ (congrArg _ hg))

/-- The round trip of and_16. -/
theorem and_16 (o : OpC16) : Statement (.and_16 o) := by
  intro e _ wf ht
  obtain ⟨w, hw⟩ : ∃ w, w = 6 + putC16 o := ⟨_, rfl⟩
  obtain ⟨h1, h2, h3, m0, _, _, hg⟩ := compact_row (v := 3) (o := o) (by decide) hw (.inl (by decide))
  exact compact_agrees hw.symm ht rfl h1 h2 (by unfold decodeCompact; rw [if_neg h3, m0]; exact congrArg _ (congrArg _ hg))

/-- The round trip of or_16. -/
theorem or_16 (o : OpC16) : Statement (.or_16 o) := by
  intro e _ wf ht
  obtain ⟨w, hw⟩ : ∃ w, w = 8 + putC16 o := ⟨_, rfl⟩
  obtain ⟨h1, h2, h3, m0, _, _, hg⟩ := compact_row (v := 4) (o := o) (by decide) hw (.inl (by decide))
  exact compact_agrees hw.symm ht rfl h1 h2 (by unfold decodeCompact; rw [if_neg h3, m0]; exact congrArg _ (congrArg _ hg))

/-- The round trip of xor_16. -/
theorem xor_16 (o : OpC16) : Statement (.xor_16 o) := by
  intro e _ wf ht
  obtain ⟨w, hw⟩ : ∃ w, w = 10 + putC16 o := ⟨_, rfl⟩
  obtain ⟨h1, h2, h3, m0, _, _, hg⟩ := compact_row (v := 5) (o := o) (by decide) hw (.inl (by decide))
  exact compact_agrees hw.symm ht rfl h1 h2 (by unfold decodeCompact; rw [if_neg h3, m0]; exact congrArg _ (congrArg _ hg))

/-- The round trip of shl_16. -/
theorem shl_16 (o : OpC16) : Statement (.shl_16 o) := by
  intro e _ wf ht
  obtain ⟨w, hw⟩ : ∃ w, w = 12 + putC16 o := ⟨_, rfl⟩
  obtain ⟨h1, h2, h3, m0, _, _, hg⟩ := compact_row (v := 6) (o := o) (by decide) hw (.inl (by decide))
  exact compact_agrees hw.symm ht rfl h1 h2 (by unfold decodeCompact; rw [if_neg h3, m0]; exact congrArg _ (congrArg _ hg))

/-- The round trip of shrUi32_16. -/
theorem shrUi32_16 (o : OpC16) : Statement (.shrUi32_16 o) := by
  intro e _ wf ht
  obtain ⟨w, hw⟩ : ∃ w, w = 14 + putC16 o := ⟨_, rfl⟩
  obtain ⟨h1, h2, h3, m0, _, _, hg⟩ := compact_row (v := 7) (o := o) (by decide) hw (.inl (by decide))
  exact compact_agrees hw.symm ht rfl h1 h2 (by unfold decodeCompact; rw [if_neg h3, m0]; exact congrArg _ (congrArg _ hg))

/-- The round trip of shrI32_16. -/
theorem shrI32_16 (o : OpC16) : Statement (.shrI32_16 o) := by
  intro e _ wf ht
  obtain ⟨w, hw⟩ : ∃ w, w = 16 + putC16 o := ⟨_, rfl⟩
  obtain ⟨h1, h2, h3, m0, _, _, hg⟩ := compact_row (v := 8) (o := o) (by decide) hw (.inl (by decide))
  exact compact_agrees hw.symm ht rfl h1 h2 (by unfold decodeCompact; rw [if_neg h3, m0]; exact congrArg _ (congrArg _ hg))

/-- The round trip of iminI32_16. -/
theorem iminI32_16 (o : OpC16) : Statement (.iminI32_16 o) := by
  intro e _ wf ht
  obtain ⟨w, hw⟩ : ∃ w, w = 18 + putC16 o := ⟨_, rfl⟩
  obtain ⟨h1, h2, h3, m0, _, _, hg⟩ := compact_row (v := 9) (o := o) (by decide) hw (.inl (by decide))
  exact compact_agrees hw.symm ht rfl h1 h2 (by unfold decodeCompact; rw [if_neg h3, m0]; exact congrArg _ (congrArg _ hg))

/-- The round trip of imaxI32_16. -/
theorem imaxI32_16 (o : OpC16) : Statement (.imaxI32_16 o) := by
  intro e _ wf ht
  obtain ⟨w, hw⟩ : ∃ w, w = 20 + putC16 o := ⟨_, rfl⟩
  obtain ⟨h1, h2, h3, m0, _, _, hg⟩ := compact_row (v := 10) (o := o) (by decide) hw (.inl (by decide))
  exact compact_agrees hw.symm ht rfl h1 h2 (by unfold decodeCompact; rw [if_neg h3, m0]; exact congrArg _ (congrArg _ hg))

/-- The round trip of faddF32_16. -/
theorem faddF32_16 (o : OpC16) : Statement (.faddF32_16 o) := by
  intro e _ wf ht
  obtain ⟨w, hw⟩ : ∃ w, w = 22 + putC16 o := ⟨_, rfl⟩
  obtain ⟨h1, h2, h3, m0, _, _, hg⟩ := compact_row (v := 11) (o := o) (by decide) hw (.inl (by decide))
  exact compact_agrees hw.symm ht rfl h1 h2 (by unfold decodeCompact; rw [if_neg h3, m0]; exact congrArg _ (congrArg _ hg))

/-- The round trip of fsubF32_16. -/
theorem fsubF32_16 (o : OpC16) : Statement (.fsubF32_16 o) := by
  intro e _ wf ht
  obtain ⟨w, hw⟩ : ∃ w, w = 24 + putC16 o := ⟨_, rfl⟩
  obtain ⟨h1, h2, h3, m0, _, _, hg⟩ := compact_row (v := 12) (o := o) (by decide) hw (.inl (by decide))
  exact compact_agrees hw.symm ht rfl h1 h2 (by unfold decodeCompact; rw [if_neg h3, m0]; exact congrArg _ (congrArg _ hg))

/-- The round trip of fmulF32_16. -/
theorem fmulF32_16 (o : OpC16) : Statement (.fmulF32_16 o) := by
  intro e _ wf ht
  obtain ⟨w, hw⟩ : ∃ w, w = 26 + putC16 o := ⟨_, rfl⟩
  obtain ⟨h1, h2, h3, m0, _, _, hg⟩ := compact_row (v := 13) (o := o) (by decide) hw (.inl (by decide))
  exact compact_agrees hw.symm ht rfl h1 h2 (by unfold decodeCompact; rw [if_neg h3, m0]; exact congrArg _ (congrArg _ hg))

/-- The round trip of fminF32_16. -/
theorem fminF32_16 (o : OpC16) : Statement (.fminF32_16 o) := by
  intro e _ wf ht
  obtain ⟨w, hw⟩ : ∃ w, w = 28 + putC16 o := ⟨_, rfl⟩
  obtain ⟨h1, h2, h3, m0, _, _, hg⟩ := compact_row (v := 14) (o := o) (by decide) hw (.inl (by decide))
  exact compact_agrees hw.symm ht rfl h1 h2 (by unfold decodeCompact; rw [if_neg h3, m0]; exact congrArg _ (congrArg _ hg))

/-- The round trip of fmaxF32_16. -/
theorem fmaxF32_16 (o : OpC16) : Statement (.fmaxF32_16 o) := by
  intro e _ wf ht
  obtain ⟨w, hw⟩ : ∃ w, w = 30 + putC16 o := ⟨_, rfl⟩
  obtain ⟨h1, h2, h3, m0, _, _, hg⟩ := compact_row (v := 15) (o := o) (by decide) hw (.inl (by decide))
  exact compact_agrees hw.symm ht rfl h1 h2 (by unfold decodeCompact; rw [if_neg h3, m0]; exact congrArg _ (congrArg _ hg))

/-- The round trip of iaddI32. -/
theorem iaddI32 (o : OpV3) : Statement (.iaddI32 o) := by
  intro e _ wf ht
  obtain ⟨w, hw⟩ : ∃ w, w = 0x3 + putV3 o := ⟨_, rfl⟩
  obtain ⟨h1, h2, m0, c0, hg⟩ := row2 (v0 := 1) (o := o) (by decide) (c := 0x3) rfl hw
  exact word_agrees hw.symm wf ht rfl h1 h2 m0 (by decide) (fun _ => pfx_takes m0 (by decide)) (fun h => (Bool.false_ne_true h).elim)
    ((decodeBase_int m0 (by decide)).trans (by unfold decodeInt; rw [m0]; exact (if_neg c0).trans (raw_ok (congrArg _ hg) rfl)))

/-- The round trip of iaddI32Sat. -/
theorem iaddI32Sat (o : OpV3) : Statement (.iaddI32Sat o) := by
  intro e _ wf ht
  obtain ⟨w, hw⟩ : ∃ w, w = 0x80000003 + putV3 o := ⟨_, rfl⟩
  obtain ⟨h1, h2, m0, c0, hg⟩ := row1 (v0 := 1) (o := o) (by decide) (c := 0x80000003) rfl hw
  exact word_agrees hw.symm wf ht rfl h1 h2 m0 (by decide) (fun _ => pfx_takes m0 (by decide)) (fun h => (Bool.false_ne_true h).elim)
    ((decodeBase_int m0 (by decide)).trans (by unfold decodeInt; rw [m0]; exact (if_pos c0).trans (raw_ok (congrArg _ hg) rfl)))

/-- The round trip of isubI32. -/
theorem isubI32 (o : OpV3) : Statement (.isubI32 o) := by
  intro e _ wf ht
  obtain ⟨w, hw⟩ : ∃ w, w = 0x5 + putV3 o := ⟨_, rfl⟩
  obtain ⟨h1, h2, m0, c0, hg⟩ := row2 (v0 := 2) (o := o) (by decide) (c := 0x5) rfl hw
  exact word_agrees hw.symm wf ht rfl h1 h2 m0 (by decide) (fun _ => pfx_takes m0 (by decide)) (fun h => (Bool.false_ne_true h).elim)
    ((decodeBase_int m0 (by decide)).trans (by unfold decodeInt; rw [m0]; exact (if_neg c0).trans (raw_ok (congrArg _ hg) rfl)))

/-- The round trip of isubI32Sat. -/
theorem isubI32Sat (o : OpV3) : Statement (.isubI32Sat o) := by
  intro e _ wf ht
  obtain ⟨w, hw⟩ : ∃ w, w = 0x80000005 + putV3 o := ⟨_, rfl⟩
  obtain ⟨h1, h2, m0, c0, hg⟩ := row1 (v0 := 2) (o := o) (by decide) (c := 0x80000005) rfl hw
  exact word_agrees hw.symm wf ht rfl h1 h2 m0 (by decide) (fun _ => pfx_takes m0 (by decide)) (fun h => (Bool.false_ne_true h).elim)
    ((decodeBase_int m0 (by decide)).trans (by unfold decodeInt; rw [m0]; exact (if_pos c0).trans (raw_ok (congrArg _ hg) rfl)))

/-- The round trip of imulI32. -/
theorem imulI32 (o : OpV3) : Statement (.imulI32 o) := by
  intro e _ wf ht
  obtain ⟨w, hw⟩ : ∃ w, w = 0x7 + putV3 o := ⟨_, rfl⟩
  obtain ⟨h1, h2, m0, c0, hg⟩ := row2 (v0 := 3) (o := o) (by decide) (c := 0x7) rfl hw
  exact word_agrees hw.symm wf ht rfl h1 h2 m0 (by decide) (fun _ => pfx_takes m0 (by decide)) (fun h => (Bool.false_ne_true h).elim)
    ((decodeBase_int m0 (by decide)).trans (by unfold decodeInt; rw [m0]; exact (if_neg c0).trans (raw_ok (congrArg _ hg) rfl)))

/-- The round trip of imulhI32. -/
theorem imulhI32 (o : OpV3) : Statement (.imulhI32 o) := by
  intro e _ wf ht
  obtain ⟨w, hw⟩ : ∃ w, w = 0x80000007 + putV3 o := ⟨_, rfl⟩
  obtain ⟨h1, h2, m0, c0, hg⟩ := row1 (v0 := 3) (o := o) (by decide) (c := 0x80000007) rfl hw
  exact word_agrees hw.symm wf ht rfl h1 h2 m0 (by decide) (fun _ => pfx_takes m0 (by decide)) (fun h => (Bool.false_ne_true h).elim)
    ((decodeBase_int m0 (by decide)).trans (by unfold decodeInt; rw [m0]; exact (if_pos c0).trans (raw_ok (congrArg _ hg) rfl)))

/-- The round trip of imadI32. -/
theorem imadI32 (o : OpV3) : Statement (.imadI32 o) := by
  intro e _ wf ht
  obtain ⟨w, hw⟩ : ∃ w, w = 0x9 + putV3 o := ⟨_, rfl⟩
  obtain ⟨h1, h2, m0, c0, hg⟩ := row2 (v0 := 4) (o := o) (by decide) (c := 0x9) rfl hw
  exact word_agrees hw.symm wf ht rfl h1 h2 m0 (by decide) (fun _ => pfx_takes m0 (by decide)) (fun h => (Bool.false_ne_true h).elim)
    ((decodeBase_int m0 (by decide)).trans (by unfold decodeInt; rw [m0]; exact (if_neg c0).trans (raw_ok (congrArg _ hg) rfl)))

/-- The round trip of imadI32Vc. -/
theorem imadI32Vc (o : OpV3) : Statement (.imadI32Vc o) := by
  intro e _ wf ht
  obtain ⟨w, hw⟩ : ∃ w, w = 0x80000009 + putV3 o := ⟨_, rfl⟩
  obtain ⟨h1, h2, m0, c0, hg⟩ := row1 (v0 := 4) (o := o) (by decide) (c := 0x80000009) rfl hw
  exact word_agrees hw.symm wf ht rfl h1 h2 m0 (by decide) (fun _ => pfx_takes m0 (by decide)) (fun h => (Bool.false_ne_true h).elim)
    ((decodeBase_int m0 (by decide)).trans (by unfold decodeInt; rw [m0]; exact (if_pos c0).trans (raw_ok (congrArg _ hg) rfl)))

/-- The round trip of iminI32. -/
theorem iminI32 (o : OpV3) : Statement (.iminI32 o) := by
  intro e _ wf ht
  obtain ⟨w, hw⟩ : ∃ w, w = 0xB + putV3 o := ⟨_, rfl⟩
  obtain ⟨h1, h2, m0, c0, hg⟩ := row2 (v0 := 5) (o := o) (by decide) (c := 0xB) rfl hw
  exact word_agrees hw.symm wf ht rfl h1 h2 m0 (by decide) (fun _ => pfx_takes m0 (by decide)) (fun h => (Bool.false_ne_true h).elim)
    ((decodeBase_int m0 (by decide)).trans (by unfold decodeInt; rw [m0]; exact (if_neg c0).trans (raw_ok (congrArg _ hg) rfl)))

/-- The round trip of iminUi32. -/
theorem iminUi32 (o : OpV3) : Statement (.iminUi32 o) := by
  intro e _ wf ht
  obtain ⟨w, hw⟩ : ∃ w, w = 0x8000000B + putV3 o := ⟨_, rfl⟩
  obtain ⟨h1, h2, m0, c0, hg⟩ := row1 (v0 := 5) (o := o) (by decide) (c := 0x8000000B) rfl hw
  exact word_agrees hw.symm wf ht rfl h1 h2 m0 (by decide) (fun _ => pfx_takes m0 (by decide)) (fun h => (Bool.false_ne_true h).elim)
    ((decodeBase_int m0 (by decide)).trans (by unfold decodeInt; rw [m0]; exact (if_pos c0).trans (raw_ok (congrArg _ hg) rfl)))

/-- The round trip of imaxI32. -/
theorem imaxI32 (o : OpV3) : Statement (.imaxI32 o) := by
  intro e _ wf ht
  obtain ⟨w, hw⟩ : ∃ w, w = 0xD + putV3 o := ⟨_, rfl⟩
  obtain ⟨h1, h2, m0, c0, hg⟩ := row2 (v0 := 6) (o := o) (by decide) (c := 0xD) rfl hw
  exact word_agrees hw.symm wf ht rfl h1 h2 m0 (by decide) (fun _ => pfx_takes m0 (by decide)) (fun h => (Bool.false_ne_true h).elim)
    ((decodeBase_int m0 (by decide)).trans (by unfold decodeInt; rw [m0]; exact (if_neg c0).trans (raw_ok (congrArg _ hg) rfl)))

/-- The round trip of imaxUi32. -/
theorem imaxUi32 (o : OpV3) : Statement (.imaxUi32 o) := by
  intro e _ wf ht
  obtain ⟨w, hw⟩ : ∃ w, w = 0x8000000D + putV3 o := ⟨_, rfl⟩
  obtain ⟨h1, h2, m0, c0, hg⟩ := row1 (v0 := 6) (o := o) (by decide) (c := 0x8000000D) rfl hw
  exact word_agrees hw.symm wf ht rfl h1 h2 m0 (by decide) (fun _ => pfx_takes m0 (by decide)) (fun h => (Bool.false_ne_true h).elim)
    ((decodeBase_int m0 (by decide)).trans (by unfold decodeInt; rw [m0]; exact (if_pos c0).trans (raw_ok (congrArg _ hg) rfl)))

/-- The round trip of and. -/
theorem and (o : OpV3) : Statement (.and o) := by
  intro e _ wf ht
  obtain ⟨w, hw⟩ : ∃ w, w = 0xF + putV3 o := ⟨_, rfl⟩
  obtain ⟨h1, h2, m0, c0, hg⟩ := row3 (v0 := 7) (o := o) (by decide) (c := 0xF) rfl hw
  exact word_agrees hw.symm wf ht rfl h1 h2 m0 (by decide) (fun _ => pfx_takes m0 (by decide)) (fun h => (Bool.false_ne_true h).elim)
    ((decodeBase_int m0 (by decide)).trans (by unfold decodeInt; rw [m0]; exact (if_pos c0).trans (raw_ok (congrArg _ hg) rfl)))

/-- The round trip of or. -/
theorem or (o : OpV3) : Statement (.or o) := by
  intro e _ wf ht
  obtain ⟨w, hw⟩ : ∃ w, w = 0x11 + putV3 o := ⟨_, rfl⟩
  obtain ⟨h1, h2, m0, c0, hg⟩ := row3 (v0 := 8) (o := o) (by decide) (c := 0x11) rfl hw
  exact word_agrees hw.symm wf ht rfl h1 h2 m0 (by decide) (fun _ => pfx_takes m0 (by decide)) (fun h => (Bool.false_ne_true h).elim)
    ((decodeBase_int m0 (by decide)).trans (by unfold decodeInt; rw [m0]; exact (if_pos c0).trans (raw_ok (congrArg _ hg) rfl)))

/-- The round trip of xor. -/
theorem xor (o : OpV3) : Statement (.xor o) := by
  intro e _ wf ht
  obtain ⟨w, hw⟩ : ∃ w, w = 0x13 + putV3 o := ⟨_, rfl⟩
  obtain ⟨h1, h2, m0, c0, hg⟩ := row3 (v0 := 9) (o := o) (by decide) (c := 0x13) rfl hw
  exact word_agrees hw.symm wf ht rfl h1 h2 m0 (by decide) (fun _ => pfx_takes m0 (by decide)) (fun h => (Bool.false_ne_true h).elim)
    ((decodeBase_int m0 (by decide)).trans (by unfold decodeInt; rw [m0]; exact (if_pos c0).trans (raw_ok (congrArg _ hg) rfl)))

/-- The round trip of shl. -/
theorem shl (o : OpV3) : Statement (.shl o) := by
  intro e _ wf ht
  obtain ⟨w, hw⟩ : ∃ w, w = 0x15 + putV3 o := ⟨_, rfl⟩
  obtain ⟨h1, h2, m0, c0, hg⟩ := row3 (v0 := 10) (o := o) (by decide) (c := 0x15) rfl hw
  exact word_agrees hw.symm wf ht rfl h1 h2 m0 (by decide) (fun _ => pfx_takes m0 (by decide)) (fun h => (Bool.false_ne_true h).elim)
    ((decodeBase_int m0 (by decide)).trans (by unfold decodeInt; rw [m0]; exact (if_pos c0).trans (raw_ok (congrArg _ hg) rfl)))

/-- The round trip of shrUi32. -/
theorem shrUi32 (o : OpV3) : Statement (.shrUi32 o) := by
  intro e _ wf ht
  obtain ⟨w, hw⟩ : ∃ w, w = 0x17 + putV3 o := ⟨_, rfl⟩
  obtain ⟨h1, h2, m0, c0, hg⟩ := row2 (v0 := 11) (o := o) (by decide) (c := 0x17) rfl hw
  exact word_agrees hw.symm wf ht rfl h1 h2 m0 (by decide) (fun _ => pfx_takes m0 (by decide)) (fun h => (Bool.false_ne_true h).elim)
    ((decodeBase_int m0 (by decide)).trans (by unfold decodeInt; rw [m0]; exact (if_neg c0).trans (raw_ok (congrArg _ hg) rfl)))

/-- The round trip of shrI32. -/
theorem shrI32 (o : OpV3) : Statement (.shrI32 o) := by
  intro e _ wf ht
  obtain ⟨w, hw⟩ : ∃ w, w = 0x80000017 + putV3 o := ⟨_, rfl⟩
  obtain ⟨h1, h2, m0, c0, hg⟩ := row1 (v0 := 11) (o := o) (by decide) (c := 0x80000017) rfl hw
  exact word_agrees hw.symm wf ht rfl h1 h2 m0 (by decide) (fun _ => pfx_takes m0 (by decide)) (fun h => (Bool.false_ne_true h).elim)
    ((decodeBase_int m0 (by decide)).trans (by unfold decodeInt; rw [m0]; exact (if_pos c0).trans (raw_ok (congrArg _ hg) rfl)))

/-- The round trip of sel. -/
theorem sel (o : OpV3) : Statement (.sel o) := by
  intro e _ wf ht
  obtain ⟨w, hw⟩ : ∃ w, w = 0x19 + putV3 o := ⟨_, rfl⟩
  obtain ⟨h1, h2, m0, c0, hg⟩ := row3 (v0 := 12) (o := o) (by decide) (c := 0x19) rfl hw
  exact word_agrees hw.symm wf ht rfl h1 h2 m0 (by decide) (fun _ => pfx_takes m0 (by decide)) (fun h => (Bool.false_ne_true h).elim)
    ((decodeBase_int m0 (by decide)).trans (by unfold decodeInt; rw [m0]; exact (if_pos c0).trans (raw_ok (congrArg _ hg) rfl)))

/-- The round trip of mov. -/
theorem mov (o : OpVMov) : Statement (.mov o) := by
  intro e _ wf ht
  obtain ⟨w, hw⟩ : ∃ w, w = 0x1B + putVMov o := ⟨_, rfl⟩
  obtain ⟨h1, h2, m0, c0, hz, hg⟩ := row5 (v0 := 13) (o := o) (by decide) (c := 0x1B) rfl hw
  exact word_agrees hw.symm wf ht rfl h1 h2 m0 (by decide) (fun _ => pfx_takes m0 (by decide)) (fun h => (Bool.false_ne_true h).elim)
    ((decodeBase_int m0 (by decide)).trans (by unfold decodeInt; rw [m0]; exact (if_neg c0).trans (raw_ok (congrArg _ hg) hz)))

/-- The round trip of movLane. -/
theorem movLane (o : OpV1) : Statement (.movLane o) := by
  intro e _ wf ht
  obtain ⟨w, hw⟩ : ∃ w, w = 0x8000001B + putV1 o := ⟨_, rfl⟩
  obtain ⟨h1, h2, m0, c0, hz, hg⟩ := row4 (v0 := 13) (o := o) (by decide) (c := 0x8000001B) rfl hw
  exact word_agrees hw.symm wf ht rfl h1 h2 m0 (by decide) (fun _ => pfx_takes m0 (by decide)) (fun h => (Bool.false_ne_true h).elim)
    ((decodeBase_int m0 (by decide)).trans (by unfold decodeInt; rw [m0]; exact (if_pos c0).trans (raw_ok (congrArg _ hg) hz)))

/-- The round trip of clz. -/
theorem clz (o : OpV2) : Statement (.clz o) := by
  intro e _ wf ht
  obtain ⟨w, hw⟩ : ∃ w, w = 0x1D + putV2 o := ⟨_, rfl⟩
  obtain ⟨h1, h2, m0, c0, hz, hg⟩ := row7 (v0 := 14) (o := o) (by decide) (c := 0x1D) rfl hw
  exact word_agrees hw.symm wf ht rfl h1 h2 m0 (by decide) (fun _ => pfx_takes m0 (by decide)) (fun h => (Bool.false_ne_true h).elim)
    ((decodeBase_int m0 (by decide)).trans (by unfold decodeInt; rw [m0]; exact (if_neg c0).trans (raw_ok (congrArg _ hg) hz)))

/-- The round trip of popc. -/
theorem popc (o : OpV2) : Statement (.popc o) := by
  intro e _ wf ht
  obtain ⟨w, hw⟩ : ∃ w, w = 0x8000001D + putV2 o := ⟨_, rfl⟩
  obtain ⟨h1, h2, m0, c0, hz, hg⟩ := row6 (v0 := 14) (o := o) (by decide) (c := 0x8000001D) rfl hw
  exact word_agrees hw.symm wf ht rfl h1 h2 m0 (by decide) (fun _ => pfx_takes m0 (by decide)) (fun h => (Bool.false_ne_true h).elim)
    ((decodeBase_int m0 (by decide)).trans (by unfold decodeInt; rw [m0]; exact (if_pos c0).trans (raw_ok (congrArg _ hg) hz)))

/-- The round trip of icmpI32. -/
theorem icmpI32 (o : OpVCmp) : Statement (.icmpI32 o) := by
  intro e _ wf ht
  obtain ⟨w, hw⟩ : ∃ w, w = 0x1F + putVCmp o := ⟨_, rfl⟩
  obtain ⟨h1, h2, m0, c0, hz, hg⟩ := row9 (v0 := 15) (o := o) (by decide) (c := 0x1F) rfl hw
  exact word_agrees hw.symm wf ht rfl h1 h2 m0 (by decide) (fun _ => pfx_takes m0 (by decide)) (fun h => (Bool.false_ne_true h).elim)
    ((decodeBase_int m0 (by decide)).trans (by unfold decodeInt; rw [m0]; exact (if_neg c0).trans (raw_ok (congrArg _ hg) hz)))

/-- The round trip of icmpUi32. -/
theorem icmpUi32 (o : OpVCmp) : Statement (.icmpUi32 o) := by
  intro e _ wf ht
  obtain ⟨w, hw⟩ : ∃ w, w = 0x8000001F + putVCmp o := ⟨_, rfl⟩
  obtain ⟨h1, h2, m0, c0, hz, hg⟩ := row8 (v0 := 15) (o := o) (by decide) (c := 0x8000001F) rfl hw
  exact word_agrees hw.symm wf ht rfl h1 h2 m0 (by decide) (fun _ => pfx_takes m0 (by decide)) (fun h => (Bool.false_ne_true h).elim)
    ((decodeBase_int m0 (by decide)).trans (by unfold decodeInt; rw [m0]; exact (if_pos c0).trans (raw_ok (congrArg _ hg) hz)))

/-- The round trip of iaddi. -/
theorem iaddi (o : OpVI) : Statement (.iaddi o) := by
  intro e _ wf ht
  obtain ⟨w, hw⟩ : ∃ w, w = 0x21 + putVI o := ⟨_, rfl⟩
  obtain ⟨h1, h2, m0, hg⟩ := row10 (v0 := 16) (o := o) (by decide) (c := 0x21) rfl hw
  exact word_agrees hw.symm wf ht rfl h1 h2 m0 (by decide) (fun _ => pfx_takes m0 (by decide)) (fun _ => lim_takes m0 (by decide))
    ((decodeBase_int m0 (by decide)).trans (by unfold decodeInt; rw [m0]; exact raw_ok (congrArg _ hg) rfl))

/-- The round trip of andi. -/
theorem andi (o : OpVI) : Statement (.andi o) := by
  intro e _ wf ht
  obtain ⟨w, hw⟩ : ∃ w, w = 0x23 + putVI o := ⟨_, rfl⟩
  obtain ⟨h1, h2, m0, hg⟩ := row10 (v0 := 17) (o := o) (by decide) (c := 0x23) rfl hw
  exact word_agrees hw.symm wf ht rfl h1 h2 m0 (by decide) (fun _ => pfx_takes m0 (by decide)) (fun _ => lim_takes m0 (by decide))
    ((decodeBase_int m0 (by decide)).trans (by unfold decodeInt; rw [m0]; exact raw_ok (congrArg _ hg) rfl))

/-- The round trip of ori. -/
theorem ori (o : OpVI) : Statement (.ori o) := by
  intro e _ wf ht
  obtain ⟨w, hw⟩ : ∃ w, w = 0x25 + putVI o := ⟨_, rfl⟩
  obtain ⟨h1, h2, m0, hg⟩ := row10 (v0 := 18) (o := o) (by decide) (c := 0x25) rfl hw
  exact word_agrees hw.symm wf ht rfl h1 h2 m0 (by decide) (fun _ => pfx_takes m0 (by decide)) (fun _ => lim_takes m0 (by decide))
    ((decodeBase_int m0 (by decide)).trans (by unfold decodeInt; rw [m0]; exact raw_ok (congrArg _ hg) rfl))

/-- The round trip of xori. -/
theorem xori (o : OpVI) : Statement (.xori o) := by
  intro e _ wf ht
  obtain ⟨w, hw⟩ : ∃ w, w = 0x27 + putVI o := ⟨_, rfl⟩
  obtain ⟨h1, h2, m0, hg⟩ := row10 (v0 := 19) (o := o) (by decide) (c := 0x27) rfl hw
  exact word_agrees hw.symm wf ht rfl h1 h2 m0 (by decide) (fun _ => pfx_takes m0 (by decide)) (fun _ => lim_takes m0 (by decide))
    ((decodeBase_int m0 (by decide)).trans (by unfold decodeInt; rw [m0]; exact raw_ok (congrArg _ hg) rfl))

/-- The round trip of shli. -/
theorem shli (o : OpVI) : Statement (.shli o) := by
  intro e _ wf ht
  obtain ⟨w, hw⟩ : ∃ w, w = 0x29 + putVI o := ⟨_, rfl⟩
  obtain ⟨h1, h2, m0, hg⟩ := row10 (v0 := 20) (o := o) (by decide) (c := 0x29) rfl hw
  exact word_agrees hw.symm wf ht rfl h1 h2 m0 (by decide) (fun _ => pfx_takes m0 (by decide)) (fun _ => lim_takes m0 (by decide))
    ((decodeBase_int m0 (by decide)).trans (by unfold decodeInt; rw [m0]; exact raw_ok (congrArg _ hg) rfl))

/-- The round trip of shri. -/
theorem shri (o : OpVI) : Statement (.shri o) := by
  intro e _ wf ht
  obtain ⟨w, hw⟩ : ∃ w, w = 0x2B + putVI o := ⟨_, rfl⟩
  have hx : bitAt o.imm9.toNat 5 = false := by
    have h := check_last wf (l := [_, _, _]) rfl
    simpa using h
  obtain ⟨h1, h2, m0, c0, hg⟩ := row12 (v0 := 21) (o := o) (by decide) hx (c := 0x2B) rfl hw
  exact word_agrees hw.symm wf ht rfl h1 h2 m0 (by decide) (fun _ => pfx_takes m0 (by decide)) (fun _ => lim_takes m0 (by decide))
    ((decodeBase_int m0 (by decide)).trans (by unfold decodeInt; rw [m0]; exact (if_neg c0).trans (raw_ok (congrArg _ hg) rfl)))

/-- The round trip of shriA. -/
theorem shriA (o : OpVI) : Statement (.shriA o) := by
  intro e _ wf ht
  obtain ⟨w, hw⟩ : ∃ w, w = 0x2B + putVI o := ⟨_, rfl⟩
  have hx : bitAt o.imm9.toNat 5 = true := by
    have h := check_last wf (l := [_, _, _]) rfl
    simpa using h
  obtain ⟨h1, h2, m0, c0, hg⟩ := row11 (v0 := 21) (o := o) (by decide) hx (c := 0x2B) rfl hw
  exact word_agrees hw.symm wf ht rfl h1 h2 m0 (by decide) (fun _ => pfx_takes m0 (by decide)) (fun _ => lim_takes m0 (by decide))
    ((decodeBase_int m0 (by decide)).trans (by unfold decodeInt; rw [m0]; exact (if_pos c0).trans (raw_ok (congrArg _ hg) rfl)))

/-- The round trip of movi. -/
theorem movi (o : OpVImm) : Statement (.movi o) := by
  intro e _ wf ht
  obtain ⟨w, hw⟩ : ∃ w, w = 0x2D + putVImm o := ⟨_, rfl⟩
  obtain ⟨h1, h2, m0, hz, hg⟩ := row13 (v0 := 22) (o := o) (by decide) (c := 0x2D) rfl hw
  exact word_agrees hw.symm wf ht rfl h1 h2 m0 (by decide) (fun _ => pfx_takes m0 (by decide)) (fun _ => lim_takes m0 (by decide))
    ((decodeBase_int m0 (by decide)).trans (by unfold decodeInt; rw [m0]; exact raw_ok (congrArg _ hg) hz))

/-- The round trip of icmpi. -/
theorem icmpi (o : OpVICmp) : Statement (.icmpi o) := by
  intro e _ wf ht
  obtain ⟨w, hw⟩ : ∃ w, w = 0x2F + putVICmp o := ⟨_, rfl⟩
  obtain ⟨h1, h2, m0, c0, hg⟩ := row15 (v0 := 23) (o := o) (by decide) (c := 0x2F) rfl hw
  exact word_agrees hw.symm wf ht rfl h1 h2 m0 (by decide) (fun _ => pfx_takes m0 (by decide)) (fun _ => lim_takes m0 (by decide))
    ((decodeBase_int m0 (by decide)).trans (by unfold decodeInt; rw [m0]; exact (if_neg c0).trans (raw_ok (congrArg _ hg) rfl)))

/-- The round trip of icmpiU. -/
theorem icmpiU (o : OpVICmp) : Statement (.icmpiU o) := by
  intro e _ wf ht
  obtain ⟨w, hw⟩ : ∃ w, w = 0x402F + putVICmp o := ⟨_, rfl⟩
  obtain ⟨h1, h2, m0, c0, hg⟩ := row14 (v0 := 23) (o := o) (by decide) (c := 0x402F) rfl hw
  exact word_agrees hw.symm wf ht rfl h1 h2 m0 (by decide) (fun _ => pfx_takes m0 (by decide)) (fun _ => lim_takes m0 (by decide))
    ((decodeBase_int m0 (by decide)).trans (by unfold decodeInt; rw [m0]; exact (if_pos c0).trans (raw_ok (congrArg _ hg) rfl)))

/-- The round trip of iaddP16. -/
theorem iaddP16 (o : OpV3) : Statement (.iaddP16 o) := by
  intro e _ wf ht
  obtain ⟨w, hw⟩ : ∃ w, w = 0x31 + putV3 o := ⟨_, rfl⟩
  obtain ⟨h1, h2, m0, c0, hg⟩ := row2 (v0 := 24) (o := o) (by decide) (c := 0x31) rfl hw
  exact word_agrees hw.symm wf ht rfl h1 h2 m0 (by decide) (fun _ => pfx_takes m0 (by decide)) (fun h => (Bool.false_ne_true h).elim)
    ((decodeBase_fp m0 (by decide)).trans (by unfold decodeFp; rw [m0]; exact (if_neg c0).trans (raw_ok (congrArg _ hg) rfl)))

/-- The round trip of iaddP16Sat. -/
theorem iaddP16Sat (o : OpV3) : Statement (.iaddP16Sat o) := by
  intro e _ wf ht
  obtain ⟨w, hw⟩ : ∃ w, w = 0x80000031 + putV3 o := ⟨_, rfl⟩
  obtain ⟨h1, h2, m0, c0, hg⟩ := row1 (v0 := 24) (o := o) (by decide) (c := 0x80000031) rfl hw
  exact word_agrees hw.symm wf ht rfl h1 h2 m0 (by decide) (fun _ => pfx_takes m0 (by decide)) (fun h => (Bool.false_ne_true h).elim)
    ((decodeBase_fp m0 (by decide)).trans (by unfold decodeFp; rw [m0]; exact (if_pos c0).trans (raw_ok (congrArg _ hg) rfl)))

/-- The round trip of isubP16. -/
theorem isubP16 (o : OpV3) : Statement (.isubP16 o) := by
  intro e _ wf ht
  obtain ⟨w, hw⟩ : ∃ w, w = 0x33 + putV3 o := ⟨_, rfl⟩
  obtain ⟨h1, h2, m0, c0, hg⟩ := row2 (v0 := 25) (o := o) (by decide) (c := 0x33) rfl hw
  exact word_agrees hw.symm wf ht rfl h1 h2 m0 (by decide) (fun _ => pfx_takes m0 (by decide)) (fun h => (Bool.false_ne_true h).elim)
    ((decodeBase_fp m0 (by decide)).trans (by unfold decodeFp; rw [m0]; exact (if_neg c0).trans (raw_ok (congrArg _ hg) rfl)))

/-- The round trip of isubP16Sat. -/
theorem isubP16Sat (o : OpV3) : Statement (.isubP16Sat o) := by
  intro e _ wf ht
  obtain ⟨w, hw⟩ : ∃ w, w = 0x80000033 + putV3 o := ⟨_, rfl⟩
  obtain ⟨h1, h2, m0, c0, hg⟩ := row1 (v0 := 25) (o := o) (by decide) (c := 0x80000033) rfl hw
  exact word_agrees hw.symm wf ht rfl h1 h2 m0 (by decide) (fun _ => pfx_takes m0 (by decide)) (fun h => (Bool.false_ne_true h).elim)
    ((decodeBase_fp m0 (by decide)).trans (by unfold decodeFp; rw [m0]; exact (if_pos c0).trans (raw_ok (congrArg _ hg) rfl)))

/-- The round trip of imulP16. -/
theorem imulP16 (o : OpV3) : Statement (.imulP16 o) := by
  intro e _ wf ht
  obtain ⟨w, hw⟩ : ∃ w, w = 0x35 + putV3 o := ⟨_, rfl⟩
  obtain ⟨h1, h2, m0, c0, hg⟩ := row2 (v0 := 26) (o := o) (by decide) (c := 0x35) rfl hw
  exact word_agrees hw.symm wf ht rfl h1 h2 m0 (by decide) (fun _ => pfx_takes m0 (by decide)) (fun h => (Bool.false_ne_true h).elim)
    ((decodeBase_fp m0 (by decide)).trans (by unfold decodeFp; rw [m0]; exact (if_neg c0).trans (raw_ok (congrArg _ hg) rfl)))

/-- The round trip of imulhP16. -/
theorem imulhP16 (o : OpV3) : Statement (.imulhP16 o) := by
  intro e _ wf ht
  obtain ⟨w, hw⟩ : ∃ w, w = 0x80000035 + putV3 o := ⟨_, rfl⟩
  obtain ⟨h1, h2, m0, c0, hg⟩ := row1 (v0 := 26) (o := o) (by decide) (c := 0x80000035) rfl hw
  exact word_agrees hw.symm wf ht rfl h1 h2 m0 (by decide) (fun _ => pfx_takes m0 (by decide)) (fun h => (Bool.false_ne_true h).elim)
    ((decodeBase_fp m0 (by decide)).trans (by unfold decodeFp; rw [m0]; exact (if_pos c0).trans (raw_ok (congrArg _ hg) rfl)))

/-- The round trip of iminP16. -/
theorem iminP16 (o : OpV3) : Statement (.iminP16 o) := by
  intro e _ wf ht
  obtain ⟨w, hw⟩ : ∃ w, w = 0x37 + putV3 o := ⟨_, rfl⟩
  obtain ⟨h1, h2, m0, c0, hg⟩ := row2 (v0 := 27) (o := o) (by decide) (c := 0x37) rfl hw
  exact word_agrees hw.symm wf ht rfl h1 h2 m0 (by decide) (fun _ => pfx_takes m0 (by decide)) (fun h => (Bool.false_ne_true h).elim)
    ((decodeBase_fp m0 (by decide)).trans (by unfold decodeFp; rw [m0]; exact (if_neg c0).trans (raw_ok (congrArg _ hg) rfl)))

/-- The round trip of imaxP16. -/
theorem imaxP16 (o : OpV3) : Statement (.imaxP16 o) := by
  intro e _ wf ht
  obtain ⟨w, hw⟩ : ∃ w, w = 0x80000037 + putV3 o := ⟨_, rfl⟩
  obtain ⟨h1, h2, m0, c0, hg⟩ := row1 (v0 := 27) (o := o) (by decide) (c := 0x80000037) rfl hw
  exact word_agrees hw.symm wf ht rfl h1 h2 m0 (by decide) (fun _ => pfx_takes m0 (by decide)) (fun h => (Bool.false_ne_true h).elim)
    ((decodeBase_fp m0 (by decide)).trans (by unfold decodeFp; rw [m0]; exact (if_pos c0).trans (raw_ok (congrArg _ hg) rfl)))

/-- The round trip of vacsP16. -/
theorem vacsP16 (o : OpV3) : Statement (.vacsP16 o) := by
  intro e _ wf ht
  obtain ⟨w, hw⟩ : ∃ w, w = 0x39 + putV3 o := ⟨_, rfl⟩
  obtain ⟨h1, h2, m0, c0, hg⟩ := row2 (v0 := 28) (o := o) (by decide) (c := 0x39) rfl hw
  exact word_agrees hw.symm wf ht rfl h1 h2 m0 (by decide) (fun _ => pfx_takes m0 (by decide)) (fun h => (Bool.false_ne_true h).elim)
    ((decodeBase_fp m0 (by decide)).trans (by unfold decodeFp; rw [m0]; exact (if_neg c0).trans (raw_ok (congrArg _ hg) rfl)))

/-- The round trip of vacsP16Max. -/
theorem vacsP16Max (o : OpV3) : Statement (.vacsP16Max o) := by
  intro e _ wf ht
  obtain ⟨w, hw⟩ : ∃ w, w = 0x80000039 + putV3 o := ⟨_, rfl⟩
  obtain ⟨h1, h2, m0, c0, hg⟩ := row1 (v0 := 28) (o := o) (by decide) (c := 0x80000039) rfl hw
  exact word_agrees hw.symm wf ht rfl h1 h2 m0 (by decide) (fun _ => pfx_takes m0 (by decide)) (fun h => (Bool.false_ne_true h).elim)
    ((decodeBase_fp m0 (by decide)).trans (by unfold decodeFp; rw [m0]; exact (if_pos c0).trans (raw_ok (congrArg _ hg) rfl)))

/-- The round trip of shlP16. -/
theorem shlP16 (o : OpV3) : Statement (.shlP16 o) := by
  intro e _ wf ht
  obtain ⟨w, hw⟩ : ∃ w, w = 0x3B + putV3 o := ⟨_, rfl⟩
  obtain ⟨h1, h2, m0, c0, hg⟩ := row2 (v0 := 29) (o := o) (by decide) (c := 0x3B) rfl hw
  exact word_agrees hw.symm wf ht rfl h1 h2 m0 (by decide) (fun _ => pfx_takes m0 (by decide)) (fun h => (Bool.false_ne_true h).elim)
    ((decodeBase_fp m0 (by decide)).trans (by unfold decodeFp; rw [m0]; exact (if_neg c0).trans (raw_ok (congrArg _ hg) rfl)))

/-- The round trip of shrP16. -/
theorem shrP16 (o : OpV3) : Statement (.shrP16 o) := by
  intro e _ wf ht
  obtain ⟨w, hw⟩ : ∃ w, w = 0x8000003B + putV3 o := ⟨_, rfl⟩
  obtain ⟨h1, h2, m0, c0, hg⟩ := row1 (v0 := 29) (o := o) (by decide) (c := 0x8000003B) rfl hw
  exact word_agrees hw.symm wf ht rfl h1 h2 m0 (by decide) (fun _ => pfx_takes m0 (by decide)) (fun h => (Bool.false_ne_true h).elim)
    ((decodeBase_fp m0 (by decide)).trans (by unfold decodeFp; rw [m0]; exact (if_pos c0).trans (raw_ok (congrArg _ hg) rfl)))

/-- The round trip of topk. -/
theorem topk (o : OpV3) : Statement (.topk o) := by
  intro e _ wf ht
  obtain ⟨w, hw⟩ : ∃ w, w = 0x3D + putV3 o := ⟨_, rfl⟩
  obtain ⟨h1, h2, m0, c0, hg⟩ := row3 (v0 := 30) (o := o) (by decide) (c := 0x3D) rfl hw
  exact word_agrees hw.symm wf ht rfl h1 h2 m0 (by decide) (fun _ => pfx_takes m0 (by decide)) (fun h => (Bool.false_ne_true h).elim)
    ((decodeBase_fp m0 (by decide)).trans (by unfold decodeFp; rw [m0]; exact (if_pos c0).trans (raw_ok (congrArg _ hg) rfl)))

/-- The round trip of sample. -/
theorem sample (o : OpV3) : Statement (.sample o) := by
  intro e _ wf ht
  obtain ⟨w, hw⟩ : ∃ w, w = 0x3F + putV3 o := ⟨_, rfl⟩
  obtain ⟨h1, h2, m0, c0, hg⟩ := row3 (v0 := 31) (o := o) (by decide) (c := 0x3F) rfl hw
  exact word_agrees hw.symm wf ht rfl h1 h2 m0 (by decide) (fun _ => pfx_takes m0 (by decide)) (fun h => (Bool.false_ne_true h).elim)
    ((decodeBase_fp m0 (by decide)).trans (by unfold decodeFp; rw [m0]; exact (if_pos c0).trans (raw_ok (congrArg _ hg) rfl)))

/-- The round trip of stopchk. -/
theorem stopchk (o : OpV3) : Statement (.stopchk o) := by
  intro e _ wf ht
  obtain ⟨w, hw⟩ : ∃ w, w = 0x7B + putV3 o := ⟨_, rfl⟩
  obtain ⟨h1, h2, m0, c0, hg⟩ := row3 (v0 := 61) (o := o) (by decide) (c := 0x7B) rfl hw
  exact word_agrees hw.symm wf ht rfl h1 h2 m0 (by decide) (fun _ => pfx_takes m0 (by decide)) (fun h => (Bool.false_ne_true h).elim)
    ((decodeBase_cross m0 (by decide)).trans (by unfold decodeCross; rw [m0]; exact (if_pos c0).trans (raw_ok (congrArg _ hg) rfl)))

/-- The round trip of faddF32. -/
theorem faddF32 (o : OpV3) : Statement (.faddF32 o) := by
  intro e _ wf ht
  obtain ⟨w, hw⟩ : ∃ w, w = 0x41 + putV3 o := ⟨_, rfl⟩
  obtain ⟨h1, h2, m0, c0, hg⟩ := row3 (v0 := 32) (o := o) (by decide) (c := 0x41) rfl hw
  exact word_agrees hw.symm wf ht rfl h1 h2 m0 (by decide) (fun _ => pfx_takes m0 (by decide)) (fun h => (Bool.false_ne_true h).elim)
    ((decodeBase_fp m0 (by decide)).trans (by unfold decodeFp; rw [m0]; exact (if_pos c0).trans (raw_ok (congrArg _ hg) rfl)))

/-- The round trip of fsubF32. -/
theorem fsubF32 (o : OpV3) : Statement (.fsubF32 o) := by
  intro e _ wf ht
  obtain ⟨w, hw⟩ : ∃ w, w = 0x43 + putV3 o := ⟨_, rfl⟩
  obtain ⟨h1, h2, m0, c0, hg⟩ := row3 (v0 := 33) (o := o) (by decide) (c := 0x43) rfl hw
  exact word_agrees hw.symm wf ht rfl h1 h2 m0 (by decide) (fun _ => pfx_takes m0 (by decide)) (fun h => (Bool.false_ne_true h).elim)
    ((decodeBase_fp m0 (by decide)).trans (by unfold decodeFp; rw [m0]; exact (if_pos c0).trans (raw_ok (congrArg _ hg) rfl)))

/-- The round trip of fmulF32. -/
theorem fmulF32 (o : OpV3) : Statement (.fmulF32 o) := by
  intro e _ wf ht
  obtain ⟨w, hw⟩ : ∃ w, w = 0x45 + putV3 o := ⟨_, rfl⟩
  obtain ⟨h1, h2, m0, c0, hg⟩ := row3 (v0 := 34) (o := o) (by decide) (c := 0x45) rfl hw
  exact word_agrees hw.symm wf ht rfl h1 h2 m0 (by decide) (fun _ => pfx_takes m0 (by decide)) (fun h => (Bool.false_ne_true h).elim)
    ((decodeBase_fp m0 (by decide)).trans (by unfold decodeFp; rw [m0]; exact (if_pos c0).trans (raw_ok (congrArg _ hg) rfl)))

/-- The round trip of ffmaF32. -/
theorem ffmaF32 (o : OpV3) : Statement (.ffmaF32 o) := by
  intro e _ wf ht
  obtain ⟨w, hw⟩ : ∃ w, w = 0x47 + putV3 o := ⟨_, rfl⟩
  obtain ⟨h1, h2, m0, c0, hg⟩ := row2 (v0 := 35) (o := o) (by decide) (c := 0x47) rfl hw
  exact word_agrees hw.symm wf ht rfl h1 h2 m0 (by decide) (fun _ => pfx_takes m0 (by decide)) (fun h => (Bool.false_ne_true h).elim)
    ((decodeBase_fp m0 (by decide)).trans (by unfold decodeFp; rw [m0]; exact (if_neg c0).trans (raw_ok (congrArg _ hg) rfl)))

/-- The round trip of ffmaF32Vc. -/
theorem ffmaF32Vc (o : OpV3) : Statement (.ffmaF32Vc o) := by
  intro e _ wf ht
  obtain ⟨w, hw⟩ : ∃ w, w = 0x80000047 + putV3 o := ⟨_, rfl⟩
  obtain ⟨h1, h2, m0, c0, hg⟩ := row1 (v0 := 35) (o := o) (by decide) (c := 0x80000047) rfl hw
  exact word_agrees hw.symm wf ht rfl h1 h2 m0 (by decide) (fun _ => pfx_takes m0 (by decide)) (fun h => (Bool.false_ne_true h).elim)
    ((decodeBase_fp m0 (by decide)).trans (by unfold decodeFp; rw [m0]; exact (if_pos c0).trans (raw_ok (congrArg _ hg) rfl)))

/-- The round trip of fminF32. -/
theorem fminF32 (o : OpV3) : Statement (.fminF32 o) := by
  intro e _ wf ht
  obtain ⟨w, hw⟩ : ∃ w, w = 0x49 + putV3 o := ⟨_, rfl⟩
  obtain ⟨h1, h2, m0, c0, hg⟩ := row2 (v0 := 36) (o := o) (by decide) (c := 0x49) rfl hw
  exact word_agrees hw.symm wf ht rfl h1 h2 m0 (by decide) (fun _ => pfx_takes m0 (by decide)) (fun h => (Bool.false_ne_true h).elim)
    ((decodeBase_fp m0 (by decide)).trans (by unfold decodeFp; rw [m0]; exact (if_neg c0).trans (raw_ok (congrArg _ hg) rfl)))

/-- The round trip of fminF32Nan. -/
theorem fminF32Nan (o : OpV3) : Statement (.fminF32Nan o) := by
  intro e _ wf ht
  obtain ⟨w, hw⟩ : ∃ w, w = 0x80000049 + putV3 o := ⟨_, rfl⟩
  obtain ⟨h1, h2, m0, c0, hg⟩ := row1 (v0 := 36) (o := o) (by decide) (c := 0x80000049) rfl hw
  exact word_agrees hw.symm wf ht rfl h1 h2 m0 (by decide) (fun _ => pfx_takes m0 (by decide)) (fun h => (Bool.false_ne_true h).elim)
    ((decodeBase_fp m0 (by decide)).trans (by unfold decodeFp; rw [m0]; exact (if_pos c0).trans (raw_ok (congrArg _ hg) rfl)))

/-- The round trip of fmaxF32. -/
theorem fmaxF32 (o : OpV3) : Statement (.fmaxF32 o) := by
  intro e _ wf ht
  obtain ⟨w, hw⟩ : ∃ w, w = 0x4B + putV3 o := ⟨_, rfl⟩
  obtain ⟨h1, h2, m0, c0, hg⟩ := row2 (v0 := 37) (o := o) (by decide) (c := 0x4B) rfl hw
  exact word_agrees hw.symm wf ht rfl h1 h2 m0 (by decide) (fun _ => pfx_takes m0 (by decide)) (fun h => (Bool.false_ne_true h).elim)
    ((decodeBase_fp m0 (by decide)).trans (by unfold decodeFp; rw [m0]; exact (if_neg c0).trans (raw_ok (congrArg _ hg) rfl)))

/-- The round trip of fmaxF32Nan. -/
theorem fmaxF32Nan (o : OpV3) : Statement (.fmaxF32Nan o) := by
  intro e _ wf ht
  obtain ⟨w, hw⟩ : ∃ w, w = 0x8000004B + putV3 o := ⟨_, rfl⟩
  obtain ⟨h1, h2, m0, c0, hg⟩ := row1 (v0 := 37) (o := o) (by decide) (c := 0x8000004B) rfl hw
  exact word_agrees hw.symm wf ht rfl h1 h2 m0 (by decide) (fun _ => pfx_takes m0 (by decide)) (fun h => (Bool.false_ne_true h).elim)
    ((decodeBase_fp m0 (by decide)).trans (by unfold decodeFp; rw [m0]; exact (if_pos c0).trans (raw_ok (congrArg _ hg) rfl)))

/-- The round trip of fcmpF32. -/
theorem fcmpF32 (o : OpVCmp) : Statement (.fcmpF32 o) := by
  intro e _ wf ht
  obtain ⟨w, hw⟩ : ∃ w, w = 0x4D + putVCmp o := ⟨_, rfl⟩
  obtain ⟨h1, h2, m0, c0, hz, hg⟩ := row16 (v0 := 38) (o := o) (by decide) (c := 0x4D) rfl hw
  exact word_agrees hw.symm wf ht rfl h1 h2 m0 (by decide) (fun _ => pfx_takes m0 (by decide)) (fun h => (Bool.false_ne_true h).elim)
    ((decodeBase_fp m0 (by decide)).trans (by unfold decodeFp; rw [m0]; exact (if_pos c0).trans (raw_ok (congrArg _ hg) hz)))

/-- The round trip of fcpys. -/
theorem fcpys (o : OpV3) : Statement (.fcpys o) := by
  intro e _ wf ht
  obtain ⟨w, hw⟩ : ∃ w, w = 0x8000004F + putV3 o := ⟨_, rfl⟩
  obtain ⟨h1, h2, m0, c0, hg⟩ := row1 (v0 := 39) (o := o) (by decide) (c := 0x8000004F) rfl hw
  exact word_agrees hw.symm wf ht rfl h1 h2 m0 (by decide) (fun _ => pfx_takes m0 (by decide)) (fun h => (Bool.false_ne_true h).elim)
    ((decodeBase_fp m0 (by decide)).trans (by unfold decodeFp; rw [m0]; exact (if_pos c0).trans (raw_ok (congrArg _ hg) rfl)))

/-- The round trip of fneg. -/
theorem fneg (o : OpV2) : Statement (.fneg o) := by
  intro e _ wf ht
  obtain ⟨w, hw⟩ : ∃ w, w = 0x4F + putV2 o := ⟨_, rfl⟩
  obtain ⟨h1, h2, m0, m1, c0, hz, hg⟩ := row17 (v0 := 39) (v1 := 0) (o := o) (by decide) (by decide) (c := 0x4F) rfl hw
  exact word_agrees hw.symm wf ht rfl h1 h2 m0 (by decide) (fun _ => pfx_takes m0 (by decide)) (fun h => (Bool.false_ne_true h).elim)
    ((decodeBase_fp m0 (by decide)).trans (by unfold decodeFp; rw [m0, m1]; exact (if_neg c0).trans (raw_ok (congrArg _ hg) hz)))

/-- The round trip of fabs. -/
theorem fabs (o : OpV2) : Statement (.fabs o) := by
  intro e _ wf ht
  obtain ⟨w, hw⟩ : ∃ w, w = 0x40004F + putV2 o := ⟨_, rfl⟩
  obtain ⟨h1, h2, m0, m1, c0, hz, hg⟩ := row17 (v0 := 39) (v1 := 1) (o := o) (by decide) (by decide) (c := 0x40004F) rfl hw
  exact word_agrees hw.symm wf ht rfl h1 h2 m0 (by decide) (fun _ => pfx_takes m0 (by decide)) (fun h => (Bool.false_ne_true h).elim)
    ((decodeBase_fp m0 (by decide)).trans (by unfold decodeFp; rw [m0, m1]; exact (if_neg c0).trans (raw_ok (congrArg _ hg) hz)))

/-- The round trip of frint. -/
theorem frint (o : OpV2) : Statement (.frint o) := by
  intro e _ wf ht
  obtain ⟨w, hw⟩ : ∃ w, w = 0x80004F + putV2 o := ⟨_, rfl⟩
  obtain ⟨h1, h2, m0, m1, c0, hz, hg⟩ := row17 (v0 := 39) (v1 := 2) (o := o) (by decide) (by decide) (c := 0x80004F) rfl hw
  exact word_agrees hw.symm wf ht rfl h1 h2 m0 (by decide) (fun _ => pfx_takes m0 (by decide)) (fun h => (Bool.false_ne_true h).elim)
    ((decodeBase_fp m0 (by decide)).trans (by unfold decodeFp; rw [m0, m1]; exact (if_neg c0).trans (raw_ok (congrArg _ hg) hz)))

/-- The round trip of rcp. -/
theorem rcp (o : OpV2) : Statement (.rcp o) := by
  intro e _ wf ht
  obtain ⟨w, hw⟩ : ∃ w, w = 0x51 + putV2 o := ⟨_, rfl⟩
  obtain ⟨h1, h2, m0, m1, c0, hz, hg⟩ := row18 (v0 := 40) (v1 := 0) (o := o) (by decide) (by decide) (c := 0x51) rfl hw
  exact word_agrees hw.symm wf ht rfl h1 h2 m0 (by decide) (fun _ => pfx_takes m0 (by decide)) (fun h => (Bool.false_ne_true h).elim)
    ((decodeBase_fp m0 (by decide)).trans (by unfold decodeFp; rw [m0, m1]; exact (if_pos c0).trans (raw_ok (congrArg _ hg) hz)))

/-- The round trip of rsq. -/
theorem rsq (o : OpV2) : Statement (.rsq o) := by
  intro e _ wf ht
  obtain ⟨w, hw⟩ : ∃ w, w = 0x400051 + putV2 o := ⟨_, rfl⟩
  obtain ⟨h1, h2, m0, m1, c0, hz, hg⟩ := row18 (v0 := 40) (v1 := 1) (o := o) (by decide) (by decide) (c := 0x400051) rfl hw
  exact word_agrees hw.symm wf ht rfl h1 h2 m0 (by decide) (fun _ => pfx_takes m0 (by decide)) (fun h => (Bool.false_ne_true h).elim)
    ((decodeBase_fp m0 (by decide)).trans (by unfold decodeFp; rw [m0, m1]; exact (if_pos c0).trans (raw_ok (congrArg _ hg) hz)))

/-- The round trip of sqrt. -/
theorem sqrt (o : OpV2) : Statement (.sqrt o) := by
  intro e _ wf ht
  obtain ⟨w, hw⟩ : ∃ w, w = 0x800051 + putV2 o := ⟨_, rfl⟩
  obtain ⟨h1, h2, m0, m1, c0, hz, hg⟩ := row18 (v0 := 40) (v1 := 2) (o := o) (by decide) (by decide) (c := 0x800051) rfl hw
  exact word_agrees hw.symm wf ht rfl h1 h2 m0 (by decide) (fun _ => pfx_takes m0 (by decide)) (fun h => (Bool.false_ne_true h).elim)
    ((decodeBase_fp m0 (by decide)).trans (by unfold decodeFp; rw [m0, m1]; exact (if_pos c0).trans (raw_ok (congrArg _ hg) hz)))

/-- The round trip of ex2. -/
theorem ex2 (o : OpV2) : Statement (.ex2 o) := by
  intro e _ wf ht
  obtain ⟨w, hw⟩ : ∃ w, w = 0xC00051 + putV2 o := ⟨_, rfl⟩
  obtain ⟨h1, h2, m0, m1, c0, hz, hg⟩ := row18 (v0 := 40) (v1 := 3) (o := o) (by decide) (by decide) (c := 0xC00051) rfl hw
  exact word_agrees hw.symm wf ht rfl h1 h2 m0 (by decide) (fun _ => pfx_takes m0 (by decide)) (fun h => (Bool.false_ne_true h).elim)
    ((decodeBase_fp m0 (by decide)).trans (by unfold decodeFp; rw [m0, m1]; exact (if_pos c0).trans (raw_ok (congrArg _ hg) hz)))

/-- The round trip of lg2. -/
theorem lg2 (o : OpV2) : Statement (.lg2 o) := by
  intro e _ wf ht
  obtain ⟨w, hw⟩ : ∃ w, w = 0x1000051 + putV2 o := ⟨_, rfl⟩
  obtain ⟨h1, h2, m0, m1, c0, hz, hg⟩ := row18 (v0 := 40) (v1 := 4) (o := o) (by decide) (by decide) (c := 0x1000051) rfl hw
  exact word_agrees hw.symm wf ht rfl h1 h2 m0 (by decide) (fun _ => pfx_takes m0 (by decide)) (fun h => (Bool.false_ne_true h).elim)
    ((decodeBase_fp m0 (by decide)).trans (by unfold decodeFp; rw [m0, m1]; exact (if_pos c0).trans (raw_ok (congrArg _ hg) hz)))

/-- The round trip of sin. -/
theorem sin (o : OpV2) : Statement (.sin o) := by
  intro e _ wf ht
  obtain ⟨w, hw⟩ : ∃ w, w = 0x1400051 + putV2 o := ⟨_, rfl⟩
  obtain ⟨h1, h2, m0, m1, c0, hz, hg⟩ := row18 (v0 := 40) (v1 := 5) (o := o) (by decide) (by decide) (c := 0x1400051) rfl hw
  exact word_agrees hw.symm wf ht rfl h1 h2 m0 (by decide) (fun _ => pfx_takes m0 (by decide)) (fun h => (Bool.false_ne_true h).elim)
    ((decodeBase_fp m0 (by decide)).trans (by unfold decodeFp; rw [m0, m1]; exact (if_pos c0).trans (raw_ok (congrArg _ hg) hz)))

/-- The round trip of cos. -/
theorem cos (o : OpV2) : Statement (.cos o) := by
  intro e _ wf ht
  obtain ⟨w, hw⟩ : ∃ w, w = 0x1800051 + putV2 o := ⟨_, rfl⟩
  obtain ⟨h1, h2, m0, m1, c0, hz, hg⟩ := row18 (v0 := 40) (v1 := 6) (o := o) (by decide) (by decide) (c := 0x1800051) rfl hw
  exact word_agrees hw.symm wf ht rfl h1 h2 m0 (by decide) (fun _ => pfx_takes m0 (by decide)) (fun h => (Bool.false_ne_true h).elim)
    ((decodeBase_fp m0 (by decide)).trans (by unfold decodeFp; rw [m0, m1]; exact (if_pos c0).trans (raw_ok (congrArg _ hg) hz)))

/-- The round trip of tanh. -/
theorem tanh (o : OpV2) : Statement (.tanh o) := by
  intro e _ wf ht
  obtain ⟨w, hw⟩ : ∃ w, w = 0x1C00051 + putV2 o := ⟨_, rfl⟩
  obtain ⟨h1, h2, m0, m1, c0, hz, hg⟩ := row18 (v0 := 40) (v1 := 7) (o := o) (by decide) (by decide) (c := 0x1C00051) rfl hw
  exact word_agrees hw.symm wf ht rfl h1 h2 m0 (by decide) (fun _ => pfx_takes m0 (by decide)) (fun h => (Bool.false_ne_true h).elim)
    ((decodeBase_fp m0 (by decide)).trans (by unfold decodeFp; rw [m0, m1]; exact (if_pos c0).trans (raw_ok (congrArg _ hg) hz)))

/-- The round trip of fdivF32. -/
theorem fdivF32 (o : OpV3) : Statement (.fdivF32 o) := by
  intro e _ wf ht
  obtain ⟨w, hw⟩ : ∃ w, w = 0x53 + putV3 o := ⟨_, rfl⟩
  obtain ⟨h1, h2, m0, c0, hg⟩ := row3 (v0 := 41) (o := o) (by decide) (c := 0x53) rfl hw
  exact word_agrees hw.symm wf ht rfl h1 h2 m0 (by decide) (fun _ => pfx_takes m0 (by decide)) (fun h => (Bool.false_ne_true h).elim)
    ((decodeBase_fp m0 (by decide)).trans (by unfold decodeFp; rw [m0]; exact (if_pos c0).trans (raw_ok (congrArg _ hg) rfl)))

/-- The round trip of cvt. -/
theorem cvt (o : OpVCvt) : Statement (.cvt o) := by
  intro e _ wf ht
  obtain ⟨w, hw⟩ : ∃ w, w = 0x55 + putVCvt o := ⟨_, rfl⟩
  obtain ⟨h1, h2, m0, m1, c0, hz, hg⟩ := row19 (v0 := 42) (v1 := 0) (o := o) (by decide) (by decide) (c := 0x55) rfl hw
  exact word_agrees hw.symm wf ht rfl h1 h2 m0 (by decide) (fun _ => pfx_takes m0 (by decide)) (fun h => (Bool.false_ne_true h).elim)
    ((decodeBase_fp m0 (by decide)).trans (by unfold decodeFp; rw [m0, m1]; exact (if_pos c0).trans (raw_ok (congrArg _ hg) hz)))

/-- The round trip of cvtI32. -/
theorem cvtI32 (o : OpVCvt) : Statement (.cvtI32 o) := by
  intro e _ wf ht
  obtain ⟨w, hw⟩ : ∃ w, w = 0x4000055 + putVCvt o := ⟨_, rfl⟩
  obtain ⟨h1, h2, m0, m1, c0, hz, hg⟩ := row19 (v0 := 42) (v1 := 1) (o := o) (by decide) (by decide) (c := 0x4000055) rfl hw
  exact word_agrees hw.symm wf ht rfl h1 h2 m0 (by decide) (fun _ => pfx_takes m0 (by decide)) (fun h => (Bool.false_ne_true h).elim)
    ((decodeBase_fp m0 (by decide)).trans (by unfold decodeFp; rw [m0, m1]; exact (if_pos c0).trans (raw_ok (congrArg _ hg) hz)))

/-- The round trip of cvtUi32. -/
theorem cvtUi32 (o : OpVCvt) : Statement (.cvtUi32 o) := by
  intro e _ wf ht
  obtain ⟨w, hw⟩ : ∃ w, w = 0x8000055 + putVCvt o := ⟨_, rfl⟩
  obtain ⟨h1, h2, m0, m1, c0, hz, hg⟩ := row19 (v0 := 42) (v1 := 2) (o := o) (by decide) (by decide) (c := 0x8000055) rfl hw
  exact word_agrees hw.symm wf ht rfl h1 h2 m0 (by decide) (fun _ => pfx_takes m0 (by decide)) (fun h => (Bool.false_ne_true h).elim)
    ((decodeBase_fp m0 (by decide)).trans (by unfold decodeFp; rw [m0, m1]; exact (if_pos c0).trans (raw_ok (congrArg _ hg) hz)))

/-- The round trip of pack. -/
theorem pack (o : OpVPack) : Statement (.pack o) := by
  intro e _ wf ht
  obtain ⟨w, hw⟩ : ∃ w, w = 0x57 + putVPack o := ⟨_, rfl⟩
  obtain ⟨h1, h2, m0, c0, hz, hg⟩ := row20 (v0 := 43) (o := o) (by decide) (c := 0x57) rfl hw
  exact word_agrees hw.symm wf ht rfl h1 h2 m0 (by decide) (fun _ => pfx_takes m0 (by decide)) (fun h => (Bool.false_ne_true h).elim)
    ((decodeBase_fp m0 (by decide)).trans (by unfold decodeFp; rw [m0]; exact (if_pos c0).trans (raw_ok (congrArg _ hg) hz)))

/-- The round trip of unpack. -/
theorem unpack (o : OpVPack) : Statement (.unpack o) := by
  intro e _ wf ht
  obtain ⟨w, hw⟩ : ∃ w, w = 0x59 + putVPack o := ⟨_, rfl⟩
  obtain ⟨h1, h2, m0, c0, hz, hg⟩ := row20 (v0 := 44) (o := o) (by decide) (c := 0x59) rfl hw
  exact word_agrees hw.symm wf ht rfl h1 h2 m0 (by decide) (fun _ => pfx_takes m0 (by decide)) (fun h => (Bool.false_ne_true h).elim)
    ((decodeBase_fp m0 (by decide)).trans (by unfold decodeFp; rw [m0]; exact (if_pos c0).trans (raw_ok (congrArg _ hg) hz)))

/-- The round trip of quant. -/
theorem quant (o : OpV3) : Statement (.quant o) := by
  intro e _ wf ht
  obtain ⟨w, hw⟩ : ∃ w, w = 0x5B + putV3 o := ⟨_, rfl⟩
  obtain ⟨h1, h2, m0, c0, hg⟩ := row3 (v0 := 45) (o := o) (by decide) (c := 0x5B) rfl hw
  exact word_agrees hw.symm wf ht rfl h1 h2 m0 (by decide) (fun _ => pfx_takes m0 (by decide)) (fun h => (Bool.false_ne_true h).elim)
    ((decodeBase_fp m0 (by decide)).trans (by unfold decodeFp; rw [m0]; exact (if_pos c0).trans (raw_ok (congrArg _ hg) rfl)))

/-- The round trip of ropeCos. -/
theorem ropeCos (o : OpV3) : Statement (.ropeCos o) := by
  intro e _ wf ht
  obtain ⟨w, hw⟩ : ∃ w, w = 0x5D + putV3 o := ⟨_, rfl⟩
  obtain ⟨h1, h2, m0, c0, hg⟩ := row2 (v0 := 46) (o := o) (by decide) (c := 0x5D) rfl hw
  exact word_agrees hw.symm wf ht rfl h1 h2 m0 (by decide) (fun _ => pfx_takes m0 (by decide)) (fun h => (Bool.false_ne_true h).elim)
    ((decodeBase_fp m0 (by decide)).trans (by unfold decodeFp; rw [m0]; exact (if_neg c0).trans (raw_ok (congrArg _ hg) rfl)))

/-- The round trip of ropeSin. -/
theorem ropeSin (o : OpV3) : Statement (.ropeSin o) := by
  intro e _ wf ht
  obtain ⟨w, hw⟩ : ∃ w, w = 0x8000005D + putV3 o := ⟨_, rfl⟩
  obtain ⟨h1, h2, m0, c0, hg⟩ := row1 (v0 := 46) (o := o) (by decide) (c := 0x8000005D) rfl hw
  exact word_agrees hw.symm wf ht rfl h1 h2 m0 (by decide) (fun _ => pfx_takes m0 (by decide)) (fun h => (Bool.false_ne_true h).elim)
    ((decodeBase_fp m0 (by decide)).trans (by unfold decodeFp; rw [m0]; exact (if_pos c0).trans (raw_ok (congrArg _ hg) rfl)))

/-- The round trip of smxupd. -/
theorem smxupd (o : OpV2) : Statement (.smxupd o) := by
  intro e _ wf ht
  obtain ⟨w, hw⟩ : ∃ w, w = 0x5F + putV2 o := ⟨_, rfl⟩
  obtain ⟨h1, h2, m0, c0, hz, hg⟩ := row7 (v0 := 47) (o := o) (by decide) (c := 0x5F) rfl hw
  exact word_agrees hw.symm wf ht rfl h1 h2 m0 (by decide) (fun _ => pfx_takes m0 (by decide)) (fun h => (Bool.false_ne_true h).elim)
    ((decodeBase_fp m0 (by decide)).trans (by unfold decodeFp; rw [m0]; exact (if_neg c0).trans (raw_ok (congrArg _ hg) hz)))

/-- The round trip of smxupdSum. -/
theorem smxupdSum (o : OpV2) : Statement (.smxupdSum o) := by
  intro e _ wf ht
  obtain ⟨w, hw⟩ : ∃ w, w = 0x8000005F + putV2 o := ⟨_, rfl⟩
  obtain ⟨h1, h2, m0, c0, hz, hg⟩ := row6 (v0 := 47) (o := o) (by decide) (c := 0x8000005F) rfl hw
  exact word_agrees hw.symm wf ht rfl h1 h2 m0 (by decide) (fun _ => pfx_takes m0 (by decide)) (fun h => (Bool.false_ne_true h).elim)
    ((decodeBase_fp m0 (by decide)).trans (by unfold decodeFp; rw [m0]; exact (if_pos c0).trans (raw_ok (congrArg _ hg) hz)))

/-- The round trip of shflIdx. -/
theorem shflIdx (o : OpV3) : Statement (.shflIdx o) := by
  intro e _ wf ht
  obtain ⟨w, hw⟩ : ∃ w, w = 0x61 + putV3 o := ⟨_, rfl⟩
  obtain ⟨h1, h2, m0, c0, hg⟩ := row2 (v0 := 48) (o := o) (by decide) (c := 0x61) rfl hw
  exact word_agrees hw.symm wf ht rfl h1 h2 m0 (by decide) (fun _ => pfx_takes m0 (by decide)) (fun h => (Bool.false_ne_true h).elim)
    ((decodeBase_cross m0 (by decide)).trans (by unfold decodeCross; rw [m0]; exact (if_neg c0).trans (raw_ok (congrArg _ hg) rfl)))

/-- The round trip of shflIdxImm. -/
theorem shflIdxImm (o : OpVShI) : Statement (.shflIdxImm o) := by
  intro e _ wf ht
  obtain ⟨w, hw⟩ : ∃ w, w = 0x80000061 + putVShI o := ⟨_, rfl⟩
  obtain ⟨h1, h2, m0, c0, hz, hg⟩ := row21 (v0 := 48) (o := o) (by decide) (c := 0x80000061) rfl hw
  exact word_agrees hw.symm wf ht rfl h1 h2 m0 (by decide) (fun _ => pfx_takes m0 (by decide)) (fun h => (Bool.false_ne_true h).elim)
    ((decodeBase_cross m0 (by decide)).trans (by unfold decodeCross; rw [m0]; exact (if_pos c0).trans (raw_ok (congrArg _ hg) hz)))

/-- The round trip of shflUp. -/
theorem shflUp (o : OpV3) : Statement (.shflUp o) := by
  intro e _ wf ht
  obtain ⟨w, hw⟩ : ∃ w, w = 0x63 + putV3 o := ⟨_, rfl⟩
  obtain ⟨h1, h2, m0, c0, hg⟩ := row2 (v0 := 49) (o := o) (by decide) (c := 0x63) rfl hw
  exact word_agrees hw.symm wf ht rfl h1 h2 m0 (by decide) (fun _ => pfx_takes m0 (by decide)) (fun h => (Bool.false_ne_true h).elim)
    ((decodeBase_cross m0 (by decide)).trans (by unfold decodeCross; rw [m0]; exact (if_neg c0).trans (raw_ok (congrArg _ hg) rfl)))

/-- The round trip of shflUpImm. -/
theorem shflUpImm (o : OpVShI) : Statement (.shflUpImm o) := by
  intro e _ wf ht
  obtain ⟨w, hw⟩ : ∃ w, w = 0x80000063 + putVShI o := ⟨_, rfl⟩
  obtain ⟨h1, h2, m0, c0, hz, hg⟩ := row21 (v0 := 49) (o := o) (by decide) (c := 0x80000063) rfl hw
  exact word_agrees hw.symm wf ht rfl h1 h2 m0 (by decide) (fun _ => pfx_takes m0 (by decide)) (fun h => (Bool.false_ne_true h).elim)
    ((decodeBase_cross m0 (by decide)).trans (by unfold decodeCross; rw [m0]; exact (if_pos c0).trans (raw_ok (congrArg _ hg) hz)))

/-- The round trip of shflDn. -/
theorem shflDn (o : OpV3) : Statement (.shflDn o) := by
  intro e _ wf ht
  obtain ⟨w, hw⟩ : ∃ w, w = 0x65 + putV3 o := ⟨_, rfl⟩
  obtain ⟨h1, h2, m0, c0, hg⟩ := row2 (v0 := 50) (o := o) (by decide) (c := 0x65) rfl hw
  exact word_agrees hw.symm wf ht rfl h1 h2 m0 (by decide) (fun _ => pfx_takes m0 (by decide)) (fun h => (Bool.false_ne_true h).elim)
    ((decodeBase_cross m0 (by decide)).trans (by unfold decodeCross; rw [m0]; exact (if_neg c0).trans (raw_ok (congrArg _ hg) rfl)))

/-- The round trip of shflDnImm. -/
theorem shflDnImm (o : OpVShI) : Statement (.shflDnImm o) := by
  intro e _ wf ht
  obtain ⟨w, hw⟩ : ∃ w, w = 0x80000065 + putVShI o := ⟨_, rfl⟩
  obtain ⟨h1, h2, m0, c0, hz, hg⟩ := row21 (v0 := 50) (o := o) (by decide) (c := 0x80000065) rfl hw
  exact word_agrees hw.symm wf ht rfl h1 h2 m0 (by decide) (fun _ => pfx_takes m0 (by decide)) (fun h => (Bool.false_ne_true h).elim)
    ((decodeBase_cross m0 (by decide)).trans (by unfold decodeCross; rw [m0]; exact (if_pos c0).trans (raw_ok (congrArg _ hg) hz)))

/-- The round trip of shflXor. -/
theorem shflXor (o : OpV3) : Statement (.shflXor o) := by
  intro e _ wf ht
  obtain ⟨w, hw⟩ : ∃ w, w = 0x67 + putV3 o := ⟨_, rfl⟩
  obtain ⟨h1, h2, m0, c0, hg⟩ := row2 (v0 := 51) (o := o) (by decide) (c := 0x67) rfl hw
  exact word_agrees hw.symm wf ht rfl h1 h2 m0 (by decide) (fun _ => pfx_takes m0 (by decide)) (fun h => (Bool.false_ne_true h).elim)
    ((decodeBase_cross m0 (by decide)).trans (by unfold decodeCross; rw [m0]; exact (if_neg c0).trans (raw_ok (congrArg _ hg) rfl)))

/-- The round trip of shflXorImm. -/
theorem shflXorImm (o : OpVShI) : Statement (.shflXorImm o) := by
  intro e _ wf ht
  obtain ⟨w, hw⟩ : ∃ w, w = 0x80000067 + putVShI o := ⟨_, rfl⟩
  obtain ⟨h1, h2, m0, c0, hz, hg⟩ := row21 (v0 := 51) (o := o) (by decide) (c := 0x80000067) rfl hw
  exact word_agrees hw.symm wf ht rfl h1 h2 m0 (by decide) (fun _ => pfx_takes m0 (by decide)) (fun h => (Bool.false_ne_true h).elim)
    ((decodeBase_cross m0 (by decide)).trans (by unfold decodeCross; rw [m0]; exact (if_pos c0).trans (raw_ok (congrArg _ hg) hz)))

/-- The round trip of bcastFirst. -/
theorem bcastFirst (o : OpV2) : Statement (.bcastFirst o) := by
  intro e _ wf ht
  obtain ⟨w, hw⟩ : ∃ w, w = 0x10000069 + putV2 o := ⟨_, rfl⟩
  obtain ⟨h1, h2, m0, c0, c1, hz, hg⟩ := row22 (v0 := 52) (o := o) (by decide) (c := 0x10000069) rfl hw
  exact word_agrees hw.symm wf ht rfl h1 h2 m0 (by decide) (fun _ => pfx_takes m0 (by decide)) (fun h => (Bool.false_ne_true h).elim)
    ((decodeBase_cross m0 (by decide)).trans (by unfold decodeCross; rw [m0]; exact (if_pos c0).trans ((if_pos c1).trans (raw_ok (congrArg _ hg) hz))))

/-- The round trip of bcast. -/
theorem bcast (o : OpVSk) : Statement (.bcast o) := by
  intro e _ wf ht
  obtain ⟨w, hw⟩ : ∃ w, w = 0x69 + putVSk o := ⟨_, rfl⟩
  obtain ⟨h1, h2, m0, c0, c1, hz, hg⟩ := row23 (v0 := 52) (o := o) (by decide) (c := 0x69) rfl hw
  exact word_agrees hw.symm wf ht rfl h1 h2 m0 (by decide) (fun _ => pfx_takes m0 (by decide)) (fun h => (Bool.false_ne_true h).elim)
    ((decodeBase_cross m0 (by decide)).trans (by unfold decodeCross; rw [m0]; exact (if_pos c0).trans ((if_neg c1).trans (raw_ok (congrArg _ hg) hz))))

/-- The round trip of red. -/
theorem red (o : OpVRed) : Statement (.red o) := by
  intro e _ wf ht
  obtain ⟨w, hw⟩ : ∃ w, w = 0x6B + putVRed o := ⟨_, rfl⟩
  obtain ⟨h1, h2, m0, c0, hz, hg⟩ := row24 (v0 := 53) (o := o) (by decide) (c := 0x6B) rfl hw
  exact word_agrees hw.symm wf ht rfl h1 h2 m0 (by decide) (fun _ => pfx_takes m0 (by decide)) (fun h => (Bool.false_ne_true h).elim)
    ((decodeBase_cross m0 (by decide)).trans (by unfold decodeCross; rw [m0]; exact (if_pos c0).trans (raw_ok (congrArg _ hg) hz)))

/-- The round trip of redw. -/
theorem redw (o : OpVRedS) : Statement (.redw o) := by
  intro e _ wf ht
  obtain ⟨w, hw⟩ : ∃ w, w = 0x6D + putVRedS o := ⟨_, rfl⟩
  obtain ⟨h1, h2, m0, c0, hz, hg⟩ := row25 (v0 := 54) (o := o) (by decide) (c := 0x6D) rfl hw
  exact word_agrees hw.symm wf ht rfl h1 h2 m0 (by decide) (fun _ => pfx_takes m0 (by decide)) (fun h => (Bool.false_ne_true h).elim)
    ((decodeBase_cross m0 (by decide)).trans (by unfold decodeCross; rw [m0]; exact (if_pos c0).trans (raw_ok (congrArg _ hg) hz)))

/-- The round trip of scan. -/
theorem scan (o : OpVRed) : Statement (.scan o) := by
  intro e _ wf ht
  obtain ⟨w, hw⟩ : ∃ w, w = 0x6F + putVRed o := ⟨_, rfl⟩
  obtain ⟨h1, h2, m0, c0, hz, hg⟩ := row27 (v0 := 55) (o := o) (by decide) (c := 0x6F) rfl hw
  exact word_agrees hw.symm wf ht rfl h1 h2 m0 (by decide) (fun _ => pfx_takes m0 (by decide)) (fun h => (Bool.false_ne_true h).elim)
    ((decodeBase_cross m0 (by decide)).trans (by unfold decodeCross; rw [m0]; exact (if_neg c0).trans (raw_ok (congrArg _ hg) hz)))

/-- The round trip of scanEx. -/
theorem scanEx (o : OpVRed) : Statement (.scanEx o) := by
  intro e _ wf ht
  obtain ⟨w, hw⟩ : ∃ w, w = 0x8000006F + putVRed o := ⟨_, rfl⟩
  obtain ⟨h1, h2, m0, c0, hz, hg⟩ := row26 (v0 := 55) (o := o) (by decide) (c := 0x8000006F) rfl hw
  exact word_agrees hw.symm wf ht rfl h1 h2 m0 (by decide) (fun _ => pfx_takes m0 (by decide)) (fun h => (Bool.false_ne_true h).elim)
    ((decodeBase_cross m0 (by decide)).trans (by unfold decodeCross; rw [m0]; exact (if_pos c0).trans (raw_ok (congrArg _ hg) hz)))

/-- The round trip of sscan. -/
theorem sscan (o : OpVSsc) : Statement (.sscan o) := by
  intro e _ wf ht
  obtain ⟨w, hw⟩ : ∃ w, w = 0x71 + putVSsc o := ⟨_, rfl⟩
  obtain ⟨h1, h2, m0, c0, hz, hg⟩ := row29 (v0 := 56) (o := o) (by decide) (c := 0x71) rfl hw
  exact word_agrees hw.symm wf ht rfl h1 h2 m0 (by decide) (fun _ => pfx_takes m0 (by decide)) (fun h => (Bool.false_ne_true h).elim)
    ((decodeBase_cross m0 (by decide)).trans (by unfold decodeCross; rw [m0]; exact (if_neg c0).trans (raw_ok (congrArg _ hg) hz)))

/-- The round trip of sscanEx. -/
theorem sscanEx (o : OpVSsc) : Statement (.sscanEx o) := by
  intro e _ wf ht
  obtain ⟨w, hw⟩ : ∃ w, w = 0x80000071 + putVSsc o := ⟨_, rfl⟩
  obtain ⟨h1, h2, m0, c0, hz, hg⟩ := row28 (v0 := 56) (o := o) (by decide) (c := 0x80000071) rfl hw
  exact word_agrees hw.symm wf ht rfl h1 h2 m0 (by decide) (fun _ => pfx_takes m0 (by decide)) (fun h => (Bool.false_ne_true h).elim)
    ((decodeBase_cross m0 (by decide)).trans (by unfold decodeCross; rw [m0]; exact (if_pos c0).trans (raw_ok (congrArg _ hg) hz)))

/-- The round trip of ballot. -/
theorem ballot (o : OpVBal) : Statement (.ballot o) := by
  intro e _ wf ht
  obtain ⟨w, hw⟩ : ∃ w, w = 0x73 + putVBal o := ⟨_, rfl⟩
  obtain ⟨h1, h2, m0, c0, hz, hg⟩ := row31 (v0 := 57) (o := o) (by decide) (c := 0x73) rfl hw
  exact word_agrees hw.symm wf ht rfl h1 h2 m0 (by decide) (fun _ => pfx_takes m0 (by decide)) (fun h => (Bool.false_ne_true h).elim)
    ((decodeBase_cross m0 (by decide)).trans (by unfold decodeCross; rw [m0]; exact (if_neg c0).trans (raw_ok (congrArg _ hg) hz)))

/-- The round trip of ballotM. -/
theorem ballotM (o : OpVBalM) : Statement (.ballotM o) := by
  intro e _ wf ht
  obtain ⟨w, hw⟩ : ∃ w, w = 0x80000073 + putVBalM o := ⟨_, rfl⟩
  obtain ⟨h1, h2, m0, c0, hz, hg⟩ := row30 (v0 := 57) (o := o) (by decide) (c := 0x80000073) rfl hw
  exact word_agrees hw.symm wf ht rfl h1 h2 m0 (by decide) (fun _ => pfx_takes m0 (by decide)) (fun h => (Bool.false_ne_true h).elim)
    ((decodeBase_cross m0 (by decide)).trans (by unfold decodeCross; rw [m0]; exact (if_pos c0).trans (raw_ok (congrArg _ hg) hz)))

/-- The round trip of mand. -/
theorem mand (o : OpM3) : Statement (.mand o) := by
  intro e _ wf ht
  obtain ⟨w, hw⟩ : ∃ w, w = 0x75 + putM3 o := ⟨_, rfl⟩
  obtain ⟨h1, h2, m0, m1, c0, hz, hg⟩ := row32 (v0 := 58) (v1 := 0) (o := o) (by decide) (by decide) (c := 0x75) rfl hw
  exact word_agrees hw.symm wf ht rfl h1 h2 m0 (by decide) (fun _ => pfx_takes m0 (by decide)) (fun h => (Bool.false_ne_true h).elim)
    ((decodeBase_cross m0 (by decide)).trans (by unfold decodeCross; rw [m0, m1]; exact (if_pos c0).trans (raw_ok (congrArg _ hg) hz)))

/-- The round trip of mor. -/
theorem mor (o : OpM3) : Statement (.mor o) := by
  intro e _ wf ht
  obtain ⟨w, hw⟩ : ∃ w, w = 0x2000075 + putM3 o := ⟨_, rfl⟩
  obtain ⟨h1, h2, m0, m1, c0, hz, hg⟩ := row32 (v0 := 58) (v1 := 1) (o := o) (by decide) (by decide) (c := 0x2000075) rfl hw
  exact word_agrees hw.symm wf ht rfl h1 h2 m0 (by decide) (fun _ => pfx_takes m0 (by decide)) (fun h => (Bool.false_ne_true h).elim)
    ((decodeBase_cross m0 (by decide)).trans (by unfold decodeCross; rw [m0, m1]; exact (if_pos c0).trans (raw_ok (congrArg _ hg) hz)))

/-- The round trip of mxor. -/
theorem mxor (o : OpM3) : Statement (.mxor o) := by
  intro e _ wf ht
  obtain ⟨w, hw⟩ : ∃ w, w = 0x4000075 + putM3 o := ⟨_, rfl⟩
  obtain ⟨h1, h2, m0, m1, c0, hz, hg⟩ := row32 (v0 := 58) (v1 := 2) (o := o) (by decide) (by decide) (c := 0x4000075) rfl hw
  exact word_agrees hw.symm wf ht rfl h1 h2 m0 (by decide) (fun _ => pfx_takes m0 (by decide)) (fun h => (Bool.false_ne_true h).elim)
    ((decodeBase_cross m0 (by decide)).trans (by unfold decodeCross; rw [m0, m1]; exact (if_pos c0).trans (raw_ok (congrArg _ hg) hz)))

/-- The round trip of mnot. -/
theorem mnot (o : OpM2) : Statement (.mnot o) := by
  intro e _ wf ht
  obtain ⟨w, hw⟩ : ∃ w, w = 0x6000075 + putM2 o := ⟨_, rfl⟩
  obtain ⟨h1, h2, m0, m1, c0, hz, hg⟩ := row33 (v0 := 58) (v1 := 3) (o := o) (by decide) (by decide) (c := 0x6000075) rfl hw
  exact word_agrees hw.symm wf ht rfl h1 h2 m0 (by decide) (fun _ => pfx_takes m0 (by decide)) (fun h => (Bool.false_ne_true h).elim)
    ((decodeBase_cross m0 (by decide)).trans (by unfold decodeCross; rw [m0, m1]; exact (if_pos c0).trans (raw_ok (congrArg _ hg) hz)))

/-- The round trip of mpopc. -/
theorem mpopc (o : OpMS) : Statement (.mpopc o) := by
  intro e _ wf ht
  obtain ⟨w, hw⟩ : ∃ w, w = 0x8000075 + putMS o := ⟨_, rfl⟩
  obtain ⟨h1, h2, m0, m1, c0, hz, hg⟩ := row34 (v0 := 58) (v1 := 4) (o := o) (by decide) (by decide) (c := 0x8000075) rfl hw
  exact word_agrees hw.symm wf ht rfl h1 h2 m0 (by decide) (fun _ => pfx_takes m0 (by decide)) (fun h => (Bool.false_ne_true h).elim)
    ((decodeBase_cross m0 (by decide)).trans (by unfold decodeCross; rw [m0, m1]; exact (if_pos c0).trans (raw_ok (congrArg _ hg) hz)))

/-- The round trip of vtosFirst. -/
theorem vtosFirst (o : OpVSf) : Statement (.vtosFirst o) := by
  intro e _ wf ht
  obtain ⟨w, hw⟩ : ∃ w, w = 0x10000077 + putVSf o := ⟨_, rfl⟩
  obtain ⟨h1, h2, m0, c0, c1, hz, hg⟩ := row37 (v0 := 59) (o := o) (by decide) (c := 0x10000077) rfl hw
  exact word_agrees hw.symm wf ht rfl h1 h2 m0 (by decide) (fun _ => pfx_takes m0 (by decide)) (fun h => (Bool.false_ne_true h).elim)
    ((decodeBase_cross m0 (by decide)).trans (by unfold decodeCross; rw [m0]; exact (if_neg c0).trans ((if_pos c1).trans (raw_ok (congrArg _ hg) hz))))

/-- The round trip of vtos. -/
theorem vtos (o : OpVSv) : Statement (.vtos o) := by
  intro e _ wf ht
  obtain ⟨w, hw⟩ : ∃ w, w = 0x77 + putVSv o := ⟨_, rfl⟩
  obtain ⟨h1, h2, m0, c0, c1, hz, hg⟩ := row38 (v0 := 59) (o := o) (by decide) (c := 0x77) rfl hw
  exact word_agrees hw.symm wf ht rfl h1 h2 m0 (by decide) (fun _ => pfx_takes m0 (by decide)) (fun h => (Bool.false_ne_true h).elim)
    ((decodeBase_cross m0 (by decide)).trans (by unfold decodeCross; rw [m0]; exact (if_neg c0).trans ((if_neg c1).trans (raw_ok (congrArg _ hg) hz))))

/-- The round trip of stov. -/
theorem stov (o : OpVStov) : Statement (.stov o) := by
  intro e _ wf ht
  obtain ⟨w, hw⟩ : ∃ w, w = 0x80000077 + putVStov o := ⟨_, rfl⟩
  obtain ⟨h1, h2, m0, c0, c1, hz, hg⟩ := row35 (v0 := 59) (o := o) (by decide) (c := 0x80000077) rfl hw
  exact word_agrees hw.symm wf ht rfl h1 h2 m0 (by decide) (fun _ => pfx_takes m0 (by decide)) (fun h => (Bool.false_ne_true h).elim)
    ((decodeBase_cross m0 (by decide)).trans (by unfold decodeCross; rw [m0]; exact (if_pos c0).trans ((if_pos c1).trans (raw_ok (congrArg _ hg) hz))))

/-- The round trip of stovHi. -/
theorem stovHi (o : OpVStov) : Statement (.stovHi o) := by
  intro e _ wf ht
  obtain ⟨w, hw⟩ : ∃ w, w = 0x80200077 + putVStov o := ⟨_, rfl⟩
  obtain ⟨h1, h2, m0, c0, c1, c2, hz, hg⟩ := row36 (v0 := 59) (o := o) (by decide) (c := 0x80200077) rfl hw
  exact word_agrees hw.symm wf ht rfl h1 h2 m0 (by decide) (fun _ => pfx_takes m0 (by decide)) (fun h => (Bool.false_ne_true h).elim)
    ((decodeBase_cross m0 (by decide)).trans (by unfold decodeCross; rw [m0]; exact (if_pos c0).trans ((if_neg c1).trans ((if_pos c2).trans (raw_ok (congrArg _ hg) hz)))))

/-- The round trip of sete. -/
theorem sete (o : OpV1) : Statement (.sete o) := by
  intro e _ wf ht
  obtain ⟨w, hw⟩ : ∃ w, w = 0x79 + putV1 o := ⟨_, rfl⟩
  obtain ⟨h1, h2, m0, m1, c0, hz, hg⟩ := row39 (v0 := 60) (v1 := 0) (o := o) (by decide) (by decide) (c := 0x79) rfl hw
  exact word_agrees hw.symm wf ht rfl h1 h2 m0 (by decide) (fun _ => pfx_takes m0 (by decide)) (fun h => (Bool.false_ne_true h).elim)
    ((decodeBase_cross m0 (by decide)).trans (by unfold decodeCross; rw [m0, m1]; exact (if_pos c0).trans (raw_ok (congrArg _ hg) hz)))

/-- The round trip of setf. -/
theorem setf (o : OpV1) : Statement (.setf o) := by
  intro e _ wf ht
  obtain ⟨w, hw⟩ : ∃ w, w = 0x2000079 + putV1 o := ⟨_, rfl⟩
  obtain ⟨h1, h2, m0, m1, c0, hz, hg⟩ := row39 (v0 := 60) (v1 := 1) (o := o) (by decide) (by decide) (c := 0x2000079) rfl hw
  exact word_agrees hw.symm wf ht rfl h1 h2 m0 (by decide) (fun _ => pfx_takes m0 (by decide)) (fun h => (Bool.false_ne_true h).elim)
    ((decodeBase_cross m0 (by decide)).trans (by unfold decodeCross; rw [m0, m1]; exact (if_pos c0).trans (raw_ok (congrArg _ hg) hz)))

/-- The round trip of tstf. -/
theorem tstf (o : OpVTst) : Statement (.tstf o) := by
  intro e _ wf ht
  obtain ⟨w, hw⟩ : ∃ w, w = 0x4000079 + putVTst o := ⟨_, rfl⟩
  obtain ⟨h1, h2, m0, m1, c0, hz, hg⟩ := row40 (v0 := 60) (v1 := 2) (o := o) (by decide) (by decide) (c := 0x4000079) rfl hw
  exact word_agrees hw.symm wf ht rfl h1 h2 m0 (by decide) (fun _ => pfx_takes m0 (by decide)) (fun h => (Bool.false_ne_true h).elim)
    ((decodeBase_cross m0 (by decide)).trans (by unfold decodeCross; rw [m0, m1]; exact (if_pos c0).trans (raw_ok (congrArg _ hg) hz)))

/-- The round trip of sadd. -/
theorem sadd (o : OpS3) : Statement (.sadd o) := by
  intro e _ wf ht
  obtain ⟨w, hw⟩ : ∃ w, w = 0x81 + putS3 o := ⟨_, rfl⟩
  obtain ⟨h1, h2, m0, m1, hg⟩ := row41 (v0 := 64) (v1 := 0) (o := o) (by decide) (by decide) (c := 0x81) rfl hw
  exact word_agrees hw.symm wf ht rfl h1 h2 m0 (by decide) (fun h => (Bool.false_ne_true h).elim) (fun h => (Bool.false_ne_true h).elim)
    ((decodeBase_scal m0 (by decide)).trans (by unfold decodeScal; rw [m0, m1]; exact raw_ok (congrArg _ hg) rfl))

/-- The round trip of ssub. -/
theorem ssub (o : OpS3) : Statement (.ssub o) := by
  intro e _ wf ht
  obtain ⟨w, hw⟩ : ∃ w, w = 0x4000081 + putS3 o := ⟨_, rfl⟩
  obtain ⟨h1, h2, m0, m1, hg⟩ := row41 (v0 := 64) (v1 := 1) (o := o) (by decide) (by decide) (c := 0x4000081) rfl hw
  exact word_agrees hw.symm wf ht rfl h1 h2 m0 (by decide) (fun h => (Bool.false_ne_true h).elim) (fun h => (Bool.false_ne_true h).elim)
    ((decodeBase_scal m0 (by decide)).trans (by unfold decodeScal; rw [m0, m1]; exact raw_ok (congrArg _ hg) rfl))

/-- The round trip of smul. -/
theorem smul (o : OpS3) : Statement (.smul o) := by
  intro e _ wf ht
  obtain ⟨w, hw⟩ : ∃ w, w = 0x8000081 + putS3 o := ⟨_, rfl⟩
  obtain ⟨h1, h2, m0, m1, hg⟩ := row41 (v0 := 64) (v1 := 2) (o := o) (by decide) (by decide) (c := 0x8000081) rfl hw
  exact word_agrees hw.symm wf ht rfl h1 h2 m0 (by decide) (fun h => (Bool.false_ne_true h).elim) (fun h => (Bool.false_ne_true h).elim)
    ((decodeBase_scal m0 (by decide)).trans (by unfold decodeScal; rw [m0, m1]; exact raw_ok (congrArg _ hg) rfl))

/-- The round trip of smulh. -/
theorem smulh (o : OpS3) : Statement (.smulh o) := by
  intro e _ wf ht
  obtain ⟨w, hw⟩ : ∃ w, w = 0xC000081 + putS3 o := ⟨_, rfl⟩
  obtain ⟨h1, h2, m0, m1, hg⟩ := row41 (v0 := 64) (v1 := 3) (o := o) (by decide) (by decide) (c := 0xC000081) rfl hw
  exact word_agrees hw.symm wf ht rfl h1 h2 m0 (by decide) (fun h => (Bool.false_ne_true h).elim) (fun h => (Bool.false_ne_true h).elim)
    ((decodeBase_scal m0 (by decide)).trans (by unfold decodeScal; rw [m0, m1]; exact raw_ok (congrArg _ hg) rfl))

/-- The round trip of smulhu. -/
theorem smulhu (o : OpS3) : Statement (.smulhu o) := by
  intro e _ wf ht
  obtain ⟨w, hw⟩ : ∃ w, w = 0x10000081 + putS3 o := ⟨_, rfl⟩
  obtain ⟨h1, h2, m0, m1, hg⟩ := row41 (v0 := 64) (v1 := 4) (o := o) (by decide) (by decide) (c := 0x10000081) rfl hw
  exact word_agrees hw.symm wf ht rfl h1 h2 m0 (by decide) (fun h => (Bool.false_ne_true h).elim) (fun h => (Bool.false_ne_true h).elim)
    ((decodeBase_scal m0 (by decide)).trans (by unfold decodeScal; rw [m0, m1]; exact raw_ok (congrArg _ hg) rfl))

/-- The round trip of sand. -/
theorem sand (o : OpS3) : Statement (.sand o) := by
  intro e _ wf ht
  obtain ⟨w, hw⟩ : ∃ w, w = 0x14000081 + putS3 o := ⟨_, rfl⟩
  obtain ⟨h1, h2, m0, m1, hg⟩ := row41 (v0 := 64) (v1 := 5) (o := o) (by decide) (by decide) (c := 0x14000081) rfl hw
  exact word_agrees hw.symm wf ht rfl h1 h2 m0 (by decide) (fun h => (Bool.false_ne_true h).elim) (fun h => (Bool.false_ne_true h).elim)
    ((decodeBase_scal m0 (by decide)).trans (by unfold decodeScal; rw [m0, m1]; exact raw_ok (congrArg _ hg) rfl))

/-- The round trip of sor. -/
theorem sor (o : OpS3) : Statement (.sor o) := by
  intro e _ wf ht
  obtain ⟨w, hw⟩ : ∃ w, w = 0x18000081 + putS3 o := ⟨_, rfl⟩
  obtain ⟨h1, h2, m0, m1, hg⟩ := row41 (v0 := 64) (v1 := 6) (o := o) (by decide) (by decide) (c := 0x18000081) rfl hw
  exact word_agrees hw.symm wf ht rfl h1 h2 m0 (by decide) (fun h => (Bool.false_ne_true h).elim) (fun h => (Bool.false_ne_true h).elim)
    ((decodeBase_scal m0 (by decide)).trans (by unfold decodeScal; rw [m0, m1]; exact raw_ok (congrArg _ hg) rfl))

/-- The round trip of sxor. -/
theorem sxor (o : OpS3) : Statement (.sxor o) := by
  intro e _ wf ht
  obtain ⟨w, hw⟩ : ∃ w, w = 0x1C000081 + putS3 o := ⟨_, rfl⟩
  obtain ⟨h1, h2, m0, m1, hg⟩ := row41 (v0 := 64) (v1 := 7) (o := o) (by decide) (by decide) (c := 0x1C000081) rfl hw
  exact word_agrees hw.symm wf ht rfl h1 h2 m0 (by decide) (fun h => (Bool.false_ne_true h).elim) (fun h => (Bool.false_ne_true h).elim)
    ((decodeBase_scal m0 (by decide)).trans (by unfold decodeScal; rw [m0, m1]; exact raw_ok (congrArg _ hg) rfl))

/-- The round trip of sshl. -/
theorem sshl (o : OpS3) : Statement (.sshl o) := by
  intro e _ wf ht
  obtain ⟨w, hw⟩ : ∃ w, w = 0x20000081 + putS3 o := ⟨_, rfl⟩
  obtain ⟨h1, h2, m0, m1, hg⟩ := row41 (v0 := 64) (v1 := 8) (o := o) (by decide) (by decide) (c := 0x20000081) rfl hw
  exact word_agrees hw.symm wf ht rfl h1 h2 m0 (by decide) (fun h => (Bool.false_ne_true h).elim) (fun h => (Bool.false_ne_true h).elim)
    ((decodeBase_scal m0 (by decide)).trans (by unfold decodeScal; rw [m0, m1]; exact raw_ok (congrArg _ hg) rfl))

/-- The round trip of sshr. -/
theorem sshr (o : OpS3) : Statement (.sshr o) := by
  intro e _ wf ht
  obtain ⟨w, hw⟩ : ∃ w, w = 0x24000081 + putS3 o := ⟨_, rfl⟩
  obtain ⟨h1, h2, m0, m1, hg⟩ := row41 (v0 := 64) (v1 := 9) (o := o) (by decide) (by decide) (c := 0x24000081) rfl hw
  exact word_agrees hw.symm wf ht rfl h1 h2 m0 (by decide) (fun h => (Bool.false_ne_true h).elim) (fun h => (Bool.false_ne_true h).elim)
    ((decodeBase_scal m0 (by decide)).trans (by unfold decodeScal; rw [m0, m1]; exact raw_ok (congrArg _ hg) rfl))

/-- The round trip of ssar. -/
theorem ssar (o : OpS3) : Statement (.ssar o) := by
  intro e _ wf ht
  obtain ⟨w, hw⟩ : ∃ w, w = 0x28000081 + putS3 o := ⟨_, rfl⟩
  obtain ⟨h1, h2, m0, m1, hg⟩ := row41 (v0 := 64) (v1 := 10) (o := o) (by decide) (by decide) (c := 0x28000081) rfl hw
  exact word_agrees hw.symm wf ht rfl h1 h2 m0 (by decide) (fun h => (Bool.false_ne_true h).elim) (fun h => (Bool.false_ne_true h).elim)
    ((decodeBase_scal m0 (by decide)).trans (by unfold decodeScal; rw [m0, m1]; exact raw_ok (congrArg _ hg) rfl))

/-- The round trip of smin. -/
theorem smin (o : OpS3) : Statement (.smin o) := by
  intro e _ wf ht
  obtain ⟨w, hw⟩ : ∃ w, w = 0x2C000081 + putS3 o := ⟨_, rfl⟩
  obtain ⟨h1, h2, m0, m1, hg⟩ := row41 (v0 := 64) (v1 := 11) (o := o) (by decide) (by decide) (c := 0x2C000081) rfl hw
  exact word_agrees hw.symm wf ht rfl h1 h2 m0 (by decide) (fun h => (Bool.false_ne_true h).elim) (fun h => (Bool.false_ne_true h).elim)
    ((decodeBase_scal m0 (by decide)).trans (by unfold decodeScal; rw [m0, m1]; exact raw_ok (congrArg _ hg) rfl))

/-- The round trip of smax. -/
theorem smax (o : OpS3) : Statement (.smax o) := by
  intro e _ wf ht
  obtain ⟨w, hw⟩ : ∃ w, w = 0x30000081 + putS3 o := ⟨_, rfl⟩
  obtain ⟨h1, h2, m0, m1, hg⟩ := row41 (v0 := 64) (v1 := 12) (o := o) (by decide) (by decide) (c := 0x30000081) rfl hw
  exact word_agrees hw.symm wf ht rfl h1 h2 m0 (by decide) (fun h => (Bool.false_ne_true h).elim) (fun h => (Bool.false_ne_true h).elim)
    ((decodeBase_scal m0 (by decide)).trans (by unfold decodeScal; rw [m0, m1]; exact raw_ok (congrArg _ hg) rfl))

/-- The round trip of sminu. -/
theorem sminu (o : OpS3) : Statement (.sminu o) := by
  intro e _ wf ht
  obtain ⟨w, hw⟩ : ∃ w, w = 0x34000081 + putS3 o := ⟨_, rfl⟩
  obtain ⟨h1, h2, m0, m1, hg⟩ := row41 (v0 := 64) (v1 := 13) (o := o) (by decide) (by decide) (c := 0x34000081) rfl hw
  exact word_agrees hw.symm wf ht rfl h1 h2 m0 (by decide) (fun h => (Bool.false_ne_true h).elim) (fun h => (Bool.false_ne_true h).elim)
    ((decodeBase_scal m0 (by decide)).trans (by unfold decodeScal; rw [m0, m1]; exact raw_ok (congrArg _ hg) rfl))

/-- The round trip of smaxu. -/
theorem smaxu (o : OpS3) : Statement (.smaxu o) := by
  intro e _ wf ht
  obtain ⟨w, hw⟩ : ∃ w, w = 0x38000081 + putS3 o := ⟨_, rfl⟩
  obtain ⟨h1, h2, m0, m1, hg⟩ := row41 (v0 := 64) (v1 := 14) (o := o) (by decide) (by decide) (c := 0x38000081) rfl hw
  exact word_agrees hw.symm wf ht rfl h1 h2 m0 (by decide) (fun h => (Bool.false_ne_true h).elim) (fun h => (Bool.false_ne_true h).elim)
    ((decodeBase_scal m0 (by decide)).trans (by unfold decodeScal; rw [m0, m1]; exact raw_ok (congrArg _ hg) rfl))

/-- The round trip of sseq. -/
theorem sseq (o : OpS3) : Statement (.sseq o) := by
  intro e _ wf ht
  obtain ⟨w, hw⟩ : ∃ w, w = 0x3C000081 + putS3 o := ⟨_, rfl⟩
  obtain ⟨h1, h2, m0, m1, hg⟩ := row41 (v0 := 64) (v1 := 15) (o := o) (by decide) (by decide) (c := 0x3C000081) rfl hw
  exact word_agrees hw.symm wf ht rfl h1 h2 m0 (by decide) (fun h => (Bool.false_ne_true h).elim) (fun h => (Bool.false_ne_true h).elim)
    ((decodeBase_scal m0 (by decide)).trans (by unfold decodeScal; rw [m0, m1]; exact raw_ok (congrArg _ hg) rfl))

/-- The round trip of ssne. -/
theorem ssne (o : OpS3) : Statement (.ssne o) := by
  intro e _ wf ht
  obtain ⟨w, hw⟩ : ∃ w, w = 0x40000081 + putS3 o := ⟨_, rfl⟩
  obtain ⟨h1, h2, m0, m1, hg⟩ := row41 (v0 := 64) (v1 := 16) (o := o) (by decide) (by decide) (c := 0x40000081) rfl hw
  exact word_agrees hw.symm wf ht rfl h1 h2 m0 (by decide) (fun h => (Bool.false_ne_true h).elim) (fun h => (Bool.false_ne_true h).elim)
    ((decodeBase_scal m0 (by decide)).trans (by unfold decodeScal; rw [m0, m1]; exact raw_ok (congrArg _ hg) rfl))

/-- The round trip of sslt. -/
theorem sslt (o : OpS3) : Statement (.sslt o) := by
  intro e _ wf ht
  obtain ⟨w, hw⟩ : ∃ w, w = 0x44000081 + putS3 o := ⟨_, rfl⟩
  obtain ⟨h1, h2, m0, m1, hg⟩ := row41 (v0 := 64) (v1 := 17) (o := o) (by decide) (by decide) (c := 0x44000081) rfl hw
  exact word_agrees hw.symm wf ht rfl h1 h2 m0 (by decide) (fun h => (Bool.false_ne_true h).elim) (fun h => (Bool.false_ne_true h).elim)
    ((decodeBase_scal m0 (by decide)).trans (by unfold decodeScal; rw [m0, m1]; exact raw_ok (congrArg _ hg) rfl))

/-- The round trip of ssltu. -/
theorem ssltu (o : OpS3) : Statement (.ssltu o) := by
  intro e _ wf ht
  obtain ⟨w, hw⟩ : ∃ w, w = 0x48000081 + putS3 o := ⟨_, rfl⟩
  obtain ⟨h1, h2, m0, m1, hg⟩ := row41 (v0 := 64) (v1 := 18) (o := o) (by decide) (by decide) (c := 0x48000081) rfl hw
  exact word_agrees hw.symm wf ht rfl h1 h2 m0 (by decide) (fun h => (Bool.false_ne_true h).elim) (fun h => (Bool.false_ne_true h).elim)
    ((decodeBase_scal m0 (by decide)).trans (by unfold decodeScal; rw [m0, m1]; exact raw_ok (congrArg _ hg) rfl))

/-- The round trip of ssle. -/
theorem ssle (o : OpS3) : Statement (.ssle o) := by
  intro e _ wf ht
  obtain ⟨w, hw⟩ : ∃ w, w = 0x4C000081 + putS3 o := ⟨_, rfl⟩
  obtain ⟨h1, h2, m0, m1, hg⟩ := row41 (v0 := 64) (v1 := 19) (o := o) (by decide) (by decide) (c := 0x4C000081) rfl hw
  exact word_agrees hw.symm wf ht rfl h1 h2 m0 (by decide) (fun h => (Bool.false_ne_true h).elim) (fun h => (Bool.false_ne_true h).elim)
    ((decodeBase_scal m0 (by decide)).trans (by unfold decodeScal; rw [m0, m1]; exact raw_ok (congrArg _ hg) rfl))

/-- The round trip of ssleu. -/
theorem ssleu (o : OpS3) : Statement (.ssleu o) := by
  intro e _ wf ht
  obtain ⟨w, hw⟩ : ∃ w, w = 0x50000081 + putS3 o := ⟨_, rfl⟩
  obtain ⟨h1, h2, m0, m1, hg⟩ := row41 (v0 := 64) (v1 := 20) (o := o) (by decide) (by decide) (c := 0x50000081) rfl hw
  exact word_agrees hw.symm wf ht rfl h1 h2 m0 (by decide) (fun h => (Bool.false_ne_true h).elim) (fun h => (Bool.false_ne_true h).elim)
    ((decodeBase_scal m0 (by decide)).trans (by unfold decodeScal; rw [m0, m1]; exact raw_ok (congrArg _ hg) rfl))

/-- The round trip of sclz. -/
theorem sclz (o : OpS2) : Statement (.sclz o) := by
  intro e _ wf ht
  obtain ⟨w, hw⟩ : ∃ w, w = 0x54000081 + putS2 o := ⟨_, rfl⟩
  obtain ⟨h1, h2, m0, m1, hz, hg⟩ := row42 (v0 := 64) (v1 := 21) (o := o) (by decide) (by decide) (c := 0x54000081) rfl hw
  exact word_agrees hw.symm wf ht rfl h1 h2 m0 (by decide) (fun h => (Bool.false_ne_true h).elim) (fun h => (Bool.false_ne_true h).elim)
    ((decodeBase_scal m0 (by decide)).trans (by unfold decodeScal; rw [m0, m1]; exact raw_ok (congrArg _ hg) hz))

/-- The round trip of spopc. -/
theorem spopc (o : OpS2) : Statement (.spopc o) := by
  intro e _ wf ht
  obtain ⟨w, hw⟩ : ∃ w, w = 0x58000081 + putS2 o := ⟨_, rfl⟩
  obtain ⟨h1, h2, m0, m1, hz, hg⟩ := row42 (v0 := 64) (v1 := 22) (o := o) (by decide) (by decide) (c := 0x58000081) rfl hw
  exact word_agrees hw.symm wf ht rfl h1 h2 m0 (by decide) (fun h => (Bool.false_ne_true h).elim) (fun h => (Bool.false_ne_true h).elim)
    ((decodeBase_scal m0 (by decide)).trans (by unfold decodeScal; rw [m0, m1]; exact raw_ok (congrArg _ hg) hz))

/-- The round trip of saddi. -/
theorem saddi (o : OpSI) : Statement (.saddi o) := by
  intro e _ wf ht
  obtain ⟨w, hw⟩ : ∃ w, w = 0x83 + putSI o := ⟨_, rfl⟩
  obtain ⟨h1, h2, m0, hg⟩ := row43 (v0 := 65) (o := o) (by decide) (c := 0x83) rfl hw
  exact word_agrees hw.symm wf ht rfl h1 h2 m0 (by decide) (fun h => (Bool.false_ne_true h).elim) (fun _ => lim_takes m0 (by decide))
    ((decodeBase_scal m0 (by decide)).trans (by unfold decodeScal; rw [m0]; exact raw_ok (congrArg _ hg) rfl))

/-- The round trip of sandi. -/
theorem sandi (o : OpSI) : Statement (.sandi o) := by
  intro e _ wf ht
  obtain ⟨w, hw⟩ : ∃ w, w = 0x85 + putSI o := ⟨_, rfl⟩
  obtain ⟨h1, h2, m0, hg⟩ := row43 (v0 := 66) (o := o) (by decide) (c := 0x85) rfl hw
  exact word_agrees hw.symm wf ht rfl h1 h2 m0 (by decide) (fun h => (Bool.false_ne_true h).elim) (fun _ => lim_takes m0 (by decide))
    ((decodeBase_scal m0 (by decide)).trans (by unfold decodeScal; rw [m0]; exact raw_ok (congrArg _ hg) rfl))

/-- The round trip of sori. -/
theorem sori (o : OpSI) : Statement (.sori o) := by
  intro e _ wf ht
  obtain ⟨w, hw⟩ : ∃ w, w = 0x87 + putSI o := ⟨_, rfl⟩
  obtain ⟨h1, h2, m0, hg⟩ := row43 (v0 := 67) (o := o) (by decide) (c := 0x87) rfl hw
  exact word_agrees hw.symm wf ht rfl h1 h2 m0 (by decide) (fun h => (Bool.false_ne_true h).elim) (fun _ => lim_takes m0 (by decide))
    ((decodeBase_scal m0 (by decide)).trans (by unfold decodeScal; rw [m0]; exact raw_ok (congrArg _ hg) rfl))

/-- The round trip of sxori. -/
theorem sxori (o : OpSI) : Statement (.sxori o) := by
  intro e _ wf ht
  obtain ⟨w, hw⟩ : ∃ w, w = 0x89 + putSI o := ⟨_, rfl⟩
  obtain ⟨h1, h2, m0, hg⟩ := row43 (v0 := 68) (o := o) (by decide) (c := 0x89) rfl hw
  exact word_agrees hw.symm wf ht rfl h1 h2 m0 (by decide) (fun h => (Bool.false_ne_true h).elim) (fun _ => lim_takes m0 (by decide))
    ((decodeBase_scal m0 (by decide)).trans (by unfold decodeScal; rw [m0]; exact raw_ok (congrArg _ hg) rfl))

/-- The round trip of sshli. -/
theorem sshli (o : OpSI) : Statement (.sshli o) := by
  intro e _ wf ht
  obtain ⟨w, hw⟩ : ∃ w, w = 0x8B + putSI o := ⟨_, rfl⟩
  obtain ⟨h1, h2, m0, hg⟩ := row43 (v0 := 69) (o := o) (by decide) (c := 0x8B) rfl hw
  exact word_agrees hw.symm wf ht rfl h1 h2 m0 (by decide) (fun h => (Bool.false_ne_true h).elim) (fun _ => lim_takes m0 (by decide))
    ((decodeBase_scal m0 (by decide)).trans (by unfold decodeScal; rw [m0]; exact raw_ok (congrArg _ hg) rfl))

/-- The round trip of sshri. -/
theorem sshri (o : OpSI) : Statement (.sshri o) := by
  intro e _ wf ht
  obtain ⟨w, hw⟩ : ∃ w, w = 0x8D + putSI o := ⟨_, rfl⟩
  have hx : bitAt o.imm12.toNat 6 = false := by
    have h := check_last wf (l := [_, _]) rfl
    simpa using h
  obtain ⟨h1, h2, m0, c0, hg⟩ := row45 (v0 := 70) (o := o) (by decide) hx (c := 0x8D) rfl hw
  exact word_agrees hw.symm wf ht rfl h1 h2 m0 (by decide) (fun h => (Bool.false_ne_true h).elim) (fun _ => lim_takes m0 (by decide))
    ((decodeBase_scal m0 (by decide)).trans (by unfold decodeScal; rw [m0]; exact (if_neg c0).trans (raw_ok (congrArg _ hg) rfl)))

/-- The round trip of sshriA. -/
theorem sshriA (o : OpSI) : Statement (.sshriA o) := by
  intro e _ wf ht
  obtain ⟨w, hw⟩ : ∃ w, w = 0x8D + putSI o := ⟨_, rfl⟩
  have hx : bitAt o.imm12.toNat 6 = true := by
    have h := check_last wf (l := [_, _]) rfl
    simpa using h
  obtain ⟨h1, h2, m0, c0, hg⟩ := row44 (v0 := 70) (o := o) (by decide) hx (c := 0x8D) rfl hw
  exact word_agrees hw.symm wf ht rfl h1 h2 m0 (by decide) (fun h => (Bool.false_ne_true h).elim) (fun _ => lim_takes m0 (by decide))
    ((decodeBase_scal m0 (by decide)).trans (by unfold decodeScal; rw [m0]; exact (if_pos c0).trans (raw_ok (congrArg _ hg) rfl)))

/-- The round trip of smovi. -/
theorem smovi (o : OpSIm) : Statement (.smovi o) := by
  intro e _ wf ht
  obtain ⟨w, hw⟩ : ∃ w, w = 0x8F + putSIm o := ⟨_, rfl⟩
  obtain ⟨h1, h2, m0, hz, hg⟩ := row46 (v0 := 71) (o := o) (by decide) (c := 0x8F) rfl hw
  exact word_agrees hw.symm wf ht rfl h1 h2 m0 (by decide) (fun h => (Bool.false_ne_true h).elim) (fun _ => lim_takes m0 (by decide))
    ((decodeBase_scal m0 (by decide)).trans (by unfold decodeScal; rw [m0]; exact raw_ok (congrArg _ hg) hz))

/-- The round trip of smovhi. -/
theorem smovhi (o : OpSI) : Statement (.smovhi o) := by
  intro e _ wf ht
  obtain ⟨w, hw⟩ : ∃ w, w = 0x91 + putSI o := ⟨_, rfl⟩
  obtain ⟨h1, h2, m0, hg⟩ := row43 (v0 := 72) (o := o) (by decide) (c := 0x91) rfl hw
  exact word_agrees hw.symm wf ht rfl h1 h2 m0 (by decide) (fun h => (Bool.false_ne_true h).elim) (fun _ => lim_takes m0 (by decide))
    ((decodeBase_scal m0 (by decide)).trans (by unfold decodeScal; rw [m0]; exact raw_ok (congrArg _ hg) rfl))

/-- The round trip of mxglostRead. -/
theorem mxglostRead (o : OpCsrMx) : Statement (.mxglostRead o) := by
  intro e _ wf ht
  obtain ⟨w, hw⟩ : ∃ w, w = 0x93 + putCsrMx o := ⟨_, rfl⟩
  obtain ⟨h1, h2, m0, c0, hz, hg⟩ := row47 (v0 := 73) (o := o) (by decide) (c := 0x93) rfl hw
  exact word_agrees hw.symm wf ht rfl h1 h2 m0 (by decide) (fun h => (Bool.false_ne_true h).elim) (fun h => (Bool.false_ne_true h).elim)
    ((decodeBase_scal m0 (by decide)).trans (by unfold decodeScal; rw [m0]; exact (if_pos c0).trans (raw_ok (congrArg _ hg) hz)))

/-- The round trip of csrr. -/
theorem csrr (o : OpCsrr) : Statement (.csrr o) := by
  intro e _ wf ht
  obtain ⟨w, hw⟩ : ∃ w, w = 0x93 + putCsrr o := ⟨_, rfl⟩
  have h := of_decide_eq_true (check_last wf (l := []) rfl)
  have hx : o.csr.toNat ≠ 0xC3 ∧ o.csr.toNat ≠ 0xC4 := ⟨ne_num h.1, ne_num h.2⟩
  obtain ⟨h1, h2, m0, c0, hz, hg⟩ := row48 (v0 := 73) (o := o) (by decide) hx (c := 0x93) rfl hw
  exact word_agrees hw.symm wf ht rfl h1 h2 m0 (by decide) (fun h => (Bool.false_ne_true h).elim) (fun h => (Bool.false_ne_true h).elim)
    ((decodeBase_scal m0 (by decide)).trans (by unfold decodeScal; rw [m0]; exact (if_neg c0).trans (raw_ok (congrArg _ hg) hz)))

/-- The round trip of csrw. -/
theorem csrw (o : OpCsrw) : Statement (.csrw o) := by
  intro e _ wf ht
  obtain ⟨w, hw⟩ : ∃ w, w = 0x95 + putCsrw o := ⟨_, rfl⟩
  have h := of_decide_eq_true (check_last wf (l := []) rfl)
  have hx : o.csr.toNat ≠ 0xC3 ∧ o.csr.toNat ≠ 0xC8 ∧ o.csr.toNat ≠ 0xE0 := ⟨ne_num h.1, ne_num h.2.1, ne_num h.2.2⟩
  obtain ⟨h1, h2, m0, c0, c1, c2, hz, hg⟩ := row52 (v0 := 74) (o := o) (by decide) hx (c := 0x95) rfl hw
  exact word_agrees hw.symm wf ht rfl h1 h2 m0 (by decide) (fun h => (Bool.false_ne_true h).elim) (fun h => (Bool.false_ne_true h).elim)
    ((decodeBase_scal m0 (by decide)).trans (by unfold decodeScal; rw [m0]; exact (if_neg c0).trans ((if_neg c1).trans ((if_neg c2).trans (raw_ok (congrArg _ hg) hz)))))

/-- The round trip of sslti. -/
theorem sslti (o : OpSI) : Statement (.sslti o) := by
  intro e _ wf ht
  obtain ⟨w, hw⟩ : ∃ w, w = 0x97 + putSI o := ⟨_, rfl⟩
  obtain ⟨h1, h2, m0, hg⟩ := row43 (v0 := 75) (o := o) (by decide) (c := 0x97) rfl hw
  exact word_agrees hw.symm wf ht rfl h1 h2 m0 (by decide) (fun h => (Bool.false_ne_true h).elim) (fun _ => lim_takes m0 (by decide))
    ((decodeBase_scal m0 (by decide)).trans (by unfold decodeScal; rw [m0]; exact raw_ok (congrArg _ hg) rfl))

/-- The round trip of ldB8. -/
theorem ldB8 (o : OpM) : Statement (.ldB8 o) := by
  intro e _ wf ht
  obtain ⟨w, hw⟩ : ∃ w, w = 0xA1 + putM o := ⟨_, rfl⟩
  obtain ⟨h1, h2, m0, hz, hg⟩ := row54 (v0 := 80) (o := o) (by decide) (c := 0xA1) rfl hw
  exact word_agrees hw.symm wf ht rfl h1 h2 m0 (by decide) (fun _ => pfx_takes m0 (by decide)) (fun _ => lim_takes m0 (by decide))
    ((decodeBase_mem m0 (by decide)).trans (by unfold decodeMem; rw [m0]; exact raw_ok (congrArg _ hg) hz))

/-- The round trip of ldS8. -/
theorem ldS8 (o : OpM) : Statement (.ldS8 o) := by
  intro e _ wf ht
  obtain ⟨w, hw⟩ : ∃ w, w = 0xA3 + putM o := ⟨_, rfl⟩
  obtain ⟨h1, h2, m0, hz, hg⟩ := row54 (v0 := 81) (o := o) (by decide) (c := 0xA3) rfl hw
  exact word_agrees hw.symm wf ht rfl h1 h2 m0 (by decide) (fun _ => pfx_takes m0 (by decide)) (fun _ => lim_takes m0 (by decide))
    ((decodeBase_mem m0 (by decide)).trans (by unfold decodeMem; rw [m0]; exact raw_ok (congrArg _ hg) hz))

/-- The round trip of ldB16. -/
theorem ldB16 (o : OpM) : Statement (.ldB16 o) := by
  intro e _ wf ht
  obtain ⟨w, hw⟩ : ∃ w, w = 0xA5 + putM o := ⟨_, rfl⟩
  obtain ⟨h1, h2, m0, hz, hg⟩ := row54 (v0 := 82) (o := o) (by decide) (c := 0xA5) rfl hw
  exact word_agrees hw.symm wf ht rfl h1 h2 m0 (by decide) (fun _ => pfx_takes m0 (by decide)) (fun _ => lim_takes m0 (by decide))
    ((decodeBase_mem m0 (by decide)).trans (by unfold decodeMem; rw [m0]; exact raw_ok (congrArg _ hg) hz))

/-- The round trip of ldS16. -/
theorem ldS16 (o : OpM) : Statement (.ldS16 o) := by
  intro e _ wf ht
  obtain ⟨w, hw⟩ : ∃ w, w = 0xA7 + putM o := ⟨_, rfl⟩
  obtain ⟨h1, h2, m0, hz, hg⟩ := row54 (v0 := 83) (o := o) (by decide) (c := 0xA7) rfl hw
  exact word_agrees hw.symm wf ht rfl h1 h2 m0 (by decide) (fun _ => pfx_takes m0 (by decide)) (fun _ => lim_takes m0 (by decide))
    ((decodeBase_mem m0 (by decide)).trans (by unfold decodeMem; rw [m0]; exact raw_ok (congrArg _ hg) hz))

/-- The round trip of ldB32. -/
theorem ldB32 (o : OpM) : Statement (.ldB32 o) := by
  intro e _ wf ht
  obtain ⟨w, hw⟩ : ∃ w, w = 0xA9 + putM o := ⟨_, rfl⟩
  obtain ⟨h1, h2, m0, hz, hg⟩ := row54 (v0 := 84) (o := o) (by decide) (c := 0xA9) rfl hw
  exact word_agrees hw.symm wf ht rfl h1 h2 m0 (by decide) (fun _ => pfx_takes m0 (by decide)) (fun _ => lim_takes m0 (by decide))
    ((decodeBase_mem m0 (by decide)).trans (by unfold decodeMem; rw [m0]; exact raw_ok (congrArg _ hg) hz))

/-- The round trip of ldB64. -/
theorem ldB64 (o : OpM) : Statement (.ldB64 o) := by
  intro e _ wf ht
  obtain ⟨w, hw⟩ : ∃ w, w = 0xAB + putM o := ⟨_, rfl⟩
  obtain ⟨h1, h2, m0, hz, hg⟩ := row54 (v0 := 85) (o := o) (by decide) (c := 0xAB) rfl hw
  exact word_agrees hw.symm wf ht rfl h1 h2 m0 (by decide) (fun _ => pfx_takes m0 (by decide)) (fun _ => lim_takes m0 (by decide))
    ((decodeBase_mem m0 (by decide)).trans (by unfold decodeMem; rw [m0]; exact raw_ok (congrArg _ hg) hz))

/-- The round trip of ldB128. -/
theorem ldB128 (o : OpM) : Statement (.ldB128 o) := by
  intro e _ wf ht
  obtain ⟨w, hw⟩ : ∃ w, w = 0xAD + putM o := ⟨_, rfl⟩
  obtain ⟨h1, h2, m0, hz, hg⟩ := row54 (v0 := 86) (o := o) (by decide) (c := 0xAD) rfl hw
  exact word_agrees hw.symm wf ht rfl h1 h2 m0 (by decide) (fun _ => pfx_takes m0 (by decide)) (fun _ => lim_takes m0 (by decide))
    ((decodeBase_mem m0 (by decide)).trans (by unfold decodeMem; rw [m0]; exact raw_ok (congrArg _ hg) hz))

/-- The round trip of stB8. -/
theorem stB8 (o : OpM) : Statement (.stB8 o) := by
  intro e _ wf ht
  obtain ⟨w, hw⟩ : ∃ w, w = 0xAF + putM o := ⟨_, rfl⟩
  obtain ⟨h1, h2, m0, hz, hg⟩ := row54 (v0 := 87) (o := o) (by decide) (c := 0xAF) rfl hw
  exact word_agrees hw.symm wf ht rfl h1 h2 m0 (by decide) (fun _ => pfx_takes m0 (by decide)) (fun _ => lim_takes m0 (by decide))
    ((decodeBase_mem m0 (by decide)).trans (by unfold decodeMem; rw [m0]; exact raw_ok (congrArg _ hg) hz))

/-- The round trip of stB16. -/
theorem stB16 (o : OpM) : Statement (.stB16 o) := by
  intro e _ wf ht
  obtain ⟨w, hw⟩ : ∃ w, w = 0xB1 + putM o := ⟨_, rfl⟩
  obtain ⟨h1, h2, m0, hz, hg⟩ := row54 (v0 := 88) (o := o) (by decide) (c := 0xB1) rfl hw
  exact word_agrees hw.symm wf ht rfl h1 h2 m0 (by decide) (fun _ => pfx_takes m0 (by decide)) (fun _ => lim_takes m0 (by decide))
    ((decodeBase_mem m0 (by decide)).trans (by unfold decodeMem; rw [m0]; exact raw_ok (congrArg _ hg) hz))

/-- The round trip of stB32. -/
theorem stB32 (o : OpM) : Statement (.stB32 o) := by
  intro e _ wf ht
  obtain ⟨w, hw⟩ : ∃ w, w = 0xB3 + putM o := ⟨_, rfl⟩
  obtain ⟨h1, h2, m0, hz, hg⟩ := row54 (v0 := 89) (o := o) (by decide) (c := 0xB3) rfl hw
  exact word_agrees hw.symm wf ht rfl h1 h2 m0 (by decide) (fun _ => pfx_takes m0 (by decide)) (fun _ => lim_takes m0 (by decide))
    ((decodeBase_mem m0 (by decide)).trans (by unfold decodeMem; rw [m0]; exact raw_ok (congrArg _ hg) hz))

/-- The round trip of stB64. -/
theorem stB64 (o : OpM) : Statement (.stB64 o) := by
  intro e _ wf ht
  obtain ⟨w, hw⟩ : ∃ w, w = 0xB5 + putM o := ⟨_, rfl⟩
  obtain ⟨h1, h2, m0, hz, hg⟩ := row54 (v0 := 90) (o := o) (by decide) (c := 0xB5) rfl hw
  exact word_agrees hw.symm wf ht rfl h1 h2 m0 (by decide) (fun _ => pfx_takes m0 (by decide)) (fun _ => lim_takes m0 (by decide))
    ((decodeBase_mem m0 (by decide)).trans (by unfold decodeMem; rw [m0]; exact raw_ok (congrArg _ hg) hz))

/-- The round trip of stB128. -/
theorem stB128 (o : OpM) : Statement (.stB128 o) := by
  intro e _ wf ht
  obtain ⟨w, hw⟩ : ∃ w, w = 0xB7 + putM o := ⟨_, rfl⟩
  obtain ⟨h1, h2, m0, hz, hg⟩ := row54 (v0 := 91) (o := o) (by decide) (c := 0xB7) rfl hw
  exact word_agrees hw.symm wf ht rfl h1 h2 m0 (by decide) (fun _ => pfx_takes m0 (by decide)) (fun _ => lim_takes m0 (by decide))
    ((decodeBase_mem m0 (by decide)).trans (by unfold decodeMem; rw [m0]; exact raw_ok (congrArg _ hg) hz))

/-- The round trip of stN4. -/
theorem stN4 (o : OpM) : Statement (.stN4 o) := by
  intro e _ wf ht
  obtain ⟨w, hw⟩ : ∃ w, w = 0xB9 + putM o := ⟨_, rfl⟩
  obtain ⟨h1, h2, m0, hz, hg⟩ := row54 (v0 := 92) (o := o) (by decide) (c := 0xB9) rfl hw
  exact word_agrees hw.symm wf ht rfl h1 h2 m0 (by decide) (fun _ => pfx_takes m0 (by decide)) (fun _ => lim_takes m0 (by decide))
    ((decodeBase_mem m0 (by decide)).trans (by unfold decodeMem; rw [m0]; exact raw_ok (congrArg _ hg) hz))

/-- The round trip of stN6. -/
theorem stN6 (o : OpM) : Statement (.stN6 o) := by
  intro e _ wf ht
  obtain ⟨w, hw⟩ : ∃ w, w = 0xBB + putM o := ⟨_, rfl⟩
  obtain ⟨h1, h2, m0, hz, hg⟩ := row54 (v0 := 93) (o := o) (by decide) (c := 0xBB) rfl hw
  exact word_agrees hw.symm wf ht rfl h1 h2 m0 (by decide) (fun _ => pfx_takes m0 (by decide)) (fun _ => lim_takes m0 (by decide))
    ((decodeBase_mem m0 (by decide)).trans (by unfold decodeMem; rw [m0]; exact raw_ok (congrArg _ hg) hz))

/-- The round trip of ldAcqB32. -/
theorem ldAcqB32 (o : OpMSc) : Statement (.ldAcqB32 o) := by
  intro e _ wf ht
  obtain ⟨w, hw⟩ : ∃ w, w = 0xBD + putMSc o := ⟨_, rfl⟩
  obtain ⟨h1, h2, m0, hz, hg⟩ := row55 (v0 := 94) (o := o) (by decide) (c := 0xBD) rfl hw
  exact word_agrees hw.symm wf ht rfl h1 h2 m0 (by decide) (fun _ => pfx_takes m0 (by decide)) (fun _ => lim_takes m0 (by decide))
    ((decodeBase_mem m0 (by decide)).trans (by unfold decodeMem; rw [m0]; exact raw_ok (congrArg _ hg) hz))

/-- The round trip of ldAcqB64. -/
theorem ldAcqB64 (o : OpMSc) : Statement (.ldAcqB64 o) := by
  intro e _ wf ht
  obtain ⟨w, hw⟩ : ∃ w, w = 0xBF + putMSc o := ⟨_, rfl⟩
  obtain ⟨h1, h2, m0, hz, hg⟩ := row55 (v0 := 95) (o := o) (by decide) (c := 0xBF) rfl hw
  exact word_agrees hw.symm wf ht rfl h1 h2 m0 (by decide) (fun _ => pfx_takes m0 (by decide)) (fun _ => lim_takes m0 (by decide))
    ((decodeBase_mem m0 (by decide)).trans (by unfold decodeMem; rw [m0]; exact raw_ok (congrArg _ hg) hz))

/-- The round trip of stRelB32. -/
theorem stRelB32 (o : OpMSc) : Statement (.stRelB32 o) := by
  intro e _ wf ht
  obtain ⟨w, hw⟩ : ∃ w, w = 0xC1 + putMSc o := ⟨_, rfl⟩
  obtain ⟨h1, h2, m0, hz, hg⟩ := row55 (v0 := 96) (o := o) (by decide) (c := 0xC1) rfl hw
  exact word_agrees hw.symm wf ht rfl h1 h2 m0 (by decide) (fun _ => pfx_takes m0 (by decide)) (fun _ => lim_takes m0 (by decide))
    ((decodeBase_mem m0 (by decide)).trans (by unfold decodeMem; rw [m0]; exact raw_ok (congrArg _ hg) hz))

/-- The round trip of stRelB64. -/
theorem stRelB64 (o : OpMSc) : Statement (.stRelB64 o) := by
  intro e _ wf ht
  obtain ⟨w, hw⟩ : ∃ w, w = 0xC3 + putMSc o := ⟨_, rfl⟩
  obtain ⟨h1, h2, m0, hz, hg⟩ := row55 (v0 := 97) (o := o) (by decide) (c := 0xC3) rfl hw
  exact word_agrees hw.symm wf ht rfl h1 h2 m0 (by decide) (fun _ => pfx_takes m0 (by decide)) (fun _ => lim_takes m0 (by decide))
    ((decodeBase_mem m0 (by decide)).trans (by unfold decodeMem; rw [m0]; exact raw_ok (congrArg _ hg) hz))

/-- The round trip of atomB32. -/
theorem atomB32 (o : OpMAt) : Statement (.atomB32 o) := by
  intro e _ wf ht
  obtain ⟨w, hw⟩ : ∃ w, w = 0xC5 + putMAt o := ⟨_, rfl⟩
  obtain ⟨h1, h2, m0, hg⟩ := row56 (v0 := 98) (o := o) (by decide) (c := 0xC5) rfl hw
  exact word_agrees hw.symm wf ht rfl h1 h2 m0 (by decide) (fun _ => pfx_takes m0 (by decide)) (fun _ => lim_takes m0 (by decide))
    ((decodeBase_mem m0 (by decide)).trans (by unfold decodeMem; rw [m0]; exact raw_ok (congrArg _ hg) rfl))

/-- The round trip of atomB64. -/
theorem atomB64 (o : OpMAt) : Statement (.atomB64 o) := by
  intro e _ wf ht
  obtain ⟨w, hw⟩ : ∃ w, w = 0xC7 + putMAt o := ⟨_, rfl⟩
  obtain ⟨h1, h2, m0, hg⟩ := row56 (v0 := 99) (o := o) (by decide) (c := 0xC7) rfl hw
  exact word_agrees hw.symm wf ht rfl h1 h2 m0 (by decide) (fun _ => pfx_takes m0 (by decide)) (fun _ => lim_takes m0 (by decide))
    ((decodeBase_mem m0 (by decide)).trans (by unfold decodeMem; rw [m0]; exact raw_ok (congrArg _ hg) rfl))

/-- The round trip of pf. -/
theorem pf (o : OpMPf) : Statement (.pf o) := by
  intro e _ wf ht
  obtain ⟨w, hw⟩ : ∃ w, w = 0xC9 + putMPf o := ⟨_, rfl⟩
  obtain ⟨h1, h2, m0, hz, hg⟩ := row57 (v0 := 100) (o := o) (by decide) (c := 0xC9) rfl hw
  exact word_agrees hw.symm wf ht rfl h1 h2 m0 (by decide) (fun _ => pfx_takes m0 (by decide)) (fun _ => lim_takes m0 (by decide))
    ((decodeBase_mem m0 (by decide)).trans (by unfold decodeMem; rw [m0]; exact raw_ok (congrArg _ hg) hz))

/-- The round trip of spldB8. -/
theorem spldB8 (o : OpMSwz) : Statement (.spldB8 o) := by
  intro e _ wf ht
  obtain ⟨w, hw⟩ : ∃ w, w = 0xCB + putMSwz o := ⟨_, rfl⟩
  obtain ⟨h1, h2, m0, hg⟩ := row58 (v0 := 101) (o := o) (by decide) (c := 0xCB) rfl hw
  exact word_agrees hw.symm wf ht rfl h1 h2 m0 (by decide) (fun _ => pfx_takes m0 (by decide)) (fun _ => lim_takes m0 (by decide))
    ((decodeBase_mem m0 (by decide)).trans (by unfold decodeMem; rw [m0]; exact raw_ok (congrArg _ hg) rfl))

/-- The round trip of spldB16. -/
theorem spldB16 (o : OpMSwz) : Statement (.spldB16 o) := by
  intro e _ wf ht
  obtain ⟨w, hw⟩ : ∃ w, w = 0xCD + putMSwz o := ⟨_, rfl⟩
  obtain ⟨h1, h2, m0, hg⟩ := row58 (v0 := 102) (o := o) (by decide) (c := 0xCD) rfl hw
  exact word_agrees hw.symm wf ht rfl h1 h2 m0 (by decide) (fun _ => pfx_takes m0 (by decide)) (fun _ => lim_takes m0 (by decide))
    ((decodeBase_mem m0 (by decide)).trans (by unfold decodeMem; rw [m0]; exact raw_ok (congrArg _ hg) rfl))

/-- The round trip of spldB32. -/
theorem spldB32 (o : OpMSwz) : Statement (.spldB32 o) := by
  intro e _ wf ht
  obtain ⟨w, hw⟩ : ∃ w, w = 0xCF + putMSwz o := ⟨_, rfl⟩
  obtain ⟨h1, h2, m0, hg⟩ := row58 (v0 := 103) (o := o) (by decide) (c := 0xCF) rfl hw
  exact word_agrees hw.symm wf ht rfl h1 h2 m0 (by decide) (fun _ => pfx_takes m0 (by decide)) (fun _ => lim_takes m0 (by decide))
    ((decodeBase_mem m0 (by decide)).trans (by unfold decodeMem; rw [m0]; exact raw_ok (congrArg _ hg) rfl))

/-- The round trip of spldB64. -/
theorem spldB64 (o : OpMSwz) : Statement (.spldB64 o) := by
  intro e _ wf ht
  obtain ⟨w, hw⟩ : ∃ w, w = 0xD1 + putMSwz o := ⟨_, rfl⟩
  obtain ⟨h1, h2, m0, hg⟩ := row58 (v0 := 104) (o := o) (by decide) (c := 0xD1) rfl hw
  exact word_agrees hw.symm wf ht rfl h1 h2 m0 (by decide) (fun _ => pfx_takes m0 (by decide)) (fun _ => lim_takes m0 (by decide))
    ((decodeBase_mem m0 (by decide)).trans (by unfold decodeMem; rw [m0]; exact raw_ok (congrArg _ hg) rfl))

/-- The round trip of spldB128. -/
theorem spldB128 (o : OpMSwz) : Statement (.spldB128 o) := by
  intro e _ wf ht
  obtain ⟨w, hw⟩ : ∃ w, w = 0xD3 + putMSwz o := ⟨_, rfl⟩
  obtain ⟨h1, h2, m0, hg⟩ := row58 (v0 := 105) (o := o) (by decide) (c := 0xD3) rfl hw
  exact word_agrees hw.symm wf ht rfl h1 h2 m0 (by decide) (fun _ => pfx_takes m0 (by decide)) (fun _ => lim_takes m0 (by decide))
    ((decodeBase_mem m0 (by decide)).trans (by unfold decodeMem; rw [m0]; exact raw_ok (congrArg _ hg) rfl))

/-- The round trip of spstB8. -/
theorem spstB8 (o : OpMSwz) : Statement (.spstB8 o) := by
  intro e _ wf ht
  obtain ⟨w, hw⟩ : ∃ w, w = 0xD5 + putMSwz o := ⟨_, rfl⟩
  obtain ⟨h1, h2, m0, hg⟩ := row58 (v0 := 106) (o := o) (by decide) (c := 0xD5) rfl hw
  exact word_agrees hw.symm wf ht rfl h1 h2 m0 (by decide) (fun _ => pfx_takes m0 (by decide)) (fun _ => lim_takes m0 (by decide))
    ((decodeBase_mem m0 (by decide)).trans (by unfold decodeMem; rw [m0]; exact raw_ok (congrArg _ hg) rfl))

/-- The round trip of spstB16. -/
theorem spstB16 (o : OpMSwz) : Statement (.spstB16 o) := by
  intro e _ wf ht
  obtain ⟨w, hw⟩ : ∃ w, w = 0xD7 + putMSwz o := ⟨_, rfl⟩
  obtain ⟨h1, h2, m0, hg⟩ := row58 (v0 := 107) (o := o) (by decide) (c := 0xD7) rfl hw
  exact word_agrees hw.symm wf ht rfl h1 h2 m0 (by decide) (fun _ => pfx_takes m0 (by decide)) (fun _ => lim_takes m0 (by decide))
    ((decodeBase_mem m0 (by decide)).trans (by unfold decodeMem; rw [m0]; exact raw_ok (congrArg _ hg) rfl))

/-- The round trip of spstB32. -/
theorem spstB32 (o : OpMSwz) : Statement (.spstB32 o) := by
  intro e _ wf ht
  obtain ⟨w, hw⟩ : ∃ w, w = 0xD9 + putMSwz o := ⟨_, rfl⟩
  obtain ⟨h1, h2, m0, hg⟩ := row58 (v0 := 108) (o := o) (by decide) (c := 0xD9) rfl hw
  exact word_agrees hw.symm wf ht rfl h1 h2 m0 (by decide) (fun _ => pfx_takes m0 (by decide)) (fun _ => lim_takes m0 (by decide))
    ((decodeBase_mem m0 (by decide)).trans (by unfold decodeMem; rw [m0]; exact raw_ok (congrArg _ hg) rfl))

/-- The round trip of spstB64. -/
theorem spstB64 (o : OpMSwz) : Statement (.spstB64 o) := by
  intro e _ wf ht
  obtain ⟨w, hw⟩ : ∃ w, w = 0xDB + putMSwz o := ⟨_, rfl⟩
  obtain ⟨h1, h2, m0, hg⟩ := row58 (v0 := 109) (o := o) (by decide) (c := 0xDB) rfl hw
  exact word_agrees hw.symm wf ht rfl h1 h2 m0 (by decide) (fun _ => pfx_takes m0 (by decide)) (fun _ => lim_takes m0 (by decide))
    ((decodeBase_mem m0 (by decide)).trans (by unfold decodeMem; rw [m0]; exact raw_ok (congrArg _ hg) rfl))

/-- The round trip of spstB128. -/
theorem spstB128 (o : OpMSwz) : Statement (.spstB128 o) := by
  intro e _ wf ht
  obtain ⟨w, hw⟩ : ∃ w, w = 0xDD + putMSwz o := ⟨_, rfl⟩
  obtain ⟨h1, h2, m0, hg⟩ := row58 (v0 := 110) (o := o) (by decide) (c := 0xDD) rfl hw
  exact word_agrees hw.symm wf ht rfl h1 h2 m0 (by decide) (fun _ => pfx_takes m0 (by decide)) (fun _ => lim_takes m0 (by decide))
    ((decodeBase_mem m0 (by decide)).trans (by unfold decodeMem; rw [m0]; exact raw_ok (congrArg _ hg) rfl))

/-- The round trip of spstN4. -/
theorem spstN4 (o : OpMSwz) : Statement (.spstN4 o) := by
  intro e _ wf ht
  obtain ⟨w, hw⟩ : ∃ w, w = 0xDF + putMSwz o := ⟨_, rfl⟩
  obtain ⟨h1, h2, m0, hg⟩ := row58 (v0 := 111) (o := o) (by decide) (c := 0xDF) rfl hw
  exact word_agrees hw.symm wf ht rfl h1 h2 m0 (by decide) (fun _ => pfx_takes m0 (by decide)) (fun _ => lim_takes m0 (by decide))
    ((decodeBase_mem m0 (by decide)).trans (by unfold decodeMem; rw [m0]; exact raw_ok (congrArg _ hg) rfl))

/-- The round trip of spstN6. -/
theorem spstN6 (o : OpMSwz) : Statement (.spstN6 o) := by
  intro e _ wf ht
  obtain ⟨w, hw⟩ : ∃ w, w = 0xE1 + putMSwz o := ⟨_, rfl⟩
  obtain ⟨h1, h2, m0, hg⟩ := row58 (v0 := 112) (o := o) (by decide) (c := 0xE1) rfl hw
  exact word_agrees hw.symm wf ht rfl h1 h2 m0 (by decide) (fun _ => pfx_takes m0 (by decide)) (fun _ => lim_takes m0 (by decide))
    ((decodeBase_mem m0 (by decide)).trans (by unfold decodeMem; rw [m0]; exact raw_ok (congrArg _ hg) rfl))

/-- The round trip of stimg. -/
theorem stimg (o : OpMImg) : Statement (.stimg o) := by
  intro e _ wf ht
  obtain ⟨w, hw⟩ : ∃ w, w = 0xE3 + putMImg o := ⟨_, rfl⟩
  obtain ⟨h1, h2, m0, hz, hg⟩ := row59 (v0 := 113) (o := o) (by decide) (c := 0xE3) rfl hw
  exact word_agrees hw.symm wf ht rfl h1 h2 m0 (by decide) (fun h => (Bool.false_ne_true h).elim) (fun _ => lim_takes m0 (by decide))
    ((decodeBase_mem m0 (by decide)).trans (by unfold decodeMem; rw [m0]; exact raw_ok (congrArg _ hg) hz))

/-- The round trip of ldimg. -/
theorem ldimg (o : OpMImg) : Statement (.ldimg o) := by
  intro e _ wf ht
  obtain ⟨w, hw⟩ : ∃ w, w = 0xE5 + putMImg o := ⟨_, rfl⟩
  obtain ⟨h1, h2, m0, hz, hg⟩ := row59 (v0 := 114) (o := o) (by decide) (c := 0xE5) rfl hw
  exact word_agrees hw.symm wf ht rfl h1 h2 m0 (by decide) (fun h => (Bool.false_ne_true h).elim) (fun _ => lim_takes m0 (by decide))
    ((decodeBase_mem m0 (by decide)).trans (by unfold decodeMem; rw [m0]; exact raw_ok (congrArg _ hg) hz))

/-- The round trip of sld. -/
theorem sld (o : OpMSc1) : Statement (.sld o) := by
  intro e _ wf ht
  obtain ⟨w, hw⟩ : ∃ w, w = 0xE7 + putMSc1 o := ⟨_, rfl⟩
  obtain ⟨h1, h2, m0, hz, hg⟩ := row60 (v0 := 115) (o := o) (by decide) (c := 0xE7) rfl hw
  exact word_agrees hw.symm wf ht rfl h1 h2 m0 (by decide) (fun h => (Bool.false_ne_true h).elim) (fun _ => lim_takes m0 (by decide))
    ((decodeBase_mem m0 (by decide)).trans (by unfold decodeMem; rw [m0]; exact raw_ok (congrArg _ hg) hz))

/-- The round trip of sst. -/
theorem sst (o : OpMSc1) : Statement (.sst o) := by
  intro e _ wf ht
  obtain ⟨w, hw⟩ : ∃ w, w = 0xE9 + putMSc1 o := ⟨_, rfl⟩
  obtain ⟨h1, h2, m0, hz, hg⟩ := row60 (v0 := 116) (o := o) (by decide) (c := 0xE9) rfl hw
  exact word_agrees hw.symm wf ht rfl h1 h2 m0 (by decide) (fun h => (Bool.false_ne_true h).elim) (fun _ => lim_takes m0 (by decide))
    ((decodeBase_mem m0 (by decide)).trans (by unfold decodeMem; rw [m0]; exact raw_ok (congrArg _ hg) hz))

/-- The round trip of br. -/
theorem br (o : OpBM) : Statement (.br o) := by
  intro e _ wf ht
  obtain ⟨w, hw⟩ : ∃ w, w = 0xEB + putBM o := ⟨_, rfl⟩
  obtain ⟨h1, h2, m0, hz, hg⟩ := row61 (v0 := 117) (o := o) (by decide) (c := 0xEB) rfl hw
  exact word_agrees hw.symm wf ht rfl h1 h2 m0 (by decide) (fun h => (Bool.false_ne_true h).elim) (fun h => (Bool.false_ne_true h).elim)
    ((decodeBase_mem m0 (by decide)).trans (by unfold decodeMem; rw [m0]; exact raw_ok (congrArg _ hg) hz))

/-- The round trip of brs. -/
theorem brs (o : OpBS) : Statement (.brs o) := by
  intro e _ wf ht
  obtain ⟨w, hw⟩ : ∃ w, w = 0xED + putBS o := ⟨_, rfl⟩
  obtain ⟨h1, h2, m0, hg⟩ := row62 (v0 := 118) (o := o) (by decide) (c := 0xED) rfl hw
  exact word_agrees hw.symm wf ht rfl h1 h2 m0 (by decide) (fun h => (Bool.false_ne_true h).elim) (fun h => (Bool.false_ne_true h).elim)
    ((decodeBase_mem m0 (by decide)).trans (by unfold decodeMem; rw [m0]; exact raw_ok (congrArg _ hg) rfl))

/-- The round trip of call. -/
theorem call (o : OpBC) : Statement (.call o) := by
  intro e _ wf ht
  obtain ⟨w, hw⟩ : ∃ w, w = 0xEF + putBC o := ⟨_, rfl⟩
  obtain ⟨h1, h2, m0, hz, hg⟩ := row63 (v0 := 119) (o := o) (by decide) (c := 0xEF) rfl hw
  exact word_agrees hw.symm wf ht rfl h1 h2 m0 (by decide) (fun h => (Bool.false_ne_true h).elim) (fun h => (Bool.false_ne_true h).elim)
    ((decodeBase_mem m0 (by decide)).trans (by unfold decodeMem; rw [m0]; exact raw_ok (congrArg _ hg) hz))

/-- The round trip of loop. -/
theorem loop (o : OpBC) : Statement (.loop o) := by
  intro e _ wf ht
  obtain ⟨w, hw⟩ : ∃ w, w = 0xF1 + putBC o := ⟨_, rfl⟩
  obtain ⟨h1, h2, m0, hz, hg⟩ := row63 (v0 := 120) (o := o) (by decide) (c := 0xF1) rfl hw
  exact word_agrees hw.symm wf ht rfl h1 h2 m0 (by decide) (fun h => (Bool.false_ne_true h).elim) (fun h => (Bool.false_ne_true h).elim)
    ((decodeBase_mem m0 (by decide)).trans (by unfold decodeMem; rw [m0]; exact raw_ok (congrArg _ hg) hz))

/-- The round trip of jmpx. -/
theorem jmpx (o : OpX1) : Statement (.jmpx o) := by
  intro e _ wf ht
  obtain ⟨w, hw⟩ : ∃ w, w = 0x40000F3 + putX1 o := ⟨_, rfl⟩
  obtain ⟨h1, h2, m0, m1, hz, hg⟩ := row65 (v0 := 121) (v1 := 1) (o := o) (by decide) (by decide) (c := 0x40000F3) rfl hw
  exact word_agrees hw.symm wf ht rfl h1 h2 m0 (by decide) (fun h => (Bool.false_ne_true h).elim) (fun h => (Bool.false_ne_true h).elim)
    ((decodeBase_x m0 (by decide)).trans (by unfold decodeX; rw [m0, m1]; exact raw_ok (congrArg _ hg) hz))

/-- The round trip of ret. -/
theorem ret (o : OpX1) : Statement (.ret o) := by
  intro e _ wf ht
  obtain ⟨w, hw⟩ : ∃ w, w = 0x80000F3 + putX1 o := ⟨_, rfl⟩
  obtain ⟨h1, h2, m0, m1, hz, hg⟩ := row65 (v0 := 121) (v1 := 2) (o := o) (by decide) (by decide) (c := 0x80000F3) rfl hw
  exact word_agrees hw.symm wf ht rfl h1 h2 m0 (by decide) (fun h => (Bool.false_ne_true h).elim) (fun h => (Bool.false_ne_true h).elim)
    ((decodeBase_x m0 (by decide)).trans (by unfold decodeX; rw [m0, m1]; exact raw_ok (congrArg _ hg) hz))

/-- The round trip of trap. -/
theorem trap (o : OpX3) : Statement (.trap o) := by
  intro e _ wf ht
  obtain ⟨w, hw⟩ : ∃ w, w = 0x100000F3 + putX3 o := ⟨_, rfl⟩
  obtain ⟨h1, h2, m0, m1, hg⟩ := row53 (v0 := 121) (v1 := 4) (o := o) (by decide) (by decide) (c := 0x100000F3) rfl hw
  exact word_agrees hw.symm wf ht rfl h1 h2 m0 (by decide) (fun h => (Bool.false_ne_true h).elim) (fun h => (Bool.false_ne_true h).elim)
    ((decodeBase_x m0 (by decide)).trans (by unfold decodeX; rw [m0, m1]; exact raw_ok (congrArg _ hg) rfl))

/-- The round trip of tretJmp. -/
theorem tretJmp (o : OpXB) : Statement (.tretJmp o) := by
  intro e _ wf ht
  obtain ⟨w, hw⟩ : ∃ w, w = 0x140002F3 + putXB o := ⟨_, rfl⟩
  obtain ⟨h1, h2, m0, m1, c0, c1, c2, hz, hg⟩ := row68 (v0 := 121) (v1 := 5) (o := o) (by decide) (by decide) (c := 0x140002F3) rfl hw
  exact word_agrees hw.symm wf ht rfl h1 h2 m0 (by decide) (fun h => (Bool.false_ne_true h).elim) (fun h => (Bool.false_ne_true h).elim)
    ((decodeBase_x m0 (by decide)).trans (by unfold decodeX; rw [m0, m1]; exact (if_neg c0).trans ((if_neg c1).trans ((if_pos c2).trans (raw_ok (congrArg _ hg) hz)))))

/-- The round trip of join. -/
theorem join (o : OpX2) : Statement (.join o) := by
  intro e _ wf ht
  obtain ⟨w, hw⟩ : ∃ w, w = 0x180000F3 + putX2 o := ⟨_, rfl⟩
  obtain ⟨h1, h2, m0, m1, hz, hg⟩ := row69 (v0 := 121) (v1 := 6) (o := o) (by decide) (by decide) (c := 0x180000F3) rfl hw
  exact word_agrees hw.symm wf ht rfl h1 h2 m0 (by decide) (fun h => (Bool.false_ne_true h).elim) (fun h => (Bool.false_ne_true h).elim)
    ((decodeBase_x m0 (by decide)).trans (by unfold decodeX; rw [m0, m1]; exact raw_ok (congrArg _ hg) hz))

/-- The round trip of leave. -/
theorem leave (o : OpX2) : Statement (.leave o) := by
  intro e _ wf ht
  obtain ⟨w, hw⟩ : ∃ w, w = 0x1C0000F3 + putX2 o := ⟨_, rfl⟩
  obtain ⟨h1, h2, m0, m1, hz, hg⟩ := row69 (v0 := 121) (v1 := 7) (o := o) (by decide) (by decide) (c := 0x1C0000F3) rfl hw
  exact word_agrees hw.symm wf ht rfl h1 h2 m0 (by decide) (fun h => (Bool.false_ne_true h).elim) (fun h => (Bool.false_ne_true h).elim)
    ((decodeBase_x m0 (by decide)).trans (by unfold decodeX; rw [m0, m1]; exact raw_ok (congrArg _ hg) hz))

/-- The round trip of lookup. -/
theorem lookup (o : OpX2) : Statement (.lookup o) := by
  intro e _ wf ht
  obtain ⟨w, hw⟩ : ∃ w, w = 0x240000F3 + putX2 o := ⟨_, rfl⟩
  obtain ⟨h1, h2, m0, m1, hz, hg⟩ := row69 (v0 := 121) (v1 := 9) (o := o) (by decide) (by decide) (c := 0x240000F3) rfl hw
  exact word_agrees hw.symm wf ht rfl h1 h2 m0 (by decide) (fun h => (Bool.false_ne_true h).elim) (fun h => (Bool.false_ne_true h).elim)
    ((decodeBase_x m0 (by decide)).trans (by unfold decodeX; rw [m0, m1]; exact raw_ok (congrArg _ hg) hz))

/-- The round trip of tagset. -/
theorem tagset (o : OpX2) : Statement (.tagset o) := by
  intro e _ wf ht
  obtain ⟨w, hw⟩ : ∃ w, w = 0x280000F3 + putX2 o := ⟨_, rfl⟩
  obtain ⟨h1, h2, m0, m1, hz, hg⟩ := row69 (v0 := 121) (v1 := 10) (o := o) (by decide) (by decide) (c := 0x280000F3) rfl hw
  exact word_agrees hw.symm wf ht rfl h1 h2 m0 (by decide) (fun h => (Bool.false_ne_true h).elim) (fun h => (Bool.false_ne_true h).elim)
    ((decodeBase_x m0 (by decide)).trans (by unfold decodeX; rw [m0, m1]; exact raw_ok (congrArg _ hg) hz))

/-- The round trip of tagclr. -/
theorem tagclr (o : OpX1) : Statement (.tagclr o) := by
  intro e _ wf ht
  obtain ⟨w, hw⟩ : ∃ w, w = 0x2C0000F3 + putX1 o := ⟨_, rfl⟩
  obtain ⟨h1, h2, m0, m1, hz, hg⟩ := row65 (v0 := 121) (v1 := 11) (o := o) (by decide) (by decide) (c := 0x2C0000F3) rfl hw
  exact word_agrees hw.symm wf ht rfl h1 h2 m0 (by decide) (fun h => (Bool.false_ne_true h).elim) (fun h => (Bool.false_ne_true h).elim)
    ((decodeBase_x m0 (by decide)).trans (by unfold decodeX; rw [m0, m1]; exact raw_ok (congrArg _ hg) hz))

/-- The round trip of lnclr. -/
theorem lnclr (o : OpX2) : Statement (.lnclr o) := by
  intro e _ wf ht
  obtain ⟨w, hw⟩ : ∃ w, w = 0x300000F3 + putX2 o := ⟨_, rfl⟩
  obtain ⟨h1, h2, m0, m1, hz, hg⟩ := row69 (v0 := 121) (v1 := 12) (o := o) (by decide) (by decide) (c := 0x300000F3) rfl hw
  exact word_agrees hw.symm wf ht rfl h1 h2 m0 (by decide) (fun h => (Bool.false_ne_true h).elim) (fun h => (Bool.false_ne_true h).elim)
    ((decodeBase_x m0 (by decide)).trans (by unfold decodeX; rw [m0, m1]; exact raw_ok (congrArg _ hg) hz))

/-- The round trip of lnset. -/
theorem lnset (o : OpX2) : Statement (.lnset o) := by
  intro e _ wf ht
  obtain ⟨w, hw⟩ : ∃ w, w = 0x340000F3 + putX2 o := ⟨_, rfl⟩
  obtain ⟨h1, h2, m0, m1, hz, hg⟩ := row69 (v0 := 121) (v1 := 13) (o := o) (by decide) (by decide) (c := 0x340000F3) rfl hw
  exact word_agrees hw.symm wf ht rfl h1 h2 m0 (by decide) (fun h => (Bool.false_ne_true h).elim) (fun h => (Bool.false_ne_true h).elim)
    ((decodeBase_x m0 (by decide)).trans (by unfold decodeX; rw [m0, m1]; exact raw_ok (congrArg _ hg) hz))

/-- The round trip of barinit. -/
theorem barinit (o : OpX2) : Statement (.barinit o) := by
  intro e _ wf ht
  obtain ⟨w, hw⟩ : ∃ w, w = 0xF5 + putX2 o := ⟨_, rfl⟩
  obtain ⟨h1, h2, m0, m1, c0, hg⟩ := row73 (v0 := 122) (v1 := 0) (o := o) (by decide) (by decide) (c := 0xF5) rfl hw
  exact word_agrees hw.symm wf ht rfl h1 h2 m0 (by decide) (fun h => (Bool.false_ne_true h).elim) (fun h => (Bool.false_ne_true h).elim)
    ((decodeBase_x m0 (by decide)).trans (by unfold decodeX; rw [m0, m1]; exact (if_pos c0).trans (raw_ok (congrArg _ hg) rfl)))

/-- The round trip of barinitCoh. -/
theorem barinitCoh (o : OpX2) : Statement (.barinitCoh o) := by
  intro e _ wf ht
  obtain ⟨w, hw⟩ : ∃ w, w = 0x1000F5 + putX2 o := ⟨_, rfl⟩
  obtain ⟨h1, h2, m0, m1, c0, c1, hg⟩ := row74 (v0 := 122) (v1 := 0) (o := o) (by decide) (by decide) (c := 0x1000F5) rfl hw
  exact word_agrees hw.symm wf ht rfl h1 h2 m0 (by decide) (fun h => (Bool.false_ne_true h).elim) (fun h => (Bool.false_ne_true h).elim)
    ((decodeBase_x m0 (by decide)).trans (by unfold decodeX; rw [m0, m1]; exact (if_neg c0).trans ((if_pos c1).trans (raw_ok (congrArg _ hg) rfl))))

/-- The round trip of arrive. -/
theorem arrive (o : OpX2) : Statement (.arrive o) := by
  intro e _ wf ht
  obtain ⟨w, hw⟩ : ∃ w, w = 0x40000F5 + putX2 o := ⟨_, rfl⟩
  obtain ⟨h1, h2, m0, m1, c0, hg⟩ := row73 (v0 := 122) (v1 := 1) (o := o) (by decide) (by decide) (c := 0x40000F5) rfl hw
  exact word_agrees hw.symm wf ht rfl h1 h2 m0 (by decide) (fun h => (Bool.false_ne_true h).elim) (fun h => (Bool.false_ne_true h).elim)
    ((decodeBase_x m0 (by decide)).trans (by unfold decodeX; rw [m0, m1]; exact (if_pos c0).trans (raw_ok (congrArg _ hg) rfl)))

/-- The round trip of arriveN. -/
theorem arriveN (o : OpX3) : Statement (.arriveN o) := by
  intro e _ wf ht
  obtain ⟨w, hw⟩ : ∃ w, w = 0x40000F5 + putX3 o := ⟨_, rfl⟩
  have h := of_decide_eq_true (check_last wf (l := []) rfl)
  have hx : o.c.toNat ≠ 0 := ne_num h
  obtain ⟨h1, h2, m0, m1, c0, hg⟩ := row75 (v0 := 122) (v1 := 1) (o := o) (by decide) (by decide) hx (c := 0x40000F5) rfl hw
  exact word_agrees hw.symm wf ht rfl h1 h2 m0 (by decide) (fun h => (Bool.false_ne_true h).elim) (fun h => (Bool.false_ne_true h).elim)
    ((decodeBase_x m0 (by decide)).trans (by unfold decodeX; rw [m0, m1]; exact (if_neg c0).trans (raw_ok (congrArg _ hg) rfl)))

/-- The round trip of expect. -/
theorem expect (o : OpX2) : Statement (.expect o) := by
  intro e _ wf ht
  obtain ⟨w, hw⟩ : ∃ w, w = 0x80000F5 + putX2 o := ⟨_, rfl⟩
  obtain ⟨h1, h2, m0, m1, hz, hg⟩ := row69 (v0 := 122) (v1 := 2) (o := o) (by decide) (by decide) (c := 0x80000F5) rfl hw
  exact word_agrees hw.symm wf ht rfl h1 h2 m0 (by decide) (fun h => (Bool.false_ne_true h).elim) (fun h => (Bool.false_ne_true h).elim)
    ((decodeBase_x m0 (by decide)).trans (by unfold decodeX; rw [m0, m1]; exact raw_ok (congrArg _ hg) hz))

/-- The round trip of waitb. -/
theorem waitb (o : OpX2) : Statement (.waitb o) := by
  intro e _ wf ht
  obtain ⟨w, hw⟩ : ∃ w, w = 0xC0000F5 + putX2 o := ⟨_, rfl⟩
  obtain ⟨h1, h2, m0, m1, hz, hg⟩ := row69 (v0 := 122) (v1 := 3) (o := o) (by decide) (by decide) (c := 0xC0000F5) rfl hw
  exact word_agrees hw.symm wf ht rfl h1 h2 m0 (by decide) (fun h => (Bool.false_ne_true h).elim) (fun h => (Bool.false_ne_true h).elim)
    ((decodeBase_x m0 (by decide)).trans (by unfold decodeX; rw [m0, m1]; exact raw_ok (congrArg _ hg) hz))

/-- The round trip of barq. -/
theorem barq (o : OpX3) : Statement (.barq o) := by
  intro e _ wf ht
  obtain ⟨w, hw⟩ : ∃ w, w = 0x100000F5 + putX3 o := ⟨_, rfl⟩
  obtain ⟨h1, h2, m0, m1, hg⟩ := row53 (v0 := 122) (v1 := 4) (o := o) (by decide) (by decide) (c := 0x100000F5) rfl hw
  exact word_agrees hw.symm wf ht rfl h1 h2 m0 (by decide) (fun h => (Bool.false_ne_true h).elim) (fun h => (Bool.false_ne_true h).elim)
    ((decodeBase_x m0 (by decide)).trans (by unfold decodeX; rw [m0, m1]; exact raw_ok (congrArg _ hg) rfl))

/-- The round trip of superstep. -/
theorem superstep (o : OpX2) : Statement (.superstep o) := by
  intro e _ wf ht
  obtain ⟨w, hw⟩ : ∃ w, w = 0x140000F5 + putX2 o := ⟨_, rfl⟩
  obtain ⟨h1, h2, m0, m1, hz, hg⟩ := row69 (v0 := 122) (v1 := 5) (o := o) (by decide) (by decide) (c := 0x140000F5) rfl hw
  exact word_agrees hw.symm wf ht rfl h1 h2 m0 (by decide) (fun h => (Bool.false_ne_true h).elim) (fun h => (Bool.false_ne_true h).elim)
    ((decodeBase_x m0 (by decide)).trans (by unfold decodeX; rw [m0, m1]; exact raw_ok (congrArg _ hg) hz))

/-- The round trip of phaseRel. -/
theorem phaseRel (o : OpXSc) : Statement (.phaseRel o) := by
  intro e _ wf ht
  obtain ⟨w, hw⟩ : ∃ w, w = 0x180000F5 + putXSc o := ⟨_, rfl⟩
  obtain ⟨h1, h2, m0, m1, hz, hg⟩ := row76 (v0 := 122) (v1 := 6) (o := o) (by decide) (by decide) (c := 0x180000F5) rfl hw
  exact word_agrees hw.symm wf ht rfl h1 h2 m0 (by decide) (fun h => (Bool.false_ne_true h).elim) (fun h => (Bool.false_ne_true h).elim)
    ((decodeBase_x m0 (by decide)).trans (by unfold decodeX; rw [m0, m1]; exact raw_ok (congrArg _ hg) hz))

/-- The round trip of phaseAcq. -/
theorem phaseAcq (o : OpXSc) : Statement (.phaseAcq o) := by
  intro e _ wf ht
  obtain ⟨w, hw⟩ : ∃ w, w = 0x1C0000F5 + putXSc o := ⟨_, rfl⟩
  obtain ⟨h1, h2, m0, m1, hz, hg⟩ := row76 (v0 := 122) (v1 := 7) (o := o) (by decide) (by decide) (c := 0x1C0000F5) rfl hw
  exact word_agrees hw.symm wf ht rfl h1 h2 m0 (by decide) (fun h => (Bool.false_ne_true h).elim) (fun h => (Bool.false_ne_true h).elim)
    ((decodeBase_x m0 (by decide)).trans (by unfold decodeX; rw [m0, m1]; exact raw_ok (congrArg _ hg) hz))

/-- The round trip of tcfg. -/
theorem tcfg (o : OpXTd) : Statement (.tcfg o) := by
  intro e _ wf ht
  obtain ⟨w, hw⟩ : ∃ w, w = 0xF7 + putXTd o := ⟨_, rfl⟩
  obtain ⟨h1, h2, m0, m1, hz, hg⟩ := row77 (v0 := 123) (v1 := 0) (o := o) (by decide) (by decide) (c := 0xF7) rfl hw
  exact word_agrees hw.symm wf ht rfl h1 h2 m0 (by decide) (fun h => (Bool.false_ne_true h).elim) (fun h => (Bool.false_ne_true h).elim)
    ((decodeBase_x m0 (by decide)).trans (by unfold decodeX; rw [m0, m1]; exact raw_ok (congrArg _ hg) hz))

/-- The round trip of tld. -/
theorem tld (o : OpXTd) : Statement (.tld o) := by
  intro e _ wf ht
  obtain ⟨w, hw⟩ : ∃ w, w = 0x40000F7 + putXTd o := ⟨_, rfl⟩
  obtain ⟨h1, h2, m0, m1, hz, hg⟩ := row77 (v0 := 123) (v1 := 1) (o := o) (by decide) (by decide) (c := 0x40000F7) rfl hw
  exact word_agrees hw.symm wf ht rfl h1 h2 m0 (by decide) (fun h => (Bool.false_ne_true h).elim) (fun h => (Bool.false_ne_true h).elim)
    ((decodeBase_x m0 (by decide)).trans (by unfold decodeX; rw [m0, m1]; exact raw_ok (congrArg _ hg) hz))

/-- The round trip of tst. -/
theorem tst (o : OpXTd) : Statement (.tst o) := by
  intro e _ wf ht
  obtain ⟨w, hw⟩ : ∃ w, w = 0x80000F7 + putXTd o := ⟨_, rfl⟩
  obtain ⟨h1, h2, m0, m1, hz, hg⟩ := row77 (v0 := 123) (v1 := 2) (o := o) (by decide) (by decide) (c := 0x80000F7) rfl hw
  exact word_agrees hw.symm wf ht rfl h1 h2 m0 (by decide) (fun h => (Bool.false_ne_true h).elim) (fun h => (Bool.false_ne_true h).elim)
    ((decodeBase_x m0 (by decide)).trans (by unfold decodeX; rw [m0, m1]; exact raw_ok (congrArg _ hg) hz))

/-- The round trip of mma. -/
theorem mma (o : OpXMma) : Statement (.mma o) := by
  intro e _ wf ht
  obtain ⟨w, hw⟩ : ∃ w, w = 0xC0000F7 + putXMma o := ⟨_, rfl⟩
  obtain ⟨h1, h2, m0, m1, hz, hg⟩ := row78 (v0 := 123) (v1 := 3) (o := o) (by decide) (by decide) (c := 0xC0000F7) rfl hw
  exact word_agrees hw.symm wf ht rfl h1 h2 m0 (by decide) (fun h => (Bool.false_ne_true h).elim) (fun h => (Bool.false_ne_true h).elim)
    ((decodeBase_x m0 (by decide)).trans (by unfold decodeX; rw [m0, m1]; exact raw_ok (congrArg _ hg) hz))

/-- The round trip of mmas. -/
theorem mmas (o : OpXMma) : Statement (.mmas o) := by
  intro e _ wf ht
  obtain ⟨w, hw⟩ : ∃ w, w = 0x100000F7 + putXMma o := ⟨_, rfl⟩
  obtain ⟨h1, h2, m0, m1, hz, hg⟩ := row78 (v0 := 123) (v1 := 4) (o := o) (by decide) (by decide) (c := 0x100000F7) rfl hw
  exact word_agrees hw.symm wf ht rfl h1 h2 m0 (by decide) (fun h => (Bool.false_ne_true h).elim) (fun h => (Bool.false_ne_true h).elim)
    ((decodeBase_x m0 (by decide)).trans (by unfold decodeX; rw [m0, m1]; exact raw_ok (congrArg _ hg) hz))

/-- The round trip of aclr. -/
theorem aclr (o : OpXAcc) : Statement (.aclr o) := by
  intro e _ wf ht
  obtain ⟨w, hw⟩ : ∃ w, w = 0x180000F7 + putXAcc o := ⟨_, rfl⟩
  obtain ⟨h1, h2, m0, m1, hz, hg⟩ := row79 (v0 := 123) (v1 := 6) (o := o) (by decide) (by decide) (c := 0x180000F7) rfl hw
  exact word_agrees hw.symm wf ht rfl h1 h2 m0 (by decide) (fun h => (Bool.false_ne_true h).elim) (fun h => (Bool.false_ne_true h).elim)
    ((decodeBase_x m0 (by decide)).trans (by unfold decodeX; rw [m0, m1]; exact raw_ok (congrArg _ hg) hz))

/-- The round trip of adrainSp. -/
theorem adrainSp (o : OpXDr) : Statement (.adrainSp o) := by
  intro e _ wf ht
  obtain ⟨w, hw⟩ : ∃ w, w = 0x1C0000F7 + putXDr o := ⟨_, rfl⟩
  obtain ⟨h1, h2, m0, m1, c0, hg⟩ := row80 (v0 := 123) (v1 := 7) (o := o) (by decide) (by decide) (c := 0x1C0000F7) rfl hw
  exact word_agrees hw.symm wf ht rfl h1 h2 m0 (by decide) (fun h => (Bool.false_ne_true h).elim) (fun h => (Bool.false_ne_true h).elim)
    ((decodeBase_x m0 (by decide)).trans (by unfold decodeX; rw [m0, m1]; exact (if_pos c0).trans (raw_ok (congrArg _ hg) rfl)))

/-- The round trip of adrainG. -/
theorem adrainG (o : OpXDr) : Statement (.adrainG o) := by
  intro e _ wf ht
  obtain ⟨w, hw⟩ : ∃ w, w = 0x1C0008F7 + putXDr o := ⟨_, rfl⟩
  obtain ⟨h1, h2, m0, m1, c0, c1, hg⟩ := row81 (v0 := 123) (v1 := 7) (o := o) (by decide) (by decide) (c := 0x1C0008F7) rfl hw
  exact word_agrees hw.symm wf ht rfl h1 h2 m0 (by decide) (fun h => (Bool.false_ne_true h).elim) (fun h => (Bool.false_ne_true h).elim)
    ((decodeBase_x m0 (by decide)).trans (by unfold decodeX; rw [m0, m1]; exact (if_neg c0).trans ((if_pos c1).trans (raw_ok (congrArg _ hg) rfl))))

/-- The round trip of adrainV. -/
theorem adrainV (o : OpXDrV) : Statement (.adrainV o) := by
  intro e _ wf ht
  obtain ⟨w, hw⟩ : ∃ w, w = 0x1C0010F7 + putXDrV o := ⟨_, rfl⟩
  obtain ⟨h1, h2, m0, m1, c0, c1, c2, hz, hg⟩ := row82 (v0 := 123) (v1 := 7) (o := o) (by decide) (by decide) (c := 0x1C0010F7) rfl hw
  exact word_agrees hw.symm wf ht rfl h1 h2 m0 (by decide) (fun h => (Bool.false_ne_true h).elim) (fun h => (Bool.false_ne_true h).elim)
    ((decodeBase_x m0 (by decide)).trans (by unfold decodeX; rw [m0, m1]; exact (if_neg c0).trans ((if_neg c1).trans ((if_pos c2).trans (raw_ok (congrArg _ hg) hz)))))

/-- The round trip of forkM. -/
theorem forkM (o : OpX3) : Statement (.forkM o) := by
  intro e _ wf ht
  obtain ⟨w, hw⟩ : ∃ w, w = 0xF9 + putX3 o := ⟨_, rfl⟩
  obtain ⟨h1, h2, m0, m1, hg⟩ := row53 (v0 := 124) (v1 := 0) (o := o) (by decide) (by decide) (c := 0xF9) rfl hw
  exact word_agrees hw.symm wf ht rfl h1 h2 m0 (by decide) (fun h => (Bool.false_ne_true h).elim) (fun h => (Bool.false_ne_true h).elim)
    ((decodeBase_x m0 (by decide)).trans (by unfold decodeX; rw [m0, m1]; exact raw_ok (congrArg _ hg) rfl))

/-- The round trip of forkC. -/
theorem forkC (o : OpX3) : Statement (.forkC o) := by
  intro e _ wf ht
  obtain ⟨w, hw⟩ : ∃ w, w = 0x40000F9 + putX3 o := ⟨_, rfl⟩
  obtain ⟨h1, h2, m0, m1, hg⟩ := row53 (v0 := 124) (v1 := 1) (o := o) (by decide) (by decide) (c := 0x40000F9) rfl hw
  exact word_agrees hw.symm wf ht rfl h1 h2 m0 (by decide) (fun h => (Bool.false_ne_true h).elim) (fun h => (Bool.false_ne_true h).elim)
    ((decodeBase_x m0 (by decide)).trans (by unfold decodeX; rw [m0, m1]; exact raw_ok (congrArg _ hg) rfl))

/-- The round trip of forkMc. -/
theorem forkMc (o : OpX3) : Statement (.forkMc o) := by
  intro e _ wf ht
  obtain ⟨w, hw⟩ : ∃ w, w = 0x80000F9 + putX3 o := ⟨_, rfl⟩
  obtain ⟨h1, h2, m0, m1, hg⟩ := row53 (v0 := 124) (v1 := 2) (o := o) (by decide) (by decide) (c := 0x80000F9) rfl hw
  exact word_agrees hw.symm wf ht rfl h1 h2 m0 (by decide) (fun h => (Bool.false_ne_true h).elim) (fun h => (Bool.false_ne_true h).elim)
    ((decodeBase_x m0 (by decide)).trans (by unfold decodeX; rw [m0, m1]; exact raw_ok (congrArg _ hg) rfl))

/-- The round trip of rdvz. -/
theorem rdvz (o : OpX2) : Statement (.rdvz o) := by
  intro e _ wf ht
  obtain ⟨w, hw⟩ : ∃ w, w = 0xC0000F9 + putX2 o := ⟨_, rfl⟩
  obtain ⟨h1, h2, m0, m1, hz, hg⟩ := row69 (v0 := 124) (v1 := 3) (o := o) (by decide) (by decide) (c := 0xC0000F9) rfl hw
  exact word_agrees hw.symm wf ht rfl h1 h2 m0 (by decide) (fun h => (Bool.false_ne_true h).elim) (fun h => (Bool.false_ne_true h).elim)
    ((decodeBase_x m0 (by decide)).trans (by unfold decodeX; rw [m0, m1]; exact raw_ok (congrArg _ hg) hz))

/-- The round trip of shld. -/
theorem shld (o : OpXSh) : Statement (.shld o) := by
  intro e _ wf ht
  obtain ⟨w, hw⟩ : ∃ w, w = 0x140000F9 + putXSh o := ⟨_, rfl⟩
  obtain ⟨h1, h2, m0, m1, hz, hg⟩ := row83 (v0 := 124) (v1 := 5) (o := o) (by decide) (by decide) (c := 0x140000F9) rfl hw
  exact word_agrees hw.symm wf ht rfl h1 h2 m0 (by decide) (fun h => (Bool.false_ne_true h).elim) (fun h => (Bool.false_ne_true h).elim)
    ((decodeBase_x m0 (by decide)).trans (by unfold decodeX; rw [m0, m1]; exact raw_ok (congrArg _ hg) hz))

/-- The round trip of shset. -/
theorem shset (o : OpXShs) : Statement (.shset o) := by
  intro e _ wf ht
  obtain ⟨w, hw⟩ : ∃ w, w = 0x180000F9 + putXShs o := ⟨_, rfl⟩
  obtain ⟨h1, h2, m0, m1, hz, hg⟩ := row84 (v0 := 124) (v1 := 6) (o := o) (by decide) (by decide) (c := 0x180000F9) rfl hw
  exact word_agrees hw.symm wf ht rfl h1 h2 m0 (by decide) (fun h => (Bool.false_ne_true h).elim) (fun h => (Bool.false_ne_true h).elim)
    ((decodeBase_x m0 (by decide)).trans (by unfold decodeX; rw [m0, m1]; exact raw_ok (congrArg _ hg) hz))

/-- The round trip of copy. -/
theorem copy (o : OpX3) : Statement (.copy o) := by
  intro e _ wf ht
  obtain ⟨w, hw⟩ : ∃ w, w = 0x1C0000F9 + putX3 o := ⟨_, rfl⟩
  obtain ⟨h1, h2, m0, m1, hg⟩ := row53 (v0 := 124) (v1 := 7) (o := o) (by decide) (by decide) (c := 0x1C0000F9) rfl hw
  exact word_agrees hw.symm wf ht rfl h1 h2 m0 (by decide) (fun h => (Bool.false_ne_true h).elim) (fun h => (Bool.false_ne_true h).elim)
    ((decodeBase_x m0 (by decide)).trans (by unfold decodeX; rw [m0, m1]; exact raw_ok (congrArg _ hg) rfl))

/-- The round trip of rednet. -/
theorem rednet (o : OpX3) : Statement (.rednet o) := by
  intro e _ wf ht
  obtain ⟨w, hw⟩ : ∃ w, w = 0xC000099 + putX3 o := ⟨_, rfl⟩
  obtain ⟨h1, h2, m0, m1, hg⟩ := row53 (v0 := 76) (v1 := 3) (o := o) (by decide) (by decide) (c := 0xC000099) rfl hw
  exact word_agrees hw.symm wf ht rfl h1 h2 m0 (by decide) (fun h => (Bool.false_ne_true h).elim) (fun h => (Bool.false_ne_true h).elim)
    ((decodeBase_scal m0 (by decide)).trans (by unfold decodeScal; rw [m0, m1]; exact raw_ok (congrArg _ hg) rfl))

/-- The round trip of get. -/
theorem get (o : OpX3) : Statement (.get o) := by
  intro e _ wf ht
  obtain ⟨w, hw⟩ : ∃ w, w = 0x4000099 + putX3 o := ⟨_, rfl⟩
  obtain ⟨h1, h2, m0, m1, hg⟩ := row53 (v0 := 76) (v1 := 1) (o := o) (by decide) (by decide) (c := 0x4000099) rfl hw
  exact word_agrees hw.symm wf ht rfl h1 h2 m0 (by decide) (fun h => (Bool.false_ne_true h).elim) (fun h => (Bool.false_ne_true h).elim)
    ((decodeBase_scal m0 (by decide)).trans (by unfold decodeScal; rw [m0, m1]; exact raw_ok (congrArg _ hg) rfl))

/-- The round trip of ratom. -/
theorem ratom (o : OpX3) : Statement (.ratom o) := by
  intro e _ wf ht
  obtain ⟨w, hw⟩ : ∃ w, w = 0x8000099 + putX3 o := ⟨_, rfl⟩
  obtain ⟨h1, h2, m0, m1, hg⟩ := row53 (v0 := 76) (v1 := 2) (o := o) (by decide) (by decide) (c := 0x8000099) rfl hw
  exact word_agrees hw.symm wf ht rfl h1 h2 m0 (by decide) (fun h => (Bool.false_ne_true h).elim) (fun h => (Bool.false_ne_true h).elim)
    ((decodeBase_scal m0 (by decide)).trans (by unfold decodeScal; rw [m0, m1]; exact raw_ok (congrArg _ hg) rfl))

/-- The round trip of put. -/
theorem put (o : OpX3) : Statement (.put o) := by
  intro e _ wf ht
  obtain ⟨w, hw⟩ : ∃ w, w = 0x99 + putX3 o := ⟨_, rfl⟩
  obtain ⟨h1, h2, m0, m1, hg⟩ := row53 (v0 := 76) (v1 := 0) (o := o) (by decide) (by decide) (c := 0x99) rfl hw
  exact word_agrees hw.symm wf ht rfl h1 h2 m0 (by decide) (fun h => (Bool.false_ne_true h).elim) (fun h => (Bool.false_ne_true h).elim)
    ((decodeBase_scal m0 (by decide)).trans (by unfold decodeScal; rw [m0, m1]; exact raw_ok (congrArg _ hg) rfl))

/-- The round trip of sqadm. -/
theorem sqadm (o : OpX2) : Statement (.sqadm o) := by
  intro e _ wf ht
  obtain ⟨w, hw⟩ : ∃ w, w = 0xFD + putX2 o := ⟨_, rfl⟩
  obtain ⟨h1, h2, m0, m1, hz, hg⟩ := row69 (v0 := 126) (v1 := 0) (o := o) (by decide) (by decide) (c := 0xFD) rfl hw
  exact word_agrees hw.symm wf ht rfl h1 h2 m0 (by decide) (fun h => (Bool.false_ne_true h).elim) (fun h => (Bool.false_ne_true h).elim)
    ((decodeBase_x m0 (by decide)).trans (by unfold decodeX; rw [m0, m1]; exact raw_ok (congrArg _ hg) hz))

/-- The round trip of tokfb. -/
theorem tokfb (o : OpX3) : Statement (.tokfb o) := by
  intro e _ wf ht
  obtain ⟨w, hw⟩ : ∃ w, w = 0x40000FD + putX3 o := ⟨_, rfl⟩
  obtain ⟨h1, h2, m0, m1, hg⟩ := row53 (v0 := 126) (v1 := 1) (o := o) (by decide) (by decide) (c := 0x40000FD) rfl hw
  exact word_agrees hw.symm wf ht rfl h1 h2 m0 (by decide) (fun h => (Bool.false_ne_true h).elim) (fun h => (Bool.false_ne_true h).elim)
    ((decodeBase_x m0 (by decide)).trans (by unfold decodeX; rw [m0, m1]; exact raw_ok (congrArg _ hg) rfl))

/-- The round trip of seqret. -/
theorem seqret (o : OpX3) : Statement (.seqret o) := by
  intro e _ wf ht
  obtain ⟨w, hw⟩ : ∃ w, w = 0x80000FD + putX3 o := ⟨_, rfl⟩
  obtain ⟨h1, h2, m0, m1, hg⟩ := row53 (v0 := 126) (v1 := 2) (o := o) (by decide) (by decide) (c := 0x80000FD) rfl hw
  exact word_agrees hw.symm wf ht rfl h1 h2 m0 (by decide) (fun h => (Bool.false_ne_true h).elim) (fun h => (Bool.false_ne_true h).elim)
    ((decodeBase_x m0 (by decide)).trans (by unfold decodeX; rw [m0, m1]; exact raw_ok (congrArg _ hg) rfl))

/-- The round trip of launch. -/
theorem launch (o : OpX3) : Statement (.launch o) := by
  intro e _ wf ht
  obtain ⟨w, hw⟩ : ∃ w, w = 0xC0000FD + putX3 o := ⟨_, rfl⟩
  obtain ⟨h1, h2, m0, m1, hg⟩ := row53 (v0 := 126) (v1 := 3) (o := o) (by decide) (by decide) (c := 0xC0000FD) rfl hw
  exact word_agrees hw.symm wf ht rfl h1 h2 m0 (by decide) (fun h => (Bool.false_ne_true h).elim) (fun h => (Bool.false_ne_true h).elim)
    ((decodeBase_x m0 (by decide)).trans (by unfold decodeX; rw [m0, m1]; exact raw_ok (congrArg _ hg) rfl))

/-- The round trip of kvgather. -/
theorem kvgather (o : OpX3) : Statement (.kvgather o) := by
  intro e _ wf ht
  obtain ⟨w, hw⟩ : ∃ w, w = 0xFB + putX3 o := ⟨_, rfl⟩
  obtain ⟨h1, h2, m0, m1, hg⟩ := row53 (v0 := 125) (v1 := 0) (o := o) (by decide) (by decide) (c := 0xFB) rfl hw
  exact word_agrees hw.symm wf ht rfl h1 h2 m0 (by decide) (fun h => (Bool.false_ne_true h).elim) (fun h => (Bool.false_ne_true h).elim)
    ((decodeBase_x m0 (by decide)).trans (by unfold decodeX; rw [m0, m1]; exact raw_ok (congrArg _ hg) rfl))

/-- The round trip of kvappend. -/
theorem kvappend (o : OpX3) : Statement (.kvappend o) := by
  intro e _ wf ht
  obtain ⟨w, hw⟩ : ∃ w, w = 0x40000FB + putX3 o := ⟨_, rfl⟩
  obtain ⟨h1, h2, m0, m1, hg⟩ := row53 (v0 := 125) (v1 := 1) (o := o) (by decide) (by decide) (c := 0x40000FB) rfl hw
  exact word_agrees hw.symm wf ht rfl h1 h2 m0 (by decide) (fun h => (Bool.false_ne_true h).elim) (fun h => (Bool.false_ne_true h).elim)
    ((decodeBase_x m0 (by decide)).trans (by unfold decodeX; rw [m0, m1]; exact raw_ok (congrArg _ hg) rfl))

/-- The round trip of pgreq. -/
theorem pgreq (o : OpX3) : Statement (.pgreq o) := by
  intro e _ wf ht
  obtain ⟨w, hw⟩ : ∃ w, w = 0x80000FB + putX3 o := ⟨_, rfl⟩
  obtain ⟨h1, h2, m0, m1, hg⟩ := row53 (v0 := 125) (v1 := 2) (o := o) (by decide) (by decide) (c := 0x80000FB) rfl hw
  exact word_agrees hw.symm wf ht rfl h1 h2 m0 (by decide) (fun h => (Bool.false_ne_true h).elim) (fun h => (Bool.false_ne_true h).elim)
    ((decodeBase_x m0 (by decide)).trans (by unfold decodeX; rw [m0, m1]; exact raw_ok (congrArg _ hg) rfl))

/-- The round trip of gather. -/
theorem gather (o : OpX3) : Statement (.gather o) := by
  intro e _ wf ht
  obtain ⟨w, hw⟩ : ∃ w, w = 0x200000F9 + putX3 o := ⟨_, rfl⟩
  obtain ⟨h1, h2, m0, m1, hg⟩ := row53 (v0 := 124) (v1 := 8) (o := o) (by decide) (by decide) (c := 0x200000F9) rfl hw
  exact word_agrees hw.symm wf ht rfl h1 h2 m0 (by decide) (fun h => (Bool.false_ne_true h).elim) (fun h => (Bool.false_ne_true h).elim)
    ((decodeBase_x m0 (by decide)).trans (by unfold decodeX; rw [m0, m1]; exact raw_ok (congrArg _ hg) rfl))

/-- The round trip of scatter. -/
theorem scatter (o : OpX3) : Statement (.scatter o) := by
  intro e _ wf ht
  obtain ⟨w, hw⟩ : ∃ w, w = 0x240000F9 + putX3 o := ⟨_, rfl⟩
  obtain ⟨h1, h2, m0, m1, hg⟩ := row53 (v0 := 124) (v1 := 9) (o := o) (by decide) (by decide) (c := 0x240000F9) rfl hw
  exact word_agrees hw.symm wf ht rfl h1 h2 m0 (by decide) (fun h => (Bool.false_ne_true h).elim) (fun h => (Bool.false_ne_true h).elim)
    ((decodeBase_x m0 (by decide)).trans (by unfold decodeX; rw [m0, m1]; exact raw_ok (congrArg _ hg) rfl))

/-- The round trip of mcast. -/
theorem mcast (o : OpX3) : Statement (.mcast o) := by
  intro e _ wf ht
  obtain ⟨w, hw⟩ : ∃ w, w = 0x280000F9 + putX3 o := ⟨_, rfl⟩
  obtain ⟨h1, h2, m0, m1, hg⟩ := row53 (v0 := 124) (v1 := 10) (o := o) (by decide) (by decide) (c := 0x280000F9) rfl hw
  exact word_agrees hw.symm wf ht rfl h1 h2 m0 (by decide) (fun h => (Bool.false_ne_true h).elim) (fun h => (Bool.false_ne_true h).elim)
    ((decodeBase_x m0 (by decide)).trans (by unfold decodeX; rw [m0, m1]; exact raw_ok (congrArg _ hg) rfl))

/-- The round trip of mmag. -/
theorem mmag (o : OpXMma) : Statement (.mmag o) := by
  intro e _ wf ht
  obtain ⟨w, hw⟩ : ∃ w, w = 0x140000F7 + putXMma o := ⟨_, rfl⟩
  obtain ⟨h1, h2, m0, m1, hz, hg⟩ := row78 (v0 := 123) (v1 := 5) (o := o) (by decide) (by decide) (c := 0x140000F7) rfl hw
  exact word_agrees hw.symm wf ht rfl h1 h2 m0 (by decide) (fun h => (Bool.false_ne_true h).elim) (fun h => (Bool.false_ne_true h).elim)
    ((decodeBase_x m0 (by decide)).trans (by unfold decodeX; rw [m0, m1]; exact raw_ok (congrArg _ hg) hz))

/-- The round trip of neterrWrite. -/
theorem neterrWrite (o : OpCsrW0) : Statement (.neterrWrite o) := by
  intro e _ wf ht
  obtain ⟨w, hw⟩ : ∃ w, w = 0xE000095 + putCsrW0 o := ⟨_, rfl⟩
  obtain ⟨h1, h2, m0, c0, c1, c2, hz, hg⟩ := row51 (v0 := 74) (o := o) (by decide) (c := 0xE000095) rfl hw
  exact word_agrees hw.symm wf ht rfl h1 h2 m0 (by decide) (fun h => (Bool.false_ne_true h).elim) (fun h => (Bool.false_ne_true h).elim)
    ((decodeBase_scal m0 (by decide)).trans (by unfold decodeScal; rw [m0]; exact (if_neg c0).trans ((if_neg c1).trans ((if_pos c2).trans (raw_ok (congrArg _ hg) hz)))))

/-- The round trip of cpfaultWrite. -/
theorem cpfaultWrite (o : OpCsrW0) : Statement (.cpfaultWrite o) := by
  intro e _ wf ht
  obtain ⟨w, hw⟩ : ∃ w, w = 0xC800095 + putCsrW0 o := ⟨_, rfl⟩
  obtain ⟨h1, h2, m0, c0, c1, hz, hg⟩ := row50 (v0 := 74) (o := o) (by decide) (c := 0xC800095) rfl hw
  exact word_agrees hw.symm wf ht rfl h1 h2 m0 (by decide) (fun h => (Bool.false_ne_true h).elim) (fun h => (Bool.false_ne_true h).elim)
    ((decodeBase_scal m0 (by decide)).trans (by unfold decodeScal; rw [m0]; exact (if_neg c0).trans ((if_pos c1).trans (raw_ok (congrArg _ hg) hz))))

/-- The round trip of mxfaultWrite. -/
theorem mxfaultWrite (o : OpCsrW0) : Statement (.mxfaultWrite o) := by
  intro e _ wf ht
  obtain ⟨w, hw⟩ : ∃ w, w = 0xC300095 + putCsrW0 o := ⟨_, rfl⟩
  obtain ⟨h1, h2, m0, c0, hz, hg⟩ := row49 (v0 := 74) (o := o) (by decide) (c := 0xC300095) rfl hw
  exact word_agrees hw.symm wf ht rfl h1 h2 m0 (by decide) (fun h => (Bool.false_ne_true h).elim) (fun h => (Bool.false_ne_true h).elim)
    ((decodeBase_scal m0 (by decide)).trans (by unfold decodeScal; rw [m0]; exact (if_pos c0).trans (raw_ok (congrArg _ hg) hz)))

/-- The round trip of nop. -/
theorem nop : Statement .nop := by
  intro e _ wf ht
  obtain ⟨w, hw⟩ : ∃ w, w = 0xF3 := ⟨_, rfl⟩
  obtain ⟨h1, h2, m0, m1, hz⟩ := row64 (v0 := 121) (v1 := 0) (by decide) (by decide) (c := 0xF3) rfl hw
  exact word_agrees hw.symm wf ht rfl h1 h2 m0 (by decide) (fun h => (Bool.false_ne_true h).elim) (fun h => (Bool.false_ne_true h).elim)
    ((decodeBase_x m0 (by decide)).trans (by unfold decodeX; rw [m0, m1]; exact raw_ok rfl hz))

/-- The round trip of exit. -/
theorem exit : Statement .exit := by
  intro e _ wf ht
  obtain ⟨w, hw⟩ : ∃ w, w = 0xC0000F3 := ⟨_, rfl⟩
  obtain ⟨h1, h2, m0, m1, hz⟩ := row64 (v0 := 121) (v1 := 3) (by decide) (by decide) (c := 0xC0000F3) rfl hw
  exact word_agrees hw.symm wf ht rfl h1 h2 m0 (by decide) (fun h => (Bool.false_ne_true h).elim) (fun h => (Bool.false_ne_true h).elim)
    ((decodeBase_x m0 (by decide)).trans (by unfold decodeX; rw [m0, m1]; exact raw_ok rfl hz))

/-- The round trip of tret. -/
theorem tret : Statement .tret := by
  intro e _ wf ht
  obtain ⟨w, hw⟩ : ∃ w, w = 0x140000F3 := ⟨_, rfl⟩
  obtain ⟨h1, h2, m0, m1, c0, hz⟩ := row66 (v0 := 121) (v1 := 5) (by decide) (by decide) (c := 0x140000F3) rfl hw
  exact word_agrees hw.symm wf ht rfl h1 h2 m0 (by decide) (fun h => (Bool.false_ne_true h).elim) (fun h => (Bool.false_ne_true h).elim)
    ((decodeBase_x m0 (by decide)).trans (by unfold decodeX; rw [m0, m1]; exact (if_pos c0).trans (raw_ok rfl hz)))

/-- The round trip of tretSkip. -/
theorem tretSkip : Statement .tretSkip := by
  intro e _ wf ht
  obtain ⟨w, hw⟩ : ∃ w, w = 0x140001F3 := ⟨_, rfl⟩
  obtain ⟨h1, h2, m0, m1, c0, c1, hz⟩ := row67 (v0 := 121) (v1 := 5) (by decide) (by decide) (c := 0x140001F3) rfl hw
  exact word_agrees hw.symm wf ht rfl h1 h2 m0 (by decide) (fun h => (Bool.false_ne_true h).elim) (fun h => (Bool.false_ne_true h).elim)
    ((decodeBase_x m0 (by decide)).trans (by unfold decodeX; rw [m0, m1]; exact (if_neg c0).trans ((if_pos c1).trans (raw_ok rfl hz))))

/-- The round trip of fenceLd. -/
theorem fenceLd : Statement .fenceLd := by
  intro e _ wf ht
  obtain ⟨w, hw⟩ : ∃ w, w = 0x200001F3 := ⟨_, rfl⟩
  obtain ⟨h1, h2, m0, m1, c0, hz⟩ := row70 (v0 := 121) (v1 := 8) (by decide) (by decide) (c := 0x200001F3) rfl hw
  exact word_agrees hw.symm wf ht rfl h1 h2 m0 (by decide) (fun h => (Bool.false_ne_true h).elim) (fun h => (Bool.false_ne_true h).elim)
    ((decodeBase_x m0 (by decide)).trans (by unfold decodeX; rw [m0, m1]; exact (if_pos c0).trans (raw_ok rfl hz)))

/-- The round trip of fenceSt. -/
theorem fenceSt : Statement .fenceSt := by
  intro e _ wf ht
  obtain ⟨w, hw⟩ : ∃ w, w = 0x200002F3 := ⟨_, rfl⟩
  obtain ⟨h1, h2, m0, m1, c0, c1, hz⟩ := row71 (v0 := 121) (v1 := 8) (by decide) (by decide) (c := 0x200002F3) rfl hw
  exact word_agrees hw.symm wf ht rfl h1 h2 m0 (by decide) (fun h => (Bool.false_ne_true h).elim) (fun h => (Bool.false_ne_true h).elim)
    ((decodeBase_x m0 (by decide)).trans (by unfold decodeX; rw [m0, m1]; exact (if_neg c0).trans ((if_pos c1).trans (raw_ok rfl hz))))

/-- The round trip of fenceAll. -/
theorem fenceAll : Statement .fenceAll := by
  intro e _ wf ht
  obtain ⟨w, hw⟩ : ∃ w, w = 0x200003F3 := ⟨_, rfl⟩
  obtain ⟨h1, h2, m0, m1, c0, c1, c2, hz⟩ := row72 (v0 := 121) (v1 := 8) (by decide) (by decide) (c := 0x200003F3) rfl hw
  exact word_agrees hw.symm wf ht rfl h1 h2 m0 (by decide) (fun h => (Bool.false_ne_true h).elim) (fun h => (Bool.false_ne_true h).elim)
    ((decodeBase_x m0 (by decide)).trans (by unfold decodeX; rw [m0, m1]; exact (if_neg c0).trans ((if_neg c1).trans ((if_pos c2).trans (raw_ok rfl hz)))))

/-- The round trip of seqend. -/
theorem seqend : Statement .seqend := by
  intro e _ wf ht
  obtain ⟨w, hw⟩ : ∃ w, w = 0x100000F9 := ⟨_, rfl⟩
  obtain ⟨h1, h2, m0, m1, hz⟩ := row64 (v0 := 124) (v1 := 4) (by decide) (by decide) (c := 0x100000F9) rfl hw
  exact word_agrees hw.symm wf ht rfl h1 h2 m0 (by decide) (fun h => (Bool.false_ne_true h).elim) (fun h => (Bool.false_ne_true h).elim)
    ((decodeBase_x m0 (by decide)).trans (by unfold decodeX; rw [m0, m1]; exact raw_ok rfl hz))

/-- pgreqShare is no word. -/
theorem pgreqShare (x0 : OpX3) : Statement (.pgreqShare x0) := fun _ h => (Bool.false_ne_true h).elim

/-- pgreqRelease is no word. -/
theorem pgreqRelease (x0 : OpX3) : Statement (.pgreqRelease x0) := fun _ h => (Bool.false_ne_true h).elim

/-- pgreqPin is no word. -/
theorem pgreqPin (x0 : OpX3) : Statement (.pgreqPin x0) := fun _ h => (Bool.false_ne_true h).elim

/-- pgreqUnpin is no word. -/
theorem pgreqUnpin (x0 : OpX3) : Statement (.pgreqUnpin x0) := fun _ h => (Bool.false_ne_true h).elim

/-- pgreqFetch is no word. -/
theorem pgreqFetch (x0 : OpX3) : Statement (.pgreqFetch x0) := fun _ h => (Bool.false_ne_true h).elim

/-- pgreqRequant is no word. -/
theorem pgreqRequant (x0 : OpX3) : Statement (.pgreqRequant x0) := fun _ h => (Bool.false_ne_true h).elim

/-- producerFill is no word. -/
theorem producerFill (x0 : Nat) (x1 : Nat) : Statement (.producerFill x0 x1) := fun _ h => (Bool.false_ne_true h).elim

/-- scalarProducerFill is no word. -/
theorem scalarProducerFill (x0 : Nat) : Statement (.scalarProducerFill x0) := fun _ h => (Bool.false_ne_true h).elim

/-- storeAccept is no word. -/
theorem storeAccept (x0 : Nat) (x1 : Nat) : Statement (.storeAccept x0 x1) := fun _ h => (Bool.false_ne_true h).elim

/-- atomicUnitExecute is no word. -/
theorem atomicUnitExecute (x0 : Nat) (x1 : Nat) : Statement (.atomicUnitExecute x0 x1) := fun _ h => (Bool.false_ne_true h).elim

/-- crewPlace is no word. -/
theorem crewPlace (x0 : Nat) : Statement (.crewPlace x0) := fun _ h => (Bool.false_ne_true h).elim

/-- crewEnd is no word. -/
theorem crewEnd (x0 : Nat) : Statement (.crewEnd x0) := fun _ h => (Bool.false_ne_true h).elim

/-- sequencerContextEnd is no word. -/
theorem sequencerContextEnd (x0 : Nat) : Statement (.sequencerContextEnd x0) := fun _ h => (Bool.false_ne_true h).elim

/-- sequencerTrapEnd is no word. -/
theorem sequencerTrapEnd (x0 : Nat) : Statement (.sequencerTrapEnd x0) := fun _ h => (Bool.false_ne_true h).elim

/-- stepTimeout is no word. -/
theorem stepTimeout (x0 : Nat) : Statement (.stepTimeout x0) := fun _ h => (Bool.false_ne_true h).elim

/-- mmaComplete is no word. -/
theorem mmaComplete (x0 : Nat) : Statement (.mmaComplete x0) := fun _ h => (Bool.false_ne_true h).elim

/-- aclrComplete is no word. -/
theorem aclrComplete (x0 : Nat) : Statement (.aclrComplete x0) := fun _ h => (Bool.false_ne_true h).elim

/-- adrainComplete is no word. -/
theorem adrainComplete (x0 : Nat) : Statement (.adrainComplete x0) := fun _ h => (Bool.false_ne_true h).elim

/-- tldComplete is no word. -/
theorem tldComplete (x0 : Nat) : Statement (.tldComplete x0) := fun _ h => (Bool.false_ne_true h).elim

/-- tstComplete is no word. -/
theorem tstComplete (x0 : Nat) : Statement (.tstComplete x0) := fun _ h => (Bool.false_ne_true h).elim

/-- mmagSliceComplete is no word. -/
theorem mmagSliceComplete (x0 : Nat) (x1 : Nat) : Statement (.mmagSliceComplete x0 x1) := fun _ h => (Bool.false_ne_true h).elim

/-- copyPart is no word. -/
theorem copyPart (x0 : Nat) (x1 : Nat) : Statement (.copyPart x0 x1) := fun _ h => (Bool.false_ne_true h).elim

/-- kvgatherDelivery is no word. -/
theorem kvgatherDelivery (x0 : Nat) (x1 : Nat) : Statement (.kvgatherDelivery x0 x1) := fun _ h => (Bool.false_ne_true h).elim

/-- kvappendWrite is no word. -/
theorem kvappendWrite (x0 : Nat) : Statement (.kvappendWrite x0) := fun _ h => (Bool.false_ne_true h).elim

/-- pageWaitTimeout is no word. -/
theorem pageWaitTimeout (x0 : ThreadRef) : Statement (.pageWaitTimeout x0) := fun _ h => (Bool.false_ne_true h).elim

/-- evictionStart is no word. -/
theorem evictionStart (x0 : Nat) : Statement (.evictionStart x0) := fun _ h => (Bool.false_ne_true h).elim

/-- evictionCopyEnd is no word. -/
theorem evictionCopyEnd (x0 : Nat) (x1 : Nat) : Statement (.evictionCopyEnd x0 x1) := fun _ h => (Bool.false_ne_true h).elim

/-- fetchCopyEnd is no word. -/
theorem fetchCopyEnd (x0 : Nat) (x1 : Nat) : Statement (.fetchCopyEnd x0 x1) := fun _ h => (Bool.false_ne_true h).elim

/-- copyOnWriteEnd is no word. -/
theorem copyOnWriteEnd (x0 : Nat) (x1 : Nat) : Statement (.copyOnWriteEnd x0 x1) := fun _ h => (Bool.false_ne_true h).elim

/-- batchFormation is no word. -/
theorem batchFormation (x0 : Nat) (x1 : Nat) : Statement (.batchFormation x0 x1) := fun _ h => (Bool.false_ne_true h).elim

/-- sequenceSweep is no word. -/
theorem sequenceSweep (x0 : Nat) (x1 : Nat) : Statement (.sequenceSweep x0 x1) := fun _ h => (Bool.false_ne_true h).elim

/-- iterationGraphComplete is no word. -/
theorem iterationGraphComplete (x0 : Nat) (x1 : Nat) : Statement (.iterationGraphComplete x0 x1) := fun _ h => (Bool.false_ne_true h).elim

/-- iterationEnd is no word. -/
theorem iterationEnd (x0 : Nat) (x1 : Nat) : Statement (.iterationEnd x0 x1) := fun _ h => (Bool.false_ne_true h).elim

/-- feedbackWaitExpiry is no word. -/
theorem feedbackWaitExpiry (x0 : Nat) (x1 : Nat) : Statement (.feedbackWaitExpiry x0 x1) := fun _ h => (Bool.false_ne_true h).elim

/-- inboundWithdraw is no word. -/
theorem inboundWithdraw (x0 : Nat) (x1 : Nat) : Statement (.inboundWithdraw x0 x1) := fun _ h => (Bool.false_ne_true h).elim

/-- queueDoorbell is no word. -/
theorem queueDoorbell (x0 : Nat) (x1 : BitVec 64) : Statement (.queueDoorbell x0 x1) := fun _ h => (Bool.false_ne_true h).elim

/-- qcreate is no word. -/
theorem qcreate (x0 : Nat) : Statement (.qcreate x0) := fun _ h => (Bool.false_ne_true h).elim

/-- qdestroy is no word. -/
theorem qdestroy (x0 : Nat) : Statement (.qdestroy x0) := fun _ h => (Bool.false_ne_true h).elim

/-- qdestroyComplete is no word. -/
theorem qdestroyComplete (x0 : Nat) : Statement (.qdestroyComplete x0) := fun _ h => (Bool.false_ne_true h).elim

/-- qreset is no word. -/
theorem qreset (x0 : Nat) : Statement (.qreset x0) := fun _ h => (Bool.false_ne_true h).elim

/-- ctxset is no word. -/
theorem ctxset (x0 : Nat) : Statement (.ctxset x0) := fun _ h => (Bool.false_ne_true h).elim

/-- inval is no word. -/
theorem inval (x0 : Nat) : Statement (.inval x0) := fun _ h => (Bool.false_ne_true h).elim

/-- invalComplete is no word. -/
theorem invalComplete (x0 : Nat) : Statement (.invalComplete x0) := fun _ h => (Bool.false_ne_true h).elim

/-- peconfig is no word. -/
theorem peconfig (x0 : Nat) : Statement (.peconfig x0) := fun _ h => (Bool.false_ne_true h).elim

/-- sqconfig is no word. -/
theorem sqconfig (x0 : Nat) : Statement (.sqconfig x0) := fun _ h => (Bool.false_ne_true h).elim

/-- sgassign is no word. -/
theorem sgassign (x0 : Nat) : Statement (.sgassign x0) := fun _ h => (Bool.false_ne_true h).elim

/-- ringset is no word. -/
theorem ringset (x0 : Nat) : Statement (.ringset x0) := fun _ h => (Bool.false_ne_true h).elim

/-- winset is no word. -/
theorem winset (x0 : Nat) : Statement (.winset x0) := fun _ h => (Bool.false_ne_true h).elim

/-- redset is no word. -/
theorem redset (x0 : Nat) : Statement (.redset x0) := fun _ h => (Bool.false_ne_true h).elim

/-- irisset is no word. -/
theorem irisset (x0 : Nat) : Statement (.irisset x0) := fun _ h => (Bool.false_ne_true h).elim

/-- saveset is no word. -/
theorem saveset (x0 : Nat) : Statement (.saveset x0) := fun _ h => (Bool.false_ne_true h).elim

/-- ctxpreempt is no word. -/
theorem ctxpreempt (x0 : Nat) : Statement (.ctxpreempt x0) := fun _ h => (Bool.false_ne_true h).elim

/-- ctxresume is no word. -/
theorem ctxresume (x0 : Nat) : Statement (.ctxresume x0) := fun _ h => (Bool.false_ne_true h).elim

/-- attest is no word. -/
theorem attest (x0 : Nat) : Statement (.attest x0) := fun _ h => (Bool.false_ne_true h).elim

/-- pwrset is no word. -/
theorem pwrset (x0 : Nat) : Statement (.pwrset x0) := fun _ h => (Bool.false_ne_true h).elim

/-- devset is no word. -/
theorem devset (x0 : Nat) : Statement (.devset x0) := fun _ h => (Bool.false_ne_true h).elim

/-- mextend is no word. -/
theorem mextend (x0 : Nat) : Statement (.mextend x0) := fun _ h => (Bool.false_ne_true h).elim

/-- repairset is no word. -/
theorem repairset (x0 : Nat) : Statement (.repairset x0) := fun _ h => (Bool.false_ne_true h).elim

/-- mgmtUnknownCommand is no word. -/
theorem mgmtUnknownCommand (x0 : Nat) : Statement (.mgmtUnknownCommand x0) := fun _ h => (Bool.false_ne_true h).elim

/-- launchPacket is no word. -/
theorem launchPacket (x0 : Nat) : Statement (.launchPacket x0) := fun _ h => (Bool.false_ne_true h).elim

/-- graphPacket is no word. -/
theorem graphPacket (x0 : Nat) : Statement (.graphPacket x0) := fun _ h => (Bool.false_ne_true h).elim

/-- signalPacket is no word. -/
theorem signalPacket (x0 : Nat) : Statement (.signalPacket x0) := fun _ h => (Bool.false_ne_true h).elim

/-- barrierAnd is no word. -/
theorem barrierAnd (x0 : Nat) : Statement (.barrierAnd x0) := fun _ h => (Bool.false_ne_true h).elim

/-- barrierOr is no word. -/
theorem barrierOr (x0 : Nat) : Statement (.barrierOr x0) := fun _ h => (Bool.false_ne_true h).elim

/-- barrierPacketPoll is no word. -/
theorem barrierPacketPoll (x0 : Nat) : Statement (.barrierPacketPoll x0) := fun _ h => (Bool.false_ne_true h).elim

/-- copyPacket is no word. -/
theorem copyPacket (x0 : Nat) : Statement (.copyPacket x0) := fun _ h => (Bool.false_ne_true h).elim

/-- seqadmit is no word. -/
theorem seqadmit (x0 : Nat) : Statement (.seqadmit x0) := fun _ h => (Bool.false_ne_true h).elim

/-- seqcancel is no word. -/
theorem seqcancel (x0 : Nat) : Statement (.seqcancel x0) := fun _ h => (Bool.false_ne_true h).elim

/-- malformedPacket is no word. -/
theorem malformedPacket (x0 : Nat) : Statement (.malformedPacket x0) := fun _ h => (Bool.false_ne_true h).elim

/-- stealRequest is no word. -/
theorem stealRequest (x0 : Nat) : Statement (.stealRequest x0) := fun _ h => (Bool.false_ne_true h).elim

/-- queueHandover is no word. -/
theorem queueHandover (x0 : Nat) : Statement (.queueHandover x0) := fun _ h => (Bool.false_ne_true h).elim

/-- queueReturn is no word. -/
theorem queueReturn (x0 : Nat) : Statement (.queueReturn x0) := fun _ h => (Bool.false_ne_true h).elim

/-- aggregatorWindowClose is no word. -/
theorem aggregatorWindowClose (x0 : Nat) (x1 : Nat) : Statement (.aggregatorWindowClose x0 x1) := fun _ h => (Bool.false_ne_true h).elim

/-- ringInterruptTimer is no word. -/
theorem ringInterruptTimer (x0 : Nat) : Statement (.ringInterruptTimer x0) := fun _ h => (Bool.false_ne_true h).elim

/-- rdidx is no word. -/
theorem rdidx (x0 : Nat) (x1 : BitVec 64) : Statement (.rdidx x0 x1) := fun _ h => (Bool.false_ne_true h).elim

/-- ovf is no word. -/
theorem ovf (x0 : Nat) : Statement (.ovf x0) := fun _ h => (Bool.false_ne_true h).elim

/-- mrtail is no word. -/
theorem mrtail (x0 : Nat) (x1 : BitVec 64) : Statement (.mrtail x0 x1) := fun _ h => (Bool.false_ne_true h).elim

/-- mrbase is no word. -/
theorem mrbase (x0 : Nat) (x1 : Bool) (x2 : BitVec 64) : Statement (.mrbase x0 x1 x2) := fun _ h => (Bool.false_ne_true h).elim

/-- hostWindowWrite is no word. -/
theorem hostWindowWrite (x0 : Nat) (x1 : Nat) (x2 : BitVec 64) : Statement (.hostWindowWrite x0 x1 x2) := fun _ h => (Bool.false_ne_true h).elim

/-- wlock is no word. -/
theorem wlock : Statement .wlock := fun _ h => (Bool.false_ne_true h).elim

/-- hostRegisterWrite is no word. -/
theorem hostRegisterWrite (x0 : Nat) (x1 : BitVec 64) : Statement (.hostRegisterWrite x0 x1) := fun _ h => (Bool.false_ne_true h).elim

/-- rtsReceive is no word. -/
theorem rtsReceive (x0 : Nat) : Statement (.rtsReceive x0) := fun _ h => (Bool.false_ne_true h).elim

/-- rtsRetry is no word. -/
theorem rtsRetry (x0 : Nat) : Statement (.rtsRetry x0) := fun _ h => (Bool.false_ne_true h).elim

/-- irisGrant is no word. -/
theorem irisGrant (x0 : Nat) : Statement (.irisGrant x0) := fun _ h => (Bool.false_ne_true h).elim

/-- tokenReceive is no word. -/
theorem tokenReceive (x0 : Nat) : Statement (.tokenReceive x0) := fun _ h => (Bool.false_ne_true h).elim

/-- fabricDataLand is no word. -/
theorem fabricDataLand (x0 : Nat) : Statement (.fabricDataLand x0) := fun _ h => (Bool.false_ne_true h).elim

/-- tokenExpiry is no word. -/
theorem tokenExpiry (x0 : Nat) (x1 : Nat) : Statement (.tokenExpiry x0 x1) := fun _ h => (Bool.false_ne_true h).elim

/-- orphanTimeout is no word. -/
theorem orphanTimeout (x0 : Nat) (x1 : Nat) : Statement (.orphanTimeout x0 x1) := fun _ h => (Bool.false_ne_true h).elim

/-- transferTimeout is no word. -/
theorem transferTimeout (x0 : Nat) : Statement (.transferTimeout x0) := fun _ h => (Bool.false_ne_true h).elim

/-- frozen is no word. -/
theorem frozen (x0 : Nat) (x1 : Nat) : Statement (.frozen x0 x1) := fun _ h => (Bool.false_ne_true h).elim

/-- frozenReceive is no word. -/
theorem frozenReceive (x0 : Nat) : Statement (.frozenReceive x0) := fun _ h => (Bool.false_ne_true h).elim

/-- finished is no word. -/
theorem finished (x0 : Nat) : Statement (.finished x0) := fun _ h => (Bool.false_ne_true h).elim

/-- orphaned is no word. -/
theorem orphaned (x0 : Nat) : Statement (.orphaned x0) := fun _ h => (Bool.false_ne_true h).elim

/-- refusalReceive is no word. -/
theorem refusalReceive (x0 : Nat) : Statement (.refusalReceive x0) := fun _ h => (Bool.false_ne_true h).elim

/-- relinquish is no word. -/
theorem relinquish (x0 : Nat) : Statement (.relinquish x0) := fun _ h => (Bool.false_ne_true h).elim

/-- resume is no word. -/
theorem resume (x0 : Nat) : Statement (.resume x0) := fun _ h => (Bool.false_ne_true h).elim

/-- abort is no word. -/
theorem abort (x0 : Nat) : Statement (.abort x0) := fun _ h => (Bool.false_ne_true h).elim

/-- rmaReadServe is no word. -/
theorem rmaReadServe (x0 : Nat) : Statement (.rmaReadServe x0) := fun _ h => (Bool.false_ne_true h).elim

/-- getResponseLand is no word. -/
theorem getResponseLand (x0 : Nat) : Statement (.getResponseLand x0) := fun _ h => (Bool.false_ne_true h).elim

/-- ratomExecute is no word. -/
theorem ratomExecute (x0 : Nat) : Statement (.ratomExecute x0) := fun _ h => (Bool.false_ne_true h).elim

/-- ratomReply is no word. -/
theorem ratomReply (x0 : Nat) : Statement (.ratomReply x0) := fun _ h => (Bool.false_ne_true h).elim

/-- reductionArrival is no word. -/
theorem reductionArrival (x0 : Nat) : Statement (.reductionArrival x0) := fun _ h => (Bool.false_ne_true h).elim

/-- reductionSlotTimeout is no word. -/
theorem reductionSlotTimeout (x0 : Nat) : Statement (.reductionSlotTimeout x0) := fun _ h => (Bool.false_ne_true h).elim

/-- reductionResultLand is no word. -/
theorem reductionResultLand (x0 : Nat) (x1 : Nat) : Statement (.reductionResultLand x0 x1) := fun _ h => (Bool.false_ne_true h).elim

/-- unreachable is no word. -/
theorem unreachable (x0 : Nat) : Statement (.unreachable x0) := fun _ h => (Bool.false_ne_true h).elim

/-- portDown is no word. -/
theorem portDown (x0 : Nat) : Statement (.portDown x0) := fun _ h => (Bool.false_ne_true h).elim

/-- unsupportedOperation is no word. -/
theorem unsupportedOperation (x0 : Nat) : Statement (.unsupportedOperation x0) := fun _ h => (Bool.false_ne_true h).elim

/-- crewSave is no word. -/
theorem crewSave (x0 : Nat) (x1 : Nat) : Statement (.crewSave x0 x1) := fun _ h => (Bool.false_ne_true h).elim

/-- crewRestore is no word. -/
theorem crewRestore (x0 : Nat) (x1 : Nat) : Statement (.crewRestore x0 x1) := fun _ h => (Bool.false_ne_true h).elim

/-- powerWindow is no word. -/
theorem powerWindow (x0 : Nat) (x1 : Nat) (x2 : Nat) (x3 : Nat) : Statement (.powerWindow x0 x1 x2 x3) := fun _ h => (Bool.false_ne_true h).elim

/-- thermalClamp is no word. -/
theorem thermalClamp (x0 : Nat) : Statement (.thermalClamp x0) := fun _ h => (Bool.false_ne_true h).elim

/-- thermalClampRelease is no word. -/
theorem thermalClampRelease (x0 : Nat) : Statement (.thermalClampRelease x0) := fun _ h => (Bool.false_ne_true h).elim

/-- thermalMigration is no word. -/
theorem thermalMigration (x0 : Nat) (x1 : Nat) (x2 : Nat) : Statement (.thermalMigration x0 x1 x2) := fun _ h => (Bool.false_ne_true h).elim

/-- uncorrectableError is no word. -/
theorem uncorrectableError (x0 : Granule) : Statement (.uncorrectableError x0) := fun _ h => (Bool.false_ne_true h).elim

/-- correctableError is no word. -/
theorem correctableError (x0 : Granule) : Statement (.correctableError x0) := fun _ h => (Bool.false_ne_true h).elim

/-- coldReset is no word. -/
theorem coldReset (x0 : BootInput) : Statement (.coldReset x0) := fun _ h => (Bool.false_ne_true h).elim

/-- powerLoss is no word. -/
theorem powerLoss : Statement .powerLoss := fun _ h => (Bool.false_ne_true h).elim

/-- functionReset is no word. -/
theorem functionReset : Statement .functionReset := fun _ h => (Bool.false_ne_true h).elim

/-- functionResetComplete is no word. -/
theorem functionResetComplete : Statement .functionResetComplete := fun _ h => (Bool.false_ne_true h).elim

/-- watchdogTimeout is no word. -/
theorem watchdogTimeout (x0 : Nat) : Statement (.watchdogTimeout x0) := fun _ h => (Bool.false_ne_true h).elim

/-- capFault is no word. -/
theorem capFault (x0 : Nat) : Statement (.capFault x0) := fun _ h => (Bool.false_ne_true h).elim

/-- portUp is no word. -/
theorem portUp (x0 : Nat) : Statement (.portUp x0) := fun _ h => (Bool.false_ne_true h).elim

/-- queueError is no word. -/
theorem queueError (x0 : Nat) : Statement (.queueError x0) := fun _ h => (Bool.false_ne_true h).elim

/-- mgmtRecordSkip is no word. -/
theorem mgmtRecordSkip (x0 : Nat) : Statement (.mgmtRecordSkip x0) := fun _ h => (Bool.false_ne_true h).elim

end Sys2Proof.Laws.RoundTrip
end

