-- ==== Sys2Proof/Laws/Run.lean ====
section
/-! SUPPORT. What the shared operations of issue answer, once each: the frame of an instruction that completes (`runCtlH_ok`,
`runH_ok`), that stops (`runCtlH_stop`), or that its engine does not take (`runCtlH_ill`), and the operand checks that pass. -/
namespace Sys2Proof.Laws
open Sys2Proof.Machine

variable {h : Hdr} {s t : State} {e : Env} {body : Env → Exe State}

theorem runCtlH_res (hc : s.cur = some e.who) (he : s.env? e.who h = some e) (ht : h.takenBy e.eng = true) :
    runCtlH h s body = .next ((s.settleRes e (body e)).ctxSettle e.who) := by
  unfold runCtlH
  rw [hc]
  simp only [he, ht]
  rfl

theorem runCtlH_ok (hc : s.cur = some e.who) (he : s.env? e.who h = some e) (ht : h.takenBy e.eng = true) (hb : body e = .ok t) :
    runCtlH h s body = .next (t.ctxSettle e.who) := by
  rw [runCtlH_res hc he ht, hb]; rfl

theorem runCtlH_stop {st : Stop} (hc : s.cur = some e.who) (he : s.env? e.who h = some e) (ht : h.takenBy e.eng = true)
    (hb : body e = .error st) : runCtlH h s body = .next ((s.stopped e st).ctxSettle e.who) := by
  rw [runCtlH_res hc he ht, hb]; rfl

theorem runCtlH_ill (hc : s.cur = some e.who) (he : s.env? e.who h = some e) (ht : h.takenBy e.eng = false) :
    runCtlH h s body = .next (s.raise e ⟨1, BitVec.ofNat 64 (7 * 2 ^ 56 + h.word % 2 ^ 32), none, 0⟩) := by
  unfold runCtlH
  rw [hc]
  simp only [he, ht]
  rfl

theorem runH_ok (hc : s.cur = some e.who) (he : s.env? e.who h = some e) (ht : h.takenBy e.eng = true) (hb : body e = .ok t) :
    runH h s body = .next ((t.jump e e.npc).ctxSettle e.who) := by
  unfold runH
  exact runCtlH_ok hc he ht (by rw [hb]; rfl)

theorem runH_stop {st : Stop} (hc : s.cur = some e.who) (he : s.env? e.who h = some e) (ht : h.takenBy e.eng = true)
    (hb : body e = .error st) : runH h s body = .next ((s.stopped e st).ctxSettle e.who) := by
  unfold runH
  exact runCtlH_stop hc he ht (by rw [hb]; rfl)

/-- A result that is no stop goes through a sequence of checks. -/
@[simp] theorem exe_ok_bind {α β : Type} (a : α) (f : α → Exe β) : ((Except.ok a : Exe α) >>= f) = f a := rfl

@[simp] theorem exe_error_bind {α β : Type} (st : Stop) (f : α → Exe β) : ((Except.error st : Exe α) >>= f) = .error st := rfl

@[simp] theorem exe_pure {α : Type} (a : α) : (pure a : Exe α) = .ok a := rfl

theorem need_ok {c : Bool} {st : Stop} (hc : c = true) : need c st = .ok () := by simp [need, hc]

theorem waitUnless_ok {c : Bool} (hc : c = true) : waitUnless c = .ok () := by simp [waitUnless, hc]

theorem theWarp_ok {w : Warp} (hw : e.w? s = some w) : theWarp s e = .ok w := by simp [theWarp, hw]

theorem rdS_ok {r : Nat} (hr : r = 0 ∨ ((s.scal e.who).2.1.getLsbD r = false ∧ (s.scal e.who).2.2.getLsbD r = false)) :
    rdS s e r = .ok (s.sreg e.who r) := by
  rcases hr with rfl | ⟨h1, h2⟩
  · simp [rdS, State.sreg]
  · simp only [rdS, h1, h2]
    split
    · simp [State.sreg, *]
    · rfl

theorem wrS_ok {r : Nat} {v : W64} (hr : r = 0 ∨ (s.scal e.who).2.1.getLsbD r = false) : wrS s e r v = .ok (s.setS e.who r v) := by
  rcases hr with rfl | h1
  · simp [wrS]
  · simp [wrS, h1]

theorem freeS_ok {r : Nat} (hr : r = 0 ∨ (s.scal e.who).2.1.getLsbD r = false) : freeS s e r = .ok () := by
  rcases hr with rfl | h1
  · simp [freeS, waitUnless]
  · simp [freeS, waitUnless, h1]

theorem rdM_ok {w : Warp} {r : Nat} (hr : r = 0 ∨ w.mpoison.getLsbD r = false) :
    rdM e w r = .ok (if r = 0 then e.m0 else w.mregs.getD (r - 1) 0) := by
  rcases hr with rfl | h1
  · simp [rdM]
  · simp only [rdM, h1]; split <;> rfl

theorem regsOk_ok {k : Crew} {rs : List Nat} (hr : ∀ r ∈ rs, r < k.image.regs) : regsOk k rs = .ok () := by
  unfold regsOk
  have : rs.find? (fun r => decide (k.image.regs ≤ r)) = none := by
    rw [List.find?_eq_none]; intro r h1; have := hr r h1; simp; omega
  rw [this]

/-- A source whose lanes are full, not pending and not poisoned. -/
abbrev SrcOk (w : Warp) (x : Src) : Prop :=
  ∀ l ∈ lanesOf x.lanes, (w.lane x.reg l).f = true ∧ (w.lane x.reg l).pend = false ∧ (w.lane x.reg l).poison = false

theorem emptyCheck_ok {w : Warp} {xs : List Src} (hx : ∀ x ∈ xs, SrcOk w x) : emptyCheck w xs = .ok () := by
  have h1 : xs.findSome? (fun x => x.empty? w) = none := by
    rw [List.findSome?_eq_none_iff]; intro x h; unfold Src.empty?; rw [List.findSome?_eq_none_iff]; intro l hl
    simp [emptyKind, (hx x h l hl).1]
  simp only [emptyCheck, h1]

theorem pendCheck_ok {w : Warp} {xs : List Src} (hx : ∀ x ∈ xs, SrcOk w x) : pendCheck w xs = .ok () := by
  have h2 : (xs.any (fun x => (lanesOf x.lanes).any (fun i => (w.lane x.reg i).pend))) = false := by
    rw [List.any_eq_false]; intro x h; simp only [Bool.not_eq_true]; rw [List.any_eq_false]; intro l hl; simp [(hx x h l hl).2.1]
  simp [pendCheck, h2, waitUnless]

theorem poisonCheck_ok {w : Warp} {k : Nat} {xs : List Src} (hx : ∀ x ∈ xs, SrcOk w x) : poisonCheck w k xs = .ok () := by
  have h3 : (List.range 64).findSome? (poisonedAt w xs) = none := by
    rw [List.findSome?_eq_none_iff]; intro i hi; unfold poisonedAt; rw [List.findSome?_eq_none_iff]; intro x h
    by_cases hl : x.lanes.getLsbD i = true
    · have := (hx x h i (by simp only [lanesOf, List.mem_filter]; exact ⟨hi, hl⟩)).2.2
      simp [this]
    · simp [hl]
  simp only [poisonCheck, h3]

theorem checkSrcs_ok {w : Warp} {k : Nat} {xs : List Src} (hx : ∀ x ∈ xs, SrcOk w x) : checkSrcs w k xs = .ok () := by
  simp only [checkSrcs, emptyCheck_ok hx, pendCheck_ok hx, poisonCheck_ok hx, exe_ok_bind]

theorem dstFree_ok {w : Warp} {rs : List Nat} {m : W64} (hf : ∀ r ∈ rs, ∀ l ∈ lanesOf m, (w.lane r l).pend = false) :
    dstFree w rs m = .ok () := by
  have : (rs.all (fun r => (lanesOf m).all (fun i => !(w.lane r i).pend))) = true := by
    simp only [List.all_eq_true]; intro r hr l hl; simp [hf r hr l hl]
  simp [dstFree, this, waitUnless]

/-- A vector environment whose mask may be read. -/
theorem venv_ok {v : VEnv} : venv s e = .ok v ↔ venvW s e = .ok v ∧ maskOk v = .ok () := by
  unfold venv venvW
  cases hw : theWarp s e with
  | error st => simp [Except.bind, Bind.bind]
  | ok w =>
    simp only [exe_ok_bind, exe_pure]
    cases hm : maskOk (VEnv.of e w) with
    | error st => simp only [exe_error_bind]; constructor
                  · intro h; cases h
                  · rintro ⟨h, h2⟩; cases h; rw [hm] at h2; cases h2
    | ok u => simp only [exe_ok_bind]; constructor
              · intro h; cases h; exact ⟨rfl, hm⟩
              · exact And.left

theorem checkV_ok {v : VEnv} {k : Nat} {xs : List Src} (hm : maskOk v = .ok ())
(hx : ∀ x ∈ xs, SrcOk v.w x) :
    checkV v k xs = .ok () := by
  simp only [checkV, emptyCheck_ok hx, pendCheck_ok hx, hm, poisonCheck_ok hx, exe_ok_bind]

/-- A vector instruction with one destination, whose checks pass, writes its active lanes and goes on. -/
theorem runVec_ok {i : Instr} {d : Nat} {pre : Env → Exe Unit} {srcs : VEnv → List Src} {f : VEnv → Nat → Lane} {v : VEnv}
    (hc : s.cur = some e.who) (he : s.env? e.who (hdrOf i) = some e) (ht : (hdrOf i).takenBy e.eng = true) (hp : pre e = .ok ())
    (hv : venv s e = .ok v) (hr : ∀ r ∈ d :: (srcs v).map Src.reg, r < e.k.image.regs)
    (hs : ∀ x ∈ srcs v, SrcOk v.w x)
    (hd : ∀ r ∈ [d], ∀ l ∈ lanesOf (v.act ||| v.zl), (v.w.lane r l).pend = false) :
    runVec i s d pre srcs f = .next (((s.modWarp e.ci e.wi (fun w => w.out v d (f v))).jump e e.npc).ctxSettle e.who) := by
  unfold runVec run
  apply runH_ok hc he ht
  simp only [hp, (venv_ok.1 hv).1, exe_ok_bind, regsOk_ok hr, checkV_ok (venv_ok.1 hv).2 hs, dstFree_ok hd, exe_pure]

/-- A producer whose checks pass empties its active lanes and holds their results. -/
theorem runProducer_ok {i : Instr} {d : Nat} {srcs : VEnv → List Src} {f : VEnv → Nat → Lane} {v : VEnv}
    (hc : s.cur = some e.who) (he : s.env? e.who (hdrOf i) = some e) (ht : (hdrOf i).takenBy e.eng = true)
    (hv : venv s e = .ok v) (hr : ∀ r ∈ d :: (srcs v).map Src.reg, r < e.k.image.regs)
    (hs : ∀ x ∈ srcs v, SrcOk v.w x)
    (hd : ∀ r ∈ [d], ∀ l ∈ lanesOf (v.act ||| v.zl), (v.w.lane r l).pend = false) :
    runProducer i s d srcs f = .next ((State.jump
      (if v.act = 0 then s.modWarp e.ci e.wi (fun w => (w.setPending [d] v.act).zeroRun v [d])
       else (s.modWarp e.ci e.wi (fun w => (w.setPending [d] v.act).zeroRun v [d])).addOp
         { e.newOp s v.act with fills := (lanesOf v.act).map (fun l => ⟨l, .ready [(d, f v l)]⟩) }) e e.npc).ctxSettle e.who) := by
  unfold runProducer run
  apply runH_ok hc he ht
  simp only [(venv_ok.1 hv).1, exe_ok_bind, regsOk_ok hr, checkV_ok (venv_ok.1 hv).2 hs, dstFree_ok hd, exe_pure]
  split <;> rfl

/-- A mask-writing instruction whose checks pass. -/
theorem runMask_ok {i : Instr} {md : BitVec 3} {srcs : VEnv → List Src} {p : VEnv → Nat → Bool} {v : VEnv}
    (hc : s.cur = some e.who) (he : s.env? e.who (hdrOf i) = some e) (ht : (hdrOf i).takenBy e.eng = true) (hm : md ≠ 0)
    (hv : venv s e = .ok v) (hr : ∀ r ∈ (srcs v).map Src.reg, r < e.k.image.regs)
    (hs : ∀ x ∈ srcs v, SrcOk v.w x) :
    runMask i s md srcs p = .next (((s.modWarp e.ci e.wi (fun w => w.setM md.toNat v (p v))).jump e e.npc).ctxSettle e.who) := by
  unfold runMask run
  apply runH_ok hc he ht
  simp only [need, hm, ne_eq, not_false_eq_true, decide_true, if_true, (venv_ok.1 hv).1, exe_ok_bind, regsOk_ok hr, checkV_ok (venv_ok.1 hv).2 hs, exe_pure]

end Sys2Proof.Laws
end

