-- ==== Sys2Proof/Laws/State.lean ====
section
/-! SUPPORT. What the updates of the state change: one lemma per field per update, so that no proof unfolds a record update. -/
namespace Sys2Proof.Laws
open Sys2Proof.Machine

variable (s : State)

@[simp] theorem modCrew_agenda (c : Nat) (f : Crew → Crew) : (s.modCrew c f).agenda = s.agenda := rfl
@[simp] theorem modCrew_cur (c : Nat) (f : Crew → Crew) : (s.modCrew c f).cur = s.cur := rfl
@[simp] theorem modCrew_dtime (c : Nat) (f : Crew → Crew) : (s.modCrew c f).dtime = s.dtime := rfl
@[simp] theorem modCrew_skew (c : Nat) (f : Crew → Crew) : (s.modCrew c f).skew = s.skew := rfl
@[simp] theorem modCrew_devid (c : Nat) (f : Crew → Crew) : (s.modCrew c f).devid = s.devid := rfl
@[simp] theorem modCrew_throttle (c : Nat) (f : Crew → Crew) : (s.modCrew c f).throttle = s.throttle := rfl
@[simp] theorem modCrew_clamp (c : Nat) (f : Crew → Crew) : (s.modCrew c f).clamp = s.clamp := rfl
@[simp] theorem modCrew_mem (c : Nat) (f : Crew → Crew) : (s.modCrew c f).mem = s.mem := rfl
@[simp] theorem modCrew_memPoison (c : Nat) (f : Crew → Crew) : (s.modCrew c f).memPoison = s.memPoison := rfl
@[simp] theorem modCrew_windows (c : Nat) (f : Crew → Crew) : (s.modCrew c f).windows = s.windows := rfl
@[simp] theorem modCrew_wlock (c : Nat) (f : Crew → Crew) : (s.modCrew c f).wlock = s.wlock := rfl
@[simp] theorem modCrew_roots (c : Nat) (f : Crew → Crew) : (s.modCrew c f).roots = s.roots := rfl
@[simp] theorem modCrew_xlat (c : Nat) (f : Crew → Crew) : (s.modCrew c f).xlat = s.xlat := rfl
@[simp] theorem modCrew_useOld (c : Nat) (f : Crew → Crew) : (s.modCrew c f).useOld = s.useOld := rfl
@[simp] theorem modCrew_crews (c : Nat) (f : Crew → Crew) : (s.modCrew c f).crews = modAt s.crews c f := rfl
@[simp] theorem modCrew_ctxs (c : Nat) (f : Crew → Crew) : (s.modCrew c f).ctxs = s.ctxs := rfl
@[simp] theorem modCrew_forkQ (c : Nat) (f : Crew → Crew) : (s.modCrew c f).forkQ = s.forkQ := rfl
@[simp] theorem modCrew_cohorts (c : Nat) (f : Crew → Crew) : (s.modCrew c f).cohorts = s.cohorts := rfl
@[simp] theorem modCrew_steps (c : Nat) (f : Crew → Crew) : (s.modCrew c f).steps = s.steps := rfl
@[simp] theorem modCrew_heldUpds (c : Nat) (f : Crew → Crew) : (s.modCrew c f).heldUpds = s.heldUpds := rfl
@[simp] theorem modCrew_ops (c : Nat) (f : Crew → Crew) : (s.modCrew c f).ops = s.ops := rfl
@[simp] theorem modCrew_withdrawn (c : Nat) (f : Crew → Crew) : (s.modCrew c f).withdrawn = s.withdrawn := rfl
@[simp] theorem modCrew_rels (c : Nat) (f : Crew → Crew) : (s.modCrew c f).rels = s.rels := rfl
@[simp] theorem modCrew_nextOp (c : Nat) (f : Crew → Crew) : (s.modCrew c f).nextOp = s.nextOp := rfl
@[simp] theorem modCrew_pgWaits (c : Nat) (f : Crew → Crew) : (s.modCrew c f).pgWaits = s.pgWaits := rfl
@[simp] theorem modCrew_dies (c : Nat) (f : Crew → Crew) : (s.modCrew c f).dies = s.dies := rfl
@[simp] theorem modCrew_queues (c : Nat) (f : Crew → Crew) : (s.modCrew c f).queues = s.queues := rfl
@[simp] theorem modCrew_jobs (c : Nat) (f : Crew → Crew) : (s.modCrew c f).jobs = s.jobs := rfl
@[simp] theorem modCrew_nextJob (c : Nat) (f : Crew → Crew) : (s.modCrew c f).nextJob = s.nextJob := rfl
@[simp] theorem modCrew_rings (c : Nat) (f : Crew → Crew) : (s.modCrew c f).rings = s.rings := rfl
@[simp] theorem modCrew_wins (c : Nat) (f : Crew → Crew) : (s.modCrew c f).wins = s.wins := rfl
@[simp] theorem modCrew_redgrps (c : Nat) (f : Crew → Crew) : (s.modCrew c f).redgrps = s.redgrps := rfl
@[simp] theorem modCrew_slots (c : Nat) (f : Crew → Crew) : (s.modCrew c f).slots = s.slots := rfl
@[simp] theorem modCrew_closed (c : Nat) (f : Crew → Crew) : (s.modCrew c f).closed = s.closed := rfl
@[simp] theorem modCrew_wire (c : Nat) (f : Crew → Crew) : (s.modCrew c f).wire = s.wire := rfl
@[simp] theorem modCrew_nextMsg (c : Nat) (f : Crew → Crew) : (s.modCrew c f).nextMsg = s.nextMsg := rfl
@[simp] theorem modCrew_saves (c : Nat) (f : Crew → Crew) : (s.modCrew c f).saves = s.saves := rfl
@[simp] theorem modCrew_msix (c : Nat) (f : Crew → Crew) : (s.modCrew c f).msix = s.msix := rfl
@[simp] theorem modCrew_ev (c : Nat) (f : Crew → Crew) : (s.modCrew c f).ev = s.ev := rfl
@[simp] theorem modCrew_boot (c : Nat) (f : Crew → Crew) : (s.modCrew c f).boot = s.boot := rfl
@[simp] theorem modCrew_free (c : Nat) (f : Crew → Crew) : (s.modCrew c f).free = s.free := rfl
@[simp] theorem modCrew_wordPoison (c : Nat) (f : Crew → Crew) : (s.modCrew c f).wordPoison = s.wordPoison := rfl
@[simp] theorem modCrew_coming (c : Nat) (f : Crew → Crew) : (s.modCrew c f).coming = s.coming := rfl
@[simp] theorem modCrew_xfers (c : Nat) (f : Crew → Crew) : (s.modCrew c f).xfers = s.xfers := rfl
@[simp] theorem modCrew_hist (c : Nat) (f : Crew → Crew) : (s.modCrew c f).hist = s.hist := rfl
@[simp] theorem modCrew_reads (c : Nat) (f : Crew → Crew) : (s.modCrew c f).reads = s.reads := rfl
@[simp] theorem modCrew_known (c : Nat) (f : Crew → Crew) : (s.modCrew c f).known = s.known := rfl
@[simp] theorem modCrew_arrivals (c : Nat) (f : Crew → Crew) : (s.modCrew c f).arrivals = s.arrivals := rfl
@[simp] theorem modCrew_lookBack (c : Nat) (f : Crew → Crew) : (s.modCrew c f).lookBack = s.lookBack := rfl
@[simp] theorem modCrew_up (c : Nat) (f : Crew → Crew) : (s.modCrew c f).up = s.up := rfl
@[simp] theorem modCrew_irqs (c : Nat) (f : Crew → Crew) : (s.modCrew c f).irqs = s.irqs := rfl
@[simp] theorem modCrew_hostSaw (c : Nat) (f : Crew → Crew) : (s.modCrew c f).hostSaw = s.hostSaw := rfl
@[simp] theorem modCrew_errs (c : Nat) (f : Crew → Crew) : (s.modCrew c f).errs = s.errs := rfl
@[simp] theorem modCrew_landings (c : Nat) (f : Crew → Crew) : (s.modCrew c f).landings = s.landings := rfl
@[simp] theorem modCrew_forks (c : Nat) (f : Crew → Crew) : (s.modCrew c f).forks = s.forks := rfl
@[simp] theorem modCrew_joins (c : Nat) (f : Crew → Crew) : (s.modCrew c f).joins = s.joins := rfl
@[simp] theorem modCrew_hostSeen (c : Nat) (f : Crew → Crew) : (s.modCrew c f).hostSeen = s.hostSeen := rfl
@[simp] theorem modCrew_actor (c : Nat) (f : Crew → Crew) : (s.modCrew c f).actor = s.actor := rfl

@[simp] theorem modWarp_agenda (c w : Nat) (f : Warp → Warp) : (s.modWarp c w f).agenda = s.agenda := rfl
@[simp] theorem modWarp_cur (c w : Nat) (f : Warp → Warp) : (s.modWarp c w f).cur = s.cur := rfl
@[simp] theorem modWarp_dtime (c w : Nat) (f : Warp → Warp) : (s.modWarp c w f).dtime = s.dtime := rfl
@[simp] theorem modWarp_skew (c w : Nat) (f : Warp → Warp) : (s.modWarp c w f).skew = s.skew := rfl
@[simp] theorem modWarp_devid (c w : Nat) (f : Warp → Warp) : (s.modWarp c w f).devid = s.devid := rfl
@[simp] theorem modWarp_throttle (c w : Nat) (f : Warp → Warp) : (s.modWarp c w f).throttle = s.throttle := rfl
@[simp] theorem modWarp_clamp (c w : Nat) (f : Warp → Warp) : (s.modWarp c w f).clamp = s.clamp := rfl
@[simp] theorem modWarp_mem (c w : Nat) (f : Warp → Warp) : (s.modWarp c w f).mem = s.mem := rfl
@[simp] theorem modWarp_memPoison (c w : Nat) (f : Warp → Warp) : (s.modWarp c w f).memPoison = s.memPoison := rfl
@[simp] theorem modWarp_windows (c w : Nat) (f : Warp → Warp) : (s.modWarp c w f).windows = s.windows := rfl
@[simp] theorem modWarp_wlock (c w : Nat) (f : Warp → Warp) : (s.modWarp c w f).wlock = s.wlock := rfl
@[simp] theorem modWarp_roots (c w : Nat) (f : Warp → Warp) : (s.modWarp c w f).roots = s.roots := rfl
@[simp] theorem modWarp_xlat (c w : Nat) (f : Warp → Warp) : (s.modWarp c w f).xlat = s.xlat := rfl
@[simp] theorem modWarp_useOld (c w : Nat) (f : Warp → Warp) : (s.modWarp c w f).useOld = s.useOld := rfl
@[simp] theorem modWarp_crews (c w : Nat) (f : Warp → Warp) : (s.modWarp c w f).crews = modAt s.crews c (fun k => k.modWarp w f) := rfl
@[simp] theorem modWarp_ctxs (c w : Nat) (f : Warp → Warp) : (s.modWarp c w f).ctxs = s.ctxs := rfl
@[simp] theorem modWarp_forkQ (c w : Nat) (f : Warp → Warp) : (s.modWarp c w f).forkQ = s.forkQ := rfl
@[simp] theorem modWarp_cohorts (c w : Nat) (f : Warp → Warp) : (s.modWarp c w f).cohorts = s.cohorts := rfl
@[simp] theorem modWarp_steps (c w : Nat) (f : Warp → Warp) : (s.modWarp c w f).steps = s.steps := rfl
@[simp] theorem modWarp_heldUpds (c w : Nat) (f : Warp → Warp) : (s.modWarp c w f).heldUpds = s.heldUpds := rfl
@[simp] theorem modWarp_ops (c w : Nat) (f : Warp → Warp) : (s.modWarp c w f).ops = s.ops := rfl
@[simp] theorem modWarp_withdrawn (c w : Nat) (f : Warp → Warp) : (s.modWarp c w f).withdrawn = s.withdrawn := rfl
@[simp] theorem modWarp_rels (c w : Nat) (f : Warp → Warp) : (s.modWarp c w f).rels = s.rels := rfl
@[simp] theorem modWarp_nextOp (c w : Nat) (f : Warp → Warp) : (s.modWarp c w f).nextOp = s.nextOp := rfl
@[simp] theorem modWarp_pgWaits (c w : Nat) (f : Warp → Warp) : (s.modWarp c w f).pgWaits = s.pgWaits := rfl
@[simp] theorem modWarp_dies (c w : Nat) (f : Warp → Warp) : (s.modWarp c w f).dies = s.dies := rfl
@[simp] theorem modWarp_queues (c w : Nat) (f : Warp → Warp) : (s.modWarp c w f).queues = s.queues := rfl
@[simp] theorem modWarp_jobs (c w : Nat) (f : Warp → Warp) : (s.modWarp c w f).jobs = s.jobs := rfl
@[simp] theorem modWarp_nextJob (c w : Nat) (f : Warp → Warp) : (s.modWarp c w f).nextJob = s.nextJob := rfl
@[simp] theorem modWarp_rings (c w : Nat) (f : Warp → Warp) : (s.modWarp c w f).rings = s.rings := rfl
@[simp] theorem modWarp_wins (c w : Nat) (f : Warp → Warp) : (s.modWarp c w f).wins = s.wins := rfl
@[simp] theorem modWarp_redgrps (c w : Nat) (f : Warp → Warp) : (s.modWarp c w f).redgrps = s.redgrps := rfl
@[simp] theorem modWarp_slots (c w : Nat) (f : Warp → Warp) : (s.modWarp c w f).slots = s.slots := rfl
@[simp] theorem modWarp_closed (c w : Nat) (f : Warp → Warp) : (s.modWarp c w f).closed = s.closed := rfl
@[simp] theorem modWarp_wire (c w : Nat) (f : Warp → Warp) : (s.modWarp c w f).wire = s.wire := rfl
@[simp] theorem modWarp_nextMsg (c w : Nat) (f : Warp → Warp) : (s.modWarp c w f).nextMsg = s.nextMsg := rfl
@[simp] theorem modWarp_saves (c w : Nat) (f : Warp → Warp) : (s.modWarp c w f).saves = s.saves := rfl
@[simp] theorem modWarp_msix (c w : Nat) (f : Warp → Warp) : (s.modWarp c w f).msix = s.msix := rfl
@[simp] theorem modWarp_ev (c w : Nat) (f : Warp → Warp) : (s.modWarp c w f).ev = s.ev := rfl
@[simp] theorem modWarp_boot (c w : Nat) (f : Warp → Warp) : (s.modWarp c w f).boot = s.boot := rfl
@[simp] theorem modWarp_free (c w : Nat) (f : Warp → Warp) : (s.modWarp c w f).free = s.free := rfl
@[simp] theorem modWarp_wordPoison (c w : Nat) (f : Warp → Warp) : (s.modWarp c w f).wordPoison = s.wordPoison := rfl
@[simp] theorem modWarp_coming (c w : Nat) (f : Warp → Warp) : (s.modWarp c w f).coming = s.coming := rfl
@[simp] theorem modWarp_xfers (c w : Nat) (f : Warp → Warp) : (s.modWarp c w f).xfers = s.xfers := rfl
@[simp] theorem modWarp_hist (c w : Nat) (f : Warp → Warp) : (s.modWarp c w f).hist = s.hist := rfl
@[simp] theorem modWarp_reads (c w : Nat) (f : Warp → Warp) : (s.modWarp c w f).reads = s.reads := rfl
@[simp] theorem modWarp_known (c w : Nat) (f : Warp → Warp) : (s.modWarp c w f).known = s.known := rfl
@[simp] theorem modWarp_arrivals (c w : Nat) (f : Warp → Warp) : (s.modWarp c w f).arrivals = s.arrivals := rfl
@[simp] theorem modWarp_lookBack (c w : Nat) (f : Warp → Warp) : (s.modWarp c w f).lookBack = s.lookBack := rfl
@[simp] theorem modWarp_up (c w : Nat) (f : Warp → Warp) : (s.modWarp c w f).up = s.up := rfl
@[simp] theorem modWarp_irqs (c w : Nat) (f : Warp → Warp) : (s.modWarp c w f).irqs = s.irqs := rfl
@[simp] theorem modWarp_hostSaw (c w : Nat) (f : Warp → Warp) : (s.modWarp c w f).hostSaw = s.hostSaw := rfl
@[simp] theorem modWarp_errs (c w : Nat) (f : Warp → Warp) : (s.modWarp c w f).errs = s.errs := rfl
@[simp] theorem modWarp_landings (c w : Nat) (f : Warp → Warp) : (s.modWarp c w f).landings = s.landings := rfl
@[simp] theorem modWarp_forks (c w : Nat) (f : Warp → Warp) : (s.modWarp c w f).forks = s.forks := rfl
@[simp] theorem modWarp_joins (c w : Nat) (f : Warp → Warp) : (s.modWarp c w f).joins = s.joins := rfl
@[simp] theorem modWarp_hostSeen (c w : Nat) (f : Warp → Warp) : (s.modWarp c w f).hostSeen = s.hostSeen := rfl
@[simp] theorem modWarp_actor (c w : Nat) (f : Warp → Warp) : (s.modWarp c w f).actor = s.actor := rfl

@[simp] theorem modCtx_agenda (x : Nat) (f : SCtx → SCtx) : (s.modCtx x f).agenda = s.agenda := rfl
@[simp] theorem modCtx_cur (x : Nat) (f : SCtx → SCtx) : (s.modCtx x f).cur = s.cur := rfl
@[simp] theorem modCtx_dtime (x : Nat) (f : SCtx → SCtx) : (s.modCtx x f).dtime = s.dtime := rfl
@[simp] theorem modCtx_skew (x : Nat) (f : SCtx → SCtx) : (s.modCtx x f).skew = s.skew := rfl
@[simp] theorem modCtx_devid (x : Nat) (f : SCtx → SCtx) : (s.modCtx x f).devid = s.devid := rfl
@[simp] theorem modCtx_throttle (x : Nat) (f : SCtx → SCtx) : (s.modCtx x f).throttle = s.throttle := rfl
@[simp] theorem modCtx_clamp (x : Nat) (f : SCtx → SCtx) : (s.modCtx x f).clamp = s.clamp := rfl
@[simp] theorem modCtx_mem (x : Nat) (f : SCtx → SCtx) : (s.modCtx x f).mem = s.mem := rfl
@[simp] theorem modCtx_memPoison (x : Nat) (f : SCtx → SCtx) : (s.modCtx x f).memPoison = s.memPoison := rfl
@[simp] theorem modCtx_windows (x : Nat) (f : SCtx → SCtx) : (s.modCtx x f).windows = s.windows := rfl
@[simp] theorem modCtx_wlock (x : Nat) (f : SCtx → SCtx) : (s.modCtx x f).wlock = s.wlock := rfl
@[simp] theorem modCtx_roots (x : Nat) (f : SCtx → SCtx) : (s.modCtx x f).roots = s.roots := rfl
@[simp] theorem modCtx_xlat (x : Nat) (f : SCtx → SCtx) : (s.modCtx x f).xlat = s.xlat := rfl
@[simp] theorem modCtx_useOld (x : Nat) (f : SCtx → SCtx) : (s.modCtx x f).useOld = s.useOld := rfl
@[simp] theorem modCtx_crews (x : Nat) (f : SCtx → SCtx) : (s.modCtx x f).crews = s.crews := rfl
@[simp] theorem modCtx_ctxs (x : Nat) (f : SCtx → SCtx) : (s.modCtx x f).ctxs = modAt s.ctxs x f := rfl
@[simp] theorem modCtx_forkQ (x : Nat) (f : SCtx → SCtx) : (s.modCtx x f).forkQ = s.forkQ := rfl
@[simp] theorem modCtx_cohorts (x : Nat) (f : SCtx → SCtx) : (s.modCtx x f).cohorts = s.cohorts := rfl
@[simp] theorem modCtx_steps (x : Nat) (f : SCtx → SCtx) : (s.modCtx x f).steps = s.steps := rfl
@[simp] theorem modCtx_heldUpds (x : Nat) (f : SCtx → SCtx) : (s.modCtx x f).heldUpds = s.heldUpds := rfl
@[simp] theorem modCtx_ops (x : Nat) (f : SCtx → SCtx) : (s.modCtx x f).ops = s.ops := rfl
@[simp] theorem modCtx_withdrawn (x : Nat) (f : SCtx → SCtx) : (s.modCtx x f).withdrawn = s.withdrawn := rfl
@[simp] theorem modCtx_rels (x : Nat) (f : SCtx → SCtx) : (s.modCtx x f).rels = s.rels := rfl
@[simp] theorem modCtx_nextOp (x : Nat) (f : SCtx → SCtx) : (s.modCtx x f).nextOp = s.nextOp := rfl
@[simp] theorem modCtx_pgWaits (x : Nat) (f : SCtx → SCtx) : (s.modCtx x f).pgWaits = s.pgWaits := rfl
@[simp] theorem modCtx_dies (x : Nat) (f : SCtx → SCtx) : (s.modCtx x f).dies = s.dies := rfl
@[simp] theorem modCtx_queues (x : Nat) (f : SCtx → SCtx) : (s.modCtx x f).queues = s.queues := rfl
@[simp] theorem modCtx_jobs (x : Nat) (f : SCtx → SCtx) : (s.modCtx x f).jobs = s.jobs := rfl
@[simp] theorem modCtx_nextJob (x : Nat) (f : SCtx → SCtx) : (s.modCtx x f).nextJob = s.nextJob := rfl
@[simp] theorem modCtx_rings (x : Nat) (f : SCtx → SCtx) : (s.modCtx x f).rings = s.rings := rfl
@[simp] theorem modCtx_wins (x : Nat) (f : SCtx → SCtx) : (s.modCtx x f).wins = s.wins := rfl
@[simp] theorem modCtx_redgrps (x : Nat) (f : SCtx → SCtx) : (s.modCtx x f).redgrps = s.redgrps := rfl
@[simp] theorem modCtx_slots (x : Nat) (f : SCtx → SCtx) : (s.modCtx x f).slots = s.slots := rfl
@[simp] theorem modCtx_closed (x : Nat) (f : SCtx → SCtx) : (s.modCtx x f).closed = s.closed := rfl
@[simp] theorem modCtx_wire (x : Nat) (f : SCtx → SCtx) : (s.modCtx x f).wire = s.wire := rfl
@[simp] theorem modCtx_nextMsg (x : Nat) (f : SCtx → SCtx) : (s.modCtx x f).nextMsg = s.nextMsg := rfl
@[simp] theorem modCtx_saves (x : Nat) (f : SCtx → SCtx) : (s.modCtx x f).saves = s.saves := rfl
@[simp] theorem modCtx_msix (x : Nat) (f : SCtx → SCtx) : (s.modCtx x f).msix = s.msix := rfl
@[simp] theorem modCtx_ev (x : Nat) (f : SCtx → SCtx) : (s.modCtx x f).ev = s.ev := rfl
@[simp] theorem modCtx_boot (x : Nat) (f : SCtx → SCtx) : (s.modCtx x f).boot = s.boot := rfl
@[simp] theorem modCtx_free (x : Nat) (f : SCtx → SCtx) : (s.modCtx x f).free = s.free := rfl
@[simp] theorem modCtx_wordPoison (x : Nat) (f : SCtx → SCtx) : (s.modCtx x f).wordPoison = s.wordPoison := rfl
@[simp] theorem modCtx_coming (x : Nat) (f : SCtx → SCtx) : (s.modCtx x f).coming = s.coming := rfl
@[simp] theorem modCtx_xfers (x : Nat) (f : SCtx → SCtx) : (s.modCtx x f).xfers = s.xfers := rfl
@[simp] theorem modCtx_hist (x : Nat) (f : SCtx → SCtx) : (s.modCtx x f).hist = s.hist := rfl
@[simp] theorem modCtx_reads (x : Nat) (f : SCtx → SCtx) : (s.modCtx x f).reads = s.reads := rfl
@[simp] theorem modCtx_known (x : Nat) (f : SCtx → SCtx) : (s.modCtx x f).known = s.known := rfl
@[simp] theorem modCtx_arrivals (x : Nat) (f : SCtx → SCtx) : (s.modCtx x f).arrivals = s.arrivals := rfl
@[simp] theorem modCtx_lookBack (x : Nat) (f : SCtx → SCtx) : (s.modCtx x f).lookBack = s.lookBack := rfl
@[simp] theorem modCtx_up (x : Nat) (f : SCtx → SCtx) : (s.modCtx x f).up = s.up := rfl
@[simp] theorem modCtx_irqs (x : Nat) (f : SCtx → SCtx) : (s.modCtx x f).irqs = s.irqs := rfl
@[simp] theorem modCtx_hostSaw (x : Nat) (f : SCtx → SCtx) : (s.modCtx x f).hostSaw = s.hostSaw := rfl
@[simp] theorem modCtx_errs (x : Nat) (f : SCtx → SCtx) : (s.modCtx x f).errs = s.errs := rfl
@[simp] theorem modCtx_landings (x : Nat) (f : SCtx → SCtx) : (s.modCtx x f).landings = s.landings := rfl
@[simp] theorem modCtx_forks (x : Nat) (f : SCtx → SCtx) : (s.modCtx x f).forks = s.forks := rfl
@[simp] theorem modCtx_joins (x : Nat) (f : SCtx → SCtx) : (s.modCtx x f).joins = s.joins := rfl
@[simp] theorem modCtx_hostSeen (x : Nat) (f : SCtx → SCtx) : (s.modCtx x f).hostSeen = s.hostSeen := rfl
@[simp] theorem modCtx_actor (x : Nat) (f : SCtx → SCtx) : (s.modCtx x f).actor = s.actor := rfl

@[simp] theorem modOp_agenda (i : Nat) (f : Op → Op) : (s.modOp i f).agenda = s.agenda := rfl
@[simp] theorem modOp_cur (i : Nat) (f : Op → Op) : (s.modOp i f).cur = s.cur := rfl
@[simp] theorem modOp_dtime (i : Nat) (f : Op → Op) : (s.modOp i f).dtime = s.dtime := rfl
@[simp] theorem modOp_skew (i : Nat) (f : Op → Op) : (s.modOp i f).skew = s.skew := rfl
@[simp] theorem modOp_devid (i : Nat) (f : Op → Op) : (s.modOp i f).devid = s.devid := rfl
@[simp] theorem modOp_throttle (i : Nat) (f : Op → Op) : (s.modOp i f).throttle = s.throttle := rfl
@[simp] theorem modOp_clamp (i : Nat) (f : Op → Op) : (s.modOp i f).clamp = s.clamp := rfl
@[simp] theorem modOp_mem (i : Nat) (f : Op → Op) : (s.modOp i f).mem = s.mem := rfl
@[simp] theorem modOp_memPoison (i : Nat) (f : Op → Op) : (s.modOp i f).memPoison = s.memPoison := rfl
@[simp] theorem modOp_windows (i : Nat) (f : Op → Op) : (s.modOp i f).windows = s.windows := rfl
@[simp] theorem modOp_wlock (i : Nat) (f : Op → Op) : (s.modOp i f).wlock = s.wlock := rfl
@[simp] theorem modOp_roots (i : Nat) (f : Op → Op) : (s.modOp i f).roots = s.roots := rfl
@[simp] theorem modOp_xlat (i : Nat) (f : Op → Op) : (s.modOp i f).xlat = s.xlat := rfl
@[simp] theorem modOp_useOld (i : Nat) (f : Op → Op) : (s.modOp i f).useOld = s.useOld := rfl
@[simp] theorem modOp_crews (i : Nat) (f : Op → Op) : (s.modOp i f).crews = s.crews := rfl
@[simp] theorem modOp_ctxs (i : Nat) (f : Op → Op) : (s.modOp i f).ctxs = s.ctxs := rfl
@[simp] theorem modOp_forkQ (i : Nat) (f : Op → Op) : (s.modOp i f).forkQ = s.forkQ := rfl
@[simp] theorem modOp_cohorts (i : Nat) (f : Op → Op) : (s.modOp i f).cohorts = s.cohorts := rfl
@[simp] theorem modOp_steps (i : Nat) (f : Op → Op) : (s.modOp i f).steps = s.steps := rfl
@[simp] theorem modOp_heldUpds (i : Nat) (f : Op → Op) : (s.modOp i f).heldUpds = s.heldUpds := rfl
@[simp] theorem modOp_ops (i : Nat) (f : Op → Op) : (s.modOp i f).ops = s.ops.map (fun o => if o.id = i then f o else o) := rfl
@[simp] theorem modOp_withdrawn (i : Nat) (f : Op → Op) : (s.modOp i f).withdrawn = s.withdrawn := rfl
@[simp] theorem modOp_rels (i : Nat) (f : Op → Op) : (s.modOp i f).rels = s.rels := rfl
@[simp] theorem modOp_nextOp (i : Nat) (f : Op → Op) : (s.modOp i f).nextOp = s.nextOp := rfl
@[simp] theorem modOp_pgWaits (i : Nat) (f : Op → Op) : (s.modOp i f).pgWaits = s.pgWaits := rfl
@[simp] theorem modOp_dies (i : Nat) (f : Op → Op) : (s.modOp i f).dies = s.dies := rfl
@[simp] theorem modOp_queues (i : Nat) (f : Op → Op) : (s.modOp i f).queues = s.queues := rfl
@[simp] theorem modOp_jobs (i : Nat) (f : Op → Op) : (s.modOp i f).jobs = s.jobs := rfl
@[simp] theorem modOp_nextJob (i : Nat) (f : Op → Op) : (s.modOp i f).nextJob = s.nextJob := rfl
@[simp] theorem modOp_rings (i : Nat) (f : Op → Op) : (s.modOp i f).rings = s.rings := rfl
@[simp] theorem modOp_wins (i : Nat) (f : Op → Op) : (s.modOp i f).wins = s.wins := rfl
@[simp] theorem modOp_redgrps (i : Nat) (f : Op → Op) : (s.modOp i f).redgrps = s.redgrps := rfl
@[simp] theorem modOp_slots (i : Nat) (f : Op → Op) : (s.modOp i f).slots = s.slots := rfl
@[simp] theorem modOp_closed (i : Nat) (f : Op → Op) : (s.modOp i f).closed = s.closed := rfl
@[simp] theorem modOp_wire (i : Nat) (f : Op → Op) : (s.modOp i f).wire = s.wire := rfl
@[simp] theorem modOp_nextMsg (i : Nat) (f : Op → Op) : (s.modOp i f).nextMsg = s.nextMsg := rfl
@[simp] theorem modOp_saves (i : Nat) (f : Op → Op) : (s.modOp i f).saves = s.saves := rfl
@[simp] theorem modOp_msix (i : Nat) (f : Op → Op) : (s.modOp i f).msix = s.msix := rfl
@[simp] theorem modOp_ev (i : Nat) (f : Op → Op) : (s.modOp i f).ev = s.ev := rfl
@[simp] theorem modOp_boot (i : Nat) (f : Op → Op) : (s.modOp i f).boot = s.boot := rfl
@[simp] theorem modOp_free (i : Nat) (f : Op → Op) : (s.modOp i f).free = s.free := rfl
@[simp] theorem modOp_wordPoison (i : Nat) (f : Op → Op) : (s.modOp i f).wordPoison = s.wordPoison := rfl
@[simp] theorem modOp_coming (i : Nat) (f : Op → Op) : (s.modOp i f).coming = s.coming := rfl
@[simp] theorem modOp_xfers (i : Nat) (f : Op → Op) : (s.modOp i f).xfers = s.xfers := rfl
@[simp] theorem modOp_hist (i : Nat) (f : Op → Op) : (s.modOp i f).hist = s.hist := rfl
@[simp] theorem modOp_reads (i : Nat) (f : Op → Op) : (s.modOp i f).reads = s.reads := rfl
@[simp] theorem modOp_known (i : Nat) (f : Op → Op) : (s.modOp i f).known = s.known := rfl
@[simp] theorem modOp_arrivals (i : Nat) (f : Op → Op) : (s.modOp i f).arrivals = s.arrivals := rfl
@[simp] theorem modOp_lookBack (i : Nat) (f : Op → Op) : (s.modOp i f).lookBack = s.lookBack := rfl
@[simp] theorem modOp_up (i : Nat) (f : Op → Op) : (s.modOp i f).up = s.up := rfl
@[simp] theorem modOp_irqs (i : Nat) (f : Op → Op) : (s.modOp i f).irqs = s.irqs := rfl
@[simp] theorem modOp_hostSaw (i : Nat) (f : Op → Op) : (s.modOp i f).hostSaw = s.hostSaw := rfl
@[simp] theorem modOp_errs (i : Nat) (f : Op → Op) : (s.modOp i f).errs = s.errs := rfl
@[simp] theorem modOp_landings (i : Nat) (f : Op → Op) : (s.modOp i f).landings = s.landings := rfl
@[simp] theorem modOp_forks (i : Nat) (f : Op → Op) : (s.modOp i f).forks = s.forks := rfl
@[simp] theorem modOp_joins (i : Nat) (f : Op → Op) : (s.modOp i f).joins = s.joins := rfl
@[simp] theorem modOp_hostSeen (i : Nat) (f : Op → Op) : (s.modOp i f).hostSeen = s.hostSeen := rfl
@[simp] theorem modOp_actor (i : Nat) (f : Op → Op) : (s.modOp i f).actor = s.actor := rfl

@[simp] theorem addOp_agenda (o : Op) : (s.addOp o).agenda = s.agenda := by
  simp only [State.addOp, State.noteFork]; split <;> rfl
@[simp] theorem addOp_cur (o : Op) : (s.addOp o).cur = s.cur := by
  simp only [State.addOp, State.noteFork]; split <;> rfl
@[simp] theorem addOp_dtime (o : Op) : (s.addOp o).dtime = s.dtime := by
  simp only [State.addOp, State.noteFork]; split <;> rfl
@[simp] theorem addOp_skew (o : Op) : (s.addOp o).skew = s.skew := by
  simp only [State.addOp, State.noteFork]; split <;> rfl
@[simp] theorem addOp_devid (o : Op) : (s.addOp o).devid = s.devid := by
  simp only [State.addOp, State.noteFork]; split <;> rfl
@[simp] theorem addOp_throttle (o : Op) : (s.addOp o).throttle = s.throttle := by
  simp only [State.addOp, State.noteFork]; split <;> rfl
@[simp] theorem addOp_clamp (o : Op) : (s.addOp o).clamp = s.clamp := by
  simp only [State.addOp, State.noteFork]; split <;> rfl
@[simp] theorem addOp_mem (o : Op) : (s.addOp o).mem = s.mem := by
  simp only [State.addOp, State.noteFork]; split <;> rfl
@[simp] theorem addOp_memPoison (o : Op) : (s.addOp o).memPoison = s.memPoison := by
  simp only [State.addOp, State.noteFork]; split <;> rfl
@[simp] theorem addOp_windows (o : Op) : (s.addOp o).windows = s.windows := by
  simp only [State.addOp, State.noteFork]; split <;> rfl
@[simp] theorem addOp_wlock (o : Op) : (s.addOp o).wlock = s.wlock := by
  simp only [State.addOp, State.noteFork]; split <;> rfl
@[simp] theorem addOp_roots (o : Op) : (s.addOp o).roots = s.roots := by
  simp only [State.addOp, State.noteFork]; split <;> rfl
@[simp] theorem addOp_xlat (o : Op) : (s.addOp o).xlat = s.xlat := by
  simp only [State.addOp, State.noteFork]; split <;> rfl
@[simp] theorem addOp_useOld (o : Op) : (s.addOp o).useOld = s.useOld := by
  simp only [State.addOp, State.noteFork]; split <;> rfl
@[simp] theorem addOp_crews (o : Op) : (s.addOp o).crews = s.crews := by
  simp only [State.addOp, State.noteFork]; split <;> rfl
@[simp] theorem addOp_ctxs (o : Op) : (s.addOp o).ctxs = s.ctxs := by
  simp only [State.addOp, State.noteFork]; split <;> rfl
@[simp] theorem addOp_forkQ (o : Op) : (s.addOp o).forkQ = s.forkQ := by
  simp only [State.addOp, State.noteFork]; split <;> rfl
@[simp] theorem addOp_cohorts (o : Op) : (s.addOp o).cohorts = s.cohorts := by
  simp only [State.addOp, State.noteFork]; split <;> rfl
@[simp] theorem addOp_steps (o : Op) : (s.addOp o).steps = s.steps := by
  simp only [State.addOp, State.noteFork]; split <;> rfl
@[simp] theorem addOp_heldUpds (o : Op) : (s.addOp o).heldUpds = s.heldUpds := by
  simp only [State.addOp, State.noteFork]; split <;> rfl
@[simp] theorem addOp_ops (o : Op) : (s.addOp o).ops = s.ops ++ [o] := by
  simp only [State.addOp, State.noteFork]; split <;> rfl
@[simp] theorem addOp_withdrawn (o : Op) : (s.addOp o).withdrawn = s.withdrawn := by
  simp only [State.addOp, State.noteFork]; split <;> rfl
@[simp] theorem addOp_rels (o : Op) : (s.addOp o).rels = s.rels := by
  simp only [State.addOp, State.noteFork]; split <;> rfl
@[simp] theorem addOp_nextOp (o : Op) : (s.addOp o).nextOp = s.nextOp + 1 := by
  simp only [State.addOp, State.noteFork]; split <;> rfl
@[simp] theorem addOp_pgWaits (o : Op) : (s.addOp o).pgWaits = s.pgWaits := by
  simp only [State.addOp, State.noteFork]; split <;> rfl
@[simp] theorem addOp_dies (o : Op) : (s.addOp o).dies = s.dies := by
  simp only [State.addOp, State.noteFork]; split <;> rfl
@[simp] theorem addOp_queues (o : Op) : (s.addOp o).queues = s.queues := by
  simp only [State.addOp, State.noteFork]; split <;> rfl
@[simp] theorem addOp_jobs (o : Op) : (s.addOp o).jobs = s.jobs := by
  simp only [State.addOp, State.noteFork]; split <;> rfl
@[simp] theorem addOp_nextJob (o : Op) : (s.addOp o).nextJob = s.nextJob := by
  simp only [State.addOp, State.noteFork]; split <;> rfl
@[simp] theorem addOp_rings (o : Op) : (s.addOp o).rings = s.rings := by
  simp only [State.addOp, State.noteFork]; split <;> rfl
@[simp] theorem addOp_wins (o : Op) : (s.addOp o).wins = s.wins := by
  simp only [State.addOp, State.noteFork]; split <;> rfl
@[simp] theorem addOp_redgrps (o : Op) : (s.addOp o).redgrps = s.redgrps := by
  simp only [State.addOp, State.noteFork]; split <;> rfl
@[simp] theorem addOp_slots (o : Op) : (s.addOp o).slots = s.slots := by
  simp only [State.addOp, State.noteFork]; split <;> rfl
@[simp] theorem addOp_closed (o : Op) : (s.addOp o).closed = s.closed := by
  simp only [State.addOp, State.noteFork]; split <;> rfl
@[simp] theorem addOp_wire (o : Op) : (s.addOp o).wire = s.wire := by
  simp only [State.addOp, State.noteFork]; split <;> rfl
@[simp] theorem addOp_nextMsg (o : Op) : (s.addOp o).nextMsg = s.nextMsg := by
  simp only [State.addOp, State.noteFork]; split <;> rfl
@[simp] theorem addOp_saves (o : Op) : (s.addOp o).saves = s.saves := by
  simp only [State.addOp, State.noteFork]; split <;> rfl
@[simp] theorem addOp_msix (o : Op) : (s.addOp o).msix = s.msix := by
  simp only [State.addOp, State.noteFork]; split <;> rfl
@[simp] theorem addOp_ev (o : Op) : (s.addOp o).ev = s.ev := by
  simp only [State.addOp, State.noteFork]; split <;> rfl
@[simp] theorem addOp_boot (o : Op) : (s.addOp o).boot = s.boot := by
  simp only [State.addOp, State.noteFork]; split <;> rfl
@[simp] theorem addOp_free (o : Op) : (s.addOp o).free = s.free := by
  simp only [State.addOp, State.noteFork]; split <;> rfl
@[simp] theorem addOp_wordPoison (o : Op) : (s.addOp o).wordPoison = s.wordPoison := by
  simp only [State.addOp, State.noteFork]; split <;> rfl
@[simp] theorem addOp_coming (o : Op) : (s.addOp o).coming = s.coming := by
  simp only [State.addOp, State.noteFork]; split <;> rfl
@[simp] theorem addOp_xfers (o : Op) : (s.addOp o).xfers = s.xfers := by
  simp only [State.addOp, State.noteFork]; split <;> rfl
@[simp] theorem addOp_hist (o : Op) : (s.addOp o).hist = s.hist := by
  simp only [State.addOp, State.noteFork]; split <;> rfl
@[simp] theorem addOp_reads (o : Op) : (s.addOp o).reads = s.reads := by
  simp only [State.addOp, State.noteFork]; split <;> rfl
@[simp] theorem addOp_known (o : Op) : (s.addOp o).known = s.known := by
  simp only [State.addOp, State.noteFork]; split <;> rfl
@[simp] theorem addOp_arrivals (o : Op) : (s.addOp o).arrivals = s.arrivals := by
  simp only [State.addOp, State.noteFork]; split <;> rfl
@[simp] theorem addOp_lookBack (o : Op) : (s.addOp o).lookBack = s.lookBack := by
  simp only [State.addOp, State.noteFork]; split <;> rfl
@[simp] theorem addOp_up (o : Op) : (s.addOp o).up = s.up := by
  simp only [State.addOp, State.noteFork]; split <;> rfl
@[simp] theorem addOp_irqs (o : Op) : (s.addOp o).irqs = s.irqs := by
  simp only [State.addOp, State.noteFork]; split <;> rfl
@[simp] theorem addOp_hostSaw (o : Op) : (s.addOp o).hostSaw = s.hostSaw := by
  simp only [State.addOp, State.noteFork]; split <;> rfl
@[simp] theorem addOp_errs (o : Op) : (s.addOp o).errs = s.errs := by
  simp only [State.addOp, State.noteFork]; split <;> rfl
@[simp] theorem addOp_landings (o : Op) : (s.addOp o).landings = s.landings := by
  simp only [State.addOp, State.noteFork]; split <;> rfl
@[simp] theorem addOp_forks (o : Op) : (s.addOp o).forks = if o.eng.isSome then s.forks ++ [⟨o.id, o.who, o.lanes, o.crew⟩] else s.forks := by
  simp only [State.addOp, State.noteFork]; split <;> rfl
@[simp] theorem addOp_joins (o : Op) : (s.addOp o).joins = s.joins := by
  simp only [State.addOp, State.noteFork]; split <;> rfl
@[simp] theorem addOp_hostSeen (o : Op) : (s.addOp o).hostSeen = s.hostSeen := by
  simp only [State.addOp, State.noteFork]; split <;> rfl
@[simp] theorem addOp_actor (o : Op) : (s.addOp o).actor = s.actor := by
  simp only [State.addOp, State.noteFork]; split <;> rfl

@[simp] theorem modDie_agenda (d : Nat) (f : Die → Die) : (s.modDie d f).agenda = s.agenda := rfl
@[simp] theorem modDie_cur (d : Nat) (f : Die → Die) : (s.modDie d f).cur = s.cur := rfl
@[simp] theorem modDie_dtime (d : Nat) (f : Die → Die) : (s.modDie d f).dtime = s.dtime := rfl
@[simp] theorem modDie_skew (d : Nat) (f : Die → Die) : (s.modDie d f).skew = s.skew := rfl
@[simp] theorem modDie_devid (d : Nat) (f : Die → Die) : (s.modDie d f).devid = s.devid := rfl
@[simp] theorem modDie_throttle (d : Nat) (f : Die → Die) : (s.modDie d f).throttle = s.throttle := rfl
@[simp] theorem modDie_clamp (d : Nat) (f : Die → Die) : (s.modDie d f).clamp = s.clamp := rfl
@[simp] theorem modDie_mem (d : Nat) (f : Die → Die) : (s.modDie d f).mem = s.mem := rfl
@[simp] theorem modDie_memPoison (d : Nat) (f : Die → Die) : (s.modDie d f).memPoison = s.memPoison := rfl
@[simp] theorem modDie_windows (d : Nat) (f : Die → Die) : (s.modDie d f).windows = s.windows := rfl
@[simp] theorem modDie_wlock (d : Nat) (f : Die → Die) : (s.modDie d f).wlock = s.wlock := rfl
@[simp] theorem modDie_roots (d : Nat) (f : Die → Die) : (s.modDie d f).roots = s.roots := rfl
@[simp] theorem modDie_xlat (d : Nat) (f : Die → Die) : (s.modDie d f).xlat = s.xlat := rfl
@[simp] theorem modDie_useOld (d : Nat) (f : Die → Die) : (s.modDie d f).useOld = s.useOld := rfl
@[simp] theorem modDie_crews (d : Nat) (f : Die → Die) : (s.modDie d f).crews = s.crews := rfl
@[simp] theorem modDie_ctxs (d : Nat) (f : Die → Die) : (s.modDie d f).ctxs = s.ctxs := rfl
@[simp] theorem modDie_forkQ (d : Nat) (f : Die → Die) : (s.modDie d f).forkQ = s.forkQ := rfl
@[simp] theorem modDie_cohorts (d : Nat) (f : Die → Die) : (s.modDie d f).cohorts = s.cohorts := rfl
@[simp] theorem modDie_steps (d : Nat) (f : Die → Die) : (s.modDie d f).steps = s.steps := rfl
@[simp] theorem modDie_heldUpds (d : Nat) (f : Die → Die) : (s.modDie d f).heldUpds = s.heldUpds := rfl
@[simp] theorem modDie_ops (d : Nat) (f : Die → Die) : (s.modDie d f).ops = s.ops := rfl
@[simp] theorem modDie_withdrawn (d : Nat) (f : Die → Die) : (s.modDie d f).withdrawn = s.withdrawn := rfl
@[simp] theorem modDie_rels (d : Nat) (f : Die → Die) : (s.modDie d f).rels = s.rels := rfl
@[simp] theorem modDie_nextOp (d : Nat) (f : Die → Die) : (s.modDie d f).nextOp = s.nextOp := rfl
@[simp] theorem modDie_pgWaits (d : Nat) (f : Die → Die) : (s.modDie d f).pgWaits = s.pgWaits := rfl
@[simp] theorem modDie_dies (d : Nat) (f : Die → Die) : (s.modDie d f).dies = modAt s.dies d f := rfl
@[simp] theorem modDie_queues (d : Nat) (f : Die → Die) : (s.modDie d f).queues = s.queues := rfl
@[simp] theorem modDie_jobs (d : Nat) (f : Die → Die) : (s.modDie d f).jobs = s.jobs := rfl
@[simp] theorem modDie_nextJob (d : Nat) (f : Die → Die) : (s.modDie d f).nextJob = s.nextJob := rfl
@[simp] theorem modDie_rings (d : Nat) (f : Die → Die) : (s.modDie d f).rings = s.rings := rfl
@[simp] theorem modDie_wins (d : Nat) (f : Die → Die) : (s.modDie d f).wins = s.wins := rfl
@[simp] theorem modDie_redgrps (d : Nat) (f : Die → Die) : (s.modDie d f).redgrps = s.redgrps := rfl
@[simp] theorem modDie_slots (d : Nat) (f : Die → Die) : (s.modDie d f).slots = s.slots := rfl
@[simp] theorem modDie_closed (d : Nat) (f : Die → Die) : (s.modDie d f).closed = s.closed := rfl
@[simp] theorem modDie_wire (d : Nat) (f : Die → Die) : (s.modDie d f).wire = s.wire := rfl
@[simp] theorem modDie_nextMsg (d : Nat) (f : Die → Die) : (s.modDie d f).nextMsg = s.nextMsg := rfl
@[simp] theorem modDie_saves (d : Nat) (f : Die → Die) : (s.modDie d f).saves = s.saves := rfl
@[simp] theorem modDie_msix (d : Nat) (f : Die → Die) : (s.modDie d f).msix = s.msix := rfl
@[simp] theorem modDie_ev (d : Nat) (f : Die → Die) : (s.modDie d f).ev = s.ev := rfl
@[simp] theorem modDie_boot (d : Nat) (f : Die → Die) : (s.modDie d f).boot = s.boot := rfl
@[simp] theorem modDie_free (d : Nat) (f : Die → Die) : (s.modDie d f).free = s.free := rfl
@[simp] theorem modDie_wordPoison (d : Nat) (f : Die → Die) : (s.modDie d f).wordPoison = s.wordPoison := rfl
@[simp] theorem modDie_coming (d : Nat) (f : Die → Die) : (s.modDie d f).coming = s.coming := rfl
@[simp] theorem modDie_xfers (d : Nat) (f : Die → Die) : (s.modDie d f).xfers = s.xfers := rfl
@[simp] theorem modDie_hist (d : Nat) (f : Die → Die) : (s.modDie d f).hist = s.hist := rfl
@[simp] theorem modDie_reads (d : Nat) (f : Die → Die) : (s.modDie d f).reads = s.reads := rfl
@[simp] theorem modDie_known (d : Nat) (f : Die → Die) : (s.modDie d f).known = s.known := rfl
@[simp] theorem modDie_arrivals (d : Nat) (f : Die → Die) : (s.modDie d f).arrivals = s.arrivals := rfl
@[simp] theorem modDie_lookBack (d : Nat) (f : Die → Die) : (s.modDie d f).lookBack = s.lookBack := rfl
@[simp] theorem modDie_up (d : Nat) (f : Die → Die) : (s.modDie d f).up = s.up := rfl
@[simp] theorem modDie_irqs (d : Nat) (f : Die → Die) : (s.modDie d f).irqs = s.irqs := rfl
@[simp] theorem modDie_hostSaw (d : Nat) (f : Die → Die) : (s.modDie d f).hostSaw = s.hostSaw := rfl
@[simp] theorem modDie_errs (d : Nat) (f : Die → Die) : (s.modDie d f).errs = s.errs := rfl
@[simp] theorem modDie_landings (d : Nat) (f : Die → Die) : (s.modDie d f).landings = s.landings := rfl
@[simp] theorem modDie_forks (d : Nat) (f : Die → Die) : (s.modDie d f).forks = s.forks := rfl
@[simp] theorem modDie_joins (d : Nat) (f : Die → Die) : (s.modDie d f).joins = s.joins := rfl
@[simp] theorem modDie_hostSeen (d : Nat) (f : Die → Die) : (s.modDie d f).hostSeen = s.hostSeen := rfl
@[simp] theorem modDie_actor (d : Nat) (f : Die → Die) : (s.modDie d f).actor = s.actor := rfl

@[simp] theorem modSched_agenda (d : Nat) (f : Sched → Sched) : (s.modSched d f).agenda = s.agenda := rfl
@[simp] theorem modSched_cur (d : Nat) (f : Sched → Sched) : (s.modSched d f).cur = s.cur := rfl
@[simp] theorem modSched_dtime (d : Nat) (f : Sched → Sched) : (s.modSched d f).dtime = s.dtime := rfl
@[simp] theorem modSched_skew (d : Nat) (f : Sched → Sched) : (s.modSched d f).skew = s.skew := rfl
@[simp] theorem modSched_devid (d : Nat) (f : Sched → Sched) : (s.modSched d f).devid = s.devid := rfl
@[simp] theorem modSched_throttle (d : Nat) (f : Sched → Sched) : (s.modSched d f).throttle = s.throttle := rfl
@[simp] theorem modSched_clamp (d : Nat) (f : Sched → Sched) : (s.modSched d f).clamp = s.clamp := rfl
@[simp] theorem modSched_mem (d : Nat) (f : Sched → Sched) : (s.modSched d f).mem = s.mem := rfl
@[simp] theorem modSched_memPoison (d : Nat) (f : Sched → Sched) : (s.modSched d f).memPoison = s.memPoison := rfl
@[simp] theorem modSched_windows (d : Nat) (f : Sched → Sched) : (s.modSched d f).windows = s.windows := rfl
@[simp] theorem modSched_wlock (d : Nat) (f : Sched → Sched) : (s.modSched d f).wlock = s.wlock := rfl
@[simp] theorem modSched_roots (d : Nat) (f : Sched → Sched) : (s.modSched d f).roots = s.roots := rfl
@[simp] theorem modSched_xlat (d : Nat) (f : Sched → Sched) : (s.modSched d f).xlat = s.xlat := rfl
@[simp] theorem modSched_useOld (d : Nat) (f : Sched → Sched) : (s.modSched d f).useOld = s.useOld := rfl
@[simp] theorem modSched_crews (d : Nat) (f : Sched → Sched) : (s.modSched d f).crews = s.crews := rfl
@[simp] theorem modSched_ctxs (d : Nat) (f : Sched → Sched) : (s.modSched d f).ctxs = s.ctxs := rfl
@[simp] theorem modSched_forkQ (d : Nat) (f : Sched → Sched) : (s.modSched d f).forkQ = s.forkQ := rfl
@[simp] theorem modSched_cohorts (d : Nat) (f : Sched → Sched) : (s.modSched d f).cohorts = s.cohorts := rfl
@[simp] theorem modSched_steps (d : Nat) (f : Sched → Sched) : (s.modSched d f).steps = s.steps := rfl
@[simp] theorem modSched_heldUpds (d : Nat) (f : Sched → Sched) : (s.modSched d f).heldUpds = s.heldUpds := rfl
@[simp] theorem modSched_ops (d : Nat) (f : Sched → Sched) : (s.modSched d f).ops = s.ops := rfl
@[simp] theorem modSched_withdrawn (d : Nat) (f : Sched → Sched) : (s.modSched d f).withdrawn = s.withdrawn := rfl
@[simp] theorem modSched_rels (d : Nat) (f : Sched → Sched) : (s.modSched d f).rels = s.rels := rfl
@[simp] theorem modSched_nextOp (d : Nat) (f : Sched → Sched) : (s.modSched d f).nextOp = s.nextOp := rfl
@[simp] theorem modSched_pgWaits (d : Nat) (f : Sched → Sched) : (s.modSched d f).pgWaits = s.pgWaits := rfl
@[simp] theorem modSched_queues (d : Nat) (f : Sched → Sched) : (s.modSched d f).queues = s.queues := rfl
@[simp] theorem modSched_jobs (d : Nat) (f : Sched → Sched) : (s.modSched d f).jobs = s.jobs := rfl
@[simp] theorem modSched_nextJob (d : Nat) (f : Sched → Sched) : (s.modSched d f).nextJob = s.nextJob := rfl
@[simp] theorem modSched_rings (d : Nat) (f : Sched → Sched) : (s.modSched d f).rings = s.rings := rfl
@[simp] theorem modSched_wins (d : Nat) (f : Sched → Sched) : (s.modSched d f).wins = s.wins := rfl
@[simp] theorem modSched_redgrps (d : Nat) (f : Sched → Sched) : (s.modSched d f).redgrps = s.redgrps := rfl
@[simp] theorem modSched_slots (d : Nat) (f : Sched → Sched) : (s.modSched d f).slots = s.slots := rfl
@[simp] theorem modSched_closed (d : Nat) (f : Sched → Sched) : (s.modSched d f).closed = s.closed := rfl
@[simp] theorem modSched_wire (d : Nat) (f : Sched → Sched) : (s.modSched d f).wire = s.wire := rfl
@[simp] theorem modSched_nextMsg (d : Nat) (f : Sched → Sched) : (s.modSched d f).nextMsg = s.nextMsg := rfl
@[simp] theorem modSched_saves (d : Nat) (f : Sched → Sched) : (s.modSched d f).saves = s.saves := rfl
@[simp] theorem modSched_msix (d : Nat) (f : Sched → Sched) : (s.modSched d f).msix = s.msix := rfl
@[simp] theorem modSched_ev (d : Nat) (f : Sched → Sched) : (s.modSched d f).ev = s.ev := rfl
@[simp] theorem modSched_boot (d : Nat) (f : Sched → Sched) : (s.modSched d f).boot = s.boot := rfl
@[simp] theorem modSched_free (d : Nat) (f : Sched → Sched) : (s.modSched d f).free = s.free := rfl
@[simp] theorem modSched_wordPoison (d : Nat) (f : Sched → Sched) : (s.modSched d f).wordPoison = s.wordPoison := rfl
@[simp] theorem modSched_coming (d : Nat) (f : Sched → Sched) : (s.modSched d f).coming = s.coming := rfl
@[simp] theorem modSched_xfers (d : Nat) (f : Sched → Sched) : (s.modSched d f).xfers = s.xfers := rfl
@[simp] theorem modSched_hist (d : Nat) (f : Sched → Sched) : (s.modSched d f).hist = s.hist := rfl
@[simp] theorem modSched_reads (d : Nat) (f : Sched → Sched) : (s.modSched d f).reads = s.reads := rfl
@[simp] theorem modSched_known (d : Nat) (f : Sched → Sched) : (s.modSched d f).known = s.known := rfl
@[simp] theorem modSched_arrivals (d : Nat) (f : Sched → Sched) : (s.modSched d f).arrivals = s.arrivals := rfl
@[simp] theorem modSched_lookBack (d : Nat) (f : Sched → Sched) : (s.modSched d f).lookBack = s.lookBack := rfl
@[simp] theorem modSched_up (d : Nat) (f : Sched → Sched) : (s.modSched d f).up = s.up := rfl
@[simp] theorem modSched_irqs (d : Nat) (f : Sched → Sched) : (s.modSched d f).irqs = s.irqs := rfl
@[simp] theorem modSched_hostSaw (d : Nat) (f : Sched → Sched) : (s.modSched d f).hostSaw = s.hostSaw := rfl
@[simp] theorem modSched_errs (d : Nat) (f : Sched → Sched) : (s.modSched d f).errs = s.errs := rfl
@[simp] theorem modSched_landings (d : Nat) (f : Sched → Sched) : (s.modSched d f).landings = s.landings := rfl
@[simp] theorem modSched_forks (d : Nat) (f : Sched → Sched) : (s.modSched d f).forks = s.forks := rfl
@[simp] theorem modSched_joins (d : Nat) (f : Sched → Sched) : (s.modSched d f).joins = s.joins := rfl
@[simp] theorem modSched_hostSeen (d : Nat) (f : Sched → Sched) : (s.modSched d f).hostSeen = s.hostSeen := rfl
@[simp] theorem modSched_actor (d : Nat) (f : Sched → Sched) : (s.modSched d f).actor = s.actor := rfl

@[simp] theorem modIris_agenda (d : Nat) (f : Iris → Iris) : (s.modIris d f).agenda = s.agenda := rfl
@[simp] theorem modIris_cur (d : Nat) (f : Iris → Iris) : (s.modIris d f).cur = s.cur := rfl
@[simp] theorem modIris_dtime (d : Nat) (f : Iris → Iris) : (s.modIris d f).dtime = s.dtime := rfl
@[simp] theorem modIris_skew (d : Nat) (f : Iris → Iris) : (s.modIris d f).skew = s.skew := rfl
@[simp] theorem modIris_devid (d : Nat) (f : Iris → Iris) : (s.modIris d f).devid = s.devid := rfl
@[simp] theorem modIris_throttle (d : Nat) (f : Iris → Iris) : (s.modIris d f).throttle = s.throttle := rfl
@[simp] theorem modIris_clamp (d : Nat) (f : Iris → Iris) : (s.modIris d f).clamp = s.clamp := rfl
@[simp] theorem modIris_mem (d : Nat) (f : Iris → Iris) : (s.modIris d f).mem = s.mem := rfl
@[simp] theorem modIris_memPoison (d : Nat) (f : Iris → Iris) : (s.modIris d f).memPoison = s.memPoison := rfl
@[simp] theorem modIris_windows (d : Nat) (f : Iris → Iris) : (s.modIris d f).windows = s.windows := rfl
@[simp] theorem modIris_wlock (d : Nat) (f : Iris → Iris) : (s.modIris d f).wlock = s.wlock := rfl
@[simp] theorem modIris_roots (d : Nat) (f : Iris → Iris) : (s.modIris d f).roots = s.roots := rfl
@[simp] theorem modIris_xlat (d : Nat) (f : Iris → Iris) : (s.modIris d f).xlat = s.xlat := rfl
@[simp] theorem modIris_useOld (d : Nat) (f : Iris → Iris) : (s.modIris d f).useOld = s.useOld := rfl
@[simp] theorem modIris_crews (d : Nat) (f : Iris → Iris) : (s.modIris d f).crews = s.crews := rfl
@[simp] theorem modIris_ctxs (d : Nat) (f : Iris → Iris) : (s.modIris d f).ctxs = s.ctxs := rfl
@[simp] theorem modIris_forkQ (d : Nat) (f : Iris → Iris) : (s.modIris d f).forkQ = s.forkQ := rfl
@[simp] theorem modIris_cohorts (d : Nat) (f : Iris → Iris) : (s.modIris d f).cohorts = s.cohorts := rfl
@[simp] theorem modIris_steps (d : Nat) (f : Iris → Iris) : (s.modIris d f).steps = s.steps := rfl
@[simp] theorem modIris_heldUpds (d : Nat) (f : Iris → Iris) : (s.modIris d f).heldUpds = s.heldUpds := rfl
@[simp] theorem modIris_ops (d : Nat) (f : Iris → Iris) : (s.modIris d f).ops = s.ops := rfl
@[simp] theorem modIris_withdrawn (d : Nat) (f : Iris → Iris) : (s.modIris d f).withdrawn = s.withdrawn := rfl
@[simp] theorem modIris_rels (d : Nat) (f : Iris → Iris) : (s.modIris d f).rels = s.rels := rfl
@[simp] theorem modIris_nextOp (d : Nat) (f : Iris → Iris) : (s.modIris d f).nextOp = s.nextOp := rfl
@[simp] theorem modIris_pgWaits (d : Nat) (f : Iris → Iris) : (s.modIris d f).pgWaits = s.pgWaits := rfl
@[simp] theorem modIris_queues (d : Nat) (f : Iris → Iris) : (s.modIris d f).queues = s.queues := rfl
@[simp] theorem modIris_jobs (d : Nat) (f : Iris → Iris) : (s.modIris d f).jobs = s.jobs := rfl
@[simp] theorem modIris_nextJob (d : Nat) (f : Iris → Iris) : (s.modIris d f).nextJob = s.nextJob := rfl
@[simp] theorem modIris_rings (d : Nat) (f : Iris → Iris) : (s.modIris d f).rings = s.rings := rfl
@[simp] theorem modIris_wins (d : Nat) (f : Iris → Iris) : (s.modIris d f).wins = s.wins := rfl
@[simp] theorem modIris_redgrps (d : Nat) (f : Iris → Iris) : (s.modIris d f).redgrps = s.redgrps := rfl
@[simp] theorem modIris_slots (d : Nat) (f : Iris → Iris) : (s.modIris d f).slots = s.slots := rfl
@[simp] theorem modIris_closed (d : Nat) (f : Iris → Iris) : (s.modIris d f).closed = s.closed := rfl
@[simp] theorem modIris_wire (d : Nat) (f : Iris → Iris) : (s.modIris d f).wire = s.wire := rfl
@[simp] theorem modIris_nextMsg (d : Nat) (f : Iris → Iris) : (s.modIris d f).nextMsg = s.nextMsg := rfl
@[simp] theorem modIris_saves (d : Nat) (f : Iris → Iris) : (s.modIris d f).saves = s.saves := rfl
@[simp] theorem modIris_msix (d : Nat) (f : Iris → Iris) : (s.modIris d f).msix = s.msix := rfl
@[simp] theorem modIris_ev (d : Nat) (f : Iris → Iris) : (s.modIris d f).ev = s.ev := rfl
@[simp] theorem modIris_boot (d : Nat) (f : Iris → Iris) : (s.modIris d f).boot = s.boot := rfl
@[simp] theorem modIris_free (d : Nat) (f : Iris → Iris) : (s.modIris d f).free = s.free := rfl
@[simp] theorem modIris_wordPoison (d : Nat) (f : Iris → Iris) : (s.modIris d f).wordPoison = s.wordPoison := rfl
@[simp] theorem modIris_coming (d : Nat) (f : Iris → Iris) : (s.modIris d f).coming = s.coming := rfl
@[simp] theorem modIris_xfers (d : Nat) (f : Iris → Iris) : (s.modIris d f).xfers = s.xfers := rfl
@[simp] theorem modIris_hist (d : Nat) (f : Iris → Iris) : (s.modIris d f).hist = s.hist := rfl
@[simp] theorem modIris_reads (d : Nat) (f : Iris → Iris) : (s.modIris d f).reads = s.reads := rfl
@[simp] theorem modIris_known (d : Nat) (f : Iris → Iris) : (s.modIris d f).known = s.known := rfl
@[simp] theorem modIris_arrivals (d : Nat) (f : Iris → Iris) : (s.modIris d f).arrivals = s.arrivals := rfl
@[simp] theorem modIris_lookBack (d : Nat) (f : Iris → Iris) : (s.modIris d f).lookBack = s.lookBack := rfl
@[simp] theorem modIris_up (d : Nat) (f : Iris → Iris) : (s.modIris d f).up = s.up := rfl
@[simp] theorem modIris_irqs (d : Nat) (f : Iris → Iris) : (s.modIris d f).irqs = s.irqs := rfl
@[simp] theorem modIris_hostSaw (d : Nat) (f : Iris → Iris) : (s.modIris d f).hostSaw = s.hostSaw := rfl
@[simp] theorem modIris_errs (d : Nat) (f : Iris → Iris) : (s.modIris d f).errs = s.errs := rfl
@[simp] theorem modIris_landings (d : Nat) (f : Iris → Iris) : (s.modIris d f).landings = s.landings := rfl
@[simp] theorem modIris_forks (d : Nat) (f : Iris → Iris) : (s.modIris d f).forks = s.forks := rfl
@[simp] theorem modIris_joins (d : Nat) (f : Iris → Iris) : (s.modIris d f).joins = s.joins := rfl
@[simp] theorem modIris_hostSeen (d : Nat) (f : Iris → Iris) : (s.modIris d f).hostSeen = s.hostSeen := rfl
@[simp] theorem modIris_actor (d : Nat) (f : Iris → Iris) : (s.modIris d f).actor = s.actor := rfl

@[simp] theorem modQueue_agenda (q : Nat) (f : Queue → Queue) : (s.modQueue q f).agenda = s.agenda := rfl
@[simp] theorem modQueue_cur (q : Nat) (f : Queue → Queue) : (s.modQueue q f).cur = s.cur := rfl
@[simp] theorem modQueue_dtime (q : Nat) (f : Queue → Queue) : (s.modQueue q f).dtime = s.dtime := rfl
@[simp] theorem modQueue_skew (q : Nat) (f : Queue → Queue) : (s.modQueue q f).skew = s.skew := rfl
@[simp] theorem modQueue_devid (q : Nat) (f : Queue → Queue) : (s.modQueue q f).devid = s.devid := rfl
@[simp] theorem modQueue_throttle (q : Nat) (f : Queue → Queue) : (s.modQueue q f).throttle = s.throttle := rfl
@[simp] theorem modQueue_clamp (q : Nat) (f : Queue → Queue) : (s.modQueue q f).clamp = s.clamp := rfl
@[simp] theorem modQueue_mem (q : Nat) (f : Queue → Queue) : (s.modQueue q f).mem = s.mem := rfl
@[simp] theorem modQueue_memPoison (q : Nat) (f : Queue → Queue) : (s.modQueue q f).memPoison = s.memPoison := rfl
@[simp] theorem modQueue_windows (q : Nat) (f : Queue → Queue) : (s.modQueue q f).windows = s.windows := rfl
@[simp] theorem modQueue_wlock (q : Nat) (f : Queue → Queue) : (s.modQueue q f).wlock = s.wlock := rfl
@[simp] theorem modQueue_roots (q : Nat) (f : Queue → Queue) : (s.modQueue q f).roots = s.roots := rfl
@[simp] theorem modQueue_xlat (q : Nat) (f : Queue → Queue) : (s.modQueue q f).xlat = s.xlat := rfl
@[simp] theorem modQueue_useOld (q : Nat) (f : Queue → Queue) : (s.modQueue q f).useOld = s.useOld := rfl
@[simp] theorem modQueue_crews (q : Nat) (f : Queue → Queue) : (s.modQueue q f).crews = s.crews := rfl
@[simp] theorem modQueue_ctxs (q : Nat) (f : Queue → Queue) : (s.modQueue q f).ctxs = s.ctxs := rfl
@[simp] theorem modQueue_forkQ (q : Nat) (f : Queue → Queue) : (s.modQueue q f).forkQ = s.forkQ := rfl
@[simp] theorem modQueue_cohorts (q : Nat) (f : Queue → Queue) : (s.modQueue q f).cohorts = s.cohorts := rfl
@[simp] theorem modQueue_steps (q : Nat) (f : Queue → Queue) : (s.modQueue q f).steps = s.steps := rfl
@[simp] theorem modQueue_heldUpds (q : Nat) (f : Queue → Queue) : (s.modQueue q f).heldUpds = s.heldUpds := rfl
@[simp] theorem modQueue_ops (q : Nat) (f : Queue → Queue) : (s.modQueue q f).ops = s.ops := rfl
@[simp] theorem modQueue_withdrawn (q : Nat) (f : Queue → Queue) : (s.modQueue q f).withdrawn = s.withdrawn := rfl
@[simp] theorem modQueue_rels (q : Nat) (f : Queue → Queue) : (s.modQueue q f).rels = s.rels := rfl
@[simp] theorem modQueue_nextOp (q : Nat) (f : Queue → Queue) : (s.modQueue q f).nextOp = s.nextOp := rfl
@[simp] theorem modQueue_pgWaits (q : Nat) (f : Queue → Queue) : (s.modQueue q f).pgWaits = s.pgWaits := rfl
@[simp] theorem modQueue_dies (q : Nat) (f : Queue → Queue) : (s.modQueue q f).dies = s.dies := rfl
@[simp] theorem modQueue_jobs (q : Nat) (f : Queue → Queue) : (s.modQueue q f).jobs = s.jobs := rfl
@[simp] theorem modQueue_nextJob (q : Nat) (f : Queue → Queue) : (s.modQueue q f).nextJob = s.nextJob := rfl
@[simp] theorem modQueue_rings (q : Nat) (f : Queue → Queue) : (s.modQueue q f).rings = s.rings := rfl
@[simp] theorem modQueue_wins (q : Nat) (f : Queue → Queue) : (s.modQueue q f).wins = s.wins := rfl
@[simp] theorem modQueue_redgrps (q : Nat) (f : Queue → Queue) : (s.modQueue q f).redgrps = s.redgrps := rfl
@[simp] theorem modQueue_slots (q : Nat) (f : Queue → Queue) : (s.modQueue q f).slots = s.slots := rfl
@[simp] theorem modQueue_closed (q : Nat) (f : Queue → Queue) : (s.modQueue q f).closed = s.closed := rfl
@[simp] theorem modQueue_wire (q : Nat) (f : Queue → Queue) : (s.modQueue q f).wire = s.wire := rfl
@[simp] theorem modQueue_nextMsg (q : Nat) (f : Queue → Queue) : (s.modQueue q f).nextMsg = s.nextMsg := rfl
@[simp] theorem modQueue_saves (q : Nat) (f : Queue → Queue) : (s.modQueue q f).saves = s.saves := rfl
@[simp] theorem modQueue_msix (q : Nat) (f : Queue → Queue) : (s.modQueue q f).msix = s.msix := rfl
@[simp] theorem modQueue_ev (q : Nat) (f : Queue → Queue) : (s.modQueue q f).ev = s.ev := rfl
@[simp] theorem modQueue_boot (q : Nat) (f : Queue → Queue) : (s.modQueue q f).boot = s.boot := rfl
@[simp] theorem modQueue_free (q : Nat) (f : Queue → Queue) : (s.modQueue q f).free = s.free := rfl
@[simp] theorem modQueue_wordPoison (q : Nat) (f : Queue → Queue) : (s.modQueue q f).wordPoison = s.wordPoison := rfl
@[simp] theorem modQueue_coming (q : Nat) (f : Queue → Queue) : (s.modQueue q f).coming = s.coming := rfl
@[simp] theorem modQueue_xfers (q : Nat) (f : Queue → Queue) : (s.modQueue q f).xfers = s.xfers := rfl
@[simp] theorem modQueue_hist (q : Nat) (f : Queue → Queue) : (s.modQueue q f).hist = s.hist := rfl
@[simp] theorem modQueue_reads (q : Nat) (f : Queue → Queue) : (s.modQueue q f).reads = s.reads := rfl
@[simp] theorem modQueue_known (q : Nat) (f : Queue → Queue) : (s.modQueue q f).known = s.known := rfl
@[simp] theorem modQueue_arrivals (q : Nat) (f : Queue → Queue) : (s.modQueue q f).arrivals = s.arrivals := rfl
@[simp] theorem modQueue_lookBack (q : Nat) (f : Queue → Queue) : (s.modQueue q f).lookBack = s.lookBack := rfl
@[simp] theorem modQueue_up (q : Nat) (f : Queue → Queue) : (s.modQueue q f).up = s.up := rfl
@[simp] theorem modQueue_irqs (q : Nat) (f : Queue → Queue) : (s.modQueue q f).irqs = s.irqs := rfl
@[simp] theorem modQueue_hostSaw (q : Nat) (f : Queue → Queue) : (s.modQueue q f).hostSaw = s.hostSaw := rfl
@[simp] theorem modQueue_errs (q : Nat) (f : Queue → Queue) : (s.modQueue q f).errs = s.errs := rfl
@[simp] theorem modQueue_landings (q : Nat) (f : Queue → Queue) : (s.modQueue q f).landings = s.landings := rfl
@[simp] theorem modQueue_forks (q : Nat) (f : Queue → Queue) : (s.modQueue q f).forks = s.forks := rfl
@[simp] theorem modQueue_joins (q : Nat) (f : Queue → Queue) : (s.modQueue q f).joins = s.joins := rfl
@[simp] theorem modQueue_hostSeen (q : Nat) (f : Queue → Queue) : (s.modQueue q f).hostSeen = s.hostSeen := rfl
@[simp] theorem modQueue_actor (q : Nat) (f : Queue → Queue) : (s.modQueue q f).actor = s.actor := rfl

@[simp] theorem modJob_agenda (i : Nat) (f : Job → Job) : (s.modJob i f).agenda = s.agenda := rfl
@[simp] theorem modJob_cur (i : Nat) (f : Job → Job) : (s.modJob i f).cur = s.cur := rfl
@[simp] theorem modJob_dtime (i : Nat) (f : Job → Job) : (s.modJob i f).dtime = s.dtime := rfl
@[simp] theorem modJob_skew (i : Nat) (f : Job → Job) : (s.modJob i f).skew = s.skew := rfl
@[simp] theorem modJob_devid (i : Nat) (f : Job → Job) : (s.modJob i f).devid = s.devid := rfl
@[simp] theorem modJob_throttle (i : Nat) (f : Job → Job) : (s.modJob i f).throttle = s.throttle := rfl
@[simp] theorem modJob_clamp (i : Nat) (f : Job → Job) : (s.modJob i f).clamp = s.clamp := rfl
@[simp] theorem modJob_mem (i : Nat) (f : Job → Job) : (s.modJob i f).mem = s.mem := rfl
@[simp] theorem modJob_memPoison (i : Nat) (f : Job → Job) : (s.modJob i f).memPoison = s.memPoison := rfl
@[simp] theorem modJob_windows (i : Nat) (f : Job → Job) : (s.modJob i f).windows = s.windows := rfl
@[simp] theorem modJob_wlock (i : Nat) (f : Job → Job) : (s.modJob i f).wlock = s.wlock := rfl
@[simp] theorem modJob_roots (i : Nat) (f : Job → Job) : (s.modJob i f).roots = s.roots := rfl
@[simp] theorem modJob_xlat (i : Nat) (f : Job → Job) : (s.modJob i f).xlat = s.xlat := rfl
@[simp] theorem modJob_useOld (i : Nat) (f : Job → Job) : (s.modJob i f).useOld = s.useOld := rfl
@[simp] theorem modJob_crews (i : Nat) (f : Job → Job) : (s.modJob i f).crews = s.crews := rfl
@[simp] theorem modJob_ctxs (i : Nat) (f : Job → Job) : (s.modJob i f).ctxs = s.ctxs := rfl
@[simp] theorem modJob_forkQ (i : Nat) (f : Job → Job) : (s.modJob i f).forkQ = s.forkQ := rfl
@[simp] theorem modJob_cohorts (i : Nat) (f : Job → Job) : (s.modJob i f).cohorts = s.cohorts := rfl
@[simp] theorem modJob_steps (i : Nat) (f : Job → Job) : (s.modJob i f).steps = s.steps := rfl
@[simp] theorem modJob_heldUpds (i : Nat) (f : Job → Job) : (s.modJob i f).heldUpds = s.heldUpds := rfl
@[simp] theorem modJob_ops (i : Nat) (f : Job → Job) : (s.modJob i f).ops = s.ops := rfl
@[simp] theorem modJob_withdrawn (i : Nat) (f : Job → Job) : (s.modJob i f).withdrawn = s.withdrawn := rfl
@[simp] theorem modJob_rels (i : Nat) (f : Job → Job) : (s.modJob i f).rels = s.rels := rfl
@[simp] theorem modJob_nextOp (i : Nat) (f : Job → Job) : (s.modJob i f).nextOp = s.nextOp := rfl
@[simp] theorem modJob_pgWaits (i : Nat) (f : Job → Job) : (s.modJob i f).pgWaits = s.pgWaits := rfl
@[simp] theorem modJob_dies (i : Nat) (f : Job → Job) : (s.modJob i f).dies = s.dies := rfl
@[simp] theorem modJob_queues (i : Nat) (f : Job → Job) : (s.modJob i f).queues = s.queues := rfl
@[simp] theorem modJob_jobs (i : Nat) (f : Job → Job) : (s.modJob i f).jobs = s.jobs.map (fun j => if j.id = i then f j else j) := rfl
@[simp] theorem modJob_nextJob (i : Nat) (f : Job → Job) : (s.modJob i f).nextJob = s.nextJob := rfl
@[simp] theorem modJob_rings (i : Nat) (f : Job → Job) : (s.modJob i f).rings = s.rings := rfl
@[simp] theorem modJob_wins (i : Nat) (f : Job → Job) : (s.modJob i f).wins = s.wins := rfl
@[simp] theorem modJob_redgrps (i : Nat) (f : Job → Job) : (s.modJob i f).redgrps = s.redgrps := rfl
@[simp] theorem modJob_slots (i : Nat) (f : Job → Job) : (s.modJob i f).slots = s.slots := rfl
@[simp] theorem modJob_closed (i : Nat) (f : Job → Job) : (s.modJob i f).closed = s.closed := rfl
@[simp] theorem modJob_wire (i : Nat) (f : Job → Job) : (s.modJob i f).wire = s.wire := rfl
@[simp] theorem modJob_nextMsg (i : Nat) (f : Job → Job) : (s.modJob i f).nextMsg = s.nextMsg := rfl
@[simp] theorem modJob_saves (i : Nat) (f : Job → Job) : (s.modJob i f).saves = s.saves := rfl
@[simp] theorem modJob_msix (i : Nat) (f : Job → Job) : (s.modJob i f).msix = s.msix := rfl
@[simp] theorem modJob_ev (i : Nat) (f : Job → Job) : (s.modJob i f).ev = s.ev := rfl
@[simp] theorem modJob_boot (i : Nat) (f : Job → Job) : (s.modJob i f).boot = s.boot := rfl
@[simp] theorem modJob_free (i : Nat) (f : Job → Job) : (s.modJob i f).free = s.free := rfl
@[simp] theorem modJob_wordPoison (i : Nat) (f : Job → Job) : (s.modJob i f).wordPoison = s.wordPoison := rfl
@[simp] theorem modJob_coming (i : Nat) (f : Job → Job) : (s.modJob i f).coming = s.coming := rfl
@[simp] theorem modJob_xfers (i : Nat) (f : Job → Job) : (s.modJob i f).xfers = s.xfers := rfl
@[simp] theorem modJob_hist (i : Nat) (f : Job → Job) : (s.modJob i f).hist = s.hist := rfl
@[simp] theorem modJob_reads (i : Nat) (f : Job → Job) : (s.modJob i f).reads = s.reads := rfl
@[simp] theorem modJob_known (i : Nat) (f : Job → Job) : (s.modJob i f).known = s.known := rfl
@[simp] theorem modJob_arrivals (i : Nat) (f : Job → Job) : (s.modJob i f).arrivals = s.arrivals := rfl
@[simp] theorem modJob_lookBack (i : Nat) (f : Job → Job) : (s.modJob i f).lookBack = s.lookBack := rfl
@[simp] theorem modJob_up (i : Nat) (f : Job → Job) : (s.modJob i f).up = s.up := rfl
@[simp] theorem modJob_irqs (i : Nat) (f : Job → Job) : (s.modJob i f).irqs = s.irqs := rfl
@[simp] theorem modJob_hostSaw (i : Nat) (f : Job → Job) : (s.modJob i f).hostSaw = s.hostSaw := rfl
@[simp] theorem modJob_errs (i : Nat) (f : Job → Job) : (s.modJob i f).errs = s.errs := rfl
@[simp] theorem modJob_landings (i : Nat) (f : Job → Job) : (s.modJob i f).landings = s.landings := rfl
@[simp] theorem modJob_forks (i : Nat) (f : Job → Job) : (s.modJob i f).forks = s.forks := rfl
@[simp] theorem modJob_joins (i : Nat) (f : Job → Job) : (s.modJob i f).joins = s.joins := rfl
@[simp] theorem modJob_hostSeen (i : Nat) (f : Job → Job) : (s.modJob i f).hostSeen = s.hostSeen := rfl
@[simp] theorem modJob_actor (i : Nat) (f : Job → Job) : (s.modJob i f).actor = s.actor := rfl

@[simp] theorem addJob_agenda (j : Job) : (s.addJob j).agenda = s.agenda := rfl
@[simp] theorem addJob_cur (j : Job) : (s.addJob j).cur = s.cur := rfl
@[simp] theorem addJob_dtime (j : Job) : (s.addJob j).dtime = s.dtime := rfl
@[simp] theorem addJob_skew (j : Job) : (s.addJob j).skew = s.skew := rfl
@[simp] theorem addJob_devid (j : Job) : (s.addJob j).devid = s.devid := rfl
@[simp] theorem addJob_throttle (j : Job) : (s.addJob j).throttle = s.throttle := rfl
@[simp] theorem addJob_clamp (j : Job) : (s.addJob j).clamp = s.clamp := rfl
@[simp] theorem addJob_mem (j : Job) : (s.addJob j).mem = s.mem := rfl
@[simp] theorem addJob_memPoison (j : Job) : (s.addJob j).memPoison = s.memPoison := rfl
@[simp] theorem addJob_windows (j : Job) : (s.addJob j).windows = s.windows := rfl
@[simp] theorem addJob_wlock (j : Job) : (s.addJob j).wlock = s.wlock := rfl
@[simp] theorem addJob_roots (j : Job) : (s.addJob j).roots = s.roots := rfl
@[simp] theorem addJob_xlat (j : Job) : (s.addJob j).xlat = s.xlat := rfl
@[simp] theorem addJob_useOld (j : Job) : (s.addJob j).useOld = s.useOld := rfl
@[simp] theorem addJob_crews (j : Job) : (s.addJob j).crews = s.crews := rfl
@[simp] theorem addJob_ctxs (j : Job) : (s.addJob j).ctxs = s.ctxs := rfl
@[simp] theorem addJob_forkQ (j : Job) : (s.addJob j).forkQ = s.forkQ := rfl
@[simp] theorem addJob_cohorts (j : Job) : (s.addJob j).cohorts = s.cohorts := rfl
@[simp] theorem addJob_steps (j : Job) : (s.addJob j).steps = s.steps := rfl
@[simp] theorem addJob_heldUpds (j : Job) : (s.addJob j).heldUpds = s.heldUpds := rfl
@[simp] theorem addJob_ops (j : Job) : (s.addJob j).ops = s.ops := rfl
@[simp] theorem addJob_withdrawn (j : Job) : (s.addJob j).withdrawn = s.withdrawn := rfl
@[simp] theorem addJob_rels (j : Job) : (s.addJob j).rels = s.rels := rfl
@[simp] theorem addJob_nextOp (j : Job) : (s.addJob j).nextOp = s.nextOp := rfl
@[simp] theorem addJob_pgWaits (j : Job) : (s.addJob j).pgWaits = s.pgWaits := rfl
@[simp] theorem addJob_dies (j : Job) : (s.addJob j).dies = s.dies := rfl
@[simp] theorem addJob_queues (j : Job) : (s.addJob j).queues = s.queues := rfl
@[simp] theorem addJob_nextJob (j : Job) : (s.addJob j).nextJob = s.nextJob + 1 := rfl
@[simp] theorem addJob_rings (j : Job) : (s.addJob j).rings = s.rings := rfl
@[simp] theorem addJob_wins (j : Job) : (s.addJob j).wins = s.wins := rfl
@[simp] theorem addJob_redgrps (j : Job) : (s.addJob j).redgrps = s.redgrps := rfl
@[simp] theorem addJob_slots (j : Job) : (s.addJob j).slots = s.slots := rfl
@[simp] theorem addJob_closed (j : Job) : (s.addJob j).closed = s.closed := rfl
@[simp] theorem addJob_wire (j : Job) : (s.addJob j).wire = s.wire := rfl
@[simp] theorem addJob_nextMsg (j : Job) : (s.addJob j).nextMsg = s.nextMsg := rfl
@[simp] theorem addJob_saves (j : Job) : (s.addJob j).saves = s.saves := rfl
@[simp] theorem addJob_msix (j : Job) : (s.addJob j).msix = s.msix := rfl
@[simp] theorem addJob_ev (j : Job) : (s.addJob j).ev = s.ev := rfl
@[simp] theorem addJob_boot (j : Job) : (s.addJob j).boot = s.boot := rfl
@[simp] theorem addJob_free (j : Job) : (s.addJob j).free = s.free := rfl
@[simp] theorem addJob_wordPoison (j : Job) : (s.addJob j).wordPoison = s.wordPoison := rfl
@[simp] theorem addJob_coming (j : Job) : (s.addJob j).coming = s.coming := rfl
@[simp] theorem addJob_xfers (j : Job) : (s.addJob j).xfers = s.xfers := rfl
@[simp] theorem addJob_hist (j : Job) : (s.addJob j).hist = s.hist := rfl
@[simp] theorem addJob_reads (j : Job) : (s.addJob j).reads = s.reads := rfl
@[simp] theorem addJob_known (j : Job) : (s.addJob j).known = s.known := rfl
@[simp] theorem addJob_arrivals (j : Job) : (s.addJob j).arrivals = s.arrivals := rfl
@[simp] theorem addJob_lookBack (j : Job) : (s.addJob j).lookBack = s.lookBack := rfl
@[simp] theorem addJob_up (j : Job) : (s.addJob j).up = s.up := rfl
@[simp] theorem addJob_irqs (j : Job) : (s.addJob j).irqs = s.irqs := rfl
@[simp] theorem addJob_hostSaw (j : Job) : (s.addJob j).hostSaw = s.hostSaw := rfl
@[simp] theorem addJob_errs (j : Job) : (s.addJob j).errs = s.errs := rfl
@[simp] theorem addJob_landings (j : Job) : (s.addJob j).landings = s.landings := rfl
@[simp] theorem addJob_forks (j : Job) : (s.addJob j).forks = s.forks := rfl
@[simp] theorem addJob_joins (j : Job) : (s.addJob j).joins = s.joins := rfl
@[simp] theorem addJob_hostSeen (j : Job) : (s.addJob j).hostSeen = s.hostSeen := rfl
@[simp] theorem addJob_actor (j : Job) : (s.addJob j).actor = s.actor := rfl

@[simp] theorem modRing_agenda (i : Nat) (f : Ring → Ring) : (s.modRing i f).agenda = s.agenda := rfl
@[simp] theorem modRing_cur (i : Nat) (f : Ring → Ring) : (s.modRing i f).cur = s.cur := rfl
@[simp] theorem modRing_dtime (i : Nat) (f : Ring → Ring) : (s.modRing i f).dtime = s.dtime := rfl
@[simp] theorem modRing_skew (i : Nat) (f : Ring → Ring) : (s.modRing i f).skew = s.skew := rfl
@[simp] theorem modRing_devid (i : Nat) (f : Ring → Ring) : (s.modRing i f).devid = s.devid := rfl
@[simp] theorem modRing_throttle (i : Nat) (f : Ring → Ring) : (s.modRing i f).throttle = s.throttle := rfl
@[simp] theorem modRing_clamp (i : Nat) (f : Ring → Ring) : (s.modRing i f).clamp = s.clamp := rfl
@[simp] theorem modRing_mem (i : Nat) (f : Ring → Ring) : (s.modRing i f).mem = s.mem := rfl
@[simp] theorem modRing_memPoison (i : Nat) (f : Ring → Ring) : (s.modRing i f).memPoison = s.memPoison := rfl
@[simp] theorem modRing_windows (i : Nat) (f : Ring → Ring) : (s.modRing i f).windows = s.windows := rfl
@[simp] theorem modRing_wlock (i : Nat) (f : Ring → Ring) : (s.modRing i f).wlock = s.wlock := rfl
@[simp] theorem modRing_roots (i : Nat) (f : Ring → Ring) : (s.modRing i f).roots = s.roots := rfl
@[simp] theorem modRing_xlat (i : Nat) (f : Ring → Ring) : (s.modRing i f).xlat = s.xlat := rfl
@[simp] theorem modRing_useOld (i : Nat) (f : Ring → Ring) : (s.modRing i f).useOld = s.useOld := rfl
@[simp] theorem modRing_crews (i : Nat) (f : Ring → Ring) : (s.modRing i f).crews = s.crews := rfl
@[simp] theorem modRing_ctxs (i : Nat) (f : Ring → Ring) : (s.modRing i f).ctxs = s.ctxs := rfl
@[simp] theorem modRing_forkQ (i : Nat) (f : Ring → Ring) : (s.modRing i f).forkQ = s.forkQ := rfl
@[simp] theorem modRing_cohorts (i : Nat) (f : Ring → Ring) : (s.modRing i f).cohorts = s.cohorts := rfl
@[simp] theorem modRing_steps (i : Nat) (f : Ring → Ring) : (s.modRing i f).steps = s.steps := rfl
@[simp] theorem modRing_heldUpds (i : Nat) (f : Ring → Ring) : (s.modRing i f).heldUpds = s.heldUpds := rfl
@[simp] theorem modRing_ops (i : Nat) (f : Ring → Ring) : (s.modRing i f).ops = s.ops := rfl
@[simp] theorem modRing_withdrawn (i : Nat) (f : Ring → Ring) : (s.modRing i f).withdrawn = s.withdrawn := rfl
@[simp] theorem modRing_rels (i : Nat) (f : Ring → Ring) : (s.modRing i f).rels = s.rels := rfl
@[simp] theorem modRing_nextOp (i : Nat) (f : Ring → Ring) : (s.modRing i f).nextOp = s.nextOp := rfl
@[simp] theorem modRing_pgWaits (i : Nat) (f : Ring → Ring) : (s.modRing i f).pgWaits = s.pgWaits := rfl
@[simp] theorem modRing_dies (i : Nat) (f : Ring → Ring) : (s.modRing i f).dies = s.dies := rfl
@[simp] theorem modRing_queues (i : Nat) (f : Ring → Ring) : (s.modRing i f).queues = s.queues := rfl
@[simp] theorem modRing_jobs (i : Nat) (f : Ring → Ring) : (s.modRing i f).jobs = s.jobs := rfl
@[simp] theorem modRing_nextJob (i : Nat) (f : Ring → Ring) : (s.modRing i f).nextJob = s.nextJob := rfl
@[simp] theorem modRing_wins (i : Nat) (f : Ring → Ring) : (s.modRing i f).wins = s.wins := rfl
@[simp] theorem modRing_redgrps (i : Nat) (f : Ring → Ring) : (s.modRing i f).redgrps = s.redgrps := rfl
@[simp] theorem modRing_slots (i : Nat) (f : Ring → Ring) : (s.modRing i f).slots = s.slots := rfl
@[simp] theorem modRing_closed (i : Nat) (f : Ring → Ring) : (s.modRing i f).closed = s.closed := rfl
@[simp] theorem modRing_wire (i : Nat) (f : Ring → Ring) : (s.modRing i f).wire = s.wire := rfl
@[simp] theorem modRing_nextMsg (i : Nat) (f : Ring → Ring) : (s.modRing i f).nextMsg = s.nextMsg := rfl
@[simp] theorem modRing_saves (i : Nat) (f : Ring → Ring) : (s.modRing i f).saves = s.saves := rfl
@[simp] theorem modRing_msix (i : Nat) (f : Ring → Ring) : (s.modRing i f).msix = s.msix := rfl
@[simp] theorem modRing_ev (i : Nat) (f : Ring → Ring) : (s.modRing i f).ev = s.ev := rfl
@[simp] theorem modRing_boot (i : Nat) (f : Ring → Ring) : (s.modRing i f).boot = s.boot := rfl
@[simp] theorem modRing_free (i : Nat) (f : Ring → Ring) : (s.modRing i f).free = s.free := rfl
@[simp] theorem modRing_wordPoison (i : Nat) (f : Ring → Ring) : (s.modRing i f).wordPoison = s.wordPoison := rfl
@[simp] theorem modRing_coming (i : Nat) (f : Ring → Ring) : (s.modRing i f).coming = s.coming := rfl
@[simp] theorem modRing_xfers (i : Nat) (f : Ring → Ring) : (s.modRing i f).xfers = s.xfers := rfl
@[simp] theorem modRing_hist (i : Nat) (f : Ring → Ring) : (s.modRing i f).hist = s.hist := rfl
@[simp] theorem modRing_reads (i : Nat) (f : Ring → Ring) : (s.modRing i f).reads = s.reads := rfl
@[simp] theorem modRing_known (i : Nat) (f : Ring → Ring) : (s.modRing i f).known = s.known := rfl
@[simp] theorem modRing_arrivals (i : Nat) (f : Ring → Ring) : (s.modRing i f).arrivals = s.arrivals := rfl
@[simp] theorem modRing_lookBack (i : Nat) (f : Ring → Ring) : (s.modRing i f).lookBack = s.lookBack := rfl
@[simp] theorem modRing_up (i : Nat) (f : Ring → Ring) : (s.modRing i f).up = s.up := rfl
@[simp] theorem modRing_irqs (i : Nat) (f : Ring → Ring) : (s.modRing i f).irqs = s.irqs := rfl
@[simp] theorem modRing_hostSaw (i : Nat) (f : Ring → Ring) : (s.modRing i f).hostSaw = s.hostSaw := rfl
@[simp] theorem modRing_errs (i : Nat) (f : Ring → Ring) : (s.modRing i f).errs = s.errs := rfl
@[simp] theorem modRing_landings (i : Nat) (f : Ring → Ring) : (s.modRing i f).landings = s.landings := rfl
@[simp] theorem modRing_forks (i : Nat) (f : Ring → Ring) : (s.modRing i f).forks = s.forks := rfl
@[simp] theorem modRing_joins (i : Nat) (f : Ring → Ring) : (s.modRing i f).joins = s.joins := rfl
@[simp] theorem modRing_hostSeen (i : Nat) (f : Ring → Ring) : (s.modRing i f).hostSeen = s.hostSeen := rfl
@[simp] theorem modRing_actor (i : Nat) (f : Ring → Ring) : (s.modRing i f).actor = s.actor := rfl

@[simp] theorem wr_agenda (key n v : Nat) : (s.wr key n v).agenda = s.agenda := rfl
@[simp] theorem wr_cur (key n v : Nat) : (s.wr key n v).cur = s.cur := rfl
@[simp] theorem wr_dtime (key n v : Nat) : (s.wr key n v).dtime = s.dtime := rfl
@[simp] theorem wr_skew (key n v : Nat) : (s.wr key n v).skew = s.skew := rfl
@[simp] theorem wr_devid (key n v : Nat) : (s.wr key n v).devid = s.devid := rfl
@[simp] theorem wr_throttle (key n v : Nat) : (s.wr key n v).throttle = s.throttle := rfl
@[simp] theorem wr_clamp (key n v : Nat) : (s.wr key n v).clamp = s.clamp := rfl
@[simp] theorem wr_mem (key n v : Nat) : (s.wr key n v).mem = wrBytes s.mem key n v := rfl
@[simp] theorem wr_memPoison (key n v : Nat) : (s.wr key n v).memPoison = poisonAfter s.memPoison 32 key n := rfl
@[simp] theorem wr_windows (key n v : Nat) : (s.wr key n v).windows = s.windows := rfl
@[simp] theorem wr_wlock (key n v : Nat) : (s.wr key n v).wlock = s.wlock := rfl
@[simp] theorem wr_roots (key n v : Nat) : (s.wr key n v).roots = s.roots := rfl
@[simp] theorem wr_xlat (key n v : Nat) : (s.wr key n v).xlat = s.xlat := rfl
@[simp] theorem wr_useOld (key n v : Nat) : (s.wr key n v).useOld = s.useOld := rfl
@[simp] theorem wr_crews (key n v : Nat) : (s.wr key n v).crews = s.crews := rfl
@[simp] theorem wr_ctxs (key n v : Nat) : (s.wr key n v).ctxs = s.ctxs := rfl
@[simp] theorem wr_forkQ (key n v : Nat) : (s.wr key n v).forkQ = s.forkQ := rfl
@[simp] theorem wr_cohorts (key n v : Nat) : (s.wr key n v).cohorts = s.cohorts := rfl
@[simp] theorem wr_steps (key n v : Nat) : (s.wr key n v).steps = s.steps := rfl
@[simp] theorem wr_heldUpds (key n v : Nat) : (s.wr key n v).heldUpds = s.heldUpds := rfl
@[simp] theorem wr_ops (key n v : Nat) : (s.wr key n v).ops = s.ops := rfl
@[simp] theorem wr_withdrawn (key n v : Nat) : (s.wr key n v).withdrawn = s.withdrawn := rfl
@[simp] theorem wr_rels (key n v : Nat) : (s.wr key n v).rels = s.rels := rfl
@[simp] theorem wr_nextOp (key n v : Nat) : (s.wr key n v).nextOp = s.nextOp := rfl
@[simp] theorem wr_pgWaits (key n v : Nat) : (s.wr key n v).pgWaits = s.pgWaits := rfl
@[simp] theorem wr_dies (key n v : Nat) : (s.wr key n v).dies = s.dies := rfl
@[simp] theorem wr_queues (key n v : Nat) : (s.wr key n v).queues = s.queues := rfl
@[simp] theorem wr_jobs (key n v : Nat) : (s.wr key n v).jobs = s.jobs := rfl
@[simp] theorem wr_nextJob (key n v : Nat) : (s.wr key n v).nextJob = s.nextJob := rfl
@[simp] theorem wr_rings (key n v : Nat) : (s.wr key n v).rings = s.rings := rfl
@[simp] theorem wr_wins (key n v : Nat) : (s.wr key n v).wins = s.wins := rfl
@[simp] theorem wr_redgrps (key n v : Nat) : (s.wr key n v).redgrps = s.redgrps := rfl
@[simp] theorem wr_slots (key n v : Nat) : (s.wr key n v).slots = s.slots := rfl
@[simp] theorem wr_closed (key n v : Nat) : (s.wr key n v).closed = s.closed := rfl
@[simp] theorem wr_wire (key n v : Nat) : (s.wr key n v).wire = s.wire := rfl
@[simp] theorem wr_nextMsg (key n v : Nat) : (s.wr key n v).nextMsg = s.nextMsg := rfl
@[simp] theorem wr_saves (key n v : Nat) : (s.wr key n v).saves = s.saves := rfl
@[simp] theorem wr_msix (key n v : Nat) : (s.wr key n v).msix = s.msix := rfl
@[simp] theorem wr_ev (key n v : Nat) : (s.wr key n v).ev = s.ev := rfl
@[simp] theorem wr_boot (key n v : Nat) : (s.wr key n v).boot = s.boot := rfl
@[simp] theorem wr_free (key n v : Nat) : (s.wr key n v).free = s.free := rfl
@[simp] theorem wr_wordPoison (key n v : Nat) : (s.wr key n v).wordPoison = poisonAfter s.wordPoison 4 key n := rfl
@[simp] theorem wr_hist (key n v : Nat) : (s.wr key n v).hist = s.hist ++ [⟨none, key, n, sparseIn s.mem key n, s.actor, false⟩] := rfl
@[simp] theorem wr_coming (key n v : Nat) : (s.wr key n v).coming = s.coming := rfl
@[simp] theorem wr_xfers (key n v : Nat) : (s.wr key n v).xfers = s.xfers := rfl
@[simp] theorem wr_reads (key n v : Nat) : (s.wr key n v).reads = s.reads := rfl
@[simp] theorem wr_known (key n v : Nat) : (s.wr key n v).known = s.known := rfl
@[simp] theorem wr_arrivals (key n v : Nat) : (s.wr key n v).arrivals = s.arrivals := rfl
@[simp] theorem wr_lookBack (key n v : Nat) : (s.wr key n v).lookBack = s.lookBack := rfl
@[simp] theorem wr_up (key n v : Nat) : (s.wr key n v).up = s.up := rfl
@[simp] theorem wr_irqs (key n v : Nat) : (s.wr key n v).irqs = s.irqs := rfl
@[simp] theorem wr_hostSaw (key n v : Nat) : (s.wr key n v).hostSaw = s.hostSaw := rfl
@[simp] theorem wr_errs (key n v : Nat) : (s.wr key n v).errs = s.errs := rfl
@[simp] theorem wr_landings (key n v : Nat) : (s.wr key n v).landings = s.landings := rfl
@[simp] theorem wr_forks (key n v : Nat) : (s.wr key n v).forks = s.forks := rfl
@[simp] theorem wr_joins (key n v : Nat) : (s.wr key n v).joins = s.joins := rfl
@[simp] theorem wr_hostSeen (key n v : Nat) : (s.wr key n v).hostSeen = s.hostSeen := rfl
@[simp] theorem wr_actor (key n v : Nat) : (s.wr key n v).actor = s.actor.wrote s.hist.length := rfl

@[simp] theorem wrL_agenda (key : Nat) (bs : List Byte) : (s.wrL key bs).agenda = s.agenda := rfl
@[simp] theorem wrL_cur (key : Nat) (bs : List Byte) : (s.wrL key bs).cur = s.cur := rfl
@[simp] theorem wrL_dtime (key : Nat) (bs : List Byte) : (s.wrL key bs).dtime = s.dtime := rfl
@[simp] theorem wrL_skew (key : Nat) (bs : List Byte) : (s.wrL key bs).skew = s.skew := rfl
@[simp] theorem wrL_devid (key : Nat) (bs : List Byte) : (s.wrL key bs).devid = s.devid := rfl
@[simp] theorem wrL_throttle (key : Nat) (bs : List Byte) : (s.wrL key bs).throttle = s.throttle := rfl
@[simp] theorem wrL_clamp (key : Nat) (bs : List Byte) : (s.wrL key bs).clamp = s.clamp := rfl
@[simp] theorem wrL_mem (key : Nat) (bs : List Byte) : (s.wrL key bs).mem = wrList s.mem key bs := rfl
@[simp] theorem wrL_memPoison (key : Nat) (bs : List Byte) : (s.wrL key bs).memPoison = poisonAfter s.memPoison 32 key bs.length := rfl
@[simp] theorem wrL_windows (key : Nat) (bs : List Byte) : (s.wrL key bs).windows = s.windows := rfl
@[simp] theorem wrL_wlock (key : Nat) (bs : List Byte) : (s.wrL key bs).wlock = s.wlock := rfl
@[simp] theorem wrL_roots (key : Nat) (bs : List Byte) : (s.wrL key bs).roots = s.roots := rfl
@[simp] theorem wrL_xlat (key : Nat) (bs : List Byte) : (s.wrL key bs).xlat = s.xlat := rfl
@[simp] theorem wrL_useOld (key : Nat) (bs : List Byte) : (s.wrL key bs).useOld = s.useOld := rfl
@[simp] theorem wrL_crews (key : Nat) (bs : List Byte) : (s.wrL key bs).crews = s.crews := rfl
@[simp] theorem wrL_ctxs (key : Nat) (bs : List Byte) : (s.wrL key bs).ctxs = s.ctxs := rfl
@[simp] theorem wrL_forkQ (key : Nat) (bs : List Byte) : (s.wrL key bs).forkQ = s.forkQ := rfl
@[simp] theorem wrL_cohorts (key : Nat) (bs : List Byte) : (s.wrL key bs).cohorts = s.cohorts := rfl
@[simp] theorem wrL_steps (key : Nat) (bs : List Byte) : (s.wrL key bs).steps = s.steps := rfl
@[simp] theorem wrL_heldUpds (key : Nat) (bs : List Byte) : (s.wrL key bs).heldUpds = s.heldUpds := rfl
@[simp] theorem wrL_ops (key : Nat) (bs : List Byte) : (s.wrL key bs).ops = s.ops := rfl
@[simp] theorem wrL_withdrawn (key : Nat) (bs : List Byte) : (s.wrL key bs).withdrawn = s.withdrawn := rfl
@[simp] theorem wrL_rels (key : Nat) (bs : List Byte) : (s.wrL key bs).rels = s.rels := rfl
@[simp] theorem wrL_nextOp (key : Nat) (bs : List Byte) : (s.wrL key bs).nextOp = s.nextOp := rfl
@[simp] theorem wrL_pgWaits (key : Nat) (bs : List Byte) : (s.wrL key bs).pgWaits = s.pgWaits := rfl
@[simp] theorem wrL_dies (key : Nat) (bs : List Byte) : (s.wrL key bs).dies = s.dies := rfl
@[simp] theorem wrL_queues (key : Nat) (bs : List Byte) : (s.wrL key bs).queues = s.queues := rfl
@[simp] theorem wrL_jobs (key : Nat) (bs : List Byte) : (s.wrL key bs).jobs = s.jobs := rfl
@[simp] theorem wrL_nextJob (key : Nat) (bs : List Byte) : (s.wrL key bs).nextJob = s.nextJob := rfl
@[simp] theorem wrL_rings (key : Nat) (bs : List Byte) : (s.wrL key bs).rings = s.rings := rfl
@[simp] theorem wrL_wins (key : Nat) (bs : List Byte) : (s.wrL key bs).wins = s.wins := rfl
@[simp] theorem wrL_redgrps (key : Nat) (bs : List Byte) : (s.wrL key bs).redgrps = s.redgrps := rfl
@[simp] theorem wrL_slots (key : Nat) (bs : List Byte) : (s.wrL key bs).slots = s.slots := rfl
@[simp] theorem wrL_closed (key : Nat) (bs : List Byte) : (s.wrL key bs).closed = s.closed := rfl
@[simp] theorem wrL_wire (key : Nat) (bs : List Byte) : (s.wrL key bs).wire = s.wire := rfl
@[simp] theorem wrL_nextMsg (key : Nat) (bs : List Byte) : (s.wrL key bs).nextMsg = s.nextMsg := rfl
@[simp] theorem wrL_saves (key : Nat) (bs : List Byte) : (s.wrL key bs).saves = s.saves := rfl
@[simp] theorem wrL_msix (key : Nat) (bs : List Byte) : (s.wrL key bs).msix = s.msix := rfl
@[simp] theorem wrL_ev (key : Nat) (bs : List Byte) : (s.wrL key bs).ev = s.ev := rfl
@[simp] theorem wrL_boot (key : Nat) (bs : List Byte) : (s.wrL key bs).boot = s.boot := rfl
@[simp] theorem wrL_free (key : Nat) (bs : List Byte) : (s.wrL key bs).free = s.free := rfl
@[simp] theorem wrL_wordPoison (key : Nat) (bs : List Byte) : (s.wrL key bs).wordPoison = poisonAfter s.wordPoison 4 key bs.length := rfl
@[simp] theorem wrL_hist (key : Nat) (bs : List Byte) :
    (s.wrL key bs).hist = s.hist ++ [⟨none, key, bs.length, sparseIn s.mem key bs.length, s.actor, false⟩] := rfl
@[simp] theorem wrL_coming (key : Nat) (bs : List Byte) : (s.wrL key bs).coming = s.coming := rfl
@[simp] theorem wrL_xfers (key : Nat) (bs : List Byte) : (s.wrL key bs).xfers = s.xfers := rfl
@[simp] theorem wrL_reads (key : Nat) (bs : List Byte) : (s.wrL key bs).reads = s.reads := rfl
@[simp] theorem wrL_known (key : Nat) (bs : List Byte) : (s.wrL key bs).known = s.known := rfl
@[simp] theorem wrL_arrivals (key : Nat) (bs : List Byte) : (s.wrL key bs).arrivals = s.arrivals := rfl
@[simp] theorem wrL_lookBack (key : Nat) (bs : List Byte) : (s.wrL key bs).lookBack = s.lookBack := rfl
@[simp] theorem wrL_up (key : Nat) (bs : List Byte) : (s.wrL key bs).up = s.up := rfl
@[simp] theorem wrL_irqs (key : Nat) (bs : List Byte) : (s.wrL key bs).irqs = s.irqs := rfl
@[simp] theorem wrL_hostSaw (key : Nat) (bs : List Byte) : (s.wrL key bs).hostSaw = s.hostSaw := rfl
@[simp] theorem wrL_errs (key : Nat) (bs : List Byte) : (s.wrL key bs).errs = s.errs := rfl
@[simp] theorem wrL_landings (key : Nat) (bs : List Byte) : (s.wrL key bs).landings = s.landings := rfl
@[simp] theorem wrL_forks (key : Nat) (bs : List Byte) : (s.wrL key bs).forks = s.forks := rfl
@[simp] theorem wrL_joins (key : Nat) (bs : List Byte) : (s.wrL key bs).joins = s.joins := rfl
@[simp] theorem wrL_hostSeen (key : Nat) (bs : List Byte) : (s.wrL key bs).hostSeen = s.hostSeen := rfl
@[simp] theorem wrL_actor (key : Nat) (bs : List Byte) : (s.wrL key bs).actor = s.actor.wrote s.hist.length := rfl

@[simp] theorem zeroRange_agenda (key n : Nat) : (s.zeroRange key n).agenda = s.agenda := rfl
@[simp] theorem zeroRange_cur (key n : Nat) : (s.zeroRange key n).cur = s.cur := rfl
@[simp] theorem zeroRange_dtime (key n : Nat) : (s.zeroRange key n).dtime = s.dtime := rfl
@[simp] theorem zeroRange_skew (key n : Nat) : (s.zeroRange key n).skew = s.skew := rfl
@[simp] theorem zeroRange_devid (key n : Nat) : (s.zeroRange key n).devid = s.devid := rfl
@[simp] theorem zeroRange_throttle (key n : Nat) : (s.zeroRange key n).throttle = s.throttle := rfl
@[simp] theorem zeroRange_clamp (key n : Nat) : (s.zeroRange key n).clamp = s.clamp := rfl
@[simp] theorem zeroRange_windows (key n : Nat) : (s.zeroRange key n).windows = s.windows := rfl
@[simp] theorem zeroRange_wlock (key n : Nat) : (s.zeroRange key n).wlock = s.wlock := rfl
@[simp] theorem zeroRange_roots (key n : Nat) : (s.zeroRange key n).roots = s.roots := rfl
@[simp] theorem zeroRange_xlat (key n : Nat) : (s.zeroRange key n).xlat = s.xlat := rfl
@[simp] theorem zeroRange_useOld (key n : Nat) : (s.zeroRange key n).useOld = s.useOld := rfl
@[simp] theorem zeroRange_crews (key n : Nat) : (s.zeroRange key n).crews = s.crews := rfl
@[simp] theorem zeroRange_ctxs (key n : Nat) : (s.zeroRange key n).ctxs = s.ctxs := rfl
@[simp] theorem zeroRange_forkQ (key n : Nat) : (s.zeroRange key n).forkQ = s.forkQ := rfl
@[simp] theorem zeroRange_cohorts (key n : Nat) : (s.zeroRange key n).cohorts = s.cohorts := rfl
@[simp] theorem zeroRange_steps (key n : Nat) : (s.zeroRange key n).steps = s.steps := rfl
@[simp] theorem zeroRange_heldUpds (key n : Nat) : (s.zeroRange key n).heldUpds = s.heldUpds := rfl
@[simp] theorem zeroRange_ops (key n : Nat) : (s.zeroRange key n).ops = s.ops := rfl
@[simp] theorem zeroRange_withdrawn (key n : Nat) : (s.zeroRange key n).withdrawn = s.withdrawn := rfl
@[simp] theorem zeroRange_rels (key n : Nat) : (s.zeroRange key n).rels = s.rels := rfl
@[simp] theorem zeroRange_nextOp (key n : Nat) : (s.zeroRange key n).nextOp = s.nextOp := rfl
@[simp] theorem zeroRange_pgWaits (key n : Nat) : (s.zeroRange key n).pgWaits = s.pgWaits := rfl
@[simp] theorem zeroRange_dies (key n : Nat) : (s.zeroRange key n).dies = s.dies := rfl
@[simp] theorem zeroRange_queues (key n : Nat) : (s.zeroRange key n).queues = s.queues := rfl
@[simp] theorem zeroRange_jobs (key n : Nat) : (s.zeroRange key n).jobs = s.jobs := rfl
@[simp] theorem zeroRange_nextJob (key n : Nat) : (s.zeroRange key n).nextJob = s.nextJob := rfl
@[simp] theorem zeroRange_rings (key n : Nat) : (s.zeroRange key n).rings = s.rings := rfl
@[simp] theorem zeroRange_wins (key n : Nat) : (s.zeroRange key n).wins = s.wins := rfl
@[simp] theorem zeroRange_redgrps (key n : Nat) : (s.zeroRange key n).redgrps = s.redgrps := rfl
@[simp] theorem zeroRange_slots (key n : Nat) : (s.zeroRange key n).slots = s.slots := rfl
@[simp] theorem zeroRange_closed (key n : Nat) : (s.zeroRange key n).closed = s.closed := rfl
@[simp] theorem zeroRange_wire (key n : Nat) : (s.zeroRange key n).wire = s.wire := rfl
@[simp] theorem zeroRange_nextMsg (key n : Nat) : (s.zeroRange key n).nextMsg = s.nextMsg := rfl
@[simp] theorem zeroRange_saves (key n : Nat) : (s.zeroRange key n).saves = s.saves := rfl
@[simp] theorem zeroRange_msix (key n : Nat) : (s.zeroRange key n).msix = s.msix := rfl
@[simp] theorem zeroRange_ev (key n : Nat) : (s.zeroRange key n).ev = s.ev := rfl
@[simp] theorem zeroRange_boot (key n : Nat) : (s.zeroRange key n).boot = s.boot := rfl
@[simp] theorem zeroRange_free (key n : Nat) : (s.zeroRange key n).free = s.free := rfl
@[simp] theorem zeroRange_hist (key n : Nat) :
    (s.zeroRange key n).hist = s.hist ++ [⟨none, key, n, sparseIn s.mem key n, s.actor, false⟩] := rfl
@[simp] theorem zeroRange_coming (key n : Nat) : (s.zeroRange key n).coming = s.coming := rfl
@[simp] theorem zeroRange_xfers (key n : Nat) : (s.zeroRange key n).xfers = s.xfers := rfl
@[simp] theorem zeroRange_reads (key n : Nat) : (s.zeroRange key n).reads = s.reads := rfl
@[simp] theorem zeroRange_known (key n : Nat) : (s.zeroRange key n).known = s.known := rfl
@[simp] theorem zeroRange_arrivals (key n : Nat) : (s.zeroRange key n).arrivals = s.arrivals := rfl
@[simp] theorem zeroRange_lookBack (key n : Nat) : (s.zeroRange key n).lookBack = s.lookBack := rfl
@[simp] theorem zeroRange_up (key n : Nat) : (s.zeroRange key n).up = s.up := rfl
@[simp] theorem zeroRange_irqs (key n : Nat) : (s.zeroRange key n).irqs = s.irqs := rfl
@[simp] theorem zeroRange_hostSaw (key n : Nat) : (s.zeroRange key n).hostSaw = s.hostSaw := rfl
@[simp] theorem zeroRange_errs (key n : Nat) : (s.zeroRange key n).errs = s.errs := rfl
@[simp] theorem zeroRange_landings (key n : Nat) : (s.zeroRange key n).landings = s.landings := rfl
@[simp] theorem zeroRange_forks (key n : Nat) : (s.zeroRange key n).forks = s.forks := rfl
@[simp] theorem zeroRange_joins (key n : Nat) : (s.zeroRange key n).joins = s.joins := rfl
@[simp] theorem zeroRange_hostSeen (key n : Nat) : (s.zeroRange key n).hostSeen = s.hostSeen := rfl
@[simp] theorem zeroRange_actor (key n : Nat) : (s.zeroRange key n).actor = s.actor.wrote s.hist.length := rfl

/-- A turn that moves a die's clock ahead takes no DTIME back (R132). -/
theorem lead_dieTime_mono (die ns d : Nat) : s.dieTime d ≤ (s.lead die ns).dieTime d := by
  unfold State.lead
  by_cases h : 100 ≤ ns <;> by_cases hd : die = 0 <;> by_cases h0 : d = 0 <;> simp [State.dieTime, h, hd, h0]

/-- A turn that moves a die's clock ahead keeps both leads below 100 ns (R132). -/
theorem lead_below (die ns : Nat) (h0 : s.skew.1 < 100) (h1 : s.skew.2 < 100) :
    (s.lead die ns).skew.1 < 100 ∧ (s.lead die ns).skew.2 < 100 := by
  unfold State.lead
  split
  · exact ⟨h0, h1⟩
  · split <;> simp <;> omega

end Sys2Proof.Laws
end

