-- ==== Sys2Proof/Laws/Traps.lean ====
section
/-! SUPPORT. Taking a trap and returning from one (R397 to R402, R269), where an issuer's threads go, and writes of scalar
registers: what each shared operation answers, once. -/
namespace Sys2Proof.Laws
open Sys2Proof.Machine

variable {s : State} {e : Env} {k : Crew} {w : Warp} {c x ci wi : Nat} {t : Trap} {pc : W32}

/-- A trap is delivered: the trap registers, H in HMASK, the loops shelved, H at the handler (R398, R399). -/
theorem takeTrap_delivered {h : W64} {len : Nat} (hk : s.crews[ci]? = some k) (hw : k.warps[wi]? = some w) (ha : w.hact = false)
    (ht : k.tvec ≠ 0) : s.takeTrap ci wi h pc len t = s.modWarp ci wi (fun w =>
      let w := w.recordTrap pc t
      ({ w with tlen := BitVec.ofNat 4 len, hact := true, hmask := h, shadow := w.loops, loops := [] }).place k.image h k.tvec) := by
  unfold State.takeTrap
  simp only [hk, hw, ha, Bool.not_false, decide_eq_true ht, Bool.and_self, if_true]

/-- A trap that finds a handler running, or none set, kills H (R401). -/
theorem takeTrap_killed {h : W64} {len : Nat} (hk : s.crews[ci]? = some k) (hw : k.warps[wi]? = some w) (ha : w.hact = true ∨ k.tvec = 0) :
    s.takeTrap ci wi h pc len t = ((s.modCrew ci (fun k => k.kill t.cause s.nextKill)).modWarp ci wi (fun w =>
      { w.recordTrap pc t with nkill := addKill w.nkill (popMask h) })).endThreads ci wi h true := by
  unfold State.takeTrap
  have hb : (!w.hact && decide (k.tvec ≠ 0)) = false := by
    rcases ha with h | h
    · simp [h]
    · simp [h]
  simp only [hk, hw, hb, Bool.false_eq_true, if_false]

/-- The registers a delivery or a kill records (R398). -/
@[simp] theorem recordTrap_cause : (w.recordTrap pc t).trapcause = BitVec.ofNat 64 t.cause := rfl
@[simp] theorem recordTrap_pc : (w.recordTrap pc t).trappc = pc.setWidth 64 := rfl
@[simp] theorem recordTrap_info : (w.recordTrap pc t).trapinfo = t.info := rfl
@[simp] theorem recordTrap_regs : (w.recordTrap pc t).regs = w.regs := rfl
@[simp] theorem recordTrap_sregs : (w.recordTrap pc t).sregs = w.sregs := rfl
@[simp] theorem recordTrap_mregs : (w.recordTrap pc t).mregs = w.mregs := rfl
@[simp] theorem recordTrap_frontier : (w.recordTrap pc t).frontier = w.frontier := rfl
@[simp] theorem recordTrap_loops : (w.recordTrap pc t).loops = w.loops := rfl

/-- Which trap operation an issuer's trap is. -/
theorem raise_warp (he : e.who = .warp c x) : s.raise e t = s.takeTrap c x e.m0 e.pc e.h.len t := by simp [State.raise, he]
theorem raise_ctx (he : e.who = .ctx x) : s.raise e t = s.ctxTrap x e.pc t := by simp [State.raise, he]

/-- A trap of a context changes that context alone (R269). -/
@[simp] theorem ctxTrap_crews : (s.ctxTrap x pc t).crews = s.crews := rfl
@[simp] theorem ctxTrap_mem : (s.ctxTrap x pc t).mem = s.mem := rfl
@[simp] theorem ctxTrap_ops : (s.ctxTrap x pc t).ops = s.ops := rfl

/-- Where the threads of an issuer go. -/
theorem jump_warp (he : e.who = .warp c x) : s.jump e pc = s.modWarp c x (fun w => w.place e.k.image e.m0 pc) := by simp [State.jump, he]
theorem jump_ctx (he : e.who = .ctx x) : s.jump e pc = s.modCtx x (fun c => { c with pc := pc, wait := none }) := by simp [State.jump, he]

@[simp] theorem jump_mem : (s.jump e pc).mem = s.mem := by unfold State.jump; split <;> rfl
@[simp] theorem jump_memPoison : (s.jump e pc).memPoison = s.memPoison := by unfold State.jump; split <;> rfl
@[simp] theorem jump_dies : (s.jump e pc).dies = s.dies := by unfold State.jump; split <;> rfl
@[simp] theorem jump_windows : (s.jump e pc).windows = s.windows := by unfold State.jump; split <;> rfl
@[simp] theorem jump_boot : (s.jump e pc).boot = s.boot := by unfold State.jump; split <;> rfl
@[simp] theorem jump_ops : (s.jump e pc).ops = s.ops := by unfold State.jump; split <;> rfl
@[simp] theorem jump_cur : (s.jump e pc).cur = s.cur := by unfold State.jump; split <;> rfl

@[simp] theorem ctxSettle_mem {r : ThreadRef} : (s.ctxSettle r).mem = s.mem := by cases r <;> rfl
@[simp] theorem ctxSettle_memPoison {r : ThreadRef} : (s.ctxSettle r).memPoison = s.memPoison := by cases r <;> rfl
@[simp] theorem ctxSettle_dies {r : ThreadRef} : (s.ctxSettle r).dies = s.dies := by cases r <;> rfl
@[simp] theorem ctxSettle_windows {r : ThreadRef} : (s.ctxSettle r).windows = s.windows := by cases r <;> rfl
@[simp] theorem ctxSettle_boot {r : ThreadRef} : (s.ctxSettle r).boot = s.boot := by cases r <;> rfl
@[simp] theorem ctxSettle_crews {r : ThreadRef} : (s.ctxSettle r).crews = s.crews := by cases r <;> rfl

/-- A warp has no loop ends of its own to settle here. -/
@[simp] theorem ctxSettle_warp : s.ctxSettle (.warp c x) = s := rfl

/-- A change of an issuer's scalar file leaves the machine's other parts. -/
@[simp] theorem modScal_mem {r : ThreadRef} {f : List W64 × W64 × W64 → List W64 × W64 × W64} : (s.modScal r f).mem = s.mem := by
  cases r <;> rfl
@[simp] theorem modScal_memPoison {r : ThreadRef} {f : List W64 × W64 × W64 → List W64 × W64 × W64} :
    (s.modScal r f).memPoison = s.memPoison := by cases r <;> rfl
@[simp] theorem modScal_dies {r : ThreadRef} {f : List W64 × W64 × W64 → List W64 × W64 × W64} : (s.modScal r f).dies = s.dies := by
  cases r <;> rfl

/-- s0 discards a write (R125). -/
@[simp] theorem setS_zero {r : ThreadRef} {v : W64} : s.setS r 0 v = s := rfl

@[simp] theorem setS_mem {r : ThreadRef} {n : Nat} {v : W64} : (s.setS r n v).mem = s.mem := by
  unfold State.setS; split <;> simp

/-- s0 reads 0 (R125). -/
@[simp] theorem sreg_zero {r : ThreadRef} : s.sreg r 0 = 0 := rfl

/-- An element that a list change does not name stays; the one it names is changed. -/
theorem modAt_get {α : Type} {l : List α} {i j : Nat} {f : α → α} : (modAt l i f)[j]? = if j = i then (l[j]?).map f else l[j]? := by
  induction l generalizing i j with
  | nil => simp [modAt]
  | cons a l ih =>
    cases i with
    | zero => cases j <;> simp [modAt]
    | succ i => cases j <;> simp [modAt, ih]

@[simp] theorem modAt_length {α : Type} {l : List α} {i : Nat} {f : α → α} : (modAt l i f).length = l.length := by
  induction l generalizing i with
  | nil => rfl
  | cons a l ih => cases i <;> simp [modAt, ih]

/-- A crew that a warp's change does not name stays. -/
theorem modWarp_crew_other {f : Warp → Warp} {j : Nat} (hj : j ≠ ci) : (s.modWarp ci wi f).crews[j]? = s.crews[j]? := by
  rw [modWarp_crews, modAt_get, if_neg hj]

/-- A change of a die keeps the number of dies (R10). -/
@[simp] theorem modDie_dies_length {d : Nat} {f : Die → Die} : (s.modDie d f).dies.length = s.dies.length := by
  rw [modDie_dies, modAt_length]

end Sys2Proof.Laws
end

