-- ==== Sys2Proof/Tests/Slice0.lean ====
section
/-! SUPPORT. Tests: words written out from the encodings of the spec decode to their instructions; ill-formed terms are refused, one for each check;
single steps give the values of the spec's worked examples; and for each statement with hypotheses a theorem `wit_<statement>` applies it to
concrete states and operands, so that its proof discharges all the hypotheses there. -/
namespace Sys2Proof.Tests
open Sys2Proof Sys2Proof.Machine Sys2Proof.Claims
set_option Elab.async false

/-- Words with each operand field at a value of its own, from the fixed bits and the field places of the encoding tables (R53 to R67). -/
theorem test_decode_compact : ∀ p ∈ ([
    (0x14A0, .nop_16 ⟨0x5, 0x5⟩),
    (0x58A0, .mov_16 ⟨0x5, 0x16⟩),
    (0x58A2, .iaddI32_16 ⟨0x5, 0x16⟩),
    (0x58A4, .isubI32_16 ⟨0x5, 0x16⟩),
    (0x58A6, .and_16 ⟨0x5, 0x16⟩),
    (0x58A8, .or_16 ⟨0x5, 0x16⟩),
    (0x58AA, .xor_16 ⟨0x5, 0x16⟩),
    (0x58AC, .shl_16 ⟨0x5, 0x16⟩),
    (0x58AE, .shrUi32_16 ⟨0x5, 0x16⟩),
    (0x58B0, .shrI32_16 ⟨0x5, 0x16⟩),
    (0x58B2, .iminI32_16 ⟨0x5, 0x16⟩),
    (0x58B4, .imaxI32_16 ⟨0x5, 0x16⟩),
    (0x58B6, .faddF32_16 ⟨0x5, 0x16⟩),
    (0x58B8, .fsubF32_16 ⟨0x5, 0x16⟩),
    (0x58BA, .fmulF32_16 ⟨0x5, 0x16⟩),
    (0x58BC, .fminF32_16 ⟨0x5, 0x16⟩),
    (0x58BE, .fmaxF32_16 ⟨0x5, 0x16⟩)] : List (Nat × Instr)), decodeTableWord 32 p.1 = some p.2 := by decide +kernel

/-- Words with each operand field at a value of its own, from the fixed bits and the field places of the encoding tables (R53 to R67). -/
theorem test_decode_int_1 : ∀ p ∈ ([
    (0x3CD54503, .iaddI32 ⟨0x45, 0x2A, 0x73, true, false, none⟩),
    (0xBCD54503, .iaddI32Sat ⟨0x45, 0x2A, 0x73, true, false, none⟩),
    (0x3CD54505, .isubI32 ⟨0x45, 0x2A, 0x73, true, false, none⟩),
    (0xBCD54505, .isubI32Sat ⟨0x45, 0x2A, 0x73, true, false, none⟩),
    (0x3CD54507, .imulI32 ⟨0x45, 0x2A, 0x73, true, false, none⟩),
    (0xBCD54507, .imulhI32 ⟨0x45, 0x2A, 0x73, true, false, none⟩),
    (0x3CD54509, .imadI32 ⟨0x45, 0x2A, 0x73, true, false, none⟩),
    (0x3CD5450B, .iminI32 ⟨0x45, 0x2A, 0x73, true, false, none⟩),
    (0xBCD5450B, .iminUi32 ⟨0x45, 0x2A, 0x73, true, false, none⟩),
    (0x3CD5450D, .imaxI32 ⟨0x45, 0x2A, 0x73, true, false, none⟩),
    (0xBCD5450D, .imaxUi32 ⟨0x45, 0x2A, 0x73, true, false, none⟩),
    (0x3CD5450F, .and ⟨0x45, 0x2A, 0x73, true, false, none⟩),
    (0x3CD54511, .or ⟨0x45, 0x2A, 0x73, true, false, none⟩),
    (0x3CD54513, .xor ⟨0x45, 0x2A, 0x73, true, false, none⟩),
    (0x3CD54515, .shl ⟨0x45, 0x2A, 0x73, true, false, none⟩),
    (0x3CD54517, .shrUi32 ⟨0x45, 0x2A, 0x73, true, false, none⟩),
    (0xBCD54517, .shrI32 ⟨0x45, 0x2A, 0x73, true, false, none⟩),
    (0x1CE2C51B, .mov ⟨0x45, 0x73, false, none⟩),
    (0x8000451B, .movLane ⟨0x45, none⟩),
    (0x2015451D, .clz ⟨0x45, 0x2A, true, none⟩),
    (0xA015451D, .popc ⟨0x45, 0x2A, true, none⟩),
    (0x3CD5251F, .icmpI32 ⟨0x5, 0x4, 0x2A, 0x73, true, false, none⟩),
    (0xBCD5251F, .icmpUi32 ⟨0x5, 0x4, 0x2A, 0x73, true, false, none⟩),
    (0x83154521, .iaddi ⟨0x45, 0x2A, 0xC, true, none, none⟩)] : List (Nat × Instr)), decodeTableWord 32 p.1 = some p.2 := by decide +kernel

/-- Words with each operand field at a value of its own, from the fixed bits and the field places of the encoding tables (R53 to R67). -/
theorem test_decode_int_2 : ∀ p ∈ ([
    (0x83154523, .andi ⟨0x45, 0x2A, 0xC, true, none, none⟩),
    (0x83154525, .ori ⟨0x45, 0x2A, 0xC, true, none, none⟩),
    (0x83154527, .xori ⟨0x45, 0x2A, 0xC, true, none, none⟩),
    (0x83154529, .shli ⟨0x45, 0x2A, 0xC, true, none, none⟩),
    (0x8315452B, .shri ⟨0x45, 0x2A, 0xC, true, none, none⟩),
    (0x8B15452B, .shriA ⟨0x45, 0x2A, 0x2C, true, none, none⟩),
    (0x300452D, .movi ⟨0x45, 0xC, none, none⟩),
    (0x8315252F, .icmpi ⟨0x5, 0x4, 0x2A, 0xC, true, none, none⟩),
    (0x8315652F, .icmpiU ⟨0x5, 0x4, 0x2A, 0xC, true, none, none⟩)] : List (Nat × Instr)), decodeTableWord 32 p.1 = some p.2 := by decide +kernel

/-- Words with each operand field at a value of its own, from the fixed bits and the field places of the encoding tables (R53 to R67). -/
theorem test_decode_fp_1 : ∀ p ∈ ([
    (0x3CD54531, .iaddP16 ⟨0x45, 0x2A, 0x73, true, false, none⟩),
    (0xBCD54531, .iaddP16Sat ⟨0x45, 0x2A, 0x73, true, false, none⟩),
    (0x3CD54533, .isubP16 ⟨0x45, 0x2A, 0x73, true, false, none⟩),
    (0xBCD54533, .isubP16Sat ⟨0x45, 0x2A, 0x73, true, false, none⟩),
    (0x3CD54535, .imulP16 ⟨0x45, 0x2A, 0x73, true, false, none⟩),
    (0xBCD54535, .imulhP16 ⟨0x45, 0x2A, 0x73, true, false, none⟩),
    (0x3CD54537, .iminP16 ⟨0x45, 0x2A, 0x73, true, false, none⟩),
    (0xBCD54537, .imaxP16 ⟨0x45, 0x2A, 0x73, true, false, none⟩),
    (0x3CD54539, .vacsP16 ⟨0x45, 0x2A, 0x73, true, false, none⟩),
    (0xBCD54539, .vacsP16Max ⟨0x45, 0x2A, 0x73, true, false, none⟩),
    (0x3CD5453B, .shlP16 ⟨0x45, 0x2A, 0x73, true, false, none⟩),
    (0xBCD5453B, .shrP16 ⟨0x45, 0x2A, 0x73, true, false, none⟩),
    (0x3CD5453D, .topk ⟨0x45, 0x2A, 0x73, true, false, none⟩),
    (0x3CD5453F, .sample ⟨0x45, 0x2A, 0x73, true, false, none⟩),
    (0x3CD54541, .faddF32 ⟨0x45, 0x2A, 0x73, true, false, none⟩),
    (0x3CD54543, .fsubF32 ⟨0x45, 0x2A, 0x73, true, false, none⟩),
    (0x3CD54545, .fmulF32 ⟨0x45, 0x2A, 0x73, true, false, none⟩),
    (0x3CD54547, .ffmaF32 ⟨0x45, 0x2A, 0x73, true, false, none⟩),
    (0x3CD54549, .fminF32 ⟨0x45, 0x2A, 0x73, true, false, none⟩),
    (0xBCD54549, .fminF32Nan ⟨0x45, 0x2A, 0x73, true, false, none⟩),
    (0x3CD5454B, .fmaxF32 ⟨0x45, 0x2A, 0x73, true, false, none⟩),
    (0xBCD5454B, .fmaxF32Nan ⟨0x45, 0x2A, 0x73, true, false, none⟩),
    (0x3CD5254D, .fcmpF32 ⟨0x5, 0x4, 0x2A, 0x73, true, false, none⟩),
    (0xBCD5454F, .fcpys ⟨0x45, 0x2A, 0x73, true, false, none⟩)] : List (Nat × Instr)), decodeTableWord 32 p.1 = some p.2 := by decide +kernel

/-- Words with each operand field at a value of its own, from the fixed bits and the field places of the encoding tables (R53 to R67). -/
theorem test_decode_fp_2 : ∀ p ∈ ([
    (0x2015454F, .fneg ⟨0x45, 0x2A, true, none⟩),
    (0x2055454F, .fabs ⟨0x45, 0x2A, true, none⟩),
    (0x2095454F, .frint ⟨0x45, 0x2A, true, none⟩),
    (0x20154551, .rcp ⟨0x45, 0x2A, true, none⟩),
    (0x20554551, .rsq ⟨0x45, 0x2A, true, none⟩),
    (0x20954551, .sqrt ⟨0x45, 0x2A, true, none⟩),
    (0x20D54551, .ex2 ⟨0x45, 0x2A, true, none⟩),
    (0x21154551, .lg2 ⟨0x45, 0x2A, true, none⟩),
    (0x21554551, .sin ⟨0x45, 0x2A, true, none⟩),
    (0x21954551, .cos ⟨0x45, 0x2A, true, none⟩),
    (0x21D54551, .tanh ⟨0x45, 0x2A, true, none⟩),
    (0x3CD54553, .fdivF32 ⟨0x45, 0x2A, 0x73, true, false, none⟩),
    (0x20D54555, .cvt ⟨0x45, 0x2A, 0x3, true, none⟩),
    (0x24D54555, .cvtI32 ⟨0x45, 0x2A, 0x3, true, none⟩),
    (0x28D54555, .cvtUi32 ⟨0x45, 0x2A, 0x3, true, none⟩),
    (0x28D54557, .pack ⟨0x45, 0x2A, 0x3, 0x2, true, none⟩),
    (0x28D54559, .unpack ⟨0x45, 0x2A, 0x3, 0x2, true, none⟩),
    (0x3CD5455D, .ropeCos ⟨0x45, 0x2A, 0x73, true, false, none⟩),
    (0xBCD5455D, .ropeSin ⟨0x45, 0x2A, 0x73, true, false, none⟩),
    (0x2015455F, .smxupd ⟨0x45, 0x2A, true, none⟩),
    (0xA015455F, .smxupdSum ⟨0x45, 0x2A, true, none⟩)] : List (Nat × Instr)), decodeTableWord 32 p.1 = some p.2 := by decide +kernel

/-- Words with each operand field at a value of its own, from the fixed bits and the field places of the encoding tables (R53 to R67). -/
theorem test_decode_cross_1 : ∀ p ∈ ([
    (0x3CD5457B, .stopchk ⟨0x45, 0x2A, 0x73, true, false, none⟩),
    (0x3CD54561, .shflIdx ⟨0x45, 0x2A, 0x73, true, false, none⟩),
    (0xA5554561, .shflIdxImm ⟨0x45, 0x2A, 0x15, true, none⟩),
    (0x3CD54563, .shflUp ⟨0x45, 0x2A, 0x73, true, false, none⟩),
    (0xA5554563, .shflUpImm ⟨0x45, 0x2A, 0x15, true, none⟩),
    (0x3CD54565, .shflDn ⟨0x45, 0x2A, 0x73, true, false, none⟩),
    (0xA5554565, .shflDnImm ⟨0x45, 0x2A, 0x15, true, none⟩),
    (0x3CD54567, .shflXor ⟨0x45, 0x2A, 0x73, true, false, none⟩),
    (0xA5554567, .shflXorImm ⟨0x45, 0x2A, 0x15, true, none⟩),
    (0x2AD54569, .bcast ⟨0x45, 0x2A, 0x2B, true, none⟩),
    (0x30154569, .bcastFirst ⟨0x45, 0x2A, true, none⟩),
    (0x2255456B, .red ⟨0x45, 0x2A, 0x9, true, none⟩),
    (0x2255256D, .redw ⟨0x25, 0x2A, 0x9, true, none⟩),
    (0x2255456F, .scan ⟨0x45, 0x2A, 0x9, true, none⟩),
    (0xA255456F, .scanEx ⟨0x45, 0x2A, 0x9, true, none⟩),
    (0x32554571, .sscan ⟨0x45, 0x2A, 0x9, 0x4, true, none⟩),
    (0xB2554571, .sscanEx ⟨0x45, 0x2A, 0x9, 0x4, true, none⟩),
    (0x25552573, .ballot ⟨0x25, 0x2A, 0x15, true, none⟩),
    (0xA5550573, .ballotM ⟨0x5, 0x2A, 0x15, true, none⟩),
    (0x1818575, .mand ⟨0x5, 0x3, 0x6, none⟩),
    (0x3818575, .mor ⟨0x5, 0x3, 0x6, none⟩),
    (0x5818575, .mxor ⟨0x5, 0x3, 0x6, none⟩),
    (0x6018575, .mnot ⟨0x5, 0x3, none⟩),
    (0x801A575, .mpopc ⟨0x25, 0x3, none⟩)] : List (Nat × Instr)), decodeTableWord 32 p.1 = some p.2 := by decide +kernel

/-- Words with each operand field at a value of its own, from the fixed bits and the field places of the encoding tables (R53 to R67). -/
theorem test_decode_cross_2 : ∀ p ∈ ([
    (0x2AD52577, .vtos ⟨0x25, 0x2A, 0x2B, true, none⟩),
    (0x30152577, .vtosFirst ⟨0x25, 0x2A, true, none⟩),
    (0x800E4577, .stov ⟨0x45, 0x1C, none⟩),
    (0x802E4577, .stovHi ⟨0x45, 0x1C, none⟩),
    (0x4579, .sete ⟨0x45, none⟩),
    (0x2004579, .setf ⟨0x45, none⟩),
    (0x4150579, .tstf ⟨0x5, 0x2A, none⟩)] : List (Nat × Instr)), decodeTableWord 32 p.1 = some p.2 := by decide +kernel

/-- Words with each operand field at a value of its own, from the fixed bits and the field places of the encoding tables (R53 to R67). -/
theorem test_decode_scalar_1 : ∀ p ∈ ([
    (0x8336A581, .sadd ⟨0x25, 0x1A, 0x33, true⟩),
    (0x8736A581, .ssub ⟨0x25, 0x1A, 0x33, true⟩),
    (0x8B36A581, .smul ⟨0x25, 0x1A, 0x33, true⟩),
    (0x8F36A581, .smulh ⟨0x25, 0x1A, 0x33, true⟩),
    (0x9336A581, .smulhu ⟨0x25, 0x1A, 0x33, true⟩),
    (0x9736A581, .sand ⟨0x25, 0x1A, 0x33, true⟩),
    (0x9B36A581, .sor ⟨0x25, 0x1A, 0x33, true⟩),
    (0x9F36A581, .sxor ⟨0x25, 0x1A, 0x33, true⟩),
    (0xA336A581, .sshl ⟨0x25, 0x1A, 0x33, true⟩),
    (0xA736A581, .sshr ⟨0x25, 0x1A, 0x33, true⟩),
    (0xAB36A581, .ssar ⟨0x25, 0x1A, 0x33, true⟩),
    (0xAF36A581, .smin ⟨0x25, 0x1A, 0x33, true⟩),
    (0xB336A581, .smax ⟨0x25, 0x1A, 0x33, true⟩),
    (0xB736A581, .sminu ⟨0x25, 0x1A, 0x33, true⟩),
    (0xBB36A581, .smaxu ⟨0x25, 0x1A, 0x33, true⟩),
    (0xBF36A581, .sseq ⟨0x25, 0x1A, 0x33, true⟩),
    (0xC336A581, .ssne ⟨0x25, 0x1A, 0x33, true⟩),
    (0xC736A581, .sslt ⟨0x25, 0x1A, 0x33, true⟩),
    (0xCB36A581, .ssltu ⟨0x25, 0x1A, 0x33, true⟩),
    (0xCF36A581, .ssle ⟨0x25, 0x1A, 0x33, true⟩),
    (0xD336A581, .ssleu ⟨0x25, 0x1A, 0x33, true⟩),
    (0xD406A581, .sclz ⟨0x25, 0x1A, true⟩),
    (0xD806A581, .spopc ⟨0x25, 0x1A, true⟩),
    (0xC6A583, .saddi ⟨0x25, 0x1A, 0xC, none⟩)] : List (Nat × Instr)), decodeTableWord 32 p.1 = some p.2 := by decide +kernel

/-- Words with each operand field at a value of its own, from the fixed bits and the field places of the encoding tables (R53 to R67). -/
theorem test_decode_scalar_2 : ∀ p ∈ ([
    (0xC6A585, .sandi ⟨0x25, 0x1A, 0xC, none⟩),
    (0xC6A587, .sori ⟨0x25, 0x1A, 0xC, none⟩),
    (0xC6A589, .sxori ⟨0x25, 0x1A, 0xC, none⟩),
    (0xC6A58B, .sshli ⟨0x25, 0x1A, 0xC, none⟩),
    (0xC6A58D, .sshri ⟨0x25, 0x1A, 0xC, none⟩),
    (0x4C6A58D, .sshriA ⟨0x25, 0x1A, 0x4C, none⟩),
    (0xC0258F, .smovi ⟨0x25, 0xC, none⟩),
    (0xC6A591, .smovhi ⟨0x25, 0x1A, 0xC, none⟩),
    (0xB002593, .csrr ⟨0x25, 0xB0⟩),
    (0xB068095, .csrw ⟨0x1A, 0xB0⟩),
    (0xC6A597, .sslti ⟨0x25, 0x1A, 0xC, none⟩)] : List (Nat × Instr)), decodeTableWord 32 p.1 = some p.2 := by decide +kernel

/-- Words with each operand field at a value of its own, from the fixed bits and the field places of the encoding tables (R53 to R67). -/
theorem test_decode_fabric : ∀ p ∈ ([
    (0x336A599, .put ⟨0x25, 0x1A, 0x33⟩),
    (0x736A599, .get ⟨0x25, 0x1A, 0x33⟩),
    (0xB36A599, .ratom ⟨0x25, 0x1A, 0x33⟩),
    (0xF36A599, .rednet ⟨0x25, 0x1A, 0x33⟩)] : List (Nat × Instr)), decodeTableWord 32 p.1 = some p.2 := by decide +kernel

/-- Words with each operand field at a value of its own, from the fixed bits and the field places of the encoding tables (R53 to R67). -/
theorem test_decode_mem_1 : ∀ p ∈ ([
    (0x827545A1, .ldB8 ⟨0x45, 0x2A, 0x13, true, none, none⟩),
    (0x827545A3, .ldS8 ⟨0x45, 0x2A, 0x13, true, none, none⟩),
    (0x827545A5, .ldB16 ⟨0x45, 0x2A, 0x13, true, none, none⟩),
    (0x827545A7, .ldS16 ⟨0x45, 0x2A, 0x13, true, none, none⟩),
    (0x827545A9, .ldB32 ⟨0x45, 0x2A, 0x13, true, none, none⟩),
    (0x827545AB, .ldB64 ⟨0x45, 0x2A, 0x13, true, none, none⟩),
    (0x827545AD, .ldB128 ⟨0x45, 0x2A, 0x13, true, none, none⟩),
    (0x827545AF, .stB8 ⟨0x45, 0x2A, 0x13, true, none, none⟩),
    (0x827545B1, .stB16 ⟨0x45, 0x2A, 0x13, true, none, none⟩),
    (0x827545B3, .stB32 ⟨0x45, 0x2A, 0x13, true, none, none⟩),
    (0x827545B5, .stB64 ⟨0x45, 0x2A, 0x13, true, none, none⟩),
    (0x827545B7, .stB128 ⟨0x45, 0x2A, 0x13, true, none, none⟩),
    (0x827545B9, .stN4 ⟨0x45, 0x2A, 0x13, true, none, none⟩),
    (0x827545BB, .stN6 ⟨0x45, 0x2A, 0x13, true, none, none⟩),
    (0xA27545BD, .ldAcqB32 ⟨0x45, 0x2A, 0x13, 0x2, true, none, none⟩),
    (0xA27545BF, .ldAcqB64 ⟨0x45, 0x2A, 0x13, 0x2, true, none, none⟩),
    (0xA27545C1, .stRelB32 ⟨0x45, 0x2A, 0x13, 0x2, true, none, none⟩),
    (0xA27545C3, .stRelB64 ⟨0x45, 0x2A, 0x13, 0x2, true, none, none⟩),
    (0x727545C5, .atomB32 ⟨0x45, 0x2A, 0x13, 0x7, none, none⟩),
    (0x727545C7, .atomB64 ⟨0x45, 0x2A, 0x13, 0x7, none, none⟩),
    (0x927500C9, .pf ⟨0x2A, 0x13, 0x1, true, none, none⟩),
    (0xD27545CB, .spldB8 ⟨0x45, 0x2A, 0x13, 0x5, true, none, none⟩),
    (0xD27545CD, .spldB16 ⟨0x45, 0x2A, 0x13, 0x5, true, none, none⟩),
    (0xD27545CF, .spldB32 ⟨0x45, 0x2A, 0x13, 0x5, true, none, none⟩)] : List (Nat × Instr)), decodeTableWord 32 p.1 = some p.2 := by decide +kernel

/-- Words with each operand field at a value of its own, from the fixed bits and the field places of the encoding tables (R53 to R67). -/
theorem test_decode_mem_2 : ∀ p ∈ ([
    (0xD27545D1, .spldB64 ⟨0x45, 0x2A, 0x13, 0x5, true, none, none⟩),
    (0xD27545D3, .spldB128 ⟨0x45, 0x2A, 0x13, 0x5, true, none, none⟩),
    (0xD27545D5, .spstB8 ⟨0x45, 0x2A, 0x13, 0x5, true, none, none⟩),
    (0xD27545D7, .spstB16 ⟨0x45, 0x2A, 0x13, 0x5, true, none, none⟩),
    (0xD27545D9, .spstB32 ⟨0x45, 0x2A, 0x13, 0x5, true, none, none⟩),
    (0xD27545DB, .spstB64 ⟨0x45, 0x2A, 0x13, 0x5, true, none, none⟩),
    (0xD27545DD, .spstB128 ⟨0x45, 0x2A, 0x13, 0x5, true, none, none⟩),
    (0xD27545DF, .spstN4 ⟨0x45, 0x2A, 0x13, 0x5, true, none, none⟩),
    (0xD27545E1, .spstN6 ⟨0x45, 0x2A, 0x13, 0x5, true, none, none⟩),
    (0x1545E3, .stimg ⟨0x45, 0x2A, none⟩),
    (0x1545E5, .ldimg ⟨0x45, 0x2A, none⟩),
    (0x1525E7, .sld ⟨0x25, 0x2A, none⟩),
    (0x1525E9, .sst ⟨0x25, 0x2A, none⟩)] : List (Nat × Instr)), decodeTableWord 32 p.1 = some p.2 := by decide +kernel

/-- Words with each operand field at a value of its own, from the fixed bits and the field places of the encoding tables (R53 to R67). -/
theorem test_decode_branch : ∀ p ∈ ([
    (0x123445EB, .br ⟨0x5, true, false, 0x1234⟩),
    (0x123465ED, .brs ⟨0x25, true, false, 0x1234⟩),
    (0x123425EF, .call ⟨0x25, 0x1234⟩),
    (0x123425F1, .loop ⟨0x25, 0x1234⟩)] : List (Nat × Instr)), decodeTableWord 32 p.1 = some p.2 := by decide +kernel

/-- Words with each operand field at a value of its own, from the fixed bits and the field places of the encoding tables (R53 to R67). -/
theorem test_decode_control : ∀ p ∈ ([
    (0xF3, .nop),
    (0x40025F3, .jmpx ⟨0x25⟩),
    (0x80025F3, .ret ⟨0x25⟩),
    (0xC0000F3, .exit),
    (0x1336A5F3, .trap ⟨0x25, 0x1A, 0x33⟩),
    (0x140000F3, .tret),
    (0x140001F3, .tretSkip),
    (0x140682F3, .tretJmp ⟨0x1A⟩),
    (0x1806A5F3, .join ⟨0x25, 0x1A⟩),
    (0x1C06A5F3, .leave ⟨0x25, 0x1A⟩),
    (0x200001F3, .fenceLd),
    (0x200002F3, .fenceSt),
    (0x200003F3, .fenceAll),
    (0x2406A5F3, .lookup ⟨0x25, 0x1A⟩),
    (0x2806A5F3, .tagset ⟨0x25, 0x1A⟩),
    (0x2C0025F3, .tagclr ⟨0x25⟩),
    (0x3006A5F3, .lnclr ⟨0x25, 0x1A⟩),
    (0x3406A5F3, .lnset ⟨0x25, 0x1A⟩)] : List (Nat × Instr)), decodeTableWord 32 p.1 = some p.2 := by decide +kernel

/-- Words with each operand field at a value of its own, from the fixed bits and the field places of the encoding tables (R53 to R67). -/
theorem test_decode_barrier : ∀ p ∈ ([
    (0x6A5F5, .barinit ⟨0x25, 0x1A⟩),
    (0x16A5F5, .barinitCoh ⟨0x25, 0x1A⟩),
    (0x406A5F5, .arrive ⟨0x25, 0x1A⟩),
    (0x736A5F5, .arriveN ⟨0x25, 0x1A, 0x33⟩),
    (0x806A5F5, .expect ⟨0x25, 0x1A⟩),
    (0xC06A5F5, .waitb ⟨0x25, 0x1A⟩),
    (0x1336A5F5, .barq ⟨0x25, 0x1A, 0x33⟩),
    (0x1406A5F5, .superstep ⟨0x25, 0x1A⟩),
    (0x180002F5, .phaseRel ⟨0x2⟩),
    (0x1C0002F5, .phaseAcq ⟨0x2⟩)] : List (Nat × Instr)), decodeTableWord 32 p.1 = some p.2 := by decide +kernel

/-- Words with each operand field at a value of its own, from the fixed bits and the field places of the encoding tables (R53 to R67). -/
theorem test_decode_matrix : ∀ p ∈ ([
    (0x33689F7, .tcfg ⟨0x9, 0x1A, 0x33⟩),
    (0x73689F7, .tld ⟨0x9, 0x1A, 0x33⟩),
    (0xB3689F7, .tst ⟨0x9, 0x1A, 0x33⟩),
    (0xC528EF7, .mma ⟨0x6, true, false, 0xA, 0x5⟩),
    (0x10528EF7, .mmas ⟨0x6, true, false, 0xA, 0x5⟩),
    (0x14528EF7, .mmag ⟨0x6, true, false, 0xA, 0x5⟩),
    (0x180006F7, .aclr ⟨0x6⟩),
    (0x1C26A6F7, .adrainSp ⟨0x6, true, 0x1A, 0x2⟩),
    (0x1C26AEF7, .adrainG ⟨0x6, true, 0x1A, 0x2⟩),
    (0x1C2016F7, .adrainV ⟨0x6, 0x2⟩)] : List (Nat × Instr)), decodeTableWord 32 p.1 = some p.2 := by decide +kernel

/-- Words with each operand field at a value of its own, from the fixed bits and the field places of the encoding tables (R53 to R67). -/
theorem test_decode_sequencer : ∀ p ∈ ([
    (0x336A5F9, .forkM ⟨0x25, 0x1A, 0x33⟩),
    (0x736A5F9, .forkC ⟨0x25, 0x1A, 0x33⟩),
    (0xB36A5F9, .forkMc ⟨0x25, 0x1A, 0x33⟩),
    (0xC06A5F9, .rdvz ⟨0x25, 0x1A⟩),
    (0x100000F9, .seqend),
    (0x14068BF9, .shld ⟨0xB, 0x1A⟩),
    (0x1B31CBF9, .shset ⟨0xB, 0x7, 0x33⟩),
    (0x1F36A5F9, .copy ⟨0x25, 0x1A, 0x33⟩),
    (0x2336A5F9, .gather ⟨0x25, 0x1A, 0x33⟩),
    (0x2736A5F9, .scatter ⟨0x25, 0x1A, 0x33⟩),
    (0x2B36A5F9, .mcast ⟨0x25, 0x1A, 0x33⟩)] : List (Nat × Instr)), decodeTableWord 32 p.1 = some p.2 := by decide +kernel

/-- Words with each operand field at a value of its own, from the fixed bits and the field places of the encoding tables (R53 to R67). -/
theorem test_decode_pages : ∀ p ∈ ([
    (0x336A5FB, .kvgather ⟨0x25, 0x1A, 0x33⟩),
    (0x736A5FB, .kvappend ⟨0x25, 0x1A, 0x33⟩),
    (0xB36A5FB, .pgreq ⟨0x25, 0x1A, 0x33⟩)] : List (Nat × Instr)), decodeTableWord 32 p.1 = some p.2 := by decide +kernel

/-- Words with each operand field at a value of its own, from the fixed bits and the field places of the encoding tables (R53 to R67). -/
theorem test_decode_scheduler : ∀ p ∈ ([
    (0x6A5FD, .sqadm ⟨0x25, 0x1A⟩),
    (0x736A5FD, .tokfb ⟨0x25, 0x1A, 0x33⟩),
    (0xB36A5FD, .seqret ⟨0x25, 0x1A, 0x33⟩),
    (0xF36A5FD, .launch ⟨0x25, 0x1A, 0x33⟩)] : List (Nat × Instr)), decodeTableWord 32 p.1 = some p.2 := by decide +kernel

/-- The worked encodings of the spec with a PFX or LIM word: FADD.F32 v1, v2, v3 | m3.z, rn=rtz; SMOVI s5, 0x1234_5678; QUANT.E4M3 v10, v11, v12;
FFMA.F32 v4, v5, v6, v7. And SEL and IMAD with a PFX word, which they need (R136, R139). -/
theorem test_decode_groups : ∀ p ∈ ([
    (0x00C1014100200B9B, .faddF32 ⟨1, 2, 3, false, false, some ⟨0, true, 0, 1, 3⟩⟩),
    (0x0780058F1234569D, .smovi ⟨5, 0x078, some 0x123456⟩),
    (0x03058A5B00C0309B, .quant ⟨10, 11, 12, false, false, some ⟨3, false, 0, 6, 0⟩⟩),
    (0x818284470001F09B, .ffmaF32Vc ⟨4, 5, 6, false, false, some ⟨0, false, 7, 6, 0⟩⟩),
    (0x018284190080309B, .sel ⟨4, 5, 6, false, false, some ⟨2, false, 0, 6, 0⟩⟩),
    (0x818284090001F09B, .imadI32Vc ⟨4, 5, 6, false, false, some ⟨0, false, 7, 6, 0⟩⟩)] : List (Nat × Instr)),
    decodeTableWord 64 p.1 = some p.2 := by decide +kernel

/-- The other worked encodings of chapters 03 to 08, 14 and 17. -/
theorem test_decode_examples : ∀ p ∈ ([
    (0x24A2, .iaddI32_16 ⟨5, 9⟩), (0xB12207CF, .spldB32 ⟨7, 4, 9, 3, true, none, none⟩), (0x000609F1, .loop ⟨9, 6⟩),
    (0x000383EB, .br ⟨3, false, true, 3⟩), (0x10E0, .mov_16 ⟨7, 4⟩), (0x0420, .nop_16 ⟨1, 1⟩), (0x000000F3, .nop),
    (0x1801C5F3, .join ⟨5, 7⟩), (0x000208E3, .stimg ⟨8, 4, none⟩), (0x000209E5, .ldimg ⟨9, 4, none⟩), (0x00510381, .sadd ⟨3, 4, 5, false⟩),
    (0x84510381, .ssub ⟨3, 4, 5, true⟩), (0x0A014591, .smovhi ⟨5, 5, 0x0A0, none⟩), (0x01018275, .mand ⟨2, 3, 4, none⟩),
    (0x08000775, .mpopc ⟨7, 0, none⟩), (0x01018095, .csrw ⟨6, 0x010⟩), (0x01828447, .ffmaF32 ⟨4, 5, 6, false, false, none⟩),
    (0x08020571, .sscan ⟨5, 4, 0, 2, false, none⟩), (0x88020571, .sscanEx ⟨5, 4, 0, 2, false, none⟩)] : List (Nat × Instr)),
    decodeTableWord 32 p.1 = some p.2 := by decide +kernel

theorem test_decode_examples_2 : ∀ p ∈ ([
    (0x3001C6F3, .lnclr ⟨6, 7⟩), (0x80A203DF, .spstN4 ⟨3, 4, 5, 0, true, none, none⟩), (0x240083F3, .lookup ⟨3, 2⟩), (0x280102F3, .tagset ⟨2, 4⟩),
    (0x808103A7, .ldS16 ⟨3, 2, 4, true, none, none⟩), (0x204406C5, .atomB32 ⟨6, 8, 2, 2, none, none⟩), (0x200001F3, .fenceLd),
    (0x200002F3, .fenceSt), (0x200003F3, .fenceAll), (0x000185FD, .sqadm ⟨5, 6⟩), (0x100123F3, .trap ⟨35, 4, 0⟩), (0x140001F3, .tretSkip),
    (0x0C308095, .mxfaultWrite ⟨2⟩), (0x0C808095, .cpfaultWrite ⟨2⟩), (0x0E008095, .neterrWrite ⟨2⟩), (0x0C300293, .mxglostRead ⟨2, false⟩),
    (0x0C400293, .mxglostRead ⟨2, true⟩)] : List (Nat × Instr)), decodeTableWord 32 p.1 = some p.2 := by decide +kernel

/-- Ill-formed groups by the reasons of R65: an undefined opcode, a reserved parcel, a PFX before an instruction that takes none, RM 0b111, a format
code, a field that must be 0, an instruction the program does not execute, m0 as a destination. -/
theorem test_decode_refuses :
    decode .vector (parcelsOf 0x000000FF) = .bad 0 0xFF ∧ decode .vector (parcelsOf 0x8000000F) = .bad 1 0x8000000F
    ∧ decode .vector [0x8002] = .bad 2 0x8002 ∧ decode .vector [0] = .bad 2 0
    ∧ decode .vector (parcelsOf 0x0000309B ++ parcelsOf 0x00510381) = .bad 3 0x00510381
    ∧ decode .vector (parcelsOf 0x0000389B ++ parcelsOf 0x00C10141) = .bad 4 0x00C10141
    ∧ decode .vector (parcelsOf 0x03810155) = .bad 5 0x03810155
    ∧ decode .vector (parcelsOf 0x4001011D) = .bad 6 0x4001011D ∧ decode .copy (parcelsOf 0x00C10141) = .bad 7 0x00C10141
    ∧ decode .vector (parcelsOf 0x00C1001F) = .bad 9 0x00C1001F ∧ decode .vector [0x0141] = .more := by decide +kernel


/-- A decidable condition, decided by the kernel. -/
theorem dk {p : Prop} (h : p := by decide +kernel) : p := h
/-- The witnesses' image: every resource of a crew, and programs of all three kinds. -/
def img : Image :=
  { Image.six .vector with regs := 16, textLen := 12, matOff := 512, matLen := 12, copyOff := 768, copyLen := 12, tilekib := 64, scrlines := 64 }
def wp : Warp := Warp.start img
/-- The first warp with scalar registers set. -/
def wps (l : List (Nat × Nat)) : Warp := { wp with sregs := l.foldl (fun r p => modAt r p.1 (fun _ => BitVec.ofNat 64 p.2)) wp.sregs }
def kr : Crew := Crew.start img 0 0 0 1 0 1 0 false 0 0 0 none
/-- A crew of one warp. -/
def kw (w : Warp) : Crew := { kr with warps := [w] }
def ks (l : List (Nat × Nat)) : Crew := kw (wps l)
/-- A package with virtual address 0 of context 1 mapped, and one crew, whose warp issues next. -/
def base : State := State.reset.withProgram .vector 0 0
def vs (k : Crew) : State := { base with crews := [k] }
def ev (k : Crew) (i : Instr) : Env := ⟨.warp 0 0, .vector, 0, 0, k, BitVec.allOnes 64, 0, hdrOf i⟩
def vvw (w : Warp) : VEnv := ⟨w, BitVec.allOnes 64, 0, 0, false, false, 0⟩
def vv : VEnv := vvw wp
/-- A sequencer context of that warp, which issues next. -/
def cx (m : Bool) (l : List (Nat × Nat)) : SCtx :=
  { matrix := m, st := .running, wasTrapped := false, joined := false, crew := 0, warp := 0, mask := BitVec.allOnes 64, rid := 0, pc := 0
    sregs := (wps l).sregs, spend := 0, spoison := 0, loops := [], rmode := 0, ftz := 0, wait := none, mxbar := 0, mxshape := 0, mxgang := 0
    mxfault := 0, mxglost := 0, mxbad := none, forkOp := 0, cause := 0, tpc := 0, info := 0 }
def cs (k : Crew) (c : SCtx) : State := { vs k with ctxs := [c], cur := some (.ctx 0) }
def ec (m : Bool) (k : Crew) (i : Instr) : Env := ⟨.ctx 0, if m then .matrix else .copy, 0, 0, k, 1, 0, hdrOf i⟩
/-- The conclusion that a statement gives of a concrete state that meets its hypotheses. -/
def Next (i : Instr) (s : State) : Prop := ∃ t, exec i s = .next t

def readB (w : Warp) (xs : List Src) : Bool :=
  xs.all (fun x => (lanesOf x.lanes).all (fun l => (w.lane x.reg l).f && !(w.lane x.reg l).pend && !(w.lane x.reg l).poison))
def freeB (w : Warp) (rs : List Nat) (m : W64) : Bool := rs.all (fun r => (lanesOf m).all (fun l => !(w.lane r l).pend))
theorem rdy {w : Warp} {xs : List Src} (h : readB w xs = true := by decide +kernel) : Readable w xs := by
  intro x hx l hl
  have := List.all_eq_true.mp (List.all_eq_true.mp h x hx) l hl
  simp only [Bool.and_eq_true, Bool.not_eq_true'] at this
  exact ⟨this.1.1, this.1.2, this.2⟩
theorem fre {w : Warp} {rs : List Nat} {m : W64} (h : freeB w rs m = true := by decide +kernel) : FreeLanes w rs m := by
  intro r hr l hl
  simpa using List.all_eq_true.mp (List.all_eq_true.mp h r hr) l hl
theorem inr {e : Env} {rs : List Nat} (h : rs.all (fun r => decide (r < e.k.image.regs)) = true := by decide +kernel) : InRange e rs := by
  intro r hr
  simpa using List.all_eq_true.mp h r hr
theorem lry {s : State} {e : Env} {v : VEnv} {d : List Nat} {xs : List Src} (h1 : venv s e = .ok v := by rfl)
    (h2 : ((d ++ xs.map Src.reg).all (fun r => decide (r < e.k.image.regs)) && readB v.w xs && freeB v.w d (v.act ||| v.zl)) = true := by
      decide +kernel) : LaneReady s e v d xs := by
  simp only [Bool.and_eq_true] at h2
  exact ⟨h1, inr h2.1.1, rdy h2.1.2, fre h2.2⟩
theorem iv {k : Crew} {i : Instr} (h : (vs k).env? (.warp 0 0) (hdrOf i) = some (ev k i) := by rfl)
    (ht : i.takenBy .vector = true := by decide +kernel) : Issues (vs k) i (ev k i) := ⟨rfl, h, ht⟩
theorem ix {m : Bool} {k : Crew} {c : SCtx} {i : Instr} (h : (cs k c).env? (.ctx 0) (hdrOf i) = some (ec m k i) := by rfl)
    (ht : i.takenBy (if m then .matrix else .copy) = true := by decide +kernel) : Issues (cs k c) i (ec m k i) := ⟨rfl, h, ht⟩
theorem sr {s : State} {e : Env} {r : Nat}
    (h : r = 0 ∨ ((s.scal e.who).2.1.getLsbD r = false ∧ (s.scal e.who).2.2.getLsbD r = false) := by decide +kernel) : SReady s e r := h
theorem sf {s : State} {e : Env} {r : Nat} (h : r = 0 ∨ (s.scal e.who).2.1.getLsbD r = false := by decide +kernel) : SFree s e r := h
theorem mr {w : Warp} {r : Nat} (h : r = 0 ∨ w.mpoison.getLsbD r = false := by decide +kernel) : MReady w r := h
/-- The environment under a mask register that is 0: no lane is active. -/
def v0 (m : Nat) : VEnv := ⟨wp, 0, 0, 0, false, false, m⟩
theorem iw {s : State} (k : Crew) {i : Instr} (hc : s.cur = some (.warp 0 0) := by rfl) (h : s.env? (.warp 0 0) (hdrOf i) = some (ev k i) := by rfl)
    (ht : i.takenBy .vector = true := by decide +kernel) : Issues s i (ev k i) := ⟨hc, h, ht⟩
theorem iy {s : State} (m : Bool) (k : Crew) {i : Instr} (hc : s.cur = some (.ctx 0) := by rfl) (h : s.env? (.ctx 0) (hdrOf i) = some (ec m k i) := by rfl)
    (ht : i.takenBy (if m then .matrix else .copy) = true := by decide +kernel) : Issues s i (ec m k i) := ⟨hc, h, ht⟩
/-- Operations in flight of that warp: a load and a store. -/
def opL : Op := { (ev kr .nop).newOp base 1 with isLoad := true, fills := [⟨0, .unit⟩] }
def opS : Op := { (ev kr .nop).newOp base 1 with cells := [⟨1, 64, 4, 5, ones 4⟩] }
theorem plf {s : State} {e : Env} {sum : Nat → Nat} {n kind : Nat} {ls : List Nat} {f : Nat → Spot} (h : ls.all (fun i =>
      match placeOf e.k (sum i) n, f i with
      | .spad a, .spad b => decide (a = b)
      | .mem va, .mem key => (match s.xlate e.k.ctxid va n kind with | .ok q => decide (q = key) | .error _ => false)
      | _, _ => false) = true := by decide +kernel) : Places s e sum n kind ls f := by
  intro i hi
  have := List.all_eq_true.mp h i hi
  split at this
  · next a b hp hf => exact .inl ⟨a, hp, by rw [hf, of_decide_eq_true this]⟩
  · next va key hp hf =>
    split at this
    · next q hx => exact .inr ⟨va, key, hp, by rw [hx, of_decide_eq_true this], hf⟩
    · exact absurd this (by decide)
  · exact absurd this (by decide)
theorem lns {k : Crew} {ls : List Nat} {f : Nat → Spot} {n : Nat} (h : ls.all (fun j =>
      match f j with | .spad off => k.linesFull off n | .mem _ => true) = true := by decide +kernel) :
    ∀ j ∈ ls, ∀ off, f j = .spad off → k.linesFull off n = true := by
  intro j hj off hf
  simpa [hf] using List.all_eq_true.mp h j hj

/-- The aperture's address in s5. -/
def kap : Crew := ks [(5, 0xFFFFFFFF00000040)]
def vap : VEnv := vvw (wps [(5, 0xFFFFFFFF00000040)])
/-- Warps within `n` loops. -/
def wl (n : Nat) (l : List (Nat × Nat)) : Warp := { wps l with loops := List.replicate n ⟨0x20, 0x30, 3, BitVec.allOnes 64, 0⟩ }
/-- A warp with memberships of `n` cohorts, keys 1 to n, and the cluster's table with them. -/
def wc (n : Nat) (l : List (Nat × Nat)) : Warp :=
  { wps l with cohorts := (List.range n).map (fun i => ⟨i, BitVec.ofNat 32 (i + 1), BitVec.allOnes 64, 0, 0⟩) }
def vc (n : Nat) (l : List (Nat × Nat)) : State :=
  { vs (kw (wc n l)) with cohorts := (List.range n).map (fun i => ⟨0, 0, i, BitVec.ofNat 32 (i + 1), 1, 64, none⟩) }
theorem bat {s : State} {e : Env} {r : BitVec 6} {off : Nat} (h1 : e.k.z ≠ 0 := by decide +kernel) (h2 : SReady s e r.toNat := by exact sr)
    (h3 : off = spAddr e.k.z (s.sreg e.who r.toNat).toNat 0 32 := by decide +kernel) (h4 : e.k.spBad off 32 = false := by decide +kernel) :
    BarAt s e r off := ⟨h1, h2, h3, h4⟩
/-- A crew of no scratchpad. -/
def kz : Crew := { kr with image := { img with scrlines := 0, matLen := 0, copyLen := 0, acc := 0 } }
/-- A BF16 tile of one element. -/
def tdw : Nat := 2 ^ 63 + 2 ^ 58
/-- A package whose die 0 has a pool 0 of 16-token pages of one 32-wide BF16 head, 20 HBM4 frames and 4 of tier 2, and in slot 0 the live
sequence 1 of context 1, whose page 0 lies in frame 5. -/
def feA : Nat := feNew 1 1 0 0 noFrame 0
def recA : Nat := 0x8000 * 2 ^ 896 + 16 * 2 ^ 552 + 8 * 2 ^ 528 + 1 * 2 ^ 416 + 3 * 2 ^ 400
def dieA : Die := { Die.reset with
  pe := ⟨8, 4, 12, [⟨0, 0, 20, 0x10000, 0x200000⟩, ⟨2, 0, 4, 0x20000, 0x200000⟩], (BitVec.ofNat 64 (2 ^ 55 + 2 ^ 44 + 4 * 2 ^ 38)) :: List.replicate 15 0⟩
  sched := { Sched.reset with recbase := 0x40000, groups := BitVec.ofNat 512 (1 * 2 ^ 12) :: List.replicate 15 0 } }
def kvm (s : State) : State :=
  let s1 : State := { s with dies := [dieA, Die.reset] }
  (((s1.wr 0x40000 128 recA).wr 0x8000 16 4).wr 0x8010 16 (5 + noFrame * 2 ^ 32 + noFrame * 2 ^ 64 + noFrame * 2 ^ 96)).wr (0x10000 + 32 * 5) 32 feA
def kvs (k : Crew) (c : SCtx) : State := kvm (cs k c)
/-- A copy context of one lane. -/
def cc (l : List (Nat × Nat)) : SCtx := { cx false l with mask := 1 }
theorem ik {k : Crew} {c : SCtx} {i : Instr} (h : (kvs k c).env? (.ctx 0) (hdrOf i) = some (ec false k i) := by rfl)
    (ht : i.takenBy .copy = true := by decide +kernel) : Issues (kvs k c) i (ec false k i) := ⟨rfl, h, ht⟩
def vl : State := { vs kr with ops := [opL] }
def vst : State := { vs kr with ops := [opS] }
/-- Operations in flight: a lane ready to fill, one that reads memory, the same behind a store to those bytes in part, a scalar load, a releasing
store behind a load, an atomic of two lanes on one word. -/
def op0 : Op := (ev kr .nop).newOp base 1
def opA1 : Op := { op0 with isLoad := true, fills := [⟨0, .ready [(1, Lane.full 5 false)]⟩] }
def vA1 : State := { vs kr with ops := [opA1] }
def opA2 : Op := { op0 with isLoad := true, fills := [⟨0, .mem 0x40 4 false 1⟩] }
def vA2 : State := { vs kr with ops := [opA2] }
def opA3 : Op := { opA2 with id := 1 }
def vA3 : State := { vs kr with ops := [{ op0 with acq := true, isLoad := true, fills := [⟨0, .mem 0x80 4 false 2⟩] }, opA3] }
def opA4 : Op := { op0 with isLoad := true, sload := some ⟨5, 0x40, none⟩ }
def vA4 : State := { vs kr with ops := [opA4] }
def opA5 : Op := { opS with id := 1, rel := true }
def vA5 : State := { vs kr with ops := [{ opL with acq := true }, opA5] }
def opA6 : Op := { op0 with aop := 2, awidth := 32, fills := [⟨0, .unit⟩, ⟨1, .unit⟩], atoms := [⟨0, 0x40, 0, 5⟩, ⟨1, 0x40, 0, 6⟩] }
def vA6 : State := { vs kr with ops := [opA6] }
/-- A serving package with a job. -/
def ready (s : State) : State := { s with boot := { s.boot with stat := 4 } }
def lau (p placed : Nat) : Launch := ⟨BitVec.ofNat 512 p, img, 2, placed, 5, false, false, false, [], []⟩
def jobA (k : JobKind) : Job := ⟨3, none, 0, 1, 0, 0, false, 0, none, none, false, k, []⟩
def vj (k : JobKind) : State := { ready (vs kr) with jobs := [jobA k] }
/-- A crew without threads. -/
def kend : Crew := kw { wp with frontier := [] }
/-- A child LAUNCH packet of 256 crews. -/
def childP : Nat := 0x100 * 2 ^ 448 + 256 * 2 ^ 352 + 1
/-- A serving package with queue 2 of context 1, whose ring at 0x1000 holds one packet. -/
def que (base : Nat) : Queue := ⟨2, .active, false, base, 4, 0, 1, 0, 0, 1, ⟨0, 2 ^ 32, true, true, true⟩, [], []⟩
def vqu (p now : Nat) : State := ({ ready (vs kr) with queues := [que 0x1000], dtime := now } : State).wr 0x1000 64 p
theorem ok_of {ε α : Type} {x : Except ε α} (h : (match x with | .ok _ => true | .error _ => false) = true) : ∃ t, x = .ok t := by
  cases x <;> simp_all
theorem error_of {ε α : Type} {x : Except ε α} (h : (match x with | .ok _ => false | .error _ => true) = true) : ∃ t, x = .error t := by
  cases x <;> simp_all
theorem useOk {ε α : Type} {x : Except ε α} {P : Prop} (f : ∀ a, x = .ok a → P) (h : x.isOk = true := by decide +kernel) : P := by
  cases x with
  | ok a => exact f a rfl
  | error _ => cases h
theorem useErr {ε α : Type} {x : Except ε α} {P : Prop} (f : ∀ a, x = .error a → P) (h : x.isOk = false := by decide +kernel) : P := by
  cases x with
  | ok _ => cases h
  | error a => exact f a rfl
theorem none_of {α : Type} {x : Option α} (h : x.isSome = false) : x = none := by cases x with | none => rfl | some _ => cases h
theorem some_of {α : Type} {x : Option α} (h : x.isSome = true) : ∃ t, x = some t := Option.isSome_iff_exists.mp h

/-- A PFX word before an instruction that does not round, every field free. -/
def pf0 : Pfx := ⟨0, false, 0, 6, 0⟩
/-- Ill-formed terms, one for each condition of `Instr.conds`, with the reason of R65 that each is refused with. -/
theorem test_refused_compact_and_lanes : ∀ p ∈ ([
    (.nop_16 ⟨1, 2⟩, 2), (.nop_16 ⟨0, 0⟩, 2), (.mov_16 ⟨3, 3⟩, 2), (.iaddI32 ⟨1, 2, 3, false, false, some { pf0 with rm := 0 }⟩, 6),
    (.iaddI32 ⟨1, 2, 3, false, false, some { pf0 with imx := 1 }⟩, 6), (.iaddI32 ⟨1, 2, 3, false, false, some { pf0 with vs3 := 1 }⟩, 6),
    (.imadI32Vc ⟨1, 2, 3, false, false, some { pf0 with imx := 1 }⟩, 6), (.sel ⟨1, 2, 3, false, false, some { pf0 with imx := 8 }⟩, 6),
    (.icmpI32 ⟨1, 6, 2, 3, false, false, none⟩, 1), (.icmpI32 ⟨0, 5, 2, 3, false, false, none⟩, 9), (.topk ⟨1, 2, 3, false, false, some { pf0 with imx := 65 }⟩, 6),
    (.topk ⟨1, 2, 3, false, false, some { pf0 with z := true }⟩, 6), (.faddF32 ⟨1, 2, 3, false, false, some { pf0 with rm := 7 }⟩, 4),
    (.faddF32 ⟨1, 2, 3, false, false, some { pf0 with imx := 1, rm := 0 }⟩, 6), (.ffmaF32Vc ⟨1, 2, 3, false, false, some { pf0 with imx := 1 }⟩, 6),
    (.fcmpF32 ⟨0, 5, 2, 3, false, false, none⟩, 9)] : List (Instr × Nat)), p.1.check = some p.2 := by decide +kernel
theorem test_refused_immediates : ∀ p ∈ ([
    (.iaddi ⟨1, 2, 0, false, some { pf0 with imx := 1 }, some 5⟩, 6), (.iaddi ⟨1, 2, 0x100, false, none, some 5⟩, 6), (.shli ⟨1, 2, 32, false, none, none⟩, 6),
    (.shri ⟨1, 2, 64, false, none, none⟩, 6), (.shri ⟨1, 2, 32, false, none, none⟩, 6), (.shriA ⟨1, 2, 31, false, none, none⟩, 6), (.icmpi ⟨1, 6, 2, 0, false, none, none⟩, 1),
    (.icmpi ⟨0, 5, 2, 0, false, none, none⟩, 9), (.saddi ⟨1, 2, 0x100, some 5⟩, 6), (.sshli ⟨1, 2, 64, none⟩, 6), (.sshri ⟨1, 2, 128, none⟩, 6), (.sshri ⟨1, 2, 64, none⟩, 6),
    (.sshriA ⟨1, 2, 63, none⟩, 6)] : List (Instr × Nat)), p.1.check = some p.2 := by decide +kernel
theorem test_refused_formats_and_groups : ∀ p ∈ ([
    (.cvt ⟨1, 2, 14, false, none⟩, 5), (.pack ⟨1, 2, 0, 0, false, none⟩, 5), (.pack ⟨1, 2, 11, 0, false, none⟩, 5), (.pack ⟨1, 2, 1, 2, false, none⟩, 6),
    (.quant ⟨1, 2, 3, false, false, some { pf0 with imx := 16 }⟩, 6), (.quant ⟨1, 2, 3, false, false, some { pf0 with imx := 8 }⟩, 5),
    (.shflIdx ⟨1, 2, 3, false, false, some { pf0 with imx := 6 }⟩, 6), (.red ⟨1, 2, 12, false, none⟩, 1), (.red ⟨1, 2, 7, false, some { pf0 with rm := 0 }⟩, 6),
    (.redw ⟨1, 2, 12, false, none⟩, 1), (.redw ⟨1, 2, 0, false, some { pf0 with z := true }⟩, 6), (.sscan ⟨1, 2, 12, 0, false, none⟩, 1),
    (.ballot ⟨1, 2, 0, false, some { pf0 with z := true }⟩, 6), (.ballotM ⟨0, 2, 0, false, none⟩, 9)] : List (Instr × Nat)), p.1.check = some p.2 := by
  decide +kernel
theorem test_refused_memory_and_control : ∀ p ∈ ([
    (.csrr ⟨1, 0xC3⟩, 1), (.csrr ⟨1, 0xC4⟩, 1), (.csrw ⟨1, 0xC3⟩, 1), (.csrw ⟨1, 0xC8⟩, 1), (.csrw ⟨1, 0xE0⟩, 1),
    (.ldB8 ⟨1, 2, 0, false, some { pf0 with vs3 := 1 }, none⟩, 6), (.ldB8 ⟨1, 2, 3, false, none, none⟩, 6), (.stB8 ⟨1, 2, 0, false, some { pf0 with z := true }, none⟩, 6),
    (.stB8 ⟨1, 2, 3, false, none, none⟩, 6), (.atomB32 ⟨1, 2, 3, 2, some { pf0 with rm := 0 }, none⟩, 6), (.pf ⟨1, 3, 0, false, none, none⟩, 6),
    (.pf ⟨1, 0, 3, true, none, none⟩, 6), (.pf ⟨1, 0, 0, true, some { pf0 with z := true }, none⟩, 6), (.loop ⟨1, 2⟩, 6), (.loop ⟨1, 32768⟩, 6),
    (.arriveN ⟨1, 2, 0⟩, 6), (.shset ⟨1, 10, 2⟩, 6)] : List (Instr × Nat)), p.1.check = some p.2 := by decide +kernel
/-- A crew whose vector registers hold a value in each lane. -/
def kl (l : List (Nat × (Nat → Nat))) : Crew :=
  kw { wp with regs := l.foldl (fun r p => modAt r p.1 (fun _ => (List.range 64).map (fun i => { Lane.launch with data := BitVec.ofNat 32 (p.2 i) }))) wp.regs }
/-- What an instruction leaves in lane `l` of a register and in a scalar register of the warp. -/
def vAfter (i : Instr) (s : State) (r l : Nat) : Option (Nat × Bool) :=
  match exec i s with | .next t => (t.warp? 0 0).map (fun w => ((w.lane r l).data.toNat, (w.lane r l).s)) | _ => none
def sAfter (i : Instr) (s : State) (r : Nat) : Option Nat := match exec i s with | .next t => some (t.sreg (.warp 0 0) r).toNat | _ => none
/-- The example after R41: CVT.BF16 of 0x3F88_4008, then CVT.E4M3. -/
theorem test_cvt_chain :
    vAfter (.cvt ⟨1, 2, 1, false, none⟩) (vs (kl [(2, fun _ => 0x3F884008)])) 1 0 = some (0x3F884000, true)
    ∧ vAfter (.cvt ⟨1, 2, 3, false, none⟩) (vs (kw { wp with regs := modAt wp.regs 2 (fun _ => List.replicate 64 { Lane.launch with data := 0x3F884000, s := true }) })) 1 0
      = some (0x3F8C0000, true) := by decide +kernel
/-- The example of VACS (chapter 06). -/
theorem test_vacs :
    vAfter (.vacsP16 ⟨1, 2, 3, false, false, none⟩) (vs (kl [(2, fun _ => 0x00070005), (3, fun _ => 2)])) 1 5 = some (0x00000007, false)
    ∧ vAfter (.vacsP16 ⟨1, 2, 3, false, false, none⟩) (vs (kl [(2, fun _ => 0x00070005), (3, fun _ => 3)])) 1 5 = some (0x00010007, false)
    ∧ vAfter (.vacsP16 ⟨1, 2, 3, false, false, none⟩) (vs (kl [(2, fun _ => 0xFFFE0001), (3, fun _ => 0x00050000)])) 1 5 = some (1, false) := by decide +kernel
/-- The example of SSCAN (chapter 06): lane 2 is outside the PFX mask, m2 holds lanes 0 and 4. -/
def ksc : Crew := kw { (kl [(4, fun i => i + 1)]).warps.headD wp with mregs := [0xFFFFFFFFFFFFFFFB, 0x11, 0, 0, 0, 0, 0] }
theorem test_sscan :
    (List.range 8).map (vAfter (.sscan ⟨5, 4, 0, 2, false, some ⟨0, false, 0, 6, 1⟩⟩) (vs ksc) 5)
      = [1, 3, 0, 7, 5, 11, 18, 26].map (fun x => some (x, false))
    ∧ (List.range 8).map (vAfter (.sscanEx ⟨6, 4, 0, 2, false, some ⟨0, false, 0, 6, 1⟩⟩) (vs ksc) 6)
      = [0, 1, 0, 3, 0, 5, 11, 18].map (fun x => some (x, false)) := by decide +kernel
/-- The example of SMOVHI (chapter 05). -/
theorem test_smovhi : sAfter (.smovi ⟨5, 0x078, some 0x123456⟩) (vs kr) 5 = some 0x12345678
    ∧ sAfter (.smovhi ⟨5, 5, 0x0A0, none⟩) (vs (ks [(5, 0x12345678)])) 5 = some 0xA012345678 := by decide +kernel
/-- The example after R167: the swizzle and the fold of two sums where Z is 5,120. -/
theorem test_swizzle : spAddr 5120 (0x1380 + 0x100) 1 4 = 0x90 ∧ spAddr 5120 (2 ^ 64 + 0x1380 - 0x1400) 1 4 = 0xBF0 := by decide +kernel
/-- The example of the TRAP instruction (chapter 17): all 64 threads enter the handler at TVEC, and TRAPCAUSE, TRAPINFO and TRAPPC read 13, 0x123
and 8. -/
def ktr : Crew := { kw { wp with frontier := wp.frontier.map (fun e => { e with pc := 0x08 }) } with tvec := 0x14 }
theorem test_trap : (match exec (.trap ⟨35, 4, 0⟩) (vs ktr) with
    | .next t => (t.warp? 0 0).map (fun w => (w.frontier.map (fun e => (e.pc.toNat, e.mask)), w.trapcause.toNat, w.trapinfo.toNat, w.trappc.toNat, w.tlen.toNat, w.hact))
    | _ => none) = some ([(0x14, BitVec.allOnes 64)], 13, 0x123, 8, 4, true) := by decide +kernel
/-- A step right after a fetch: IADD.I32 v1, v1, v3 on lanes that hold 0 leaves the PC past its word. -/
theorem test_step_fetches : (match step (State.reset.withFetchWord 32 0x00C10141) with
    | .next t => (t.warp? 0 0).map (fun w => w.frontier.map (fun e => e.pc.toNat)) | _ => none) = some [4] := by decide +kernel

/-- Each statement of this part, applied to concrete states: the proofs discharge every hypothesis of every clause there. -/
theorem wit_LaneInstructionsCompute (h : Obligations.LaneInstructionsCompute) :
    Next (.iaddI32 ⟨1, 2, 3, false, false, none⟩) (vs kr) ∧ Next (.imadI32Vc ⟨15, 2, 15, true, true, some ⟨0, true, 7, 6, 0⟩⟩) (vs kr)
    ∧ Next (.mov ⟨1, 2, false, none⟩) (vs kr) ∧ Next (.mov_16 ⟨1, 2⟩) (vs kr) ∧ Next (.cvt ⟨1, 2, 13, false, none⟩) (vs kr)
    ∧ Next (.quant ⟨1, 2, 3, false, false, some ⟨3, false, 0, 6, 0⟩⟩) (vs kr) ∧ Next (.red ⟨1, 2, 0, false, none⟩) (vs kr)
    ∧ Next (.shriA ⟨0, 15, 0x1F, true, none, none⟩) (vs kr) :=
  ⟨⟨_, h _ _ _ _ (.iaddI32 _) vv _ _ iv lry⟩, ⟨_, h _ _ _ _ (.imadI32Vc _ _ rfl) vv _ _ iv lry⟩,
   ⟨_, h _ _ _ _ (.mov _ (by decide)) vv _ _ iv lry⟩, ⟨_, h _ _ _ _ (.mov_16 _ (by decide)) vv _ _ iv lry⟩,
   ⟨_, h _ _ _ _ (.cvt _) vv _ _ iv lry⟩, ⟨_, h _ _ _ _ (.quant _ _ rfl) vv _ _ iv lry⟩, ⟨_, h _ _ _ _ (.red _) vv _ _ iv lry⟩,
   ⟨_, h _ _ _ _ (.shriA _) vv _ _ iv lry⟩⟩

theorem wit_MovesToSelfAndNops (h : Obligations.MovesToSelfAndNops) :
    Next .nop (vs kr) ∧ Next (.nop_16 ⟨1, 1⟩) (vs kr) ∧ Next (.mov ⟨15, 15, false, none⟩) (vs kr) :=
  ⟨⟨_, h.1 _ _ iv trivial⟩, ⟨_, h.2.1 _ _ _ iv trivial⟩, ⟨_, h.2.2 _ vv rfl _ _ iv ⟨rfl, inr, fre⟩⟩⟩

theorem wit_ProducersEmptyTheirLanes (h : Obligations.ProducersEmptyTheirLanes) :
    Next (.rcp ⟨1, 2, false, none⟩) (vs kr) ∧ Next (.fdivF32 ⟨1, 15, 3, true, false, none⟩) (vs kr) :=
  ⟨⟨_, h _ _ _ _ (.rcp _) vv _ _ iv lry⟩, ⟨_, h _ _ _ _ (.fdivF32 _) vv _ _ iv lry⟩⟩

theorem wit_MasksAndScalarResultsCompute (h : Obligations.MasksAndScalarResultsCompute) :
    Next (.icmpI32 ⟨7, 5, 2, 3, false, false, none⟩) (vs kr) ∧ Next (.mand ⟨1, 0, 7, none⟩) (vs kr) ∧ Next (.tstf ⟨1, 15, none⟩) (vs kr)
    ∧ Next (.redw ⟨63, 1, 0, false, none⟩) (vs kr) ∧ Next (.ballot ⟨0, 1, 31, false, none⟩) (vs kr) ∧ Next (.mpopc ⟨1, 7, none⟩) (vs kr)
    ∧ Next (.vtos ⟨1, 2, 3, false, none⟩) (vs (ks [(3, 63)])) ∧ Next (.vtos ⟨1, 2, 0, false, some ⟨0, false, 0, 6, 1⟩⟩) (vs kr)
    ∧ Next (.vtosFirst ⟨1, 2, false, none⟩) (vs kr) ∧ Next (.vtosFirst ⟨1, 2, false, some ⟨0, false, 0, 6, 7⟩⟩) (vs kr) :=
  let ⟨⟨a1, a2, a3⟩, b1, b2, b3, b4, b5, b6, b7⟩ := h
  ⟨⟨_, a1 _ _ _ _ (.icmpI32 _) (by decide) vv _ _ iv lry⟩,
   ⟨_, a2 _ _ _ _ (.mand _) (by decide) vv _ _ iv ⟨rfl, by simp only [MReady]; decide +kernel⟩⟩,
   ⟨_, a3 _ (by decide) vv _ _ iv ⟨rfl, inr⟩⟩, ⟨_, b1 _ vv _ _ iv ⟨lry, sf⟩⟩,
   ⟨_, b2 _ vv _ _ iv ⟨lry, sf⟩⟩,
   ⟨_, b3 _ vv _ _ iv ⟨rfl, mr, sf⟩⟩,
   ⟨_, b4 _ (vvw (wps [(3, 63)])) _ _ iv ⟨sr, sf, dk, lry⟩⟩,
   ⟨_, b5 _ (v0 1) _ _ iv ⟨sr, sf, dk, rfl, inr⟩⟩,
   ⟨_, b6 _ vv 0 _ _ iv ⟨sf, dk, lry⟩⟩,
   ⟨_, b7 _ (v0 7) dk _ _ iv ⟨rfl, sf, inr⟩⟩⟩

theorem wit_LanesMoveAndFold (h : Obligations.LanesMoveAndFold) :
    Next (.sel ⟨1, 2, 3, false, false, some ⟨7, false, 0, 6, 0⟩⟩) (vs kr) ∧ Next (.stov ⟨1, 63, none⟩) (vs kr) ∧ Next (.stovHi ⟨1, 0, none⟩) (vs kr)
    ∧ Next (.sete ⟨1, none⟩) (vs kr) ∧ Next (.setf ⟨15, none⟩) (vs kr) ∧ Next (.bcast ⟨1, 2, 3, false, none⟩) (vs (ks [(3, 63)]))
    ∧ Next (.bcast ⟨1, 2, 0, false, some ⟨0, false, 0, 6, 1⟩⟩) (vs kr) ∧ Next (.bcastFirst ⟨1, 2, true, none⟩) (vs kr) ∧ Next (.bcastFirst ⟨1, 2, true, some ⟨0, false, 0, 6, 1⟩⟩) (vs kr)
    ∧ Next (.shflIdx ⟨1, 2, 3, false, false, none⟩) (vs kr) ∧ Next (.shflXorImm ⟨1, 2, 31, true, none⟩) (vs kr)
    ∧ Next (.scan ⟨1, 2, 0, false, none⟩) (vs kr) ∧ Next (.sscanEx ⟨1, 2, 7, 9, false, none⟩) (vs kr) :=
  let ⟨⟨a1, a2, a3, a4, a5, a6, a7, a8, a9⟩, b, c⟩ := h
  ⟨⟨_, a1 _ _ vv rfl _ _ iv ⟨lry, mr⟩⟩, ⟨_, a2 _ vv _ _ iv ⟨lry, sr⟩⟩, ⟨_, a3 _ vv _ _ iv ⟨lry, sr⟩⟩, ⟨_, a4 _ vv _ _ iv lry⟩,
   ⟨_, a5 _ vv _ _ iv lry⟩, ⟨_, a6 _ (vvw (wps [(3, 63)])) _ _ iv ⟨sr, dk, lry⟩⟩,
   ⟨_, a7 _ (v0 1) _ _ iv ⟨sr, dk, lry, inr⟩⟩, ⟨_, a8 _ vv 0 _ _ iv ⟨dk, lry⟩⟩, ⟨_, a9 _ (v0 1) dk _ _ iv ⟨lry, inr⟩⟩,
   ⟨_, b _ _ _ _ _ _ _ _ (.shflIdx _) vv _ _ iv lry⟩, ⟨_, b _ _ _ _ _ _ _ _ (.shflXorImm _) vv _ _ iv lry⟩,
   ⟨_, c _ _ _ _ _ _ _ _ (.scan _) vv _ _ iv ⟨lry, trivial⟩⟩, ⟨_, c _ _ _ _ _ _ _ _ (.sscanEx _) vv _ _ iv ⟨lry, mr⟩⟩⟩

theorem wit_SelectionInstructionsCompute (h : Obligations.SelectionInstructionsCompute) :
    Next (.topk ⟨14, 2, 3, false, false, none⟩) (vs kr) ∧ Next (.sample ⟨1, 14, 3, false, true, none⟩) (vs kr)
    ∧ Next (.stopchk ⟨1, 2, 3, true, true, none⟩) (vs kr) ∧ Next (.smxupd ⟨12, 2, false, none⟩) (vs kr) ∧ Next (.smxupdSum ⟨12, 2, false, none⟩) (vs kr) :=
  let ⟨a1, a2, a3, a4, a5⟩ := h
  ⟨⟨_, a1 _ vv _ _ iv ⟨rfl, inr, rdy⟩⟩, ⟨_, a2 _ vv _ _ iv ⟨rfl, inr, rdy, fre⟩⟩, ⟨_, a3 _ vv _ _ iv ⟨rfl, inr, rdy, fre⟩⟩,
   ⟨_, a4 _ vv _ _ iv ⟨rfl, inr, rdy, fre⟩⟩, ⟨_, a5 _ vv _ _ iv ⟨rfl, inr, rdy, fre⟩⟩⟩

theorem wit_ScalarInstructionsCompute (h : Obligations.ScalarInstructionsCompute) :
    Next (.ssub ⟨1, 0, 63, true⟩) (vs kr) ∧ Next (.sadd ⟨0, 2, 3, false⟩) (cs kr (cx true [])) ∧ Next (.sclz ⟨63, 1, true⟩) (vs kr) ∧ Next (.spopc ⟨0, 0, false⟩) (vs kr)
    ∧ Next (.sshriA ⟨1, 2, 0x7F, none⟩) (vs kr) ∧ Next (.smovi ⟨5, 0x078, some 0x123456⟩) (vs kr) :=
  let ⟨a1, a2, a3, a4, a5⟩ := h
  ⟨⟨_, a1 _ _ _ _ (.ssub _) _ _ iv ⟨sr, sr, sf⟩⟩, ⟨_, a1 _ _ _ _ (.sadd _) _ _ (ix (m := true)) ⟨sr, sr, sf⟩⟩, ⟨_, a2 _ _ _ iv ⟨sr, sf⟩⟩, ⟨_, a3 _ _ _ iv ⟨sr, sf⟩⟩,
   ⟨_, a4 _ _ _ (.sshriA _) _ _ iv ⟨sr, sf⟩⟩, ⟨_, a5 _ _ _ iv sf⟩⟩

theorem wit_ControlRegistersReadAndWritten (h : Obligations.ControlRegistersReadAndWritten) :
    Next (.csrr ⟨5, 0x0B0⟩) (vs kr) ∧ Next (.csrr ⟨5, 0x0C3⟩) (cs kr (cx true [])) ∧ Next (.mxglostRead ⟨5, true⟩) (cs kr (cx true []))
    ∧ Next (.csrr ⟨5, 0xFFF⟩) (vs kr)
    ∧ (vs kr).csr? (ev kr .nop) 0x006 = some 1 ∧ (vs kr).csr? (ev kr .nop) 0x0F1 = some (BitVec.ofNat 64 0)
    ∧ Next (.csrw ⟨5, 0x010⟩) (vs (ks [(5, 5)])) ∧ Next (.csrw ⟨5, 0x0F0⟩) (vs (ks [(5, 0xFFFE)])) ∧ Next (.neterrWrite ⟨5⟩) (vs kr)
    ∧ Next (.cpfaultWrite ⟨0⟩) (vs kr) ∧ Next (.mxfaultWrite ⟨5⟩) (cs kr (cx true [])) ∧ Next (.csrw ⟨5, 0xFFF⟩) (vs kr)
    ∧ Next (.csrw ⟨5, 0x005⟩) (vs kr) ∧ Next (.csrw ⟨6, 0x030⟩) (vs kr) ∧ Next (.csrw ⟨5, 0x0F0⟩) (vs (ks [(5, 1)])) ∧ Next (.csrw ⟨5, 0x010⟩) (vs (ks [(5, 6)])) :=
  let ⟨⟨a1, a2, a3, a4, a5⟩, b1, b2, b3, b4, b5, b6, b7, b8⟩ := h
  ⟨⟨_, a1 _ 0 _ _ iv ⟨dk, sf, dk⟩⟩, ⟨_, a1 _ 0 _ _ (ix (m := true)) ⟨dk, sf, dk⟩⟩,
   ⟨_, a2 _ _ (cx true []) _ _ (ix (m := true)) ⟨⟨0, rfl, rfl⟩, rfl, rfl, sf, dk⟩⟩, ⟨_, a3 _ _ _ iv dk⟩,
   a4 _ (ev kr .nop) _ _ .ctxid, a5 _ (ev kr .nop) _ _ 0 0 wp kr rfl rfl rfl .tstat,
   ⟨_, b1 _ _ _ .rmode _ rfl _ _ iv ⟨dk, sr, dk⟩⟩, ⟨_, b1 _ _ _ .tvec _ rfl _ _ iv ⟨dk, sr, dk⟩⟩,
   ⟨_, b2 _ _ _ iv sr⟩, ⟨_, b3 _ _ _ iv sr⟩, ⟨_, b4 _ 0 (cx true []) _ _ (ix (m := true)) ⟨rfl, rfl, rfl, dk, sr⟩⟩,
   ⟨_, b5 _ (by decide) _ _ iv dk⟩, ⟨_, b6 _ (by decide) _ _ iv (.inl rfl)⟩, ⟨_, b6 _ (by decide) _ _ iv (.inr dk)⟩,
   ⟨_, b7 _ rfl _ _ iv ⟨dk, sr, dk⟩⟩, ⟨_, b8 _ rfl _ _ iv ⟨sr, dk⟩⟩⟩

theorem wit_ScratchpadAccesses (h : Obligations.ScratchpadAccesses) :
    Next (.spldB128 ⟨12, 5, 1, 7, true, none, none⟩) (vs (ks [(5, 0x1FFF)])) ∧ Next (.spstB64 ⟨14, 5, 1, 3, true, none, none⟩) (vs kr)
    ∧ Next (.spstN6 ⟨15, 5, 1, 0, true, none, none⟩) (vs kr) ∧ (∀ l a, spBrings (vs kr) (ev kr .nop) 3 4 false [(0, 64)] l a
      = loadLanes 3 4 false (kr.spRd a 4) (fun j => kr.spBad (a + 4 * j) 4)) ∧ (spPuts (vs kr) (ev kr .nop) 4 [(0, 64, 5)]).ops = [] :=
  ⟨⟨_, h.1.2 _ _ _ (.b128 _) (vvw (wps [(5, 0x1FFF)])) _ _ iv ⟨rfl, inr, sr, rdy, fre, rfl, dk⟩⟩,
   ⟨_, h.2.1 _ _ _ (.b64 _) vv _ _ iv ⟨⟨rfl, inr, rdy⟩, sr, dk⟩⟩,
   ⟨_, h.2.2.1 ⟨15, 5, 1, 0, true, none, none⟩ vv _ (.tail _ (.head _)) _ _ iv ⟨⟨rfl, inr, rdy⟩, sr, dk⟩⟩,
   fun l a => h.1.1 (vs kr) (ev kr .nop) 3 4 false [(0, 64)] l a rfl, (h.2.2.2 (vs kr) (ev kr .nop) 4 [(0, 64, 5)] _ rfl).2.1⟩

theorem wit_ImagesAndLines (h : Obligations.ImagesAndLines) :
    Next (.stimg ⟨15, 4, none⟩) (vs kr) ∧ Next (.ldimg ⟨9, 4, some 16⟩) (vs kr) ∧ Next (.lnset ⟨6, 7⟩) (vs (ks [(7, 100)])) ∧ Next (.lnclr ⟨6, 7⟩) (vs kr) :=
  let ⟨a, b, c⟩ := h
  ⟨⟨_, a _ vv _ _ iv ⟨rfl, inr, sr, rfl, dk⟩⟩,
   ⟨_, b _ vv _ _ iv ⟨rfl, inr, sr, fre, rfl, dk⟩⟩,
   ⟨_, c _ true _ (by simp; rfl) _ _ iv ⟨sr, sr⟩⟩, ⟨_, c _ false _ (by simp; rfl) _ _ iv ⟨sr, sr⟩⟩⟩

theorem wit_TagTable (h : Obligations.TagTable) :
    Next (.lookup ⟨3, 15⟩) (vs kr) ∧ Next (.tagset ⟨2, 4⟩) (vs kr) ∧ Next (.tagclr ⟨15⟩) (vs kr) ∧ (tagLookup 8 [(7, 5)] 5).1 = 7 :=
  let ⟨a, b, c, d⟩ := h
  ⟨⟨_, a _ vv _ _ iv ⟨rfl, inr, rdy, fre, dk⟩⟩, ⟨_, b _ vv _ _ iv ⟨rfl, inr, rdy, dk⟩⟩,
   ⟨_, c _ vv _ _ iv ⟨rfl, inr, rdy⟩⟩, d 8 [(7, 5)] 5 (7, 5) rfl⟩

/-- The resolved elements of a store of sub-byte elements. -/
def elems (e : Env) (o : OpM) (s : State) : List (Nat × ElemByte × Spot) :=
  match resolveElems s e (fun b => ((((s.sreg e.who o.sb.toNat).toNat : Int) + b.off + mOff o.pfx o.lim) % 2 ^ 64).toNat)
      ((lanesOf vv.act).flatMap (fun l => (laneElems vv 4 o.vt o.vi o.ix l).map (fun b => (l, b)))) with
  | .ok ps => ps
  | .error _ => []

theorem wit_MemoryAccessesIssue_1 (h : Obligations.MemoryAccessesIssue) :
    Next (.ldB128 ⟨12, 5, 1, true, none, none⟩) (vs kr) ∧ Next (.ldS8 ⟨12, 5, 1, false, none, some 7⟩) (vs kap)
    ∧ Next (.ldAcqB64 ⟨14, 0, 0, 1, false, none, none⟩) (vs kr) :=
  ⟨⟨_, h.1 _ _ _ _ _ _ _ _ _ _ (.ldB128 _) vv (fun _ => .mem 0) _ _ iv ⟨rfl, inr, sr, rdy, plf, fre, nofun⟩⟩,
   ⟨_, h.1 _ _ _ _ _ _ _ _ _ _ (.ldS8 _) vap (fun _ => .spad 71) _ _ iv ⟨rfl, inr, sr, rdy, plf, fre, fun _ _ _ ho => by cases ho; decide +kernel⟩⟩,
   ⟨_, h.1 _ _ _ _ _ _ _ _ _ _ (.ldAcqB64 _) vv (fun _ => .mem 0) _ _ iv ⟨rfl, inr, sr, rdy, plf, fre, nofun⟩⟩⟩

theorem wit_MemoryAccessesIssue_2 (h : Obligations.MemoryAccessesIssue) :
    Next (.stB64 ⟨14, 5, 1, true, none, none⟩) (vs kr) ∧ Next (.stRelB32 ⟨14, 5, 1, 1, true, none, none⟩) (vs kap) :=
  ⟨⟨_, h.2.1.1 _ _ _ _ _ _ _ _ _ (.stB64 _) vv (fun _ => .mem 0) _ _ iv ⟨⟨rfl, inr, rdy⟩, sr, plf, nofun⟩⟩,
   ⟨_, h.2.1.1 _ _ _ _ _ _ _ _ _ (.stRelB32 _) vap (fun _ => .spad 64) _ _ iv ⟨⟨rfl, inr, rdy⟩, sr, plf, fun _ _ _ ho => by cases ho; exact ⟨rfl, fun _ => rfl⟩⟩⟩⟩

theorem spr {ps : List (Nat × ElemByte × Spot)} {P : Prop} (h : ps.all (fun x => match x.2.2 with | .mem _ => true | .spad _ => false) = true := by decide +kernel) :
    ∀ x ∈ ps, ∀ off, x.2.2 = .spad off → P := by
  intro x hx off ho
  have := List.all_eq_true.mp h x hx
  simp [ho] at this

theorem wit_MemoryAccessesIssue_3 (h : Obligations.MemoryAccessesIssue) : Next (.stN4 ⟨14, 5, 1, true, none, none⟩) (vs kr) :=
   ⟨_, h.2.1.2 ⟨14, 5, 1, true, none, none⟩ vv (elems (ev kr (.stN4 ⟨14, 5, 1, true, none, none⟩)) ⟨14, 5, 1, true, none, none⟩ (vs kr)) _ (.head _) _ _ iv
     ⟨⟨rfl, inr, rdy⟩, sr, dk, spr⟩⟩

theorem wit_MemoryAccessesIssue_4 (h : Obligations.MemoryAccessesIssue) :
    Next (.sld ⟨63, 5, none⟩) (vs kr) ∧ Next (.sld ⟨0, 5, none⟩) (vs kap) ∧ Next (.sst ⟨63, 5, none⟩) (vs kr) ∧ Next (.sst ⟨0, 5, none⟩) (vs kap)
    ∧ ((vs kr).spSeen (ev kr .nop) 1 kr 64 8).spRd 64 8 = kr.spRd 64 8 :=
  let ⟨c1, c0, c2⟩ := h.2.2
  ⟨⟨_, c1 _ (fun _ => .mem 0) _ _ iv ⟨sr, sf, plf, by dsimp only; decide +kernel⟩⟩, ⟨_, c1 _ (fun _ => .spad 64) _ _ iv ⟨sr, sf, plf, by dsimp only; decide +kernel⟩⟩,
   ⟨_, c2 _ (fun _ => .mem 0) _ _ iv ⟨sr, sr, plf, nofun⟩⟩, ⟨_, c2 _ (fun _ => .spad 64) _ _ iv ⟨sr, sr, plf, fun _ _ => rfl⟩⟩, c0 _ _ _ _ _ _ rfl⟩

theorem wit_AtomicsAtIssue (h : Obligations.AtomicsAtIssue) :
    Next (.atomB64 ⟨12, 5, 1, 1, none, none⟩) (vs kr) ∧ Next (.atomB32 ⟨12, 5, 1, 2, none, none⟩) (vs kap) :=
  ⟨⟨_, h ⟨12, 5, 1, 1, none, none⟩ vv (fun _ => .mem 0) _ (.tail _ (.head _)) _ _ iv ⟨rfl, inr, sr, rdy, plf, fre, nofun⟩⟩,
   ⟨_, h ⟨12, 5, 1, 2, none, none⟩ vap (fun _ => .spad 64) _ (.head _) _ _ iv ⟨rfl, inr, sr, rdy, plf, fre, fun _ _ _ ho => by cases ho; decide +kernel⟩⟩⟩

theorem wit_FencesAndPhases (h : Obligations.FencesAndPhases) :
    Next (.pf ⟨5, 15, 2, true, none, none⟩) (vs kr) ∧ Next .fenceLd vst ∧ Next .fenceSt vl ∧ Next .fenceAll (vs kr) ∧ Next .fenceLd vl ∧ Next .fenceSt vst
    ∧ Next .fenceAll vl ∧ Next (.phaseRel ⟨2⟩) vl ∧ Next (.phaseAcq ⟨1⟩) vst ∧ Next (.phaseRel ⟨0⟩) vst ∧ Next (.phaseAcq ⟨3⟩) vl :=
  let ⟨a, b, c, d, b2, c2, d2, f, fw, g, gw, _⟩ := h
  ⟨⟨_, a _ vv _ _ iv ⟨rfl, inr, sr, rdy⟩⟩, ⟨_, b _ _ (iw kr) dk⟩, ⟨_, c _ _ (iw kr) dk⟩, ⟨_, d _ _ iv dk⟩,
   ⟨_, b2 _ _ (iw kr) dk⟩, ⟨_, c2 _ _ (iw kr) dk⟩, ⟨_, d2 _ _ (iw kr) dk⟩,
   ⟨_, f _ _ _ (iw kr) dk⟩, ⟨_, g _ _ _ (iw kr) dk⟩,
   ⟨_, fw _ _ _ (iw kr) rfl⟩, ⟨_, gw _ _ _ (iw kr) rfl⟩⟩

theorem wit_ControlFlowMovesThreads (h : Obligations.ControlFlowMovesThreads) :
    Next (.br ⟨7, true, false, 3⟩) (vs kr) ∧ Next (.br ⟨0, false, true, 3⟩) (vs (kw (wl 1 []))) ∧ Next (.brs ⟨0, true, false, 0xFFFF⟩) (vs kr)
    ∧ Next (.call ⟨63, 5⟩) (vs kr) ∧ Next (.loop ⟨9, 6⟩) (vs (kw (wl 3 [(9, 1)]))) ∧ Next (.loop ⟨0, 6⟩) (vs kr) ∧ Next (.loop ⟨9, 6⟩) (vs (kw (wl 4 [(9, 1)])))
    ∧ Next (.jmpx ⟨15⟩) (vs kr) ∧ Next (.ret ⟨5⟩) (vs (ks [(5, 0x10)])) ∧ Next (.ret ⟨5⟩) (vs (ks [(5, 0x11)])) :=
  let ⟨a, b, c, _, d, f, g, l, _, _, _, j, r, q⟩ := h
  ⟨⟨_, a _ wp .stay _ _ iv ⟨rfl, mr, rfl, ⟨0, rfl⟩, nofun⟩⟩, ⟨_, b _ (wl 1 []) _ _ _ iv ⟨rfl, mr, ⟨0, rfl⟩, rfl⟩⟩,
   ⟨_, c _ .stay _ _ iv ⟨sr, rfl, nofun⟩⟩, ⟨_, d _ _ _ iv sf⟩, ⟨_, f _ _ _ iv ⟨sr, dk, dk⟩⟩,
   ⟨_, g _ .stay _ _ iv ⟨sr, dk, rfl, nofun⟩⟩, ⟨_, l _ _ _ iv ⟨sr, dk, dk⟩⟩,
   ⟨_, j _ wp _ _ iv ⟨rfl, inr, rdy, dk, fun _ _ x hx => by injection hx⟩⟩, ⟨_, r _ _ _ iv ⟨sr, dk⟩⟩,
   ⟨_, q _ _ _ iv ⟨sr, dk⟩⟩⟩

/-- Warps whose lanes hold an odd target, and targets on both sides of the loop's end; and one of whose threads only one issues. -/
def wodd : Warp := { wp with regs := modAt wp.regs 15 (fun _ => List.replicate 64 (Lane.full 0x11 false)) }
def wfar : Warp := { wl 1 [] with regs := modAt wp.regs 15 (fun _ => Lane.full 0x40 false :: List.replicate 63 (Lane.full 0x24 false)) }
def wone : Warp := { wl 1 [] with frontier := [⟨0, 0, .ready, 1, none⟩] }
theorem wit_ControlFlowMovesThreads_2 (h : Obligations.ControlFlowMovesThreads) :
    Next (.brs ⟨0, true, true, 0x40⟩) (vs (kw (wl 1 []))) ∧ Next (.loop ⟨0, 0x40⟩) (vs (kw wone)) ∧ Next (.jmpx ⟨15⟩) (vs (kw wodd))
    ∧ Next (.jmpx ⟨15⟩) (vs (kw wfar)) :=
  let ⟨_, _, _, a, _, _, _, _, b, c, d, _⟩ := h
  ⟨⟨_, a _ (loopInfo 2 1 0x80) _ _ iv ⟨sr, dk⟩⟩, ⟨_, b _ (loopInfo 0 1 0x80) _ { ev (kw wone) (.loop ⟨0, 0x40⟩) with m0 := 1 } ⟨rfl, rfl, dk⟩ ⟨sr, dk, dk⟩⟩,
   ⟨_, c _ wodd 0 _ _ iv ⟨rfl, inr, rdy, dk⟩⟩, ⟨_, d _ wfar (loopInfo 0 1 0x40) _ _ iv ⟨rfl, inr, rdy, dk, dk⟩⟩⟩

/-- A warp in its handler. -/
def wh : Warp := { wps [(5, 0x20)] with hact := true, hmask := BitVec.allOnes 64, trappc := 0x40, tlen := 4 }
theorem wit_ThreadsEndTrapAndReturn (h : Obligations.ThreadsEndTrapAndReturn) :
    Next .exit (vs kr) ∧ Next (.trap ⟨35, 4, 63⟩) (vs kr) ∧ Next .tret (vs (kw wh)) ∧ Next .tretSkip (vs (kw wh)) ∧ Next (.tretJmp ⟨5⟩) (vs (kw wh))
    ∧ Next (.tretJmp ⟨5⟩) (vs kr) ∧ Next (.tretJmp ⟨5⟩) (vs (kw { wh with sregs := (wps [(5, 0x21)]).sregs })) :=
  let ⟨a, b, c, d, f, o, g⟩ := h
  ⟨⟨_, a _ _ iv trivial⟩, ⟨_, b _ _ _ iv trivial⟩, ⟨_, c wh _ _ iv ⟨rfl, rfl⟩⟩, ⟨_, d wh _ _ iv ⟨rfl, rfl⟩⟩,
   ⟨_, f _ wh _ _ iv ⟨rfl, rfl, sr, dk⟩⟩, ⟨_, g _ wp (.inr (.inr ⟨_, rfl⟩)) _ _ iv ⟨rfl, rfl⟩⟩,
   ⟨_, o _ { wh with sregs := (wps [(5, 0x21)]).sregs } _ _ iv ⟨rfl, rfl, sr, dk⟩⟩⟩

/-- A cluster whose table of 64 cohorts is full. -/
def vfull : State := { vs (ks [(6, 99)]) with cohorts := (List.range 64).map (fun i => ⟨0, 0, i, BitVec.ofNat 32 (i + 1), 1, 1, none⟩) }
theorem wit_CohortsJoinAndLeave (h : Obligations.CohortsJoinAndLeave) :
    Next (.join ⟨5, 0⟩) (vc 0 []) ∧ Next (.join ⟨5, 6⟩) (vc 1 [(6, 1)]) ∧ Next (.join ⟨5, 6⟩) (vc 4 [(6, 9)]) ∧ Next (.join ⟨5, 6⟩) (vc 3 [(6, 0xFFFFFFFF)])
    ∧ Next (.leave ⟨5, 0⟩) (vc 0 []) ∧ Next (.leave ⟨5, 6⟩) (vc 1 [(6, 2)]) ∧ Next (.leave ⟨5, 6⟩) (vc 4 [(6, 4)])
    ∧ Next (.join ⟨5, 6⟩) vfull :=
  let ⟨a, b, c, d, y, f, g, j⟩ := h
  ⟨⟨_, a _ (wc 0 []) _ _ (iw (kw (wc 0 []))) ⟨rfl, sr, sf, dk⟩⟩,
   ⟨_, b _ (wc 1 [(6, 1)]) 1 (by decide) _ _ (iw (kw (wc 1 [(6, 1)]))) ⟨rfl, sr, sf, dk, dk⟩⟩,
   ⟨_, c _ (wc 4 [(6, 9)]) 9 (by decide) _ _ (iw (kw (wc 4 [(6, 9)]))) ⟨rfl, sr, sf, dk, dk, dk, dk⟩⟩,
   ⟨_, d _ (wc 3 [(6, 0xFFFFFFFF)]) 0xFFFFFFFF 3 (by decide) _ _ (iw (kw (wc 3 [(6, 0xFFFFFFFF)])))
     ⟨rfl, sr, sf, dk, dk, dk, dk⟩⟩,
   ⟨_, f _ (wc 0 []) _ _ (iw (kw (wc 0 []))) ⟨rfl, sr, sf, dk⟩⟩,
   ⟨_, g _ (wc 1 [(6, 2)]) 2 (by decide) _ _ (iw (kw (wc 1 [(6, 2)]))) ⟨rfl, sr, sf, dk, dk⟩⟩,
   ⟨_, j _ (wc 4 [(6, 4)]) 4 ⟨3, 4, BitVec.allOnes 64, 0, 0⟩ (by decide) _ _ (iw (kw (wc 4 [(6, 4)]))) ⟨rfl, sr, sf, dk, dk⟩⟩,
   ⟨_, y _ (wps [(6, 99)]) 99 (by decide) _ _ (iw (ks [(6, 99)])) ⟨rfl, sr, sf, dk, dk, dk, dk, dk⟩⟩⟩

/-- A crew of step group 5, which is assigned. -/
def kg : Crew := { ks [(6, 5), (7, 9)] with stepGroup := some 5 }
def vg : State := { vs kg with steps := [⟨5, 1, 0, some 0, 1, 0, none, 0, []⟩] }
/-- A crew of the cohort 1, which its registers name. -/
def wb : Warp := wc 1 [(6, 1), (7, 2)]
/-- A warp that a completed phase woke at its WAITB. -/
def kwk : Crew := kw { wp with frontier := [⟨0, 0, .ready, BitVec.allOnes 64, some (.bar 0 0 (some []))⟩] }
theorem wit_BarrierInstructions (h : Obligations.BarrierInstructions) :
    Next (.barinit ⟨0, 6⟩) (vs (ks [(6, 0xFFFFFF)])) ∧ Next (.barinitCoh ⟨0, 6⟩) (vc 1 [(6, 1)]) ∧ Next (.barinitCoh ⟨0, 6⟩) (vc 1 [(6, 2)])
    ∧ Next (.arrive ⟨63, 6⟩) (vs (ks [(6, 0x1FE0)])) ∧ Next (.arriveN ⟨63, 6, 7⟩) (vs (ks [(6, 0x1FE0), (7, 3)]))
    ∧ Next (.expect ⟨0, 7⟩) (vs (ks [(7, 2 ^ 23 - 1)])) ∧ Next (.waitb ⟨0, 7⟩) (vs kr) ∧ Next (.waitb ⟨0, 7⟩) (vs (ks [(7, 1)]))
    ∧ Next (.barq ⟨63, 0, 7⟩) (vs kr) ∧ Next (.superstep ⟨5, 6⟩) vg ∧ Next (.superstep ⟨5, 7⟩) vg ∧ Next (.expect ⟨0, 7⟩) (vs kz) :=
  let ⟨a, b, c, d, f, g, i, _, j, _, _, _, q, l, m, n, _⟩ := h
  ⟨⟨_, a _ 0 _ _ iv ⟨bat, sr⟩⟩,
   ⟨_, b _ 0 ⟨0, 0, 0, 1, 1, 64, none⟩ 1 (by decide) _ _ (iw (kw (wc 1 [(6, 1)]))) ⟨bat, sr, dk, dk, rfl⟩⟩,
   ⟨_, c _ 0 _ _ (iw (kw (wc 1 [(6, 2)]))) ⟨bat, sr, dk⟩⟩,
   ⟨_, d _ 0x1FE0 _ _ iv ⟨bat, sf, dk, dk⟩⟩,
   ⟨_, f _ 0x1FE0 _ _ iv ⟨bat, sr, sf, dk, dk⟩⟩,
   ⟨_, g _ 0 _ _ iv ⟨bat, sr, dk⟩⟩,
   ⟨_, i _ 0 _ _ iv ⟨rfl, bat, sr, dk, fun x => absurd x.1 dk⟩⟩,
   ⟨_, j _ 0 _ _ iv ⟨rfl, bat, sr, dk⟩⟩,
   ⟨_, q _ 0 _ _ iv ⟨bat, sr, sf⟩⟩, ⟨_, l _ 5 _ _ (iw kg) ⟨sr, .inl sf, rfl, dk, rfl, dk⟩⟩,
   ⟨_, m _ _ _ (iw kg) ⟨sr, sf, fun _ hg hs => by cases hg; exact absurd hs dk⟩⟩, ⟨_, n _ _ (.inl ⟨⟨0, 7⟩, .inr (.inr (.inl rfl)), rfl⟩) _ _ iv ⟨rfl, nofun⟩⟩⟩

theorem wit_BarrierInstructions_2 (h : Obligations.BarrierInstructions) : Next (.waitb ⟨0, 7⟩) (vs kwk) :=
  ⟨_, h.2.2.2.2.2.2.2.1 _ 0 0 [] _ _ iv ⟨rfl, by decide, dk, dk, fun x => absurd x.1 dk⟩⟩

/-- Crews whose barrier 0 has a gang partner lost for warp 0, or the greatest BPEND, or poison. -/
def kbar (k : Crew) (b : Nat) : Crew := k.setBar 0 b
def kbad : Crew := { kr with spPoison := kr.spPoison.set 7 1 }
def klost : Nat := setBits (bSetBit 0 66) 223 191 (2 ^ 8 + 3)
theorem wit_BarrierInstructions_3 (h : Obligations.BarrierInstructions) :
    Next (.waitb ⟨0, 7⟩) (vs (kbar kr klost)) ∧ Next (.waitb ⟨0, 7⟩) (vs (kbar kwk klost)) ∧ Next (.expect ⟨0, 7⟩) (vs (ks [(7, 2 ^ 23)]))
    ∧ Next (.barq ⟨63, 0, 7⟩) (vs kbad) ∧ Next (.waitb ⟨0, 7⟩) (vs kbad) ∧ Next (.waitb ⟨0, 7⟩) (vs kz) :=
  let ⟨_, _, _, _, _, _, _, _, _, a, b, c, _, _, _, d, f⟩ := h
  ⟨⟨_, a _ 0 _ _ iv ⟨rfl, bat, sr, dk, dk, dk, dk⟩⟩, ⟨_, b _ 0 0 [] _ _ iv ⟨rfl, by decide, dk, dk, dk, dk, dk⟩⟩,
   ⟨_, c _ 0 _ _ iv ⟨bat, sr, dk⟩⟩, ⟨_, f _ _ (.inr (.inr ⟨⟨63, 0, 7⟩, .inr rfl, rfl⟩)) _ _ iv ⟨by decide, sr, dk, nofun⟩⟩,
   ⟨_, f _ _ (.inl ⟨⟨0, 7⟩, .inr (.inr (.inr rfl)), rfl⟩) _ _ iv ⟨by decide, sr, dk, fun _ => rfl⟩⟩,
   ⟨_, d _ _ (.inl ⟨⟨0, 7⟩, .inr (.inr (.inr rfl)), rfl⟩) _ _ iv ⟨rfl, fun _ => rfl⟩⟩⟩

theorem wit_BarrierPhasesComplete (h : Obligations.BarrierPhasesComplete) :
    bPhase (bEval 5 (2 ^ 96 - 2 ^ 80)) = 0 ∧ bEval 5 (2 ^ 104) = 2 ^ 104 ∧ bApend (bArrive (2 ^ 152) 1) = 0 ∧ bits (bArrive (2 ^ 152) 2) 65 65 = 1 ∧ bApply (2 ^ 152) (.land 3) < 2 ^ 256 :=
  ⟨((h 5 (2 ^ 96 - 2 ^ 80) (by decide)).1 (by decide) (by decide)).1, (h 5 (2 ^ 104) (by decide)).2.1 (.inr (by decide)),
   ((h 5 (2 ^ 152) (by decide)).2.2.1 1 (by decide)).1, ((h 5 (2 ^ 152) (by decide)).2.2.2.1 2 (by decide)).2.1, (h 5 (2 ^ 152) (by decide)).2.2.2.2.2.2.2 _ (by decide)⟩

theorem wit_TrapsAreTaken (h : Obligations.TrapsAreTaken) :
    (∃ w, ((vs { kr with tvec := 0x80 }).takeTrap 0 0 1 0x10 4 ⟨13, 7, none, 0⟩).warp? 0 0 = some w ∧ w.trapinfo = 7 ∧ w.hmask = 1)
    ∧ (vs kr).takeTrap 0 0 1 0x10 4 ⟨13, 7, none, 0⟩
      = (((vs kr).modCrew 0 (fun k => if k.firstKill = 0 then { k with firstKill := 13, killNo := (vs kr).nextKill } else k)).modWarp 0 0
          (fun w => { w.recordTrap 0x10 ⟨13, 7, none, 0⟩ with nkill := BitVec.ofNat 8 (min (w.nkill.toNat + popMask 1) 255) })).endThreads 0 0 1 true
    ∧ ∃ c, ((cs kr (cx true [])).raise (ec true kr .nop) ⟨1, 7, none, 0⟩).ctxs[0]? = some c ∧ c.st = .trapped :=
  let ⟨a, b, c⟩ := h
  ⟨(let ⟨w, x, _, _, y, _, _, z, _⟩ := a (vs { kr with tvec := 0x80 }) 0 0 _ wp 1 0x10 4 ⟨13, 7, none, 0⟩ rfl rfl rfl (by decide) (by decide)
    ⟨w, x, y, z⟩), b (vs kr) 0 0 kr wp 1 0x10 4 ⟨13, 7, none, 0⟩ rfl rfl (.inr rfl),
   (let ⟨w, x, y, _⟩ := c (cs kr (cx true [])) 0 (cx true []) (ec true kr .nop) ⟨1, 7, none, 0⟩ rfl rfl; ⟨w, x, y⟩)⟩

theorem wit_TileDescriptorsAreChecked (h : Obligations.TileDescriptorsAreChecked) :
    Next (.tcfg ⟨15, 5, 6⟩) (vs (ks [(5, 2 ^ 48), (6, tdw)])) ∧ Next (.tcfg ⟨0, 0, 0⟩) (vs kr) ∧ Next (.tcfg ⟨15, 5, 6⟩) (vs (ks [(6, 2 ^ 63 + 2 ^ 61)]))
    ∧ Next (.tcfg ⟨15, 5, 6⟩) (vs (ks [(6, 2 ^ 62)])) ∧ Next (.tcfg ⟨15, 5, 6⟩) (vs (ks [(6, 2 ^ 63 + 2 ^ 58 + 2 ^ 49)]))
    ∧ tdBlk (BitVec.ofNat 128 (tdw * 2 ^ 64 + 2 ^ 48)) ≠ 3 :=
  ⟨⟨_, h.1 _ _ _ _ iv ⟨sr, sr, rfl, .inr dk⟩⟩, ⟨_, h.1 _ _ _ _ iv ⟨sr, sr, rfl, .inl dk⟩⟩,
   ⟨_, h.2.1 _ _ _ _ iv ⟨sr, sr, rfl, dk⟩⟩, ⟨_, h.2.2.2.2 _ _ _ _ iv ⟨sr, sr, rfl, dk⟩⟩,
   ⟨_, h.2.2.1 _ _ _ _ iv ⟨sr, sr, rfl, dk⟩⟩, (h.2.2.2.1 (BitVec.ofNat 128 (tdw * 2 ^ 64 + 2 ^ 48)) 64 dk).1⟩

/-- A crew with a one-element BF16 tile in descriptor 1, and its matrix context. -/
def tdm : BitVec 128 := BitVec.ofNat 128 (tdw * 2 ^ 64 + 2 ^ 48)
def kt : Crew := { kr with td := modAt kr.td 1 (fun _ => tdm) }
def wgang : Warp := { wp with cohorts := [⟨0, 1, 1, 0, 0⟩] }
def kgang : Crew := { kt with warps := [wgang] }
def cgang : SCtx := { cx true [] with mxgang := 1, mxbar := BitVec.ofNat 64 (2 ^ 63) }
/-- A drain's control word: FP32, one row and column at the last of each. -/
def dctl : Nat := 63 * 2 ^ 36 + 63 * 2 ^ 30
def cdr (d : Nat) : SCtx := cx true [(5, dctl + d), (6, 0x40)]
/-- The gang's crew without accumulators. -/
def kgz : Crew := { kgang with image := { img with acc := 0 } }
/-- A drain of valid rows whose extents lie at an unmapped address. -/
def kext : Crew := { kr with sh := modAt kr.sh 0 (fun _ => BitVec.ofNat 512 (0x200000 * 2 ^ 448 + 2 ^ 160)) }
def cext : SCtx := { cdr (2 ^ 55 + 4) with mxshape := BitVec.ofNat 64 (2 ^ 63) }
theorem rowsFault_of {x : Rows} (h : (match x with | .fault _ => true | _ => false) = true) : ∃ f, x = .fault f := by cases x <;> simp_all
theorem wit_MatrixOperationsIssue (h : Obligations.MatrixOperationsIssue) :
    Next (.tst ⟨15, 5, 6⟩) (cs kr (cx true [])) ∧ Next (.mmas ⟨7, false, false, 1, 1⟩) (cs kt (cx true [])) ∧ Next (.aclr ⟨7⟩) (cs kr (cx true []))
    ∧ Next (.mmag ⟨0, false, false, 1, 1⟩) (cs kgang cgang) ∧ Next (.adrainSp ⟨7, true, 6, 5⟩) (cs kr (cdr 4))
    ∧ Next (.adrainG ⟨7, false, 6, 5⟩) (cs kr (cdr 4)) ∧ Next (.adrainV ⟨7, 5⟩) (cs kr (cdr (15 * 2 ^ 23))) ∧ Next (.mmas ⟨0, false, false, 1, 1⟩) (cs kz (cx true []))
    ∧ Next (.adrainG ⟨7, false, 6, 5⟩) (cs kext cext) :=
  let ⟨a, b, c, d, f, z, _, _, _, _, _, _, g, l⟩ := h
  ⟨⟨_, a ⟨15, 5, 6⟩ 0 (cx true []) _ (.tail _ (.head _)) _ _ (ix (m := true)) ⟨⟨rfl, rfl⟩, sr, sr⟩⟩,
   ⟨_, b ⟨7, false, false, 1, 1⟩ 0 (cx true []) _ (.tail _ (.head _)) _ _ (ix (m := true)) ⟨⟨rfl, rfl⟩, dk⟩⟩,
   ⟨_, c _ 0 (cx true []) _ _ (ix (m := true)) ⟨⟨rfl, rfl⟩, dk⟩⟩,
   ⟨_, d _ 0 cgang [0] _ _ (ix (m := true)) ⟨⟨rfl, rfl⟩, dk, by decide, by decide, by decide, dk, dk⟩⟩,
   ⟨_, f _ _ _ _ _ _ (.sp _) 0 (cdr 4) wp (BitVec.allOnes 64) _ _ (ix (m := true))
     ⟨⟨rfl, rfl⟩, rfl, sr, sr, dk, dk, nofun, dk, rfl, nofun, dk⟩⟩,
   ⟨_, f _ _ _ _ _ _ (.g _) 0 (cdr 4) wp (BitVec.allOnes 64) _ _ (ix (m := true))
     ⟨⟨rfl, rfl⟩, rfl, sr, sr, dk, by decide, nofun, dk, g _ _ _ _ _ dk, nofun, rfl⟩⟩,
   ⟨_, f _ _ _ _ _ _ (.v _) 0 (cdr (15 * 2 ^ 23)) wp (BitVec.allOnes 64) _ _ (ix (m := true))
     ⟨⟨rfl, rfl⟩, rfl, sr, sr, dk, dk, fun _ => inr, dk, rfl, fun _ => fre, rfl⟩⟩,
   ⟨_, l ⟨0, false, false, 1, 1⟩ _ (.tail _ (.head _)) _ _ (ix (m := true)) dk⟩,
   (let ⟨f, hf⟩ := rowsFault_of (x := drExtents (cs kext cext) (ec true kext (.adrainG ⟨7, false, 6, 5⟩)) cext (mxIssued (ec true kext (.adrainG ⟨7, false, 6, 5⟩)) cext 7 7)
      ((cs kext cext).sreg (.ctx 0) 5)) dk
    ⟨_, z _ _ _ _ _ _ (.g _) 0 cext f _ _ (ix (m := true)) ⟨⟨rfl, rfl⟩, sr, sr, dk, dk, nofun, dk, hf⟩⟩)⟩

/-- A matrix operation in flight. -/
def mxo (fn : Nat) (ms : List Slice) : MxOp :=
  { fn := fn, acc := 7, tda := tdm, tdb := tdm, bar := BitVec.ofNat 64 (2 ^ 63), shape := 0, sh := 0, x := 0, c := 0, mat := false, rm := 0, dst := 0, add := false
    rows := BitVec.allOnes 64, lanes := 0, lines := [], members := ms, was := [], shares := none, btile := none }
def opx (fn : Nat) (ms : List Slice) : Op := { (ec true kt .nop).newOp base 1 with eng := some (.mx (mxo fn ms)) }
def vm (fn : Nat) (ms : List Slice) (bad : Bool) : State := { cs kt { cx true [] with mxbad := if bad then some 0 else none } with ops := [opx fn ms] }
/-- A drain that asks for a trap behind an ACLR of its accumulator. -/
def vemp : State := { cs kr (cdr (2 ^ 56 + 4)) with ops := [opx 6 []] }
theorem wit_MatrixOperationsIssue_2 (h : Obligations.MatrixOperationsIssue) :
    Next (.mmag ⟨0, false, false, 1, 1⟩) (cs kr (cx true [])) ∧ Next (.mmag ⟨0, false, false, 1, 1⟩) (cs kgz cgang)
    ∧ Next (.adrainSp ⟨7, false, 6, 5⟩) (cs kr (cdr (7 * 2 ^ 57))) ∧ Next (.adrainG ⟨7, true, 6, 5⟩) (cs kr (cdr (2 * 2 ^ 60 + 4)))
    ∧ Next (.adrainV ⟨0, 5⟩) (cs kz (cdr 0)) ∧ Next (.adrainV ⟨7, 5⟩) (cs kr (cdr (16 * 2 ^ 23))) ∧ Next (.adrainSp ⟨7, false, 6, 5⟩) vemp :=
  let ⟨_, _, _, _, _, _, a, b, c, d, f, g, _⟩ := h
  ⟨⟨_, a _ 0 (cx true []) [] _ _ (ix (m := true)) ⟨⟨rfl, rfl⟩, dk, .inl rfl⟩⟩,
   ⟨_, b _ 0 cgang [0] _ _ (ix (m := true)) ⟨⟨rfl, rfl⟩, dk, by decide, by decide, by decide, dk, dk⟩⟩,
   ⟨_, c _ _ _ _ _ _ (.sp _) 4 _ _ (ix (m := true)) ⟨sr, sr, dk⟩⟩, ⟨_, c _ _ _ _ _ _ (.g _) 6 _ _ (ix (m := true)) ⟨sr, sr, dk⟩⟩,
   ⟨_, d _ _ _ _ _ _ (.v _) _ _ (ix (m := true)) ⟨sr, sr, dk, dk⟩⟩, ⟨_, f _ 16 _ _ (ix (m := true)) ⟨sr, dk, dk, dk⟩⟩,
   ⟨_, g _ _ _ _ _ _ (.sp _) _ _ (iy (m := true) kr) ⟨sr, sr, dk, dk, nofun, dk, dk⟩⟩⟩
def slc : Slice := ⟨0, tdm, none⟩
def isDone : MxEnd → Bool
  | .done _ => true
  | _ => false
theorem done_of {x : MxEnd} (h : isDone x = true) : ∃ t, x = .done t := by cases x <;> simp_all [isDone]
def faultIn : MxEnd → Option MxFault
  | .fault f => some f
  | _ => none
theorem fault_of {x : MxEnd} {f : MxFault} (h : faultIn x = some f) : x = .fault f := by cases x <;> simp_all [faultIn]
def vmm (m : MxOp) (bad : Bool) : State :=
  { cs kt { cx true [] with mxbad := if bad then some 0 else none } with ops := [{ (ec true kt .nop).newOp base 1 with eng := some (.mx m) }] }
theorem wit_MatrixOperationsEnd_1 (h : Obligations.MatrixOperationsEnd) : Next (.mmaComplete 0) (vm 3 [] false) :=
  let ⟨t, ht⟩ := done_of (x := runProduct (inThread (vm 3 [] false) (opx 3 [])) (opx 3 []) (mxo 3 [])) dk
  ⟨_, (h.1 _ _ _ .mma (vm 3 [] false) 0 (opx 3 []) (mxo 3 []) 0 rfl).1 t rfl ht⟩
theorem wit_MatrixOperationsEnd_2 (h : Obligations.MatrixOperationsEnd) : Next (.tstComplete 0) (vm 2 [] false) :=
  ⟨_, (h.1 _ _ _ .tst (vm 2 [] false) 0 (opx 2 []) (mxo 2 []) 0 dk).2.2.2.1 ⟨5, 0⟩ dk (fault_of dk)⟩
theorem wit_MatrixOperationsEnd_3 (h : Obligations.MatrixOperationsEnd) : Next (.aclrComplete 0) (vm 6 [] true) :=
  ⟨_, (h.1 _ _ _ .aclr (vm 6 [] true) 0 (opx 6 []) (mxo 6 []) 0 rfl).2.2.2.2 rfl⟩
/-- A slice that is not the last, one that is lost as the last, and one of a faulted context. -/
theorem wit_MatrixOperationsEnd_4 (h : Obligations.MatrixOperationsEnd) : Next (.mmagSliceComplete 0 1) (vm 5 [slc, slc] false) :=
  let u := inThread (vm 5 [slc, slc] false) (opx 5 [slc, slc])
  let ⟨t, ht⟩ := done_of (x := runSlice u (opx 5 [slc, slc]) ((mxo 5 [slc, slc]).withB u (opx 5 [slc, slc])) slc) dk
  ⟨_, h.2.1 (vm 5 [slc, slc] false) 0 1 (opx 5 [slc, slc]) (mxo 5 [slc, slc]) 0 slc true t rfl rfl rfl rfl dk (.inl ⟨rfl, ht⟩)⟩
theorem wit_MatrixOperationsEnd_5 (h : Obligations.MatrixOperationsEnd) : Next (.mmagSliceComplete 0 0) (vm 5 [⟨1, tdm, none⟩] false) :=
  ⟨_, h.2.1 (vm 5 [⟨1, tdm, none⟩] false) 0 0 (opx 5 [⟨1, tdm, none⟩]) (mxo 5 [⟨1, tdm, none⟩]) 0 ⟨1, tdm, none⟩ false _ rfl rfl rfl rfl dk
    (.inr ⟨rfl, ⟨⟨4, 0⟩, rfl⟩, rfl⟩)⟩
theorem wit_MatrixOperationsEnd_6 (h : Obligations.MatrixOperationsEnd) : Next (.mmagSliceComplete 0 0) (vm 5 [slc] true) :=
  ⟨_, h.2.2.1 (vm 5 [slc] true) 0 0 (opx 5 [slc]) (mxo 5 [slc]) 0 rfl rfl⟩
theorem wit_MatrixOperationsEnd_7 (h : Obligations.MatrixOperationsEnd) :
    ∃ c, ((vm 3 [] false).mxRecord 0 0 3 ⟨4, 0x40⟩).ctxs[0]? = some c ∧ c.mxfault = BitVec.ofNat 64 (4 * 2 ^ 60 + 3 * 2 ^ 57 + 0x40) :=
  let ⟨x, hx, _, hy, _⟩ := h.2.2.2.2.2 (vm 3 [] false) 0 0 3 ⟨4, 0x40⟩ (cx true []) rfl
  ⟨x, hx, hy dk⟩
theorem wit_MatrixOperationsEnd_8 (h : Obligations.MatrixOperationsEnd) :
    bFpart (bApply 0 (.gang none 7 true)) = 7 ∧ bIwarp (bApply 0 (.gang (some 31) 7 true)) = 31 :=
  let q := h.2.2.2.2.1 0 7 (by decide) (by decide)
  ⟨q.2.2.1, (q.1 31 (by decide)).2.2.2⟩
/-- The first of two shares, and an add-on-store before its line is full. -/
def mxS : MxOp := { mxo 2 [] with shares := some [⟨[], []⟩, ⟨[], []⟩] }
def mxW : MxOp := { mxo 7 [] with shares := some [⟨[], [([.spad 0], 1)]⟩] }
def klf : Crew := kt.setLf 0 false
def vmw : State := { vmm mxW false with crews := [klf] }
theorem part_of {x : MxEnd} (h : (match x with | .part _ => true | _ => false) = true) : ∃ t, x = .part t := by cases x <;> simp_all
theorem wait_of {x : MxEnd} (h : (match x with | .wait => true | _ => false) = true) : x = .wait := by cases x <;> simp_all
theorem wit_MatrixOperationsEnd_9 (h : Obligations.MatrixOperationsEnd) :
    Next (.tstComplete 0) (vmm mxS false) ∧ Next (.adrainComplete 0) vmw :=
  let ⟨t, ht⟩ := part_of (x := runMove (inThread (vmm mxS false) { opx 2 [] with eng := some (.mx mxS) }) { opx 2 [] with eng := some (.mx mxS) } mxS) dk
  ⟨⟨_, (h.1 _ _ _ .tst (vmm mxS false) 0 _ mxS 0 rfl).2.1 t rfl ht⟩,
   ⟨_, (h.1 _ _ _ .adrain vmw 0 _ mxW 0 rfl).2.2.1 rfl (wait_of dk)⟩⟩

theorem wit_ProductsAccumulate (h : Obligations.ProductsAccumulate) :
    (∃ b, product kt kt tdm tdm false 1 ⟨[], true, []⟩ = some b ∧ b.full = true) ∧ product kt kt tdm tdm false 1 ⟨[], true, [(0, 1)]⟩ = none
    ∧ productOn (cs kt (cx true [])) 0 (some kt) false tdm tdm false 7 (fun _ _ => .mask 1)
      = (match product kt kt tdm tdm false 1 (kt.accs.getD 7 ⟨[], true, []⟩) with
          | some b => .done ((cs kt (cx true [])).setAcc 0 7 b) | none => .fault ⟨3, 0⟩) :=
  ⟨match hb : product kt kt tdm tdm false 1 ⟨[], true, []⟩ with
    | some b => ⟨b, rfl, (h.2.2 _ _ _ _ _ _ _ b hb rfl).2.1⟩
    | none => absurd hb dk,
   (h.1 _ _ _ _ _ _ _).mpr ⟨0, dk, rfl, .inr ⟨0, dk, .inr dk⟩⟩,
   h.2.1 (cs kt (cx true [])) 0 kt kt false tdm tdm false 7 (fun _ _ => .mask 1) (kt.accs.getD 7 ⟨[], true, []⟩) 1 dk rfl dk rfl⟩

theorem wit_SequencersRun_1 (h : Obligations.SequencersRun) : Next (.forkMc ⟨9, 32, 63⟩) (vs kr) ∧ Next (.forkM ⟨9, 32, 63⟩) (vs kz) :=
  ⟨⟨_, h.1 _ _ _ _ (.mc _) wp _ _ iv ⟨rfl, rfl, rfl, dk, dk, dk, dk⟩⟩,
   ⟨_, h.2.1 _ _ _ _ (.m _) _ _ iv (.inl ⟨rfl, rfl⟩)⟩⟩
theorem wit_SequencersRun_2 (h : Obligations.SequencersRun) :
    Next (.rdvz ⟨5, 9⟩) { vs kr with ctxs := [{ cx true [] with rid := 9, st := .ended, wasTrapped := true, cause := 13 }] }
    ∧ Next .seqend (cs kr (cx false [])) ∧ Next (.rdvz ⟨5, 9⟩) { vs kr with ctxs := [{ cx true [] with rid := 9 }] } :=
  let ⟨_, _, c, d, w, _⟩ := h
  ⟨⟨_, c _ [{ cx true [] with rid := 9, st := .ended, wasTrapped := true, cause := 13 }] _ _ (iw kr) ⟨sf, dk, dk⟩⟩,
   ⟨_, d 0 (cx false []) _ _ (ix (m := false)) ⟨rfl, rfl⟩⟩, ⟨_, w _ { cx true [] with rid := 9 } _ _ (iw kr) ⟨sf, .head _, rfl, by decide⟩⟩⟩
theorem wit_SequencersRun_4 (h : Obligations.SequencersRun) :
    Next (.sequencerContextEnd 0) (cs kr { cx true [] with st := .ending }) ∧ Next (.sequencerTrapEnd 0) (cs kr { cx true [] with st := .trapped })
    ∧ Next (.sequencerContextEnd 0) (cs { kr with st := .saved } { cx true [] with st := .ending }) :=
  let ⟨_, _, _, _, _, u, f, _⟩ := h
  ⟨⟨_, (f (cs kr { cx true [] with st := .ending }) 0 { cx true [] with st := .ending } kr rfl (fun o ho => absurd ho (List.not_mem_nil)) rfl (by decide)).1 rfl⟩,
   ⟨_, (f (cs kr { cx true [] with st := .trapped }) 0 { cx true [] with st := .trapped } kr rfl (fun o ho => absurd ho (List.not_mem_nil)) rfl (by decide)).2 rfl⟩,
   ⟨_, (u (cs { kr with st := .saved } { cx true [] with st := .ending }) 0 { cx true [] with st := .ending } rfl (.inr ⟨{ kr with st := .saved }, rfl, rfl⟩)).1⟩⟩
theorem wit_SequencersRun_3 (h : Obligations.SequencersRun) :
    Next (.shld ⟨15, 5⟩) (vs kr) ∧ Next (.shld ⟨15, 5⟩) (vs kap) ∧ Next (.shset ⟨15, 9, 5⟩) (vs kr)
    ∧ ((vs kr).seen (ev kr .nop) 0 (.spad 64) 2).length = 2 :=
  let ⟨_, _, _, _, _, _, _, a, b, c⟩ := h
  ⟨⟨_, a _ (fun _ => .mem 0) _ _ iv ⟨sr, plf, rfl, by dsimp only; decide +kernel⟩⟩,
   ⟨_, a _ (fun _ => .spad 64) _ _ iv ⟨sr, plf, rfl, by dsimp only; decide +kernel⟩⟩, ⟨_, c _ _ _ iv sr⟩,
   by rw [(b (vs kr) (ev kr .nop) 0 2 rfl).1 64]; rfl⟩

theorem wit_CopiesIssueAndMove_1 (h : Obligations.CopiesIssueAndMove) :
    Next (.copy ⟨5, 6, 7⟩) (cs kr (cx false [(6, 0x100), (7, 4097)])) ∧ Next (.gather ⟨5, 6, 7⟩) (cs kr (cx false [(7, 2 ^ 27)]))
    ∧ Next (.mcast ⟨5, 6, 7⟩) (cs kr (cx false [(7, 2 ^ 25 + 2 ^ 26)]))
    ∧ Next (.copy ⟨5, 6, 7⟩) (cs { kr with lines := [(0, 31)] } (cx false [(5, 0xFFFFFFFF00000000), (7, 4)]))
    ∧ Next (.mcast ⟨5, 6, 7⟩) (cs kr (cx false [(6, 0xFFFFFFFF00000000), (7, 2 ^ 25 + 15 * 2 ^ 32 + 3)])) :=
  let ⟨a, b, c, d, f⟩ := h.1
  ⟨⟨_, a _ _ _ (.copy _) _ _ (ix (m := false)) ⟨⟨sr, sr, sr⟩, rfl, dk, dk⟩⟩,
   ⟨_, b _ _ _ (.gather _) _ _ (ix (m := false)) ⟨⟨sr, sr, sr⟩, dk⟩⟩,
   ⟨_, c _ _ _ (ix (m := false)) ⟨⟨sr, sr, sr⟩, by unfold McastControl; decide +kernel⟩⟩,
   ⟨_, d _ _ _ (.copy _) _ _ (ix (m := false)) ⟨⟨sr, sr, sr⟩, rfl, .inr dk⟩⟩,
   ⟨_, f _ _ _ (ix (m := false)) ⟨⟨sr, sr, sr⟩, dk, by unfold McastControl; decide +kernel, dk⟩⟩⟩

/-- Copy-engine operations in flight of 200 bytes, or of tensor rows of 16 bytes: nothing read, everything read, everything accepted. -/
def shA (dim1 : Nat) : BitVec 512 := BitVec.ofNat 512 (1 + 4 * 2 ^ 128 + dim1 * 2 ^ 160 + 16 * 2 ^ 304)
def cpo (fn dst src ctl : Nat) (n dim1 : Nat) : CpOp :=
  { CpOp.fresh fn (BitVec.ofNat 64 dst) (BitVec.ofNat 64 src) (BitVec.ofNat 64 ctl) (shA dim1) with left := [(0, n)], unread := [(0, n)] }
def cpw (fn dst ctl : Nat) : CpOp := { cpo fn dst 0x100 ctl 200 1 with unread := [] }
def rcv (crew : Nat) (ok : Bool) : McDst := ⟨crew, 0x80, 0, ok⟩
def cpm (crew : Nat) (ok : Bool) : CpOp := { cpo 10 0 0x100 200 200 0 with recv := [rcv crew ok] }
def cpd (fn : Nat) (left : List (Nat × Nat)) : CpOp := { cpw fn 0x1000 200 with left := left, owed := [(0, 100, false)], recv := [rcv 0 true] }
def opc (c : CpOp) : Op := { (ec false kr .nop).newOp base 1 with eng := some (.cp c) }
def vcp (ks : List Crew) (c : CpOp) : State := { cs kr (cx false []) with crews := ks, ops := [opc c] }
theorem crn {k : Crew} {l : List Crew} {c : CpOp} (h : k.st ≠ .saved := by decide) : CopyRuns (vcp (k :: l) c) 0 (opc c) c k := ⟨rfl, rfl, rfl, h, rfl⟩
def bytesOf : CpRead → Option (List MByte)
  | .bytes b => some b
  | _ => none
theorem bytes_of {x : CpRead} (h : (bytesOf x).isSome = true) : ∃ b, x = .bytes b := by cases x <;> simp_all [bytesOf]
def faultC : CpRead → Option EFault
  | .fault b => some b
  | _ => none
theorem faultC_of {x : CpRead} (h : (faultC x).isSome = true) : ∃ b, x = .fault b := by cases x <;> simp_all [faultC]
def waitC : CpRead → Bool
  | .wait => true
  | _ => false
theorem waitC_of {x : CpRead} (h : waitC x = true) : x = .wait := by cases x <;> simp_all [waitC]
theorem useB {x : CpRead} {P : Prop} (f : ∀ a, x = .bytes a → P) (h : (bytesOf x).isSome = true := by decide +kernel) : P :=
  let ⟨a, ha⟩ := bytes_of h; f a ha
theorem useF {x : CpRead} {P : Prop} (f : ∀ a, x = .fault a → P) (h : (faultC x).isSome = true := by decide +kernel) : P :=
  let ⟨a, ha⟩ := faultC_of h; f a ha
/-- A COPY reads its bytes; its source faults; its source's line is not full. -/
theorem wit_CopiesIssueAndMove_2 (h : Obligations.CopiesIssueAndMove) :
    Next (.copyPart 0 199) (vcp [kr] (cpo 7 0x1000 0x100 200 200 0)) ∧ Next (.copyPart 0 0) (vcp [kr] (cpo 7 0x1000 0x200000 200 200 0))
    ∧ Next (.copyPart 0 64) (vcp [{ kr with lines := [(1, 1)] }] (cpo 7 0x1000 0xFFFFFFFF00000040 200 200 0)) :=
  let a := cpo 7 0x1000 0x100 200 200 0
  let b := cpo 7 0x1000 0x200000 200 200 0
  let c := cpo 7 0x1000 0xFFFFFFFF00000040 200 200 0
  let k : Crew := { kr with lines := [(1, 1)] }
  ⟨useB fun bs hb => ⟨_, ((h.2.1 (vcp [kr] a) 0 199 (opc a) a kr (0, 200) crn dk).1 a _ (.inl ⟨.inl rfl, rfl, rfl⟩)).2.1 dk bs hb⟩,
   useF fun f hf => ⟨_, ((h.2.1 (vcp [kr] b) 0 0 (opc b) b kr (0, 200) crn dk).1 b _ (.inl ⟨.inl rfl, rfl, rfl⟩)).2.2.1 dk f hf⟩,
   ⟨_, ((h.2.1 (vcp [k] c) 0 64 (opc c) c k (0, 200) crn dk).1 c _ (.inl ⟨.inl rfl, rfl, rfl⟩)).2.2.2 dk
     (waitC_of dk)⟩⟩
/-- A GATHER's row whose index is out of range gives zeros, and one whose index is not there waits; a SCATTER skips such a row; an MCAST entry
that can deliver nothing is refused, and one that can is read. -/
theorem wit_CopiesIssueAndMove_3 (h : Obligations.CopiesIssueAndMove) :
    Next (.copyPart 0 17) (vcp [kr] (cpo 8 0x1000 0x100 (2 ^ 33) 32 0)) ∧ Next (.copyPart 0 17) (vcp [{ kr with lines := [(0, 1)] }] (cpo 9 0x1000 0x100 (2 ^ 33) 32 0))
    ∧ Next (.copyPart 0 17) (vcp [kr] (cpo 9 0x1000 0x100 (2 ^ 33) 32 0)) ∧ Next (.copyPart 0 199) (vcp [kr] (cpm 0 false))
    ∧ Next (.copyPart 0 17) (vcp [kr] (cpo 9 0x1000 0x100 (2 ^ 33) 32 1)) ∧ Next (.copyPart 0 199) (vcp [kr] (cpm 0 true)) :=
  let a := cpo 8 0x1000 0x100 (2 ^ 33) 32 0
  let b := cpo 9 0x1000 0x100 (2 ^ 33) 32 0
  let k : Crew := { kr with lines := [(0, 1)] }
  let g := cpo 9 0x1000 0x100 (2 ^ 33) 32 1
  ⟨⟨_, ((h.2.1 (vcp [kr] a) 0 17 (opc a) a kr (0, 32) crn dk).1 _ _ (.inr ⟨0, .inl rfl, dk, rfl, rfl⟩)).1 dk⟩,
   ⟨_, (h.2.1 (vcp [k] b) 0 17 (opc b) b k (0, 32) crn dk).2.1 (.inr rfl) dk⟩,
   ⟨_, (h.2.1 (vcp [kr] b) 0 17 (opc b) b kr (0, 32) crn dk).2.2.1 0 rfl dk dk⟩,
   ⟨_, (h.2.1 (vcp [kr] (cpm 0 false)) 0 199 (opc (cpm 0 false)) (cpm 0 false) kr (0, 200) crn dk).2.2.2 (rcv 0 false) rfl
     dk rfl⟩,
   useB fun bs hb => ⟨_, ((h.2.1 (vcp [kr] g) 0 17 (opc g) g kr (0, 32) crn dk).1 _ _ (.inr ⟨0, .inr ⟨rfl, dk⟩, dk, rfl, rfl⟩)).2.1
     dk bs hb⟩,
   useB fun cs hc => ⟨_, ((h.2.1 (vcp [kr] (cpm 0 true)) 0 199 (opc (cpm 0 true)) (cpm 0 true) kr (0, 200) crn dk).1 (cpm 0 true) _
     (.inl ⟨.inr ⟨rfl, fun x hx => by cases hx; rfl⟩, rfl, rfl⟩)).2.1 dk cs hc⟩⟩
/-- Parts are accepted in memory and in the tile memory; a destination faults. -/
theorem wit_CopiesIssueAndMove_4 (h : Obligations.CopiesIssueAndMove) :
    Next (.copyPart 0 199) (vcp [kr] (cpw 7 0x1000 200)) ∧ Next (.copyPart 0 0) (vcp [kr] (cpw 8 0x200000 (2 ^ 32)))
    ∧ Next (.copyPart 0 150) (vcp [kr] (cpw 7 0x40 (2 ^ 30 + 200))) :=
  let a := cpw 7 0x1000 200
  let b := cpw 8 0x200000 (2 ^ 32)
  let c := cpw 7 0x40 (2 ^ 30 + 200)
  ⟨useOk fun ps hp => ⟨_, ((h.2.2.1 (vcp [kr] a) 0 199 (opc a) a kr (192, 8) crn ⟨rfl, ⟨(0, 200), rfl, dk⟩, nofun⟩).1 (by decide)).1 ps dk hp nofun⟩,
   useErr fun f hf => ⟨_, ((h.2.2.1 (vcp [kr] b) 0 0 (opc b) b kr (0, 64) crn ⟨rfl, ⟨(0, 200), rfl, dk⟩, nofun⟩).1 (by decide)).2.2 f dk hf⟩,
   ⟨_, ((h.2.2.1 (vcp [kr] c) 0 150 (opc c) c kr (64, 128) crn ⟨rfl, ⟨(0, 200), rfl, dk⟩, nofun⟩).1 (by decide)).2.1 dk rfl⟩⟩
/-- A part for a receiver that runs, one for a saved receiver, one for a receiver that has ended. -/
theorem wit_CopiesIssueAndMove_5 (h : Obligations.CopiesIssueAndMove) :
    Next (.copyPart 0 0) (vcp [kr] { cpm 0 true with unread := [] })
    ∧ Next (.copyPart 0 0) (vcp [kr, { kr with crewid := 1, st := .saved }] { cpm 1 true with unread := [] })
    ∧ Next (.copyPart 0 0) (vcp [kr, { kr with crewid := 1, st := .ended }] { cpm 1 true with unread := [] }) :=
  let a : CpOp := { cpm 0 true with unread := [] }
  let b : CpOp := { cpm 1 true with unread := [] }
  let k1 : Crew := { kr with crewid := 1, st := .saved }
  let k2 : Crew := { kr with crewid := 1, st := .ended }
  ⟨⟨_, ((h.2.2.1 (vcp [kr] a) 0 0 (opc a) a kr (0, 128) crn ⟨rfl, ⟨(0, 200), rfl, dk⟩, nofun⟩).2 (rcv 0 true) 0 kr rfl dk rfl
     dk).1 rfl nofun⟩,
   ⟨_, ((h.2.2.1 (vcp [kr, k1] b) 0 0 (opc b) b kr (0, 128) crn ⟨rfl, ⟨(0, 200), rfl, dk⟩, nofun⟩).2 (rcv 1 true) 1 k1 rfl dk
     dk rfl).2.1 rfl⟩,
   ⟨_, ((h.2.2.1 (vcp [kr, k2] b) 0 0 (opc b) b kr (0, 128) crn ⟨rfl, ⟨(0, 200), rfl, dk⟩, nofun⟩).2 (rcv 1 true) 1 k2 rfl dk
     dk rfl).2.2 rfl⟩⟩
/-- An accepted part is accounted once nothing is left, and waits before. -/
theorem wit_CopiesIssueAndMove_6 (h : Obligations.CopiesIssueAndMove) :
    Next (.copyPart 0 99) (vcp [kr] (cpd 7 [])) ∧ Next (.copyPart 0 0) (vcp [kr] (cpd 9 [(100, 100)]))
    ∧ Next (.copyPart 0 0) (vcp [kr] (cpd 10 [])) ∧ Next (.copyPart 0 0) (vcp [kr] (cpd 10 [(100, 100)])) :=
  let c := h.2.2.2.1
  ⟨⟨_, (c (vcp [kr] (cpd 7 [])) 0 99 (opc (cpd 7 [])) (cpd 7 []) kr (0, 100, false) crn rfl rfl rfl).1 (by decide) rfl rfl⟩,
   ⟨_, (c (vcp [kr] (cpd 9 [(100, 100)])) 0 0 (opc (cpd 9 [(100, 100)])) (cpd 9 [(100, 100)]) kr (0, 100, false) crn rfl rfl rfl).2.1 (by decide) (.inr (by decide))⟩,
   ⟨_, (((c (vcp [kr] (cpd 10 [])) 0 0 (opc (cpd 10 [])) (cpd 10 []) kr (0, 100, false) crn rfl rfl rfl).2.2 (rcv 0 true) rfl rfl).1 rfl dk nofun).1 rfl⟩,
   ⟨_, ((c (vcp [kr] (cpd 10 [(100, 100)])) 0 0 (opc (cpd 10 [(100, 100)])) (cpd 10 [(100, 100)]) kr (0, 100, false) crn rfl rfl rfl).2.2 (rcv 0 true) rfl rfl).2
     (.inr (.inl dk))⟩⟩
theorem wit_CopiesIssueAndMove_7 (h : Obligations.CopiesIssueAndMove) :
    (cpd 8 []).account (0, 5, true) = .settle 5 70 ∧ ({ cpd 8 [] with part := true } : CpOp).account (0, 100, false) = .landBit 100 70
    ∧ (vcp [kr] (cpd 7 [])).cpNext (opc (cpd 7 [])) (cpd 7 []) = (vcp [kr] (cpd 7 [])).modOp 0 (fun o => { o with eng := some (.cp (cpd 7 [])) })
    ∧ (vcp [kr] (cpd 7 [])).cpNext (opc (cpd 7 [])) { cpd 7 [] with owed := [] } = (vcp [kr] (cpd 7 [])).endEng (opc (cpd 7 [])) none
    ∧ cpLanded kr (cpo 7 0x1000 0x100 200 200 0) = [] :=
  let ⟨_, a, b, c, d⟩ := h.2.2.2
  ⟨(a (cpd 8 []) (0, 5, true)).1 rfl, (a { cpd 8 [] with part := true } (0, 100, false)).2.2 rfl rfl rfl rfl rfl,
   b _ _ (cpd 7 []) rfl (.inr (.inr (by decide))), c _ _ { cpd 7 [] with owed := [] } rfl rfl rfl rfl, (d (cpo 7 0x1000 0x100 200 200 0) kr).1 (by decide)⟩

theorem wit_PageInstructionsIssue_1 (h : Obligations.PageInstructionsIssue) :
    Next (.kvgather ⟨5, 6, 7⟩) (kvs kr (cc [(6, 1), (7, 0x100)])) :=
  ⟨_, h.1.1 _ ⟨0, 0, 1, 0, false, 0, 0, 0x100⟩ wp [(0, 0, 5)] _ _ ik ⟨sr, sr, rfl, inr, dk, rfl, fre, dk, dk,
    dk, dk, dk, dk⟩⟩
theorem wit_PageInstructionsIssue_2 (h : Obligations.PageInstructionsIssue) :
    Next (.kvappend ⟨15, 6, 7⟩) (kvs kr (cc [(6, 64 * 2 ^ 32 + 1)])) :=
  ⟨_, h.1.2.1 _ ⟨0, 64, 1, 0, false, 0, 0, 0⟩ wp _ _ ik ⟨sr, sr, rfl, rfl, inr, rdy, dk, dk, dk⟩⟩
theorem wit_PageInstructionsIssue_3 (h : Obligations.PageInstructionsIssue) :
    Next (.kvappend ⟨15, 6, 7⟩) (kvs kr (cc [(6, 15 * 2 ^ 32 + 1)])) :=
  let s := kvs kr (cc [(6, 15 * 2 ^ 32 + 1)])
  have hp : (kaPage s 0 ⟨0, 15, 1, 0, false, 0, 0, 0⟩ (0, 5)).map Prod.fst = some 5 := by decide +kernel
  match hk : kaPage s 0 ⟨0, 15, 1, 0, false, 0, 0, 0⟩ (0, 5) with
  | none => absurd hp (by rw [hk]; decide)
  | some (f, u) => ⟨_, h.1.2.2 _ ⟨0, 15, 1, 0, false, 0, 0, 0⟩ wp f u _ _ ik
      ⟨sr, sr, rfl, rfl, inr, rdy, dk, dk, (by
        have hr : (kvs kr (cc [(6, 15 * 2 ^ 32 + 1)])).resolve 1 1 0 15 = (0, 5) := by decide +kernel
        exact (congrArg (kaPage s 0 ⟨0, 15, 1, 0, false, 0, 0, 0⟩) hr).trans hk), dk, dk⟩⟩
/-- PGREQ acts, waits, answers the one status that fits, and answers one of several. -/
theorem wit_PageInstructionsIssue_4 (h : Obligations.PageInstructionsIssue) :
    Next (.pgreqRelease ⟨5, 6, 7⟩) (kvs kr (cc [(6, 1), (7, 4 * 2 ^ 32)])) ∧ Next (.pgreq ⟨5, 6, 7⟩) (kvs kr (cc [(6, 15 * 2 ^ 60 + 1)]))
    ∧ Next (.pgreqShare ⟨5, 6, 7⟩) (kvs kr (cc [(6, 2), (7, 1)])) :=
  let ⟨a, _, _, b, c⟩ := h.2.2
  ⟨⟨_, a _ _ _ (.release _) _ _ ik ⟨⟨sr, sr, sf⟩, dk, dk, dk⟩⟩,
   ⟨_, b _ _ _ 6 (.any _) _ _ ik ⟨⟨sr, sr, sf⟩, dk⟩⟩,
   (let ⟨_, _, hx⟩ := c _ _ _ (.share ⟨5, 6, 7⟩) (kvs kr (cc [(6, 2), (7, 1)])) _ ik ⟨sr, sr, sf⟩ dk; ⟨_, hx⟩)⟩

/-- Page 0 of that sequence is INBOUND. -/
def kvi (k : Crew) (c : SCtx) : State := (kvs k c).wr (0x10000 + 32 * 5) 32 (feNew 4 1 0 0 noFrame 0)
theorem ii {k : Crew} {c : SCtx} {i : Instr} (h : (kvi k c).env? (.ctx 0) (hdrOf i) = some (ec false k i) := by rfl)
    (ht : i.takenBy .copy = true := by decide +kernel) : Issues (kvi k c) i (ec false k i) := ⟨rfl, h, ht⟩
def kfull (c : SCtx) : State := { kvs kr c with ops := List.replicate 64 (opc (cpo 7 0 0 0 1 0)) }
theorem iff_ {c : SCtx} {i : Instr} (h : (kfull c).env? (.ctx 0) (hdrOf i) = some (ec false kr i) := by rfl)
    (ht : i.takenBy .copy = true := by decide +kernel) : Issues (kfull c) i (ec false kr i) := ⟨rfl, h, ht⟩
/-- No frame is free beyond the reserve. -/
def kres (c : SCtx) : State := { kvs kr c with dies := [{ dieA with pe := { dieA.pe with reserve := 100 } }, Die.reset] }
theorem ir {c : SCtx} {i : Instr} (h : (kres c).env? (.ctx 0) (hdrOf i) = some (ec false kr i) := by rfl)
    (ht : i.takenBy .copy = true := by decide +kernel) : Issues (kres c) i (ec false kr i) := ⟨rfl, h, ht⟩
theorem wit_PageInstructionsIssue_5 (h : Obligations.PageInstructionsIssue) :
    Next (.kvgather ⟨5, 6, 7⟩) (kvi kr (cc [(6, 1), (7, 0x100)])) ∧ Next (.kvgather ⟨5, 6, 7⟩) (kfull (cc [(6, 1), (7, 0x100)])) :=
  let ⟨a, b, _⟩ := h.2.1
  ⟨⟨_, a _ ⟨0, 0, 1, 0, false, 0, 0, 0x100⟩ wp (0, 0, 5) _ _ ii ⟨⟨sr, sr, rfl, inr, nofun, rfl, fre⟩, dk⟩⟩,
   ⟨_, b _ ⟨0, 0, 1, 0, false, 0, 0, 0x100⟩ wp _ _ iff_ ⟨⟨sr, sr, rfl, inr, nofun, rfl, fre⟩, dk, dk, .inl dk⟩⟩⟩
theorem wit_PageInstructionsIssue_6 (h : Obligations.PageInstructionsIssue) :
    Next (.kvappend ⟨15, 6, 7⟩) (kvi kr (cc [(6, 15 * 2 ^ 32 + 1)])) ∧ Next (.kvappend ⟨15, 6, 7⟩) (kfull (cc [(6, 15 * 2 ^ 32 + 1)]))
    ∧ Next (.kvappend ⟨15, 6, 7⟩) (kres (cc [(6, 16 * 2 ^ 32 + 1)])) :=
  let ⟨_, _, a, b, c, _⟩ := h.2.1
  ⟨⟨_, a _ ⟨0, 15, 1, 0, false, 0, 0, 0⟩ wp _ _ ii ⟨⟨sr, sr, rfl, rfl, inr, rdy⟩, dk, dk⟩⟩,
   ⟨_, b _ ⟨0, 15, 1, 0, false, 0, 0, 0⟩ wp _ _ iff_ ⟨⟨sr, sr, rfl, rfl, inr, rdy⟩, dk, dk, dk⟩⟩,
   ⟨_, c _ ⟨0, 16, 1, 0, false, 0, 0, 0⟩ wp _ _ ir ⟨⟨sr, sr, rfl, rfl, inr, rdy⟩, dk, dk, dk, dk,
     none_of dk⟩⟩⟩
/-- A wait begins, goes on, and runs out: as a trap, and for PGREQ as status 7. -/
def kwt : Crew := { kr with pgwait := 1 }
def vwt (now kind : Nat) : State :=
  { cs kwt (cc []) with dtime := now, pgWaits := [⟨.ctx 0, 0, 0, kind, 5, 5, 0, 0, false⟩] }
theorem wit_PageInstructionsIssue_7 (h : Obligations.PageInstructionsIssue) :
    ((cs kr (cc [])).pgStand (ec false kr .nop) ⟨0, 0, 5, 0, 0⟩).pgWaits.length = 1 ∧ ((vwt 999 0).pgStand (ec false kwt .nop) ⟨0, 0, 5, 0, 0⟩).pgWaits.length = 1
    ∧ ((vwt 1000 0).pgStand (ec false kwt .nop) ⟨0, 0, 5, 0, 0⟩).pgWaits = [] ∧ ((vwt 1000 2).pgStand (ec false kwt .nop) ⟨2, 5, 5, 0, 0⟩).pgWaits = [] :=
  let ⟨_, _, _, _, _, _, _, _, a, b⟩ := h.2.1
  let w := fun (k : Nat) => (⟨.ctx 0, 0, 0, k, 5, 5, 0, 0, false⟩ : PgWait)
  ⟨by rw [a (cs kr (cc [])) (ec false kr .nop) ⟨0, 0, 5, 0, 0⟩ nofun]; rfl,
   by rw [(b (vwt 999 0) (ec false kwt .nop) ⟨0, 0, 5, 0, 0⟩ (w 0) rfl rfl).1 (.inr dk)]; rfl,
   by rw [(b (vwt 1000 0) (ec false kwt .nop) ⟨0, 0, 5, 0, 0⟩ (w 0) rfl rfl).2.1 (by decide) dk (by decide)]; rfl,
   by rw [(b (vwt 1000 2) (ec false kwt .nop) ⟨2, 5, 5, 0, 0⟩ (w 2) rfl rfl).2.2 (by decide) dk rfl]; rfl⟩
theorem wit_PageInstructionsIssue_8 (h : Obligations.PageInstructionsIssue) : Next (.pgreqPin ⟨5, 6, 7⟩) (kvi kr (cc [(6, 1), (7, 1 * 2 ^ 32)])) :=
  ⟨_, h.2.2.2.1 _ _ _ 5 [] (.pin _) _ _ ii ⟨⟨sr, sr, sf⟩, dk, dk⟩⟩
/-- Waits that have stood for PGWAIT, whose page has come since. -/
def kvw (c : SCtx) : State := { kvs kwt c with dtime := 1000, pgWaits := [⟨.ctx 0, 0, 0, 0, 5, 5, 0, 0, false⟩] }
theorem il {c : SCtx} {i : Instr} (h : (kvw c).env? (.ctx 0) (hdrOf i) = some (ec false kwt i) := by rfl)
    (ht : i.takenBy .copy = true := by decide +kernel) : Issues (kvw c) i (ec false kwt i) := ⟨rfl, h, ht⟩
theorem wit_PageInstructionsIssue_9 (h : Obligations.PageInstructionsIssue) :
    Next (.kvgather ⟨5, 6, 7⟩) (kvw (cc [(6, 1), (7, 0x100)])) ∧ Next (.kvappend ⟨15, 6, 7⟩) (kvw (cc [(6, 15 * 2 ^ 32 + 1)]))
    ∧ Next (.pgreqRelease ⟨5, 6, 7⟩) (kvw (cc [(6, 1), (7, 4 * 2 ^ 32)])) :=
  let ⟨_, _, _, _, _, a, b, _⟩ := h.2.1
  ⟨⟨_, a _ ⟨0, 0, 1, 0, false, 0, 0, 0x100⟩ wp _ _ _ il ⟨⟨sr, sr, rfl, inr, nofun, rfl, fre⟩, dk, rfl⟩⟩,
   ⟨_, b _ ⟨0, 15, 1, 0, false, 0, 0, 0⟩ wp _ _ _ il ⟨⟨sr, sr, rfl, rfl, inr, rdy⟩, dk, rfl⟩⟩,
   ⟨_, h.2.2.2.2.1 _ _ _ _ (.release _) _ _ il ⟨⟨sr, sr, sf⟩, dk, dk, rfl⟩⟩⟩
/-- A begun MCAST that has only to be accounted for, and one whose receiver is saved. -/
def cpb (left : List (Nat × Nat)) : CpOp := { cpm 0 true with begun := true, unread := [], left := left }
theorem wit_CrewsAreSavedAndRestored_4 (h : Obligations.CrewsAreSavedAndRestored) :
    (vcp [kr] (cpb [])).withdraws (opc (cpb [])) ≠ true ∧ (vcp [{ kr with st := .saved }] (cpb [(0, 200)])).withdraws (opc (cpb [(0, 200)])) = true :=
  ⟨fun x => ((h.1.2.2.2.2.2 _ _ (cpb []) rfl rfl).mp x).2.1 rfl,
   (h.1.2.2.2.2.2 _ _ (cpb [(0, 200)]) rfl rfl).mpr ⟨rfl, by decide, by decide +kernel, fun _ hq => absurd hq List.not_mem_nil⟩⟩

theorem wit_TransfersIssue_1 (h : Obligations.TransfersIssue) :
    Next (.put ⟨5, 6, 7⟩) (cs kr (cx false [(7, 0)])) ∧ Next (.put ⟨5, 6, 7⟩) (vs (ks [(7, 2 ^ 23 - 1)]))
    ∧ Next (.get ⟨5, 6, 7⟩) (vs (ks [(5, 0xFFFFFFFF00000000), (7, 2 ^ 25 + 2 ^ 26 + 129)]))
    ∧ Next (.ratom ⟨5, 6, 7⟩) (vs (ks [(7, 16 + 1)])) ∧ Next (.put ⟨5, 6, 7⟩) (vs (ks [(7, 2 ^ 26)])) :=
  let ⟨a, b, c, _, d⟩ := h
  ⟨⟨_, a _ _ _ (ix (m := false)) ⟨⟨sr, sr, sr⟩, dk, dk, dk⟩⟩,
   ⟨_, a _ _ _ iv ⟨⟨sr, sr, sr⟩, dk, dk, dk⟩⟩,
   ⟨_, b _ _ _ iv ⟨⟨sr, sr, sr⟩, dk, dk, dk, dk, dk, dk⟩⟩,
   ⟨_, c _ (vvw (wps [(7, 17)])) 8 _ _ iv ⟨rfl, sr, sr, dk, dk, dk, inr, rdy, fre, dk, dk⟩⟩,
   ⟨_, d _ _ _ iv ⟨⟨sr, sr, sr⟩, dk⟩⟩⟩
def rgrp : RedGrp := ⟨0, 7, 1, 4, 1, 1000⟩
theorem wit_TransfersIssue_2 (h : Obligations.TransfersIssue) : Next (.rednet ⟨5, 6, 7⟩) { vs (ks [(7, 2047)]) with redgrps := [rgrp] } :=
  ⟨_, h.2.2.2.1 _ rgrp _ _ (iw (ks [(7, 2047)])) ⟨⟨sr, sr, sr⟩, dk, dk, dk, dk, dk,
    dk, dk, dk, dk, dk⟩⟩

def vp (p : Nat) : State := (vs (ks [(6, 0x1000), (7, 7)])).wr 0x1000 128 p
theorem wit_SchedulerInstructions_1 (h : Obligations.SchedulerInstructions) :
    Next (.sqadm ⟨5, 6⟩) (vp 1) ∧ Next (.sqadm ⟨5, 6⟩) (vs (ks [(6, 0x200000)])) ∧ Next (.launch ⟨5, 6, 7⟩) (vp childP) ∧ Next (.launch ⟨5, 6, 7⟩) (vp 1) :=
  let ⟨a, b, _, _, _, _, _, _, c, d⟩ := h
  ⟨⟨_, a _ 1 _ _ (iw (ks [(6, 0x1000), (7, 7)])) ⟨sr, sf, dk, dk⟩⟩,
   ⟨_, b _ _ _ iv ⟨sr, sf, dk, dk⟩⟩,
   ⟨_, c _ childP _ _ (iw (ks [(6, 0x1000), (7, 7)])) ⟨⟨sr, sr, sf⟩, dk, rfl, dk, dk, dk⟩⟩,
   ⟨_, d _ 1 _ _ (iw (ks [(6, 0x1000), (7, 7)])) ⟨⟨sr, sr, sf⟩, dk, dk, dk, dk, dk⟩⟩⟩
theorem wit_SchedulerInstructions_2 (h : Obligations.SchedulerInstructions) :
    Next (.tokfb ⟨5, 6, 7⟩) (vs (ks [(6, 2 ^ 32 - 1), (7, 2 ^ 32 - 1)])) ∧ Next (.tokfb ⟨5, 6, 7⟩) (vs (ks [(7, 2 ^ 32)]))
    ∧ Next (.seqret ⟨5, 6, 7⟩) (vs (ks [(7, 6)])) ∧ Next (.seqret ⟨5, 6, 7⟩) (vs (ks [(7, 7)])) ∧ ((vs kr).feedToken 9 0).2 = -1 :=
  let ⟨_, _, a, b, c, d, _, f, _⟩ := h
  ⟨⟨_, a _ _ _ iv ⟨⟨sr, sr, sf⟩, dk, dk, dk⟩⟩,
   ⟨_, b _ _ _ iv ⟨⟨sr, sr, sf⟩, dk, dk⟩⟩,
   ⟨_, c _ _ _ iv ⟨⟨sr, sr, sf⟩, dk, dk, dk⟩⟩,
   ⟨_, d _ _ _ iv ⟨⟨sr, sr, sf⟩, dk, dk⟩⟩, by rw [f (vs kr) 9 0 dk]; rfl⟩

/-- A host load of 16 bytes at its two requests, and a host store of two cells. -/
def opH (x : FillSrc) : Op := { op0 with isLoad := true, fills := [⟨0, x⟩] }
def vH (x : FillSrc) : State := { vs kr with ops := [opH x] }
def opHs : Op := { opS with cells := [⟨1, memKey 3 0, 4, 5, ones 4⟩, ⟨2, memKey 3 4, 4, 6, 0xFF⟩] }
def vHs : State := { vs kr with ops := [opHs] }
/-- A store of two cells in one block, one of them in part. -/
def opS2 : Op := { opS with cells := [⟨1, 64, 4, 5, ones 4⟩, ⟨2, 66, 1, 6, 0xF⟩] }
theorem wit_AccessesAreAccepted_1 (h : Obligations.AccessesAreAccepted) :
    Next (.producerFill 0 0) vA1 ∧ Next (.producerFill 0 0) vA2 ∧ Next (.producerFill 0 0) (vH (.half 5 false 0x48 1))
    ∧ Next (.producerFill 0 0) (vH (.mem (memKey 3 0x40) 16 false 1)) ∧ Next (.producerFill 1 0) vA3 ∧ Next (.scalarProducerFill 0) vA4
    ∧ vA2.rdAt 0x40 4 (vA2.readPoint (.warp 0 0) 0 1 none 0x40 4) = vA2.rd 0x40 4 :=
  let ⟨⟨a, b, c, d, f, g⟩, _⟩ := h
  let hh := opH (.half 5 false 0x48 1)
  let hm := opH (.mem (memKey 3 0x40) 16 false 1)
  let ⟨_, h1, _⟩ := f vA2 opA2 (1#64 <<< 0) 0x40 4 (by simp only [NoneBefore]; decide +kernel)
  let ⟨_, h2, _⟩ := f (vH (.half 5 false 0x48 1)) hh (1#64 <<< 0) 0x48 8 (by simp only [NoneBefore]; decide +kernel)
  let ⟨_, h3, _⟩ := f (vH (.mem (memKey 3 0x40) 16 false 1)) hm (1#64 <<< 0) (memKey 3 0x40) 8 (by simp only [NoneBefore]; decide +kernel)
  let ⟨_, h4, _⟩ := f vA4 opA4 opA4.lanes 0x40 8 (by simp only [NoneBefore]; decide +kernel)
  ⟨(let ⟨_, x, _⟩ := a vA1 0 0 opA1 ⟨0, .ready [(1, Lane.full 5 false)]⟩ [(1, Lane.full 5 false)] rfl rfl (.inl rfl); ⟨_, x⟩),
   (let ⟨_, x, _⟩ := a vA2 0 0 opA2 ⟨0, .mem 0x40 4 false 1⟩ _ rfl rfl (.inr (.inl ⟨0x40, 4, false, 1, _, _, _, rfl, by decide, h1, rfl⟩)); ⟨_, x⟩),
   (let ⟨_, x, _⟩ := a (vH (.half 5 false 0x48 1)) 0 0 hh ⟨0, .half 5 false 0x48 1⟩ _ rfl rfl (.inr (.inr ⟨5, false, 0x48, 1, _, _, _, rfl, h2, rfl⟩)); ⟨_, x⟩),
   ⟨_, b (vH (.mem (memKey 3 0x40) 16 false 1)) 0 0 hm ⟨0, .mem (memKey 3 0x40) 16 false 1⟩ (memKey 3 0x40) false 1 _ _ _ rfl rfl rfl dk h3⟩,
   ⟨_, c vA3 1 0 opA3 ⟨0, .mem 0x40 4 false 1⟩ 0x40 4 false 1 rfl rfl rfl (none_of dk)⟩,
   (let ⟨_, x, _⟩ := d vA4 0 opA4 ⟨5, 0x40, none⟩ _ rfl rfl (.inr ⟨rfl, _, _, _, h4, rfl⟩); ⟨_, x⟩), g vA2 (.warp 0 0) 0 1 0x40 4 nofun⟩
theorem wit_AccessesAreAccepted_2 (h : Obligations.AccessesAreAccepted) :
    Next (.storeAccept 0 1) { vs kr with ops := [opS2] } ∧ opHs.cellsOf (memKey 3 0 / 64) = [⟨1, memKey 3 0, 4, 5, ones 4⟩]
    ∧ (⟨2, 66, 1, 6, 0xF⟩ : Cellw) ∈ opS2.cellsOf 1 ∧ Next (.storeAccept 1 1) vA5 ∧ Next (.atomicUnitExecute 0 0x40) vA6 :=
  let ⟨_, a, b, c, d, f⟩ := h
  ⟨(let ⟨_, x, _⟩ := a { vs kr with ops := [opS2] } 0 1 opS2 rfl dk dk; ⟨_, x⟩),
   (c opHs (memKey 3 0 / 64) ⟨1, memKey 3 0, 4, 5, ones 4⟩ [⟨2, memKey 3 4, 4, 6, 0xFF⟩] dk dk).1,
   ((b opS2 1 dk ⟨2, 66, 1, 6, 0xF⟩).1).mpr ⟨dk, .inl dk⟩,
   ⟨_, d vA5 1 1 opA5 ⟨1, 64, 4, 5, ones 4⟩ rfl dk dk⟩,
   (let ⟨_, x, _⟩ := f vA6 0 0x40 opA6 rfl dk dk dk; ⟨_, x⟩)⟩

def pInd : Nat := childP + 0x200000 * 2 ^ 384 + 2 ^ 243
def lHuge : Launch := { lau childP 0 with image := { img with warps := 33 } }
theorem core {p : Nat} (hp : (match (vj (.launch (lau p 1))).findCore (jobA (.launch (lau p 1))) (lau p 1) with
      | some i => decide (i = 5) | none => false) = true := by decide +kernel) (hc : (coreOrder (lau p 1).pkt.toNat 0)[5]? = some (0, 5) := by decide +kernel) :
    HasCore (vj (.launch (lau p 1))) 3 (jobA (.launch (lau p 1))) (lau p 1) 5 (0, 5) := by
  split at hp
  · next hf => exact ⟨⟨rfl, rfl⟩, show 1 < 2 by decide, rfl, rfl, by rw [hf, of_decide_eq_true hp], hc⟩
  · exact absurd hp (by decide)
theorem wit_CrewsArePlacedAndEnd_1 (h : Obligations.CrewsArePlacedAndEnd) :
    Next (.crewPlace 3) (vj (.launch (lau childP 1))) ∧ (vj (.launch (lau childP 1))).fits img 3 (0, 5) = true :=
  ⟨⟨_, h.1.1 (vj (.launch (lau childP 1))) 3 (jobA (.launch (lau childP 1))) (lau childP 1) 5 (0, 5) 0 core dk⟩,
   (h.1.2.1 (vj (.launch (lau childP 1))) 3 (jobA (.launch (lau childP 1))) (lau childP 1) 5 (0, 5) 0 core dk
     (fun _ hu => absurd hu List.not_mem_nil)).1⟩
theorem wit_CrewsArePlacedAndEnd_5 (h : Obligations.CrewsArePlacedAndEnd) :
    Next (.crewPlace 3) (vj (.launch lHuge)) ∧ Next (.crewPlace 3) (vj (.launch (lau pInd 1))) :=
  ⟨⟨_, h.1.2.2.1 (vj (.launch lHuge)) 3 (jobA (.launch lHuge)) lHuge ⟨rfl, rfl⟩ dk⟩,
   ⟨_, h.1.2.2.2 (vj (.launch (lau pInd 1))) 3 (jobA (.launch (lau pInd 1))) (lau pInd 1) 5 (0, 5) core dk⟩⟩
def vjl (k : Crew) : State := { vj (.launch (lau childP 2)) with crews := [k] }
def ked : Crew := { kend with launch := 3, st := .ended, firstKill := 13 }
theorem wit_CrewsArePlacedAndEnd_2 (h : Obligations.CrewsArePlacedAndEnd) :
    Next (.crewEnd 0) (vs kend) ∧ Next (.crewEnd 0) (vs kr) ∧ Next (.crewEnd 0) (vjl ked) ∧ (∀ w ∈ kend.warps, w.liveMask = 0) :=
  let ⟨a, b, c, d, _⟩ := h.2
  ⟨⟨_, a (vs kend) 0 kend rfl rfl dk⟩, ⟨_, b (vs kr) 0 kr rfl rfl dk⟩, ⟨_, c (vjl ked) 0 ked rfl rfl⟩,
   ((d (vs kend) 0 kend rfl).mp dk).1⟩
theorem wit_CrewsArePlacedAndEnd_3 (h : Obligations.CrewsArePlacedAndEnd) :
    (vjl ked).launchCheck 3 = (vjl ked).finishJob (jobA (.launch (lau childP 2))) (if firstKill ((vjl ked).crewsOf 3) = 0 then 0 else 6)
      (lau childP 2).placed 0 (firstKill ((vjl ked).crewsOf 3)) :=
  h.2.2.2.2.2.1 (vjl ked) 3 (jobA (.launch (lau childP 2))) (lau childP 2) ⟨rfl, rfl⟩ rfl rfl rfl rfl rfl dk dk
theorem wit_CrewsArePlacedAndEnd_4 (h : Obligations.CrewsArePlacedAndEnd) : (vjl { kend with launch := 3 }).launchCheck 3 = vjl { kend with launch := 3 } :=
  h.2.2.2.2.2.2 (vjl { kend with launch := 3 }) 3 (jobA (.launch (lau childP 2))) (lau childP 2) ⟨rfl, rfl⟩ rfl
    (.inl ⟨{ kend with launch := 3 }, dk, by decide⟩)

/-- A packet's copy of 16 bytes, before and after they have been read. -/
def pco (dst src : Nat) (rd : Bool) : CpOp := { CpOp.fresh 7 (BitVec.ofNat 64 dst) (BitVec.ofNat 64 src) 0 0 with left := [(0, 16)], unread := if rd then [] else [(0, 16)] }
def jcp (dst src : Nat) (rd : Bool) : Job := jobA (.copy 9 (pco dst src rd))
def vjc (dst src : Nat) (rd : Bool) : State := vj (.copy 9 (pco dst src rd))
theorem wit_WaitsCopiesAndStepsAdvance_1 (h : Obligations.WaitsCopiesAndStepsAdvance) :
    Next (.barrierPacketPoll 3) (vj (.wait [(0x40, 0, 0), (0x48, 1, 1)] true)) ∧ Next (.barrierPacketPoll 3) (vj (.wait [(0x200000, 0, 0)] false))
    ∧ Next (.copyPart 9 0) (vjc 0x1030 0x100 false) ∧ Next (.copyPart 9 15) (vjc 0x1030 0x200000 false)
    ∧ Next (.copyPart 9 15) (vjc 0x1038 0x100 true) ∧ Next (.copyPart 9 0) (vjc 0x200000 0x100 true)
    ∧ (0x1038 + 8) / 64 = (0x1038 + 8 + 8 - 1) / 64 :=
  let ⟨a, c, d, _, f⟩ := h.1
  ⟨⟨_, (a _ 3 (jobA (.wait [(0x40, 0, 0), (0x48, 1, 1)] true)) _ _ rfl rfl).1 [true, true] dk⟩,
   ⟨_, (a _ 3 (jobA (.wait [(0x200000, 0, 0)] false)) _ _ rfl rfl).2 dk⟩,
   useOk fun ks hk => ⟨_, (c (vjc 0x1030 0x100 false) 9 0 (jcp 0x1030 0x100 false) (pco 0x1030 0x100 false) (0, 16) ⟨rfl, rfl⟩ dk).1 ks hk⟩,
   useErr fun g hg => ⟨_, (c (vjc 0x1030 0x200000 false) 9 15 (jcp 0x1030 0x200000 false) (pco 0x1030 0x200000 false) (0, 16) ⟨rfl, rfl⟩ dk).2 g hg⟩,
   useOk fun ks hk => ⟨_, (d (vjc 0x1038 0x100 true) 9 15 (jcp 0x1038 0x100 true) (pco 0x1038 0x100 true) (8, 8) ⟨rfl, rfl⟩
     ⟨rfl, ⟨(0, 16), rfl, dk⟩, nofun⟩).1 ks hk nofun⟩,
   useErr fun g hg => ⟨_, (d (vjc 0x200000 0x100 true) 9 0 (jcp 0x200000 0x100 true) (pco 0x200000 0x100 true) (0, 16) ⟨rfl, rfl⟩
     ⟨rfl, ⟨(0, 16), rfl, dk⟩, nofun⟩).2 g hg⟩,
   f (pco 0x1038 0x100 true) (8, 8) 15 ⟨rfl, ⟨(0, 16), rfl, dk⟩, nofun⟩ rfl (by decide) dk⟩

def vstep (t : Nat) : State := { vs kr with dtime := 100, steps := [⟨5, 1, t, some 0, 1, 0, some 50, 0, []⟩] }
theorem wit_WaitsCopiesAndStepsAdvance_2 (h : Obligations.WaitsCopiesAndStepsAdvance) : Next (.stepTimeout 5) (vstep 50) ∧ Next (.stepTimeout 5) (vstep 51) :=
  ⟨⟨_, (h.2 (vstep 50) 5 ⟨5, 1, 50, some 0, 1, 0, some 50, 0, []⟩ 0 50 rfl rfl rfl).1 (by decide) (by decide)⟩,
   ⟨_, (h.2 (vstep 51) 5 ⟨5, 1, 51, some 0, 1, 0, some 50, 0, []⟩ 0 50 rfl rfl rfl).2 (.inr (by decide))⟩⟩


/-- A gather in flight of page 0's first token; an append of its last; a package whose frames lie beyond their memory. -/
def gat (rd : Bool) (left owed : List Nat) : KvGather :=
  ⟨0, (kvs kr (cc [])).pool 0 0, 0x100, false, 0, 0, 0, 0, [(0, 0, 5)], left, if rd then [(0, List.replicate 64 (3, false))] else [], owed, none⟩
def opG (g : KvGather) : Op := { (ec false kr .nop).newOp base 1 with eng := some (.kg g) }
def vga (g : KvGather) : State := { kvs kr (cc []) with ops := [opG g] }
def beyondDie : Die := { dieA with pe := { dieA.pe with ranges := [⟨0, 0, 20, 0x10000, 2 ^ 38 - 0x1000⟩] } }
def vgb : State := { vga (gat true [2] [3]) with dies := [beyondDie, Die.reset] }
def app (f : Nat) : KvAppend := ⟨0, 1, f, 0, 15, 0, List.replicate 64 0, true, [], none⟩
def opA (a : KvAppend) : Op := { (ec false kr .nop).newOp base 1 with eng := some (.ka a) }
def vka (f : Nat) : State := { kvs kr (cc []) with ops := [opA (app f)] }
theorem gth {g : KvGather} : Gathering (vga g) 0 (opG g) g kr := ⟨rfl, rfl, rfl, by decide, rfl⟩
theorem wit_PageEngineDelivers_1 (h : Obligations.PageEngineDelivers) :
    Next (.kvgatherDelivery 0 0) (vga (gat false [2] [])) ∧ Next (.kvgatherDelivery 0 2) (vga (gat false [2] []))
    ∧ Next (.kvgatherDelivery 0 2) (vga (gat true [2] [])) ∧ Next (.kvgatherDelivery 0 2) (vga (gat true [] [2]))
    ∧ Next (.kvgatherDelivery 0 2) (vga (gat true [] [2, 3])) ∧ Next (.kvgatherDelivery 0 2) (vga (gat true [3] [2])) ∧ Next (.kvgatherDelivery 0 2) vgb :=
  let a := fun g hb => (h.1.1 (vga g) 0 (opG g) g kr gth).1 hb
  ⟨⟨_, (a (gat false [2] []) dk).1 0 5 dk dk⟩, ⟨_, (a (gat false [2] []) dk).2.1 2 0 [] 5 dk dk dk⟩,
   ⟨_, (a (gat true [2] []) dk).2.2.1 2 dk dk (fun x => absurd x dk)⟩, ⟨_, ((a (gat true [] [2]) dk).2.2.2.2.1 2 dk rfl dk).1 (by decide)⟩,
   ⟨_, ((a (gat true [] [2, 3]) dk).2.2.2.2.1 2 dk rfl dk).2 ⟨3, by decide, by decide⟩⟩,
   ⟨_, (a (gat true [3] [2]) dk).2.2.2.2.2 2 dk (by decide) (.inl (by decide))⟩,
   ⟨_, (h.1.1 vgb 0 (opG (gat true [2] [3])) (gat true [2] [3]) kr ⟨rfl, rfl, rfl, by decide, rfl⟩).2 dk 2⟩⟩
theorem wit_PageEngineDelivers_3 (h : Obligations.PageEngineDelivers) : Next (.kvappendWrite 0) (vka 5) ∧ Next (.kvappendWrite 0) (vka 6) :=
  ⟨⟨_, (h.1.2.1 (vka 5) 0 (opA (app 5)) (app 5) kr ⟨rfl, rfl, rfl, by decide, rfl⟩ dk).1 (fun x => (x dk).elim)⟩,
   ⟨_, h.1.2.2 (vka 6) 0 (opA (app 6)) (app 6) kr ⟨rfl, rfl, rfl, by decide, rfl⟩ dk⟩⟩
/-- A crew of die 1 whose gather and append were sent 2 µs ago less one nanosecond, and asked again now. -/
def kd1 : Crew := { kr with die := 1 }
def gat1 : KvGather := { gat true [2] [] with tried := some 0 }
def app1 : KvAppend := { app 5 with tried := some 0 }
def vd1 (o : Op) : State := { kvs kd1 (cc []) with ops := [o], dtime := 1999 }
theorem wit_PageEngineDelivers_4 (h : Obligations.PageEngineDelivers) : Next (.kvgatherDelivery 0 2) (vd1 (opG gat1)) ∧ Next (.kvappendWrite 0) (vd1 (opA app1)) :=
  ⟨⟨_, ((h.1.1 (vd1 (opG gat1)) 0 (opG gat1) gat1 kd1 ⟨rfl, rfl, rfl, by decide, rfl⟩).1 dk).2.2.2.1 2 dk dk dk dk⟩,
   ⟨_, (h.1.2.1 (vd1 (opA app1)) 0 (opA app1) app1 kd1 ⟨rfl, rfl, rfl, by decide, rfl⟩ dk).2 dk dk⟩⟩

/-- A wait for frame 6, which is INBOUND, or for frame 5, which has come. -/
def pw (kind frame : Nat) (paused : Bool) : PgWait := ⟨.ctx 0, 0, 100, kind, 5, frame, 0, 0, paused⟩
def vpw (p : PgWait) (t : Nat) : State := { (kvs kr (cc [])).setFr 0 6 (feNew 4 1 0 0 noFrame 0) with pgWaits := [p], dtime := t }
def epw : Env := { ec false kr .nop with h := baseHdr 0 }
theorem wit_PageEngineDelivers_2 (h : Obligations.PageEngineDelivers) :
    Next (.pageWaitTimeout (.ctx 0)) (vpw (pw 0 6 false) 200100) ∧ Next (.pageWaitTimeout (.ctx 0)) (vpw (pw 2 6 false) 200100)
    ∧ Next (.pageWaitTimeout (.ctx 0)) (vpw (pw 2 6 false) 200099) ∧ Next (.pageWaitTimeout (.ctx 0)) (vpw (pw 0 5 false) 200100)
    ∧ Next (.pageWaitTimeout (.ctx 0)) (vpw (pw 0 6 true) 200100) ∧ (vpw (pw 0 6 false) 200100).pgAwaited (pw 0 6 false) = true :=
  ⟨⟨_, (h.2 (vpw (pw 0 6 false) 200100) (.ctx 0) epw (pw 0 6 false) rfl rfl).1 dk dk dk (by decide)⟩,
   ⟨_, (h.2 (vpw (pw 2 6 false) 200100) (.ctx 0) epw (pw 2 6 false) rfl rfl).2.1 dk dk dk rfl⟩,
   ⟨_, (h.2 (vpw (pw 2 6 false) 200099) (.ctx 0) epw (pw 2 6 false) rfl rfl).2.2.1 (.inr (.inr dk))⟩,
   ⟨_, (h.2 (vpw (pw 0 5 false) 200100) (.ctx 0) epw (pw 0 5 false) rfl rfl).2.2.1 (.inl dk)⟩,
   ⟨_, (h.2 (vpw (pw 0 6 true) 200100) (.ctx 0) epw (pw 0 6 true) rfl rfl).2.2.1
     (.inl ((h.2 (vpw (pw 0 6 true) 200100) (.ctx 0) epw (pw 0 6 true) rfl rfl).2.2.2.1 rfl))⟩,
   ((h.2 (vpw (pw 0 6 false) 200100) (.ctx 0) epw (pw 0 6 false) rfl rfl).2.2.2.2 rfl (by decide)).mpr (.inr (.inl dk))⟩

/-- A package low on frames, with one frame of tier 2, and frames 5 and 6 as these entries say. -/
def lowDie : Die := { dieA with pe := { dieA.pe with ranges := [⟨0, 0, 8, 0x10000, 0x200000⟩, ⟨2, 0, 1, 0x20000, 0x200000⟩] } }
def vev (e5 e6 : Nat) : State :=
  (({ kvs kr (cc []) with dies := [lowDie, Die.reset] } : State).setFr 0 5 e5).setFr 0 6 e6
theorem notShut {s : State} {src dst : Nat} (h0 : s.bridgeShut 0 none = false := by decide +kernel) (h1 : s.bridgeShut 1 none = false := by decide +kernel)
    (h2 : s.dies.length = 2 := by decide +kernel) (ht : ((s.dies.getD 0 Die.reset).tries) = [] := by decide +kernel) : s.pageShut 0 src dst = false := by
  have hb : ∀ d, s.bridgeShut d none = false := fun d => match d with
    | 0 => h0
    | 1 => h1
    | d + 2 => by simp [State.bridgeShut, State.tableFull, List.getElem?_eq_none (show s.dies.length ≤ d + 2 by omega)]
  obtain ⟨d0, d1, hd⟩ := List.length_eq_two.mp h2
  rw [hd] at ht
  simp only [State.pageShut, List.any_eq_false]
  intro x _
  rw [hd]
  simp only [List.getElem?_cons_zero, show d0.tries = [] from ht, List.find?_nil, Option.map_none, hb, Bool.and_false, not_false_eq_true, Bool.false_eq_true]
theorem wit_PagesMoveBetweenTiers (h : Obligations.PagesMoveBetweenTiers) :
    Next (.evictionStart 0) (vev feA 0) ∧ (vev feA 0).evictable 0 5 = true ∧ Next (.evictionStart 0) (kvs kr (cc [])) :=
  let ⟨a, b, c, _⟩ := h
  have hf : (vev feA 0).freeFrames 0 2 = [2 ^ 30] := by decide +kernel
  ⟨⟨_, a (vev feA 0) 0 5 (2 ^ 30) dk dk (by simp [State.pick, hf, Nat.mod_one])⟩,
   (b (vev feA 0) 0 5 dk).1, ⟨_, c (kvs kr (cc [])) 0 dk⟩⟩
/-- Frame 5 moves out, frame 6 is fetched, and frame 6 is frame 5's copy. -/
def vout : State := vev (setBits (setBits feA 35 33 2) 159 128 (2 ^ 30)) 0
def vin : State := vev feA (3 * 2 ^ 33 + 2 ^ 30 * 2 ^ 128)
def vcow : State := vev feA (3 * 2 ^ 33 + 5 * 2 ^ 128)
theorem wit_PagesMoveBetweenTiers_2 (h : Obligations.PagesMoveBetweenTiers) : Next (.evictionCopyEnd 0 5) vout :=
  ⟨_, h.2.2.2.1 vout 0 5 dk (by decide) dk dk notShut⟩
theorem wit_PagesMoveBetweenTiers_3 (h : Obligations.PagesMoveBetweenTiers) : Next (.fetchCopyEnd 0 6) vin :=
  ⟨_, h.2.2.2.2.1 vin 0 6 dk (by decide) dk dk notShut⟩
theorem wit_PagesMoveBetweenTiers_4 (h : Obligations.PagesMoveBetweenTiers) : Next (.copyOnWriteEnd 0 6) vcow :=
  ⟨_, h.2.2.2.2.2 vcow 0 6 5 dk (by decide) dk dk (by decide) dk⟩

/-- The group of that sequence: 2 tokens an iteration, its table at `btb`, a feedback wait of 10 ns. -/
def gd (btb : Nat) : BitVec 512 := BitVec.ofNat 512 (btb * 2 ^ 384 + 10 * 2 ^ 128 + 2 * 2 ^ 64 + 4 * 2 ^ 48 + 1 * 2 ^ 12 + 1)
def dieS (btb : Nat) (i : GroupIter) : Die :=
  { dieA with sched := { dieA.sched with groups := gd btb :: List.replicate 15 0, needs := [(0, 4)], iters := i :: List.replicate 15 ⟨0, false, none, none, none, [], none⟩ } }
def it0 : GroupIter := ⟨8, false, none, none, none, [], none⟩
def vq (btb : Nat) (i : GroupIter) (r : Nat) : State := ready (({ kvs kr (cc []) with dies := [dieS btb i, Die.reset] } : State).wr 0x40000 128 r)
/-- The record in PREFILL with no token of its prompt left, and INBOUND past its deadline. -/
def recP : Nat := setBits (setBits recA 403 400 2) 503 480 8
def recI : Nat := setBits (setBits recA 403 400 1) 831 768 1
theorem wit_BatchesForm_1 (h : Obligations.BatchesForm) : Next (.batchFormation 0 0) (vq 0x20000 it0 recP) :=
  ⟨_, (h _ 0 0).1 ⟨dk, by decide, dk⟩ dk⟩
theorem wit_BatchesForm_2 (h : Obligations.BatchesForm) : Next (.batchFormation 0 0) (vq 0x20000 it0 recA) :=
  let s := (vq 0x20000 it0 recA).schedBegin 0 []
  let ⟨_, hu⟩ := some_of (x := (begun (batchOf s 0 0).1 0 0 (batchOf s 0 0).2).wrParts (grpCtx (s.group 0 0))
    (batchParts 0 (s.group 0 0) (grpBtb (s.group 0 0) (((batchOf s 0 0).1).iterOf 0 0).n) (((batchOf s 0 0).1).iterOf 0 0).n s.dtime (batchOf s 0 0).2))
    dk
  ⟨_, (h (vq 0x20000 it0 recA) 0 0).2.1 _ ⟨dk, by decide, dk⟩ dk hu⟩
theorem wit_BatchesForm_3 (h : Obligations.BatchesForm) : Next (.batchFormation 0 0) (vq 0x1FFFC0 it0 recA) :=
  ⟨_, (h _ 0 0).2.2.1 ⟨dk, by decide, dk⟩ dk dk⟩
theorem wit_BatchesForm_4 (h : Obligations.BatchesForm) : Next (.batchFormation 0 1) (vq 0x20000 it0 recA) := ⟨_, (h _ 0 1).2.2.2 dk⟩

def itO (res at_ : Option Nat) (fed : Bool) : GroupIter := ⟨7, true, some 3, res, at_, [⟨1, 0, 1, some 0, fed⟩], none⟩
theorem wit_IterationsEnd_1 (h : Obligations.IterationsEnd) :
    Next (.sequenceSweep 0 0) (vq 0 it0 recA) ∧ (vq 0 it0 recI).sweep 0 0 = vq 0 it0 recI ∧ Next (.sequenceSweep 0 0) (vq 0 (itO none none false) recA)
    ∧ Next (.iterationGraphComplete 0 0) (vq 0 (itO (some 0) none false) recA) ∧ Next (.iterationGraphComplete 0 0) (vq 0 (itO (some 6) none false) recA)
    ∧ Next (.iterationEnd 0 0) (vq 0 (itO none (some 0) true) recA) ∧ Next (.iterationEnd 0 0) (vq 0 (itO none (some 0) false) recA) ∧ (vq 0 it0 recI).sweepRsn (2 ^ 386) = 5 :=
  let ⟨a, _, b, _, w, c, d, _⟩ := h
  ⟨⟨_, a _ 0 0 dk dk dk⟩, b _ 0 0 dk, ⟨_, c _ 0 0 (.inl dk)⟩,
   ⟨_, (d _ 0 0).1 dk dk⟩, ⟨_, (d _ 0 0).2.1 6 dk dk (by decide)⟩,
   ⟨_, (d _ 0 0).2.2.1 0 dk dk (fun x hx => .inl (by
     have : x = ⟨1, 0, 1, some 0, true⟩ := by simpa using (show x ∈ [(⟨1, 0, 1, some 0, true⟩ : IterEnt)] from hx)
     rw [this]))⟩,
   (let ⟨r, hr⟩ := some_of (x := ((vq 0 (itO none (some 0) false) recA).schedBegin 0 []).live? 1) dk
    ⟨_, (d _ 0 0).2.2.2.1 ⟨1, 0, 1, some 0, false⟩ r dk rfl rfl hr (by
      have : (((vq 0 (itO none (some 0) false) recA).schedBegin 0 []).live? 1).map rcState = some 3 := by decide +kernel
      rw [hr] at this; simp only [Option.map_some, Option.some.injEq] at this; omega)⟩),
   (w (vq 0 it0 recI) (2 ^ 386)).2.2.1 dk (.inl dk)⟩
theorem wit_IterationsEnd_2 (h : Obligations.IterationsEnd) :
    Next (.feedbackWaitExpiry 0 0) (vq 0 (itO none (some 0) false) recA) ∧ Next (.feedbackWaitExpiry 0 1) (vq 0 it0 recA)
    ∧ Next (.inboundWithdraw 0 0) { vq 0 it0 recI with dtime := 1 } ∧ Next (.inboundWithdraw 0 0) (vq 0 it0 recI) :=
  let ⟨_, _, _, _, _, _, a, b, c⟩ := h
  ⟨⟨_, (a _ 0 0).2.2.2.2.1 0 dk dk dk⟩, ⟨_, (a _ 0 1).2.2.2.2.2 dk⟩,
   ⟨_, b _ 0 0 dk⟩, ⟨_, c _ 0 0 dk⟩⟩

def sigP (dl : Nat) : Nat := 0x40 * 2 ^ 448 + 5 * 2 ^ 384 + dl * 2 ^ 64 + 3
/-- An image of one warp at 0x100, and the grid of one child of it. -/
def descA : Nat := 0x4B4E4B31 * 2 ^ 480 + 2 ^ 464 + 16 * 2 ^ 440 + 2 ^ 432 + 256 * 2 ^ 288 + 8 * 2 ^ 256
def winA : AggWin := ⟨BitVec.ofNat 512 childP, 1, 0, [⟨7, false, 0, 0, []⟩]⟩
def vgrid : State :=
  { (ready (vs kr)).wr 0x100 64 descA with dies := [{ Die.reset with devq := [winA] }, Die.reset], queues := [que 0x1000] }
/-- Queue 2 with a capability that lets its packets write nothing. -/
def quc : Queue := { que 0x1000 with cap := ⟨0, 2 ^ 32, true, true, false⟩ }
theorem wit_QueuesDispatchPackets_1 (h : Obligations.QueuesDispatchPackets) :
    Next (.signalPacket 2) (vqu (sigP 2) 1) ∧ Next (.signalPacket 2) (vqu (sigP 1) 1) ∧ Next (.graphPacket 2) (vqu (sigP 0) 1) ∧ Next (.malformedPacket 2) (vqu 0 0)
    ∧ Next (.queueError 2) { vqu 0 0 with queues := [que 0x200000] } ∧ Next (.capFault 2) { vqu (sigP 0) 0 with queues := [quc] }
    ∧ Next (.capFault 2) (vqu (sigP 0) 0) :=
  let ⟨a, b, c, d, f, g, _⟩ := h
  ⟨⟨_, (a _ _ _ _ .signal (vqu (sigP 2) 1) (que 0x1000) (sigP 2) ⟨rfl, dk, dk⟩ dk dk dk).1 (.inr dk)⟩,
   ⟨_, (a _ _ _ _ .signal (vqu (sigP 1) 1) (que 0x1000) (sigP 1) ⟨rfl, dk, dk⟩ dk dk dk).2 dk dk⟩,
   ⟨_, b _ _ _ _ .graph (vqu (sigP 0) 1) (que 0x1000) (sigP 0) rfl dk dk⟩,
   ⟨_, c (vqu 0 0) 2 (que 0x1000) 0 ⟨rfl, dk, dk⟩ dk dk⟩,
   ⟨_, d { vqu 0 0 with queues := [que 0x200000] } 2 (que 0x200000) rfl dk dk⟩,
   ⟨_, f { vqu (sigP 0) 0 with queues := [quc] } 2 quc (sigP 0) ⟨rfl, dk, dk⟩ dk⟩,
   ⟨_, g (vqu (sigP 0) 0) 2 (que 0x1000) (sigP 0) ⟨rfl, dk, dk⟩ dk⟩⟩
theorem wit_QueuesDispatchPackets_2 (h : Obligations.QueuesDispatchPackets) : Next (.launchPacket (2 ^ 15)) vgrid :=
  let ⟨_, ht⟩ := ok_of (x := (vgrid.modDie 0 (fun d => { d with devq := d.devq.tail })).beginLaunch
      { id := vgrid.nextJob, queue := none, index := 0, ctxid := winA.ctxid, die := 0, tag := 0, cq := false, compl := 0, parent := none
        iter := none, opn := false, kind := .wait [] true, seen := [] } winA.key.toNat (winA.kids.length * pkNcrews winA.key.toNat) winA.kids) dk
  ⟨_, h.2.2.2.2.2.2.2 vgrid 0 winA _ dk dk dk ht⟩
theorem wit_DeviceQueueFirst (h : Obligations.DeviceQueueFirst) : Next (.launchPacket 2) vgrid ∧ Next (.malformedPacket 2) vgrid :=
  let q := h vgrid 2 (que 0x1000) rfl dk (by decide)
  ⟨⟨_, q.1⟩, ⟨_, q.2.2.2.2.2.2.2.2⟩⟩

def rng (pend time : Nat) (ovf : Bool) : Ring := ⟨5, 0, 4, 0, 1, time, 7, 10, 3, 0, ovf, pend, 100⟩
def vrg (pend time : Nat) : State := { ready (vs kr) with rings := [rng pend time true], dtime := 150 }
def vbr : State := { vs kr with queues := [que 0x1000] }
theorem wit_HostRegistersStealingAndWindows_1 (h : Obligations.HostRegistersStealingAndWindows) :
    Next (.queueDoorbell 2 16) (vqu 0 0) ∧ Next (.queueDoorbell 2 17) (vqu 0 0) ∧ Next (.queueDoorbell 2 1) { vqu 0 0 with queues := [{ que 0x1000 with st := .error }] }
    ∧ Next (.rdidx 5 10) (vrg 0 0) ∧ Next (.rdidx 5 11) (vrg 0 0) ∧ Next (.ovf 5) (vrg 0 0) ∧ Next (.ringInterruptTimer 5) (vrg 1 50)
    ∧ Next (.ringInterruptTimer 5) (vrg 1 51) ∧ Next (.ovf 5) vbr :=
  let ⟨a, b, c, d, f, g, i⟩ := h.1
  ⟨⟨_, a (vqu 0 0) 2 16 (que 0x1000) dk rfl rfl⟩, ⟨_, a (vqu 0 0) 2 17 (que 0x1000) dk rfl rfl⟩,
   ⟨_, b { vqu 0 0 with queues := [{ que 0x1000 with st := .error }] } 2 1 _ rfl (by decide)⟩,
   (let ⟨_, x, _⟩ := c (vrg 0 0) 5 10 (rng 0 0 true) dk rfl; ⟨_, x⟩), (let ⟨_, x, _⟩ := c (vrg 0 0) 5 11 (rng 0 0 true) dk rfl; ⟨_, x⟩),
   (let ⟨_, x, _⟩ := d (vrg 0 0) 5 (rng 0 0 true) dk rfl; ⟨_, x⟩),
   (let ⟨_, x, _⟩ := f (vrg 1 50) 5 (rng 1 50 true) rfl (by decide) (by decide) dk; ⟨_, x⟩),
   ⟨_, g (vrg 1 51) 5 (rng 1 51 true) rfl dk⟩, ⟨_, (i vbr 5 0 dk).2.2⟩⟩

def lauP (dies : Nat) : Nat := 0x100 * 2 ^ 448 + 2 ^ 352 + dies * 2 ^ 244 + 1
def vsteal (p n : Nat) (st : Bool) : State :=
  { vqu p 0 with dies := [{ Die.reset with steals := n }, Die.reset], queues := [{ que 0x1000 with stolen := st }] }
def vagg (now : Nat) : State := { ready (vs kr) with dies := [{ Die.reset with aggs := [winA] }, Die.reset], dtime := now }
theorem wit_HostRegistersStealingAndWindows_2 (h : Obligations.HostRegistersStealingAndWindows) :
    Next (.stealRequest 1) (vsteal (lauP 0) 63 false) ∧ Next (.stealRequest 0) (vsteal (lauP 0) 63 false) ∧ Next (.queueHandover 2) (vsteal (lauP 0) 1 false)
    ∧ Next (.queueHandover 2) (vsteal (lauP 1) 1 false) ∧ Next (.queueReturn 2) (vsteal (lauP 1) 0 true) ∧ Next (.aggregatorWindowClose 0 0) (vagg 40)
    ∧ Next (.aggregatorWindowClose 0 0) (vagg 39) :=
  let ⟨a, b, c, d, f, g, i⟩ := h.2
  ⟨⟨_, a (vsteal (lauP 0) 63 false) 1 { Die.reset with steals := 63 } rfl dk dk dk⟩,
   ⟨_, b (vsteal (lauP 0) 63 false) 0 dk⟩,
   ⟨_, c (vsteal (lauP 0) 1 false) 2 { que 0x1000 with stolen := false } { Die.reset with steals := 1 } (lauP 0) rfl rfl rfl (by decide) dk
     dk dk dk dk dk⟩,
   ⟨_, d (vsteal (lauP 1) 1 false) 2 { que 0x1000 with stolen := false } (lauP 1) rfl dk dk⟩,
   ⟨_, f (vsteal (lauP 1) 0 true) 2 { que 0x1000 with stolen := true } rfl rfl dk (.inr ⟨lauP 1, dk, dk⟩)⟩,
   (let ⟨_, x, _⟩ := g (vagg 40) 0 { Die.reset with aggs := [winA] } 0 winA rfl rfl dk; ⟨_, x⟩),
   (let ⟨_, x, _⟩ := i (vagg 39) 0 { Die.reset with aggs := [winA] } 0 winA rfl rfl dk; ⟨_, x⟩)⟩

/-- A serving package whose host window 0 is the first 64 KiB of host memory, with record `r` next in die 0's management ring. -/
def cm (c : Nat) (l : List Nat) : Nat := c + ((List.range l.length).zip l).foldl (fun a p => a + p.2 * 2 ^ (64 + 64 * p.1)) 0
def cmd (r : Nat) : State :=
  ({ ready (vs kr) with dies := [{ Die.reset with mrlogn := 4, mrtail := 1 }, Die.reset], windows := BitVec.ofNat 256 (0x10000 * 2 ^ 128 + 7) :: List.replicate 63 0 } : State).wr
    (memKey 3 0) 64 r
theorem nc {r c : Nat} {s : State} (h1 : s.cmdNext 0 = some (some r) := by decide +kernel)
    (h2 : bits r 7 0 = c ∧ bits r 15 8 = 0 ∧ bits r 63 32 = 0 := by decide +kernel) : NextCmd s 0 c r := ⟨h1, h2⟩
theorem wit_ManagementCommands_1 (h : Obligations.ManagementCommands) :
    Next (.qcreate 0) (cmd (cm 1 [2, 0x1000, 4, 1])) ∧ Next (.qcreate 0) (cmd (cm 1 [2, 0x1001, 4, 1])) ∧ Next (.qcreate 0) (cmd (cm 257 []))
    ∧ Next (.pwrset 0) (cmd (cm 17 [0, 300])) ∧ Next (.pwrset 0) (cmd (cm 17 [0, 299])) :=
  let ⟨a, b⟩ := h.1
  ⟨⟨_, (a 0 _ _ _ _ .qcreate (cmd (cm 1 [2, 0x1000, 4, 1])) (cm 1 [2, 0x1000, 4, 1]) nc).1 dk⟩,
   ⟨_, (a 0 _ _ _ _ .qcreate (cmd (cm 1 [2, 0x1001, 4, 1])) (cm 1 [2, 0x1001, 4, 1]) nc).2 dk⟩,
   ⟨_, b 0 _ _ _ _ .qcreate (cmd (cm 257 [])) (cm 257 []) dk dk dk⟩,
   ⟨_, (a 0 _ _ _ _ .pwrset (cmd (cm 17 [0, 300])) (cm 17 [0, 300]) nc).1 dk⟩,
   ⟨_, (a 0 _ _ _ _ .pwrset (cmd (cm 17 [0, 299])) (cm 17 [0, 299]) nc).2 dk⟩⟩
theorem wit_ManagementCommands_2 (h : Obligations.ManagementCommands) :
    Next (.mextend 0) (cmd (cm 19 [4, 0])) ∧ Next (.irisset 0) (cmd (cm 12 [0, 0])) ∧ Next (.mextend 0) (cmd (cm 19 [4, 0x10000])) ∧ Next (.mextend 0) (cmd (cm 19 [3, 0]))
    ∧ Next (.attest 0) (cmd (cm 16 [0, 0])) :=
  let ⟨a, b⟩ := h.2
  ⟨⟨_, (a 0 _ _ _ _ _ _ _ .mextend (cmd (cm 19 [4, 0])) (cm 19 [4, 0]) nc).1 (cm 19 [4, 0]) dk dk trivial⟩,
   ⟨_, (a 0 _ _ _ _ _ _ _ .irisset (cmd (cm 12 [0, 0])) (cm 12 [0, 0]) nc).2.1 (cm 12 [0, 0]) dk dk dk⟩,
   ⟨_, (a 0 _ _ _ _ _ _ _ .mextend (cmd (cm 19 [4, 0x10000])) (cm 19 [4, 0x10000]) nc).2.2.1 dk dk⟩,
   ⟨_, (a 0 _ _ _ _ _ _ _ .mextend (cmd (cm 19 [3, 0])) (cm 19 [3, 0]) nc).2.2.2 dk⟩,
   ⟨_, b (cmd (cm 16 [0, 0])) 0 (cm 16 [0, 0]) (cm 16 [0, 0]) nc dk⟩⟩
def vpend (k : CmdKind) (l : List Op) : State := { vs kr with dies := [{ Die.reset with pend := some ⟨k, 9, 0⟩ }, Die.reset], ops := l }
theorem wit_CommandsThatGoOn (h : Obligations.CommandsThatGoOn) :
    Next (.inval 0) (cmd (cm 5 [1, 0, 64])) ∧ Next (.qdestroy 0) (cmd (cm 2 [2])) ∧ Next (.inval 0) (cmd (cm 5 [2 ^ 32])) ∧ Next (.qdestroyComplete 2) (vpend (.destroy 2) [])
    ∧ Next (.invalComplete 0) (vpend (.inval 1 0 64 5) []) ∧ Next (.invalComplete 0) (vpend (.inval 1 0 64 5) [opA4]) :=
  let ⟨a, b, c, d, f, g⟩ := h
  ⟨⟨_, a 0 _ _ _ _ _ .inval (cmd (cm 5 [1, 0, 64])) (cm 5 [1, 0, 64]) nc dk⟩,
   ⟨_, b 0 (cmd (cm 2 [2])) (cm 2 [2]) nc dk⟩,
   ⟨_, c 0 (.inval 0) 5 (cmd (cm 5 [2 ^ 32])) (cm 5 [2 ^ 32]) (by decide) nc dk⟩,
   ⟨_, d (vpend (.destroy 2) []) 2 { Die.reset with pend := some ⟨.destroy 2, 9, 0⟩ } ⟨.destroy 2, 9, 0⟩ rfl rfl rfl⟩,
   (let ⟨_, x, _⟩ := f (vpend (.inval 1 0 64 5) []) 0 { Die.reset with pend := some ⟨.inval 1 0 64 5, 9, 0⟩ } ⟨.inval 1 0 64 5, 9, 0⟩ 1 0 64 5 rfl rfl rfl
      dk; ⟨_, x⟩),
   ⟨_, g (vpend (.inval 1 0 64 5) [opA4]) 0 { Die.reset with pend := some ⟨.inval 1 0 64 5, 9, 0⟩ } ⟨.inval 1 0 64 5, 9, 0⟩ 1 0 64 5
      opA4 kr rfl rfl rfl dk dk rfl rfl dk⟩⟩

/-- A window of context 1 that admits any peer, a peer's request and its token, and a package where message 9 of peer 5 has come. -/
def winN : Win := { ctxid := 1, base := 0x100, len := 0x100, perm := 7, die := 0, acct := 0, anyPeer := true, peer := 0, ltag := 0, rcrew := 0, rbar := 0 }
def reqN (st : ReqSt) : Req :=
  { seq := 3, peer := 5, mid := 6, own := false, prio := 2, rword := 0, win := some winN, bar := .none, len := 64, ungr := [(0, 64)], unland := [(0, 64)], st := st
    unused := 0, spoke := 0, frozenAt := 0, silent := 0, held := [], seen := [] }
def tokN (n : Nat) (x : Option Nat) : Token := { tok := 4, peer := 5, mid := 6, lo := 0, n := n, port := 0, expiry := x, left := [(0, n)] }
def vnet (rs : List Req) (ts : List Token) (b : WireBody) : State :=
  { ready (vs kr) with dies := [{ Die.reset with iris := { Iris.reset with reqs := rs, toks := ts } }, Die.reset], wins := [(0, winN)], wire := [(9, ⟨5, 6, b, []⟩)] }
def rtsN (len : Nat) : WireBody := .rts len 2 0 [(7, false)]
theorem wit_RequestsToSendAreAccepted (h : Obligations.RequestsToSendAreAccepted) :
    Next (.rtsReceive 9) (vnet [reqN .queued] [] (rtsN 64)) ∧ Next (.rtsReceive 9) (vnet [] [] (rtsN 0x101)) ∧ Next (.rtsReceive 9) (vnet [] [] (rtsN 0x100))
    ∧ Next (.rtsReceive 9) (vnet (List.replicate 8192 { reqN .queued with mid := 7 }) [] (rtsN 64)) :=
  ⟨⟨_, (h (vnet [reqN .queued] [] (rtsN 64)) 9 5 6 64 2 0 [(7, false)] [] rfl).1 0 (reqN .queued) dk⟩,
   ⟨_, (h (vnet [] [] (rtsN 0x101)) 9 5 6 0x101 2 0 [(7, false)] [] rfl).2.1 dk dk⟩,
   ⟨_, ((h (vnet [] [] (rtsN 0x100)) 9 5 6 0x100 2 0 [(7, false)] [] rfl).2.2.1 0 (some winN) .none dk dk).2
     dk rfl⟩,
   ⟨_, ((h (vnet (List.replicate 8192 { reqN .queued with mid := 7 }) [] (rtsN 64)) 9 5 6 64 2 0 [(7, false)] [] rfl).2.2.1 0 (some winN) .none
     dk dk).1 (.inl dk)⟩⟩
def tokF : List Token := (List.range 9).map (fun p => { tokN (2 ^ 40) none with port := p })
def datN (t : Option Nat) : WireBody := .data 0 [(1, false), (2, false)] t
theorem wit_IrisGrantsAndLandsData (h : Obligations.IrisGrantsAndLandsData) :
    Next (.irisGrant 0) (vnet [reqN .queued] [] .full) ∧ Next (.irisGrant 0) (vnet [reqN .queued] tokF .full)
    ∧ Next (.irisGrant 0) (vnet [reqN .suspended] [] .full) ∧ Next (.fabricDataLand 9) (vnet [reqN .queued] [tokN 64 (some 1)] (datN (some 4)))
    ∧ Next (.fabricDataLand 9) (vnet [] [] (datN (some 4))) ∧ Next (.fabricDataLand 9) (vnet [reqN .queued] [] (datN (some 4))) ∧ Next (.fabricDataLand 9) (vnet [] [] (datN none))
    ∧ Next (.tokenExpiry 0 4) (vnet [reqN .queued] [tokN 64 (some 1)] .full) ∧ Next (.tokenExpiry 0 4) (vnet [reqN .queued] [tokN 64 (some 0)] .full) :=
  let ⟨a, b, c, d, d2, f, g⟩ := h
  let gr (ts : List Token) := (vnet [reqN .queued] ts .full)
  let p (ts : List Token) := Iris.bestPort ((gr ts).iris 0) ((gr ts).irisPorts 0)
  let pick (ts : List Token) (hs : ((gr ts).grantLevel ((gr ts).iris 0)).isSome = true) := some_of hs
  let ⟨⟨l, ds⟩, e⟩ := pick [] dk
  let ⟨⟨l2, ds2⟩, e2⟩ := pick tokF dk
  have hl : l = 2 := by
    have : ((gr []).grantLevel ((gr []).iris 0)).map Prod.fst = some 2 := by decide +kernel
    rw [e] at this; simpa using this
  have hl2 : l2 = 2 := by
    have : ((gr tokF).grantLevel ((gr tokF).iris 0)).map Prod.fst = some 2 := by decide +kernel
    rw [e2] at this; simpa using this
  ⟨⟨_, (a (gr []) 0 l ds (reqN .queued) _ (p []) ⟨e, by rw [hl]; decide +kernel, rfl, rfl⟩).1 dk⟩,
   ⟨_, (a (gr tokF) 0 l2 ds2 (reqN .queued) _ (p tokF) ⟨e2, by rw [hl2]; decide +kernel, rfl, rfl⟩).2 dk⟩,
   ⟨_, b (vnet [reqN .suspended] [] .full) 0 dk⟩,
   ⟨_, c (vnet [reqN .queued] [tokN 64 (some 1)] (datN (some 4))) 9 5 6 0 _ 4 [] 0 (reqN .queued) (tokN 64 (some 1)) rfl dk dk⟩,
   ⟨_, d (vnet [] [] (datN (some 4))) 9 5 6 0 _ (some 4) [] rfl (.inr dk)⟩,
   ⟨_, d2 (vnet [reqN .queued] [] (datN (some 4))) 9 5 6 0 _ 4 [] 0 (reqN .queued) rfl dk dk⟩,
   ⟨_, d (vnet [] [] (datN none)) 9 5 6 0 _ _ [] rfl (.inl rfl)⟩,
   ⟨_, f (vnet [reqN .queued] [tokN 64 (some 1)] .full) 0 4 (tokN 64 (some 1)) 1 dk rfl dk⟩,
   ⟨_, g (vnet [reqN .queued] [tokN 64 (some 0)] .full) 0 4 (tokN 64 (some 0)) 0 (reqN .queued) dk rfl dk dk⟩⟩

def reqZ (own : Bool) (st : ReqSt) : Req := { reqN st with own := own }
def rdN (n : Nat) : WireBody := .rmaRead 0 0 n 4
def vtime (rs : List Req) (now : Nat) : State := { vnet rs [] .full with dtime := now }
theorem wit_RequestsChangeAndReadsAreServed_1 (h : Obligations.RequestsChangeAndReadsAreServed) :
    Next (.orphanTimeout 0 3) (vtime [reqN .queued] (2 ^ 40)) ∧ Next (.orphanTimeout 0 3) (vtime [reqN .frozen] (2 ^ 40))
    ∧ Next (.frozen 0 3) (vtime [reqN .frozen] 100000) ∧ Next (.frozen 0 3) (vtime [reqN .frozen] 99999)
    ∧ Next (.relinquish 9) (vnet [reqN .queued] [tokN 64 none] (.relinquish [])) ∧ Next (.resume 9) (vnet [reqN .suspended] [] .resume)
    ∧ Next (.resume 9) (vnet [] [] .resume) ∧ Next (.abort 9) (vnet [reqN .queued] [] .abort) ∧ Next (.unsupportedOperation 9) (vnet [] [] .unsupported)
    ∧ Next (.portDown 17) base ∧ Next (.portUp 0) base :=
  let ⟨a, b, c, d, f, g, g2, i, j, k⟩ := h.1
  ⟨⟨_, a (vtime [reqN .queued] (2 ^ 40)) 0 3 (reqN .queued) dk rfl rfl dk⟩,
   ⟨_, b (vtime [reqN .frozen] (2 ^ 40)) 0 3 (reqN .frozen) dk dk⟩,
   ⟨_, c (vtime [reqN .frozen] 100000) 0 3 (reqN .frozen) dk rfl rfl (by decide)⟩,
   ⟨_, d (vtime [reqN .frozen] 99999) 0 3 (reqN .frozen) dk (.inr (.inr (by decide)))⟩,
   ⟨_, f (vnet [reqN .queued] [tokN 64 none] (.relinquish [])) 9 5 6 [] [] 0 (reqN .queued) rfl dk⟩,
   ⟨_, g (vnet [reqN .suspended] [] .resume) 9 5 6 [] 0 (reqN .suspended) rfl dk⟩,
   ⟨_, g2 (vnet [] [] .resume) 9 5 6 [] rfl dk⟩,
   ⟨_, i (vnet [reqN .queued] [] .abort) 9 5 6 [] 0 (reqN .queued) rfl dk⟩,
   ⟨_, j (vnet [] [] .unsupported) 9 5 6 [] rfl⟩,
   (let ⟨t, _, x, _⟩ := k base 17 (by decide); ⟨t, x⟩), (let ⟨_, u, _, x, _⟩ := k base 0 (by decide); ⟨u, x⟩)⟩
theorem wit_RequestsChangeAndReadsAreServed_2 (h : Obligations.RequestsChangeAndReadsAreServed) :
    Next (.rmaReadServe 9) (vnet [] [] (rdN 0x100)) ∧ Next (.rmaReadServe 9) (vnet [] [] (rdN 0x101)) ∧ Next (.rmaReadServe 9) { vnet [] [] (rdN 1) with wins := [] } :=
  let ⟨a, _, _, c⟩ := h.2
  let s := vnet [] [] (rdN 0x100)
  let ⟨ks, e⟩ := ok_of (x := s.vkeys 1 kRead ((winN.base + rwOff 0 + wordLo (winN.base + rwOff 0) 0) % 2 ^ 64)
    (wordHi (winN.base + rwOff 0) (winN.len - rwOff 0) (0 + 0x100 - 1) - wordLo (winN.base + rwOff 0) 0)) dk
  ⟨⟨_, a s 9 5 6 0 0 0x100 4 [] winN _ ks rfl dk rfl dk ⟨rfl, e⟩⟩,
   ⟨_, c (vnet [] [] (rdN 0x101)) 9 5 6 0 0 0x101 4 [] rfl (.inr (.inr ⟨winN, dk, .inl dk⟩))⟩,
   ⟨_, c { vnet [] [] (rdN 1) with wins := [] } 9 5 6 0 0 1 4 [] rfl (.inl rfl)⟩⟩

theorem bytesN {x : CpRead} (h : (match x with | .bytes _ => true | _ => false) = true) : ∃ b, x = .bytes b := by cases x <;> simp_all
/-- A transfer of 64 bytes at 0x100 with device 5 (PUT 0, GET 1, REDNET 3), as an operation of the crew. -/
def netN (fn : Nat) (rts asked : Bool) : NetOp :=
  { fn := fn, die := 0, mid := 6, rword := 0x0050000000000000, ctl := 0, addr := 0x100, len := 64, rts := rts, sentAt := 0, tokens := [], left := [(0, 64)], last := 0
    asked := asked, result := none, lines := [], grp := none, asks := if asked then [(0, 64, 0)] else [], landing := none, unconf := [(0, 64)], edge := [], held := [], heard := [] }
def opN (n : NetOp) : Op := { op0 with eng := some (.net n) }
def vsend (n : NetOp) (b : WireBody) (now : Nat) : State := { vnet [] [] b with ops := [opN n], dtime := now }
def tkN : WireBody := .token 4 0 64 0
/-- A PUT whose source lines, at the scratchpad's start, are not full, before it has heard its token and after. -/
def netW (heard : List Nat) : NetOp := { netN 0 true false with addr := 0xFFFFFFFF00000000, heard := heard }
def vwait (heard : List Nat) : State := { vsend (netW heard) tkN 0 with crews := [kr.setLf 0 false] }
/-- The same REDNET while its crew is saved. -/
def svd : State := { vsend (netN 3 true false) tkN 0 with crews := [{ kr with st := .saved }] }
theorem waitN {x : CpRead} (h : (match x with | .wait => true | _ => false) = true := by decide +kernel) : x = .wait := by cases x <;> simp_all
theorem pfx (s : State) (o : Op) (n : NetOp) (p : Nat) (h : (match (Claims.inThread s o).putRead o n 0 p with | .bytes _ => true | _ => false) = true := by decide +kernel) :
    ∃ bs, (p = 0 ∧ bs = []) ∨ (p ≠ 0 ∧ (Claims.inThread s o).putRead o n 0 p = .bytes bs) := by
  by_cases hp : p = 0
  · exact ⟨[], .inl ⟨hp, rfl⟩⟩
  · exact let ⟨b, e⟩ := bytesN h; ⟨b, .inr ⟨hp, e⟩⟩
theorem wit_TransfersSend_1 (h : Obligations.TransfersSend) :
    Next (.rtsRetry 0) (vsend (netN 0 false false) .frozen 0) ∧ Next (.rtsRetry 0) (vsend (netN 0 true false) .full 2000) ∧ Next (.rtsRetry 0) (vsend (netN 1 false false) .frozen 0)
    ∧ Next (.rtsRetry 0) (vsend (netN 0 true false) .full 1999) ∧ Next (.rtsRetry 0) (vsend (netN 0 true false) .frozen 0) :=
  let ⟨a, b, c, d, _⟩ := h
  let s0 := vsend (netN 0 false false) .frozen 0
  let s1 := vsend (netN 0 true false) .full 2000
  let pn := min (netN 0 false false).len (irPrefix (s0.iris 0).cfg (ncClass 0))
  let ⟨b0, e0⟩ := pfx s0 (opN (netN 0 false false)) (netN 0 false false) pn
  let ⟨b1, e1⟩ := pfx (s1.takeMsg 9) (opN (netN 0 true false)) (netN 0 true false) pn
  ⟨⟨_, a s0 0 (opN (netN 0 false false)) (netN 0 false false) s0 pn b0 ⟨dk, dk⟩ rfl (.inl ⟨rfl, rfl⟩) rfl e0⟩,
   ⟨_, a s1 0 (opN (netN 0 true false)) (netN 0 true false) _ pn b1 ⟨dk, dk⟩ rfl (.inr ⟨rfl, 9, dk, by decide, rfl⟩) rfl e1⟩,
   ⟨_, b (vsend (netN 1 false false) .frozen 0) 0 (opN (netN 1 false false)) (netN 1 false false) kr ⟨dk, dk⟩ rfl (by decide) rfl⟩,
   ⟨_, c (vsend (netN 0 true false) .full 1999) 0 (opN (netN 0 true false)) (netN 0 true false) 9 ⟨dk, dk⟩ rfl dk dk⟩,
   ⟨_, d (vsend (netN 0 true false) .frozen 0) 0 (opN (netN 0 true false)) (netN 0 true false) ⟨dk, dk⟩ rfl dk⟩⟩
theorem wit_TransfersSend_2 (h : Obligations.TransfersSend) :
    Next (.tokenReceive 9) (vsend (netN 0 true false) tkN 0) ∧ Next (.tokenReceive 9) (vwait []) ∧ Next (.tokenReceive 9) (vwait [4])
    ∧ Next (.tokenReceive 9) (vsend (netN 1 true false) tkN 0)
    ∧ Next (.tokenReceive 9) (vsend (netN 3 true false) tkN 0) ∧ Next (.tokenReceive 9) svd ∧ Next (.tokenReceive 9) (vnet [] [] tkN) :=
  let ⟨_, _, _, _, f, g, sv, i, j⟩ := h
  let s := vsend (netN 0 true false) tkN 0
  let s3 := vsend (netN 3 true false) tkN 0
  let ⟨bs, e⟩ := bytesN (x := (hearing s (opN (netN 0 true false)) []).putRead (opN (netN 0 true false)) (netN 0 true false) 0 64) dk
  let ⟨bs3, e3⟩ := bytesN (x := (hearing s3 (opN (netN 3 true false)) []).netRead (opN (netN 3 true false)) 0x100 (rnCount 0 * fmtWidth (rnFmt 0) / 8)) dk
  ⟨⟨_, (f s 9 5 4 0 64 0 [] (opN (netN 0 true false)) (netN 0 true false) bs ⟨rfl, dk, dk⟩ dk rfl (by decide)).1 e⟩,
   ⟨_, (f (vwait []) 9 5 4 0 64 0 [] (opN (netW [])) (netW []) [] ⟨rfl, dk, dk⟩ dk rfl (by decide)).2 waitN⟩,
   ⟨_, (f (vwait [4]) 9 5 4 0 64 0 [] (opN (netW [4])) (netW [4]) [] ⟨rfl, dk, dk⟩ dk rfl (by decide)).2 waitN⟩,
   ⟨_, g (vsend (netN 1 true false) tkN 0) 9 5 4 0 64 0 [] (opN (netN 1 true false)) (netN 1 true false) rfl dk dk rfl⟩,
   ⟨_, i s3 9 5 4 0 64 0 [] (opN (netN 3 true false)) (netN 3 true false) bs3 rfl dk dk rfl e3⟩,
   ⟨_, sv svd 9 5 4 0 64 0 [] (opN (netN 3 true false)) (netN 3 true false) rfl dk dk⟩,
   ⟨_, j (vnet [] [] tkN) 9 5 6 4 0 64 0 [] rfl dk⟩⟩
/-- A GET whose own request holds a token of all its bytes. -/
def ownN : Req := { reqN .queued with own := true }
def rspN : WireBody := .rmaResp 0 4 (List.replicate 64 (0, false)) []
def vget (ts : List Token) : State :=
  { vsend (netN 1 true true) rspN 0 with dies := [{ Die.reset with iris := { Iris.reset with reqs := [ownN], toks := ts } }, Die.reset] }
theorem wit_TransfersEnd_1 (h : Obligations.TransfersEnd) :
    Next (.finished 9) (vsend (netN 0 true false) .finished 0) ∧ Next (.orphaned 9) (vsend (netN 0 true false) (.orphaned (some 64)) 0)
    ∧ Next (.refusalReceive 9) (vsend (netN 0 true false) (.refused 3 64) 0) ∧ Next (.refusalReceive 9) (vsend (netN 1 true false) (.refused 3 64) 0)
    ∧ Next (.frozenReceive 9) (vsend (netN 0 true false) .frozen 0) :=
  let ⟨a, b, c, f, _⟩ := h.1
  ⟨⟨_, a (vsend (netN 0 true false) .finished 0) 9 5 [] (opN (netN 0 true false)) (netN 0 true false) ⟨rfl, dk, dk⟩ rfl⟩,
   ⟨_, b (vsend (netN 0 true false) (.orphaned (some 64)) 0) 9 5 [] (opN (netN 0 true false)) (netN 0 true false) (some 64) ⟨rfl, dk, dk⟩ rfl⟩,
   ⟨_, c (vsend (netN 0 true false) (.refused 3 64) 0) 9 5 [] (opN (netN 0 true false)) (netN 0 true false) 3 64 ⟨rfl, dk, dk⟩ rfl⟩,
   ⟨_, h.2.1 (vsend (netN 1 true false) (.refused 3 64) 0) 9 5 [] (opN (netN 1 true false)) (netN 1 true false) 3 64 ⟨rfl, dk, dk⟩ rfl⟩,
   ⟨_, f (vsend (netN 0 true false) .frozen 0) 9 5 [] (opN (netN 0 true false)) (netN 0 true false) rfl dk⟩⟩
/-- That GET when it is about to land the whole packet, its last bytes, none that are left, where it may not land, and while it lands another. -/
def b64 : List MByte := List.replicate 64 (0, false)
def nld (addr m : Nat) (xs : List MByte) (got : Nat) : NetOp := { netN 1 true true with addr := addr, landing := some (m, 0, xs, got) }
def vgf (addr m : Nat) (xs : List MByte) (got : Nat) : State := { vget [] with ops := [opN (nld addr m xs got)] }
theorem wit_TransfersEnd_2 (h : Obligations.TransfersEnd) : Next (.getResponseLand 9) (vget [tokN 64 none]) ∧ Next (.getResponseLand 9) (vgf 0x100 9 b64 0)
    ∧ Next (.getResponseLand 9) (vgf 0x130 9 b64 0) ∧ Next (.getResponseLand 9) (vgf 0x100 9 [] 64) ∧ Next (.getResponseLand 9) (vgf 0x200000 9 b64 0)
    ∧ ((base.getLanded 9 (opN (nld 0x100 9 [] 64)) (nld 0x100 9 [] 64)).nextMsg = base.nextMsg) :=
  let a := h.2.2.1
  ⟨(a (vget [tokN 64 none]) 9 5 0 4 _ [] [] (opN (netN 1 true true)) (netN 1 true true) kr ownN _ _ _ _ _ ⟨rfl, dk, dk⟩ rfl dk rfl (by decide)
      (.begins (tokN 64 none) rfl dk) rfl).2.1 |> fun b => useOk fun ps e => ⟨_, b ps (by decide) e⟩,
   useOk fun ps e => ⟨_, (a (vgf 0x100 9 b64 0) 9 5 0 4 _ [] [] (opN (nld 0x100 9 b64 0)) (nld 0x100 9 b64 0) kr ownN _ _ _ _ _ ⟨rfl, dk, dk⟩ rfl dk rfl (by decide)
      (.goesOn _ rfl) rfl).2.1 ps (by decide) e⟩,
   useOk fun ps e => ⟨_, (a (vgf 0x130 9 b64 0) 9 5 0 4 _ [] [] (opN (nld 0x130 9 b64 0)) (nld 0x130 9 b64 0) kr ownN _ _ _ _ _ ⟨rfl, dk, dk⟩ rfl dk rfl (by decide)
      (.goesOn _ rfl) rfl).2.1 ps (by decide) e⟩,
   ⟨_, (a (vgf 0x100 9 [] 64) 9 5 0 4 _ [] [] (opN (nld 0x100 9 [] 64)) (nld 0x100 9 [] 64) kr ownN _ _ _ _ _ ⟨rfl, dk, dk⟩ rfl dk rfl (by decide)
      (.goesOn _ rfl) rfl).1 rfl⟩,
   useErr fun f e => ⟨_, (a (vgf 0x200000 9 b64 0) 9 5 0 4 _ [] [] (opN (nld 0x200000 9 b64 0)) (nld 0x200000 9 b64 0) kr ownN _ _ _ _ _ ⟨rfl, dk, dk⟩ rfl dk rfl (by decide)
      (.goesOn _ rfl) rfl).2.2 f (by decide) e⟩,
   (by rw [h.2.2.2.1 base 9 _ (nld 0x100 9 [] 64) _ _ _ rfl]; decide +kernel)⟩
theorem wit_TransfersEnd_4 (h : Obligations.TransfersEnd) : Next (.getResponseLand 9) (vget []) ∧ Next (.getResponseLand 9) (vgf 0x100 8 b64 0)
    ∧ Next (.getResponseLand 9) (vnet [] [] rspN) :=
  let ⟨_, _, _, b, c, _⟩ := h.2
  ⟨⟨_, (b (vget []) 9 5 0 4 _ [] [] (opN (netN 1 true true)) (netN 1 true true) kr ownN ⟨rfl, dk, dk⟩ rfl dk rfl (by decide)).1 rfl dk⟩,
   ⟨_, (b (vgf 0x100 8 b64 0) 9 5 0 4 _ [] [] (opN (nld 0x100 8 b64 0)) (nld 0x100 8 b64 0) kr ownN ⟨rfl, dk, dk⟩ rfl dk rfl (by decide)).2 8 _ rfl (by decide)⟩,
   ⟨_, c (vnet [] [] rspN) 9 5 0 4 _ [] [] 6 rfl (.inl dk)⟩⟩
theorem wit_TransfersEnd_3 (h : Obligations.TransfersEnd) :
    Next (.transferTimeout 0) (vsend (netN 1 true true) .frozen 0) ∧ Next (.transferTimeout 0) (vsend (netN 1 true true) .frozen (2 ^ 40))
    ∧ Next (.transferTimeout 0) (vsend (netN 0 true false) .frozen (2 ^ 40)) ∧ Next (.transferTimeout 0) (vsend (netN 0 true false) .frozen 0) :=
  let ⟨_, _, _, _, d, f⟩ := h.1
  let c := h.2.2.2.2.2.2
  ⟨⟨_, (c (vsend (netN 1 true true) .frozen 0) 0 (opN (netN 1 true true)) (netN 1 true true) kr rfl rfl rfl (by decide) rfl).1 dk⟩,
   ⟨_, (c (vsend (netN 1 true true) .frozen (2 ^ 40)) 0 (opN (netN 1 true true)) (netN 1 true true) kr rfl rfl rfl (by decide) rfl).2 dk⟩,
   ⟨_, d (vsend (netN 0 true false) .frozen (2 ^ 40)) 0 (opN (netN 0 true false)) (netN 0 true false) rfl rfl dk
      (by unfold Silent; decide +kernel) rfl rfl dk⟩,
   ⟨_, f (vsend (netN 0 true false) .frozen 0) 0 (opN (netN 0 true false)) (netN 0 true false) rfl rfl (by decide) (by unfold Silent; decide +kernel)⟩⟩

def laneN (off : Nat) : RaLane := ⟨0, off, 0, 5⟩
def raN (off : Nat) : WireBody := .ratom 2 4 false 0 [laneN off]
def opRa : Op := { op0 with eng := some (.ra 6 1 4 0 0x0050000000000000), fills := [⟨0, .unit⟩] }
def repN : WireBody := .ratomReply [⟨0, 9, 0, false⟩]
theorem wit_RemoteAtomicsAndReductions_1 (h : Obligations.RemoteAtomicsAndReductions) :
    Next (.ratomExecute 9) (vnet [] [] (raN 0)) ∧ Next (.ratomExecute 9) { vnet [] [] (raN 0) with wins := [] }
    ∧ ((base.raExecs winN 2 4 true [laneN 0x100]).2.map RaRes.reason = [3]) ∧ Next (.ratomReply 9) { vnet [] [] repN with ops := [opRa] } :=
  let ⟨a, b, c, d⟩ := h.1
  ⟨⟨_, a (vnet [] [] (raN 0)) 9 5 6 2 4 false 0 [laneN 0] [] winN rfl dk⟩,
   ⟨_, b { vnet [] [] (raN 0) with wins := [] } 9 5 6 2 4 false 0 [laneN 0] [] rfl rfl⟩,
   (by
     obtain ⟨t, x, e, -, hx, -⟩ := c base winN 2 4 true (laneN 0x100) []
     rw [e]
     have := (hx (by decide)).2
     simp [this, State.raExecs]),
   ⟨_, d { vnet [] [] repN with ops := [opRa] } 9 5 [⟨0, 9, 0, false⟩] [] opRa 6 1 4 0 0x0050000000000000 rfl (by decide) rfl dk
     dk dk⟩⟩
/-- A contribution of rank r of group 1 with two members, and a slot that holds rank 0's. -/
def conN (r : Nat) : Contrib :=
  { fgrp := 1, cseq := 2, op := 0, ranks := 1#64 <<< r, nmemb := 2, timeout := 1000, fmt := 0, nan := false, rf := false, part := false, nanseen := false, elems := [0] }
def sloN : SwSlot := ⟨7, conN 0, [(conN 0, 8, 3)], 0⟩
def vsw (r : Nat) (l : List SwSlot) (c : List (Nat × Nat × Nat × Nat)) : State := { vnet [] [] (.contrib (conN r)) with slots := l, closed := c }
def slO (i : Nat) : SwSlot := { sloN with head := { conN 0 with cseq := 3 + i } }
theorem wit_RemoteAtomicsAndReductions_2 (h : Obligations.RemoteAtomicsAndReductions) :
    Next (.reductionArrival 9) (vsw 1 [] [(1, 2, 0, 5)]) ∧ Next (.reductionArrival 9) (vsw 0 [sloN] []) ∧ Next (.reductionArrival 9) (vsw 1 (List.replicate 4096 (slO 0)) [])
    ∧ Next (.reductionArrival 9) (vsw 1 [sloN] []) ∧ Next (.reductionArrival 9) (vsw 1 [] []) ∧ Next (.reductionSlotTimeout 7) (vsw 1 [sloN] []) :=
  let ⟨a, b, _⟩ := h.2
  ⟨⟨_, (a (vsw 1 [] [(1, 2, 0, 5)]) 9 5 6 (conN 1) [] rfl).1 dk⟩,
   ⟨_, (a (vsw 0 [sloN] []) 9 5 6 (conN 0) [] rfl).2.1 sloN dk dk dk⟩,
   ⟨_, (a (vsw 1 (List.replicate 4096 (slO 0)) []) 9 5 6 (conN 1) [] rfl).2.2.1 dk dk dk⟩,
   ⟨_, (a (vsw 1 [sloN] []) 9 5 6 (conN 1) [] rfl).2.2.2.1 sloN dk dk dk⟩,
   ⟨_, (a (vsw 1 [] []) 9 5 6 (conN 1) [] rfl).2.2.2.2 dk dk dk⟩,
   ⟨_, b (vsw 1 [sloN] []) 7 sloN dk⟩⟩
def netR (asked : Bool) (r : Option (Nat × List Byte)) : NetOp := { netN 3 true asked with result := r }
def ansN : WireBody := .redResult 0 false 0 []
theorem wit_RemoteAtomicsAndReductions_3 (h : Obligations.RemoteAtomicsAndReductions) :
    Next (.reductionResultLand 0 1) (vsend (netR true (some (0, []))) .frozen 0) ∧ Next (.reductionResultLand 0 1) (vsend (netR true none) ansN 0)
    ∧ Next (.unreachable 0) (vsend (netR true none) .frozen (2 ^ 40)) ∧ Next (.unreachable 0) (vsend (netR true none) .frozen 0) :=
  let ⟨_, _, _, _, a, b, c, d⟩ := h.2
  ⟨⟨_, a (vsend (netR true (some (0, []))) .frozen 0) 0 (opN (netR true (some (0, [])))) (netR true (some (0, []))) kr 0 [] 1 dk rfl dk rfl rfl⟩,
   ⟨_, b (vsend (netR true none) ansN 0) 0 (opN (netR true none)) (netR true none) kr 9 0 false 0 [] 1 dk rfl dk rfl rfl rfl dk⟩,
   ⟨_, c (vsend (netR true none) .frozen (2 ^ 40)) 0 (opN (netR true none)) (netR true none) dk rfl rfl rfl dk (by unfold Silent; decide +kernel)⟩,
   ⟨_, d (vsend (netR true none) .frozen 0) 0 (opN (netR true none)) (netR true none) dk (by unfold Silent; decide +kernel)⟩⟩
theorem wit_RemoteAtomicsAndReductions_4 (h : Obligations.RemoteAtomicsAndReductions) :
    Config.swRoot 1 = false → (base.closeSlot sloN).up = [slotPartial (conN 0) [conN 0] 1] :=
  fun e => by rw [h.2.2.2.2.1 base sloN e]; rfl

/-- A crew with little to save, an area for its context, and a die that preempts it. -/
def kq (placed : Nat) : Crew := { kw { wp with regs := [] } with image := { img with regs := 0, scrlines := 0, matLen := 0, copyLen := 0, acc := 0, tilekib := 0 }, placed := placed, accs := [] }
def vsv (k : Crew) (p : Option CmdKind) (len now : Nat) : State :=
  { vs k with dies := [{ Die.reset with pend := p.map (fun c => ⟨c, 9, 0⟩) }, Die.reset], saves := [⟨1, 0, 0x1000, len, 0⟩], dtime := now }
def kqs : Crew := { kq 0 with st := .saved, savedWhy := 2 }
def vsp (len : Nat) : State := vsv (kq 0) (some (.preempt 1 0)) len 0
def vsr (now : Nat) : State := vsv (kq 0) none 0x100000 now
theorem svp (len : Nat) : Savable (inWork (vsp len) []) 0 0 (kq 0) ((inWork (vsp len) []).imageOf 0 0 (kq 0)) := ⟨rfl, rfl, rfl⟩
theorem svw (now : Nat) : Savable (inWork (vsr now) []) 0 2 (kq 0) ((inWork (vsr now) []).imageOf 0 2 (kq 0)) := ⟨rfl, rfl, rfl⟩
theorem room2 : ∃ a, (inWork (vsr 0) []).saveRoom (kq 0).ctxid ((inWork (vsr 0) []).imageOf 0 2 (kq 0)).length = some a := some_of dk
theorem room1 : ∃ a, (inWork (vsr 1000000) []).saveRoom (kq 0).ctxid ((inWork (vsr 1000000) []).imageOf 0 1 (kq 0)).length = some a := some_of dk
theorem roomp : ∃ a, (inWork (vsp 0x100000) []).saveRoom (kq 0).ctxid ((inWork (vsp 0x100000) []).imageOf 0 0 (kq 0)).length = some a := some_of dk
theorem roomq : (inWork (vsp 0) []).saveRoom (kq 0).ctxid ((inWork (vsp 0) []).imageOf 0 0 (kq 0)).length = none := by decide +kernel
theorem wit_CrewsAreSavedAndRestored_1 (h : Obligations.CrewsAreSavedAndRestored) :
    Next (.crewSave 0 0) (vsp 0x100000) ∧ Next (.crewSave 0 0) (vsp 0) ∧ Next (.crewSave 0 2) (vsr 0) ∧ Next (.crewSave 0 0) (vsv kqs none 0 0) :=
  let ⟨a, b, c, d, _⟩ := h.1
  let ⟨a1, e1⟩ := roomp
  let ⟨a3, e3⟩ := room2
  ⟨⟨_, a (vsp 0x100000) 0 (kq 0) _ 0 ⟨.preempt 1 0, 9, 0⟩ a1 (svp _) dk e1⟩,
   ⟨_, b (vsp 0) 0 (kq 0) _ 0 ⟨.preempt 1 0, 9, 0⟩ (svp 0) dk roomq⟩,
   ⟨_, c (vsr 0) 0 (kq 0) _ a3 (svw 0) dk e3⟩,
   ⟨_, d (vsv kqs none 0 0) 0 0 dk⟩⟩
theorem wit_CrewsAreSavedAndRestored_2 (h : Obligations.CrewsAreSavedAndRestored) :
    Next (.crewRestore 0 1) (vsv kqs none 0 0) ∧ Next (.crewRestore 0 1) (vsr 0) ∧ Next (.thermalMigration 0 0 1) (vsr 1000000)
    ∧ Next (.thermalMigration 0 5 1) (vsr 999999) :=
  let ⟨f, g, _, _, _, i, j⟩ := h.2
  let ⟨a1, e1⟩ := room1
  ⟨⟨_, (f (vsv kqs none 0 0) 0 1 kqs rfl rfl (.inl (by decide)) dk).2⟩,
   ⟨_, g (vsr 0) 0 1 (kq 0) rfl (.inl (by decide))⟩,
   ⟨_, i (vsr 1000000) 0 0 1 { Die.reset with pend := none } 0 (kq 0) a1 rfl dk rfl e1 (by decide) dk dk dk⟩,
   ⟨_, j (vsr 999999) 0 5 1 dk⟩⟩
theorem wit_CrewsAreSavedAndRestored_3 (h : Obligations.CrewsAreSavedAndRestored) :
    (∃ x, (base.loadCrew kr).warps[0]? = some x ∧ x.sregs[5]? = some (BitVec.ofNat 64 (base.rd (kr.savedAt + 2088) 8)))
    ∧ (base.loadCrew kr).sp.get 7 = base.mem.get (kr.savedAt + imgSpad kr.image + 7) :=
  let ⟨_, _, w, b, _⟩ := h.2
  ⟨let ⟨x, e, s, _⟩ := w base kr 0 wp rfl; ⟨x, e, s 5 (by decide)⟩, b base kr 7 (by decide)⟩
/-- A package whose die 0 has given core 5 its allowances for this window. -/
def vgr : State := { base with dies := [{ Die.reset with granted := [(5, 0)] }, Die.reset] }
theorem wit_PowerAndErrors_1 (h : Obligations.PowerAndErrors) :
    Next (.powerWindow 0 5 100 100) base ∧ Next (.powerWindow 0 5 101 25) base ∧ Next (.powerWindow 0 5 50 50) vgr ∧ Next (.thermalClamp 0) base
    ∧ Next (.thermalClampRelease 0) base :=
  let ⟨a, b, g, _, c, d⟩ := h.1
  ⟨(let ⟨t, x, _⟩ := a base 0 5 100 100 Die.reset rfl (by decide) (by decide) (by decide) (by decide) (by decide) (by decide) dk dk
      ⟨by decide, by split <;> decide⟩; ⟨t, x⟩),
   (let ⟨t, x, _⟩ := b base 0 5 101 25 (by decide); ⟨t, x⟩),
   ⟨_, g vgr 0 5 50 50 _ rfl (fun x => x.1 (by decide))⟩, (let ⟨t, x, _⟩ := c base 0 (by decide) dk dk; ⟨t, x⟩),
   (let ⟨t, x, _⟩ := d base 0 (by decide); ⟨t, x⟩)⟩
/-- A budget set at the last nanosecond of a window: it stands at the next one and not before. -/
def vbud (now : Nat) : State := { base with dies := [{ Die.reset with nextBudget := some (700, 1999) }, Die.reset], dtime := now }
theorem wit_PowerAndErrors_2 (h : Obligations.PowerAndErrors) : (vbud 2000).powerBudget 0 = 700 ∧ (vbud 1999).powerBudget 0 = Die.reset.budget := by
  obtain ⟨_, -, -, -, a, -⟩ := h.1.2.2.2.1 (vbud 2000) 0 _ rfl
  obtain ⟨_, -, -, -, b, -⟩ := h.1.2.2.2.1 (vbud 1999) 0 _ rfl
  exact ⟨a 700 1999 rfl, b 700 1999 rfl⟩
theorem wit_PowerAndErrors_3 (h : Obligations.PowerAndErrors) :
    Next (.uncorrectableError (.lane 0 0 1 5)) (vs kr) ∧ Next (.uncorrectableError (.block 2)) base ∧ Next (.uncorrectableError (.cacheWord 17)) base
    ∧ Next (.uncorrectableError (.ctxScalar 0 5)) (cs kr (cx true [])) ∧ Next (.uncorrectableError (.core 0 0)) (vs kr) ∧ Next (.correctableError (.block 2)) base :=
  let ⟨f, g, w, x, i, j⟩ := h.2
  ⟨⟨_, f _ _ _ (.lane 0 0 1 5) (vs kr) kr rfl rfl⟩, ⟨_, g base 2 (by decide) dk⟩, ⟨_, w base 17 (by decide) dk⟩,
   ⟨_, x (cs kr (cx true [])) 0 (cx true []) kr 5 rfl (by decide) rfl rfl (by decide) dk⟩,
   ⟨_, i (vs kr) 0 0 kr rfl rfl (by decide)⟩, (let ⟨t, y, _⟩ := j base (.block 2); ⟨t, y⟩)⟩
def vfr : State := { base with boot := { base.boot with stat := 3 } }
/-- What a cold reset meets in a good package, and in one whose die 1 has a core too few. -/
def bin (c : Nat) : BootInput := ⟨[], [], [], [], 0, 0, false, 0, [], [], 264, c, true, true, true, 5⟩
theorem wit_ResetsAndBoot_1 (h : Obligations.ResetsAndBoot) :
    Next .powerLoss base ∧ Next (.coldReset (bin 264)) base ∧ ((base.coldReset (bin 263)).bootStep.bootStep.bootStep.bootStep.bootStep.boot.stat.toNat % 16 = 5)
    ∧ Next .functionReset base ∧ Next .functionResetComplete vfr ∧ Next .functionResetComplete base :=
  let ⟨p, q, ⟨a, b, _, d⟩, _⟩ := h
  ⟨(let ⟨t, x, _⟩ := p base (bin 264) (.powerLoss, 0, none) (by simp); ⟨t, x⟩), (let ⟨t, x, _⟩ := p base (bin 264) (.coldReset (bin 264), 1, some (1, bin 264)) (by simp); ⟨t, x⟩),
   (q.2.2.2.2 base (bin 263)).2.1, (let ⟨t, x, _⟩ := a base; ⟨t, x⟩), (let ⟨t, x, _⟩ := b vfr dk rfl dk rfl; ⟨t, x⟩),
   ⟨_, d base (.inl dk)⟩⟩
def vlive : State := { kvs kr (cx true []) with
  dies := [{ dieA with sched := { dieA.sched with needs := [(0, 0)] } }, Die.reset], boot := { base.boot with stat := 3 } }
theorem wit_ResetsAndBoot_2 (h : Obligations.ResetsAndBoot) : Next .functionResetComplete vlive :=
  ⟨_, (h.2.2.1.2.2.1 vlive (0, 0) dk rfl dk).2⟩
/-- The first stage of a boot, and its fourth with a package that meets it. -/
def vbo (n : Nat) : State := { base with boot := { base.boot with run := some (n, bin 264) } }
theorem wit_ResetsAndBoot_3 (h : Obligations.ResetsAndBoot) :
    (vbo 1).bootStep.mem = (vbo 1).mem ∧ step { base with agenda := [.boot] } = .next ({ base with agenda := [] } : State).bootStep :=
  ⟨(h.2.1.2.2.2.1 (vbo 1) 1 (bin 264) (by rfl)).2.2.1, h.2.1.2.1 { base with agenda := [.boot] } [] (by rfl)⟩
theorem wit_ResetsAndBoot_5 (h : Obligations.ResetsAndBoot) : base.bootStep = base := h.2.1.2.2.1 base (by rfl)
theorem wit_ResetsAndBoot_6 (h : Obligations.ResetsAndBoot) (e : stageFail (bin 264) ((vbo 5).stageWork (bin 264) 5).boot.fused 5 = 0) :
    (vbo 5).bootStep.boot.run = none := ((h.2.1.2.2.2.1 (vbo 5) 5 (bin 264) (by rfl)).2.1 e).1
def dbe (now : Nat) : Die := { Die.reset with beats := [now, now, 5, now] }
def vbe (now : Nat) : State := { ready base with dies := [Die.reset, dbe now], dtime := now }
theorem wit_ResetsAndBoot_4 (h : Obligations.ResetsAndBoot) : Next (.watchdogTimeout 1) (vbe 10000005) ∧ Next (.watchdogTimeout 1) (vbe 10000004) :=
  let ⟨_, f, g⟩ := h.2.2.2
  ⟨(let ⟨t, x, _⟩ := f (vbe 10000005) 1 (dbe 10000005) (by decide) (by rfl) dk dk ⟨5, by decide, by decide⟩; ⟨t, x⟩),
   ⟨_, g (vbe 10000004) 1 (dbe 10000004) (by rfl) (.inr (.inr dk))⟩⟩
def vhb : State := { vbe 9 with agenda := [.heartbeat 1 2] }
theorem wit_ResetsAndBoot_7 (h : Obligations.ResetsAndBoot) : ∃ t, step vhb = .next t := ⟨_, h.2.2.2.1 vhb 1 2 [] (by rfl)⟩
theorem wit_StepsKeepShape (h : Obligations.StepsKeepShape) : ∃ s t, State.Inv s ∧ step s = .next t ∧ State.Inv t :=
  have hi : State.Inv State.reset := { mem := rfl, poison := rfl, words := rfl, windows := by decide, meas := rfl, dies := rfl, lead0 := by decide, lead1 := by decide }
  ⟨State.reset, State.reset, hi, rfl, h _ _ hi rfl⟩

def dieC : Die := { Die.reset with mrlogn := 4, mrtail := 1 }
theorem wit_ManagementRegisters_1 (h : Obligations.ManagementRegisters) :
    Next (.mgmtUnknownCommand 0) (cmd 0) ∧ Next (.mgmtUnknownCommand 0) (cmd 21) ∧ Next (.mgmtRecordSkip 0) { cmd 0 with windows := List.replicate 64 0 }
    ∧ Next (.mrtail 0 16) (cmd 0) ∧ Next (.mrtail 0 17) (cmd 0) ∧ Next (.mrbase 1 false 0x1000) (cmd 0) ∧ Next (.mrbase 0 true 12) (cmd 0) :=
  let ⟨a, b, c, d, _⟩ := h
  ⟨⟨_, a (cmd 0) 0 0 dk (by decide)⟩, ⟨_, a (cmd 21) 0 21 dk (by decide)⟩,
   ⟨_, b { cmd 0 with windows := List.replicate 64 0 } 0 dieC dk rfl⟩,
   ⟨_, c (cmd 0) 0 dieC 16 dk rfl⟩, ⟨_, c (cmd 0) 0 dieC 17 dk rfl⟩,
   (let ⟨t, x, _⟩ := d (cmd 0) 1 Die.reset false 0x1000 dk rfl; ⟨t, x⟩),
   (let ⟨t, x, _⟩ := d (cmd 0) 0 dieC true 12 dk rfl; ⟨t, x⟩)⟩
theorem wit_ManagementRegisters_2 (h : Obligations.ManagementRegisters) :
    Next (.hostWindowWrite 63 0 7) (cmd 0) ∧ Next (.hostWindowWrite 0 2 0x1000) (cmd 0) ∧ Next (.hostWindowWrite 0 3 0x1000) (cmd 0)
    ∧ Next (.hostWindowWrite 0 0 7) { cmd 0 with wlock := true } ∧ Next .wlock (cmd 0) ∧ Next (.hostRegisterWrite 0x2118 5) (cmd 0)
    ∧ Next (.mrtail 0 5) base :=
  let ⟨_, _, _, _, a, b, c, d, _, _, _, _, _, _, f⟩ := h
  ⟨(let ⟨t, x, _⟩ := (a (cmd 0) 63 0 7 dk rfl rfl).1; ⟨t, x⟩),
   (let ⟨t, x, _⟩ := (a (cmd 0) 0 _ 0x1000 dk rfl rfl).2 2 (.inl rfl); ⟨t, x⟩),
   (let ⟨t, x, _⟩ := (a (cmd 0) 0 _ 0x1000 dk rfl rfl).2 3 (.inr rfl); ⟨t, x⟩),
   ⟨_, b { cmd 0 with wlock := true } 0 0 7 rfl⟩, (let ⟨t, x, _⟩ := c (cmd 0) dk; ⟨t, x⟩),
   ⟨_, (d (cmd 0) 5 dk).2.2.2.2⟩, ⟨_, (f base 0 0 false 5 dk).1⟩⟩
/-- Reads of BAR0: BOOTSTAT and a window's entry; one in a package that does not answer reads all ones. -/
theorem wit_ManagementRegisters_3 (h : Obligations.ManagementRegisters) :
    (cmd 0).barReg 0 0 = (cmd 0).boot.stat.toNat ∧ (cmd 0).barReg 0 0x2058 = Die.reset.mrhead ∧ base.barReg 0 0 = 2 ^ 64 - 1
    ∧ (cmd 0).barReg 0 0x101F8 = 0 :=
  let ⟨_, _, _, _, _, _, _, _, _, b, c, _⟩ := h
  have r := c (cmd 0) dk
  ⟨r.1, (r.2.2.2.1 1 Die.reset (by decide) rfl).2.2.2, b base 0 0 dk, (r.2.2.2.2.2 7 0 (by decide) rfl 7 (by decide)).trans dk⟩
def rngB : Ring := ⟨5, 0, 4, 0, 1, 0, 7, 10, 3, 0, false, 0, 100⟩
def vbar (t : Turn) : State := { ready base with agenda := [t], queues := [{ que 0 with head := 9, stolen := true }], rings := [rngB] }
theorem wit_ManagementRegisters_4 (h : Obligations.ManagementRegisters) :
    (step (vbar (.barRead 2 0x2010 4)) = .next { vbar (.barRead 2 0x2010 4) with agenda := [], hostSaw := [(2, 0x2010, 4, (vbar .boot).barReg 2 0x2010 % 2 ^ 32)] })
    ∧ (vbar .boot).barReg 2 0x2008 = 9 ∧ (vbar .boot).barReg 2 0x2010 = 9 ∧ (vbar .boot).barReg 2 0x8000050 = 3 :=
  let ⟨_, _, _, _, _, _, _, _, a, _, _, c, d, _⟩ := h
  have q := (c (vbar .boot) 2 _ dk (by decide) rfl).2
  ⟨(a (vbar (.barRead 2 0x2010 4)) 2 0x2010 4 [] rfl).trans (by simp [vbar]; decide +kernel), q.1, q.2,
   (d (vbar .boot) 0 5 rngB dk (by decide) (by decide) rfl).1⟩
def nextOf : Host.Outcome State Fault Refusal → Option State
  | .next t => some t
  | _ => none
theorem nxt {o : Host.Outcome State Fault Refusal} {t : State} (h : nextOf o = some t) : o = .next t := by
  cases o <;> simp_all [nextOf]
theorem wit_ManagementRegisters_5 (h : Obligations.ManagementRegisters) :
    (∃ t, step (vbar (.barWrite 2 0x2000 7)) = .next t) ∧ (∃ t, step (vbar (.barWrite 2 0x8004050 7)) = .next t)
    ∧ ∃ t, step (vbar (.barWrite 0 8 1)) = .next t :=
  let ⟨_, _, _, _, _, _, _, _, _, _, _, _, _, w, _⟩ := h
  ⟨(let ⟨_, x⟩ := some_of dk; ⟨_, (w (vbar (.barWrite 2 0x2000 7)) [] 7 _).1 2 (by decide) rfl (nxt x)⟩),
   (let ⟨_, x⟩ := some_of dk; ⟨_, (w (vbar (.barWrite 2 0x8004050 7)) [] 7 _).2.1 1 5 (by decide) (by decide) rfl (nxt x)⟩),
   (let ⟨_, x⟩ := some_of dk; ⟨_, (w (vbar (.barWrite 0 8 1)) [] 1 _).2.2 8 (by rfl) (nxt x)⟩)⟩
/-- A NOP at the PC of the crew that the fetch of a program places, and that crew's turn on an agenda. -/
def vfet : State := State.reset.withProgram .vector 4 0x000000F3
def kfet : Crew := Crew.start (Image.six .vector) 0 0 0 1 0 1 0 false 0 0 0 none
def efet : Env := ⟨.warp 0 0, .vector, 0, 0, kfet, BitVec.allOnes 64, 0, baseHdr 0⟩
def turnOf (s : State) (r : List Turn) (c : Option ThreadRef) : State := { s with agenda := r, cur := c }
def vage (r : List Turn) (c : Option ThreadRef) : State := turnOf vfet r c
theorem par {r : List Turn} {c : Option ThreadRef} {n : Nat} {p : Parcel}
    (h : (match ({ vfet with agenda := [], cur := none } : State).parcel efet n with | .ok q => decide (q = p) | .error _ => false) = true) :
    (vage r c).parcel efet n = .ok p := by
  change ({ vfet with agenda := [], cur := none } : State).parcel efet n = .ok p
  revert h
  cases ({ vfet with agenda := [], cur := none } : State).parcel efet n <;> simp
theorem fetN (r : List Turn) (c : Option ThreadRef) : Fetches (vage r c) efet [0x00F3, 0] .nop :=
  ⟨by decide, fun n hn => match n, hn with | 0, _ => par dk | 1, _ => par dk,
   fun n hn => match n, hn with | 0, _ => by decide +kernel | 1, _ => by decide +kernel, dk⟩
theorem envN (r : List Turn) (c : Option ThreadRef) : (vage r c).env? (.warp 0 0) (baseHdr 0) = some efet := rfl
theorem wit_StepRunsTheDecodedInstruction_1 (h : Obligations.StepRunsTheDecodedInstruction) :
    step (vage [] (some (.warp 0 0))) = exec .nop (vage [] (some (.warp 0 0))) :=
  h.1 (vage [] (some efet.who)) efet [0x00F3, 0] .nop rfl rfl (envN _ _) (fetN _ _)
theorem turn_turn (s : State) (q : List Turn) (c : Option ThreadRef) : ({ turnOf s q none with agenda := [], cur := c } : State) = turnOf s [] c := rfl
theorem wit_StepRunsTheDecodedInstruction_2 (h : Obligations.StepRunsTheDecodedInstruction) :
    ∃ t, step (vage [.issue efet.who] none) = exec .nop t := by
  have := h.2.1 (vage [.issue efet.who] none) efet [0x00F3, 0] .nop [] rfl
  simp only [vage, turn_turn] at this
  exact ⟨_, this (envN _ _) (fetN _ _)⟩
theorem wit_StepRunsTheDecodedInstruction_3 (h : Obligations.StepRunsTheDecodedInstruction) :
    ∃ t, step (vage [.event (.thermalClamp 0)] none) = exec (.thermalClamp 0) t :=
  ⟨_, h.2.2 (vage [.event (.thermalClamp 0)] none) (.thermalClamp 0) [] rfl dk⟩
theorem wit_DecodeEncodeAgree (h : Obligations.DecodeEncodeAgree) :
    decode .vector (encode (.faddF32 ⟨1, 2, 3, false, false, some ⟨0, true, 0, 1, 3⟩⟩)) = .ok (.faddF32 ⟨1, 2, 3, false, false, some ⟨0, true, 0, 1, 3⟩⟩)
    ∧ decode .copy (encode (.smovi ⟨5, 0x078, some 0x123456⟩)) = .ok (.smovi ⟨5, 0x078, some 0x123456⟩) :=
  ⟨h .vector _ (by decide) rfl dk, h .copy _ (by decide) rfl dk⟩
theorem wit_RegisterInstructionsLeaveTheRest_1 (h : Obligations.RegisterInstructionsLeaveTheRest) :
    Next (.iaddI32 ⟨1, 2, 3, false, false, none⟩) (vs kr) ∧ Next (.sel ⟨1, 2, 3, false, false, some ⟨7, false, 0, 6, 0⟩⟩) (vs kr) :=
  ⟨(let ⟨t, _, x, _⟩ := h.1 _ _ vv _ _ iv (.lane _ _ _ _ (.iaddI32 _) lry); ⟨t, x⟩), (let ⟨t, _, x, _⟩ := h.1 _ _ vv _ _ iv (.sel _ _ rfl lry mr); ⟨t, x⟩)⟩
theorem wit_RegisterInstructionsLeaveTheRest_2 (h : Obligations.RegisterInstructionsLeaveTheRest) :
    Next (.shflIdx ⟨1, 2, 3, false, false, none⟩) (vs kr) ∧ Next (.scan ⟨1, 2, 0, false, none⟩) (vs kr) :=
  ⟨(let ⟨t, _, x, _⟩ := h.1 _ _ vv _ _ iv (.shuffle _ _ _ _ _ _ _ _ (.shflIdx _) lry); ⟨t, x⟩),
   (let ⟨t, _, x, _⟩ := h.1 _ _ vv _ _ iv (.scan _ _ _ _ _ _ _ _ (.scan _) lry trivial); ⟨t, x⟩)⟩
theorem wit_RegisterInstructionsLeaveTheRest_3 (h : Obligations.RegisterInstructionsLeaveTheRest) :
    Next (.icmpI32 ⟨7, 5, 2, 3, false, false, none⟩) (vs kr) ∧ Next (.mand ⟨1, 0, 7, none⟩) (vs kr) ∧ Next (.tstf ⟨1, 15, none⟩) (vs kr) :=
  ⟨(let ⟨t, _, x, _⟩ := h.2.1 _ _ vv _ _ iv (.lane _ _ _ _ (.icmpI32 _) lry) (by decide); ⟨t, x⟩),
   (let ⟨t, _, x, _⟩ := h.2.1 _ _ vv _ _ iv (.logic _ _ _ _ (.mand _) rfl (by simp only [MReady]; decide +kernel)) (by decide); ⟨t, x⟩),
   (let ⟨t, _, x, _⟩ := h.2.1 _ _ vv _ _ iv (.tstf _ rfl inr) (by decide); ⟨t, x⟩)⟩
theorem wit_RegisterInstructionsLeaveTheRest_4 (h : Obligations.RegisterInstructionsLeaveTheRest) :
    Next (.ssub ⟨1, 0, 63, true⟩) (vs kr) ∧ Next (.sadd ⟨0, 2, 3, false⟩) (cs kr (cx true [])) ∧ Next (.sshriA ⟨1, 2, 0x7F, none⟩) (vs kr)
    ∧ Next (.sclz ⟨63, 1, true⟩) (vs kr) ∧ Next (.spopc ⟨0, 0, false⟩) (vs kr) ∧ Next (.smovi ⟨5, 0x078, some 0x123456⟩) (vs kr) :=
  ⟨(let ⟨t, x, _⟩ := h.2.2 _ _ _ _ iv (.alu _ _ _ _ (.ssub _) sr sr) sf; ⟨t, x⟩), (let ⟨t, x, _⟩ := h.2.2 _ _ _ _ (ix (m := true)) (.alu _ _ _ _ (.sadd _) sr sr) sf; ⟨t, x⟩),
   (let ⟨t, x, _⟩ := h.2.2 _ _ _ _ iv (.imm _ _ _ (.sshriA _) sr) sf; ⟨t, x⟩), (let ⟨t, x, _⟩ := h.2.2 _ _ _ _ iv (.clz _ sr) sf; ⟨t, x⟩),
   (let ⟨t, x, _⟩ := h.2.2 _ _ _ _ iv (.popc _ sr) sf; ⟨t, x⟩), (let ⟨t, x, _⟩ := h.2.2 _ _ _ _ iv (.movi _) sf; ⟨t, x⟩)⟩
theorem wit_SequencersTrapOtherInstructions (h : Obligations.SequencersTrapOtherInstructions) :
    Next (.iaddI32 ⟨1, 2, 3, false, false, none⟩) (cs kr (cx false [])) :=
  ⟨_, h (cs kr (cx false [])) _ (ec false kr (.iaddI32 ⟨1, 2, 3, false, false, none⟩)) 0 (cx false []) (by decide) rfl rfl rfl rfl dk⟩
/-- Values that the statement gives: the largest E4M3, a negative BF16, a scale, and 2.5 to nearest even. -/
theorem wit_FormatValues (h : Obligations.FormatValues) :
    value (decodeFmt 3 0x7E) = some 448 ∧ value (decodeFmt 1 0xC000) = some (-2) ∧ value (decodeFmt 12 128) = some 2 ∧ roundQ false 5 (-1) 0 0 = 2 :=
  ⟨(h.1 _ _ _ _ _ _ _ _ .e4m3).2.2.1,
   (by
     have := ((h.1 _ _ _ _ _ _ _ _ .bf16).2.2.2.2 true 128 0 (by decide) (by decide)).2.2 (.inr (by decide)) (by decide)
     simpa [floatValue] using this),
   (by have := h.2.1 128 (by decide); norm_num at this; exact this),
   (by
     have := (h.2.2.2.2.2.2.2.2.2.2.2.2 false 5 (-1) 0 0 (by decide)).2
     have e : ((5 : ℚ) * 2 ^ (-1 : Int) / 2 ^ (0 : Int)) = 5 / 2 := by norm_num
     have f : ⌊(5 / 2 : ℚ)⌋₊ = 2 := by norm_num
     simp only [Nat.cast_ofNat, e, f] at this
     exact this (by norm_num [roundsUp]))⟩

end Sys2Proof.Tests
end

section
/-! The shape of a package (R10, R132, R418, R424) through the operations on state: one lemma per operation, in the order of the
model. Each is named after the operation, so that a proof reads as the operation does. -/
namespace Sys2Proof.Machine
open Sys2Proof.Laws

section Shape
variable {s t : State}

theorem State.Inv.stores (h : s.Inv) : StoreWf s := ⟨h.mem, h.poison, h.words⟩

/-- A change that keeps the stores canonical and the tables' sizes keeps the shape. -/
theorem State.Inv.stored (h : s.Inv) (w : StoreWf t)
    (e : (t.windows.length, t.boot.meas.length, t.dies.length, t.skew) = (s.windows.length, s.boot.meas.length, s.dies.length, s.skew)) : t.Inv := by
  obtain ⟨windows, meas, dies, skew⟩ : _ ∧ _ ∧ _ ∧ _ := by simpa only [Prod.mk.injEq] using e
  exact ⟨w.mem, w.blocks, w.words, windows.trans h.windows, meas.trans h.meas, dies.trans h.dies, skew ▸ h.lead0, skew ▸ h.lead1⟩

/-- A change that leaves the stores keeps the shape where it keeps the tables' sizes. -/
theorem State.Inv.sized (h : s.Inv) (e : (t.mem, t.memPoison, t.wordPoison, t.skew) = (s.mem, s.memPoison, s.wordPoison, s.skew))
    (windows : t.windows.length = s.windows.length) (meas : t.boot.meas.length = s.boot.meas.length) (dies : t.dies.length = s.dies.length) :
    t.Inv := by
  obtain ⟨mem, poison, words, skew⟩ : _ ∧ _ ∧ _ ∧ _ := by simpa only [Prod.mk.injEq] using e
  exact h.stored ⟨mem ▸ h.mem, poison ▸ h.poison, words ▸ h.words⟩ (by rw [windows, meas, dies, skew])

/-- A change outside the stores and the tables' sizes keeps the shape. -/
theorem State.Inv.same (h : s.Inv) (e : (t.mem, t.memPoison, t.wordPoison, t.windows.length, t.boot.meas.length, t.dies.length, t.skew)
    = (s.mem, s.memPoison, s.wordPoison, s.windows.length, s.boot.meas.length, s.dies.length, s.skew)) : t.Inv := by
  obtain ⟨mem, poison, words, windows, meas, dies, skew⟩ : _ ∧ _ ∧ _ ∧ _ ∧ _ ∧ _ ∧ _ := by simpa only [Prod.mk.injEq] using e
  exact h.sized (by rw [mem, poison, words, skew]) windows meas dies

/-- A walk along a list keeps the shape where its steps do. -/
theorem State.Inv.foldl {α : Type} {l : List α} {f : State → α → State} (h : s.Inv) (hf : ∀ t x, t.Inv → (f t x).Inv) :
    (l.foldl f s).Inv := by
  induction l generalizing s with
  | nil => exact h
  | cons x l ih => exact ih (hf s x h)

/-- The same where the walk carries a further result. -/
theorem State.Inv.foldl_fst {α β : Type} {l : List α} {f : State × β → α → State × β} {q : State × β} (h : q.1.Inv)
    (hf : ∀ q x, q.1.Inv → (f q x).1.Inv) : (l.foldl f q).1.Inv := by
  induction l generalizing q with
  | nil => exact h
  | cons x l ih => exact ih (hf q x h)

theorem State.Inv.ite {c : Prop} [Decidable c] (h : s.Inv) (h' : t.Inv) : (if c then s else t).Inv := by split; exacts [h, h']

/-- A check that answers an error has passed where the answer is none. -/
theorem ok_of_ite_error {ε α : Type} {c : Prop} [Decidable c] {a : ε} {r : Except ε α} {y : α} (e : (if c then .error a else r) = .ok y) :
    r = .ok y := by
  split at e
  · cases e
  · exact e

end Shape
end Sys2Proof.Machine
end

section
namespace Sys2Proof.Machine
open Sys2Proof.Laws

variable {s t : State} {c w x ci wi n off b id die key v : Nat} {e : Env} {o : Op} {who : ThreadRef} {lanes : W64} {seen : List Nat}

theorem State.Inv.modCrew {f : Crew → Crew} (h : s.Inv) : (s.modCrew c f).Inv := h.same rfl
theorem State.Inv.modWarp {f : Warp → Warp} (h : s.Inv) : (s.modWarp c w f).Inv := h.same rfl
theorem State.Inv.modCtx {f : SCtx → SCtx} (h : s.Inv) : (s.modCtx x f).Inv := h.same rfl

theorem State.Inv.enter {sp : Option Nat} {old : Sparse 8} {a : Option Author} (h : s.Inv) : (s.enter sp key n old a).Inv := h.same rfl

theorem State.Inv.noteSp {a : Option Author} (h : s.Inv) : (s.noteSp ci off n a).Inv := by
  unfold State.noteSp; split
  exacts [h.enter, h]

theorem State.Inv.asOne (h : t.Inv) : (s.asOne t).Inv := h.same rfl
theorem State.Inv.wrBy {a : Option Author} (h : s.Inv) : (s.wrBy key n v a).Inv := h.stored (wrBy_wf h.stores) rfl
theorem State.Inv.wr (h : s.Inv) : (s.wr key n v).Inv := h.wrBy
theorem State.Inv.releasing (h : s.Inv) : s.releasing.Inv := h.same rfl
theorem State.Inv.relaxed (h : s.Inv) : s.relaxed.Inv := h.same rfl
theorem State.Inv.wrL {bs : List Byte} (h : s.Inv) : (s.wrL key bs).Inv := h.stored (wrL_wf h.stores) rfl

/-- Fields outside the shape. -/
theorem State.Inv.withEv {x : EvRing} (h : s.Inv) : ({ s with ev := x } : State).Inv := h.same rfl
theorem State.Inv.withActor {a : Author} (h : s.Inv) : ({ s with actor := a } : State).Inv := h.same rfl
theorem State.Inv.withFree {k : Nat} (h : s.Inv) : ({ s with free := k } : State).Inv := h.same rfl

theorem State.Inv.event {core addr : Nat} {k : EvKind} {r : Bool} (h : s.Inv) : (s.event die core k addr r).Inv := by
  unfold State.event; dsimp only; split
  · exact h.same rfl
  · split
    exacts [h.wr.withEv, h]

theorem State.Inv.learn {since : Nat} (h : s.Inv) : (s.learn who lanes since seen).Inv := by
  unfold State.learn; split
  exacts [h, h.same rfl]

theorem State.Inv.joined (h : s.Inv) : (s.joined who lanes seen).Inv := h.learn

/-- What an operation thread does keeps the shape where it would as any other agent's work. -/
theorem State.Inv.asOp {f : State → State} (h : s.Inv) (hf : ∀ t, t.Inv → (f t).Inv) : (s.asOp o f).Inv :=
  (hf _ h.withActor).same rfl

theorem State.Inv.asWork {past : List Nat} {f : State → State} {keep : List Nat → State → State} (h : s.Inv)
    (hf : ∀ t, t.Inv → (f t).Inv) (hk : ∀ p t, t.Inv → (keep p t).Inv) : (s.asWork past f keep).Inv :=
  (hk _ _ (hf _ h.withActor)).same rfl

theorem State.Inv.noteFork (h : s.Inv) : (s.noteFork o).Inv := by
  unfold State.noteFork; split
  exacts [h.same rfl, h]

theorem State.Inv.actJoins (h : s.Inv) : (s.actJoins seen).Inv := by
  unfold State.actJoins; split
  · exact h
  · split
    exacts [h.same rfl, h.same rfl, h]

end Sys2Proof.Machine
end

section
namespace Sys2Proof.Machine
open Sys2Proof.Laws

variable {s t : State} {c w x ci wi n off b id die key v g r k len : Nat} {e : Env} {o : Op} {who : ThreadRef} {lanes : W64} {seen : List Nat}
  {lost : Bool} {gone : W64}

/-! Barriers, cohorts and steps. -/

theorem State.Inv.wakeBar (h : s.Inv) : (s.wakeBar ci off).Inv := by
  unfold State.wakeBar; split
  exacts [h, h.same rfl]

theorem State.Inv.putBar {eval : Bool} (h : s.Inv) : (s.putBar ci off b eval).Inv := by
  unfold State.putBar; split
  · exact h
  · exact .ite h.noteSp.modCrew h.noteSp.modCrew.wakeBar

theorem State.Inv.noteArrival (h : s.Inv) : (s.noteArrival ci off b seen).Inv := h.same rfl

theorem State.Inv.barUpdBy {u : BarUpd} (h : s.Inv) : (s.barUpdBy seen ci off u).Inv := by
  unfold State.barUpdBy; split
  · exact h
  · split
    · exact h
    · exact h.same rfl
    · exact .ite h.event (.putBar (.ite h.noteArrival h))

theorem State.Inv.barUpd {u : BarUpd} (h : s.Inv) : (s.barUpd ci off u).Inv := h.barUpdBy

theorem State.Inv.modCohort {k : Crew} {key : W32} {f : Cohort → Cohort} (h : s.Inv) : (s.modCohort k key f).Inv := h.same rfl

theorem State.Inv.leaveCohort {m : Member} (h : s.Inv) : (s.leaveCohort ci m gone lost).Inv := by
  unfold State.leaveCohort; split
  · exact h
  · split
    · exact h
    · dsimp only; split
      · exact h.modCohort
      · exact .ite h.modCohort.barUpd.barUpd h.modCohort.barUpd

theorem State.Inv.implicitLeave (h : s.Inv) : (s.implicitLeave ci wi gone lost).Inv := by
  unfold State.implicitLeave; split
  · exact h
  · exact (h.foldl fun _ _ ht => .ite ht ht.leaveCohort).modWarp

theorem State.Inv.withCtxs {xs : List SCtx} (h : s.Inv) : ({ s with ctxs := xs } : State).Inv := h.same rfl

theorem State.Inv.stepReturn {v : W64} (h : s.Inv) : (s.stepReturn ci v seen).Inv :=
  (State.Inv.foldl h fun _ _ ht => .ite ht ht.joined).modCrew.withCtxs

theorem State.Inv.modStep {f : StepGrp → StepGrp} (h : s.Inv) : (s.modStep g f).Inv := h.same rfl
theorem State.Inv.nextStep {l : Nat} (h : s.Inv) : (s.nextStep g l).Inv := h.modStep

theorem State.Inv.stepCheck (h : s.Inv) : (s.stepCheck g).Inv := by
  unfold State.stepCheck; split
  · exact h
  · split
    · exact h
    · exact .ite (h.foldl fun _ _ ht => ht.stepReturn).nextStep h

theorem State.Inv.stepNote (h : s.Inv) : (s.stepNote ci seen).Inv := by
  unfold State.stepNote; split
  exacts [h.modStep, h]

theorem State.Inv.stepArrive (h : s.Inv) : (s.stepArrive ci).Inv := by
  unfold State.stepArrive; split
  · exact h
  · split
    · exact h
    · split
      · exact h
      · exact .ite h (.ite h.stepReturn h.modStep.stepCheck)

theorem State.Inv.stepOpDone {flag : Option Nat} (h : s.Inv) : (s.stepOpDone ci flag).Inv := by
  unfold State.stepOpDone; split
  · exact h
  · split
    exacts [h, h.modStep.stepCheck]

theorem State.Inv.endThreads (h : s.Inv) : (s.endThreads ci wi gone lost).Inv := by
  unfold State.endThreads; split
  exacts [h, h.implicitLeave.modWarp.stepArrive]

/-! Issue, traps, and reads by threads. -/

theorem State.Inv.modScal {f : List W64 × W64 × W64 → List W64 × W64 × W64} (h : s.Inv) : (s.modScal who f).Inv := by
  cases who
  exacts [h.modWarp, h.modCtx]

theorem State.Inv.setS {v : W64} (h : s.Inv) : (s.setS who r v).Inv := .ite h h.modScal
theorem State.Inv.pendS (h : s.Inv) : (s.pendS who r).Inv := .ite h h.modScal

theorem State.Inv.takeTrap {pc : W32} {tr : Trap} (h : s.Inv) : (s.takeTrap ci wi gone pc len tr).Inv := by
  unfold State.takeTrap; split
  · exact h
  · split
    · exact h
    · exact .ite h.modWarp h.modCrew.modWarp.endThreads

theorem State.Inv.ctxTrap {pc : W32} {tr : Trap} (h : s.Inv) : (s.ctxTrap x pc tr).Inv := h.modCtx

theorem State.Inv.jump {pc : W32} (h : s.Inv) : (s.jump e pc).Inv := by
  unfold State.jump; split
  exacts [h.modWarp, h.modCtx]

theorem State.Inv.raise {tr : Trap} (h : s.Inv) : (s.raise e tr).Inv := by
  unfold State.raise; split
  exacts [h.takeTrap, h.ctxTrap]

theorem State.Inv.stopped {st : Stop} (h : s.Inv) : (s.stopped e st).Inv := by
  cases st
  exacts [h, h.raise]

theorem State.Inv.ctxSettle (h : s.Inv) : (s.ctxSettle who).Inv := by
  cases who
  exacts [h, h.modCtx]

theorem State.Inv.addOp (h : s.Inv) : (s.addOp o).Inv := .noteFork (h.same rfl)

theorem State.Inv.acquire {since scope : Nat} {ws : List Wr} (h : s.Inv) : (s.acquire who since lanes scope ws).Inv := h.learn
theorem State.Inv.withHeads {hs : List Head} (h : s.Inv) : (s.withHeads hs).Inv := h.same rfl

theorem State.Inv.withReads {rs : List Rd} (h : s.Inv) : ({ s with reads := rs } : State).Inv := h.same rfl

theorem State.Inv.noteRead {since at_ : Nat} {sp acq : Option Nat} (h : s.Inv) : (s.noteRead who since lanes sp key n at_ acq).Inv := by
  unfold State.noteRead; dsimp only; split
  exacts [h.withReads.learn.acquire, h.withReads.learn]

theorem State.Inv.markRelease {scope : Nat} (h : s.Inv) : (s.markRelease who lanes scope).Inv := h.same rfl
theorem State.Inv.markAcquire {scope : Nat} (h : s.Inv) : (s.markAcquire who lanes scope).Inv :=
  h.foldl fun _ _ ht => .ite ht.acquire ht

theorem State.Inv.spNote {rel : Option Nat} {rmw : Bool} (h : s.Inv) : (s.spNote e lanes rel rmw off n).Inv := h.noteSp
theorem State.Inv.spPut {rel : Option Nat} {rmw : Bool} (h : s.Inv) : (s.spPut e lanes rel rmw off n v).Inv := h.spNote.modCrew
theorem State.Inv.spPutBits {mask : Nat} (h : s.Inv) : (s.spPutBits e lanes off mask v).Inv := h.spNote.modCrew

theorem State.Inv.agreed {qs : List (W64 × Nat × Nat)} (h : s.Inv) : (s.agreed e qs).Inv := by
  unfold State.agreed; split
  · exact .ite h (h.same rfl)
  · exact h

theorem State.Inv.spRead {acq : Option Nat} (h : t.Inv) : (t.spRead s e lanes off n acq).Inv := h.noteRead
theorem State.Inv.noteSeen {j : Nat} {p : Spot} (h : t.Inv) : (t.noteSeen s e j p n).Inv := by
  unfold State.noteSeen; exact h.noteRead

theorem State.Inv.threadRead {q : Nat × Bool × State} (h : s.Inv) (hq : s.threadRead o lanes key n = some q) : q.2.2.Inv := by
  unfold State.threadRead at hq
  split at hq
  · cases hq
  · split at hq
    · cases hq
    · split at hq
      · split at hq
        · cases hq; exact h
        · cases hq
      · cases hq; exact h.noteRead

/-! Accesses in flight. -/

theorem State.Inv.modOp {f : Op → Op} (h : s.Inv) : (s.modOp id f).Inv := h.same rfl
theorem State.Inv.sweepOp (h : s.Inv) : (s.sweepOp id).Inv := h.same rfl
theorem State.Inv.landLane {lane : Nat} {vals : List (Nat × Lane)} (h : s.Inv) : (s.landLane o lane vals).Inv := h.modWarp

theorem State.Inv.fillLane {lane : Nat} (h : s.Inv) : (s.fillLane id lane).Inv := by
  unfold State.fillLane; split
  · exact h
  · split
    · exact h
    · dsimp only; split
      · exact h
      · exact h.landLane.modOp.sweepOp
      · split
        · exact h
        · next hq => exact .ite (h.threadRead hq).modOp (h.threadRead hq).landLane.modOp.sweepOp
      · split
        · exact h
        · next hq => exact (h.threadRead hq).landLane.modOp.sweepOp

theorem State.Inv.fillScalar (h : s.Inv) : (s.fillScalar id).Inv := by
  unfold State.fillScalar; split
  · exact h
  · split
    · exact h
    · dsimp only; split
      · exact h.setS.modOp.sweepOp
      · split
        · exact h
        · next hq => exact (h.threadRead hq).setS.modOp.sweepOp

theorem State.Inv.applyCells {cs : List Cellw} (h : s.Inv) : (s.applyCells o cs).Inv := by
  refine (h.foldl fun t c ht => ?_).stored (applyCells_wf h.stores) rfl
  unfold State.applyCell; dsimp only; split
  exacts [ht.wrBy, ht.stored ⟨wrBytes_wf _ ht.mem, ht.poison, ht.words⟩ rfl]

theorem State.Inv.acceptStore (h : s.Inv) : (s.acceptStore id b).Inv := by
  unfold State.acceptStore; split
  · exact h
  · exact .ite h.applyCells.asOne.modOp.sweepOp h

theorem State.Inv.notedReads {here : List AtomLane} (h : s.Inv) : (s.notedReads o here n).Inv := h.foldl fun _ _ ht => ht.noteRead

theorem State.Inv.execAtom {addr : Nat} (h : s.Inv) : (s.execAtom id addr).Inv := by
  unfold State.execAtom; split
  · exact h
  · exact .ite h (.modOp (.ite h h.notedReads.wrBy))

theorem State.Inv.startLoad {v : VEnv} {vt : Nat} {acq : Option Nat} {fills : List Fill} (h : s.Inv) :
    (s.startLoad e v vt n acq fills).Inv := .ite h.modWarp h.modWarp.addOp

theorem State.Inv.spotStores {rel : Option Nat} {ps : List (Nat × Spot)} {m : Nat → W64} {f : Nat → Nat} (h : s.Inv) :
    (s.spotStores e rel n ps m f).Inv :=
  .asOne (h.foldl fun _ _ ht => by split; exacts [ht.spPut, ht])

theorem State.Inv.spAtoms {aop vt : Nat} {cmp f : Nat → Nat} {ps : List (Nat × Spot)} (h : s.Inv) :
    (State.spAtoms e aop n vt cmp f ps s).2.Inv := by
  induction ps generalizing s with
  | nil => exact h
  | cons p r ih =>
    obtain ⟨i, q⟩ := p
    cases q with
    | mem _ => exact ih h
    | spad off => exact ih (.ite h h.noteRead.spNote.modCrew)

/-! Barrier instructions. -/

theorem State.Inv.unbind (h : s.Inv) : (s.unbind ci off).Inv := h.same rfl
theorem State.Inv.initBar (h : s.Inv) : (s.initBar ci off b).Inv := .wakeBar (.putBar (h.same rfl))

theorem State.Inv.arriveUpd {k : Option Nat} (h : s.Inv) : (arriveUpd s e off k).Inv := by
  unfold Machine.arriveUpd; dsimp only; split
  · split
    · exact h.putBar
    · exact .putBar (.ite h h.modWarp)
  · exact h.putBar

theorem State.Inv.noteArrive {k : Option Nat} (h : s.Inv) : (noteArrive s e off k).Inv := .ite h h.noteArrival

theorem State.Inv.park {x : Wait} (h : s.Inv) : (s.park e x).Inv := by
  unfold State.park; split
  exacts [h.modWarp, h.modCtx]

end Sys2Proof.Machine
end

section
namespace Sys2Proof.Machine
open Sys2Proof.Laws

variable {s t : State} {c w x ci wi n off b id die key v g r k len a : Nat} {e : Env} {o : Op} {who : ThreadRef} {lanes ctl : W64} {seen : List Nat}
  {m : MxOp} {cr tab : Crew}

/-! What engines share. -/

theorem State.Inv.opJoined {ps : List (Spot × Nat)} (h : s.Inv) : (s.opJoined ci ps).Inv := h.actJoins

theorem State.Inv.wrMarked {bs : List (Byte × Bool)} (h : s.Inv) : (s.wrMarked key bs).Inv := h.stored (wrMarked_wf h.stores) rfl

theorem State.Inv.writePieces {ps : List (Spot × Nat)} {bs : List (Byte × Bool)} (h : s.Inv) : (s.writePieces ci ps bs).Inv := by
  induction ps generalizing s bs with
  | nil => exact h
  | cons p r ih =>
    obtain ⟨q, n⟩ := p
    cases q
    exacts [ih h.noteSp.modCrew, ih h.wrMarked]

theorem State.Inv.writeBytes {xs : List (Spot × MByte)} (h : s.Inv) : (s.writeBytes ci xs).Inv :=
  .asOne (h.foldl fun _ _ ht => ht.writePieces)

theorem State.Inv.landLines {ls : List Nat} (h : s.Inv) : (s.landLines ci ls).Inv := .ite h (h.same rfl)

theorem State.Inv.endEng {flag : Option Nat} (h : s.Inv) : (s.endEng o flag).Inv := h.modOp.sweepOp.stepOpDone

/-! The matrix engine. -/

/-- Where the work of a matrix operation leaves a state, it keeps the shape. -/
def MxEnd.Keeps : MxEnd → Prop
  | .part s => s.Inv
  | .done s => s.Inv
  | _ => True

theorem State.Inv.entryJoined (h : s.Inv) : (s.entryJoined ci cr tab n).Inv := by
  unfold State.entryJoined; split
  exacts [h.opJoined, h]

theorem State.Inv.stage {m : TileMap} (h : s.Inv) : (s.stage ci cr m).Inv := h.modCrew.opJoined

theorem State.Inv.refreshAcc (h : s.Inv) : (s.refreshAcc ci a).Inv := h.modCrew
theorem State.Inv.refreshAccs {cs : List Nat} (h : s.Inv) : (s.refreshAccs cs a).Inv := h.foldl fun _ _ ht => ht.refreshAcc
theorem State.Inv.issueMx (h : s.Inv) : (s.issueMx e m).Inv := h.addOp.refreshAccs

theorem State.Inv.noteExtents (h : t.Inv) : (t.noteExtents s e m ctl).Inv :=
  .ite h (h.foldl fun _ _ ht => ht.foldl fun _ _ hu => hu.noteSeen)

theorem State.Inv.mxArrive {bar : W64} {u : BarUpd} (h : s.Inv) : (s.mxArrive ci bar u).Inv := by
  unfold State.mxArrive; split
  · exact h
  · split
    exacts [.ite h h.barUpd, h]

theorem State.Inv.mxRecord {fn : Nat} {f : MxFault} (h : s.Inv) : (s.mxRecord x id fn f).Inv := h.modCtx

theorem State.Inv.mxRecordBy {fn : Nat} {f : MxFault} (h : s.Inv) : (s.mxRecordBy e fn f).Inv := by
  unfold State.mxRecordBy; split
  exacts [h.mxRecord, h]

theorem State.Inv.drainFault {f : MxFault} (h : s.Inv) : (s.drainFault e m f).Inv :=
  (h.mxRecordBy.asOp fun _ ht => ht.mxArrive).stepOpDone

theorem State.Inv.startDrain {fw : Warp} {lines : List Nat} (h : s.Inv) : (s.startDrain e fw lines m).Inv :=
  (State.Inv.ite h.modWarp h).modCrew.noteExtents.issueMx

theorem State.Inv.setAcc {y : Acc} (h : s.Inv) : (s.setAcc ci a y).Inv := h.modCrew

theorem State.Inv.fetchTile {d : BitVec 128} (h : s.Inv) : (fetchTile s ci tab d).Keeps := by
  unfold Machine.fetchTile; split
  · trivial
  · split
    · exact h
    · split
      · trivial
      · trivial
      · split
        exacts [h.stage.entryJoined, trivial]

theorem State.Inv.productOn {kb : Option Crew} {sc mat : Bool} {ta tb : BitVec 128} {rows : State → Crew → Rows} (h : s.Inv) :
    (productOn s ci kb sc ta tb mat a rows).Keeps := by
  unfold Machine.productOn; split
  · trivial
  · split
    · split
      · trivial
      · trivial
      · split
        exacts [h.setAcc, trivial]
    · trivial

theorem State.Inv.runProduct (h : s.Inv) : (runProduct s o m).Keeps := by
  unfold Machine.runProduct; split
  · trivial
  · split
    · trivial
    · next k _ =>
      have h1 : (Machine.fetchTile s o.crew k m.tda).Keeps := h.fetchTile
      split
      · next s1 e1 =>
        rw [e1] at h1
        have h2 : (Machine.fetchTile s1 o.crew k m.tdb).Keeps := State.Inv.fetchTile h1
        split
        · next e2 => rw [e2] at h2; exact (State.Inv.opJoined h2).productOn
        · exact h2
      · exact h1

theorem State.Inv.addShare {xs : List (List Spot × W32)} (h : s.Inv) (e : addShare s ci m xs = some t) : t.Inv := by
  induction xs generalizing s with
  | nil => cases e; exact h
  | cons p r ih =>
    rw [Machine.addShare] at e
    split at e
    · cases e
    · dsimp only at e
      split at e
      · cases e
      · exact ih h.withHeads.writeBytes.withHeads e

theorem State.Inv.runShares {last : State → State} {hs : List MxShare} (h : s.Inv) (hl : ∀ t, t.Inv → (last t).Inv) :
    (runShares s o m last hs).Keeps := by
  cases hs with
  | nil => exact hl s h
  | cons p r =>
    rw [Machine.runShares]; split
    · trivial
    · split
      · trivial
      · split
        · trivial
        · next s0 e =>
          have h1 {ls : List Nat} := ((h.addShare e).writeBytes (ci := o.crew) (xs := p.bytes)).asOne (s := s) |>.landLines (ci := o.crew) (ls := ls)
          dsimp only; split
          exacts [hl _ h1, h1.modOp]

theorem State.Inv.runMove (h : s.Inv) : (runMove s o m).Keeps := by
  unfold Machine.runMove; split
  · exact h.runShares fun _ ht => ht
  · split
    · trivial
    · split
      · trivial
      · split
        · trivial
        · dsimp only; split
          · trivial
          · trivial
          · split
            · split
              exacts [h.entryJoined.stage, trivial]
            · split
              exacts [trivial, h.entryJoined.runShares fun _ ht => ht]

theorem State.Inv.runDrain (h : s.Inv) : (runDrain s o m).Keeps := by
  unfold Machine.runDrain; split
  · next y _ _ =>
    have clr : ∀ t : State, t.Inv → (if m.c.getLsbD 54 then t.setAcc o.crew m.acc y.cleared else t).Inv := fun _ ht => .ite ht.setAcc ht
    dsimp only; split
    · exact h.runShares clr
    · split
      · exact clr _ h.modWarp
      · split
        · trivial
        · split
          exacts [trivial, h.runShares clr]
  · trivial

theorem State.Inv.undoDrain (h : s.Inv) : (s.undoDrain o m).Inv := .ite h.landLines h.landLines.modWarp

theorem State.Inv.mxFinish {fault : Bool} (h : s.Inv) : (s.mxFinish o m fault).Inv :=
  .stepOpDone (.foldl (.ite h.modOp.sweepOp.refreshAccs h.modOp.sweepOp) fun _ _ ht => ht.mxArrive)

theorem State.Inv.mxEnd {work : State → Op → MxOp → MxEnd} (h : s.Inv) (hw : (work s o m).Keeps) : (s.mxEnd o m x work).Inv := by
  unfold State.mxEnd; split
  · exact h.undoDrain.mxFinish
  · split
    · exact h
    · exact h.undoDrain.mxRecord.mxFinish
    · next e => rw [e] at hw; exact hw
    · next e => rw [e] at hw; exact State.Inv.mxFinish hw

theorem State.Inv.mxComplete {p : Nat → Bool} {work : State → Op → MxOp → MxEnd} (h : s.Inv)
    (hw : ∀ t o m, t.Inv → (work t o m).Keeps) : (mxComplete s id p work).Inv := by
  unfold Machine.mxComplete; split
  · exact h
  · exact h.asOp fun t ht => ht.mxEnd (hw t _ _ ht)

theorem State.Inv.gangFinish (h : s.Inv) : (s.gangFinish o m x).Inv :=
  .stepOpDone (.foldl (.refreshAccs (.sweepOp (.modOp (.ite h.modCtx h)))) fun _ _ ht => ht.mxArrive)

theorem State.Inv.sliceEnd {i : Nat} {ok : Bool} (h : s.Inv) : (s.sliceEnd o m x i ok).Inv := by
  unfold State.sliceEnd; split
  · exact h
  · exact .ite h.modOp.refreshAcc.gangFinish h.modOp.refreshAcc

theorem State.Inv.runSlice {y : Slice} (h : s.Inv) : (runSlice s o m y).Keeps := by
  unfold Machine.runSlice; split
  · next km ki _ _ =>
    split
    · trivial
    · split
      · trivial
      · have h1 : (Machine.fetchTile s y.crew km y.td).Keeps := h.fetchTile
        split
        · next s1 e1 =>
          rw [e1] at h1
          have h2 : (Machine.fetchTile s1 y.crew ki m.tdb).Keeps := State.Inv.fetchTile h1
          split
          · next e2 => rw [e2] at h2; exact State.Inv.productOn h2
          · exact h2
        · exact h1
  · trivial

theorem State.Inv.sliceRun {i : Nat} (h : s.Inv) : (s.sliceRun o m x i).Inv := by
  unfold State.sliceRun; split
  · exact h
  · next y _ =>
    have hr : (Machine.runSlice s o (m.withB s o) y).Keeps := h.runSlice
    split
    · exact h
    · dsimp only; split
      · exact h.sliceEnd
      · next e => rw [e] at hr; exact State.Inv.sliceEnd hr
      · exact h

theorem State.Inv.endCtx {st : CtxSt} (h : s.Inv) : (s.endCtx x st).Inv := by
  unfold State.endCtx; split
  exacts [.ite h.modCtx h, h]

end Sys2Proof.Machine
end

section
namespace Sys2Proof.Machine
open Sys2Proof.Laws

variable {s t : State} {w x ci wi n off b id die key v g r k len a j op ctx addr : Nat} {e : Env} {o : Op} {who : ThreadRef} {lanes ctl : W64}
  {seen : List Nat} {cr tab : Crew} {c : CpOp}

/-! The copy engine. -/

theorem State.Inv.cpBarUpd {u : BarUpd} (h : s.Inv) : (s.cpBarUpd ci ctl u).Inv := by
  unfold State.cpBarUpd; split
  exacts [.ite h.barUpd h, h]

theorem State.Inv.issueCp (h : s.Inv) : (s.issueCp e c).Inv := by
  unfold State.issueCp; extract_lets s1 s2
  have h2 : s2.Inv := .ite h.modCrew.cpBarUpd h.modCrew
  exact .ite h2 h2.addOp

theorem State.Inv.mcUpd {launch : Nat} {d : McDst} {u : BarUpd} (h : s.Inv) : (s.mcUpd launch d u).Inv := by
  unfold State.mcUpd; split
  · split
    exacts [.ite h h.barUpd, h]
  · exact h.same rfl

theorem State.Inv.mcRefuse (h : s.Inv) : (s.mcRefuse ci ctl n).Inv := h.cpBarUpd.modCrew

theorem State.Inv.runJoined {kind : Nat} (h : s.Inv) : (s.runJoined ci cr kind a n).Inv := by
  unfold State.runJoined; split
  · exact h
  · split
    exacts [h.opJoined, h]

theorem State.Inv.mcFault {d : McDst} (h : s.Inv) : (s.mcFault o c j d).Inv := by
  unfold State.mcFault; split
  · exact h.mcRefuse
  · have h1 : (((c.owedOf j).foldl (fun s q => s.mcUpd (s.launchOf o.crew) d (.land q.2.1)) s)).Inv := h.foldl fun _ _ ht => ht.mcUpd
    have h2 := h.foldl (l := c.owedOf j) (f := fun t q => t.mcUpd (s.launchOf o.crew) d (.land q.2.1)) fun _ _ ht => ht.mcUpd
    exact .ite (.cpBarUpd (.ite h2.mcUpd h2)) (.ite h2 h2.cpBarUpd)

theorem State.Inv.cpFault {reason : Nat} (h : s.Inv) : (s.cpFault o c reason addr).Inv :=
  .endEng (.ite (h.landLines.modCrew.foldl fun _ _ ht => ht.mcFault) (h.landLines.modCrew.foldl fun _ _ ht => ht.cpBarUpd).cpBarUpd)

theorem State.Inv.cpNext (h : s.Inv) : (s.cpNext o c).Inv := .ite h.landLines.endEng h.landLines.modOp

theorem State.Inv.cpReadPart {r : Nat × Nat} (h : s.Inv) : (s.cpReadPart o cr c r b).Inv := by
  unfold State.cpReadPart; dsimp only; split
  · exact h.cpNext
  · split
    exacts [h, h.cpFault, h.runJoined.cpNext]

theorem State.Inv.cpReadByte {r : Nat × Nat} (h : s.Inv) : (s.cpReadByte o cr c r b).Inv := by
  unfold State.cpReadByte; split
  · exact .ite h.cpReadPart h.cpNext
  · exact h.cpReadPart
  · dsimp only; split
    · exact h
    · exact .ite h.actJoins.cpNext h.actJoins.cpReadPart

theorem State.Inv.bridged {p : Nat × Nat} {go : State} (h : s.Inv) (hg : go.Inv) : (s.bridged o c p die go).Inv := .ite h.modOp hg

theorem State.Inv.cpWritePart {p : Nat × Nat} (h : s.Inv) : (s.cpWritePart o cr c p).Inv := by
  unfold State.cpWritePart; dsimp only; split
  exacts [h.cpFault, h.bridged h.modCrew.cpNext, h.bridged h.writePieces.cpNext]

theorem State.Inv.mcWritePart {p : Nat × Nat} (h : s.Inv) : (s.mcWritePart o cr c p).Inv := by
  unfold State.mcWritePart; dsimp only; split
  · split
    · exact h
    · split
      exacts [h, h.cpNext, h.bridged h.noteSp.modCrew.cpNext]
  · exact h

theorem State.Inv.cpAccount {q : Nat × Nat × Bool} (h : s.Inv) : (s.cpAccount o c q).Inv := by
  unfold State.cpAccount; dsimp only; split
  · split
    · exact h
    · exact .ite h (.ite h.mcRefuse.cpNext (.cpNext (.ite h.mcUpd.cpBarUpd h.mcUpd)))
  · exact .ite h h.cpBarUpd.cpNext

theorem State.Inv.cpStep (h : s.Inv) : (s.cpStep o cr c b).Inv := by
  unfold State.cpStep; split
  · exact h.cpReadByte
  · exact .ite h (.ite h.mcWritePart h.cpWritePart)
  · split
    exacts [h.cpAccount, h]

theorem State.Inv.copyPart (h : s.Inv) : (s.copyPart id b).Inv := by
  unfold State.copyPart; split
  · exact h
  · split
    · exact .ite h (h.asOp fun _ ht => ht.cpStep)
    · exact h

/-! Fetch, translations, and the accesses of firmware and of the host link. -/

theorem State.Inv.fetchStop {st : Stop} {l : Option Nat} (h : s.Inv) : (s.fetchStop e st l).Inv := by
  cases l with
  | some n => exact h.stopped
  | none =>
    cases st
    exacts [h, h.withFree.raise]

theorem State.Inv.cacheXlat {va level : Nat} (h : s.Inv) : (s.cacheXlat ctx va level).Inv := by
  unfold State.cacheXlat; dsimp only; split
  · exact h
  · split
    exacts [h.same rfl, h]

theorem State.Inv.dropXlat {va level : Nat} (h : s.Inv) : (s.dropXlat ctx va level).Inv := h.sized rfl rfl rfl (List.length_map _)

theorem State.Inv.wrRuns {ks : List (Nat × Nat)} (h : s.Inv) : (s.wrRuns ks v).Inv := by
  induction ks generalizing s v with
  | nil => exact h
  | cons p r ih => exact ih h.wr

theorem State.Inv.vwr {va : Nat} (h : s.Inv) (e : s.vwr ctx va n v = some t) : t.Inv := by
  unfold State.vwr at e
  split at e
  · cases e; exact h.wrRuns
  · cases e

theorem State.Inv.irq {vec : Nat} (h : s.Inv) : (s.irq vec).Inv := h.same rfl
theorem State.Inv.hostWr (h : s.Inv) : (s.hostWr a n v).Inv := .ite h.wr h.event
theorem State.Inv.hostRel (h : s.Inv) : (s.hostRel a n v).Inv := .ite h.releasing.wr.relaxed h.event

theorem State.Inv.workWith {past : List Nat} {f : State → State} (h : s.Inv) (hf : ∀ t, t.Inv → (f t).Inv) : (s.workWith past f).Inv :=
  h.asWork hf fun _ _ ht => ht

theorem State.Inv.byWork {f : State → State} (h : s.Inv) (hf : ∀ t, t.Inv → (f t).Inv) : (s.byWork f).Inv := h.workWith hf
theorem State.Inv.workBegin {past : List Nat} (h : s.Inv) : (s.workBegin past).Inv := h.same rfl
theorem State.Inv.workEnd (h : t.Inv) : (t.workEnd s).Inv := h.same rfl

theorem State.Inv.hostWrite {bs : List Byte} (h : s.Inv) : (s.hostWrite a bs).Inv :=
  h.asWork (fun _ ht => ht.releasing.wrL.relaxed) fun _ _ ht => ht.same rfl

theorem State.Inv.hostLoad (h : s.Inv) : (s.hostLoad a n).Inv := h.same rfl

theorem State.Inv.complete {rec_ : Nat} (h : s.Inv) : (s.complete ctx addr rec_).Inv := by
  unfold State.complete; split
  · exact h.event
  · next e1 =>
    have h1 := h.vwr e1
    split
    · next e2 => exact (h1.releasing.vwr e2).relaxed
    · exact h1.event

theorem State.Inv.modDie {f : Die → Die} (h : s.Inv) : (s.modDie die f).Inv := h.sized rfl rfl rfl modAt_length

theorem State.Inv.cmdRecord {tag status aux : Nat} (h : s.Inv) : (s.cmdRecord die addr tag status aux).Inv := .ite h.wr.releasing.wr.relaxed h.event

theorem State.Inv.endCmd {q : PendCmd} {status aux : Nat} (h : s.Inv) : (s.endCmd die q status aux).Inv :=
  h.byWork fun _ ht => ht.modDie.cmdRecord

theorem State.Inv.preemptDone (h : s.Inv) : (s.preemptDone die).Inv := by
  unfold State.preemptDone; split
  · exact h
  · split
    · exact h
    · split
      exacts [.ite h h.endCmd, .ite h h.endCmd, h]

theorem State.Inv.preemptCheck (h : s.Inv) : s.preemptCheck.Inv := h.preemptDone.preemptDone

theorem State.Inv.modRing {f : Ring → Ring} (h : s.Inv) : (s.modRing id f).Inv := h.same rfl

theorem State.Inv.ringIrq (h : s.Inv) : (s.ringIrq id).Inv := by
  unfold State.ringIrq; split
  exacts [h.irq.modRing, h]

theorem State.Inv.ringTimer (h : s.Inv) : (s.ringTimer id).Inv := by
  unfold State.ringTimer; split
  exacts [.ite h.ringIrq h, h]

theorem State.Inv.ringPut {rec_ : Nat} {flush : Bool} (h : s.Inv) : (s.ringPut id rec_ flush).Inv := by
  unfold State.ringPut; dsimp only; split
  · exact h.ringTimer
  · exact .ite h.ringTimer.modRing.ringIrq (.ite h.ringTimer.hostWr.hostRel.modRing.ringIrq h.ringTimer.hostWr.hostRel.modRing)

theorem State.Inv.ringRecord {rec_ : Nat} (h : s.Inv) : (s.ringRecord die id rec_).Inv := .ite h.ringPut h.event

end Sys2Proof.Machine
end

section
namespace Sys2Proof.Machine
open Sys2Proof.Laws

variable {s t : State} {w x ci wi n off b id die key v g r k len a op ctx addr p : Nat} {e : Env} {o : Op} {who : ThreadRef} {lanes ctl : W64}
  {seen : List Nat} {cr tab : Crew} {c : CpOp} {j : Job} {status aux detail kcause : Nat}

/-! Jobs: launches, graphs, waits and the copies of packets. -/

theorem State.Inv.withJobs {js : List Job} (h : s.Inv) : ({ s with jobs := js } : State).Inv := h.same rfl
theorem State.Inv.withNextOp (h : s.Inv) : ({ s with nextOp := n } : State).Inv := h.same rfl
theorem State.Inv.withCrews {ks : List Crew} (h : s.Inv) : ({ s with crews := ks } : State).Inv := h.same rfl

theorem State.Inv.modJob {f : Job → Job} (h : s.Inv) : (s.modJob id f).Inv := h.same rfl
theorem State.Inv.addJob (h : s.Inv) : (s.addJob j).Inv := h.same rfl
theorem State.Inv.modQueue {f : Queue → Queue} (h : s.Inv) : (s.modQueue id f).Inv := h.same rfl
theorem State.Inv.record (h : s.Inv) : (s.record j status aux detail kcause).Inv := .ite h.complete h
theorem State.Inv.freeGroup (h : s.Inv) : (s.freeGroup id).Inv := h.same rfl
theorem State.Inv.iterResult (h : s.Inv) : (s.iterResult die g status seen).Inv := h.modDie

theorem State.Inv.finishJob (h : s.Inv) : (s.finishJob j status aux detail kcause).Inv := by
  unfold State.finishJob; extract_lets s1 s2 s3
  have h2 : s2.Inv := h.withJobs.freeGroup.workWith fun _ ht => ht.record
  have h3 : s3.Inv := by unfold s3; split; exacts [h2.modQueue, h2]
  split
  exacts [h3.iterResult, h3]

theorem State.Inv.beginLaunch {kids : List Kid} (h : s.Inv) (e : s.beginLaunch j p n kids = .ok t) : t.Inv := by
  unfold State.beginLaunch at e
  split at e
  · cases e
  · cases e
  · split at e
    · cases e
    · cases e; exact .ite h.addJob.modStep h.addJob

theorem State.Inv.modGraph {f : Graph → Graph} (h : s.Inv) : (s.modGraph id f).Inv := h.modJob

theorem State.Inv.signal (h : s.Inv) (e : s.signal ctx p = some t) : t.Inv := by
  unfold State.signal at e
  obtain ⟨u, hu, rfl⟩ := Option.map_eq_some_iff.1 e
  have h1 : u.Inv := by
    split at hu
    · exact h.releasing.vwr hu
    · split at hu
      · exact h.releasing.withHeads.vwr hu
      · cases hu
  exact .ite h1.relaxed.irq h1.relaxed

theorem State.Inv.startNode {g : Graph} (h : s.Inv) : (s.startNode j g n).1.Inv := by
  unfold State.startNode; dsimp only; split
  · split
    · next e => exact h.beginLaunch e
    · exact h
  · split
    exacts [h, h.withNextOp.addJob]
  · split
    exacts [h.workBegin, h]
  · split
    · next e => exact h.signal e
    · exact h
  · exact h.addJob
  · split
    · split
      exacts [h.ringPut, h]
    · exact h

theorem State.Inv.graphWork {ws : List GWork} (h : s.Inv) : (State.graphWork k s id ws).Inv := by
  induction k generalizing s ws with
  | zero => exact h
  | succ k ih =>
    cases ws with
    | nil => exact h
    | cons w rest =>
      rw [State.graphWork]; split
      · exact h
      · split
        · exact h
        · split
          · split
            exacts [ih h, ih h.modGraph.workBegin.startNode.workEnd]
          · exact ih h.modGraph.modJob

theorem State.Inv.graphSettle (h : s.Inv) : (State.graphSettle k s id).Inv := by
  induction k generalizing s with
  | zero => exact h
  | succ k ih =>
    rw [State.graphSettle]; split
    · exact h
    · split
      · exact h
      · split
        · exact h
        · split
          · exact h.finishJob
          · exact .ite h.finishJob (.ite h (.ite h.finishJob (.ite h.finishJob (ih h.modGraph.graphWork))))

theorem State.Inv.nodeDone {cause : Nat} (h : s.Inv) : (s.nodeDone id n r cause seen).Inv := by
  unfold State.nodeDone; split
  · split
    exacts [h.graphWork.graphSettle, h]
  · exact h

theorem State.Inv.jobDone (h : s.Inv) : (s.jobDone j status aux detail kcause).Inv := by
  unfold State.jobDone; split
  exacts [h.withJobs.freeGroup.nodeDone, h.finishJob]

theorem State.Inv.beginGraph {base deadline : Nat} {arg : W64} (h : s.Inv) : (s.beginGraph j base arg deadline).Inv := by
  unfold State.beginGraph; split
  · exact h.finishJob
  · dsimp only; split
    · exact h.finishJob
    · split
      · exact h.finishJob
      · exact .ite h.finishJob h.addJob.graphWork.graphSettle

theorem State.Inv.kidsDone {l : Launch} (h : s.Inv) : (s.kidsDone j l).Inv := by
  refine h.foldl fun t i ht => ?_
  dsimp only; split
  · exact ht
  · split
    · exact ht
    · exact (ht.modJob.workWith fun _ hu => hu.record).withFree

theorem State.Inv.launchCheck (h : s.Inv) : (s.launchCheck id).Inv := by
  unfold State.launchCheck; split
  · exact h
  · split
    · extract_lets s1
      have h1 : s1.Inv := .ite h h.kidsDone
      exact .ite h1 h1.jobDone
    · exact h

theorem State.Inv.modLaunch {opn : Bool} {f : Launch → Launch} (h : s.Inv) : (s.modLaunch id opn f).Inv := h.modJob

theorem State.Inv.reqsPlaced {launch : Nat} (h : s.Inv) : (s.reqsPlaced launch id).Inv := by
  unfold State.reqsPlaced; split
  · exact h
  · extract_lets mine s1
    have h1 : s1.Inv := h.sized rfl rfl rfl (List.length_map _)
    refine h1.foldl fun _ _ ht => ?_
    split
    exacts [ht.barUpdBy, ht]

theorem State.Inv.startCrew (h : s.Inv) : (s.startCrew cr seen).Inv := h.withCrews.foldl fun _ _ ht => ht.learn

theorem State.Inv.placeCrew (h : s.Inv) : (s.placeCrew id).Inv := by
  unfold State.placeCrew; split
  · exact h
  · split
    · split
      · exact h
      · split
        · exact h
        · split
          exacts [h, h.modLaunch.launchCheck, h.startCrew.reqsPlaced.modLaunch]
    · exact h

theorem State.Inv.leaveOps (h : s.Inv) : (s.leaveOps ci).Inv := h.same rfl

theorem State.Inv.endCrew (h : s.Inv) : (s.endCrew ci).Inv := by
  unfold State.endCrew; split
  · exact h
  · exact .ite h.leaveOps.modCrew.launchCheck.preemptCheck (.ite h.launchCheck h)

theorem State.Inv.pollJob (h : s.Inv) : (s.pollJob id).Inv := by
  unfold State.pollJob; split
  · exact h
  · split
    · dsimp only; split
      exacts [h.modJob.jobDone, .ite h.modJob.jobDone h.modJob]
    · exact h.graphSettle
    · exact h

theorem State.Inv.copyEnds (h : s.Inv) : (s.copyEnds j status).Inv := h.jobDone
theorem State.Inv.copyGoes (h : s.Inv) : (s.copyGoes j op c).Inv := .ite h.copyEnds h.modJob

theorem State.Inv.wrRunsMarked {ks : List (Nat × Nat)} {bs : List MByte} (h : s.Inv) : (s.wrRunsMarked ks bs).Inv := by
  induction ks generalizing s bs with
  | nil => exact h
  | cons q r ih => exact ih h.wrMarked

theorem State.Inv.hostCopyPart (h : s.Inv) : (s.hostCopyPart j op c b).Inv := by
  unfold State.hostCopyPart; split
  · dsimp only; split
    exacts [h.copyEnds, h.copyGoes]
  · dsimp only; split
    · exact h
    · split
      exacts [h.copyEnds, .ite h.copyGoes h.wrRunsMarked.copyGoes]
  · exact h

theorem State.Inv.asCopy {past : List Nat} {f : State → State} (h : s.Inv) (hf : ∀ t, t.Inv → (f t).Inv) : (s.asCopy op past f).Inv :=
  (hf _ h.withActor).workEnd

theorem State.Inv.anyCopyPart {part : Nat} (h : s.Inv) : (s.anyCopyPart op part).Inv := by
  unfold State.anyCopyPart; split
  · exact h.copyPart
  · split
    exacts [h.asCopy fun _ ht => ht.hostCopyPart, h]

/-! Control and status registers. -/

theorem State.Inv.setModes {f : BitVec 3 × BitVec 3 → BitVec 3 × BitVec 3} (h : s.Inv) : (s.setModes e f).Inv := by
  unfold State.setModes; split
  exacts [h.modWarp, h.modCtx]

theorem State.Inv.modOwnCtx {f : SCtx → SCtx} (h : s.Inv) : (s.modOwnCtx e f).Inv := by
  unfold State.modOwnCtx; split
  exacts [h, h.modCtx]

theorem State.Inv.csrStore {v : W64} (h : s.Inv) : (s.csrStore e n v).Inv := by
  unfold State.csrStore; split
  exacts [h.setModes, h.setModes, h.modOwnCtx, h.modOwnCtx, h.modOwnCtx, h.modOwnCtx, h.modCrew, h.modCrew, h.modCrew, h.modCrew, h]

end Sys2Proof.Machine
end

section
namespace Sys2Proof.Machine
open Sys2Proof.Laws

variable {s t : State} {w x ci wi n off b id die key v g r k len a op ctx addr p f q j src dst seq lane frame slot line : Nat} {e : Env} {o : Op}
  {who : ThreadRef} {lanes ctl : W64} {seen : List Nat} {cr tab : Crew}

/-! Page engines. -/

theorem State.Inv.setFr (h : s.Inv) : (s.setFr die f v).Inv := h.wr
theorem State.Inv.modFr {u : Nat → Nat} (h : s.Inv) : (s.modFr die f u).Inv := h.setFr
theorem State.Inv.frSettle (h : s.Inv) : (s.frSettle die f).Inv := .ite h.setFr h

theorem State.Inv.setBt {btab npage : Nat} (h : s.Inv) : (s.setBt ctx btab npage q j f).Inv := by
  unfold State.setBt; split
  exacts [h.wrRuns, h]

theorem State.Inv.rewriteOwner (h : s.Inv) : (s.rewriteOwner die v f g).Inv := by
  unfold State.rewriteOwner; split
  · split
    · dsimp only; split
      exacts [.ite h.setBt h, h]
    · exact h
  · exact h

theorem State.Inv.copyPage (h : s.Inv) : (s.copyPage die src dst).Inv := .ite h.wrMarked.modFr h.wrMarked

theorem State.Inv.pageCopy {go : State} (h : s.Inv) (hg : go.Inv) : (s.pageCopy die src dst go).Inv := .ite h.modDie hg.modDie

theorem State.Inv.movePage (h : s.Inv) : (s.movePage die f g).Inv := h.copyPage.setFr.rewriteOwner.setFr.frSettle

theorem State.Inv.startFetch (h : s.Inv) : (s.startFetch die f).Inv := by
  unfold State.startFetch; dsimp only; split
  · split
    exacts [h.setFr, h]
  · exact h

theorem State.Inv.withXfers {xs : List (Nat × Nat × Nat)} (h : s.Inv) : ({ s with xfers := xs } : State).Inv := h.same rfl

theorem State.Inv.xferDone (h : s.Inv) : (s.xferDone die g).Inv := h.withXfers.foldl fun _ _ ht => ht.stepNote.stepOpDone

theorem State.Inv.unevict (h : s.Inv) : (s.unevict die f).Inv := .ite h.setFr.setFr h
theorem State.Inv.touchFrame (h : s.Inv) : (s.touchFrame die f).Inv := by
  unfold State.touchFrame; exact h.unevict.modFr
theorem State.Inv.clearPage {q : BitVec 64} (h : s.Inv) : (s.clearPage die f q).Inv := h.wr.wr
theorem State.Inv.btPut {b : BtRef} (h : s.Inv) : (s.btPut b f).Inv := h.setBt
theorem State.Inv.allocPage {b : BtRef} (h : s.Inv) : (s.allocPage die b g).Inv := h.setFr.clearPage.btPut
theorem State.Inv.cowPage {b : BtRef} (h : s.Inv) : (s.cowPage die b f g).Inv := h.setFr.modFr.btPut

theorem State.Inv.releasePage {b : BtRef} (h : s.Inv) : (s.releasePage die b).Inv := by
  unfold State.releasePage; split
  · exact h
  · exact .ite h (.ite h.btPut h.btPut.modFr.frSettle)

theorem State.Inv.releaseAll (h : s.Inv) : (s.releaseAll seq).Inv := by
  unfold State.releaseAll; split
  · exact h
  · split
    · exact h
    · exact h.foldl fun _ _ ht => ht.foldl fun _ _ hu => hu.releasePage

theorem State.Inv.dropHolds {fs : List Nat} (h : s.Inv) : (s.dropHolds die fs).Inv := h.foldl fun _ _ ht => ht.frSettle

theorem State.Inv.evictStart (h : s.Inv) : (s.evictStart die).Inv := by
  unfold State.evictStart; split
  · split
    exacts [h.setFr.setFr.withFree, h]
  · exact h

theorem State.Inv.evictEnd (h : s.Inv) : (s.evictEnd die f).Inv := .ite (h.pageCopy h.movePage) h
theorem State.Inv.fetchEnd (h : s.Inv) : (s.fetchEnd die g).Inv := .ite (h.pageCopy h.movePage.xferDone) h

theorem State.Inv.reFix (h : s.Inv) : (s.reFix die g).Inv := by
  refine h.foldl fun t o ht => ?_
  split
  exacts [.ite (ht.foldl fun _ _ hu => hu.wr) ht, ht]

theorem State.Inv.cowEnd (h : s.Inv) : (s.cowEnd die g).Inv := .ite h.copyPage.setFr.reFix.frSettle.frSettle h

/-! Page waits, gathers and appends. -/

theorem State.Inv.pgDrop {pc : W32} (h : s.Inv) : (s.pgDrop who pc).Inv := h.same rfl
theorem State.Inv.pgExpire {kind : Nat} (h : s.Inv) : (s.pgExpire e kind lane frame).Inv := .ite h.pgDrop.setS.jump h.pgDrop.raise

theorem State.Inv.pgStand {y : PgNeed} (h : s.Inv) : (s.pgStand e y).Inv := by
  unfold State.pgStand; split
  exacts [.ite h.pgExpire (h.same rfl), h.same rfl]

theorem State.Inv.pgPause (h : s.Inv) : (s.pgPause e).Inv := h.same rfl

theorem State.Inv.fetchAll {fs : List Nat} (h : s.Inv) : (s.fetchAll ci die fs).Inv := by
  refine h.foldl fun t f ht => ?_
  dsimp only; split
  · split
    exacts [ht.startFetch.withXfers, ht.startFetch]
  · exact ht.startFetch

theorem State.Inv.kvBarUpd {bar : Nat} {u : BarUpd} (h : s.Inv) : (s.kvBarUpd ci bar u).Inv := by
  unfold State.kvBarUpd; split
  exacts [.ite h h.barUpd, h]

variable {kg : KvGather}

theorem State.Inv.kgFault (h : s.Inv) : (s.kgFault o cr kg).Inv :=
  (h.landLines.modCrew.foldl fun _ _ ht => ht.kvBarUpd).kvBarUpd.endEng.dropHolds

theorem State.Inv.kgLine (h : s.Inv) : (s.kgLine o cr kg line).Inv := .ite h.modOp h.noteSp.modCrew.landLines.modOp
theorem State.Inv.kgAccount (h : s.Inv) : (s.kgAccount o cr kg line).Inv := .ite h.kvBarUpd.endEng.dropHolds h.kvBarUpd.modOp

theorem State.Inv.kgStep (h : s.Inv) : (s.kgStep o cr kg line).Inv := by
  unfold State.kgStep; split
  · exact h.kgFault
  · split
    exacts [h.modOp, .ite h.kgLine (.ite h h.kgAccount)]

theorem State.Inv.kvDeliver (h : s.Inv) : (s.kvDeliver id line).Inv := by
  unfold State.kvDeliver; split
  · exact h
  · split
    exacts [.ite h (h.asOp fun _ ht => ht.kgStep), h]

theorem State.Inv.kaPage {y : KvArgs} {r : Nat × Nat} {z : Nat × State} (h : s.Inv) (e : kaPage s die y r = some z) : z.2.Inv := by
  unfold Machine.kaPage at e
  split at e
  · cases e; exact h
  · split at e
    · obtain ⟨_, _, rfl⟩ := Option.map_eq_some_iff.1 e; exact h.allocPage
    · split at e
      · obtain ⟨_, _, rfl⟩ := Option.map_eq_some_iff.1 e; exact h.cowPage
      · cases e; exact h

theorem State.Inv.countClip (h : s.Inv) : (s.countClip seq).Inv := by
  unfold State.countClip; split
  exacts [h.wr, h]

theorem State.Inv.kaLand {ka : KvAppend} (h : s.Inv) : (s.kaLand o ka).Inv :=
  (State.Inv.ite h.wrL.modFr.countClip h.wrL.modFr).kvBarUpd.endEng.dropHolds

theorem State.Inv.kvWrite (h : s.Inv) : (s.kvWrite id).Inv := by
  unfold State.kvWrite; split
  · exact h
  · split
    · exact .ite h (.ite h.modOp (h.asOp fun _ ht => ht.kaLand))
    · exact h

theorem State.Inv.sharePage {x y : BtRef} (h : s.Inv) : (s.sharePage die x y).Inv := by
  unfold State.sharePage; split
  exacts [h, .ite h.btPut h.btPut.unevict.modFr]

theorem State.Inv.requantBlock {y : BitVec 64} {fill hd kv : Nat} (h : s.Inv) : (s.requantBlock key y fill hd kv b).1.Inv := by
  unfold State.requantBlock; dsimp only; split
  · exact h
  · exact (h.foldl fun _ _ ht => ht.wr).wr

theorem State.Inv.requantPage (h : s.Inv) : (s.requantPage die f).Inv := by
  unfold State.requantPage; extract_lets e q
  split
  · exact h
  · next s1 blocks r _ =>
    have h1 : s1.Inv := h.unevict.modFr
    have hr : r.1.Inv := State.Inv.foldl_fst (q := (s1, false)) h1 fun _ _ hq => hq.requantBlock
    exact hr.modFr

theorem State.Inv.pgAct {y : PgArgs} (h : s.Inv) : (s.pgAct y).Inv := by
  unfold State.pgAct; dsimp only; split
  · exact h.foldl fun _ _ ht => ht.sharePage
  · exact h.foldl fun _ _ ht => ht.releasePage
  · exact h.foldl fun _ _ ht => ht.unevict.modFr
  · exact h.foldl fun _ _ ht => ht.modFr.frSettle
  · exact h.foldl fun _ _ ht => ht.requantPage
  · exact h

theorem State.Inv.pgFetch {y : PgArgs} (h : s.Inv) : (s.pgFetch ci y).Inv := .ite h h.fetchAll

theorem State.Inv.pageTimeout (h : s.Inv) : (s.pageTimeout who).Inv := by
  unfold State.pageTimeout; split
  · exact h
  · split
    exacts [.ite h.pgExpire.ctxSettle h, h]

/-! Sequences and their schedulers. -/

theorem State.Inv.modSched {u : Sched → Sched} (h : s.Inv) : (s.modSched die u).Inv := h.modDie
theorem State.Inv.setRec (h : s.Inv) : (s.setRec die slot r).Inv := h.wr
theorem State.Inv.schedBegin (h : s.Inv) : (s.schedBegin die seen).Inv := h.workBegin
theorem State.Inv.schedEnd (h : t.Inv) : (t.schedEnd s die).Inv := h.modSched.workEnd

theorem State.Inv.schedWork {f : State → State} (h : s.Inv) (hf : ∀ t, t.Inv → (f t).Inv) : (s.schedWork die f).Inv :=
  (hf _ h.schedBegin).schedEnd

theorem State.Inv.schedAsk (h : s.Inv) : (s.schedAsk e die).Inv := h.schedBegin
theorem State.Inv.schedReturn (h : t.Inv) : (t.schedReturn s e die).Inv := h.schedEnd.joined
theorem State.Inv.modIter {u : GroupIter → GroupIter} (h : s.Inv) : (s.modIter die g u).Inv := h.modSched

theorem State.Inv.reserveInbound {btab qmax npage plen : Nat} (h : s.Inv) : (s.reserveInbound ctx die slot id btab qmax npage plen).Inv := by
  unfold State.reserveInbound; exact (h.foldl fun _ _ ht => ht.setFr.setBt).modSched

theorem State.Inv.enterSeq {y : State × Nat} (h : s.Inv) (e : s.enterSeq ctx die b = .ok y) : y.1.Inv := by
  unfold State.enterSeq at e
  split at e
  · cases e
  · dsimp only at e
    have e1 := ok_of_ite_error (ok_of_ite_error (ok_of_ite_error e))
    split at e1
    · cases e1
    · cases ok_of_ite_error e1
      exact .ite h.setRec.modSched.reserveInbound h.setRec.modSched

theorem State.Inv.freeSeq (h : s.Inv) : (s.freeSeq die slot).Inv :=
  .setRec (.ite h.releaseAll.modSched.ringRecord h.releaseAll.modSched)

theorem State.Inv.retire {rsn : Nat} (h : s.Inv) : (s.retire die slot rsn).1.Inv := by
  unfold State.retire; dsimp only; split
  exacts [h.setRec, h.setRec.freeSeq]

theorem State.Inv.inbResident {lost : Bool} (h : s.Inv) : (s.inbResident die seq lost).Inv := h.foldl fun _ _ ht => ht.modFr.frSettle

theorem State.Inv.inbDone {short : Nat} (h : s.Inv) : (s.inbDone die slot short).Inv := by
  unfold State.inbDone; dsimp only; split
  · exact h.inbResident.withFree.retire
  · split
    · exact h.inbResident.retire
    · split
      exacts [h.inbResident.setRec, h.inbResident.retire]

theorem State.Inv.inbUpd {bit : Option Nat} (h : s.Inv) : (s.inbUpd die slot n bit).Inv := .ite h (.ite h.modSched.inbDone h.modSched)

theorem State.Inv.send {body : WireBody} (h : s.Inv) : (s.send n id body).Inv := .ite (h.same rfl) h
theorem State.Inv.modIris {u : Iris → Iris} (h : s.Inv) : (s.modIris die u).Inv := h.modDie

theorem State.Inv.withdrawInbound (h : s.Inv) : (s.withdrawInbound die slot).Inv :=
  .ite h (h.modSched.foldl fun _ _ ht => ht.modIris.send).inbUpd

theorem State.Inv.cancelSeq (h : s.Inv) : (s.cancelSeq id).Inv := by
  unfold State.cancelSeq; split
  exacts [h, h.setRec.withdrawInbound]

theorem State.Inv.sweep (h : s.Inv) : (s.sweep die g).Inv := h.foldl fun _ _ ht => .ite ht.withFree.retire ht

theorem State.Inv.prefillEnts {y : BitVec 512} {rs : List Nat} {left : Nat} (h : s.Inv) : (State.prefillEnts die y rs s left slot).1.Inv := by
  induction rs generalizing s left slot with
  | nil => exact h
  | cons r rest ih =>
    rw [State.prefillEnts]; dsimp only; split
    · exact ih h
    · split
      exacts [ih h.retire, ih h]

theorem State.Inv.wrParts {ps : List (Nat × Nat × Nat)} (h : s.Inv) (e : s.wrParts ctx ps = some t) : t.Inv := by
  induction ps generalizing s with
  | nil => cases e; exact h
  | cons q r ih =>
    obtain ⟨a, n, v⟩ := q
    rw [State.wrParts] at e
    split at e
    · next e1 => exact ih (h.vwr e1) e
    · cases e

theorem State.Inv.ctlArrive {fault : Bool} (h : s.Inv) : (s.ctlArrive die g fault).Inv := by
  unfold State.ctlArrive; dsimp only; split
  · split
    exacts [.ite h h.barUpd, h]
  · exact h.event

theorem State.Inv.endIter {failed : Bool} (h : s.Inv) : (s.endIter die g failed).Inv := by
  refine State.Inv.foldl (.ite h.modIter.modSched h.modIter) fun t y ht => ?_
  split
  · exact ht
  · exact .ite ht.freeSeq (.ite ht.retire (.ite ht.setRec ht))

theorem State.Inv.formBatch (h : s.Inv) : (s.formBatch die g).Inv := by
  unfold State.formBatch; split
  · exact h
  · extract_lets d s1 rs ds q es s2
    have h2 : s2.Inv := h.sweep.prefillEnts
    split
    · exact h2
    · dsimp only; split
      · exact h2.modIter.ctlArrive.endIter.event
      · next e => exact (h2.modIter.wrParts e).modIter.beginGraph

theorem State.Inv.graphComplete (h : s.Inv) : (s.graphComplete die g).Inv := by
  unfold State.graphComplete; dsimp only; split
  · exact h
  · exact .ite h (.ite h.modIter.ctlArrive h.modIter.ctlArrive.endIter)

theorem State.Inv.iterationEnd (h : s.Inv) : (s.iterationEnd die g).Inv := .ite h.endIter h

theorem State.Inv.feedbackExpiry (h : s.Inv) : (s.feedbackExpiry die g).Inv := by
  unfold State.feedbackExpiry; dsimp only; split
  exacts [.ite h.endIter h, h]

theorem State.Inv.markLate (h : s.Inv) : (s.markLate seq).Inv := by
  unfold State.markLate; split
  exacts [.ite h.setRec h, h]

theorem State.Inv.markOwed (h : s.Inv) : s.markOwed.Inv := h.foldl fun _ _ ht => ht.foldl fun _ _ hu => hu.modIter

/-- Time brings both dies' clocks back towards device time (R132). -/
theorem State.Inv.later (h : s.Inv) : ({ s with dtime := s.dtime + n, skew := (s.skew.1 - n, s.skew.2 - n) } : State).Inv :=
  { h with lead0 := (Nat.sub_le _ _).trans_lt h.lead0, lead1 := (Nat.sub_le _ _).trans_lt h.lead1 }

theorem State.Inv.elapse (h : s.Inv) : (s.elapse n).Inv := h.markOwed.later.foldl fun _ _ ht => ht.markLate

theorem State.Inv.lead (h : s.Inv) : (s.lead die n).Inv := by
  unfold State.lead; split
  · exact h
  · next hn =>
    split
    exacts [{ h with lead0 := max_lt h.lead0 (not_le.1 hn) }, { h with lead1 := max_lt h.lead1 (not_le.1 hn) }]

theorem State.Inv.feedToken {tok : Nat} (h : s.Inv) : (s.feedToken seq tok).1.Inv := by
  unfold State.feedToken; split
  · exact h
  · dsimp only; split
    · exact h
    · split
      · exact h
      · split
        · exact h
        · split
          · exact h
          · next e => exact .ite (h.vwr e).setRec.modIter.ringRecord (h.vwr e).setRec.modIter

theorem State.Inv.seqReturn {rsn : Nat} (h : s.Inv) : (s.seqReturn seq rsn).1.Inv := by
  unfold State.seqReturn; split
  · exact h
  · split
    exacts [h, h.retire]

end Sys2Proof.Machine
end

section
namespace Sys2Proof.Machine
open Sys2Proof.Laws

variable {s t : State} {w x ci wi n off b id die key v g r k len a op ctx addr p f q src dst seq lane slot line m : Nat} {e : Env} {o : Op}
  {who : ThreadRef} {lanes ctl : W64} {seen : List Nat} {cr : Crew} {j : Job} {status aux : Nat}

/-! Host queues and their packets. -/

theorem State.Inv.queueError {y : Queue} {index : Nat} (h : s.Inv) : (s.queueError y status aux index).Inv := h.workWith fun _ ht => ht.complete

theorem State.Inv.doorbell (h : s.Inv) : (s.doorbell q w).Inv := by
  unfold State.doorbell; split
  · exact h
  · exact .ite h (.ite h.modQueue h.modQueue.queueError)

theorem State.Inv.served {y : Queue} (h : s.Inv) : (s.served y p).Inv := h.modQueue.modDie

theorem State.Inv.dispatch {type : Nat} {f : State → Job → Nat → State} (h : s.Inv) (hf : ∀ t j p, t.Inv → (f t j p).Inv) :
    (s.dispatch q type f).Inv := by
  unfold State.dispatch; split
  · exact h
  · split
    · exact h
    · exact .ite (.ite h.served.finishJob (hf _ _ _ h.served)) h

theorem State.Inv.malformed (h : s.Inv) : (s.malformed q).Inv := by
  unfold State.malformed; split
  · exact h
  · split
    · exact h
    · exact .ite (.ite h.served.finishJob.event h.served.finishJob) h

theorem State.Inv.enterError {y : Queue} (h : s.Inv) : (s.enterError y).Inv := h.modQueue.queueError

theorem State.Inv.readError (h : s.Inv) : (s.readError q).Inv := by
  unfold State.readError; split
  exacts [.ite h.enterError h, h]

theorem State.Inv.capError (h : s.Inv) : (s.capError q).Inv := by
  unfold State.capError; split
  · split
    exacts [.ite h.enterError h, h]
  · exact h

theorem State.Inv.launchPacket (h : s.Inv) : (s.launchPacket j p).Inv := by
  unfold State.launchPacket; split
  · next e => exact h.beginLaunch e
  · exact h.finishJob

theorem State.Inv.kidRecord {kid : Kid} (h : s.Inv) : (s.kidRecord j kid status aux).Inv := (h.workWith fun _ ht => ht.record).withFree

theorem State.Inv.launchGrid (h : s.Inv) : (s.launchGrid die).Inv := by
  unfold State.launchGrid; split
  · exact h
  · dsimp only; split
    · exact h
    · split
      · exact h.modDie.foldl fun _ _ ht => ht.kidRecord
      · split
        · next e => exact h.modDie.beginLaunch e
        · exact h.modDie.foldl fun _ _ ht => ht.kidRecord

theorem State.Inv.launchNext (h : s.Inv) : (s.launchNext q).Inv := .ite (h.dispatch fun _ _ _ ht => ht.launchPacket) h.launchGrid

theorem State.Inv.barrierPacket {all : Bool} (h : s.Inv) : (State.barrierPacket all s j p).Inv := h.addJob

theorem State.Inv.signalPacket (h : s.Inv) : (s.signalPacket j p).Inv := by
  unfold State.signalPacket; split
  · next e => exact (h.workBegin.signal e).workEnd.finishJob
  · exact h.finishJob

theorem State.Inv.copyPacket (h : s.Inv) : (s.copyPacket j p).Inv := .ite h.finishJob h.withNextOp.addJob

theorem State.Inv.schedPacket {f : State → State × Nat × Nat × Nat} (h : s.Inv) (hf : ∀ t, t.Inv → (f t).1.Inv) :
    (s.schedPacket die j f).Inv := (hf _ h.schedBegin).schedEnd.finishJob

theorem State.Inv.admitPacket (h : s.Inv) : (s.admitPacket j p).Inv := by
  refine h.schedPacket fun t ht => ?_
  split
  · exact ht
  · split
    · next e => exact ht.enterSeq e
    · exact ht

theorem State.Inv.cancelPacket (h : s.Inv) : (s.cancelPacket j p).Inv := by
  unfold State.cancelPacket
  refine h.schedPacket fun t ht => ?_
  split
  exacts [ht.cancelSeq, ht]

theorem State.Inv.stealRequest (h : s.Inv) : (s.stealRequest die).Inv := by
  unfold State.stealRequest; split
  exacts [.ite h.modDie h, h]

theorem State.Inv.handover (h : s.Inv) : (s.handover q).Inv := by
  unfold State.handover; split
  exacts [.ite h.modQueue.modDie h, h]

theorem State.Inv.giveBack (h : s.Inv) : (s.giveBack q).Inv := by
  unfold State.giveBack; split
  exacts [.ite h.modQueue h, h]

theorem State.Inv.launchChild {pkt : Option Nat} {param : W64} (h : s.Inv) : (s.launchChild e pkt param).1.Inv := by
  unfold State.launchChild; split
  · exact h
  · split
    · exact h
    · split
      exacts [h, h.modDie]

theorem State.Inv.writeRdidx (h : s.Inv) : (s.writeRdidx r v).Inv := h.modRing
theorem State.Inv.clearOvf (h : s.Inv) : (s.clearOvf r).Inv := h.modRing

/-! Management commands and the host's registers. -/

/-- Where a command leaves a state, it keeps the shape. -/
def CmdRes.Keeps : CmdRes → Prop
  | .fail _ => True
  | .done s => s.Inv
  | .goes s _ => s.Inv

theorem CmdRes.Keeps.cmdIf {c : Bool} {y : CmdRes} (h : y.Keeps) : (cmdIf c y).Keeps := by
  unfold Machine.cmdIf; split
  exacts [h, trivial]

theorem CmdRes.Keeps.cmdRead {f : Nat → CmdRes} (h : ∀ v, (f v).Keeps) : (s.cmdRead a n f).Keeps := by
  unfold State.cmdRead; split
  exacts [h _, trivial]

theorem State.Inv.zeroRange (h : s.Inv) : (s.zeroRange key n).Inv := h.stored (zeroRange_wf h.stores) rfl
theorem State.Inv.cmdBegin (h : s.Inv) : (s.cmdBegin die).Inv := h.modDie

theorem State.Inv.command {code : Nat} {f : State → (Nat → Nat) → CmdRes} (h : s.Inv) (hf : ∀ t a, t.Inv → (f t a).Keeps) :
    (s.command die code f).Inv := by
  refine h.byWork fun t ht => ?_
  split
  · next r _ =>
    split
    · exact ht
    · have hr := hf _ (cmArg r) (ht.cmdBegin (die := die))
      dsimp only; split
      · exact ht.cmdBegin.cmdRecord
      · split
        · exact ht.cmdBegin.cmdRecord
        · next e => rw [e] at hr; exact State.Inv.cmdRecord hr
        · next e => rw [e] at hr; exact (State.Inv.modDie hr).preemptCheck
  · exact ht

theorem State.Inv.cancelPackets {y : Queue} (h : s.Inv) : (s.cancelPackets y n).Inv := by
  induction n generalizing s with
  | zero => exact h
  | succ n ih =>
    rw [State.cancelPackets]
    refine ih ?_
    split
    exacts [h.finishJob, h]

theorem State.Inv.destroyJob (h : s.Inv) : (s.destroyJob j).Inv := by
  unfold State.destroyJob; split
  exacts [.ite h.modLaunch.launchCheck h, h.modGraph.graphSettle, h.finishJob, h]

theorem State.Inv.cmdQdestroy {a : Nat → Nat} (h : s.Inv) : (cmdQdestroy die s a).Keeps := by
  unfold Machine.cmdQdestroy; split
  · trivial
  · exact .cmdIf (h.modQueue.cancelPackets.foldl fun _ _ ht => ht.destroyJob)

theorem State.Inv.cmdQcreate {a : Nat → Nat} (h : s.Inv) : (cmdQcreate die s a).Keeps := .cmdIf (h.same rfl)

theorem State.Inv.cmdQreset {a : Nat → Nat} (h : s.Inv) : (cmdQreset die s a).Keeps := by
  unfold Machine.cmdQreset; split
  exacts [trivial, .cmdIf h.modQueue]

theorem State.Inv.cmdCtxset {a : Nat → Nat} (h : s.Inv) : (cmdCtxset s a).Keeps := .cmdIf (h.same rfl)
theorem State.Inv.cmdInval {a : Nat → Nat} (h : s.Inv) : (cmdInval s a).Keeps := .cmdIf h

theorem State.Inv.cmdPeconfig {a : Nat → Nat} (h : s.Inv) : (cmdPeconfig die s a).Keeps :=
  .cmdIf (.cmdRead fun _ => .cmdIf (h.modDie.foldl fun _ _ ht => ht.zeroRange))

theorem State.Inv.cmdSqconfig {a : Nat → Nat} (h : s.Inv) : (cmdSqconfig die s a).Keeps :=
  .cmdIf (.cmdRead fun _ => .cmdIf (State.Inv.ite h h.zeroRange).modSched)

theorem State.Inv.cmdSgassign {a : Nat → Nat} (h : s.Inv) : (cmdSgassign die s a).Keeps := .cmdIf (State.Inv.ite h.modStep (h.same rfl))
theorem State.Inv.cmdRingset {a : Nat → Nat} (h : s.Inv) : (cmdRingset die s a).Keeps := .cmdIf (h.same rfl)
theorem State.Inv.cmdWinset {a : Nat → Nat} (h : s.Inv) : (cmdWinset s a).Keeps := .cmdIf (h.same rfl)
theorem State.Inv.cmdRedset {a : Nat → Nat} (h : s.Inv) : (cmdRedset s a).Keeps := .cmdIf (h.same rfl)
theorem State.Inv.cmdIrisset {a : Nat → Nat} (h : s.Inv) : (cmdIrisset die s a).Keeps := .cmdIf (.cmdRead fun _ => .cmdIf h.modIris)
theorem State.Inv.cmdSaveset {a : Nat → Nat} (h : s.Inv) : (cmdSaveset s a).Keeps := .cmdIf (h.same rfl)
theorem State.Inv.cmdPwrset {a : Nat → Nat} (h : s.Inv) : (cmdPwrset die s a).Keeps := .cmdIf h.modDie
theorem State.Inv.cmdDevset {a : Nat → Nat} (h : s.Inv) : (cmdDevset s a).Keeps := .cmdIf (h.same rfl)
theorem State.Inv.cmdMextend {a : Nat → Nat} (h : s.Inv) : (cmdMextend s a).Keeps := .cmdIf (.cmdRead fun _ => h.sized rfl rfl modAt_length rfl)

theorem State.Inv.cmdAttest {a : Nat → Nat} (h : s.Inv) : (cmdAttest s a).Keeps :=
  .cmdRead fun _ => by dsimp only; split; exacts [h.wrL, trivial]

theorem State.Inv.cmdRepairset {a : Nat → Nat} (h : s.Inv) : (cmdRepairset s a).Keeps := .cmdRead fun _ => h.same rfl

theorem State.Inv.withQueues {qs : List Queue} (h : s.Inv) : ({ s with queues := qs } : State).Inv := h.same rfl
theorem State.Inv.withXlat {xs : List (Nat × Nat × Nat × Nat)} (h : s.Inv) : ({ s with xlat := xs } : State).Inv := h.same rfl

theorem State.Inv.destroyDone (h : s.Inv) : (s.destroyDone q).Inv := by
  unfold State.destroyDone; split
  · exact h
  · split
    · exact h
    · split
      exacts [.ite h.withQueues.endCmd h, h]

theorem State.Inv.invalDone (h : s.Inv) : (s.invalDone die).Inv := by
  unfold State.invalDone; split
  · exact h
  · split
    · exact h
    · split
      exacts [.ite h h.withXlat.endCmd, h]

theorem State.Inv.unknownCmd (h : s.Inv) : (s.unknownCmd die).Inv := by
  unfold State.unknownCmd; split
  exacts [.ite h (h.byWork fun _ ht => ht.cmdBegin.cmdRecord), h]

theorem State.Inv.skipCmd (h : s.Inv) : (s.skipCmd die).Inv := by
  unfold State.skipCmd; split
  exacts [h.cmdBegin.event, h]

theorem State.Inv.writeMrtail (h : s.Inv) : (s.writeMrtail die w).Inv := by
  unfold State.writeMrtail; split
  exacts [h, .ite h.modDie h.event]

theorem State.Inv.writeWindow {i dword : Nat} (h : s.Inv) : (s.writeWindow i dword v).Inv := by
  unfold State.writeWindow; split
  · exact h
  · split
    exacts [h.sized rfl modAt_length rfl rfl, h, h.sized rfl modAt_length rfl rfl]

theorem State.Inv.hostReg (h : s.Inv) : (s.hostReg off v).Inv := by
  unfold State.hostReg; split
  · exact .ite (h.same rfl) h
  · split
    · exact h.writeWindow
    · split
      exacts [h.modDie, h.modDie, h.writeMrtail, h.modDie, h.modDie, h.writeMrtail, h.withEv, h.withEv, h.withEv, h]

theorem State.Inv.barRead {bar : Nat} (h : s.Inv) : (s.barRead bar off n).Inv := h.same rfl

theorem State.Inv.barWrite {bar : Nat} (h : s.Inv) : (s.barWrite bar off v).Inv :=
  .ite (.ite h.hostReg h) (.ite h (.ite (.ite h.doorbell h) (.ite h.writeRdidx (.ite h.clearOvf h))))

/-! Iris. -/

variable {rq : Req}

theorem State.Inv.takeMsg (h : s.Inv) : (s.takeMsg m).Inv := h.same rfl
theorem State.Inv.loop {body : WireBody} (h : s.Inv) : (s.loop id body).Inv := h.same rfl
theorem State.Inv.modReq {u : Req → Req} (h : s.Inv) : (s.modReq die seq u).Inv := h.modIris
theorem State.Inv.endReq (h : s.Inv) : (s.endReq die rq).Inv := h.modIris
theorem State.Inv.confirm {mid lo : Nat} (h : s.Inv) : (s.confirm id mid lo n).Inv := h.same rfl

theorem State.Inv.heard {y : Wire} (h : s.Inv) : (s.heard y).Inv := by
  unfold State.heard; split
  exacts [h.confirm, h.same rfl]

theorem State.Inv.reqBar {u : BarUpd} (h : s.Inv) : (s.reqBar die rq u).Inv := by
  unfold State.reqBar; split
  exacts [h, h.barUpd, .ite (h.same rfl) h, h.inbUpd, h.inbUpd, h]

theorem State.Inv.settleReq {bit : Nat} (h : s.Inv) : (s.settleReq die rq bit).Inv := h.endReq.reqBar
theorem State.Inv.orphan (h : s.Inv) : (s.orphan die rq).Inv := h.workWith fun _ ht => ht.settleReq.send
theorem State.Inv.confirmTo {lo : Nat} (h : s.Inv) : (s.confirmTo rq lo n).Inv := .ite h.confirm h

theorem State.Inv.landReq {bs : List MByte} (h : s.Inv) : (s.landReq die rq off bs).Inv := by
  unfold State.landReq; dsimp only; split
  · exact h.settleReq.send
  · exact .ite h.wrRunsMarked.modReq.confirmTo.endReq.reqBar.send (.ite h.wrRunsMarked.modReq.confirmTo h.wrRunsMarked.modReq.confirmTo.reqBar)

theorem State.Inv.landPackets {bs : List MByte} (h : s.Inv) : (s.landPackets die seq seen off bs).Inv := by
  unfold State.landPackets; split
  · exact h
  · refine h.asWork (fun t ht => ht.foldl fun u x hu => ?_) fun _ _ ht => ht.modReq
    split
    exacts [hu.landReq, hu]

theorem State.Inv.spoken (h : s.Inv) : (s.spoken die seq).Inv := h.modReq

theorem State.Inv.rtsReceive (h : s.Inv) : (s.rtsReceive m).Inv := by
  unfold State.rtsReceive; split
  · dsimp only; split
    · exact h.takeMsg.spoken
    · split
      · exact h.takeMsg.send
      · exact .ite h.takeMsg.send h.takeMsg.modIris.landPackets
  · exact h

theorem State.Inv.tokenLand {y : Token} {lo : Nat} (h : s.Inv) : (s.tokenLand die y lo n).Inv := by
  unfold State.tokenLand; exact h.modIris

theorem State.Inv.dataLand (h : s.Inv) : (s.dataLand m).Inv := by
  unfold State.dataLand; split
  · dsimp only; split
    · exact h.takeMsg
    · split
      exacts [h.takeMsg.spoken, h.takeMsg.tokenLand.landPackets]
  · exact h.takeMsg
  · exact h

theorem State.Inv.withNextMsg (h : s.Inv) : ({ s with nextMsg := n } : State).Inv := h.same rfl

theorem State.Inv.grant (h : s.Inv) : (s.grant die).Inv := by
  unfold State.grant; dsimp only; split
  · exact h
  · split
    · exact h
    · exact .ite h (.ite h.withNextMsg.modReq.modIris.loop h.withNextMsg.modReq.modIris.send)

theorem State.Inv.expireToken {tok : Nat} (h : s.Inv) : (s.expireToken die tok).Inv := by
  unfold State.expireToken; split
  · exact h
  · refine .ite h ?_
    dsimp only; split
    exacts [h.modIris, .ite h.modIris.modReq.orphan h.modIris.modReq]

theorem State.Inv.orphanTimeout (h : s.Inv) : (s.orphanTimeout die seq).Inv := by
  unfold State.orphanTimeout; split
  exacts [.ite h.orphan h, h]

theorem State.Inv.frozenTick (h : s.Inv) : (s.frozenTick die seq).Inv := by
  unfold State.frozenTick; split
  exacts [.ite h.modReq.send h, h]

theorem State.Inv.relinquish (h : s.Inv) : (s.relinquish m).Inv := by
  unfold State.relinquish; split
  · dsimp only; split
    exacts [h.takeMsg, h.takeMsg.modIris.modReq]
  · exact h

theorem State.Inv.resume (h : s.Inv) : (s.resume m).Inv := by
  unfold State.resume; split
  · dsimp only; split
    exacts [h.takeMsg.send, h.takeMsg.modReq]
  · exact h

theorem State.Inv.abort (h : s.Inv) : (s.abort m).Inv := by
  unfold State.abort; split
  · dsimp only; split
    exacts [h.takeMsg, h.takeMsg.settleReq]
  · exact h

theorem State.Inv.readServe (h : s.Inv) : (s.readServe m).Inv := by
  unfold State.readServe; split
  · dsimp only; split
    · exact h.takeMsg.send
    · split
      · exact h.takeMsg.send
      · split
        · exact h.takeMsg.send
        · exact h.takeMsg.workWith fun _ ht => ht.foldl fun _ _ hu => hu.send
  · exact h

theorem State.Inv.unsupported (h : s.Inv) : (s.unsupported m).Inv := by
  unfold State.unsupported; split
  exacts [h.takeMsg.send, h]

end Sys2Proof.Machine
end

section
namespace Sys2Proof.Machine
open Sys2Proof.Laws

variable {s t : State} {w x ci wi n off b id die key v g r k len a op addr p f q src dst seq lane slot line m core : Nat} {e : Env} {o : Op}
  {who : ThreadRef} {lanes ctl : W64} {seen : List Nat} {cr : Crew} {net : NetOp} {rq : Req}

/-! The fabric. -/

theorem State.Inv.netErr {reason fn : Nat} {dev ad : Option Nat} (h : s.Inv) : (s.netErr ci reason fn dev ad).Inv := by
  unfold State.netErr; split
  exacts [h, .ite h h.modCrew.withFree]

theorem State.Inv.setNet (h : s.Inv) : (s.setNet id net).Inv := h.modOp

theorem State.Inv.netBar {u : BarUpd} (h : s.Inv) : (s.netBar o net u).Inv := by
  unfold State.netBar; split
  exacts [.ite h.barUpd h, h]

theorem State.Inv.netHeard {f : State → State} (h : s.Inv) (hf : ∀ t, t.Inv → (f t).Inv) : (s.netHeard o seen f).Inv :=
  h.asOp fun _ ht => hf _ ht.actJoins

theorem State.Inv.netJoined (h : s.Inv) : (s.netJoined o a n).Inv := by
  unfold State.netJoined; split
  · exact h
  · split
    exacts [h.opJoined, h]

theorem State.Inv.putEnd {fail : Option (Nat × Nat)} (h : s.Inv) : (s.putEnd o net fail).Inv := by
  unfold State.putEnd; split
  exacts [h.netBar.endEng, h.netBar.endEng]

theorem State.Inv.putFault {f : EFault} (h : s.Inv) : (s.putFault o net f).Inv := by
  unfold State.putFault; extract_lets s1 s2
  have h2 : s2.Inv := .ite h.netErr.send h.netErr
  exact h2.putEnd

theorem State.Inv.sendRts (h : s.Inv) : (s.sendRts o net).Inv := by
  unfold State.sendRts; dsimp only; split
  exacts [h, h.putFault, (State.Inv.ite h h.netJoined).setNet.send]

theorem State.Inv.registerOwn (h : s.Inv) : (s.registerOwn o net).Inv := .ite h h.modIris.setNet

theorem State.Inv.rtsRetry (h : s.Inv) : (s.rtsRetry id).Inv := by
  unfold State.rtsRetry; split
  · exact h
  · refine .ite h (.ite (.ite (h.asOp fun _ ht => ht.sendRts) h.registerOwn) ?_)
    split
    exacts [.ite (h.takeMsg.asOp fun _ ht => ht.sendRts) h, h]

theorem State.Inv.dropOwn (h : s.Inv) : (s.dropOwn net).Inv := by
  unfold State.dropOwn; split
  exacts [h.endReq, h]

theorem State.Inv.getFail {bit : Nat} (h : s.Inv) : (s.getFail o net bit).Inv := h.dropOwn.landLines.netBar.endEng

theorem State.Inv.redSend (h : s.Inv) : (s.redSend m o net).Inv := by
  unfold State.redSend; split
  exacts [h, h.takeMsg.netErr.dropOwn.netBar.endEng, h.takeMsg.netJoined.setNet.loop]

theorem State.Inv.tokenHeard {tok : Nat} (h : s.Inv) : (s.tokenHeard o net tok).Inv := .ite h h.setNet

theorem State.Inv.putSend {tok lo : Nat} (h : s.Inv) : (s.putSend m o net tok lo len).Inv := by
  unfold State.putSend; split
  exacts [h.tokenHeard, h.takeMsg.putFault, h.takeMsg.netJoined.setNet.foldl fun _ _ ht => ht.send]

theorem State.Inv.tokenReceive (h : s.Inv) : (s.tokenReceive m).Inv := by
  unfold State.tokenReceive; split
  · split
    · exact h.takeMsg
    · refine .ite (.ite h h.takeMsg) (.ite h (h.netHeard fun t ht => ?_))
      split
      exacts [.ite ht.putSend ht.takeMsg, ht.takeMsg.setNet.send, ht.redSend]
  · exact h

theorem State.Inv.getLines {lo : Nat} (h : s.Inv) : (s.getLines o net cr lo len).1.Inv := h.landLines

theorem State.Inv.getLanded (h : s.Inv) : (s.getLanded m o net).Inv := by
  unfold State.getLanded; extract_lets s1
  have h1 : s1.Inv := .ite h.takeMsg h.takeMsg.netBar
  exact .ite h1.dropOwn.endEng h1.setNet

theorem State.Inv.getLand (h : s.Inv) : (s.getLand m o net cr rq).Inv := by
  unfold State.getLand; split
  · exact h
  · refine .ite h.getLanded ?_
    dsimp only; split
    · exact h.takeMsg.netErr.getFail
    · exact .ite h.writePieces.modReq.getLines.setNet h.writePieces.modReq.getLines.getLanded

theorem State.Inv.responseLand (h : s.Inv) : (s.responseLand m).Inv := by
  unfold State.responseLand; split
  · dsimp only; split
    · exact h.takeMsg
    · split
      · refine .ite h.takeMsg ?_
        split
        · exact .ite (h.netHeard fun _ ht => ht.getLand) h
        · split
          · exact h.takeMsg
          · exact h.tokenLand.netHeard fun _ ht => ht.getLand
      · exact h.takeMsg
  · exact h

theorem State.Inv.getHeld {xs : List (Nat × MByte)} (h : s.Inv) : (s.getHeld o net cr xs).1.Inv := by
  refine State.Inv.foldl_fst (q := (s, net)) h fun q y hq => ?_
  split
  exacts [hq.netErr.netBar.getLines, hq.writePieces.netBar.getLines]

theorem State.Inv.getTimeout (h : s.Inv) : (s.getTimeout o net cr).Inv := by
  unfold State.getTimeout; extract_lets due cut left hd q ls lines x n2 s2 s3
  have hq : q.1.Inv := h.netErr.getHeld
  have h2 : s2.Inv := hq.landLines.modIris
  have h3 : s3.Inv := h2.netBar
  exact .ite h (.ite h3.dropOwn.endEng h3.setNet.stepOpDone)

theorem State.Inv.frozenReceive (h : s.Inv) : (s.frozenReceive m).Inv := by
  unfold State.frozenReceive; split
  · split
    exacts [h.takeMsg.setNet, h.takeMsg]
  · exact h

theorem State.Inv.finishedMsg (h : s.Inv) : (s.finishedMsg m).Inv := by
  unfold State.finishedMsg; split
  · split
    exacts [.ite (h.takeMsg.netHeard fun _ ht => ht.putEnd) h.takeMsg, h.takeMsg]
  · exact h

theorem State.Inv.orphanedMsg (h : s.Inv) : (s.orphanedMsg m).Inv := by
  unfold State.orphanedMsg; split
  · split
    exacts [.ite (h.takeMsg.netErr.netHeard fun _ ht => ht.putEnd) h.takeMsg, h.takeMsg]
  · exact h

theorem State.Inv.refusalMsg (h : s.Inv) : (s.refusalMsg m).Inv := by
  unfold State.refusalMsg; split
  · split
    · refine .ite ?_ h.takeMsg
      dsimp only; split
      exacts [h.takeMsg.netErr.netHeard fun _ ht => ht.putEnd, h.takeMsg.netErr.netHeard fun _ ht => ht.getFail, h.takeMsg.netErr]
    · exact h.takeMsg
  · exact h

theorem State.Inv.raLane {y : RaRes} (h : s.Inv) : (s.raLane o dst n y).Inv := h.landLane

theorem State.Inv.raEnd {rw : W64} {rs : List RaRes} {flag : Option Nat} (h : s.Inv) : (s.raEnd o dst n rw rs flag).Inv := by
  unfold State.raEnd; extract_lets here s1 s2
  have h1 : s1.Inv := h.foldl fun _ _ ht => ht.raLane
  have h2 : s2.Inv := by unfold s2; split; exacts [h1.netErr, h1]
  exact h2.modOp.endEng

theorem State.Inv.raReply (h : s.Inv) : (s.raReply m).Inv := by
  unfold State.raReply; split
  · dsimp only; split
    exacts [.ite h.takeMsg.raEnd h.takeMsg, h.takeMsg]
  · exact h

theorem State.Inv.transferTimeout (h : s.Inv) : (s.transferTimeout id).Inv := by
  unfold State.transferTimeout; split
  · exact h
  · split
    · split
      · split
        exacts [.ite h (h.asOp fun _ ht => ht.getTimeout), h]
      · refine .ite h ?_
        dsimp only; split
        exacts [.ite (h.netErr.asOp fun _ ht => ht.putEnd) h, h]
    · exact .ite h h.raEnd
    · exact h

theorem State.Inv.raExec {y : Win} {aop : Nat} {rel : Bool} {l : RaLane} (h : s.Inv) : (s.raExec y aop n rel l).1.Inv := by
  unfold State.raExec; split
  · exact h
  · split
    · exact h
    · split
      exacts [h, h.withHeads.wr.relaxed]

theorem State.Inv.raExecs {y : Win} {aop : Nat} {rel : Bool} {ls : List RaLane} (h : s.Inv) : (s.raExecs y aop n rel ls).1.Inv := by
  induction ls generalizing s with
  | nil => exact h
  | cons l r ih => exact ih h.raExec

theorem State.Inv.ratomExecute (h : s.Inv) : (s.ratomExecute m).Inv := by
  unfold State.ratomExecute; split
  · dsimp only; split
    exacts [h.takeMsg.send, h.takeMsg.workWith fun _ ht => ht.raExecs.send]
  · exact h

theorem State.Inv.addNet (h : s.Inv) : (s.addNet e net).Inv := h.withNextMsg.addOp

/-! In-network reduction. -/

theorem State.Inv.closeSlot {y : SwSlot} (h : s.Inv) : (s.closeSlot y).Inv := by
  unfold State.closeSlot; extract_lets s1
  have h1 : s1.Inv := h.same rfl
  exact .ite (h1.same rfl) (h1.foldl fun _ _ ht => .ite ht ht.send)

theorem State.Inv.redAnswer {mid status : Nat} (h : s.Inv) : (s.redAnswer id mid status).Inv := h.send
theorem State.Inv.slotsDue (h : s.Inv) : s.slotsDue.Inv := h.foldl fun _ _ ht => ht.closeSlot

theorem State.Inv.withSlots {ss : List SwSlot} (h : s.Inv) : ({ s with slots := ss } : State).Inv := h.same rfl

theorem State.Inv.redArrive (h : s.Inv) : (s.redArrive m).Inv := by
  unfold State.redArrive; split
  · extract_lets s0 s1
    have h1 : s1.Inv := h.takeMsg.slotsDue.same rfl
    refine .ite h1.redAnswer ?_
    dsimp only; split
    · exact .ite h1.redAnswer (.ite h1.withSlots.closeSlot h1.withSlots)
    · exact .ite h1.redAnswer (.ite (State.Inv.closeSlot (h1.same rfl)) (h1.same rfl))
  · exact h

theorem State.Inv.slotTimeout (h : s.Inv) : (s.slotTimeout id).Inv := by
  unfold State.slotTimeout; split
  exacts [.ite h.closeSlot h, h]

theorem State.Inv.redDone {status : Nat} (h : s.Inv) : (s.redDone o net status).Inv := by
  unfold State.redDone; dsimp only; split
  exacts [h.dropOwn.endEng, h.dropOwn.endEng, h.dropOwn.netBar.netErr.endEng, h.dropOwn.netBar.netErr.endEng, h.dropOwn.netBar.netErr.endEng]

theorem State.Inv.redLand {status : Nat} {bs : List Byte} (h : s.Inv) : (s.redLand o net status bs b).Inv := by
  unfold State.redLand; split
  · exact h
  · exact .ite h.noteSp.modCrew.netBar.redDone h.noteSp.modCrew.netBar.setNet

theorem State.Inv.resultLand (h : s.Inv) : (s.resultLand id b).Inv := by
  unfold State.resultLand; split
  · exact h
  · split
    · exact h
    · refine .ite h ?_
      split
      · exact h.asOp fun _ ht => ht.redLand
      · split
        exacts [.ite h (h.takeMsg.setNet.asOp fun _ ht => ht.redLand), h]

theorem State.Inv.unreachable (h : s.Inv) : (s.unreachable id).Inv := by
  unfold State.unreachable; split
  exacts [h, .ite h.setNet h]

/-! Saving, restoring and migrating crews; power and errors. -/

theorem State.Inv.mapReqs {u : Req → Req} (h : s.Inv) : (s.mapReqs ci u).Inv := by
  unfold State.mapReqs; exact h.modIris.modIris
theorem State.Inv.reqsHome (h : s.Inv) : (s.reqsHome ci die).Inv := by
  unfold State.reqsHome; exact h.modIris.modIris
theorem State.Inv.asksAnew (h : s.Inv) : (s.asksAnew ci).Inv := h.same rfl

theorem State.Inv.saveCrew {why : Nat} {ar : SaveArea} {img : List Byte} (h : s.Inv) : (s.saveCrew ci why cr ar img).Inv := by
  unfold State.saveCrew; extract_lets s1 s2 out mine s3
  have h2 : s2.Inv := h.wrL.mapReqs.foldl fun _ _ ht => ht.send
  have h3 : s3.Inv := h2.same rfl
  exact h3.modCrew

theorem State.Inv.countSaved (h : s.Inv) : (s.countSaved die).Inv := h.modDie

theorem State.Inv.crewSave {why : Nat} (h : s.Inv) : (s.crewSave ci why).Inv := by
  unfold State.crewSave; split
  · exact h
  · refine .ite h ?_
    dsimp only; split
    exacts [.ite h.endCmd h, .ite h.saveCrew.countSaved.preemptCheck h.saveCrew.preemptCheck, .ite h.saveCrew h, h]

theorem State.Inv.withHeldUpds {us : List (Nat × Nat × BarUpd × List Nat)} (h : s.Inv) : ({ s with heldUpds := us } : State).Inv := h.same rfl

theorem State.Inv.restoreCrew (h : s.Inv) : (s.restoreCrew ci core cr).Inv := by
  unfold State.restoreCrew; extract_lets s1 held s2 s3 s4 s5
  have h2 : s2.Inv := h.mapReqs.reqsHome.asksAnew.modCrew.withHeldUpds.foldl fun _ _ ht => ht.barUpdBy
  have h3 : s3.Inv := h2.foldl fun _ _ ht => ht.wakeBar
  have h4 : s4.Inv := h3.foldl fun _ _ ht => ht.setNet.send
  have h5 : s5.Inv := h4.same rfl
  exact .ite h5 (h5.same rfl)

theorem State.Inv.crewRestore (h : s.Inv) : (s.crewRestore ci core).Inv := by
  unfold State.crewRestore; split
  exacts [h, .ite h.restoreCrew.preemptCheck h]

theorem State.Inv.migrate (h : s.Inv) : (s.migrate die src dst).Inv := by
  unfold State.migrate; split
  · split
    · exact h
    · dsimp only; split
      exacts [h, .ite h.saveCrew.restoreCrew.modDie.event h]
  · exact h

theorem State.Inv.budgetWindow (h : s.Inv) : (s.budgetWindow die).Inv := h.modDie
theorem State.Inv.setAllowance {vec mat : Nat} (h : s.Inv) : (s.setAllowance die core vec mat).Inv := .ite (h.same rfl) h

theorem State.Inv.grantPower {vec mat : Nat} (h : s.Inv) : (s.grantPower die core vec mat).Inv := by
  unfold State.grantPower; split
  exacts [h, .ite h (.ite h.setAllowance.modDie.event h.setAllowance.modDie)]

theorem State.Inv.withClamp {cl : BitVec 2} (h : s.Inv) : ({ s with clamp := cl } : State).Inv := h.same rfl

theorem State.Inv.clampDie (h : s.Inv) : (s.clampDie die).Inv := by
  unfold State.clampDie
  refine .ite h ?_
  extract_lets s1
  have h1 : s1.Inv := h.withClamp.foldl fun _ _ ht => ht.setAllowance
  exact .ite h1 h1.event

theorem State.Inv.unclamp (h : s.Inv) : (s.unclamp die).Inv := .ite h.withClamp.event h
theorem State.Inv.loseFrame (h : s.Inv) : (s.loseFrame die f).Inv := .ite h h.modFr.event

theorem State.Inv.killWarp (h : s.Inv) : (s.killWarp ci wi).Inv := by
  unfold State.killWarp; split
  exacts [h, h.modCrew.modWarp.withFree.endThreads]

theorem State.Inv.memError {gr : Granule} (h : s.Inv) : (s.memError gr key).Inv := (h.foldl fun _ _ ht => ht.loseFrame).event

/-- A mark of the poison of a block, or of a word, keeps the marks canonical (R412). -/
theorem State.Inv.markBlock (h : s.Inv) : ({ s with memPoison := s.memPoison.set b 1 } : State).Inv := { h with poison := set_wf h.poison }
theorem State.Inv.markWord (h : s.Inv) : ({ s with wordPoison := s.wordPoison.set w 1 } : State).Inv := { h with words := set_wf h.words }

theorem State.Inv.uncorrectable {gr : Granule} (h : s.Inv) : (s.uncorrectable gr).Inv := by
  unfold State.uncorrectable; dsimp only; split
  · exact .ite h.markBlock.memError h
  · exact .ite h.markWord.memError h
  · split
    exacts [.ite h.modCtx.event h, h]
  · exact .ite h.killWarp.event h
  · split
    exacts [.ite h.modCrew.event h, h]

theorem State.Inv.withErrs {es : List ErrCount} (h : s.Inv) : ({ s with errs := es } : State).Inv := h.same rfl
theorem State.Inv.correctable {gr : Granule} (h : s.Inv) : (s.correctable gr).Inv := .ite h.withErrs.event h.withErrs

/-! Resets, the boot and the watchdog. -/

/-- The package right after reset has the shape (R10, R132, R418, R424). -/
theorem State.inv_reset : State.reset.Inv :=
  { mem := rfl, poison := rfl, words := rfl, windows := List.length_replicate, meas := List.length_replicate, dies := rfl
    lead0 := by decide, lead1 := by decide }

theorem State.Inv.powerLoss (h : s.Inv) : s.powerLoss.Inv := State.inv_reset.stored (powerLoss_wf h.mem) rfl
theorem State.Inv.coldReset {bi : BootInput} (h : s.Inv) : (s.coldReset bi).Inv := h.powerLoss.same rfl

@[simp] theorem Boot.extended_meas_length {bt : Boot} {i : Nat} {bs : List Byte} : (bt.extended i bs).meas.length = bt.meas.length := modAt_length

theorem State.Inv.stageWork {bi : BootInput} (h : s.Inv) : (s.stageWork bi n).Inv := by
  unfold State.stageWork; split
  exacts [h.sized rfl rfl modAt_length rfl, h.sized rfl rfl modAt_length rfl, h.sized rfl rfl (modAt_length.trans modAt_length) rfl, h]

theorem State.Inv.stagePassed {bi : BootInput} (h : s.Inv) : (s.stagePassed bi n).Inv := by
  unfold State.stagePassed; split
  exacts [h.same rfl, h.sized rfl rfl rfl (List.length_map _), h]

theorem State.Inv.bootStep (h : s.Inv) : s.bootStep.Inv := by
  unfold State.bootStep; split
  · exact h
  · exact .ite (h.stageWork.same rfl) (h.stageWork.stagePassed.same rfl)

theorem State.Inv.heartbeat (h : s.Inv) : (s.heartbeat die core).Inv := h.modDie
theorem State.Inv.setBootState (h : s.Inv) : (s.setBootState v).Inv := h.same rfl
theorem State.Inv.cutSeq (h : s.Inv) : (s.cutSeq die slot).Inv := h.setRec.releaseAll.modSched.setRec

theorem State.Inv.cutReqs (h : s.Inv) : (s.cutReqs die).Inv :=
  h.foldl fun _ _ ht => .ite ht.endReq (ht.endReq.workWith fun _ hu => hu.send)

theorem State.Inv.functionReset (h : s.Inv) : s.functionReset.Inv := by
  unfold State.functionReset; extract_lets s1 s2
  have h1 : s1.Inv := h.foldl fun _ _ ht => ht.cutReqs
  have h2 : s2.Inv := h1.sized rfl (List.length_replicate.trans h1.windows.symm) rfl (List.length_map _)
  exact .ite h2.setBootState h2

theorem State.Inv.functionResetDone (h : s.Inv) : s.functionResetDone.Inv := by
  unfold State.functionResetDone; split
  · exact h
  · split
    · exact h.cutSeq
    · exact .ite h (State.Inv.setBootState (h.sized rfl rfl rfl (List.length_map _)))

theorem State.Inv.watchdog (h : s.Inv) : (s.watchdog die).Inv := .ite (h.sized rfl rfl rfl modAt_length) h

/-! Control flow and cohorts. -/

theorem State.Inv.branch {y : Leave} {tk : W64} {tgt : W32} (h : s.Inv) : (s.branch e y tk tgt).Inv := by
  unfold State.branch; split
  exacts [h.modWarp, h.modCtx]

theorem State.Inv.pushLoop {l : LoopEnt} (h : s.Inv) : (s.pushLoop e l).Inv := by
  unfold State.pushLoop; split
  exacts [h.modWarp, h.modCtx]

theorem State.Inv.joinCohort {key : W32} {add : W64} (h : s.Inv) : (s.joinCohort e key add slot).Inv := by
  unfold State.joinCohort; extract_lets s0 k upd s1 s2
  have h0 : s0.Inv := by unfold s0; split; exacts [h, h.same rfl]
  have h1 : s1.Inv := h0.same rfl
  split
  · split
    exacts [h1.modWarp.barUpd, h1.modWarp]
  · exact h1.modWarp

end Sys2Proof.Machine
end

section
/-! The shape through the issue of an instruction: what keeps it of the results that a body answers, and the bodies that instructions share. -/
namespace Sys2Proof.Machine
open Sys2Proof.Laws

section Shape
variable {s t : State}

/-- A step's outcome keeps the shape. -/
def NextInv (r : Host.Outcome State Fault Refusal) : Prop := ∀ t, r = .next t → t.Inv

/-- The next state of a body keeps the shape where it has one. -/
def ExeInv (x : Exe State) : Prop := ∀ t, x = .ok t → t.Inv

theorem NextInv.next (h : t.Inv) : NextInv (.next t) := fun _ e => by cases e; exact h
theorem NextInv.ite {c : Prop} [Decidable c] {x y : Host.Outcome State Fault Refusal} (hx : NextInv x) (hy : NextInv y) :
    NextInv (if c then x else y) := by split; exacts [hx, hy]

theorem ExeInv.ok (h : t.Inv) : ExeInv (.ok t) := fun _ e => by cases e; exact h
theorem ExeInv.pure (h : t.Inv) : ExeInv (pure t) := .ok h
theorem ExeInv.error {st : Stop} : ExeInv (.error st) := fun _ e => by cases e

theorem ExeInv.ite {c : Prop} [Decidable c] {x y : Exe State} (hx : ExeInv x) (hy : ExeInv y) : ExeInv (if c then x else y) := by
  split; exacts [hx, hy]

/-- A check or a read before the rest of a body. -/
theorem ExeInv.bind {α : Type} {x : Exe α} {f : α → Exe State} (hf : ∀ a, ExeInv (f a)) : ExeInv (x >>= f) := by
  cases x with
  | ok a => exact hf a
  | error st => exact .error

/-- A body after one that keeps the shape. -/
theorem ExeInv.andThen {x : Exe State} {f : State → Exe State} (hx : ExeInv x) (hf : ∀ t, t.Inv → ExeInv (f t)) : ExeInv (x >>= f) := by
  cases x with
  | ok t => exact hf t (hx t rfl)
  | error st => exact .error

theorem State.Inv.settleRes {x : Exe State} (h : s.Inv) (hx : ExeInv x) : (s.settleRes e x).Inv := by
  cases x with
  | ok t => exact hx t rfl
  | error st => exact h.stopped

theorem State.Inv.runCtlH {i : Hdr} {body : Env → Exe State} (h : s.Inv) (hb : ∀ e, ExeInv (body e)) : NextInv (runCtlH i s body) := by
  unfold Machine.runCtlH; split
  · exact .next h
  · split
    · exact .next h
    · exact .ite (.next h.raise) (.next (h.settleRes (hb _)).ctxSettle)

theorem State.Inv.runH {i : Hdr} {body : Env → Exe State} (h : s.Inv) (hb : ∀ e, ExeInv (body e)) : NextInv (runH i s body) :=
  h.runCtlH fun e => .andThen (hb e) fun _ ht => .pure ht.jump

theorem State.Inv.runCtl {i : Instr} {body : Env → Exe State} (h : s.Inv) (hb : ∀ e, ExeInv (body e)) : NextInv (runCtl i s body) :=
  h.runCtlH hb

theorem State.Inv.run {i : Instr} {body : Env → Exe State} (h : s.Inv) (hb : ∀ e, ExeInv (body e)) : NextInv (run i s body) :=
  h.runH hb

theorem State.Inv.wrS {v : W64} (h : s.Inv) : ExeInv (wrS s e r v) := .ite .error (.ok h.setS)

/-! Vector instructions. -/

theorem State.Inv.runVec {i : Instr} {dst : Nat} {pre : Env → Exe Unit} {srcs : VEnv → List Src} {f : VEnv → Nat → Lane} (h : s.Inv) :
    NextInv (runVec i s dst pre srcs f) :=
  h.run fun _ => .bind fun _ => .bind fun _ => .bind fun _ => .bind fun _ => .bind fun _ => .pure h.modWarp

theorem State.Inv.runProducer {i : Instr} {dst : Nat} {srcs : VEnv → List Src} {f : VEnv → Nat → Lane} (h : s.Inv) :
    NextInv (runProducer i s dst srcs f) :=
  h.run fun _ => .bind fun _ => .bind fun _ => .bind fun _ => .bind fun _ => .ite (.pure h.modWarp) (.pure h.modWarp.addOp)

theorem State.Inv.runMask {i : Instr} {md : BitVec 3} {srcs : VEnv → List Src} {p : VEnv → Nat → Bool} (h : s.Inv) :
    NextInv (runMask i s md srcs p) :=
  h.run fun _ => .bind fun _ => .bind fun _ => .bind fun _ => .bind fun _ => .pure h.modWarp

theorem State.Inv.runToScalar {i : Instr} {sd : BitVec 6} {srcs : VEnv → List Src} {f : VEnv → Exe W64} (h : s.Inv) :
    NextInv (runToScalar i s sd srcs f) :=
  h.run fun _ => .bind fun _ => .bind fun _ => .bind fun _ => .bind fun _ => h.wrS

theorem State.Inv.movReg {i : Instr} {vd vs2 : BitVec 7} {e2 : Bool} (h : s.Inv) : NextInv (movReg i s vd vs2 e2) :=
  .ite (h.run fun _ => .bind fun _ => .bind fun _ => .bind fun _ => .bind fun _ => .pure h.modWarp) h.runVec

theorem State.Inv.execSel {o : OpV3} (h : s.Inv) : NextInv (execSel o s) :=
  h.run fun _ => .bind fun _ => .bind fun _ => .bind fun _ => .bind fun _ => .bind fun _ => .bind fun _ => .pure h.modWarp

theorem State.Inv.shuffle {i : Instr} {k : Shfl} {vd va : BitVec 7} {ea : Bool} {p : Option Pfx} {vb : List (BitVec 7 × Bool)}
    {n : VEnv → Nat → Nat} (h : s.Inv) : NextInv (shuffle i s k vd va ea p vb n) := by
  refine h.run fun e => ?_
  iterate 10 refine .bind fun _ => ?_
  exact .pure h.modWarp

theorem State.Inv.bcastFrom {v : VEnv} {vd va : BitVec 7} {ea : Bool} {j : Nat} {late : Exe Unit} (h : s.Inv) :
    ExeInv (bcastFrom s e v vd va ea j late) :=
  .bind fun _ => .bind fun _ => .bind fun _ => .pure h.modWarp

theorem State.Inv.execBcast {o : OpVSk} (h : s.Inv) : NextInv (execBcast o s) :=
  h.run fun _ => .bind fun _ => .bind fun _ => .bind fun _ => h.bcastFrom

theorem State.Inv.execBcastFirst {o : OpV2} (h : s.Inv) : NextInv (execBcastFirst o s) :=
  h.run fun _ => .bind fun _ => .bind fun _ => h.bcastFrom

theorem State.Inv.scanOp {i : Instr} {vd va : BitVec 7} {ea ex : Bool} {op : Nat} {hd : Env → VEnv → Exe (Nat → Bool)} (h : s.Inv) :
    NextInv (scanOp i s vd va ea op ex hd) :=
  h.run fun _ => .bind fun _ => .bind fun _ => .bind fun _ => .bind fun _ => .bind fun _ => .pure h.modWarp

theorem State.Inv.maskLogic {i : Instr} {md : BitVec 3} {srcs : List (BitVec 3)} {f : List W64 → W64} (h : s.Inv) :
    NextInv (maskLogic i s md srcs f) :=
  h.run fun _ => .bind fun _ => .bind fun _ => .bind fun _ => .pure h.modWarp

theorem State.Inv.execMpopc {o : OpMS} (h : s.Inv) : NextInv (execMpopc o s) :=
  h.run fun _ => .bind fun _ => .bind fun _ => h.wrS

theorem State.Inv.vtosFrom {v : VEnv} {sd : BitVec 6} {va : BitVec 7} {ea : Bool} {j : Nat} {late : Exe Unit} (h : s.Inv) :
    ExeInv (vtosFrom s e v sd va ea j late) := .bind fun _ => .bind fun _ => h.wrS

theorem State.Inv.execVtos {o : OpVSv} (h : s.Inv) : NextInv (execVtos o s) :=
  h.run fun _ => .bind fun _ => .bind fun _ => .bind fun _ => h.vtosFrom

theorem State.Inv.execVtosFirst {o : OpVSf} (h : s.Inv) : NextInv (execVtosFirst o s) :=
  h.run fun _ => .bind fun _ => .bind fun _ => h.vtosFrom

theorem State.Inv.stovOf {i : Instr} {o : OpVStov} {f : W64 → W32} (h : s.Inv) : NextInv (stovOf i s o f) :=
  h.run fun _ => .bind fun _ => .bind fun _ => .bind fun _ => .bind fun _ => .bind fun _ => .pure h.modWarp

theorem State.Inv.setFull {i : Instr} {o : OpV1} {full : Bool} (h : s.Inv) : NextInv (setFull i s o full) :=
  h.run fun _ => .bind fun _ => .bind fun _ => .bind fun _ => .bind fun _ => .pure h.modWarp

theorem State.Inv.execTstf {o : OpVTst} (h : s.Inv) : NextInv (execTstf o s) :=
  h.run fun _ => .bind fun _ => .bind fun _ => .bind fun _ => .bind fun _ => .pure h.modWarp

theorem State.Inv.execTopk {o : OpV3} (h : s.Inv) : NextInv (execTopk o s) :=
  h.run fun _ => .bind fun _ => .bind fun _ => .bind fun _ => .pure h.modWarp

theorem State.Inv.execSample {o : OpV3} (h : s.Inv) : NextInv (execSample o s) :=
  h.run fun _ => .bind fun _ => .bind fun _ => .bind fun _ => .bind fun _ => .pure h.modWarp

theorem State.Inv.execStopchk {o : OpV3} (h : s.Inv) : NextInv (execStopchk o s) :=
  h.run fun _ => .bind fun _ => .bind fun _ => .bind fun _ => .bind fun _ => .pure h.modWarp

theorem State.Inv.execSmxupd {o : OpV2} (h : s.Inv) : NextInv (execSmxupd o s) :=
  h.run fun _ => .bind fun _ => .bind fun _ => .bind fun _ => .bind fun _ => .pure h.modWarp

theorem State.Inv.execSmxupdSum {o : OpV2} (h : s.Inv) : NextInv (execSmxupdSum o s) :=
  h.run fun _ => .bind fun _ => .bind fun _ => .bind fun _ => .bind fun _ => .pure h.modWarp

/-! Scalar instructions. -/

theorem State.Inv.salu {i : Instr} {o : OpS3} {f : W64 → W64 → W64} {g : W32 → W32 → W32} (h : s.Inv) : NextInv (salu i s o f g) :=
  h.run fun _ => .bind fun _ => .bind fun _ => h.wrS

theorem State.Inv.salu1 {i : Instr} {o : OpS2} {f : W64 → W64} {g : W32 → W32} (h : s.Inv) : NextInv (salu1 i s o f g) :=
  h.run fun _ => .bind fun _ => h.wrS

theorem State.Inv.saluI {i : Instr} {o : OpSI} {f : W64 → W64 → W64} (h : s.Inv) : NextInv (saluI i s o f) :=
  h.run fun _ => .bind fun _ => h.wrS

theorem State.Inv.csrRead {i : Instr} {sd : BitVec 6} {n : Nat} (h : s.Inv) : NextInv (csrRead i s sd n) :=
  h.run fun e => by
    split
    · exact .error
    · exact .bind fun _ => h.wrS

theorem State.Inv.csrWrite {i : Hdr} {ss : BitVec 6} {n : Nat} (h : s.Inv) : NextInv (csrWrite i s ss n) :=
  h.runH fun _ => .bind fun _ => .bind fun _ => .bind fun _ => .bind fun _ => .bind fun _ => .pure h.csrStore

/-! Control flow. -/

theorem State.Inv.branchBody {tk : W64} {off : BitVec 16} {brk : Bool} (h : s.Inv) : ExeInv (branchBody s e tk off brk) := by
  unfold Machine.branchBody; split
  exacts [.error, .ok h.branch]

theorem State.Inv.execBr {o : OpBM} (h : s.Inv) : NextInv (execBr o s) :=
  h.runCtl fun _ => .bind fun _ => .bind fun _ => h.branchBody

theorem State.Inv.execBrs {o : OpBS} (h : s.Inv) : NextInv (execBrs o s) :=
  h.runCtl fun _ => .bind fun _ => h.branchBody

theorem State.Inv.execCall {o : OpBC} (h : s.Inv) : NextInv (execCall o s) :=
  h.runCtl fun _ => .andThen h.wrS fun _ ht => .pure ht.jump

theorem State.Inv.execLoop {o : OpBC} (h : s.Inv) : NextInv (execLoop o s) :=
  h.runCtl fun _ => .bind fun _ => .ite h.branchBody (.ite .error (.pure h.pushLoop))

theorem State.Inv.execJmpx {o : OpX1} (h : s.Inv) : NextInv (execJmpx o s) :=
  h.runCtl fun e => .bind fun w => .bind fun _ => .bind fun _ => by
    extract_lets ls verdict; split
    · exact .error
    · split
      · exact .error
      · exact .pure h.modWarp

theorem State.Inv.execRet {o : OpX1} (h : s.Inv) : NextInv (execRet o s) :=
  h.runCtl fun _ => .bind fun _ => .bind fun _ => .pure h.jump

theorem State.Inv.execExit (h : s.Inv) : NextInv (execExit s) := h.runCtl fun _ => .ok h.endThreads
theorem State.Inv.execTrap {o : OpX3} (h : s.Inv) : NextInv (execTrap o s) := h.runCtl fun _ => .error

theorem State.Inv.tretTo {i : Instr} {tgt : Env → Warp → Exe W32} (h : s.Inv) : NextInv (tretTo i s tgt) :=
  h.runCtl fun _ => .bind fun _ => .bind fun _ => .bind fun _ => .pure h.modWarp

theorem State.Inv.execJoin {o : OpX2} (h : s.Inv) : NextInv (execJoin o s) :=
  h.run fun e => .bind fun w => .bind fun x => .bind fun _ =>
    .ite (.pure h.setS) (.ite (.pure h.setS) (.ite (.pure h.setS) (by split; exacts [.pure h.setS, .pure h.joinCohort.setS])))

theorem State.Inv.execLeave {o : OpX2} (h : s.Inv) : NextInv (execLeave o s) :=
  h.run fun e => .bind fun w => .bind fun x => .bind fun _ => .ite (.pure h.setS) (by
    split
    · exact .pure h.setS
    · exact .pure (State.Inv.modWarp (.ite h h.leaveCohort)).setS)

end Shape
end Sys2Proof.Machine
end

section
/-! The shape through the instructions of memory, barriers, the engines, paging, the scheduler and the fabric. -/
namespace Sys2Proof.Machine
open Sys2Proof.Laws

section Shape
variable {s t : State}

/-! Memory. -/

theorem State.Inv.spld {i : Instr} {o : OpMSwz} (h : s.Inv) : NextInv (spld i s o n) :=
  h.run fun _ => .bind fun _ => .bind fun _ => .bind fun _ => .bind fun _ => .bind fun _ =>
    .pure (State.Inv.foldl h fun _ _ ht => ht.spRead).startLoad

theorem State.Inv.spst {i : Instr} {o : OpMSwz} (h : s.Inv) : NextInv (spst i s o n) :=
  h.run fun _ => .bind fun _ => .bind fun _ => .bind fun _ => .bind fun _ => .bind fun _ => .pure (h.foldl fun _ _ ht => ht.spPut).asOne

theorem State.Inv.spstN {i : Instr} {o : OpMSwz} {w : Nat} (h : s.Inv) : NextInv (spstN i s o w) :=
  h.run fun _ => .bind fun _ => .bind fun _ => .bind fun _ => .bind fun _ => .bind fun _ => .pure (h.foldl fun _ _ ht => ht.spPutBits).asOne

theorem State.Inv.execStimg {o : OpMImg} (h : s.Inv) : NextInv (execStimg o s) := by
  refine h.run fun e => ?_
  iterate 8 refine .bind fun _ => ?_
  exact .pure (h.foldl fun _ _ ht => ht.spNote).asOne.modCrew

theorem State.Inv.execLdimg {o : OpMImg} (h : s.Inv) : NextInv (execLdimg o s) := by
  refine h.run fun e => ?_
  iterate 6 refine .bind fun _ => ?_
  exact .pure (State.Inv.foldl h fun _ _ ht => ht.spRead).startLoad

theorem State.Inv.lineOp {i : Instr} {o : OpX2} {f : Crew → Nat → Crew} (h : s.Inv) : NextInv (lineOp i s o f) :=
  h.run fun _ => .bind fun _ => .bind fun _ => .pure h.modCrew

theorem State.Inv.execLookup {o : OpX2} (h : s.Inv) : NextInv (execLookup o s) :=
  h.run fun _ => .bind fun _ => .bind fun _ => .bind fun _ => .bind fun _ => .bind fun _ => .pure h.modCrew

theorem State.Inv.execTagset {o : OpX2} (h : s.Inv) : NextInv (execTagset o s) :=
  h.run fun _ => .bind fun _ => .bind fun _ => .bind fun _ => .bind fun _ => .pure h.modCrew

theorem State.Inv.execTagclr {o : OpX1} (h : s.Inv) : NextInv (execTagclr o s) :=
  h.run fun _ => .bind fun _ => .bind fun _ => .bind fun _ => .pure h.modCrew

theorem State.Inv.gld {i : Instr} {vt vi : BitVec 7} {sb : BitVec 6} {ix sx : Bool} {p : Option Pfx} {l : Option (BitVec 24)} {acq : Option Nat}
    (h : s.Inv) : NextInv (gld i s vt sb vi ix p l n sx acq) :=
  h.run fun _ => .bind fun _ => .bind fun _ => .bind fun _ => .bind fun _ => .bind fun _ => .bind fun _ =>
    .pure (State.Inv.foldl h fun _ _ ht => by split; exacts [ht.spRead, ht]).startLoad

theorem State.Inv.gst {i : Instr} {vt vi : BitVec 7} {sb : BitVec 6} {ix : Bool} {p : Option Pfx} {l : Option (BitVec 24)} {rel : Option Nat}
    (h : s.Inv) : NextInv (gst i s vt sb vi ix p l n rel) :=
  h.run fun _ => .bind fun _ => .bind fun _ => .bind fun _ => .bind fun _ => .bind fun _ => .bind fun _ =>
    .pure (.ite h.spotStores h.spotStores.addOp)

theorem State.Inv.gstN {i : Instr} {o : OpM} {w : Nat} (h : s.Inv) : NextInv (gstN i s o w) :=
  h.run fun e => .bind fun v => .bind fun _ => .bind fun base => .bind fun ps => .bind fun _ => .bind fun _ => by
    extract_lets s1 cells
    have h1 : s1.Inv := (h.foldl fun _ _ ht => by split; exacts [ht.spPutBits, ht]).asOne
    exact .pure (.ite h1 h1.addOp)

theorem State.Inv.execSld {o : OpMSc1} (h : s.Inv) : NextInv (execSld o s) :=
  h.run fun e => .bind fun base => .bind fun _ => .bind fun ps => .bind fun _ => by
    extract_lets op s1 _ rest
    have h1 : s1.Inv := by unfold s1; split; exacts [h.spRead, h]
    have hr : ∀ u, ExeInv (rest u) := fun _ => .pure h1.pendS.addOp
    split
    exacts [.bind hr, .bind hr, hr ()]

theorem State.Inv.execSst {o : OpMSc1} (h : s.Inv) : NextInv (execSst o s) :=
  h.run fun _ => .bind fun _ => .bind fun _ => .bind fun _ => .bind fun _ => .pure (.ite h.spotStores h.spotStores.addOp)

theorem State.Inv.atom {i : Instr} {o : OpMAt} (h : s.Inv) : NextInv (atom i s o n) := by
  refine h.run fun e => ?_
  iterate 7 refine .bind fun _ => ?_
  exact .pure (.ite h.spAtoms.asOne.modWarp h.spAtoms.asOne.modWarp.addOp)

theorem State.Inv.execPf {o : OpMPf} (h : s.Inv) : NextInv (execPf o s) := h.run fun _ => .bind fun _ => .bind fun _ => .bind fun _ => .pure h

theorem State.Inv.fence {i : Instr} {ld st : Bool} (h : s.Inv) : NextInv (fence i s ld st) := h.run fun _ => .bind fun _ => .pure h

theorem State.Inv.execPhaseRel {o : OpXSc} (h : s.Inv) : NextInv (execPhaseRel o s) := h.run fun _ => .bind fun _ => .pure h.markRelease
theorem State.Inv.execPhaseAcq {o : OpXSc} (h : s.Inv) : NextInv (execPhaseAcq o s) := h.run fun _ => .bind fun _ => .pure h.markAcquire

/-! Barriers and supersteps. -/

theorem State.Inv.execBarinit {o : OpX2} (h : s.Inv) : NextInv (execBarinit o s) :=
  h.run fun _ => .bind fun _ => .bind fun _ => .pure h.unbind.initBar

theorem State.Inv.execBarinitCoh {o : OpX2} (h : s.Inv) : NextInv (execBarinitCoh o s) :=
  h.run fun e => .bind fun off => .bind fun x => by
    extract_lets key s1
    have h1 : s1.Inv := h.unbind
    split
    · exact .ite (.pure h1.modCohort.initBar) (.pure h1.initBar)
    · exact .pure h1.initBar

theorem State.Inv.arrive {i : Instr} {sd sa : BitVec 6} {sn : Option (BitVec 6)} (h : s.Inv) : NextInv (arrive i s sd sa sn) :=
  h.run fun e => .bind fun off => by
    extract_lets rest
    have hr : ∀ n, ExeInv (rest n) := fun _ => .bind fun _ => .bind fun _ => .pure h.noteArrive.arriveUpd.setS
    split
    exacts [.bind hr, .bind fun _ => .bind hr]

theorem State.Inv.execExpect {o : OpX2} (h : s.Inv) : NextInv (execExpect o s) :=
  h.run fun _ => .bind fun _ => .bind fun _ => .bind fun _ => .pure h.putBar

theorem State.Inv.execWaitb {o : OpX2} (h : s.Inv) : NextInv (execWaitb o s) :=
  h.runCtl fun e => by
    extract_lets rest
    have hr : ∀ q, ExeInv (rest q) := fun q => by
      unfold rest; extract_lets b; split
      exacts [.pure h.park, .ite .error (.pure h.joined.jump)]
    split
    exacts [.bind fun _ => .bind hr, .bind fun _ => .bind fun _ => .bind hr]

theorem State.Inv.execBarq {o : OpX3} (h : s.Inv) : NextInv (execBarq o s) :=
  h.run fun _ => .bind fun _ => .bind fun _ => .bind fun _ => .pure h.putBar.setS

theorem State.Inv.execSuperstep {o : OpX2} (h : s.Inv) : NextInv (execSuperstep o s) :=
  h.runCtl fun e => .bind fun g => by
    refine .ite ?_ (.andThen h.wrS fun _ ht => .pure ht.jump)
    extract_lets rest
    have hr : ∀ u, ExeInv (rest u) := fun _ => .bind fun _ => .pure h.stepNote.pendS.park.stepArrive
    exact .ite (hr ()) (.bind hr)

/-! The matrix engine. -/

theorem State.Inv.execTcfg {o : OpXTd} (h : s.Inv) : NextInv (execTcfg o s) :=
  h.run fun _ => .bind fun _ => .bind fun _ => .bind fun _ => .bind fun _ => .pure h.modCrew

theorem State.Inv.issueProduct {i : Instr} {o : OpXMma} {fn : Nat} (h : s.Inv) : NextInv (issueProduct i s o fn) :=
  h.run fun _ => .bind fun _ => .bind fun _ => .pure h.issueMx

theorem State.Inv.execAclr {o : OpXAcc} (h : s.Inv) : NextInv (execAclr o s) := h.run fun _ => .bind fun _ => .bind fun _ => .pure h.issueMx

theorem State.Inv.issueMove {i : Instr} {o : OpXTd} {fn : Nat} (h : s.Inv) : NextInv (issueMove i s o fn) :=
  h.run fun _ => .bind fun _ => .bind fun _ => .bind fun _ => .pure h.addOp

theorem State.Inv.execMmag {o : OpXMma} (h : s.Inv) : NextInv (execMmag o s) :=
  h.runH fun _ => .bind fun _ => .bind fun _ => .bind fun _ => .pure h.issueMx

theorem State.Inv.issueDrain {i : Instr} {acc dst : Nat} {add : Bool} {sa sc : BitVec 6} (h : s.Inv) :
    NextInv (issueDrain i s acc dst add sa sc) := by
  refine h.run fun e => .bind fun ctl => .bind fun base => .bind fun _ => .bind fun _ => ?_
  extract_lets rest
  have hr : ∀ u, ExeInv (rest u) := fun _ => by
    refine .bind fun _ => .bind fun _ => .bind fun _ => .bind fun _ => .bind fun c => ?_
    extract_lets m; split
    · exact .error
    · exact .pure h.noteExtents.drainFault
    · refine .bind fun fw => ?_
      extract_lets lanes lines last
      have hl : ∀ u, ExeInv (last u) := fun _ => .bind fun _ => .pure h.startDrain
      exact .ite (.bind hl) (hl ())
  exact .ite (.bind hr) (hr ())

/-! Sequencers and copies. -/

theorem State.Inv.withForks {xs : List SCtx} {q : List ForkWait} (h : s.Inv) : ({ s with ctxs := xs, forkQ := q } : State).Inv := h.same rfl

theorem State.Inv.fork {i : Hdr} {rid : BitVec 6} {m c : Option Nat} (h : s.Inv) : NextInv (fork i s rid m c) :=
  h.runCtlH fun e => .bind fun _ => .bind fun w => .bind fun _ => by
    split
    · exact .error
    · exact .ite (.pure h.withForks.jump) (.ite .error (.pure h.withForks))

theorem State.Inv.execRdvz {o : OpX2} (h : s.Inv) : NextInv (execRdvz o s) :=
  h.runH fun e => .bind fun _ => .bind fun _ => by
    extract_lets s0 s1 s2
    have h2 : s2.Inv := by unfold s2; split; exacts [h.withCtxs.joined.modWarp, h.withCtxs.joined]
    exact .pure h2.setS

theorem State.Inv.execSeqend (h : s.Inv) : NextInv (execSeqend s) := h.runCtlH fun e => by split; exacts [.ok h.modCtx, .error]

theorem State.Inv.execShld {o : OpXSh} (h : s.Inv) : NextInv (execShld o s) :=
  h.runH fun e => .bind fun a => .bind fun ps => .bind fun _ => by
    extract_lets put; split
    · exact .bind fun _ => .pure h.noteSeen.modCrew
    · exact .bind fun _ => .bind fun _ => .pure (State.Inv.foldl h fun _ _ ht => ht.noteSeen).modCrew
    · exact .pure h

theorem State.Inv.execShset {o : OpXShs} (h : s.Inv) : NextInv (execShset o s) := h.runH fun _ => .bind fun _ => .pure h.modCrew

theorem State.Inv.copyOp {i : Hdr} {o : OpX3} {fn : Nat} (h : s.Inv) : NextInv (copyOp i s o fn) :=
  h.runH fun _ => .bind fun _ => .bind fun _ => .bind fun _ => .bind fun _ => .bind fun _ => .pure h.issueCp

theorem State.Inv.execMcast {o : OpX3} (h : s.Inv) : NextInv (execMcast o s) := by
  refine h.runH fun e => ?_
  iterate 6 refine .bind fun _ => ?_
  extract_lets s1 c s2
  have h1 : s1.Inv := h.foldl fun _ _ ht => .ite ht.mcUpd ht
  refine .ite ?_ (.pure h1.issueCp)
  have h2 : s2.Inv := h1.asOp fun _ ht => ht.foldl fun _ _ hu => .ite hu.cpBarUpd hu.mcRefuse
  exact .pure (.ite h2 h2.stepOpDone)

/-! Paging. -/

theorem State.Inv.execKvgather {o : OpX3} (h : s.Inv) : NextInv (execKvgather o s) := by
  refine h.runCtlH fun e => .bind fun a => .bind fun b => .bind fun x => ?_
  extract_lets die q act ls s0 g lines s1 s2 s3 _ s4
  have h3 : s3.Inv := (h.pgDrop.foldl fun _ _ ht => ht.touchFrame).modWarp.modCrew.kvBarUpd
  have h4 : s4.Inv := .ite h3.dropHolds h3.addOp
  iterate 6 refine .bind fun _ => ?_
  split
  · exact .pure h.fetchAll.pgStand
  · split
    exacts [.pure h.pgExpire, .ite (.pure h.pgPause) (.pure h4.jump)]

theorem State.Inv.execKvappend {o : OpX3} (h : s.Inv) : NextInv (execKvappend o s) := by
  refine h.runCtlH fun e => .bind fun a => .bind fun b => .bind fun x => ?_
  iterate 7 refine .bind fun _ => ?_
  refine .ite (.pure h.fetchAll.pgStand) ?_
  split
  · exact .pure h.pgExpire
  · refine .ite (.pure h.pgPause) (.ite (.pure h.pgDrop.kvBarUpd.kvBarUpd.stepOpDone.jump) ?_)
    split
    · exact .pure h.pgStand
    · next f s1 e1 =>
      extract_lets cow codes fixes es s2 s3
      have h2 : s2.Inv := (h.kaPage e1).pgDrop.touchFrame
      have h3 : s3.Inv := .ite h2 (h2.foldl fun _ _ ht => ht.wr)
      exact .pure h3.kvBarUpd.addOp.jump

theorem State.Inv.pgreq {i : Hdr} {o : OpX3} {force : Option Nat} (h : s.Inv) : NextInv (pgreq i s o force) :=
  h.runCtlH fun e => .bind fun a => .bind fun b => .bind fun _ => by
    extract_lets x s1; split
    · exact .pure h.pgDrop.withFree.setS.jump
    · split
      exacts [.pure h.pgFetch.pgStand, .pure h.pgExpire, .pure h.pgFetch.pgDrop.pgAct.setS.jump]

/-! The scheduler. -/

theorem State.Inv.execSqadm {o : OpX2} (h : s.Inv) : NextInv (execSqadm o s) :=
  h.runH fun e => .bind fun a => .bind fun _ => .bind fun _ => .bind fun _ => by
    extract_lets s0 r
    have h0 : s0.Inv := h.schedAsk
    have hr : r.1.Inv := by
      unfold r; split
      · exact h0
      · split
        · exact h0.enterSeq ‹_›
        · exact h0
    exact .pure hr.schedReturn.setS

theorem State.Inv.execTokfb {o : OpX3} (h : s.Inv) : NextInv (execTokfb o s) :=
  h.runH fun e => .bind fun a => .bind fun b => .bind fun _ => .bind fun _ => by
    extract_lets die s0 q
    have hq : q.1.Inv := by unfold q; split; exacts [h.schedAsk.feedToken, h.schedAsk]
    exact .pure hq.schedReturn.setS

theorem State.Inv.execSeqret {o : OpX3} (h : s.Inv) : NextInv (execSeqret o s) :=
  h.runH fun e => .bind fun a => .bind fun b => .bind fun _ => .bind fun _ => by
    extract_lets die s0 q
    have hq : q.1.Inv := by unfold q; split; exacts [h.schedAsk.seqReturn, h.schedAsk]
    exact .pure hq.schedReturn.setS

theorem State.Inv.execLaunch {o : OpX3} (h : s.Inv) : NextInv (execLaunch o s) :=
  h.runH fun _ => .bind fun _ => .bind fun _ => .bind fun _ => .bind fun _ => .bind fun _ => .pure h.launchChild.setS

/-! The fabric. -/

theorem State.Inv.execPut {o : OpX3} (h : s.Inv) : NextInv (execPut o s) :=
  h.runH fun _ => .bind fun _ => .bind fun _ => .bind fun _ => .bind fun _ => .bind fun _ => .pure (.ite (h.asOp fun _ ht => ht.cpBarUpd) h.addNet)

theorem State.Inv.execGet {o : OpX3} (h : s.Inv) : NextInv (execGet o s) :=
  h.runH fun _ => .bind fun _ => .bind fun _ => .bind fun _ => .bind fun _ => .bind fun _ =>
    .pure (.ite h (State.Inv.addNet (.ite h.modCrew.cpBarUpd h.modCrew)))

theorem State.Inv.execRatom {o : OpX3} (h : s.Inv) : NextInv (execRatom o s) := by
  refine h.runH fun e => ?_
  iterate 14 refine .bind fun _ => ?_
  exact .pure (.ite h (h.withNextMsg.modWarp.addOp.asOp fun _ ht => ht.send))

theorem State.Inv.execRednet {o : OpX3} (h : s.Inv) : NextInv (execRednet o s) :=
  h.runH fun _ => .bind fun _ => .bind fun _ => .bind fun _ => .bind fun _ => .bind fun _ => .bind fun _ => .bind fun _ =>
    .pure (State.Inv.addNet (.ite h.barUpd h))

end Shape
end Sys2Proof.Machine
end

section
/-! The shape through a step: every instruction and event, the turns of the agenda, and reset. -/
namespace Sys2Proof.Machine
open Sys2Proof.Laws

section Shape
variable {s t : State}

theorem State.Inv.execStepTimeout (h : s.Inv) : NextInv (execStepTimeout g s) := by
  refine .next ?_; split
  · exact h
  · split
    · exact .ite (State.Inv.foldl h fun _ _ ht => ht.stepReturn).nextStep h
    · exact h

theorem State.Inv.execAclrComplete (h : s.Inv) : NextInv (execAclrComplete n s) :=
  .next (h.mxComplete fun t o m ht => by
    split
    · exact ht.setAcc
    · trivial)

theorem State.Inv.execMmagSliceComplete {member : Nat} (h : s.Inv) : NextInv (execMmagSliceComplete n member s) := by
  refine .next ?_; split
  · exact h
  · exact h.asOp fun _ ht => .ite ht.mxFinish ht.sliceRun

theorem State.Inv.exec {i : Instr} (h : s.Inv) : NextInv (exec i s) := by
  unfold Machine.exec; cases i with
  | mov_16 | mov => exact h.movReg
  | iaddI32_16 | isubI32_16 | and_16 | or_16 | xor_16 | shl_16 | shrUi32_16 | shrI32_16 | iminI32_16 | imaxI32_16 | iaddI32 | iaddI32Sat |
    isubI32 | isubI32Sat | imulI32 | imulhI32 | iminI32 | iminUi32 | imaxI32 | imaxUi32 | and | or | xor | shl | shrUi32 | shrI32 | iaddP16
    | iaddP16Sat | isubP16 | isubP16Sat | imulP16 | imulhP16 | iminP16 | imaxP16 | vacsP16 | vacsP16Max | shlP16 | shrP16 | faddF32_16 |
    fsubF32_16 | fmulF32_16 | faddF32 | fsubF32 | fmulF32 | fminF32_16 | fmaxF32_16 | fminF32 | fminF32Nan | fmaxF32 | fmaxF32Nan | imadI32
    | imadI32Vc | movLane | clz | popc | movi | fcpys | fneg | fabs | frint | cvt | pack | unpack | quant | red | iaddi | andi | ori | xori
    | shli | shri | shriA | ffmaF32 | ffmaF32Vc | cvtI32 | cvtUi32 => exact h.runVec
  | icmpI32 | icmpUi32 | icmpi | icmpiU | fcmpF32 | ballotM => exact h.runMask
  | rcp | rsq | sqrt | ex2 | lg2 | sin | cos | tanh | fdivF32 | ropeCos | ropeSin => exact h.runProducer
  | shflIdx | shflUp | shflDn | shflXor | shflIdxImm | shflUpImm | shflDnImm | shflXorImm => exact h.shuffle
  | redw | ballot => exact h.runToScalar
  | scan | scanEx | sscan | sscanEx => exact h.scanOp
  | mand | mor | mxor | mnot => exact h.maskLogic
  | stov | stovHi => exact h.stovOf
  | sete | setf => exact h.setFull
  | sadd | ssub | smul | smulh | smulhu | sand | sor | sxor | sshl | sshr | ssar | smin | smax | sminu | smaxu | sseq | ssne | sslt | ssltu
    | ssle | ssleu => exact h.salu
  | sclz | spopc => exact h.salu1
  | saddi | sandi | sori | sxori | sshli | sshri | sshriA | smovhi | sslti => exact h.saluI
  | mxglostRead | csrr => exact h.csrRead
  | csrw | neterrWrite | cpfaultWrite | mxfaultWrite => exact h.csrWrite
  | ldB8 | ldS8 | ldB16 | ldS16 | ldB32 | ldB64 | ldB128 | ldAcqB32 | ldAcqB64 => exact h.gld
  | stB8 | stB16 | stB32 | stB64 | stB128 | stRelB32 | stRelB64 => exact h.gst
  | stN4 | stN6 => exact h.gstN
  | atomB32 | atomB64 => exact h.atom
  | spldB8 | spldB16 | spldB32 | spldB64 | spldB128 => exact h.spld
  | spstB8 | spstB16 | spstB32 | spstB64 | spstB128 => exact h.spst
  | spstN4 | spstN6 => exact h.spstN
  | tretJmp | tret | tretSkip => exact h.tretTo
  | lnclr | lnset => exact h.lineOp
  | arrive | arriveN => exact h.arrive
  | tld | tst => exact h.issueMove
  | mma | mmas => exact h.issueProduct
  | adrainSp | adrainG | adrainV => exact h.issueDrain
  | forkM | forkC | forkMc => exact h.fork
  | copy | gather | scatter => exact h.copyOp
  | pgreq | pgreqShare | pgreqRelease | pgreqPin | pgreqUnpin | pgreqFetch | pgreqRequant => exact h.pgreq
  | fenceLd | fenceSt | fenceAll => exact h.fence
  | nop_16 => exact h.run fun _ => .ok h
  | sel => exact h.execSel
  | topk => exact h.execTopk
  | sample => exact h.execSample
  | stopchk => exact h.execStopchk
  | smxupd => exact h.execSmxupd
  | smxupdSum => exact h.execSmxupdSum
  | bcastFirst => exact h.execBcastFirst
  | bcast => exact h.execBcast
  | mpopc => exact h.execMpopc
  | vtosFirst => exact h.execVtosFirst
  | vtos => exact h.execVtos
  | tstf => exact h.execTstf
  | smovi => exact h.run fun _ => h.wrS
  | pf => exact h.execPf
  | stimg => exact h.execStimg
  | ldimg => exact h.execLdimg
  | sld => exact h.execSld
  | sst => exact h.execSst
  | br => exact h.execBr
  | brs => exact h.execBrs
  | call => exact h.execCall
  | loop => exact h.execLoop
  | jmpx => exact h.execJmpx
  | ret => exact h.execRet
  | trap => exact h.execTrap
  | join => exact h.execJoin
  | leave => exact h.execLeave
  | lookup => exact h.execLookup
  | tagset => exact h.execTagset
  | tagclr => exact h.execTagclr
  | barinit => exact h.execBarinit
  | barinitCoh => exact h.execBarinitCoh
  | expect => exact h.execExpect
  | waitb => exact h.execWaitb
  | barq => exact h.execBarq
  | superstep => exact h.execSuperstep
  | phaseRel => exact h.execPhaseRel
  | phaseAcq => exact h.execPhaseAcq
  | tcfg => exact h.execTcfg
  | aclr => exact h.execAclr
  | rdvz => exact h.execRdvz
  | shld => exact h.execShld
  | shset => exact h.execShset
  | rednet => exact h.execRednet
  | get => exact h.execGet
  | ratom => exact h.execRatom
  | put => exact h.execPut
  | sqadm => exact h.execSqadm
  | tokfb => exact h.execTokfb
  | seqret => exact h.execSeqret
  | launch => exact h.execLaunch
  | kvgather => exact h.execKvgather
  | kvappend => exact h.execKvappend
  | mcast => exact h.execMcast
  | mmag => exact h.execMmag
  | nop => exact h.run fun _ => .ok h
  | exit => exact h.execExit
  | seqend => exact h.execSeqend
  | producerFill => exact .next h.fillLane
  | scalarProducerFill => exact .next h.fillScalar
  | storeAccept => exact .next h.acceptStore
  | atomicUnitExecute => exact .next h.execAtom
  | crewPlace => exact .next h.placeCrew
  | crewEnd => exact .next h.endCrew
  | sequencerContextEnd => exact .next h.endCtx
  | sequencerTrapEnd => exact .next h.endCtx
  | stepTimeout => exact h.execStepTimeout
  | mmaComplete => exact .next (h.mxComplete fun _ _ _ ht => ht.runProduct)
  | aclrComplete => exact h.execAclrComplete
  | adrainComplete => exact .next (h.mxComplete fun _ _ _ ht => ht.runDrain)
  | tldComplete => exact .next (h.mxComplete fun _ _ _ ht => ht.runMove)
  | tstComplete => exact .next (h.mxComplete fun _ _ _ ht => ht.runMove)
  | mmagSliceComplete => exact h.execMmagSliceComplete
  | copyPart => exact .next h.anyCopyPart
  | kvgatherDelivery => exact .next h.kvDeliver
  | kvappendWrite => exact .next h.kvWrite
  | pageWaitTimeout => exact .next h.pageTimeout
  | evictionStart => exact .next h.evictStart
  | evictionCopyEnd => exact .next (h.byWork fun _ ht => ht.evictEnd)
  | fetchCopyEnd => exact .next (h.byWork fun _ ht => ht.fetchEnd)
  | copyOnWriteEnd => exact .next (h.byWork fun _ ht => ht.cowEnd)
  | batchFormation => exact .next (h.schedWork fun _ ht => ht.formBatch)
  | sequenceSweep => exact .next (.ite (h.schedWork fun _ ht => ht.sweep) h)
  | iterationGraphComplete => exact .next (h.schedWork fun _ ht => ht.graphComplete)
  | iterationEnd => exact .next (h.schedWork fun _ ht => ht.iterationEnd)
  | feedbackWaitExpiry => exact .next (h.schedWork fun _ ht => ht.feedbackExpiry)
  | inboundWithdraw => exact .next (.ite (h.schedWork fun _ ht => ht.withdrawInbound) h)
  | queueDoorbell => exact .next (.ite h.doorbell h)
  | qcreate => exact .next (h.command fun _ _ ht => ht.cmdQcreate)
  | qdestroy => exact .next (h.command fun _ _ ht => ht.cmdQdestroy)
  | qdestroyComplete => exact .next h.destroyDone
  | qreset => exact .next (h.command fun _ _ ht => ht.cmdQreset)
  | ctxset => exact .next (h.command fun _ _ ht => ht.cmdCtxset)
  | inval => exact .next (h.command fun _ _ ht => ht.cmdInval)
  | invalComplete => exact .next h.invalDone
  | peconfig => exact .next (h.command fun _ _ ht => ht.cmdPeconfig)
  | sqconfig => exact .next (h.command fun _ _ ht => ht.cmdSqconfig)
  | sgassign => exact .next (h.command fun _ _ ht => ht.cmdSgassign)
  | ringset => exact .next (h.command fun _ _ ht => ht.cmdRingset)
  | winset => exact .next (h.command fun _ _ ht => ht.cmdWinset)
  | redset => exact .next (h.command fun _ _ ht => ht.cmdRedset)
  | irisset => exact .next (h.command fun _ _ ht => ht.cmdIrisset)
  | saveset => exact .next (h.command fun _ _ ht => ht.cmdSaveset)
  | ctxpreempt => exact .next (h.command fun _ _ ht => .cmdIf ht)
  | ctxresume => exact .next (h.command fun _ _ ht => .cmdIf ht)
  | attest => exact .next (h.command fun _ _ ht => ht.cmdAttest)
  | pwrset => exact .next (h.command fun _ _ ht => ht.cmdPwrset)
  | devset => exact .next (h.command fun _ _ ht => ht.cmdDevset)
  | mextend => exact .next (h.command fun _ _ ht => ht.cmdMextend)
  | repairset => exact .next (h.command fun _ _ ht => ht.cmdRepairset)
  | mgmtUnknownCommand => exact .next h.unknownCmd
  | launchPacket => exact .next h.launchNext
  | graphPacket => exact .next (h.dispatch fun _ _ _ ht => ht.beginGraph)
  | signalPacket => exact .next (h.dispatch fun _ _ _ ht => ht.signalPacket)
  | barrierAnd => exact .next (h.dispatch fun _ _ _ ht => ht.barrierPacket)
  | barrierOr => exact .next (h.dispatch fun _ _ _ ht => ht.barrierPacket)
  | barrierPacketPoll => exact .next h.pollJob
  | copyPacket => exact .next (h.dispatch fun _ _ _ ht => ht.copyPacket)
  | seqadmit => exact .next (h.dispatch fun _ _ _ ht => ht.admitPacket)
  | seqcancel => exact .next (h.dispatch fun _ _ _ ht => ht.cancelPacket)
  | malformedPacket => exact .next h.malformed
  | stealRequest => exact .next h.stealRequest
  | queueHandover => exact .next h.handover
  | queueReturn => exact .next h.giveBack
  | aggregatorWindowClose => exact .next h.modDie
  | ringInterruptTimer => exact .next h.ringTimer
  | rdidx => exact .next (.ite h.writeRdidx h)
  | ovf => exact .next (.ite h.clearOvf h)
  | mrtail => exact .next (.ite h.writeMrtail h)
  | mrbase => exact .next (.ite h.modDie h)
  | hostWindowWrite => exact .next (.ite h.writeWindow h)
  | wlock => exact .next (.ite (h.same rfl) h)
  | hostRegisterWrite => exact .next (.ite h.hostReg h)
  | rtsReceive => exact .next h.rtsReceive
  | rtsRetry => exact .next h.rtsRetry
  | irisGrant => exact .next h.grant
  | tokenReceive => exact .next h.tokenReceive
  | fabricDataLand => exact .next h.dataLand
  | tokenExpiry => exact .next h.expireToken
  | orphanTimeout => exact .next h.orphanTimeout
  | transferTimeout => exact .next h.transferTimeout
  | frozen => exact .next h.frozenTick
  | frozenReceive => exact .next h.frozenReceive
  | finished => exact .next h.finishedMsg
  | orphaned => exact .next h.orphanedMsg
  | refusalReceive => exact .next h.refusalMsg
  | relinquish => exact .next h.relinquish
  | resume => exact .next h.resume
  | abort => exact .next h.abort
  | rmaReadServe => exact .next h.readServe
  | getResponseLand => exact .next h.responseLand
  | ratomExecute => exact .next h.ratomExecute
  | ratomReply => exact .next h.raReply
  | reductionArrival => exact .next h.redArrive
  | reductionSlotTimeout => exact .next h.slotTimeout
  | reductionResultLand => exact .next h.resultLand
  | unreachable => exact .next h.unreachable
  | portDown => exact .next (h.same rfl)
  | unsupportedOperation => exact .next h.unsupported
  | crewSave => exact .next (h.byWork fun _ ht => ht.crewSave)
  | crewRestore => exact .next (h.byWork fun _ ht => ht.crewRestore)
  | powerWindow => exact .next h.budgetWindow.grantPower
  | thermalClamp => exact .next h.clampDie
  | thermalClampRelease => exact .next h.unclamp
  | thermalMigration => exact .next (h.byWork fun _ ht => ht.migrate)
  | uncorrectableError => exact .next h.uncorrectable
  | correctableError => exact .next h.correctable
  | coldReset => exact .next h.coldReset
  | powerLoss => exact .next h.powerLoss
  | functionReset => exact .next h.functionReset
  | functionResetComplete => exact .next h.functionResetDone
  | watchdogTimeout => exact .next h.watchdog
  | capFault => exact .next h.capError
  | portUp => exact .next (h.same rfl)
  | queueError => exact .next h.readError
  | mgmtRecordSkip => exact .next h.skipCmd

theorem State.Inv.issue (h : s.Inv) : NextInv (s.issue who) := by
  have h1 : State.Inv { s with cur := some who } := h.same rfl
  unfold State.issue; extract_lets s1; split
  · exact .next h1
  · split
    exacts [h1.exec, .next h1.fetchStop]

theorem State.Inv.turn {x : Turn} (h : s.Inv) : NextInv (s.turn x) := by
  cases x with
  | event i => exact .ite h.exec (.next h)
  | issue t => exact h.issue
  | elapse ns => exact .next h.elapse
  | lead die ns => exact .next h.lead
  | hostWrite addr bs => exact .next h.hostWrite
  | hostRead addr n => exact .next h.hostLoad
  | cacheXlat ctx va level => exact .next h.cacheXlat
  | dropXlat ctx va level => exact .next h.dropXlat
  | useCached b => exact .next (h.same rfl)
  | lookBack ts => exact .next (h.same rfl)
  | arrive m => exact .next h.heard
  | barRead bar off n => exact .next h.barRead
  | barWrite bar off v => exact .next (h.byWork fun _ ht => ht.barWrite)
  | boot => exact .next h.bootStep
  | heartbeat die core => exact .next h.heartbeat

/-- One step keeps the shape, whatever its turn or instruction. -/
theorem State.Inv.step (h : s.Inv) : NextInv (step s) := by
  unfold Machine.step; split
  · exact State.Inv.turn (h.same rfl)
  · split
    exacts [h.issue, .next h]

end Shape

/-- Settles O52: the reset state meets each clause of the shape. -/
theorem resetKeepsShape : Obligations.ResetKeepsShape := State.inv_reset

/-- Settles O53: the shape is kept by every operation on state, so by every instruction, event and turn. -/
theorem stepsKeepShape : Obligations.StepsKeepShape := fun _ t h e => State.Inv.step h t e

end Sys2Proof.Machine
end

section
/-! The loss of power and the boot (R416, R423 to R429): BOOTSTAT as its fields, one lemma per end of a stage, and the five stages in order. -/
namespace Sys2Proof.Machine
open Sys2Proof.Laws Sys2Proof.Claims

theorem setBits_state (v x : Nat) : setBits v 3 0 x = v / 16 * 16 + x % 16 := by
  unfold setBits bits; omega

theorem setBits_fail (v x : Nat) : setBits v 15 8 x = v / 2 ^ 16 * 2 ^ 16 + x % 2 ^ 8 * 2 ^ 8 + v % 2 ^ 8 := by
  unfold setBits bits; omega

theorem statWith_toNat (w : W64) (st f : Nat) :
    (statWith w st f).toNat = w.toNat / 2 ^ 16 * 2 ^ 16 + f % 2 ^ 8 * 2 ^ 8 + w.toNat % 2 ^ 8 / 16 * 16 + st % 16 := by
  have := w.isLt
  simp only [statWith, setBits_fail, setBits_state, BitVec.toNat_ofNat]
  omega

theorem statWith_state (w : W64) (f : Nat) {st : Nat} (h : st < 16) : (statWith w st f).toNat % 16 = st := by
  rw [statWith_toNat]; omega

theorem statWith_fail (w : W64) (st : Nat) {f : Nat} (h : f < 2 ^ 8) : (statWith w st f).toNat / 2 ^ 8 % 2 ^ 8 = f := by
  rw [statWith_toNat]; omega

theorem setBootState_state (s : State) {v : Nat} (h : v < 16) : (s.setBootState v).boot.stat.toNat % 16 = v := by
  have := s.boot.stat.isLt
  simp only [State.setBootState, setBits_state, BitVec.toNat_ofNat]
  omega

/-- BOOTSTAT gives the good cores of both dies (R423). -/
def Cores (b : BootInput) (w : W64) : Prop := w.toNat / 2 ^ 32 % 2 ^ 9 = b.cores0 % 2 ^ 9 ∧ w.toNat / 2 ^ 41 % 2 ^ 9 = b.cores1 % 2 ^ 9

theorem Cores.statWith {b : BootInput} {w : W64} (h : Cores b w) (st f : Nat) : Cores b (statWith w st f) := by
  obtain ⟨h0, h1⟩ := h
  constructor
  · rw [statWith_toNat]; omega
  · rw [statWith_toNat]; omega

theorem cores_mapped (b : BootInput) : Cores b (BitVec.ofNat 64 (b.cores1 % 2 ^ 9 * 2 ^ 41 + b.cores0 % 2 ^ 9 * 2 ^ 32 + 1)) := by
  constructor
  · rw [BitVec.toNat_ofNat]; omega
  · rw [BitVec.toNat_ofNat]; omega

/-! The ends of a stage. -/

theorem stageFail_lt (b : BootInput) (f n : Nat) : stageFail b f n < 2 ^ 8 := by
  unfold stageFail; split
  · split_ifs <;> decide
  · split_ifs <;> decide
  · split_ifs <;> decide
  · split_ifs <;> decide
  · decide

theorem bootStep_idle {s : State} (h : s.boot.run = none) : s.bootStep = s := by
  unfold State.bootStep; rw [h]

theorem bootStep_fails {s : State} {n : Nat} {b : BootInput} (h : s.boot.run = some (n, b)) (hf : stageFail b (s.stageWork b n).boot.fused n ≠ 0) :
    s.bootStep = { s.stageWork b n with boot := { (s.stageWork b n).boot with
      run := none, stat := statWith (s.stageWork b n).boot.stat 5 (stageFail b (s.stageWork b n).boot.fused n) } } := by
  unfold State.bootStep; rw [h]; exact if_pos hf

theorem bootStep_passes {s : State} {n : Nat} {b : BootInput} (h : s.boot.run = some (n, b)) (hf : stageFail b (s.stageWork b n).boot.fused n = 0) :
    s.bootStep = { (s.stageWork b n).stagePassed b n with boot := { ((s.stageWork b n).stagePassed b n).boot with
      run := if n < 5 then some (n + 1, b) else none, stat := statWith ((s.stageWork b n).stagePassed b n).boot.stat (stageNext n) 0 } } := by
  unfold State.bootStep; rw [h]; exact if_neg (not_not.2 hf)

theorem stageNext_lt (n : Nat) : stageNext n < 16 := by unfold stageNext; split <;> decide

/-- What a stage does first: the first reads the identity and the counter, the second gives the good cores; M4 to M7 stay (R424). -/
theorem stageWork_eq (s : State) (b : BootInput) (n : Nat) :
    ∃ d w f ms, s.stageWork b n = { s with devid := d, boot := { s.boot with stat := w, fused := f, meas := ms } }
      ∧ (n ≠ 1 → d = s.devid ∧ f = s.boot.fused) ∧ (if n = 2 then Cores b w else w = s.boot.stat)
      ∧ ∀ i, 4 ≤ i → ms[i]? = s.boot.meas[i]? := by
  have kept : ∀ j, j < 4 → ∀ (l : List (BitVec 512)) g i, 4 ≤ i → (modAt l j g)[i]? = l[i]? := fun j hj l g i hi => by
    rw [modAt_get, if_neg (by omega)]
  unfold State.stageWork; split
  · exact ⟨_, _, _, _, rfl, fun h => absurd rfl h, rfl, kept 0 (by decide) _ _⟩
  · exact ⟨_, _, _, _, rfl, fun _ => ⟨rfl, rfl⟩, cores_mapped b, kept 1 (by decide) _ _⟩
  · exact ⟨_, _, _, _, rfl, fun _ => ⟨rfl, rfl⟩, rfl, fun i hi => (kept 3 (by decide) _ _ i hi).trans (kept 2 (by decide) _ _ i hi)⟩
  · next h1 h2 h4 => exact ⟨_, _, _, _, rfl, fun _ => ⟨rfl, rfl⟩, by rw [if_neg h2], fun _ _ => rfl⟩

/-- What a stage does once its checks have passed: firmware's version, and at last the heartbeats and the counter. -/
theorem stagePassed_eq (s : State) (b : BootInput) (n : Nat) :
    ∃ v f ds, s.stagePassed b n = { s with boot := { s.boot with fwver := v, fused := f }, dies := ds }
      ∧ (n ≠ 5 → f = s.boot.fused) ∧ (n = 5 → f = if b.advance then min 64 (max s.boot.fused b.version) else s.boot.fused)
      ∧ (ds = s.dies ∨ ds = s.dies.map (fun d => { d with beats := List.replicate 4 s.dtime })) := by
  unfold State.stagePassed; split
  · exact ⟨_, _, _, rfl, fun _ => rfl, fun h => absurd h (by decide), .inl rfl⟩
  · exact ⟨_, _, _, rfl, fun h => absurd rfl h, fun _ => rfl, .inr rfl⟩
  · next h => exact ⟨_, _, _, rfl, fun _ => rfl, fun c => absurd c h, .inl rfl⟩

/-- What every state of a boot keeps of the cold reset that began it (R416). -/
structure Booting (s0 t : State) : Prop where
  mem : t.mem = s0.mem
  crews : t.crews = []
  staged : t.boot.staged = s0.boot.staged
  meas : ∀ i, 4 ≤ i → i < 8 → t.boot.meas[i]? = some 0
  dies : t.dies = [Die.reset, Die.reset]
  dtime : t.dtime = 0

theorem Booting.work {s0 t : State} (h : Booting s0 t) (b : BootInput) (n : Nat) : Booting s0 (t.stageWork b n) := by
  obtain ⟨d, w, f, ms, e, _, _, hm⟩ := stageWork_eq t b n
  rw [e]
  exact ⟨h.mem, h.crews, h.staged, fun i h4 h8 => (hm i h4).trans (h.meas i h4 h8), h.dies, h.dtime⟩

/-- The heartbeats that a boot starts with are those of DTIME 0. -/
theorem Booting.passed {s0 t : State} (h : Booting s0 t) (b : BootInput) (n : Nat) : Booting s0 (t.stagePassed b n) := by
  obtain ⟨v, f, ds, e, _, _, hd⟩ := stagePassed_eq t b n
  have dies : ds = [Die.reset, Die.reset] := by
    rcases hd with rfl | rfl
    · exact h.dies
    · rw [h.dies, h.dtime]; rfl
  rw [e]
  exact ⟨h.mem, h.crews, h.staged, h.meas, dies, h.dtime⟩

theorem Booting.withStat {s0 t : State} (h : Booting s0 t) (r : Option (Nat × BootInput)) (w : W64) :
    Booting s0 { t with boot := { t.boot with run := r, stat := w } } := ⟨h.mem, h.crews, h.staged, h.meas, h.dies, h.dtime⟩

theorem Booting.bootStep {s0 t : State} (h : Booting s0 t) : Booting s0 t.bootStep := by
  cases hr : t.boot.run with
  | none => rwa [bootStep_idle hr]
  | some q =>
    obtain ⟨n, b⟩ := q
    by_cases hf : stageFail b (t.stageWork b n).boot.fused n = 0
    · rw [bootStep_passes hr hf]; exact ((h.work b n).passed b n).withStat _ _
    · rw [bootStep_fails hr hf]; exact (h.work b n).withStat _ _

/-- A boot is to run stage `n`, from the second on; it has read the fuses, and from the third on counted the cores. -/
structure BootAt (b : BootInput) (f n : Nat) (t : State) : Prop where
  run : t.boot.run = some (n, b)
  devid : t.devid = b.devid.setWidth 64
  fused : t.boot.fused = f
  cores : n ≠ 2 → Cores b t.boot.stat

/-- A boot has ended with a FAILCODE, or with none. -/
structure BootEnded (b : BootInput) (f code : Nat) (t : State) : Prop where
  run : t.boot.run = none
  devid : t.devid = b.devid.setWidth 64
  fused : t.boot.fused = if code = 0 ∧ b.advance = true then min 64 (max f b.version) else f
  cores : Cores b t.boot.stat
  state : t.boot.stat.toNat % 16 = if code = 0 then 4 else 5
  fail : t.boot.stat.toNat / 2 ^ 8 % 2 ^ 8 = code

theorem BootEnded.bootStep {b : BootInput} {f code : Nat} {t : State} (h : BootEnded b f code t) : BootEnded b f code t.bootStep := by
  rwa [bootStep_idle h.run]

/-- From the second stage on, what a stage does first leaves the device's identity and the counter, and the cores are known. -/
theorem BootAt.work {b : BootInput} {f n : Nat} {t : State} (h : BootAt b f n t) (hn : 2 ≤ n) :
    (t.stageWork b n).devid = b.devid.setWidth 64 ∧ (t.stageWork b n).boot.fused = f ∧ Cores b (t.stageWork b n).boot.stat := by
  obtain ⟨d, w, f', ms, e, hk, hw, _⟩ := stageWork_eq t b n
  obtain ⟨rfl, rfl⟩ := hk (by omega)
  rw [e]
  refine ⟨h.devid, h.fused, ?_⟩
  split at hw
  · exact hw
  · next h2 => exact hw ▸ h.cores h2

theorem BootAt.fails {b : BootInput} {f n : Nat} {t : State} (h : BootAt b f n t) (hn : 2 ≤ n) (hf : stageFail b f n ≠ 0) :
    BootEnded b f (stageFail b f n) t.bootStep := by
  obtain ⟨hd, hv, hc⟩ := h.work hn
  rw [bootStep_fails h.run (by rwa [hv]), hv]
  exact ⟨rfl, hd, by simp [hf, hv], hc.statWith _ _, by simp [hf, statWith_state], statWith_fail _ _ (stageFail_lt b f n)⟩

theorem BootAt.passes {b : BootInput} {f n : Nat} {t : State} (h : BootAt b f n t) (hn : 2 ≤ n) (h5 : n < 5) (hf : stageFail b f n = 0) :
    BootAt b f (n + 1) t.bootStep := by
  obtain ⟨hd, hv, hc⟩ := h.work hn
  obtain ⟨v, f', ds, e, hk, _, _⟩ := stagePassed_eq (t.stageWork b n) b n
  rw [bootStep_passes h.run (by rwa [hv]), e]
  exact ⟨if_pos h5, hd, (hk (by omega)).trans hv, fun _ => hc.statWith _ _⟩

theorem BootAt.ends {b : BootInput} {f : Nat} {t : State} (h : BootAt b f 5 t) (hf : stageFail b f 5 = 0) : BootEnded b f 0 t.bootStep := by
  obtain ⟨hd, hv, hc⟩ := h.work (by decide)
  obtain ⟨v, f', ds, e, _, hk, _⟩ := stagePassed_eq (t.stageWork b 5) b 5
  rw [bootStep_passes h.run (by rwa [hv]), e]
  exact ⟨rfl, hd, by simp [hk, hv], hc.statWith _ _, statWith_state _ _ (by decide), statWith_fail _ _ (by decide)⟩

theorem bootAt_two (s : State) (b : BootInput) : BootAt b (min 64 (max s.boot.fused b.fused)) 2 (s.coldReset b).bootStep :=
  ⟨rfl, rfl, rfl, fun h => absurd rfl h⟩

theorem booting_coldReset (s : State) (b : BootInput) : Booting (s.coldReset b) (s.coldReset b) where
  mem := rfl
  crews := rfl
  staged := rfl
  meas _ _ h8 := List.getElem?_replicate_of_lt h8
  dies := rfl
  dtime := rfl

/-- The FAILCODE of a boot is that of the first stage that fails (R423, R425). -/
theorem failOf_eq (b : BootInput) (f : Nat) :
    failOf b f = if stageFail b f 2 ≠ 0 then stageFail b f 2 else if stageFail b f 3 ≠ 0 then stageFail b f 3
      else if stageFail b f 4 ≠ 0 then stageFail b f 4 else stageFail b f 5 := by
  by_cases h0 : b.cores0 < 264
  · simp [failOf, stageFail, h0]
  by_cases h1 : b.cores1 < 264
  · simp [failOf, stageFail, h0, h1]
  cases hm : b.memOk with
  | false => simp [failOf, stageFail, h0, h1, hm]
  | true =>
    cases hb : b.bridgeOk with
    | false => simp [failOf, stageFail, h0, h1, hm, hb]
    | true =>
      cases hs : imageSigned b with
      | false => simp [failOf, stageFail, h0, h1, hm, hb, hs]
      | true =>
        by_cases hv : b.version < f
        · simp [failOf, stageFail, h0, h1, hm, hb, hs, hv]
        · simp [failOf, stageFail, h0, h1, hm, hb, hs, hv]

theorem bootEnded_coldReset (s : State) (b : BootInput) :
    BootEnded b (min 64 (max s.boot.fused b.fused)) (failOf b (min 64 (max s.boot.fused b.fused)))
      (s.coldReset b).bootStep.bootStep.bootStep.bootStep.bootStep := by
  rw [failOf_eq]
  have a2 := bootAt_two s b
  split_ifs with c2 c3 c4
  · exact (a2.fails (by decide) c2).bootStep.bootStep.bootStep
  · have a3 := a2.passes (by decide) (by decide) (not_not.1 c2)
    exact (a3.fails (by decide) c3).bootStep.bootStep
  · have a4 := (a2.passes (by decide) (by decide) (not_not.1 c2)).passes (by decide) (by decide) (not_not.1 c3)
    exact (a4.fails (by decide) c4).bootStep
  · have a5 := ((a2.passes (by decide) (by decide) (not_not.1 c2)).passes (by decide) (by decide) (not_not.1 c3)).passes (by decide) (by decide)
      (not_not.1 c4)
    by_cases c5 : stageFail b (min 64 (max s.boot.fused b.fused)) 5 = 0
    · rw [c5]; exact a5.ends c5
    · exact a5.fails (by decide) c5

theorem imageSigned_iff (b : BootInput) : imageSigned b = true ↔ Signed b := by
  simp [imageSigned, Signed, and_assoc]

/-- What one turn of the boot does. -/
theorem bootStep_spec {s : State} {n : Nat} {b : BootInput} (h : s.boot.run = some (n, b)) :
    (stageFail b (s.stageWork b n).boot.fused n ≠ 0 → s.bootStep.boot.run = none ∧ s.bootStep.boot.stat.toNat % 16 = 5
        ∧ s.bootStep.boot.stat.toNat / 2 ^ 8 % 2 ^ 8 = stageFail b (s.stageWork b n).boot.fused n)
      ∧ (stageFail b (s.stageWork b n).boot.fused n = 0 → s.bootStep.boot.run = (if n < 5 then some (n + 1, b) else none)
        ∧ s.bootStep.boot.stat.toNat % 16 = stageNext n)
      ∧ s.bootStep.mem = s.mem ∧ s.bootStep.crews = s.crews := by
  obtain ⟨d, w, f, ms, e, _⟩ := stageWork_eq s b n
  by_cases hf : stageFail b (s.stageWork b n).boot.fused n = 0
  · obtain ⟨v, f', ds, e', _⟩ := stagePassed_eq (s.stageWork b n) b n
    rw [bootStep_passes h hf, e', e]
    exact ⟨fun c => absurd (e ▸ hf) c, fun _ => ⟨rfl, statWith_state _ _ (stageNext_lt n)⟩, rfl, rfl⟩
  · rw [bootStep_fails h hf, e]
    exact ⟨fun _ => ⟨rfl, statWith_state _ _ (by decide), statWith_fail _ _ (stageFail_lt b _ n)⟩, fun c => absurd c (e ▸ hf), rfl, rfl⟩

theorem bootRunsInStages : BootRunsInStages := by
  refine ⟨imageSigned_iff, fun s rest h => ?_, fun s h => bootStep_idle h, fun s n b h => ?_, fun s b => ?_⟩
  · unfold step; rw [h]; rfl
  · obtain ⟨hf, hp, hm, hc⟩ := bootStep_spec h
    exact ⟨fun c _ => hf c, hp, hm, hc⟩
  · have k := (booting_coldReset s b).bootStep.bootStep.bootStep.bootStep.bootStep
    have e := bootEnded_coldReset s b
    exact ⟨e.run, e.state, e.fail, e.cores.1, e.cores.2, e.devid, k.staged, e.fused, k.meas, k.dies, k.crews, k.mem⟩

/-! The loss of power. -/

/-- The cells from `c` on hold nothing below, and elsewhere what the map held. -/
theorem get_filter_from {n : Nat} (c : Nat) (m : Sparse n) (a : Nat) :
    Sparse.get (m.filter (fun p => decide (c ≤ p.1))) a = if a < c then 0 else m.get a := by
  induction m with
  | nil => simp [Sparse.get]
  | cons q m ih =>
    obtain ⟨k, v⟩ := q
    by_cases hk : c ≤ k
    · rw [List.filter_cons_of_pos (by simpa using hk)]
      by_cases ha : a < c
      · simp [Sparse.get, ha, show a ≠ k by omega, show a < k by omega]
      · simp [Sparse.get, ih, ha]
    · rw [List.filter_cons_of_neg (by simpa using hk), ih]
      by_cases ha : a < c
      · simp [ha]
      · simp [Sparse.get, ha, show a ≠ k by omega, show ¬ a < k by omega]

theorem powerIsLost : PowerIsLost := by
  intro s b p hp
  have hm : s.mem.wf = true → ∀ a, s.powerLoss.mem.get a = if a < 3 * 2 ^ 52 then 0 else s.mem.get a := fun _ => get_filter_from _ _
  simp only [List.mem_cons, List.not_mem_nil, or_false] at hp
  rcases hp with rfl | rfl
  · exact ⟨s.powerLoss, rfl, rfl, rfl, hm, rfl, rfl, rfl, rfl, rfl, rfl, rfl, rfl, rfl, rfl, rfl, rfl, rfl, rfl, rfl, rfl, rfl, rfl, rfl⟩
  · exact ⟨s.coldReset b, rfl, rfl, rfl, hm, rfl, rfl, rfl, rfl, rfl, rfl, rfl, rfl, rfl, rfl, rfl, rfl, rfl, rfl, rfl, rfl, rfl, rfl, rfl⟩

end Sys2Proof.Machine
end

section
/-! Function reset and the firmware watchdog (R422, R427). -/
namespace Sys2Proof.Machine
open Sys2Proof.Laws Sys2Proof.Claims

/-- Requests dropped at the Irises, and messages to their senders, are all that differs. -/
def Tells (s t : State) : Prop := ∃ ds ms n, t = { s with dies := ds, wire := ms, nextMsg := n }

theorem Tells.refl (s : State) : Tells s s := ⟨_, _, _, rfl⟩

theorem Tells.trans {s t u : State} (h : Tells s t) (h' : Tells t u) : Tells s u := by
  obtain ⟨ds, ms, n, rfl⟩ := h
  obtain ⟨ds', ms', n', rfl⟩ := h'
  exact ⟨ds', ms', n', rfl⟩

theorem tells_modDie (s : State) (die : Nat) (f : Die → Die) : Tells s (s.modDie die f) := ⟨_, _, _, rfl⟩

theorem tells_send (s : State) (past : List Nat) (peer mid : Nat) (body : WireBody) : Tells s (s.workWith past (fun s => s.send peer mid body)) := by
  unfold State.workWith State.asWork State.send; dsimp only; split
  exacts [⟨_, _, _, rfl⟩, ⟨_, _, _, rfl⟩]

theorem tells_foldl {α : Type} {f : State → α → State} (hf : ∀ s x, Tells s (f s x)) (l : List α) (s : State) : Tells s (l.foldl f s) := by
  induction l generalizing s with
  | nil => exact .refl s
  | cons x l ih => exact (hf s x).trans (ih _)

theorem tells_cutReqs (s : State) (die : Nat) : Tells s (s.cutReqs die) :=
  tells_foldl (fun s r => by
    have h : Tells s (s.endReq die r) := tells_modDie s die _
    dsimp only; split
    exacts [h, h.trans (tells_send _ _ _ _ _)]) _ s

@[simp] theorem cutMcast_id (s : State) (o : Op) : (s.cutMcast o).id = o.id := by
  unfold State.cutMcast; split
  · split <;> rfl
  · rfl

@[simp] theorem cutMcast_cells (s : State) (o : Op) : (s.cutMcast o).cells = o.cells := by
  unfold State.cutMcast; split
  · split <;> rfl
  · rfl

theorem outlasts_withdraws {s : State} {o : Op} (h : s.outlasts o = true) : s.withdraws o = false := by
  simp only [State.outlasts, Bool.and_eq_true, Bool.not_eq_true'] at h
  exact h.2

/-- A crew that a function reset has cut has no live thread, and its save is gone. -/
theorem Crew.cut_idle (k : Crew) : k.cut.st ≠ .saved ∧ ∀ w ∈ k.cut.warps, w.liveMask = 0 := by
  constructor
  · unfold Crew.cut; dsimp only; split
    · decide
    · assumption
  · intro w hw
    obtain ⟨v, _, rfl⟩ := List.mem_map.1 hw
    simp [Warp.liveMask, Warp.cut]

/-- STATE after a function reset: RESETTING from READY and from FWFAIL. -/
theorem functionReset_state (s t : State) (ht : t.boot = s.boot) :
    ∃ w, (if s.boot.run = none ∧ (s.bootState = 3 ∨ s.bootState = 4 ∨ s.bootState = 6) then t.setBootState 3 else t)
        = { t with boot := { t.boot with stat := w } }
      ∧ w.toNat % 16 = (if s.boot.run = none ∧ s.boot.stat.toNat % 16 ∈ [3, 4, 6] then 3 else s.boot.stat.toNat % 16) := by
  by_cases hc : s.boot.run = none ∧ (s.bootState = 3 ∨ s.bootState = 4 ∨ s.bootState = 6)
  · refine ⟨_, if_pos hc, ?_⟩
    rw [if_pos (by simpa [State.bootState] using hc)]
    exact setBootState_state t (by decide)
  · refine ⟨t.boot.stat, if_neg hc, ?_⟩
    rw [if_neg (by simpa [State.bootState] using hc), ht]

theorem functionReset_spec (s : State) : ∃ t, exec .functionReset s = .next t ∧ t.windows = List.replicate 64 0 ∧ t.wlock = false ∧ t.queues = []
      ∧ t.jobs = [] ∧ t.msix = [] ∧ t.rings = [] ∧ t.heldUpds = [] ∧ t.withdrawn = []
      ∧ (∀ o ∈ t.ops, ∃ p ∈ s.ops, p.id = o.id ∧ s.withdraws p = false)
      ∧ t.dtime = s.dtime ∧ t.devid = s.devid ∧ t.boot.meas = s.boot.meas ∧ t.boot.ports = s.boot.ports ∧ t.crews = s.crews.map Crew.cut
      ∧ (∀ k ∈ t.crews, k.st ≠ .saved ∧ ∀ w ∈ k.warps, w.liveMask = 0) ∧ (∀ o ∈ t.ops, ∀ c ∈ o.cells, keyTgt c.key ≠ 3)
      ∧ t.boot.stat.toNat % 16 = (if s.boot.run = none ∧ s.boot.stat.toNat % 16 ∈ [3, 4, 6] then 3 else s.boot.stat.toNat % 16) := by
  refine ⟨s.functionReset, rfl, ?_⟩
  unfold State.functionReset
  extract_lets s1 s2
  have e1 : Tells s s1 := tells_foldl tells_cutReqs [0, 1] s
  clear_value s1
  obtain ⟨ds, ms, n, rfl⟩ := e1
  obtain ⟨w, e, hw⟩ := functionReset_state s s2 rfl
  rw [e]
  refine ⟨rfl, rfl, rfl, rfl, rfl, rfl, rfl, rfl, fun o ho => ?_, rfl, rfl, rfl, rfl, rfl, fun k hk => ?_, fun o ho c hc => ?_, hw⟩
  · obtain ⟨p, hp, rfl⟩ := List.mem_map.1 ho
    obtain ⟨hm, hl⟩ := List.mem_filter.1 hp
    exact ⟨p, hm, by simp [Op.cutHost], outlasts_withdraws hl⟩
  · obtain ⟨k, _, rfl⟩ := List.mem_map.1 hk
    exact k.cut_idle
  · obtain ⟨p, _, rfl⟩ := List.mem_map.1 ho
    rw [cutMcast_cells] at hc
    simpa using (List.mem_filter.1 hc).2

/-! The end of a function reset. -/

theorem functionResetDone_waits {s : State}
    (h : s.boot.stat.toNat % 16 ≠ 3 ∨ s.boot.run ≠ none ∨ (s.liveSlot = none ∧ s.ops ≠ [])) : s.functionResetDone = s := by
  unfold State.functionResetDone
  by_cases hc : s.bootState ≠ 3 ∨ s.boot.run ≠ none
  · exact if_pos hc
  · obtain ⟨hl, ho⟩ := (or_assoc.2 h).resolve_left hc
    rw [if_neg hc, hl]
    exact if_pos ho

theorem functionResetDone_live {s : State} {p : Nat × Nat} (h3 : s.boot.stat.toNat % 16 = 3) (hr : s.boot.run = none) (hl : s.liveSlot = some p) :
    s.functionResetDone = s.cutSeq p.1 p.2 := by
  unfold State.functionResetDone
  rw [if_neg (by simp [State.bootState, h3, hr]), hl]

theorem rcState_liveSlot {s : State} {p : Nat × Nat} (h : s.liveSlot = some p) : rcState (s.recOf p.1 p.2) ≠ 0 := by
  simpa using List.find?_some h

theorem functionResetDone_ends {s : State} (h3 : s.boot.stat.toNat % 16 = 3) (hr : s.boot.run = none) (hl : s.liveSlot = none) (ho : s.ops = []) :
    s.functionResetDone = ({ s with
      crews := s.crews.map (fun k => { k with st := .ended }), steps := [], wins := [], redgrps := [], saves := [], roots := []
      xlat := [], xfers := [], dies := s.dies.map Die.clear } : State).setBootState 4 := by
  unfold State.functionResetDone
  rw [if_neg (by simp [State.bootState, h3, hr]), hl]
  exact if_neg (not_not.2 ho)

theorem functionResets : FunctionResets := by
  refine ⟨functionReset_spec, fun s h3 hr hl ho => ⟨s.functionResetDone, rfl, ?_⟩, fun s p h3 hr hl => ⟨rcState_liveSlot hl, ?_⟩,
    fun s h => ?_⟩
  · rw [functionResetDone_ends h3 hr hl ho]
    refine ⟨setBootState_state _ (by decide), rfl, rfl, rfl, rfl, rfl, rfl, fun k hk => ?_, fun d hd => ?_⟩
    · obtain ⟨k, _, rfl⟩ := List.mem_map.1 hk
      rfl
    · obtain ⟨d, _, rfl⟩ := List.mem_map.1 hd
      exact ⟨rfl, rfl⟩
  · exact congrArg _ (functionResetDone_live h3 hr hl)
  · exact congrArg _ (functionResetDone_waits h)

/-! The firmware watchdog. -/

theorem silent_eq {s : State} {die : Nat} {d : Die} (h : s.dies[die]? = some d) :
    s.silent die = d.beats.any (fun t => decide (t + 10000000 ≤ s.dtime)) := by
  unfold State.silent; rw [h]

theorem watchdog_stops {s : State} {die : Nat} (hd : die < 2) (hr : s.boot.run = none) (hs : s.boot.stat.toNat % 16 ∈ [3, 4, 6])
    (hq : s.silent die = true) :
    s.watchdog die = { s.modDie die (fun d => { d with stopped := true }) with boot := { s.boot with stat := statWith s.boot.stat 6 7 } } := by
  unfold State.watchdog
  exact if_pos ⟨hd, hr, by simpa [State.bootState] using hs, hq⟩

theorem watchdog_waits {s : State} {die : Nat}
    (h : s.boot.run ≠ none ∨ s.boot.stat.toNat % 16 ∉ [3, 4, 6] ∨ s.silent die = false) : s.watchdog die = s := by
  unfold State.watchdog
  refine if_neg fun ⟨_, hr, hs, hq⟩ => ?_
  rcases h with h | h | h
  · exact h hr
  · exact h (by simpa [State.bootState] using hs)
  · rw [h] at hq; cases hq

/-- A die that is stopped serves nobody (R427). -/
theorem serves_stopped {s : State} {die : Nat} {d : Die} (h : s.dies[die]? = some d) (hd : d.stopped = true) : s.serves die = false := by
  simp [State.serves, h, hd]

theorem silentFirmwareStops : SilentFirmwareStops := by
  refine ⟨fun s die core rest h => ?_, fun s die d hd e hr hs hb => ⟨s.watchdog die, rfl, ?_⟩, fun s die d e h => ?_⟩
  · unfold step; rw [h]; rfl
  · have hq : s.silent die = true := by rw [silent_eq e]; simpa using hb
    have stopped : (s.modDie die (fun d => { d with stopped := true })).dies[die]? = some { d with stopped := true } := by simp [modAt_get, e]
    rw [watchdog_stops hd hr hs hq]
    exact ⟨statWith_state _ _ (by decide), statWith_fail _ _ (by decide), rfl, stopped, serves_stopped stopped rfl⟩
  · refine congrArg _ (watchdog_waits ?_)
    rcases h with h | h | h
    · exact .inl h
    · exact .inr (.inl h)
    · refine .inr (.inr ?_)
      rw [silent_eq e]
      simpa using h

/-- Settles O49: power loss by the fields that the reset state gives; the boot by the end of each of its stages, in order; function reset by what
dropping requests can change; the watchdog by its guard. -/
theorem resetsAndBoot : Obligations.ResetsAndBoot := ⟨powerIsLost, bootRunsInStages, functionResets, silentFirmwareStops⟩

end Sys2Proof.Machine
end

section
/-! Number formats (R25 to R29) and round_q (R31): a code by its fields, and the rounding of a quotient of naturals. -/
namespace Sys2Proof.Machine
open Sys2Proof.Laws Sys2Proof.Claims

section Fields
variable {f eb mb lc E m : Nat} {bias emin : Int} {inf neg : Bool} {lv : ℚ}

/-- The model's parameters of a format are those of its row of R25. -/
theorem floatRow_params (h : FloatRow f eb mb bias emin inf lc lv) :
    fmtP f = mb + 1 ∧ fmtEmin f = emin ∧ fmtBias f = bias ∧ fmtMant f = mb ∧ fmtWidth f = eb + mb + 1 ∧ fmtHasInf f = inf := by
  cases h <;> decide

theorem floatRow_float (h : FloatRow f eb mb bias emin inf lc lv) : fmtIsInt f = false ∧ f ≠ 12 ∧ f ≠ 13 := by
  cases h <;> decide

/-- The code of a sign, an exponent field and a mantissa field. -/
def fieldCode (eb mb : Nat) (neg : Bool) (E m : Nat) : Nat := (if neg then 2 ^ (eb + mb) else 0) + E * 2 ^ mb + m

theorem magnitude_lt (hE : E < 2 ^ eb) (hm : m < 2 ^ mb) : E * 2 ^ mb + m < 2 ^ (eb + mb) := by
  rw [pow_add]; nlinarith

theorem fieldCode_lt (hE : E < 2 ^ eb) (hm : m < 2 ^ mb) : fieldCode eb mb neg E m < 2 ^ (eb + mb + 1) := by
  have := magnitude_lt hE hm
  unfold fieldCode; split <;> omega

theorem fieldCode_sign (hE : E < 2 ^ eb) (hm : m < 2 ^ mb) : decide (2 ^ (eb + mb) ≤ fieldCode eb mb neg E m) = neg := by
  have := magnitude_lt hE hm
  cases neg <;> simp [fieldCode] <;> omega

theorem fieldCode_magnitude (hE : E < 2 ^ eb) (hm : m < 2 ^ mb) : fieldCode eb mb neg E m % 2 ^ (eb + mb) = E * 2 ^ mb + m := by
  have := magnitude_lt hE hm
  cases neg <;> simp [fieldCode, add_assoc, Nat.mod_eq_of_lt this]

theorem magnitude_exponent (hm : m < 2 ^ mb) : (E * 2 ^ mb + m) / 2 ^ mb = E := by
  rw [mul_comm, Nat.mul_add_div (by positivity), Nat.div_eq_of_lt hm, add_zero]

theorem magnitude_mantissa (hm : m < 2 ^ mb) : (E * 2 ^ mb + m) % 2 ^ mb = m := by
  rw [Nat.mul_add_mod_self_right, Nat.mod_eq_of_lt hm]

/-- The number, infinity or NaN that the three fields of a code stand for (R25). -/
theorem decodeFmt_fields (h : FloatRow f eb mb bias emin inf lc lv) (hE : E < 2 ^ eb) (hm : m < 2 ^ mb) :
    decodeFmt f (fieldCode eb mb neg E m) = if inf = true ∧ E = 2 ^ eb - 1 then (if m = 0 then .inf neg else .nan)
      else if f = 3 ∧ E * 2 ^ mb + m = 0x7F then .nan
      else if E = 0 then .fin neg m (emin - mb) else .fin neg (2 ^ mb + m) (E - bias - mb) := by
  obtain ⟨hp, hemin, hbias, hmant, hw, hinf⟩ := floatRow_params h
  obtain ⟨hint, h12, h13⟩ := floatRow_float h
  have he : eb + mb - mb = eb := by omega
  simp only [decodeFmt, hint, h12, h13, hp, hemin, hbias, hmant, hw, hinf, Nat.add_sub_cancel, he, Nat.mod_eq_of_lt (fieldCode_lt hE hm),
    fieldCode_sign hE hm, fieldCode_magnitude hE hm, magnitude_exponent hm, magnitude_mantissa hm, Bool.false_eq_true, if_false]
  have (x : Int) : x - (mb + 1) + 1 = x - mb := by omega
  simp only [this]

/-- The NaN of E4M3 has all exponent and mantissa bits set (R25). -/
theorem e4m3_nan_iff (h : FloatRow f eb mb bias emin inf lc lv) (hm : m < 2 ^ mb) :
    f = 3 ∧ E * 2 ^ mb + m = 0x7F ↔ f = 3 ∧ E = 15 ∧ m = 7 := by
  refine and_congr_right fun hf => ?_
  subst hf
  cases h
  omega

/-- A normal number: the hidden bit and the fraction, scaled. -/
theorem normal_value (x : Int) : ((2 ^ mb + m : Nat) : ℚ) * 2 ^ (x - mb) = (1 + (m : ℚ) * 2 ^ (-(mb : Int))) * 2 ^ x := by
  have : (2 : ℚ) ^ mb ≠ 0 := by positivity
  rw [zpow_sub₀ two_ne_zero, zpow_neg, zpow_natCast]
  push_cast
  field_simp

/-- A subnormal or normal number by its fields. -/
theorem value_finite : value (if E = 0 then .fin neg m (emin - mb) else .fin neg (2 ^ mb + m) (E - bias - mb))
    = some (floatValue mb bias emin neg E m) := by
  by_cases h0 : E = 0
  · simp [value, floatValue, h0]
  · rw [if_neg h0, floatValue, if_neg h0, ← normal_value, value, mul_assoc]

theorem decodeFmt_special (h : FloatRow f eb mb bias emin inf lc lv) (hm : m < 2 ^ mb) (hi : inf = true) (hE : E = 2 ^ eb - 1) :
    decodeFmt f (fieldCode eb mb neg E m) = if m = 0 then .inf neg else .nan := by
  rw [decodeFmt_fields h (by have := Nat.two_pow_pos eb; omega) hm, if_pos ⟨hi, hE⟩]

theorem decodeFmt_e4m3_nan (h : FloatRow f eb mb bias emin inf lc lv) (hf : f = 3) : decodeFmt f (fieldCode eb mb neg 15 7) = .nan := by
  subst hf
  cases h
  cases neg <;> decide

theorem value_fields (h : FloatRow f eb mb bias emin inf lc lv) (hE : E < 2 ^ eb) (hm : m < 2 ^ mb) (hi : inf = false ∨ E ≠ 2 ^ eb - 1)
    (h3 : ¬(f = 3 ∧ E = 15 ∧ m = 7)) : value (decodeFmt f (fieldCode eb mb neg E m)) = some (floatValue mb bias emin neg E m) := by
  rw [decodeFmt_fields h hE hm, if_neg (by rcases hi with hi | hi <;> simp [hi]), if_neg (mt (e4m3_nan_iff h hm).1 h3)]
  exact value_finite

/-- The code of the smallest subnormal is 1. -/
theorem value_one (h : FloatRow f eb mb bias emin inf lc lv) : value (decodeFmt f 1) = some (2 ^ (emin - mb)) := by
  have hf : 0 < 2 ^ eb ∧ 1 < 2 ^ mb ∧ 0 ≠ 2 ^ eb - 1 := by cases h <;> decide
  obtain ⟨hE, hm, hi⟩ := hf
  simpa [fieldCode, floatValue] using value_fields (neg := false) h hE hm (.inr hi) (by omega)

theorem value_largest (h : FloatRow f eb mb bias emin inf lc lv) : value (decodeFmt f lc) = some lv := by
  have hc : lc = fieldCode eb mb false (lc / 2 ^ mb) (lc % 2 ^ mb) := by simp [fieldCode, Nat.div_add_mod']
  have hl : lc / 2 ^ mb < 2 ^ eb ∧ (inf = false ∨ lc / 2 ^ mb ≠ 2 ^ eb - 1) ∧ ¬(f = 3 ∧ lc / 2 ^ mb = 15 ∧ lc % 2 ^ mb = 7) := by
    cases h <;> decide
  obtain ⟨hE, hi, h3⟩ := hl
  rw [hc, value_fields h hE (Nat.mod_lt _ (Nat.two_pow_pos _)) hi h3]
  cases h <;> norm_num [floatValue]

end Fields

theorem fmtWidth_pos (f : Nat) : 0 < fmtWidth f := by
  unfold fmtWidth; split <;> decide

/-- The code of a signed integer format is two's complement (R29). -/
theorem value_signed {f : Nat} (hint : fmtIsInt f = true) (h9 : f ≠ 9) (c : Nat) :
    value (decodeFmt f c) = some ((BitVec.ofNat (fmtWidth f) c).toInt : ℚ) := by
  have hpow := mul_pow_sub_one (fmtWidth_pos f).ne' 2
  have hlt := Nat.mod_lt c (Nat.two_pow_pos (fmtWidth f))
  rw [decodeFmt, if_pos hint, BitVec.toInt_eq_toNat_cond, BitVec.toNat_ofNat]
  dsimp only
  generalize c % 2 ^ fmtWidth f = u at hlt ⊢
  by_cases hc : 2 ^ (fmtWidth f - 1) ≤ u
  · rw [if_pos ⟨h9, hc⟩, if_neg (by omega)]
    simp [value, Nat.cast_sub hlt.le]
  · rw [if_neg (fun h => hc h.2), if_pos (by omega)]
    simp [value]

theorem value_unsigned {c : Nat} (h : c < 2 ^ 8) : value (decodeFmt 9 c) = some (c : ℚ) := by
  have hc : c % 256 = c := Nat.mod_eq_of_lt h
  simp [decodeFmt, fmtIsInt, fmtWidth, value, hc]

theorem value_ue8m0 {c : Nat} (h : c < 255) : value (decodeFmt 12 c) = some (2 ^ ((c : Int) - 127)) := by
  have hc : c % 256 = c := Nat.mod_eq_of_lt (by omega)
  simp [decodeFmt, fmtIsInt, value, hc, h.ne]

/-- A UE4M3 scale by its fields (R26). -/
theorem decodeFmt_ue4m3 {E m : Nat} (hE : E < 16) (hm : m < 8) :
    decodeFmt 13 (8 * E + m) = if E = 15 ∧ m = 7 then .nan
      else if E = 0 then .fin false m (-14 - (3 : Nat)) else .fin false (2 ^ 3 + m) (E - 15 - (3 : Nat)) := by
  have hu : (8 * E + m) % 256 = 8 * E + m := by omega
  have hnan : 8 * E + m = 0x7F ∨ 128 ≤ 8 * E + m ↔ E = 15 ∧ m = 7 := by omega
  have hdiv : (8 * E + m) / 8 = E := by omega
  have hmod : (8 * E + m) % 8 = m := by omega
  simp only [decodeFmt, hu, hnan, hdiv, hmod, sub_sub]
  rfl

theorem value_ue4m3 {E m : Nat} (hE : E < 16) (hm : m < 8) :
    value (decodeFmt 13 (8 * E + m)) = if E = 15 ∧ m = 7 then none else some (floatValue 3 15 (-14) false E m) := by
  rw [decodeFmt_ue4m3 hE hm]
  split
  · rfl
  · exact value_finite

theorem decodeFmt_ue4m3_nan {c : Nat} (h : 128 ≤ c) (hc : c < 256) : decodeFmt 13 c = .nan := by
  simp [decodeFmt, fmtIsInt, Nat.mod_eq_of_lt hc, h]

/-- An integer format has the unit for its last place (R31). -/
theorem ulpExp_int {f : Nat} (h : fmtIsInt f = true) (m : Nat) (e : Int) : ulpExp f m e = 0 := if_pos h

/-! The quanta of round_q (R31): a natural where the quantum is at or below the last bit, else a quotient of naturals. -/

theorem pow2_pos (k : Int) : 0 < pow2 k := Nat.two_pow_pos _

theorem cast_pow2 {k : Int} (h : 0 ≤ k) : (pow2 k : ℚ) = 2 ^ k := by
  obtain ⟨n, rfl⟩ := Int.eq_ofNat_of_zero_le h
  simp [pow2]

theorem quanta_of_le (m : Nat) {e k : Int} (h : k ≤ e) : (m : ℚ) * 2 ^ e / 2 ^ k = (m * pow2 (e - k) : Nat) := by
  rw [Nat.cast_mul, cast_pow2 (by omega), zpow_sub₀ two_ne_zero, mul_div_assoc]

theorem quanta_of_lt (m : Nat) {e k : Int} (h : e < k) : (m : ℚ) * 2 ^ e / 2 ^ k = (m : ℚ) / pow2 (k - e) := by
  rw [cast_pow2 (by omega), zpow_sub₀ two_ne_zero, div_div_eq_mul_div]

theorem not_roundsUp_zero {mode n : Nat} {neg : Bool} : ¬roundsUp mode neg n 0 := by
  norm_num [roundsUp]

/-- The up decision on the fraction r / d, without division. -/
theorem roundsUp_div {mode n r d : Nat} {neg : Bool} (hd : 0 < d) : roundsUp mode neg n ((r : ℚ) / d) ↔
    (mode = 0 ∧ (d < 2 * r ∨ (2 * r = d ∧ n % 2 = 1))) ∨ (mode = 4 ∧ d ≤ 2 * r) ∨ (mode = 2 ∧ 0 < r ∧ neg = false)
      ∨ (mode = 3 ∧ 0 < r ∧ neg = true) ∨ (mode = 5 ∧ 0 < r ∧ n % 2 = 0) := by
  have hq : (0 : ℚ) < d := by exact_mod_cast hd
  have above : (1 / 2 : ℚ) < r / d ↔ d < 2 * r := by
    rw [div_lt_div_iff₀ two_pos hq, one_mul, mul_comm]; exact_mod_cast Iff.rfl
  have half : (r / d : ℚ) = 1 / 2 ↔ 2 * r = d := by
    rw [div_eq_div_iff hq.ne' two_ne_zero, one_mul, mul_comm]; exact_mod_cast Iff.rfl
  have atLeast : (1 / 2 : ℚ) ≤ r / d ↔ d ≤ 2 * r := by
    rw [div_le_div_iff₀ two_pos hq, one_mul, mul_comm]; exact_mod_cast Iff.rfl
  have pos : (0 : ℚ) < r / d ↔ 0 < r := by simp [hq]
  simp only [roundsUp, above, half, atLeast, pos]

/-- Below the quantum, round_q gives the quotient, or one more where the mode rounds up. -/
theorem roundQ_of_lt {neg : Bool} {m mode : Nat} {e k : Int} (h : e < k) (hm : mode < 6) :
    let d := pow2 (k - e)
    (roundsUp mode neg (m / d) ((m % d : Nat) / d) → roundQ neg m e k mode = m / d + 1)
      ∧ (¬roundsUp mode neg (m / d) ((m % d : Nat) / d) → roundQ neg m e k mode = m / d) := by
  simp only [roundsUp_div (pow2_pos _), roundQ, if_neg (not_le.2 h)]
  interval_cases mode <;> simp
  -- RNE: below, above or at one half
  omega

/-- round_q on the exact value: its floor, or one more where the mode rounds the rest up (R31). -/
theorem roundQ_spec (neg : Bool) (m : Nat) (e k : Int) {mode : Nat} (hm : mode < 6) :
    let x : ℚ := (m : ℚ) * 2 ^ e / 2 ^ k
    let n := ⌊x⌋₊
    (roundsUp mode neg n (x - n) → roundQ neg m e k mode = n + 1) ∧ (¬roundsUp mode neg n (x - n) → roundQ neg m e k mode = n) := by
  rcases le_or_gt k e with h | h
  · have hq : roundQ neg m e k mode = m * pow2 (e - k) := if_pos h
    simp only [quanta_of_le m h, Nat.floor_natCast, sub_self]
    exact ⟨fun hu => absurd hu not_roundsUp_zero, fun _ => hq⟩
  · have rest : (m : ℚ) / pow2 (k - e) - (m / pow2 (k - e) : Nat) = (m % pow2 (k - e) : Nat) / pow2 (k - e) := by
      rw [← Int.fract_div_natCast_eq_div_natCast_mod, ← Int.self_sub_floor, ← natCast_floor_eq_intCast_floor (by positivity),
        Nat.floor_div_eq_div]
    simp only [quanta_of_lt m h, Nat.floor_div_eq_div, rest]
    exact roundQ_of_lt h hm

/-- Settles O60: a float by its fields, where the rows of R25 differ in their parameters only; an integer by its width; round_q by the quotient
and remainder of naturals that the exact value is. -/
theorem formatValues : Obligations.FormatValues := by
  refine ⟨fun f eb mb bias emin inf lc lv h => ?_, fun c => value_ue8m0, rfl, rfl, rfl, fun E hE m => value_ue4m3 hE,
    fun c => decodeFmt_ue4m3_nan, fun c _ => value_signed (f := 8) rfl (by decide) c, fun c => value_unsigned,
    fun c _ => value_signed (f := 10) rfl (by decide) c, fun c _ => value_signed (f := 11) rfl (by decide) c,
    fun f hf m e => ulpExp_int ((by decide : ∀ f ∈ [8, 9, 10, 11], fmtIsInt f = true) f hf) m e, fun neg m e k mode => roundQ_spec neg m e k⟩
  obtain ⟨hp, hemin, -⟩ := floatRow_params h
  refine ⟨hp, hemin, value_largest h, value_one h, fun neg E m hE hm => ⟨decodeFmt_special h hm, ?_, value_fields h hE hm⟩⟩
  rintro hf rfl rfl
  exact decodeFmt_e4m3_nan h hf

end Sys2Proof.Machine
end

section
/-! Products (R44 to R47, R255, R259): the cells a product writes, and what a fold of writes leaves in a store. -/
namespace Sys2Proof.Machine
open Sys2Proof.Laws

/-- A fold of writes leaves at a key that some of them write the value on which all that write it agree. -/
theorem get_foldl_set {α : Type} {n : Nat} {key : α → Nat} {val : α → BitVec n} {x : Nat} {v : BitVec n} {l : List α}
    (agree : ∀ p ∈ l, key p = x → val p = v) {m : Sparse n} (hm : m.wf = true) (h : m.get x = v ∨ ∃ p ∈ l, key p = x) :
    (l.foldl (fun m p => m.set (key p) (val p)) m).get x = v := by
  induction l generalizing m with
  | nil => simpa using h
  | cons p l ih =>
    obtain ⟨head, tail⟩ := List.forall_mem_cons.1 agree
    refine ih tail (set_wf hm) ?_
    rw [get_set hm]
    by_cases hx : x = key p
    · exact .inl ((if_pos hx).trans (head hx.symm))
    · rw [if_neg hx]
      exact h.imp_right fun h => ((List.exists_mem_cons_iff ..).1 h).resolve_left (Ne.symm hx)

/-- The elements (i, j) that a product updates: each row of A that is valid with each row of B (R255, R259). -/
def productCells (ta tb : BitVec 128) (valid : W64) : List (Nat × Nat) :=
  ((List.range (tdRows ta)).filter (fun i => valid.getLsbD i)).flatMap (fun i => (List.range (tdRows tb)).map (fun j => (i, j)))

@[simp] theorem mem_productCells {ta tb : BitVec 128} {valid : W64} {i j : Nat} :
    (i, j) ∈ productCells ta tb valid ↔ (i < tdRows ta ∧ valid.getLsbD i = true) ∧ j < tdRows tb := by
  simp [productCells]

/-- The elements after the updates of the given cells. -/
def productElems (ka kb : Crew) (ta tb : BitVec 128) (mat : Bool) (cells : List (Nat × Nat)) (old : Sparse 32) : Sparse 32 :=
  cells.foldl (fun m p => m.set (64 * p.1 + p.2) (dotAcc ka kb ta tb mat (old.get (64 * p.1 + p.2)) p.1 p.2)) old

/-- A tile has at most 64 rows (R246). -/
theorem tdRows_le (t : BitVec 128) : tdRows t ≤ 64 := by
  unfold tdRows bitsOf; omega

section Product
variable {ka kb : Crew} {ta tb : BitVec 128} {mat : Bool} {valid : W64} {a b : Acc}

/-- The valid rows of A. -/
theorem mem_validRows {i : Nat} : i ∈ (List.range (tdRows ta)).filter (fun i => valid.getLsbD i) ↔ i < tdRows ta ∧ valid.getLsbD i = true := by
  simp

/-- A product writes nothing exactly where one of its cells consumes a poisoned element (R259). -/
theorem product_eq_none_iff : product ka kb ta tb mat valid a = none ↔
    ∃ i, i < tdRows ta ∧ valid.getLsbD i = true ∧ (tileRowBad ka ta i = true
      ∨ ∃ j, j < tdRows tb ∧ (tileRowBad kb tb j = true ∨ a.poison.get (64 * i + j) ≠ 0)) := by
  have guard : product ka kb ta tb mat valid a = none ↔
      ((∃ i, (i < tdRows ta ∧ valid.getLsbD i = true) ∧ tileRowBad ka ta i = true)
        ∨ ((∃ i, i < tdRows ta ∧ valid.getLsbD i = true) ∧ ∃ j, j < tdRows tb ∧ tileRowBad kb tb j = true))
        ∨ ∃ p ∈ productCells ta tb valid, a.poison.get (64 * p.1 + p.2) ≠ 0 := by
    simp only [product, productCells, ite_eq_left_iff, reduceCtorEq, imp_false, not_not, Bool.or_eq_true, Bool.and_eq_true, List.any_eq_true,
      Bool.not_eq_true', List.isEmpty_eq_false_iff_exists_mem, mem_validRows, List.mem_range, decide_eq_true_eq]
  rw [guard]
  constructor
  · rintro ((⟨i, ⟨hi, hv⟩, hA⟩ | ⟨⟨i, hi, hv⟩, j, hj, hB⟩) | ⟨⟨i, j⟩, hc, hp⟩)
    · exact ⟨i, hi, hv, .inl hA⟩
    · exact ⟨i, hi, hv, .inr ⟨j, hj, .inl hB⟩⟩
    · obtain ⟨⟨hi, hv⟩, hj⟩ := mem_productCells.1 hc
      exact ⟨i, hi, hv, .inr ⟨j, hj, .inr hp⟩⟩
  · rintro ⟨i, hi, hv, hA | ⟨j, hj, hB | hp⟩⟩
    · exact .inl (.inl ⟨i, ⟨hi, hv⟩, hA⟩)
    · exact .inl (.inr ⟨⟨i, hi, hv⟩, j, hj, hB⟩)
    · exact .inr ⟨(i, j), mem_productCells.2 ⟨⟨hi, hv⟩, hj⟩, hp⟩

theorem product_eq_some (h : product ka kb ta tb mat valid a = some b) :
    b = { a with elems := productElems ka kb ta tb mat (productCells ta tb valid) a.elems } := by
  unfold product at h
  dsimp only at h
  split at h
  · cases h
  · exact (Option.some.inj h).symm

theorem productOn_mask {s : State} {ci acc : Nat} {scaled : Bool} {rows : State → Crew → Rows} (hp : pairOk scaled ta tb = true)
    (hk : s.crews[ci]? = some ka) (ha : s.acc? ci acc = some a) (hr : rows s ka = .mask valid) :
    productOn s ci (some kb) scaled ta tb mat acc rows
      = (match product ka kb ta tb mat valid a with | some b => .done (s.setAcc ci acc b) | none => .fault ⟨3, 0⟩) := by
  cases h : product ka kb ta tb mat valid a <;> simp [productOn, hp, hk, ha, hr, h]

/-- A cell of the product gets every group's contribution onto its old value. -/
theorem productElems_cell {i j : Nat} {old : Sparse 32} (hm : old.wf = true) (hi : i < tdRows ta) (hj : j < tdRows tb) (hv : valid.getLsbD i = true) :
    (productElems ka kb ta tb mat (productCells ta tb valid) old).get (64 * i + j) = dotAcc ka kb ta tb mat (old.get (64 * i + j)) i j := by
  refine get_foldl_set (fun (p, q) hp he => ?_) hm (.inr ⟨(i, j), mem_productCells.2 ⟨⟨hi, hv⟩, hj⟩, rfl⟩)
  have hq := (mem_productCells.1 hp).2
  have := tdRows_le tb
  obtain ⟨rfl, rfl⟩ : p = i ∧ q = j := by omega
  rfl

/-- An element of no valid row, or beyond the rows of B, stays. -/
theorem productElems_other {i j : Nat} {old : Sparse 32} (hm : old.wf = true) (hj : j < 64)
    (h : valid.getLsbD i = false ∨ tdRows ta ≤ i ∨ tdRows tb ≤ j) :
    (productElems ka kb ta tb mat (productCells ta tb valid) old).get (64 * i + j) = old.get (64 * i + j) := by
  refine get_foldl_set (fun (p, q) hp he => ?_) hm (.inl rfl)
  obtain ⟨⟨hi, hv⟩, hq⟩ := mem_productCells.1 hp
  have := tdRows_le tb
  obtain ⟨rfl, rfl⟩ : p = i ∧ q = j := by omega
  rcases h with h | h | h
  · rw [hv] at h; cases h
  · omega
  · omega

end Product

/-- Settles O24: a product is one write per cell of `productCells`, and no two cells share a key, since a tile has at most 64 rows. -/
theorem productsAccumulate : Obligations.ProductsAccumulate :=
  ⟨fun _ _ _ _ _ _ _ => product_eq_none_iff, fun _ _ _ _ _ _ _ _ _ _ _ _ hp hk ha hr => productOn_mask hp hk ha hr,
    fun ka kb ta tb mat valid a b h hm => by
      obtain rfl := product_eq_some h
      exact ⟨rfl, rfl, fun i j hi hj hv => productElems_cell hm hi hj hv, fun i j hj h => productElems_other hm hj h⟩⟩

end Sys2Proof.Machine
end

section
/-! The round trip of every encoding (R49 to R68), from the lemma of each constructor. -/
namespace Sys2Proof.Laws.RoundTrip

/-- The round trip of every instruction, by its constructor. -/
theorem statement (i : Instr) : Statement i :=
  i.casesOn
    nop_16 mov_16 iaddI32_16 isubI32_16 and_16 or_16 xor_16 shl_16 shrUi32_16 shrI32_16 iminI32_16 imaxI32_16 faddF32_16 fsubF32_16
    fmulF32_16 fminF32_16 fmaxF32_16 iaddI32 iaddI32Sat isubI32 isubI32Sat imulI32 imulhI32 imadI32 imadI32Vc iminI32 iminUi32 imaxI32
    imaxUi32 and or xor shl shrUi32 shrI32 sel mov movLane clz popc icmpI32 icmpUi32 iaddi andi ori xori shli shri shriA movi icmpi icmpiU
    iaddP16 iaddP16Sat isubP16 isubP16Sat imulP16 imulhP16 iminP16 imaxP16 vacsP16 vacsP16Max shlP16 shrP16 topk sample stopchk faddF32
    fsubF32 fmulF32 ffmaF32 ffmaF32Vc fminF32 fminF32Nan fmaxF32 fmaxF32Nan fcmpF32 fcpys fneg fabs frint rcp rsq sqrt ex2 lg2 sin cos tanh
    fdivF32 cvt cvtI32 cvtUi32 pack unpack quant ropeCos ropeSin smxupd smxupdSum shflIdx shflIdxImm shflUp shflUpImm shflDn shflDnImm
    shflXor shflXorImm bcastFirst bcast red redw scan scanEx sscan sscanEx ballot ballotM mand mor mxor mnot mpopc vtosFirst vtos stov
    stovHi sete setf tstf sadd ssub smul smulh smulhu sand sor sxor sshl sshr ssar smin smax sminu smaxu sseq ssne sslt ssltu ssle ssleu
    sclz spopc saddi sandi sori sxori sshli sshri sshriA smovi smovhi mxglostRead csrr csrw sslti ldB8 ldS8 ldB16 ldS16 ldB32 ldB64 ldB128
    stB8 stB16 stB32 stB64 stB128 stN4 stN6 ldAcqB32 ldAcqB64 stRelB32 stRelB64 atomB32 atomB64 pf spldB8 spldB16 spldB32 spldB64 spldB128
    spstB8 spstB16 spstB32 spstB64 spstB128 spstN4 spstN6 stimg ldimg sld sst br brs call loop jmpx ret trap tretJmp join leave lookup
    tagset tagclr lnclr lnset barinit barinitCoh arrive arriveN expect waitb barq superstep phaseRel phaseAcq tcfg tld tst mma mmas aclr
    adrainSp adrainG adrainV forkM forkC forkMc rdvz shld shset copy rednet get ratom put sqadm tokfb seqret launch kvgather kvappend pgreq
    gather scatter mcast mmag neterrWrite cpfaultWrite mxfaultWrite nop exit tret tretSkip fenceLd fenceSt fenceAll seqend pgreqShare
    pgreqRelease pgreqPin pgreqUnpin pgreqFetch pgreqRequant producerFill scalarProducerFill storeAccept atomicUnitExecute crewPlace crewEnd
    sequencerContextEnd sequencerTrapEnd stepTimeout mmaComplete aclrComplete adrainComplete tldComplete tstComplete mmagSliceComplete
    copyPart kvgatherDelivery kvappendWrite pageWaitTimeout evictionStart evictionCopyEnd fetchCopyEnd copyOnWriteEnd batchFormation
    sequenceSweep iterationGraphComplete iterationEnd feedbackWaitExpiry inboundWithdraw queueDoorbell qcreate qdestroy qdestroyComplete
    qreset ctxset inval invalComplete peconfig sqconfig sgassign ringset winset redset irisset saveset ctxpreempt ctxresume attest pwrset
    devset mextend repairset mgmtUnknownCommand launchPacket graphPacket signalPacket barrierAnd barrierOr barrierPacketPoll copyPacket
    seqadmit seqcancel malformedPacket stealRequest queueHandover queueReturn aggregatorWindowClose ringInterruptTimer rdidx ovf mrtail
    mrbase hostWindowWrite wlock hostRegisterWrite rtsReceive rtsRetry irisGrant tokenReceive fabricDataLand tokenExpiry orphanTimeout
    transferTimeout frozen frozenReceive finished orphaned refusalReceive relinquish resume abort rmaReadServe getResponseLand ratomExecute
    ratomReply reductionArrival reductionSlotTimeout reductionResultLand unreachable portDown unsupportedOperation crewSave crewRestore
    powerWindow thermalClamp thermalClampRelease thermalMigration uncorrectableError correctableError coldReset powerLoss functionReset
    functionResetComplete watchdogTimeout capFault portUp queueError mgmtRecordSkip

/-- Settles O56: the lemma of each constructor, gathered in one case split. -/
theorem decodeEncodeAgree : Obligations.DecodeEncodeAgree := fun e i => statement i e

/-- Parcels that encode a well-formed instruction decode to it. -/
theorem decode_of_encode {e : Engine} {i : Instr} {ps : List Parcel} (he : encode i = ps) (hw : i.isWord = true) (wf : i.WellFormed)
    (ht : i.takenBy e = true) : decode e ps = .ok i := he ▸ decodeEncodeAgree e i hw wf ht

/-- Settles O55: a word that stands for an instruction is its encoding, which decodes to it; the other two are refused by the decoder. -/
theorem wordsDecode : Obligations.WordsDecode := by
  refine ⟨decode_of_encode rfl rfl rfl (by decide), decode_of_encode rfl rfl rfl (by decide), decode_of_encode rfl rfl rfl (by decide),
    decode_of_encode rfl rfl rfl (by decide), decode_of_encode rfl rfl rfl (by decide), decode_of_encode rfl rfl rfl (by decide), ?_, by decide⟩
  decide +kernel

end Sys2Proof.Laws.RoundTrip
end

section
/-! Who issues, and with what frame: the environment of a thread context (R89, R94), an instruction as the frame with its own header (R50),
the trap of an instruction that the context's engine does not take (R68), and the fetch of a group (R49 to R52). -/
namespace Sys2Proof.Machine
open Sys2Proof.Laws Sys2Proof.Claims

variable {s : State} {e : Env} {h : Hdr} {c w x : Nat}

/-- A list change at an element there sets that element. -/
theorem modAt_eq_set {α : Type} {l : List α} {i : Nat} {a : α} {f : α → α} (ha : l[i]? = some a) : modAt l i f = l.set i (f a) := by
  obtain ⟨hi, rfl⟩ := List.getElem?_eq_some_iff.1 ha
  ext1 j
  rw [modAt_get]
  by_cases hj : j = i
  · simp [hj, hi]
  · simp [hj, Ne.symm hj]

/-- A warp that issues is the one its crew holds. -/
theorem env?_warp (he : s.env? (.warp c w) h = some e) : e.ci = c ∧ e.wi = w := by
  simp only [State.env?] at he; grind

/-- A context that issues stands at its own PC. -/
theorem env?_ctx {k : SCtx} (hk : s.ctxs[x]? = some k) (he : s.env? (.ctx x) h = some e) : e.pc = k.pc := by
  simp only [State.env?, hk] at he; grind

/-- A move to the register itself issues as every other instruction does. -/
theorem movReg_issues {i : Instr} {vd vs : BitVec 7} {e2 : Bool} : ∃ body, movReg i s vd vs e2 = runCtlH (hdrOf i) s body := by
  unfold movReg; split
  exacts [⟨_, rfl⟩, ⟨_, rfl⟩]

/-- Every instruction that is no agent's step issues by the one frame, under its own header. -/
theorem exec_issues {i : Instr} (h : isEvent i = false) : ∃ body, exec i s = runCtlH (hdrOf i) s body := by
  cases i with
  | producerFill | scalarProducerFill | storeAccept | atomicUnitExecute | crewPlace | crewEnd | sequencerContextEnd | sequencerTrapEnd |
    stepTimeout | mmaComplete | aclrComplete | adrainComplete | tldComplete | tstComplete | mmagSliceComplete | copyPart | kvgatherDelivery
    | kvappendWrite | pageWaitTimeout | evictionStart | evictionCopyEnd | fetchCopyEnd | copyOnWriteEnd | batchFormation | sequenceSweep |
    iterationGraphComplete | iterationEnd | feedbackWaitExpiry | inboundWithdraw | queueDoorbell | qcreate | qdestroy | qdestroyComplete |
    qreset | ctxset | inval | invalComplete | peconfig | sqconfig | sgassign | ringset | winset | redset | irisset | saveset | ctxpreempt |
    ctxresume | attest | pwrset | devset | mextend | repairset | mgmtUnknownCommand | launchPacket | graphPacket | signalPacket | barrierAnd
    | barrierOr | barrierPacketPoll | copyPacket | seqadmit | seqcancel | malformedPacket | stealRequest | queueHandover | queueReturn |
    aggregatorWindowClose | ringInterruptTimer | rdidx | ovf | mrtail | mrbase | hostWindowWrite | wlock | hostRegisterWrite | rtsReceive |
    rtsRetry | irisGrant | tokenReceive | fabricDataLand | tokenExpiry | orphanTimeout | transferTimeout | frozen | frozenReceive | finished
    | orphaned | refusalReceive | relinquish | resume | abort | rmaReadServe | getResponseLand | ratomExecute | ratomReply |
    reductionArrival | reductionSlotTimeout | reductionResultLand | unreachable | portDown | unsupportedOperation | crewSave | crewRestore |
    powerWindow | thermalClamp | thermalClampRelease | thermalMigration | uncorrectableError | correctableError | coldReset | powerLoss |
    functionReset | functionResetComplete | watchdogTimeout | capFault | portUp | queueError | mgmtRecordSkip =>
    exact (Bool.false_ne_true h.symm).elim
  | mov_16 | mov => exact movReg_issues
  | _ => exact ⟨_, rfl⟩

/-- An instruction that the issuing context's engine does not take traps in that context (R68, R269). -/
theorem exec_refused {i : Instr} {k : SCtx} (hi : isEvent i = false) (hc : s.cur = some e.who) (hx : e.who = .ctx x) (hk : s.ctxs[x]? = some k)
    (he : s.env? e.who (hdrOf i) = some e) (ht : i.takenBy e.eng = false) :
    exec i s = .next (s.ctxTrap x k.pc ⟨1, BitVec.ofNat 64 (7 * 2 ^ 56 + i.baseWord % 2 ^ 32), none, 0⟩) := by
  obtain ⟨body, hb⟩ := exec_issues (s := s) hi
  rw [hb, runCtlH_ill hc he ht, raise_ctx hx, env?_ctx hk (hx ▸ he)]
  rfl

/-- Settles O58: the frame of issue traps before the instruction's body runs, and a context's trap changes that context alone. -/
theorem sequencersTrapOtherInstructions : Obligations.SequencersTrapOtherInstructions := by
  intro s i e x k hi hc hx hk he ht
  rw [exec_refused hi hc hx hk he ht, State.ctxTrap, State.modCtx, modAt_eq_set hk]
  rfl

/-- Parcels that are read one by one, and are no group until the last of them, are fetched as the group they are. -/
theorem fetchFrom_of_fetches {ps : List Parcel} {i : Instr} (hf : Fetches s e ps i) {n m : Nat} (hm : m < ps.length) (hn : ps.length ≤ m + n) :
    s.fetchFrom e n (ps.take m) = .ok i := by
  induction n generalizing m with
  | zero => omega
  | succ n ih =>
    have hl : (ps.take m).length = m := by simp; omega
    have next : ps.take m ++ [ps.getD m 0] = ps.take (m + 1) := by simp [hm]
    simp only [State.fetchFrom, hl, hf.read m hm, next]
    rcases Nat.lt_or_ge (m + 1) ps.length with h1 | h1
    · simp only [hf.short _ h1, ih h1 (by omega)]
    · simp only [List.take_of_length_le h1, hf.group]

theorem fetch_of_fetches {ps : List Parcel} {i : Instr} (hf : Fetches s e ps i) : s.fetch e = .ok i := by
  have hl : 0 < ps.length := by
    rcases ps with _ | ⟨p, ps⟩
    · have := hf.group; cases this
    · simp
  exact fetchFrom_of_fetches hf (m := 0) hl (by have := hf.len; omega)

/-- A context's turn runs the group at its PC. -/
theorem issue_of_fetches {t : State} {who : ThreadRef} {ps : List Parcel} {i : Instr} (ht : { s with cur := some who } = t)
    (he : t.env? who (baseHdr 0) = some e) (hf : Fetches t e ps i) : s.issue who = exec i t := by
  unfold State.issue
  simp only [ht, he, fetch_of_fetches hf]

/-- Settles O54: the fetch by induction on the parcels still to read, and each turn by what it issues. -/
theorem stepRunsTheDecodedInstruction : Obligations.StepRunsTheDecodedInstruction := by
  refine ⟨fun s e ps i ha hc he hf => ?_, fun s e ps i rest ha he hf => ?_, fun s i rest ha hi => ?_⟩
  · unfold step
    simp only [ha, hc]
    exact issue_of_fetches (by rw [← hc]) he hf
  · unfold step
    simp only [ha, State.turn]
    exact issue_of_fetches rfl he hf
  · unfold step
    simp only [ha, State.turn, hi, if_true]

end Sys2Proof.Machine
end

section
/-! The lane instructions (R53, R73, R136 to R154): each row of the table is `runVec` with the row's sources and function. -/
namespace Sys2Proof.Machine
open Sys2Proof.Laws Sys2Proof.Claims

variable {s : State} {e : Env} {v : VEnv} {i : Instr} {d : Nat} {xs : VEnv → List Src} {f : VEnv → Nat → Lane}

/-- A condition of the entry's own that its row meets. -/
theorem needPfx_some {p : Option Pfx} {q : Pfx} (hp : p = some q) : needPfx p e = .ok () := by rw [hp]; rfl

/-- The add-compare-select of R143 in the model is the statement's, of the smaller path and of the larger. -/
theorem vacs_min : vacs false = acs (fun p q => decide (q < p)) := by
  funext a b; simp only [vacs, acs, Bool.false_eq_true, if_false, Nat.reducePow, apply_ite (BitVec.ofNat 32)]

theorem vacs_max : vacs true = acs (fun p q => decide (p < q)) := by
  funext a b; simp only [vacs, acs, if_true, Nat.reducePow, apply_ite (BitVec.ofNat 32)]

/-- The compact MOV of two registers, by the registers that its fields name (R53). -/
theorem exec_mov_16 {o : OpC16} (h : o.vd ≠ o.vs) : exec (.mov_16 o) s = runVec (.mov_16 o) s o.vd.toNat noPre
    (fun v => [⟨o.vs.toNat, v.act, false⟩]) (fun v l => Lane.full (v.w.lane o.vs.toNat l).data (v.w.lane o.vs.toNat l).s) := by
  have h5 {r : BitVec 5} : (r.setWidth 7).toNat = r.toNat := BitVec.toNat_setWidth_of_le (by decide)
  have h7 : o.vd.setWidth 7 ≠ o.vs.setWidth 7 := fun k => h (BitVec.eq_of_toNat_eq (by rw [← h5, k, h5]))
  refine (if_neg h7).trans ?_
  simp only [VEnv.src, VEnv.moved, h5]

/-- What a row of the lane instructions says: its instruction runs as a vector instruction with those sources and that function. -/
theorem exec_laneRow (h : LaneRow i d xs f) : ∃ pre, (∀ e, pre e = .ok ()) ∧ exec i s = runVec i s d pre xs f := by
  cases h with
  | imadI32Vc o q hq | ffmaF32Vc o q hq =>
    refine ⟨needPfx o.pfx, fun e => needPfx_some hq, ?_⟩
    have : vs3Of o.pfx = q.vs3 := by rw [hq]; rfl
    rw [← this]; rfl
  | quant o q hq =>
    refine ⟨needPfx o.pfx, fun e => needPfx_some hq, ?_⟩
    change execQuant o s = _
    simp only [execQuant, hq]; rfl
  | vacsP16 o => exact ⟨noPre, fun _ => rfl, by rw [← vacs_min]; rfl⟩
  | vacsP16Max o => exact ⟨noPre, fun _ => rfl, by rw [← vacs_max]; rfl⟩
  | mov o hne => exact ⟨noPre, fun _ => rfl, if_neg hne⟩
  | mov_16 o hne => exact ⟨noPre, fun _ => rfl, exec_mov_16 hne⟩
  | _ => exact ⟨noPre, fun _ => rfl, rfl⟩

/-- A lane instruction that issues, whose checks pass. -/
theorem exec_lane_ready (h : LaneRow i d xs f) (hi : Issues s i e) (hr : LaneReady s e v [d] (xs v)) :
    exec i s = .next (after e (s.modWarp e.ci e.wi (fun w => w.out v d (f v)))) := by
  obtain ⟨pre, hp, hx⟩ := exec_laneRow h
  exact hx.trans (runVec_ok hi.cur hi.env hi.takes (hp e) hr.env hr.range hr.read hr.free)

/-- Settles O1: every row is `runVec` with the row's sources and function, whose checks pass. -/
theorem laneInstructionsCompute : Obligations.LaneInstructionsCompute := fun _ _ _ _ h _ _ _ => exec_lane_ready h

/-- Settles O2: the body of each answers without reading a register; MOV's is the branch of one register. -/
theorem movesToSelfAndNops : Obligations.MovesToSelfAndNops := by
  refine ⟨fun s e hi _ => runH_ok hi.cur hi.env hi.takes rfl, fun o s e hi _ => runH_ok hi.cur hi.env hi.takes rfl, ?_⟩
  rintro o v hself s e hi ⟨hv, hr, hf⟩
  refine (if_pos hself).trans (runH_ok hi.cur hi.env hi.takes ?_)
  simp only [(venv_ok.1 hv).1, exe_ok_bind, regsOk_ok hr, (venv_ok.1 hv).2, dstFree_ok hf, exe_pure]
  rfl

end Sys2Proof.Machine
end

section
/-! Mask registers and one scalar register as results (R69, R121, R125, R128 to R130, R138, R146, R160, R162). -/
namespace Sys2Proof.Machine
open Sys2Proof.Laws Sys2Proof.Claims

variable {s t : State} {e : Env} {v : VEnv} {i : Instr} {md : BitVec 3} {xs : VEnv → List Src} {p : VEnv → Nat → Bool} {sd : BitVec 6}

/-- An instruction that issues and whose body answers. -/
theorem run_ready {body : Env → Exe State} (hi : Issues s i e) (hb : body e = .ok t) : run i s body = .next (after e t) :=
  runH_ok hi.cur hi.env hi.takes hb

/-- What a row of the lane comparisons says. -/
theorem exec_maskRow (h : MaskRow i md xs p) : exec i s = runMask i s md xs p := by
  cases h <;> rfl

theorem exec_mask_ready (h : MaskRow i md xs p) (hi : Issues s i e) (hm : md ≠ 0) (hr : LaneReady s e v [] (xs v)) :
    exec i s = .next (after e (maskWrite s e v md (p v))) :=
  (exec_maskRow h).trans (runMask_ok hi.cur hi.env hi.takes hm hr.env hr.range hr.read)

theorem mapM_ok {α β : Type} {l : List α} {f : α → Exe β} {g : α → β} (h : ∀ a ∈ l, f a = .ok (g a)) : l.mapM f = .ok (l.map g) := by
  induction l with
  | nil => rfl
  | cons a l ih => simp [h a, ih fun b hb => h b (List.mem_cons_of_mem a hb)]

/-- What a row of the mask logic says: its function is that of the values read. -/
theorem exec_maskLogicRow {ms : List (BitVec 3)} {f : Env → Warp → W64} (h : MaskLogicRow i md ms f) :
    ∃ g, exec i s = maskLogic i s md ms g ∧ ∀ e w, g (ms.map fun m => mval e w m.toNat) = f e w := by
  cases h <;> exact ⟨_, rfl, fun _ _ => rfl⟩

theorem exec_logic_ready {ms : List (BitVec 3)} {f : Env → Warp → W64} (h : MaskLogicRow i md ms f) (hi : Issues s i e) (hm : md ≠ 0)
    (hv : venv s e = .ok v) (hr : ∀ m ∈ ms, MReady v.w m.toNat) :
    exec i s = .next (after e (maskWrite s e v md (fun l => (f e v.w).getLsbD l))) := by
  obtain ⟨g, hx, hg⟩ := exec_maskLogicRow h
  have reads : ms.mapM (fun m => rdM e v.w m.toNat) = .ok (ms.map fun m => mval e v.w m.toNat) := mapM_ok fun m hm => rdM_ok (hr m hm)
  refine hx.trans (run_ready hi ?_)
  simp only [need_ok (decide_eq_true hm), hv, reads, hg, exe_ok_bind, exe_pure, maskWrite]

theorem execTstf_ready {o : OpVTst} (hi : Issues s (.tstf o) e) (hm : o.md ≠ 0) (hv : venv s e = .ok v) (hr : InRange e [o.vs1.toNat]) :
    exec (.tstf o) s = .next (after e (maskWrite s e v o.md (fun l => (v.w.lane o.vs1.toNat l).f))) := by
  refine run_ready hi ?_
  simp only [need_ok (decide_eq_true hm), (venv_ok.1 hv).1, regsOk_ok hr, (venv_ok.1 hv).2, exe_ok_bind, exe_pure, maskWrite]

/-- Mask results (R128, R129, R138, R146, R162). -/
theorem maskInstructionsCompute : MaskInstructionsCompute :=
  ⟨fun _ _ _ _ h hm _ _ _ hi hr => exec_mask_ready h hi hm hr, fun _ _ _ _ h hm _ _ _ hi hr => exec_logic_ready h hi hm hr.1 hr.2,
    fun _ hm _ _ _ hi hr => execTstf_ready hi hm hr.1 hr.2⟩

/-- An instruction with one scalar result, whose checks pass. -/
theorem runToScalar_ready {f : VEnv → Exe W64} {x : W64} (hi : Issues s i e) (hr : LaneReady s e v [] (xs v)) (hf : f v = .ok x)
    (hs : SFree s e sd.toNat) : runToScalar i s sd xs f = .next (after e (s.setS e.who sd.toNat x)) := by
  have hg : regsOk e.k ((xs v).map Src.reg) = .ok () := regsOk_ok hr.range
  refine run_ready hi ?_
  simp only [(venv_ok.1 hr.env).1, hg, checkV_ok (venv_ok.1 hr.env).2 hr.read, hf, exe_ok_bind]
  exact wrS_ok hs

theorem rdSw_ok {r : Nat} (h : SReady s e r) : rdSw s e r = .ok (s.sreg e.who r) := by
  rcases h with rfl | ⟨hp, -⟩
  · rfl
  · simp [rdSw, hp]

theorem sOk_ok {r : Nat} (h : SReady s e r) : sOk s e r = .ok () := by
  rcases h with rfl | ⟨-, hp⟩
  · rfl
  · simp [sOk, need, hp]

/-- No lane of the empty mask, so nothing to check of a source without lanes. -/
theorem readable_none {r : Nat} {b : Bool} : Readable v.w [⟨r, 0, b⟩] := by
  intro x hx l hl
  rw [List.mem_singleton.1 hx] at hl
  simp [lanesOf] at hl

variable {va : BitVec 7} {ea : Bool} {j : Nat} {late : Exe Unit}

/-- VTOS from an active lane and from one that is not (R130). -/
theorem vtosFrom_active (hv : venv s e = .ok v) (hj : v.act.getLsbD j = true) (hr : Readable v.w [⟨va.toNat, 1#64 <<< j, ea⟩])
    (hl : late = .ok ()) (hs : SFree s e sd.toNat) :
    vtosFrom s e v sd va ea j late = .ok (s.setS e.who sd.toNat ((v.w.lane va.toNat j).data.setWidth 64)) := by
  simp only [vtosFrom, hj, if_true, checkV_ok (venv_ok.1 hv).2 hr, hl, exe_ok_bind, wrS_ok hs, VEnv.data]

theorem vtosFrom_inactive (hv : venv s e = .ok v) (hj : v.act.getLsbD j = false) (hl : late = .ok ()) (hs : SFree s e sd.toNat) :
    vtosFrom s e v sd va ea j late = .ok (s.setS e.who sd.toNat 0) := by
  simp only [vtosFrom, hj, Bool.false_eq_true, if_false, checkV_ok (venv_ok.1 hv).2 readable_none, hl, exe_ok_bind, wrS_ok hs]

theorem execVtos_ready {o : OpVSv} (hi : Issues s (.vtos o) e) (hv : venv s e = .ok v) (hr : InRange e [o.vs1.toNat]) (hk : SReady s e o.sk.toNat)
    (hx : vtosFrom s e v o.sd o.vs1 o.e1 ((s.sreg e.who o.sk.toNat).toNat % 64) (.ok ()) = .ok t) : exec (.vtos o) s = .next (after e t) := by
  refine run_ready hi ?_
  simp only [(venv_ok.1 hv).1, regsOk_ok hr, rdSw_ok hk, sOk_ok hk, exe_ok_bind, hx]

theorem execVtosFirst_ready {o : OpVSf} (hi : Issues s (.vtosFirst o) e) (hv : venv s e = .ok v) (hr : InRange e [o.vs1.toNat])
    (hx : vtosFrom s e v o.sd o.vs1 o.e1 ((lowLane v.act).getD 0) (.ok ()) = .ok t) : exec (.vtosFirst o) s = .next (after e t) := by
  refine run_ready hi ?_
  simp only [(venv_ok.1 hv).1, regsOk_ok hr, exe_ok_bind, hx]

theorem mem_lanesOf {m : W64} {l : Nat} : l ∈ lanesOf m ↔ m.getLsbD l = true := by
  simp only [lanesOf, List.mem_filter, List.mem_range, and_iff_right_iff_imp]
  exact BitVec.lt_of_getLsbD

theorem lowLane_active {m : W64} {l : Nat} (h : lowLane m = some l) : m.getLsbD l = true := mem_lanesOf.1 (List.mem_of_head? h)

theorem lowLane_none {m : W64} (h : lowLane m = none) (l : Nat) : m.getLsbD l = false := by
  have : l ∉ lanesOf m := by rw [List.head?_eq_none_iff.1 h]; exact List.not_mem_nil
  simpa [mem_lanesOf] using this

/-- Results of a warp's lanes and masks in a scalar register (R125, R129, R130, R160, R162). -/
theorem laneToScalarResults : LaneToScalarResults := by
  refine ⟨fun o v s e hi ⟨hr, hs⟩ => runToScalar_ready hi hr rfl hs, fun o v s e hi ⟨hr, hs⟩ => runToScalar_ready hi hr rfl hs,
    fun o v s e hi ⟨hv, hm, hs⟩ => run_ready hi ?_, fun o v s e hi ⟨hk, hs, hj, hr⟩ => ?_, fun o v s e hi ⟨hk, hs, hj, hv, hr⟩ => ?_,
    fun o v l s e hi ⟨hs, hl, hr⟩ => ?_, fun o v hn s e hi ⟨hv, hs, hr⟩ => ?_⟩
  · simp only [hv, rdM_ok hm, exe_ok_bind]
    exact wrS_ok hs
  · exact execVtos_ready hi hr.env hr.range hk (vtosFrom_active hr.env hj hr.read rfl hs)
  · exact execVtos_ready hi hv hr hk (vtosFrom_inactive hv hj rfl hs)
  · exact execVtosFirst_ready hi hr.env hr.range (by rw [hl]; exact vtosFrom_active hr.env (lowLane_active hl) hr.read rfl hs)
  · exact execVtosFirst_ready hi hv hr (vtosFrom_inactive hv (lowLane_none hn _) rfl hs)

/-- Settles O6: each family by its shared operation, whose checks pass. -/
theorem masksAndScalarResultsCompute : Obligations.MasksAndScalarResultsCompute := ⟨maskInstructionsCompute, laneToScalarResults⟩

end Sys2Proof.Machine
end

section
/-! Control and status registers (R70, R131, R132, R253, R274, R386, R398): what a number names, and the checks of CSRR and CSRW in order. -/
namespace Sys2Proof.Machine
open Sys2Proof.Laws Sys2Proof.Claims

variable {s t : State} {e : Env} {i : Instr} {n : Nat} {x : W64} {sd ss : BitVec 6}

theorem need_fails {c : Bool} {st : Stop} (hc : c = false) : need c st = .error st := by rw [hc]; rfl

/-- An instruction that issues and whose body traps. -/
theorem runH_trap {body : Env → Exe State} {tr : Trap} (hi : Issues s i e) (hb : body e = .error (.trap tr)) :
    runH (hdrOf i) s body = .next ((s.raise e tr).ctxSettle e.who) := runH_stop hi.cur hi.env hi.takes hb

/-- The registers of every kind of program are read before those of one kind. -/
theorem csr?_all (h : s.csrAll e n = some x) : s.csr? e n = some x := by simp only [State.csr?, h]

theorem csr?_vector {c j : Nat} {w : Warp} (he : e.who = .warp c j) (hw : s.warp? c j = some w) (hn : s.csrAll e n = none) :
    s.csr? e n = csrVector e.k w n := by simp only [State.csr?, hn, he, hw, Option.bind_some]

theorem csr?_matrix {j : Nat} {c : SCtx} (he : e.who = .ctx j) (hc : s.ctxs[j]? = some c) (hm : e.eng = .matrix) (hn : s.csrAll e n = none) :
    s.csr? e n = csrMatrix c n := by simp only [State.csr?, hn, he, hm, hc, Option.bind_some]

/-- The registers of every program hold what their row says. -/
theorem csr?_row (h : CsrRow s e n x) : s.csr? e n = some x := by
  refine csr?_all ?_
  cases h with
  | loop i hi => match i, hi with | 0, _ | 1, _ | 2, _ | 3, _ => rfl
  | recva d hd => simp only [State.csrAll, hd]
  | spadBytes => simp only [State.csrAll, Crew.z, Nat.mul_comm]
  | pwrstat => simp only [State.csrAll, State.pwrstat, b2n, ite_mul, one_mul, zero_mul]
  | _ => rfl

/-- The registers of a warp hold what their row says. -/
theorem csr?_warpRow {c j : Nat} {w : Warp} (he : e.who = .warp c j) (hw : s.warp? c j = some w) (h : WarpCsrRow w e.k n x) :
    s.csr? e n = some x := by
  cases h with
  | rmode | ftz => exact csr?_all (by simp only [State.csrAll, State.modesOf, he, hw])
  | depth => exact csr?_all (by simp only [State.csrAll, State.loopsOf, he, hw])
  | tstat => exact (csr?_vector he hw rfl).trans (by simp only [csrVector, Warp.tstat, b2n, ite_mul, one_mul, zero_mul])
  | _ => exact csr?_vector he hw rfl

theorem csrRead_ready (hi : Issues s i e) (hx : s.csr? e n = some x) (hw : (mxWaits n && s.mxOut e.who) = false) (hs : SFree s e sd.toNat) :
    csrRead i s sd n = .next (after e (s.setS e.who sd.toNat x)) := by
  refine run_ready hi ?_
  simp only [hx, waitUnless_ok (congrArg not hw), exe_ok_bind, wrS_ok hs]

theorem csrRead_unassigned (hi : Issues s i e) (hx : s.csr? e n = none) :
    csrRead i s sd n = .next ((s.raise e (trapWord 1 (BitVec.ofNat 64 (1 * 2 ^ 56 + e.h.word % 2 ^ 32)))).ctxSettle e.who) :=
  runH_trap hi (by simp only [hx]; rfl)

/-- CSRR (R131, R253). -/
theorem controlRegistersRead : ControlRegistersRead := by
  refine ⟨fun o x s e hi ⟨hx, hs, hw⟩ => csrRead_ready hi hx ?_ hs, fun o x c s e hi ⟨⟨j, he, hc⟩, hm, hx, hs, hw⟩ => ?_,
    fun o s e hi hx => csrRead_unassigned hi hx, fun s e n x => csr?_row, fun s e n x c i w k he hw hk h => csr?_warpRow he hw (hk ▸ h)⟩
  · by_cases hn : o.csr = 0x0C3 ∨ o.csr = 0x0C4
    · rw [hw hn, Bool.and_false]
    · have : mxWaits o.csr.toNat = false := decide_eq_false fun k => hn (k.imp BitVec.eq_of_toNat_eq BitVec.eq_of_toNat_eq)
      rw [this, Bool.false_and]
  · refine csrRead_ready hi ?_ (by rw [hw, Bool.and_false]) hs
    cases hl : o.lost <;> simp only [hl, hx] <;> exact csr?_matrix he hc hm rfl

/-- A value that RMODE or TVEC does not take (R42, R398). -/
def csrRefuses (n : Nat) (v : W64) : Bool := decide (n = 0x010 ∧ 6 ≤ v.toNat % 8) || decide (n = 0x0F0 ∧ v.toNat % 2 = 1)

/-- A CSRW whose number can be written and is not waited for takes the value or refuses it. -/
theorem csrWrite_ready (hi : Issues s i e) (hn : (s.csr? e n).isSome = true) (hc : csrWritable n = true)
    (hw : (mxWaits n && s.mxOut e.who) = false) (hs : SReady s e ss.toNat) (hv : csrRefuses n (s.sreg e.who ss.toNat) = false)
    (ht : s.csrStore e n (s.sreg e.who ss.toNat) = t) : csrWrite (hdrOf i) s ss n = .next (after e t) := by
  subst ht
  unfold csrRefuses at hv
  refine runH_ok hi.cur hi.env hi.takes ?_
  simp only [hn, Bool.or_true, need_ok rfl, need_ok hc, waitUnless_ok (congrArg not hw), rdS_ok hs, exe_ok_bind, hv]; rfl

theorem csrWrite_refused (hi : Issues s i e) (hn : (s.csr? e n).isSome = true) (hc : csrWritable n = true)
    (hw : (mxWaits n && s.mxOut e.who) = false) (hs : SReady s e ss.toNat) (hv : csrRefuses n (s.sreg e.who ss.toNat) = true) :
    csrWrite (hdrOf i) s ss n = .next ((s.raise e (trapWord 1 (BitVec.ofNat 64 (9 * 2 ^ 56 + e.h.word % 2 ^ 32)))).ctxSettle e.who) := by
  unfold csrRefuses at hv
  refine runH_trap hi ?_
  simp only [hn, Bool.or_true, need_ok rfl, need_ok hc, waitUnless_ok (congrArg not hw), rdS_ok hs, exe_ok_bind, hv]; rfl

/-- A number that is unassigned in the issuer's kind of program (R131). -/
theorem csrWrite_unassigned (hi : Issues s i e) (h5 : n ≠ 0x005) (hn : s.csr? e n = none) :
    csrWrite (hdrOf i) s ss n = .next ((s.raise e (trapWord 1 (BitVec.ofNat 64 (1 * 2 ^ 56 + e.h.word % 2 ^ 32)))).ctxSettle e.who) := by
  refine runH_trap hi ?_
  simp only [hn, decide_eq_false h5]; rfl

/-- A number that is assigned and not writable, LANE among them (R131). -/
theorem csrWrite_readOnly (hi : Issues s i e) (hn : n = 0x005 ∨ (s.csr? e n).isSome = true) (hc : csrWritable n = false) :
    csrWrite (hdrOf i) s ss n = .next ((s.raise e (trapWord 1 (BitVec.ofNat 64 (9 * 2 ^ 56 + e.h.word % 2 ^ 32)))).ctxSettle e.who) := by
  have assigned : (decide (n = 0x005) || (s.csr? e n).isSome) = true := by simpa using hn
  refine runH_trap hi ?_
  simp only [need_ok assigned, need_fails hc, exe_ok_bind]; rfl

/-- What a row of the writable registers says of its number: it is written, not waited for, and stored as the row has it. -/
theorem csrwRow_store {ok : W64 → Prop} {f : State → Env → W64 → State} (h : CsrwRow n ok f) :
    csrWritable n = true ∧ mxWaits n = false ∧ (∀ v, ok v → csrRefuses n v = false) ∧ ∀ s e v, s.csrStore e n v = f s e v := by
  refine ⟨by cases h <;> rfl, by cases h <;> rfl, fun v hv => ?_, fun s e v => by cases h <;> rfl⟩
  cases h <;> simp_all [csrRefuses]

/-- CSRW (R131, R132, R253, R254, R274, R386, R398). -/
theorem controlRegistersWritten : ControlRegistersWritten := by
  refine ⟨fun n ok f h o hn s e hi ⟨hx, hs, hv⟩ => ?_, fun o s e hi hs => csrWrite_ready hi rfl rfl rfl hs rfl rfl,
    fun o s e hi hs => csrWrite_ready hi rfl rfl rfl hs rfl rfl, fun o x c s e hi ⟨he, hc, hm, hw, hs⟩ => ?_,
    fun o h5 s e hi hx => csrWrite_unassigned hi (fun k => h5 (BitVec.eq_of_toNat_eq k)) hx,
    fun o hn s e hi hx => csrWrite_readOnly hi (hx.imp_left (congrArg BitVec.toNat)) ?_,
    fun o hn s e hi ⟨hx, hs, hv⟩ => ?_, fun o hn s e hi ⟨hs, hv⟩ => ?_⟩
  · obtain ⟨hc, hw, hr, hf⟩ := csrwRow_store h
    subst hn
    exact csrWrite_ready hi hx hc (by rw [hw, Bool.false_and]) hs (hr _ hv) (hf s e _)
  · have hx : s.csr? e 0x0C3 = some c.mxfault := csr?_matrix he hc hm rfl
    exact csrWrite_ready hi (by rw [hx]; rfl) rfl (by rw [hw, Bool.and_false]) hs rfl (by simp only [State.csrStore, State.modOwnCtx, he])
  · simpa [csrWritable] using hn
  · exact csrWrite_refused hi (hn ▸ hx) (by rw [hn]; rfl) (by rw [hn]; rfl) hs (by simp [csrRefuses, hn, hv])
  · exact csrWrite_refused hi (by rw [hn]; rfl) (by rw [hn]; rfl) (by rw [hn]; rfl) hs (by simp [csrRefuses, hn, hv])

/-- Settles O12: CSRR by what each number names; CSRW by its checks in order, each failing with its own reason. -/
theorem controlRegistersReadAndWritten : Obligations.ControlRegistersReadAndWritten := ⟨controlRegistersRead, controlRegistersWritten⟩

end Sys2Proof.Machine
end

section
/-! What an instruction with one register destination leaves (R59, R73, R125, R128, R129, R156): the warp and the context by their own parts,
the machine by a frame that composes, and the registers by what each write names. -/
namespace Sys2Proof.Machine
open Sys2Proof.Laws Sys2Proof.Claims

section Frame
variable {s t u : State} {e : Env} {w : Warp} {img : Image} {i : Instr}

theorem loopStep_eq {w' : Warp} (h : w.loopStep img = some w') : ∃ fr ls, w' = { w with frontier := fr, loops := ls } := by
  simp only [Warp.loopStep] at h
  split at h
  · cases h
  split at h
  · cases h; exact ⟨_, _, rfl⟩
  split at h
  · split at h <;> cases h <;> exact ⟨_, _, rfl⟩
  · cases h

theorem settleN_eq {n : Nat} : ∃ fr ls, w.settleN img n = { w with frontier := fr, loops := ls } := by
  induction n generalizing w with
  | zero => exact ⟨_, _, rfl⟩
  | succ n ih =>
    simp only [Warp.settleN]
    split
    · exact ⟨_, _, rfl⟩
    · obtain ⟨_, _, rfl⟩ := loopStep_eq ‹_›
      exact ih

/-- Threads that move change a warp's frontier and loops only. -/
theorem place_eq {m : W64} {pc : W32} : ∃ fr ls, w.place img m pc = { w with frontier := fr, loops := ls } := settleN_eq

/-- Loop ends change a context's PC and loops only. -/
theorem ctxLoops_eq {n : Nat} {c : SCtx} : ∃ pc ls, ctxLoops n c = { c with pc := pc, loops := ls } := by
  induction n generalizing c with
  | zero => exact ⟨_, _, rfl⟩
  | succ n ih =>
    simp only [ctxLoops]
    split
    · exact ⟨_, _, rfl⟩
    split
    · exact ⟨_, _, rfl⟩
    split
    · exact ih
    · exact ⟨_, _, rfl⟩

/-- An issuer is its own warp or a context. -/
def Env.Own (e : Env) : Prop := e.who = .warp e.ci e.wi ∨ ∃ x, e.who = .ctx x

theorem issues_own (hi : Issues s i e) : e.Own := by
  cases h : e.who with
  | warp c w =>
    obtain ⟨hc, hw⟩ := env?_warp (h ▸ hi.env)
    exact .inl (by rw [h, hc, hw])
  | ctx x => exact .inr ⟨x, h⟩

theorem after_warp {t : State} (h : e.who = .warp e.ci e.wi) : after e t = t.modWarp e.ci e.wi (fun w => w.place e.k.image e.m0 e.npc) := by
  rw [after, jump_warp h, h, ctxSettle_warp]

theorem after_ctx {x : Nat} (h : e.who = .ctx x) :
    after e t = (t.modCtx x (fun c => { c with pc := e.npc, wait := none })).modCtx x (ctxLoops 5) := by
  rw [after, jump_ctx h, h]; rfl

/-- A warp after a change of one warp. -/
theorem modWarp_warp? {c j c' j' : Nat} {f : Warp → Warp} :
    (s.modWarp c j f).warp? c' j' = if c' = c ∧ j' = j then (s.warp? c' j').map f else s.warp? c' j' := by
  simp only [State.warp?, modWarp_crews, modAt_get, Option.bind_eq_bind]
  by_cases hc : c' = c
  · cases s.crews[c']? <;> simp [hc, Crew.modWarp, modAt_get]
  · simp [hc]

theorem leaves_trans (h : LeavesTheMachine s t e) (g : LeavesTheMachine t u e) : LeavesTheMachine s u e where
  memory a := (g.memory a).trans (h.memory a)
  poison a n := (g.poison a n).trans (h.poison a n)
  rest := by rw [g.rest, h.rest]
  crews c hc := (g.crews c hc).trans (h.crews c hc)
  crew k hk := by
    obtain ⟨k1, h1, e1⟩ := h.crew k hk
    obtain ⟨k2, h2, e2⟩ := g.crew k1 h1
    exact ⟨k2, h2, by rw [e2, e1]⟩
  warps j hj := (g.warps j hj).trans (h.warps j hj)
  ctxs x hx := (g.ctxs x hx).trans (h.ctxs x hx)

theorem leaves_self : LeavesTheMachine s s e :=
  ⟨fun _ => rfl, fun _ _ => rfl, rfl, fun _ _ => rfl, fun k hk => ⟨k, hk, rfl⟩, fun _ _ => rfl, fun _ _ => rfl⟩

theorem leaves_modWarp {f : Warp → Warp} : LeavesTheMachine s (s.modWarp e.ci e.wi f) e where
  memory _ := rfl
  poison _ _ := rfl
  rest := rfl
  crews _ hc := modWarp_crew_other hc
  crew k hk := ⟨k.modWarp e.wi f, by rw [modWarp_crews, modAt_get, if_pos rfl, hk]; rfl, rfl⟩
  warps j hj := by rw [modWarp_warp?, if_neg fun h => hj h.2]
  ctxs _ _ := rfl

theorem leaves_modCtx {x : Nat} {f : SCtx → SCtx} (h : e.who = .ctx x) : LeavesTheMachine s (s.modCtx x f) e where
  memory _ := rfl
  poison _ _ := rfl
  rest := rfl
  crews _ _ := rfl
  crew k hk := ⟨k, hk, rfl⟩
  warps _ _ := rfl
  ctxs y hy := by rw [modCtx_ctxs, modAt_get, if_neg fun k => hy (by rw [h, k])]

theorem leaves_after (ho : e.Own) (h : LeavesTheMachine s t e) : LeavesTheMachine s (after e t) e := by
  rcases ho with hw | ⟨x, hx⟩
  · exact after_warp (t := t) hw ▸ leaves_trans h leaves_modWarp
  · exact after_ctx (t := t) hx ▸ leaves_trans h (leaves_trans (leaves_modCtx hx) (leaves_modCtx hx))

/-- The issuing warp after its threads have gone on. -/
theorem after_warp? (ho : e.Own) (h : t.warp? e.ci e.wi = some w) :
    ∃ fr ls, (after e t).warp? e.ci e.wi = some { w with frontier := fr, loops := ls } := by
  rcases ho with hw | ⟨x, hx⟩
  · obtain ⟨fr, ls, hp⟩ := place_eq (w := w) (img := e.k.image) (m := e.m0) (pc := e.npc)
    exact ⟨fr, ls, by rw [after_warp hw, modWarp_warp?, if_pos ⟨rfl, rfl⟩, h, Option.map_some, hp]⟩
  · exact ⟨_, _, by rw [after_ctx hx]; exact h⟩

end Frame

section Lanes
variable {s : State} {e : Env} {v : VEnv} {w : Warp} {i : Instr} {d l r : Nat} {m : W64} {f : Nat → Lane}

theorem mapFrom_get {α β : Type} {f : Nat → α → β} {l : List α} {k j : Nat} : (mapFrom f k l)[j]? = (l[j]?).map (f (k + j)) := by
  induction l generalizing k j with
  | nil => rfl
  | cons a l ih =>
    cases j with
    | zero => rfl
    | succ j => simp only [mapFrom, List.getElem?_cons_succ, ih]; congr 2; omega

theorem setLanes_reg_other (h : r ≠ d) : (w.setLanes d m f).regs[r]? = w.regs[r]? := by
  simp only [Warp.setLanes, modAt_get, if_neg h]

theorem setLanes_lane_other (h : m.getLsbD l = false) : (w.setLanes d m f).lane d l = w.lane d l := by
  simp only [Warp.lane, Warp.setLanes, List.getD_eq_getElem?_getD, modAt_get, if_true]
  cases w.regs[d]? with
  | none => rfl
  | some x => simp only [Option.map_some, Option.getD_some, mapFrom_get, Nat.zero_add, h, Bool.false_eq_true, if_false, Option.map_id']

theorem venv_warp (hv : venv s e = .ok v) : s.warp? e.ci e.wi = some v.w := by
  have h := (venv_ok.1 hv).1
  simp only [venvW, theWarp, Env.w?] at h
  split at h
  · cases h
    simp only [VEnv.of]
    split <;> assumption
  · cases h

/-- The written register keeps its lanes outside the mask and the lanes Z removes; every other register stays (R59, R73). -/
theorem leavesRegisters_out {fr : List Entry} {ls : List LoopEnt} :
    LeavesRegisters w { w.out v d f with frontier := fr, loops := ls } d (v.act ||| v.zl) := by
  refine ⟨rfl, fun r hr => (setLanes_reg_other hr).trans (setLanes_reg_other hr), fun l _ hl => ?_⟩
  obtain ⟨ha, hz⟩ : v.act.getLsbD l = false ∧ v.zl.getLsbD l = false := by simpa using hl
  exact (setLanes_lane_other hz).trans (setLanes_lane_other ha)

/-- SEL, whose checks pass (R139). -/
theorem execSel_ready {o : OpV3} {q : Pfx} (hi : Issues s (.sel o) e) (hq : o.pfx = some q) (hr : LaneReady s e v [o.vd.toNat] (two o v))
    (hm : MReady v.w (q.imx.toNat % 8)) : exec (.sel o) s = .next (after e (s.modWarp e.ci e.wi (fun w => w.out v o.vd.toNat (fun l =>
      if (mval e v.w (q.imx.toNat % 8)).getLsbD l then v.moved o.vs1 l else v.moved o.vs2 l)))) := by
  have hg : regsOk e.k [o.vd.toNat, o.vs1.toNat, o.vs2.toNat] = .ok () := regsOk_ok hr.range
  have hs : checkV v 0 [v.src o.vs1 o.e1, v.src o.vs2 o.e2] = .ok () := checkV_ok (venv_ok.1 hr.env).2 hr.read
  refine run_ready hi ?_
  simp only [(venv_ok.1 hr.env).1, hg, hs, exe_ok_bind, hq, rdM_ok hm, dstFree_ok hr.free, exe_pure]
  rfl

/-- A shuffle, whose checks pass (R156). -/
theorem shuffle_ready {k : Shfl} {vd va : BitVec 7} {ea : Bool} {p : Option Pfx} {vb : List (BitVec 7 × Bool)} {n : VEnv → Nat → Nat}
    (hi : Issues s i e)
    (hr : LaneReady s e v [vd.toNat] (vb.map (fun b => v.src b.1 b.2) ++ [⟨va.toNat, shuffleReads k v p n, ea⟩])) :
    shuffle i s k vd va ea p vb n = .next (after e (s.modWarp e.ci e.wi (fun w => w.out v vd.toNat (fun l =>
      v.moved va (shflLane k (segW p) (n v l) v.act l))))) := by
  have hg : regsOk e.k (vd.toNat :: va.toNat :: vb.map (fun b => b.1.toNat)) = .ok () := by
    refine regsOk_ok fun r h => hr.range r ?_
    simp only [List.mem_cons, List.mem_map, List.mem_append, List.map_append, List.map_map, List.map_cons, List.map_nil, List.not_mem_nil] at h ⊢
    rcases h with h | h | ⟨b, hb, h⟩
    · exact .inl (.inl h)
    · exact .inr (.inr (.inl h))
    · exact .inr (.inl ⟨b, hb, h⟩)
  have hb : ∀ x ∈ vb.map (fun b => v.src b.1 b.2), SrcOk v.w x := fun x h => hr.read x (List.mem_append_left _ h)
  have ha : ∀ x ∈ [(⟨va.toNat, shuffleReads k v p n, ea⟩ : Src)], SrcOk v.w x := fun x h => hr.read x (List.mem_append_right _ h)
  unfold shuffleReads at ha
  refine run_ready hi ?_
  simp only [(venv_ok.1 hr.env).1, hg, emptyCheck_ok hb, pendCheck_ok hb, emptyCheck_ok ha, pendCheck_ok ha, (venv_ok.1 hr.env).2,
    poisonCheck_ok hb, poisonCheck_ok ha, dstFree_ok hr.free, exe_ok_bind, exe_pure]

/-- A scan, whose heads can be read and whose checks pass (R161). -/
theorem scanOp_ready {vd va : BitVec 7} {ea : Bool} {op : Nat} {ex : Bool} {heads : Env → VEnv → Exe (Nat → Bool)} {h : Nat → Bool}
    (hi : Issues s i e) (hr : LaneReady s e v [vd.toNat] [v.src va ea]) (hh : heads e v = .ok h) :
    scanOp i s vd va ea op ex heads = .next (after e (s.modWarp e.ci e.wi (fun w => w.out v vd.toNat (fun l => ires
      ((scanFold (redComb op v.mode v.vout) (redRead v op va) v.act.getLsbD h ex (redEmpty op) none (List.range 64)).getD l 0))))) := by
  have hg : regsOk e.k [vd.toNat, va.toNat] = .ok () := regsOk_ok hr.range
  refine run_ready hi ?_
  simp only [(venv_ok.1 hr.env).1, hg, checkV_ok (venv_ok.1 hr.env).2 hr.read, hh, dstFree_ok hr.free, exe_ok_bind, exe_pure]

theorem maskHeads_ok {mh : BitVec 3} (h : MReady v.w mh.toNat) : maskHeads mh e v = .ok (fun i => (mval e v.w mh.toNat).getLsbD i) := by
  simp only [maskHeads, rdM_ok h, exe_ok_bind, exe_pure]; rfl

/-- What a row of the shuffles and of the scans says. -/
theorem exec_shuffleRow {k : Shfl} {vd va : BitVec 7} {ea : Bool} {p : Option Pfx} {vb : List (BitVec 7 × Bool)} {n : VEnv → Nat → Nat}
    (h : ShuffleRow i k vd va ea p vb n) : exec i s = shuffle i s k vd va ea p vb n := by cases h <;> rfl

theorem exec_scanRow {vd va : BitVec 7} {ea : Bool} {op : Nat} {ex : Bool} {ok : Env → VEnv → Prop} {hd : Env → VEnv → Nat → Bool}
    (h : ScanRow i vd va ea op ex ok hd) (hk : ok e v) :
    ∃ heads, exec i s = scanOp i s vd va ea op ex heads ∧ heads e v = .ok (hd e v) := by
  cases h with
  | scan | scanEx => exact ⟨_, rfl, rfl⟩
  | sscan | sscanEx => exact ⟨_, rfl, maskHeads_ok hk⟩

/-- A form with one vector destination writes that register's lanes, and nothing else. -/
theorem exec_vectorForm (hi : Issues s i e) (h : VectorForm v s e i d) :
    venv s e = .ok v ∧ ∃ f, exec i s = .next (after e (s.modWarp e.ci e.wi (fun w => w.out v d f))) := by
  cases h with
  | lane _ _ xs f h hr => exact ⟨hr.env, _, exec_lane_ready h hi hr⟩
  | sel o q hq hr hm => exact ⟨hr.env, _, execSel_ready hi hq hr hm⟩
  | shuffle _ k vd va ea p vb n h hr => exact ⟨hr.env, _, (exec_shuffleRow h).trans (shuffle_ready hi hr)⟩
  | scan _ vd va ea op ex ok hd h hr hk =>
    obtain ⟨heads, hx, hh⟩ := exec_scanRow (s := s) h hk
    exact ⟨hr.env, _, hx.trans (scanOp_ready hi hr hh)⟩

theorem vectorForm_leaves (hi : Issues s i e) (h : VectorForm v s e i d) :
    ∃ t w', exec i s = .next t ∧ LeavesTheMachine s t e ∧ t.warp? e.ci e.wi = some w' ∧ LeavesRegisters v.w w' d (v.act ||| v.zl) := by
  obtain ⟨hv, f, hx⟩ := exec_vectorForm hi h
  have own := issues_own hi
  obtain ⟨fr, ls, hw⟩ := after_warp? (t := s.modWarp e.ci e.wi (fun w => w.out v d f)) own
    (by rw [modWarp_warp?, if_pos ⟨rfl, rfl⟩, venv_warp hv, Option.map_some])
  exact ⟨_, _, hx, leaves_after own leaves_modWarp, hw, leavesRegisters_out⟩

end Lanes

section Masks
variable {s : State} {e : Env} {v : VEnv} {w : Warp} {i : Instr} {md : BitVec 3}

theorem maskAfter_other {old : W64} {p : Nat → Bool} {l : Nat} (hl : l < 64) (h : (v.act ||| v.zl).getLsbD l = false) :
    (maskAfter old v p).getLsbD l = old.getLsbD l := by
  obtain ⟨ha, hz⟩ : v.act.getLsbD l = false ∧ v.zl.getLsbD l = false := by simpa using h
  simp only [maskAfter, BitVec.getLsbD_or, BitVec.getLsbD_and, BitVec.getLsbD_not, hl, ha, hz, Bool.or_false, Bool.and_false, Bool.not_false,
    decide_true, Bool.and_true]

/-- The written mask register keeps the bits of every other lane; every other mask register and its poison stay (R128, R129). -/
theorem leavesMasks_setM {p : Nat → Bool} {fr : List Entry} {ls : List LoopEnt} (hm : md ≠ 0) :
    LeavesMasks w { w.setM md.toNat v p with frontier := fr, loops := ls } md (v.act ||| v.zl) := by
  have h0 : md.toNat ≠ 0 := fun k => hm (BitVec.eq_of_toNat_eq k)
  refine ⟨rfl, fun r hr => ?_, fun r hr => ?_, fun l hl h => ?_⟩
  · exact modAt_get.trans (if_neg (by omega))
  · simp only [Warp.setM]
    split
    · simp only [BitVec.getLsbD_and, BitVec.getLsbD_not, BitVec.getLsbD_shiftLeft]
      by_cases h8 : r < 8
      · have : (1#8).getLsbD (r - md.toNat) = true → r < md.toNat := by
          simp [BitVec.getLsbD_one]; omega
        simp [h8]; omega
      · simp [BitVec.getLsbD_of_ge w.mpoison r (by omega)]
    · rfl
  · simp only [Warp.setM, List.getD_eq_getElem?_getD, modAt_get, if_true]
    cases w.mregs[md.toNat - 1]? with
    | none => rfl
    | some old => exact maskAfter_other hl h

/-- A form with one mask destination writes that register, and nothing else. -/
theorem exec_maskForm (hi : Issues s i e) (hm : md ≠ 0) (h : MaskForm v s e i md) :
    venv s e = .ok v ∧ ∃ p, exec i s = .next (after e (maskWrite s e v md p)) := by
  cases h with
  | lane _ _ xs p h hr => exact ⟨hr.env, _, exec_mask_ready h hi hm hr⟩
  | logic _ _ ms f h hv hr => exact ⟨hv, _, exec_logic_ready h hi hm hv hr⟩
  | tstf o hv hr => exact ⟨hv, _, execTstf_ready hi hm hv hr⟩

theorem maskForm_leaves (hi : Issues s i e) (hm : md ≠ 0) (h : MaskForm v s e i md) :
    ∃ t w', exec i s = .next t ∧ LeavesTheMachine s t e ∧ t.warp? e.ci e.wi = some w' ∧ LeavesMasks v.w w' md (v.act ||| v.zl) := by
  obtain ⟨hv, p, hx⟩ := exec_maskForm hi hm h
  have own := issues_own hi
  obtain ⟨fr, ls, hw⟩ := after_warp? (t := maskWrite s e v md p) own
    (by rw [maskWrite, modWarp_warp?, if_pos ⟨rfl, rfl⟩, venv_warp hv, Option.map_some])
  exact ⟨_, _, hx, leaves_after own leaves_modWarp, hw, leavesMasks_setM hm⟩

end Masks

section Scalars
variable {s t : State} {e : Env} {w : Warp} {i : Instr} {d r : Nat} {x : W64} {who : ThreadRef}

/-- The scalar file of an issuer after a change of it. -/
theorem modScal_scal {f : List W64 × W64 × W64 → List W64 × W64 × W64} :
    (s.modScal who f).scal who = s.scal who ∨ (s.modScal who f).scal who = f (s.scal who) := by
  cases who with
  | warp c j =>
    simp only [State.modScal, State.scal, modWarp_warp?, and_self, if_true]
    cases s.warp? c j with
    | none => exact .inl rfl
    | some w => exact .inr rfl
  | ctx y =>
    simp only [State.modScal, State.scal, modCtx_ctxs, modAt_get, if_true]
    cases s.ctxs[y]? with
    | none => exact .inl rfl
    | some c => exact .inr rfl

theorem setS_sregs : ((s.setS who d x).scal who).1 = (s.scal who).1 ∨ ((s.setS who d x).scal who).1 = modAt (s.scal who).1 d (fun _ => x) := by
  unfold State.setS
  split
  · exact .inl rfl
  · exact modScal_scal.imp (congrArg Prod.fst) (congrArg Prod.fst)

theorem setS_sreg_other (hr : r ≠ d) : (s.setS who d x).sreg who r = s.sreg who r := by
  simp only [State.sreg]
  rcases setS_sregs (s := s) (who := who) (d := d) (x := x) with h | h
  · rw [h]
  · rw [h, List.getD_eq_getElem?_getD, modAt_get, if_neg hr, List.getD_eq_getElem?_getD]

/-- Threads that go on keep their scalar file. -/
theorem after_sreg (ho : e.Own) : (after e t).sreg e.who r = t.sreg e.who r := by
  rcases ho with hw | ⟨y, hy⟩
  · simp only [after_warp hw, State.sreg, State.scal, hw, modWarp_warp?, and_self, if_true]
    cases t.warp? e.ci e.wi with
    | none => rfl
    | some w =>
      obtain ⟨fr, ls, hp⟩ := place_eq (w := w) (img := e.k.image) (m := e.m0) (pc := e.npc)
      simp only [Option.map_some, hp]
  · simp only [after_ctx hy, State.sreg, State.scal, hy, modCtx_ctxs, modAt_get, if_true]
    cases t.ctxs[y]? with
    | none => rfl
    | some c =>
      obtain ⟨pc, ls, hp⟩ := ctxLoops_eq (n := 5) (c := { c with pc := e.npc, wait := none })
      simp only [Option.map_some, hp]

theorem leaves_setS (ho : e.Own) : LeavesTheMachine s (s.setS e.who d x) e := by
  unfold State.setS
  split
  · exact leaves_self
  · rcases ho with hw | ⟨y, hy⟩
    · rw [hw]; exact leaves_modWarp
    · rw [hy]; exact leaves_modCtx hy

/-- The issuing warp after a scalar register is written: its scalar file, or nothing where a context issues. -/
theorem setS_warp? (ho : e.Own) (h : s.warp? e.ci e.wi = some w) :
    ∃ sr sp so, (s.setS e.who d x).warp? e.ci e.wi = some { w with sregs := sr, spend := sp, spoison := so } := by
  unfold State.setS
  split
  · exact ⟨_, _, _, h⟩
  · rcases ho with hw | ⟨y, hy⟩
    · rw [hw]
      exact ⟨_, _, _, by rw [State.modScal, modWarp_warp?, if_pos ⟨rfl, rfl⟩, h, Option.map_some]⟩
    · rw [hy]; exact ⟨_, _, _, h⟩

/-- Scalar operations of two registers, of one, and of a register and an immediate, whose checks pass (R126, R127). -/
theorem salu_ready {o : OpS3} {f : W64 → W64 → W64} {g : W32 → W32 → W32} (hi : Issues s i e) (h1 : SReady s e o.ss1.toNat)
    (h2 : SReady s e o.ss2.toNat) (hd : SFree s e o.sd.toNat) : salu i s o f g = .next (after e (s.setS e.who o.sd.toNat
      (if o.w then (g ((s.sreg e.who o.ss1.toNat).setWidth 32) ((s.sreg e.who o.ss2.toNat).setWidth 32)).signExtend 64
       else f (s.sreg e.who o.ss1.toNat) (s.sreg e.who o.ss2.toNat)))) :=
  run_ready hi (by simp only [rdS_ok h1, rdS_ok h2, exe_ok_bind, wrS_ok hd])

theorem salu1_ready {o : OpS2} {f : W64 → W64} {g : W32 → W32} (hi : Issues s i e) (h1 : SReady s e o.ss1.toNat) (hd : SFree s e o.sd.toNat) :
    salu1 i s o f g = .next (after e (s.setS e.who o.sd.toNat
      (if o.w then (g ((s.sreg e.who o.ss1.toNat).setWidth 32)).signExtend 64 else f (s.sreg e.who o.ss1.toNat)))) :=
  run_ready hi (by simp only [rdS_ok h1, exe_ok_bind, wrS_ok hd])

theorem saluI_ready {o : OpSI} {f : W64 → W64 → W64} (hi : Issues s i e) (h1 : SReady s e o.ss1.toNat) (hd : SFree s e o.sd.toNat) :
    saluI i s o f = .next (after e (s.setS e.who o.sd.toNat (f (s.sreg e.who o.ss1.toNat) (siImm o.imm12 o.lim)))) :=
  run_ready hi (by simp only [rdS_ok h1, exe_ok_bind, wrS_ok hd])

theorem flag_decide {n : Nat} {p : Prop} [Decidable p] : (flag (decide p) : BitVec n) = if p then 1 else 0 := by
  simp only [flag, decide_eq_true_eq]

theorem flag_decide_not {n : Nat} {p : Prop} [Decidable p] : (flag (decide ¬p) : BitVec n) = if p then 0 else 1 := by
  rw [flag_decide, ite_not]

theorem flag_not {n : Nat} {b : Bool} : (flag (!b) : BitVec n) = if b then 0 else 1 := by cases b <;> rfl

theorem setWidth_low {a : W64} : (a.setWidth 32).setWidth 64 = BitVec.ofNat 64 (a.toNat % 2 ^ 32) := by
  apply BitVec.eq_of_toNat_eq; simp only [BitVec.toNat_setWidth, BitVec.toNat_ofNat]

/-- What a row of the scalar operations says of its instruction. -/
theorem exec_scalarRow {o : OpS3} {f : W64 → W64 → W64} {g : W32 → W32 → W32} (h : ScalarRow i o f g) : exec i s = salu i s o f g := by
  cases h with
  | sseq => simp only [← flag_decide]; rfl
  | ssne => simp only [← flag_decide_not]; rfl
  | ssle | ssleu => simp only [← flag_not]; rfl
  | _ => rfl

theorem exec_scalarImmRow {o : OpSI} {f : W64 → W64 → W64} (h : ScalarImmRow i o f) : exec i s = saluI i s o f := by
  cases h with
  | smovhi => simp only [← setWidth_low]; rfl
  | _ => rfl

theorem exec_sclz {o : OpS2} : exec (.sclz o) s = salu1 (.sclz o) s o (fun a => BitVec.ofNat 64 (64 - bitLen 64 a.toNat))
    (fun a => BitVec.ofNat 32 (32 - bitLen 32 a.toNat)) := rfl

theorem exec_spopc {o : OpS2} : exec (.spopc o) s = salu1 (.spopc o) s o (fun a => BitVec.ofNat 64 (setBitsOf 64 a.toNat))
    (fun a => BitVec.ofNat 32 (setBitsOf 32 a.toNat)) := rfl

theorem exec_smovi {o : OpSIm} : exec (.smovi o) s = run (.smovi o) s (fun e => wrS s e o.sd.toNat (siImm o.imm12 o.lim)) := rfl

/-- A form with one scalar destination writes that register, and nothing else. -/
theorem exec_scalarForm (hi : Issues s i e) (hd : SFree s e d) (h : ScalarForm s e i d) : ∃ x, exec i s = .next (after e (s.setS e.who d x)) := by
  cases h with
  | alu _ o f g h h1 h2 => exact ⟨_, (exec_scalarRow h).trans (salu_ready hi h1 h2 hd)⟩
  | imm _ o f h h1 => exact ⟨_, (exec_scalarImmRow h).trans (saluI_ready hi h1 hd)⟩
  | clz o h1 => exact ⟨_, exec_sclz.trans (salu1_ready hi h1 hd)⟩
  | popc o h1 => exact ⟨_, exec_spopc.trans (salu1_ready hi h1 hd)⟩
  | movi o => exact ⟨_, exec_smovi.trans (run_ready hi (wrS_ok hd))⟩

theorem scalarForm_leaves (hi : Issues s i e) (hd : SFree s e d) (h : ScalarForm s e i d) :
    ∃ t, exec i s = .next t ∧ LeavesTheMachine s t e ∧ (∀ r, r ≠ d → t.sreg e.who r = s.sreg e.who r) ∧ t.sreg e.who 0 = 0
      ∧ (∀ w, s.warp? e.ci e.wi = some w → ∃ w', t.warp? e.ci e.wi = some w'
          ∧ w' = { w with sregs := w'.sregs, spend := w'.spend, spoison := w'.spoison, frontier := w'.frontier, loops := w'.loops }) := by
  obtain ⟨x, hx⟩ := exec_scalarForm hi hd h
  have own := issues_own hi
  refine ⟨_, hx, leaves_after own (leaves_setS own), fun r hr => (after_sreg own).trans (setS_sreg_other hr), rfl, fun w hw => ?_⟩
  obtain ⟨sr, sp, so, hs⟩ := setS_warp? (d := d) (x := x) own hw
  obtain ⟨fr, ls, ha⟩ := after_warp? own hs
  exact ⟨_, ha, rfl⟩

end Scalars

/-- Settles O57: each form's exact next state, and what the write of its one register and the move of its threads leave. -/
theorem registerInstructionsLeaveTheRest : Obligations.RegisterInstructionsLeaveTheRest :=
  ⟨fun _ _ _ _ _ hi h => vectorForm_leaves hi h, fun _ _ _ _ _ hi h hm => maskForm_leaves hi hm h,
    fun _ _ _ _ hi h hd => scalarForm_leaves hi hd h⟩

end Sys2Proof.Machine
end

section
/-! Control flow (R97, R98, R106 to R111, R402): a control instruction says itself where its threads go, so its body answers the next state or
a trap; the branches share one body, whose verdict is `loopCheck`'s. -/
namespace Sys2Proof.Machine
open Sys2Proof.Laws Sys2Proof.Claims

section Control
variable {s t : State} {e : Env} {i : Instr} {w : Warp} {body : Env → Exe State}

theorem runCtl_ready (hi : Issues s i e) (hb : body e = .ok t) : runCtl i s body = .next (t.ctxSettle e.who) :=
  runCtlH_ok hi.cur hi.env hi.takes hb

theorem runCtl_trap {tr : Trap} (hi : Issues s i e) (hb : body e = .error (.trap tr)) :
    runCtl i s body = .next ((s.raise e tr).ctxSettle e.who) := runCtlH_stop hi.cur hi.env hi.takes hb

/-- ILLEGAL_INSTR names its reason and 32 bits of a word or a target (R65, R106). -/
theorem illegal_eq {r n : Nat} : illegal r n = .trap (trapWord 1 (BitVec.ofNat 64 (r * 2 ^ 56 + n % 2 ^ 32))) := rfl

end Control

section Branches
variable {s : State} {e : Env} {i : Instr} {w : Warp} {vd : Leave} {tk x : W64} {off : BitVec 16} {brk : Bool}

theorem loopsOf_warp {c j : Nat} (hx : e.who = .warp c j) (hw : e.w? s = some w) : loopsOf s e = w.loops := by
  simp only [loopsOf, hx, hw]

/-- The loop stack that a branch judges is the issuer's. -/
theorem loopsOf_issuer (hi : Issues s i e) : loopsOf s e = s.loopsOf e := by
  obtain ⟨who, _, ci, wi⟩ := e
  cases who with
  | warp c j =>
    obtain ⟨rfl, rfl⟩ : ci = c ∧ wi = j := env?_warp hi.env
    rfl
  | ctx y => rfl

/-- `i` branches with its entry's threads `tk` (R107). -/
def Branches (s : State) (e : Env) (i : Instr) (tk : W64) (off : BitVec 16) (brk : Bool) : Prop :=
  ∃ body, exec i s = runCtl i s body ∧ body e = branchBody s e tk off brk

theorem Branches.taken (h : Branches s e i tk off brk) (hi : Issues s i e) (hl : loopCheck (loopsOf s e) tk (bTarget e off) brk = vd)
    (hv : ∀ x, vd ≠ .bad x) : exec i s = .next ((s.branch e vd tk (bTarget e off)).ctxSettle e.who) := by
  obtain ⟨body, hx, hb⟩ := h
  refine hx.trans (runCtl_ready hi (hb.trans ?_))
  rw [branchBody, hl]
  cases vd with
  | bad x => exact absurd rfl (hv x)
  | stay | brk | leave => rfl

theorem Branches.refused (h : Branches s e i tk off brk) (hi : Issues s i e) (hl : loopCheck (loopsOf s e) tk (bTarget e off) brk = .bad x) :
    exec i s = .next ((s.raise e (trapWord 5 x)).ctxSettle e.who) := by
  obtain ⟨body, hx, hb⟩ := h
  refine hx.trans (runCtl_trap hi (hb.trans ?_))
  rw [branchBody, hl]; rfl

theorem br_branches {o : OpBM} (hw : e.w? s = some w) (hm : MReady w o.m.toNat) : Branches s e (.br o) (brTaken e w o) o.off o.brk :=
  ⟨_, rfl, by simp only [theWarp_ok hw, rdM_ok hm, exe_ok_bind]; rfl⟩

theorem brs_branches {o : OpBS} (hs : SReady s e o.s.toNat) : Branches s e (.brs o) (brsTaken s e o) o.off o.brk :=
  ⟨_, rfl, by simp only [rdS_ok hs, exe_ok_bind]; rfl⟩

/-- LOOP with a count of 0 is a uniform branch to its END (R110). -/
theorem loop_branches {o : OpBC} (hs : SReady s e o.s.toNat) (hc : (s.sreg e.who o.s.toNat).setWidth 32 = (0 : W32)) :
    Branches s e (.loop o) e.m0 o.off false :=
  ⟨_, rfl, by simp only [rdS_ok hs, exe_ok_bind, hc, if_true]⟩

theorem execCall_ready {o : OpBC} (hi : Issues s (.call o) e) (hs : SFree s e o.s.toNat) :
    exec (.call o) s = .next (((s.setS e.who o.s.toNat (e.npc.setWidth 64)).jump e (bTarget e o.off)).ctxSettle e.who) :=
  runCtl_ready hi (by simp only [wrS_ok hs, exe_ok_bind, exe_pure])

theorem execLoop_pushes {o : OpBC} (hi : Issues s (.loop o) e) (hs : SReady s e o.s.toNat)
    (hc : (s.sreg e.who o.s.toNat).setWidth 32 ≠ (0 : W32)) (hl : (loopsOf s e).length ≠ 4) :
    exec (.loop o) s = .next ((s.pushLoop e ⟨e.npc, bTarget e o.off, (s.sreg e.who o.s.toNat).setWidth 32, e.m0, 0⟩).ctxSettle e.who) :=
  runCtl_ready hi (by simp only [rdS_ok hs, exe_ok_bind, hc, hl, if_false, exe_pure])

/-- A fifth loop is refused (R98, R110). -/
theorem execLoop_full {o : OpBC} (hi : Issues s (.loop o) e) (hs : SReady s e o.s.toNat)
    (hc : (s.sreg e.who o.s.toNat).setWidth 32 ≠ (0 : W32)) (hl : (loopsOf s e).length = 4) :
    exec (.loop o) s = .next ((s.raise e (trapWord 5 (BitVec.ofNat 64 (2 ^ 56 + 3 * 2 ^ 32)))).ctxSettle e.who) :=
  runCtl_trap hi (by simp only [rdS_ok hs, exe_ok_bind, hc, hl, if_true, if_false]; rfl)

end Branches

section Targets
variable {s : State} {e : Env} {w : Warp} {o : OpX1}

theorem evenTargets {l : List Nat} {f : Nat → W32} (h : ∀ i ∈ l, (f i).getLsbD 0 = false) : l.find? (fun i => (f i).getLsbD 0) = none := by
  simpa using h

theorem findSome?_leaveInfo {l : List Nat} {f : Nat → Leave} :
    l.findSome? (fun i => leaveInfo (f i)) = none ↔ ∀ i ∈ l, ∀ x, f i ≠ .bad x := by
  rw [List.findSome?_eq_none_iff]
  refine forall₂_congr fun i _ => ?_
  cases f i <;> simp [leaveInfo]

/-- The body of JMPX after the read of its targets: the first odd target, the first set of threads that the loop rules refuse, or the moves of
every set (R109). -/
def jmpxMoves (s : State) (e : Env) (w : Warp) (r : Nat) : Exe State :=
  match (lanesOf e.m0).find? (fun i => (w.lane r i).data.getLsbD 0) with
  | some i => .error (illegal 10 (w.lane r i).data.toNat)
  | none =>
    match (lanesOf e.m0).findSome? (fun i => leaveInfo (loopCheck w.loops (jmpGroup w r e.m0 i) (w.lane r i).data false)) with
    | some x => .error (trapOf 5 x)
    | none => .ok (s.modWarp e.ci e.wi (fun w0 =>
        (((lanesOf e.m0).filter (fun i => decide (lowLane (jmpGroup w r e.m0 i) = some i))).foldl (fun x i =>
          x.takeBranch e.k.image (loopCheck w.loops (jmpGroup w r e.m0 i) (w.lane r i).data false) (jmpGroup w r e.m0 i) (w.lane r i).data)
          w0).settle e.k.image))

theorem exec_jmpx (hw : e.w? s = some w) (hr : InRange e [o.a.toNat]) (hs : Readable w [⟨o.a.toNat, e.m0, false⟩]) :
    ∃ body, exec (.jmpx o) s = runCtl (.jmpx o) s body ∧ body e = jmpxMoves s e w o.a.toNat :=
  ⟨_, rfl, by simp only [theWarp_ok hw, regsOk_ok hr, checkSrcs_ok hs, exe_ok_bind]; rfl⟩

theorem target_parity {x : W64} : (x.setWidth 32 : W32).getLsbD 0 = x.getLsbD 0 := by rw [BitVec.getLsbD_setWidth]; rfl

theorem execRet_ready {o : OpX1} (hi : Issues s (.ret o) e) (hs : SReady s e o.a.toNat) (ho : (s.sreg e.who o.a.toNat).getLsbD 0 = false) :
    exec (.ret o) s = .next ((s.jump e ((s.sreg e.who o.a.toNat).setWidth 32)).ctxSettle e.who) :=
  runCtl_ready hi (by simp only [rdS_ok hs, exe_ok_bind, target_parity, ho, need_ok Bool.not_false, exe_pure])

theorem execRet_odd {o : OpX1} (hi : Issues s (.ret o) e) (hs : SReady s e o.a.toNat) (ho : (s.sreg e.who o.a.toNat).getLsbD 0 = true) :
    exec (.ret o) s
      = .next ((s.raise e (trapWord 1 (BitVec.ofNat 64 (10 * 2 ^ 56 + (s.sreg e.who o.a.toNat).toNat % 2 ^ 32)))).ctxSettle e.who) :=
  runCtl_trap hi (by
    simp only [rdS_ok hs, exe_ok_bind, target_parity, ho, need_fails Bool.not_true, exe_error_bind, illegal_eq, BitVec.toNat_setWidth, Nat.mod_mod])

end Targets

/-- Settles O15: branches by their shared body, JMPX by the three outcomes of its sets of threads. -/
theorem controlFlowMovesThreads : Obligations.ControlFlowMovesThreads := by
  refine ⟨fun o w vd s e hi ⟨hw, hm, hl, ⟨x, hx⟩, hv⟩ => ?_, fun o w i s e hi ⟨hw, hm, ⟨x, hx⟩, hl⟩ => ?_,
    fun o vd s e hi ⟨hs, hl, hv⟩ => ?_, fun o i s e hi ⟨hs, hl⟩ => ?_, fun o s e hi hs => execCall_ready hi hs,
    fun o s e hi ⟨hs, hc, hl⟩ => ?_, fun o vd s e hi ⟨hs, hc, hl, hv⟩ => ?_, fun o s e hi ⟨hs, hc, hl⟩ => ?_,
    fun o i s e hi ⟨hs, hc, hl⟩ => ?_, fun o w i s e hi ⟨hw, hr, hs, ho⟩ => ?_, fun o w x s e hi ⟨hw, hr, hs, he, hb⟩ => ?_,
    fun o w s e hi ⟨hw, hr, hs, he, hv⟩ => ?_, fun o s e hi ⟨hs, ho⟩ => execRet_ready hi hs ho, fun o s e hi ⟨hs, ho⟩ => execRet_odd hi hs ho⟩
  · exact (br_branches hw hm).taken hi (loopsOf_warp hx hw ▸ hl) hv
  · exact (br_branches hw hm).refused hi (loopsOf_warp hx hw ▸ hl)
  · exact (brs_branches hs).taken hi (loopsOf_issuer hi ▸ hl) hv
  · exact (brs_branches hs).refused hi (loopsOf_issuer hi ▸ hl)
  · exact execLoop_pushes hi hs hc (loopsOf_issuer hi ▸ hl)
  · exact (loop_branches hs hc).taken hi (loopsOf_issuer hi ▸ hl) hv
  · exact execLoop_full hi hs hc (loopsOf_issuer hi ▸ hl)
  · exact (loop_branches hs hc).refused hi (loopsOf_issuer hi ▸ hl)
  · obtain ⟨body, hx, hj⟩ := exec_jmpx hw hr hs
    exact hx.trans (runCtl_trap hi (hj.trans (by simp only [jmpxMoves, ho, illegal_eq, Nat.mod_eq_of_lt (BitVec.isLt _)])))
  · obtain ⟨body, hx, hj⟩ := exec_jmpx hw hr hs
    exact hx.trans (runCtl_trap hi (hj.trans (by simp only [jmpxMoves, evenTargets he, hb]; rfl)))
  · obtain ⟨body, hx, hj⟩ := exec_jmpx hw hr hs
    exact hx.trans (runCtl_ready hi (hj.trans (by simp only [jmpxMoves, evenTargets he, findSome?_leaveInfo.2 hv])))

/-- What the software's code of a TRAP is: C, B and A in one number (R106). -/
theorem trapCode (a b c : BitVec 6) : (c ++ b ++ a).setWidth 64 = BitVec.ofNat 64 (a.toNat + b.toNat * 2 ^ 6 + c.toNat * 2 ^ 12) := by
  refine BitVec.eq_of_toNat_eq ?_
  rw [BitVec.toNat_setWidth, BitVec.toNat_append, BitVec.toNat_append, ← Nat.shiftLeft_add_eq_or_of_lt b.isLt,
    ← Nat.shiftLeft_add_eq_or_of_lt a.isLt, BitVec.toNat_ofNat, Nat.shiftLeft_eq, Nat.shiftLeft_eq]
  omega

section Returns
variable {s : State} {e : Env} {i : Instr} {w : Warp} {tgt : Env → Warp → Exe W32} {pc : W32}

/-- A return by the handler's threads, whose address can be told (R402). -/
theorem tretTo_ready (hi : Issues s i e) (hw : e.w? s = some w) (hh : w.hact = true) (ht : tgt e w = .ok pc) :
    tretTo i s tgt = .next ((s.modWarp e.ci e.wi (fun x => x.trapReturn e.k.image e.m0 pc)).ctxSettle e.who) :=
  runCtl_ready hi (by simp only [theWarp_ok hw, need_ok hh, ht, exe_ok_bind, exe_pure])

theorem tretTo_refused {tr : Trap} (hi : Issues s i e) (hw : e.w? s = some w) (hh : w.hact = true) (ht : tgt e w = .error (.trap tr)) :
    tretTo i s tgt = .next ((s.raise e tr).ctxSettle e.who) :=
  runCtl_trap hi (by simp only [theWarp_ok hw, need_ok hh, ht, exe_ok_bind, exe_error_bind])

/-- Outside a handler a return is ILLEGAL_INSTR with reason 6 (R402). -/
theorem tretTo_noHandler (hi : Issues s i e) (hw : e.w? s = some w) (hh : w.hact = false) :
    tretTo i s tgt = .next ((s.raise e (trapWord 1 (BitVec.ofNat 64 (6 * 2 ^ 56 + e.h.word % 2 ^ 32)))).ctxSettle e.who) :=
  runCtl_trap hi (by simp only [theWarp_ok hw, need_fails hh, exe_ok_bind, exe_error_bind]; rfl)

end Returns

/-- Settles O16: EXIT and TRAP have nothing to wait for, and the three returns share one body. -/
theorem threadsEndTrapAndReturn : Obligations.ThreadsEndTrapAndReturn := by
  refine ⟨fun s e hi _ => runCtl_ready hi rfl, fun o s e hi _ => runCtl_trap hi ?_, fun w s e hi ⟨hw, hh⟩ => tretTo_ready hi hw hh rfl,
    fun w s e hi ⟨hw, hh⟩ => tretTo_ready hi hw hh rfl, fun o w s e hi ⟨hw, hh, hs, ho⟩ => tretTo_ready hi hw hh ?_,
    fun o w s e hi ⟨hw, hh, hs, ho⟩ => tretTo_refused hi hw hh ?_, fun i w h s e hi ⟨hw, hh⟩ => ?_⟩
  · rw [trapCode]; rfl
  · simp only [rdS_ok hs, exe_ok_bind, ho, need_ok Bool.not_false, exe_pure]
  · simp only [rdS_ok hs, exe_ok_bind, ho, need_fails Bool.not_true, exe_error_bind, illegal_eq, Nat.mod_mod]
  · rcases h with rfl | rfl | ⟨o, rfl⟩ <;> exact tretTo_noHandler hi hw hh

end Sys2Proof.Machine
end

section
/-! Cohorts (R102 to R104, R112, R232): JOIN and LEAVE as one answer, whose cases stand in the order of R112, and the state it leaves. -/
namespace Sys2Proof.Machine
open Sys2Proof.Laws Sys2Proof.Claims

section Cohorts
variable {s : State} {e : Env} {w : Warp} {o : OpX2} {key : W32}

/-- The slot of a cohort of the crew's cluster: its own where it exists, else a free one (R102, R103). -/
def joinSlot (s : State) (e : Env) (key : W32) : Option Nat :=
  match s.cohort? e.k key with
  | some c => some c.slot
  | none => s.freeSlot e.k

/-- The issuing threads that are no members yet join: the state with them, and the count, or -1 where no slot is free (R112). -/
def newMembers (s : State) (e : Env) (w : Warp) (key : W32) : State × W64 :=
  match joinSlot s e key with
  | none => (s, BitVec.ofInt 64 (-1))
  | some n =>
    let t := s.joinCohort e key (e.m0 &&& ~~~(oldMembers w key)) n
    (t, BitVec.ofNat 64 (t.cohortCount e.k key))

/-- JOIN of `key` by the issuing threads: the state it leaves, and the answer (R112). -/
def joinAnswer (s : State) (e : Env) (w : Warp) (key : W32) : State × W64 :=
  if key = 0 then (s, BitVec.ofInt 64 (-3))
  else if e.m0 &&& ~~~(oldMembers w key) = 0 then (s, BitVec.ofNat 64 (s.cohortCount e.k key))
  else if oldMembers w key = 0 ∧ 4 ≤ w.cohorts.length then (s, BitVec.ofInt 64 (-2))
  else newMembers s e w key

/-- LEAVE of `key` by the issuing threads (R112, R232). -/
def leaveAnswer (s : State) (e : Env) (w : Warp) (key : W32) : State × W64 :=
  if key = 0 then (s, BitVec.ofInt 64 (-3))
  else match w.cohorts.find? (fun m => decide (m.key = key)) with
    | none => (s, BitVec.ofInt 64 (-1))
    | some m =>
      let t := (if m.mask &&& e.m0 = 0 then s else s.leaveCohort e.ci m e.m0 false).modWarp e.ci e.wi
        (fun w => { w with cohorts := membersDrop e.m0 (some key) w.cohorts })
      (t, BitVec.ofNat 64 (t.cohortCount e.k key))

/-- The state after an answer in a scalar register. -/
def answered (e : Env) (r : Nat) (q : State × W64) : State := after e (q.1.setS e.who r q.2)

theorem exec_join (hi : Issues s (.join o) e) (hw : e.w? s = some w) (hb : SReady s e o.b.toNat) (ha : SFree s e o.a.toNat)
    (hk : (s.sreg e.who o.b.toNat).setWidth 32 = key) : exec (.join o) s = .next (answered e o.a.toNat (joinAnswer s e w key)) := by
  refine run_ready hi ?_
  simp only [theWarp_ok hw, rdS_ok hb, freeS_ok ha, exe_ok_bind, hk]
  unfold joinAnswer
  by_cases hz : key = 0
  · rw [if_pos hz, if_pos hz]; rfl
  rw [if_neg hz, if_neg hz]
  by_cases hn : e.m0 &&& ~~~(oldMembers w key) = 0
  · rw [if_pos hn]; exact if_pos hn
  rw [if_neg hn]; refine (if_neg hn).trans ?_
  by_cases hf : oldMembers w key = 0 ∧ 4 ≤ w.cohorts.length
  · rw [if_pos hf]; exact if_pos hf
  rw [if_neg hf]; refine (if_neg hf).trans ?_
  unfold newMembers joinSlot
  cases hc : s.cohort? e.k key with
  | some c => rfl
  | none => cases hs : s.freeSlot e.k <;> rfl

theorem exec_leave (hi : Issues s (.leave o) e) (hw : e.w? s = some w) (hb : SReady s e o.b.toNat) (ha : SFree s e o.a.toNat)
    (hk : (s.sreg e.who o.b.toNat).setWidth 32 = key) : exec (.leave o) s = .next (answered e o.a.toNat (leaveAnswer s e w key)) := by
  refine run_ready hi ?_
  simp only [theWarp_ok hw, rdS_ok hb, freeS_ok ha, exe_ok_bind, hk]
  unfold leaveAnswer
  by_cases hz : key = 0
  · rw [if_pos hz, if_pos hz]; rfl
  rw [if_neg hz, if_neg hz]
  cases w.cohorts.find? (fun m => decide (m.key = key)) <;> rfl

/-- Threads that are no members, in a warp with room for their cohort: none of the first three cases of R112. -/
theorem joinAnswer_new (hz : key ≠ 0) (hn : e.m0 &&& ~~~(oldMembers w key) ≠ 0) (hf : oldMembers w key ≠ 0 ∨ w.cohorts.length < 4) :
    joinAnswer s e w key = newMembers s e w key := by
  have room : ¬(oldMembers w key = 0 ∧ 4 ≤ w.cohorts.length) := fun h => hf.elim (· h.1) (by omega)
  rw [joinAnswer, if_neg hz, if_neg hn, if_neg room]

end Cohorts

/-- Settles O17: each clause is one case of the answer of JOIN or LEAVE. -/
theorem cohortsJoinAndLeave : Obligations.CohortsJoinAndLeave := by
  refine ⟨fun o w s e hi ⟨hw, hb, ha, hk⟩ => (exec_join hi hw hb ha hk).trans ?_,
    fun o w key hz s e hi ⟨hw, hb, ha, hk, hn⟩ => (exec_join hi hw hb ha hk).trans ?_,
    fun o w key hz s e hi ⟨hw, hb, ha, hk, hn, ho, hf⟩ => (exec_join hi hw hb ha hk).trans ?_,
    fun o w key n hz s e hi ⟨hw, hb, ha, hk, hn, hf, hs⟩ => (exec_join hi hw hb ha hk).trans ?_,
    fun o w key hz s e hi ⟨hw, hb, ha, hk, hn, hf, hc, hs⟩ => (exec_join hi hw hb ha hk).trans ?_,
    fun o w s e hi ⟨hw, hb, ha, hk⟩ => (exec_leave hi hw hb ha hk).trans ?_,
    fun o w key hz s e hi ⟨hw, hb, ha, hk, hm⟩ => (exec_leave hi hw hb ha hk).trans ?_,
    fun o w key m hz s e hi ⟨hw, hb, ha, hk, hm⟩ => (exec_leave hi hw hb ha hk).trans ?_⟩
  · rw [joinAnswer, if_pos rfl]; rfl
  · rw [joinAnswer, if_neg hz, if_pos hn]; rfl
  · have none_old : e.m0 &&& ~~~(oldMembers w key) ≠ 0 := by rwa [ho, show ~~~(0 : W64) = BitVec.allOnes 64 from rfl, BitVec.and_allOnes]
    rw [joinAnswer, if_neg hz, if_neg none_old, if_pos ⟨ho, hf⟩]; rfl
  · have slot : joinSlot s e key = some n := hs
    rw [joinAnswer_new hz hn hf, newMembers, slot]; rfl
  · have slot : joinSlot s e key = none := by rw [joinSlot, hc]; exact hs
    rw [joinAnswer_new hz hn hf, newMembers, slot]; rfl
  · rw [leaveAnswer, if_pos rfl]; rfl
  · rw [leaveAnswer, if_neg hz, hm]; rfl
  · rw [leaveAnswer, if_neg hz, hm]; rfl

end Sys2Proof.Machine
end

section
/-! Crews (R84 to R87, R217, R350): what their placement adds to the state, which threads have its fork behind them, and when their launch ends. -/
namespace Sys2Proof.Machine
open Sys2Proof.Laws Sys2Proof.Claims

section Past
variable {s : State} {who : ThreadRef} {id x : Nat} {lanes : W64} {seen : List Nat}

theorem mem_addAll {a b : List Nat} : x ∈ addAll a b ↔ x ∈ a ∨ x ∈ b := by
  simp only [addAll, List.mem_append, List.mem_filter, Bool.not_eq_true', List.contains_eq_mem, decide_eq_false_iff_not]
  tauto

/-- A walk that collects what some learned sets hold. -/
theorem mem_foldl_addAll {ks : List Known} {p : Known → Prop} [DecidablePred p] {acc : List Nat} :
    x ∈ ks.foldl (fun a q => if p q then addAll a q.seen else a) acc ↔ x ∈ acc ∨ ∃ q ∈ ks, p q ∧ x ∈ q.seen := by
  induction ks generalizing acc with
  | nil => simp
  | cons q ks ih =>
    rw [List.foldl_cons, ih]
    by_cases h : p q
    · simp [h, mem_addAll, or_assoc]
    · simp [h]

/-- What a thread has learned for all its lanes from the start lies behind everything it does (R217, R219). -/
theorem mem_past_of_known (hq : ⟨who, lanes, 0, seen⟩ ∈ s.known) (hl : lanes ≠ 0) (hx : x ∈ seen) : x ∈ s.past who id lanes := by
  refine mem_addAll.2 (.inr (mem_foldl_addAll.2 (.inr ⟨_, hq, ?_, hx⟩)))
  simpa [State.fromLanes] using hl

theorem mem_learn_known (hx : x ∈ seen) : ⟨who, lanes, 0, seen⟩ ∈ (s.learn who lanes 0 seen).known := by
  rw [State.learn, if_neg (List.ne_nil_of_mem hx)]
  exact List.mem_append_right _ (List.mem_singleton_self _)

theorem learn_eq {since : Nat} : ∃ kn, s.learn who lanes since seen = { s with known := s.known ++ kn } := by
  unfold State.learn
  split
  · exact ⟨[], by rw [List.append_nil]⟩
  · exact ⟨_, rfl⟩

end Past

section Placement
variable {s t : State} {k : Crew} {seen ws : List Nat} {id n ci x : Nat} {j : Job} {l : Launch} {i kp : Nat} {c : Nat × Nat}

/-- Warps that learn one set change nothing but what is known, and each comes to know it. -/
theorem warpsLearn_eq : ∃ kn, ws.foldl (fun t w => t.learn (.warp ci w) (BitVec.allOnes 64) 0 seen) s = { s with known := s.known ++ kn }
    ∧ ∀ w ∈ ws, ∀ x ∈ seen, ⟨.warp ci w, BitVec.allOnes 64, 0, seen⟩ ∈ s.known ++ kn := by
  induction ws generalizing s with
  | nil => exact ⟨[], by rw [List.append_nil]; rfl, fun w hw => absurd hw List.not_mem_nil⟩
  | cons v ws ih =>
    obtain ⟨kv, hv⟩ := learn_eq (s := s) (who := .warp ci v) (lanes := BitVec.allOnes 64) (seen := seen) (since := 0)
    obtain ⟨kn, he, hk⟩ := ih (s := s.learn (.warp ci v) (BitVec.allOnes 64) 0 seen)
    rw [hv] at he hk
    refine ⟨kv ++ kn, ?_, fun w hw x hx => ?_⟩
    · rw [List.foldl_cons, hv, he, List.append_assoc]
    rw [← List.append_assoc]
    rcases List.mem_cons.1 hw with rfl | hw
    · have := mem_learn_known (s := s) (who := .warp ci w) (lanes := BitVec.allOnes 64) hx
      rw [hv] at this
      exact List.mem_append_left _ this
    · exact hk w hw x hx

/-- A start adds the crew, and the fork to what its warps know (R217). -/
theorem startCrew_eq : ∃ kn, s.startCrew k seen = { s with crews := s.crews ++ [k], known := kn }
    ∧ ∀ w < k.warps.length, ∀ x ∈ seen, ⟨.warp s.crews.length w, BitVec.allOnes 64, 0, seen⟩ ∈ kn := by
  obtain ⟨kn, he, hk⟩ := warpsLearn_eq (s := { s with crews := s.crews ++ [k] }) (ci := s.crews.length) (seen := seen)
    (ws := List.range k.warps.length)
  exact ⟨_, he, fun w hw => hk w (List.mem_range.2 hw)⟩

/-- Where no update awaits the crew, only requests learn where it stands (R230). -/
theorem reqsPlaced_eq (h : NothingAwaits s id n) : ∃ ds cs, s.reqsPlaced id n = { s with dies := ds, coming := cs } := by
  have none_mine : s.coming.filter (fun u => decide (u.1 = id ∧ u.2.1 = n)) = [] := by
    rw [List.filter_eq_nil_iff]
    exact fun u hu => by simpa using h u hu
  unfold State.reqsPlaced
  split
  · exact ⟨_, _, rfl⟩
  · simp only [none_mine, List.foldl_nil]
    exact ⟨_, _, rfl⟩

theorem findCore_fits (h : s.findCore j l = some i) (hc : (coreOrder l.pkt.toNat j.die)[i]? = some c) : s.fits l.image j.id c = true := by
  have := List.find?_some h
  simpa only [hc] using this

/-- A register of a crew that has just started holds full lanes of zeros (R113). -/
theorem startWarp_lane {img : Image} {r : Nat} (hr : r < img.regs) (hx : x < 64) : (Warp.start img).lane r x = ⟨0, false, true, false, false⟩ := by
  simp only [Warp.lane, Warp.start, VReg.start, List.getD_replicate, hr, hx]; rfl

/-- Every warp of a crew that is placed stands at the start of .text with all its threads READY (R84, R113). -/
theorem nextCrew_warp {w : Warp} (hw : w ∈ (nextCrew s id j l c kp).warps) :
    w.frontier = [⟨prioOf l.image 0, 0, .ready, BitVec.allOnes 64, none⟩] ∧ w.sregs = List.replicate 64 0 ∧ w.loops = [] ∧ w.hact = false
      ∧ ∀ r < l.image.regs, ∀ x < 64, w.lane r x = ⟨0, false, true, false, false⟩ := by
  obtain rfl := List.eq_of_mem_replicate hw
  exact ⟨rfl, rfl, rfl, rfl, fun r hr x hx => startWarp_lane hr hx⟩

theorem hasCore_goes (h : HasCore s id j l i c) : ¬(l.ncrews ≤ l.placed ∨ l.halted = true ∨ (!s.serves j.die) = true) := by
  obtain ⟨-, hp, hh, hs, -, -⟩ := h
  simp [hp, hh, hs]

/-- The placement of the next crew where it has a core and a parameter: each launch of the identifier counts it from its own count (R350). -/
theorem placeCrew_starts (h : HasCore s id j l i c) (hk : s.kparam j l = some kp) :
    s.placeCrew id = ((s.startCrew (nextCrew s id j l c kp) (l.forkSeen j.seen)).reqsPlaced id l.placed).modLaunch id
      (decide (l.placed + 1 < l.ncrews)) (fun x => { x with placed := x.placed + 1, next := (i + 1) % (coreOrder l.pkt.toNat j.die).length }) := by
  have goes := hasCore_goes h
  obtain ⟨⟨hj, hl⟩, -, -, -, hf, hc⟩ := h
  simp only [State.placeCrew, hj, hl, if_neg goes, hf, hc, hk]; rfl

/-- A crew whose parameter cannot be read is not placed, and no later one is (R350). -/
theorem crewPlace_halts (h : HasCore s id j l i c) (hk : s.kparam j l = none) :
    exec (.crewPlace id) s = .next ((s.modLaunch id false (fun l => { l with halted := true, bad := true })).launchCheck id) := by
  have goes := hasCore_goes h
  obtain ⟨⟨hj, hl⟩, -, -, -, hf, hc⟩ := h
  refine congrArg Host.Outcome.next ?_
  simp only [State.placeCrew, hj, hl, if_neg goes, hf, hc, hk]

theorem crewPlace_noCore (h : IsLaunch s id j l) (hf : s.findCore j l = none) : exec (.crewPlace id) s = .next s :=
  congrArg Host.Outcome.next (by simp only [State.placeCrew, h.1, h.2, hf, ite_self])

/-- A placement for which nothing waits adds the crew and the fork to what its warps know, and touches no memory, access or other crew. -/
theorem placeCrew_eq (h : HasCore s id j l i c) (hk : s.kparam j l = some kp) (ha : NothingAwaits s id l.placed) :
    ∃ kn ds cs js, s.placeCrew id = { s with crews := s.crews ++ [nextCrew s id j l c kp], known := kn, dies := ds, coming := cs, jobs := js }
      ∧ ∀ w < l.image.warps, ∀ x ∈ l.forkSeen j.seen, ⟨.warp s.crews.length w, BitVec.allOnes 64, 0, l.forkSeen j.seen⟩ ∈ kn := by
  obtain ⟨kn, he, hn⟩ := startCrew_eq (s := s) (k := nextCrew s id j l c kp) (seen := l.forkSeen j.seen)
  obtain ⟨ds, cs, hr⟩ := reqsPlaced_eq (s := s.startCrew (nextCrew s id j l c kp) (l.forkSeen j.seen)) (id := id) (n := l.placed) (by rw [he]; exact ha)
  refine ⟨kn, ds, cs, _, (placeCrew_starts h hk).trans (by rw [hr, he]; rfl), fun w hw => hn w ?_⟩
  simpa [nextCrew, Crew.start] using hw

/-- The core that takes the next crew has its resources; the crew stands there, and every thread of it has its fork behind it. Memory, accesses
and the other crews stay (R84, R85, R217, R350). -/
theorem crewPlace_ready (h : HasCore s id j l i c) (hk : s.kparam j l = some kp) (ha : NothingAwaits s id l.placed) :
    s.fits l.image j.id c = true ∧ ∃ t, exec (.crewPlace id) s = .next t ∧ t.crews = s.crews ++ [nextCrew s id j l c kp] ∧ t.mem = s.mem
      ∧ t.ops = s.ops
      ∧ ∀ w < l.image.warps, ∀ x ∈ l.forkSeen j.seen, x ∈ t.past (.warp s.crews.length w) t.nextOp (BitVec.allOnes 64) := by
  obtain ⟨kn, ds, cs, js, he, hn⟩ := placeCrew_eq h hk ha
  obtain ⟨-, -, -, -, hf, hc⟩ := h
  refine ⟨findCore_fits hf hc, _, congrArg Host.Outcome.next he, rfl, rfl, rfl, fun w hw x hx => ?_⟩
  exact mem_past_of_known (hn w hw x hx) (by decide) hx

end Placement

section Ends
variable {s : State} {ci id : Nat} {k : Crew} {j : Job} {l : Launch}

theorem crewQuiet_iff : s.crewQuiet ci k = true ↔ (∀ w ∈ k.warps, w.liveMask = 0) ∧ ∀ c ∈ s.ctxs, c.crew = ci → c.st = .ended := by
  simp only [State.crewQuiet, Crew.threadsEnded, Bool.and_eq_true, List.all_eq_true, decide_eq_true_eq, ne_eq, ← imp_iff_not_or]

/-- A crew that has not ended, or work of one that has, keeps the launch from completing (R347, R350). -/
theorem launchCheck_waits (h : IsLaunch s id j l) (hk : l.kids = [])
    (hw : (∃ k ∈ s.crewsOf id, k.st ≠ .ended) ∨ ∃ c ∈ s.launchCrews id, s.crewWork c = true) : s.launchCheck id = s := by
  have waits : (l.placed < l.ncrews ∧ !l.halted) ∨ (s.crewsOf id).any (fun k => decide (k.st ≠ .ended)) ∨ (s.launchCrews id).any s.crewWork := by
    simp only [List.any_eq_true, decide_eq_true_eq]; exact .inr hw
  simp only [State.launchCheck, h.1, h.2, hk, if_true, if_pos waits]

theorem launchCheck_completes (h : IsLaunch s id j l) (hk : l.kids = []) (hp : j.parent = none) (hn : l.placed = l.ncrews) (hb : l.bad = false)
    (hc : l.cut = false) (he : ∀ k ∈ s.crewsOf id, k.st = .ended) (hw : ∀ c ∈ s.launchCrews id, s.crewWork c = false) :
    s.launchCheck id = s.finishJob { j with seen := unionOf (j.seen :: (s.launchCrews id).map s.crewAll) }
      (if firstKill (s.crewsOf id) = 0 then 0 else 6) l.placed 0 (firstKill (s.crewsOf id)) := by
  have finished : ¬((l.placed < l.ncrews ∧ !l.halted) ∨ (s.crewsOf id).any (fun k => decide (k.st ≠ .ended)) ∨ (s.launchCrews id).any s.crewWork) := by
    simp only [List.any_eq_true, decide_eq_true_eq]
    rintro (⟨h, -⟩ | ⟨k, hm, hk⟩ | ⟨c, hm, hk⟩)
    · omega
    · exact hk (he k hm)
    · rw [hw c hm] at hk; cases hk
  simp only [State.launchCheck, h.1, h.2, hk, if_true, if_neg finished, State.jobDone, hp, hb, hc, Bool.false_eq_true, or_false, if_false, ite_not]

end Ends

/-- The half of the statement that speaks of ends holds (R87, R347, R350, R401). -/
theorem crewsEndAndLaunchesComplete : CrewsEndAndLaunchesComplete := by
  refine ⟨fun s ci k hk hr hq => ?_, fun s ci k hk hr hq => ?_, fun s ci k hk he => ?_, fun s ci k _ => crewQuiet_iff,
    fun s id j l h hk hp hn hb hc he hw => launchCheck_completes h hk hp hn hb hc he hw, fun s id j l h hk hw => launchCheck_waits h hk hw⟩
  all_goals refine congrArg Host.Outcome.next ?_
  · simp only [State.endCrew, hk, hr, hq, and_self, if_true]
  · simp [State.endCrew, hk, hr, hq]
  · simp [State.endCrew, hk, he]

end Sys2Proof.Machine
end

section
/-! A placement where two jobs carry one identifier (R350): `State.modLaunch` changes every job of the identifier, each by its
own count of placed crews. -/
namespace Sys2Proof.Machine
open Sys2Proof.Claims

/-- A launch of two crews of one warp, of which `placed` are placed. -/
def twinLaunch (placed : Nat) : Launch :=
  { pkt := 0, image := Image.six .vector, ncrews := 2, placed := placed, next := 0, halted := false, bad := false, cut := false, kids := []
    kidDone := [] }

/-- Its job on die 0, always under identifier 0. -/
def twinJob (placed : Nat) : Job :=
  { id := 0, queue := none, index := 0, ctxid := 1, die := 0, tag := 0, cq := false, compl := 0, parent := none, iter := none, opn := true
    kind := .launch (twinLaunch placed), seen := [] }

/-- A package in service without crews, with a launch that has placed no crew and one that has placed one, under one identifier. -/
def twins : State := { State.reset with boot := { State.reset.boot with stat := 4 }, jobs := [twinJob 0, twinJob 1] }

/-- The next crew of identifier 0 has the die's first core to go to. -/
theorem twins_hasCore : HasCore twins 0 (twinJob 0) (twinLaunch 0) 0 (0, 0) :=
  ⟨⟨rfl, rfl⟩, by decide, rfl, by decide +kernel, by decide +kernel, by decide +kernel⟩

theorem twins_kparam : twins.kparam (twinJob 0) (twinLaunch 0) = some 0 := by decide +kernel

/-- The counts of placed crews of the launches of a package. -/
def placedCounts (s : State) : List Nat := s.jobs.map (fun j => match j.kind with | .launch l => l.placed | _ => 0)

/-- The model counts the crew in both launches, each from its own count. -/
theorem twins_placed : placedCounts (twins.placeCrew 0) = [1, 2] := by decide +kernel

/-- Refutes O31: the statement takes every state, also one with two jobs of one identifier. The placement of its next crew there adds 1 to each
launch's own count and leaves the counts 1 and 2, where the first clause gives both the first launch's count, 1 and 1. The other clauses hold
(`crewPlace_ready`, `crewPlace_noCore`, `crewPlace_halts`, `crewsEndAndLaunchesComplete`). -/
theorem not_crewsArePlacedAndEnd : ¬ Obligations.CrewsArePlacedAndEnd := by
  intro h
  have given := Host.Outcome.next.inj (h.1.1 twins 0 (twinJob 0) (twinLaunch 0) 0 (0, 0) 0 twins_hasCore twins_kparam)
  have counts := (congrArg placedCounts given).symm.trans twins_placed
  exact absurd counts (by decide +kernel)

end Sys2Proof.Machine
end

section
/-! The producers of one register (R117, R134, R148, R149, R315): each row of the table is `runProducer` with the row's sources and function. -/
namespace Sys2Proof.Machine
open Sys2Proof.Laws Sys2Proof.Claims

variable {s : State} {i : Instr} {d : Nat} {xs : VEnv → List Src} {f : VEnv → Nat → Lane}

/-- What a row of the producers says of its instruction. -/
theorem exec_producerRow (h : ProducerRow i d xs f) : exec i s = runProducer i s d xs f := by
  cases h <;> rfl

/-- Settles O3: every row is `runProducer` with the row's sources and function, whose checks pass. -/
theorem producersEmptyTheirLanes : Obligations.ProducersEmptyTheirLanes := fun _ _ _ _ h _ _ _ hi hr =>
  (exec_producerRow h).trans (runProducer_ok hi.cur hi.env hi.takes hr.env hr.range hr.read hr.free)

end Sys2Proof.Machine
end

section
/-! Scalar instructions (R125 to R127): the rows run the shared bodies, and the counts of SCLZ and SPOPC on 32 bits are the same numbers on 64. -/
namespace Sys2Proof.Machine
open Sys2Proof.Laws Sys2Proof.Claims

variable {n v : Nat}

/-- A count of at most 32 has sign bit 0, so its sign extension is the same number (R126). -/
theorem signExtend_count (h : v ≤ 32) : (BitVec.ofNat 32 v).signExtend 64 = BitVec.ofNat 64 v := by
  have low : (BitVec.ofNat 32 v).toNat = v := Nat.mod_eq_of_lt (by omega)
  have sign : (BitVec.ofNat 32 v).msb = false := by rw [BitVec.msb_eq_decide, low]; exact decide_eq_false (by omega)
  rw [BitVec.signExtend_eq_setWidth_of_msb_false sign, ← BitVec.ofNat_toNat, low]

/-- The model counts set bits in one way for scalars and for lanes. -/
theorem setBitsOf_eq_popNat : setBitsOf n v = popNat n v := by
  induction n generalizing v with
  | zero => rfl
  | succ n ih => simp only [setBitsOf, popNat, ih]

theorem popNat_le : popNat n v ≤ n := by
  induction n generalizing v with
  | zero => exact Nat.le_refl 0
  | succ n ih => have := ih (v := v / 2); simp only [popNat]; omega

/-- The count of `n` bits reads the low `n` bits alone. -/
theorem popNat_mod : popNat n (v % 2 ^ n) = popNat n v := by
  induction n generalizing v with
  | zero => rfl
  | succ n ih =>
    have low : v % 2 ^ (n + 1) % 2 = v % 2 := Nat.mod_mod_of_dvd v (dvd_pow_self 2 n.succ_ne_zero)
    have high : v % 2 ^ (n + 1) / 2 = v / 2 % 2 ^ n := by rw [pow_succ', Nat.mod_mul_right_div_self]
    simp only [popNat, low, high, ih]

/-- Settles O5: every row is a shared body whose operands can be read and whose result can be written. -/
theorem scalarInstructionsCompute : Obligations.ScalarInstructionsCompute := by
  refine ⟨fun i o f g h s e hi ⟨h1, h2, hd⟩ => (exec_scalarRow h).trans (salu_ready hi h1 h2 hd), fun o s e hi ⟨h1, hd⟩ => ?_,
    fun o s e hi ⟨h1, hd⟩ => ?_, fun i o f h s e hi ⟨h1, hd⟩ => (exec_scalarImmRow h).trans (saluI_ready hi h1 hd),
    fun o s e hi hd => exec_smovi.trans (run_ready hi (wrS_ok hd))⟩
  · rw [exec_sclz, salu1_ready hi h1 hd, signExtend_count (Nat.sub_le 32 _), BitVec.toNat_setWidth]
  · rw [exec_spopc, salu1_ready hi h1 hd, setBitsOf_eq_popNat, setBitsOf_eq_popNat, signExtend_count popNat_le, BitVec.toNat_setWidth,
      popNat_mod]
    cases o.w <;> rfl

end Sys2Proof.Machine
end

section
/-! Register images and line state (R122, R123, R170, R173). -/
namespace Sys2Proof.Machine
open Sys2Proof.Laws Sys2Proof.Claims

variable {s : State} {e : Env} {v : VEnv} {w : Warp} {xs : List Src} {r kind : Nat} {i : Instr}

/-- A wait for producers looks at pending lanes alone, whether they are full or not (R118). -/
theorem pendCheck_idle (h : ∀ x ∈ xs, ∀ l ∈ lanesOf x.lanes, (w.lane x.reg l).pend = false) : pendCheck w xs = .ok () := by
  have idle : xs.any (fun x => (lanesOf x.lanes).any fun i => (w.lane x.reg i).pend) = false := by
    simp only [List.any_eq_false, Bool.not_eq_true]; exact h
  exact waitUnless_ok (by rw [idle]; rfl)

/-- POISON looks at poisoned lanes alone (R413). -/
theorem poisonCheck_clean (h : ∀ x ∈ xs, ∀ l ∈ lanesOf x.lanes, (w.lane x.reg l).poison = false) : poisonCheck w kind xs = .ok () := by
  have clean : (List.range 64).findSome? (poisonedAt w xs) = none := by
    simp only [List.findSome?_eq_none_iff, poisonedAt]
    intro l _ x hx
    refine if_neg fun hp => ?_
    obtain ⟨hl, hp⟩ := Bool.and_eq_true_iff.1 hp
    exact Bool.false_ne_true ((h x hx l (mem_lanesOf.2 hl)).symm.trans hp)
  simp only [poisonCheck, clean]

/-- A line-state instruction whose base and count can be read (R173). -/
theorem lineOp_ready {o : OpX2} {f : Crew → Nat → Crew} (hi : Issues s i e) (ha : SReady s e o.a.toNat) (hb : SReady s e o.b.toNat) :
    lineOp i s o f = .next (after e (s.modCrew e.ci (fun k => (List.range (min (s.sreg e.who o.b.toNat).toNat k.image.scrlines)).foldl
      (fun k j => f k (spAddr k.z ((s.sreg e.who o.a.toNat).toNat + 128 * j) 0 1 / 128)) k))) :=
  run_ready hi (by simp only [rdS_ok ha, rdS_ok hb, exe_ok_bind, exe_pure])

/-- LNSET and LNCLR give the lines of the run their state. -/
theorem exec_lineState {o : OpX2} {full : Bool} : exec (if full then .lnset o else .lnclr o) s
    = lineOp (if full then .lnset o else .lnclr o) s o (fun k l => k.setLf l full) := by
  cases full <;> rfl

/-- Settles O8: STIMG and LDIMG by their checks in order, LNSET and LNCLR by their shared body. -/
theorem imagesAndLines : Obligations.ImagesAndLines := by
  refine ⟨fun o v s e hi ⟨hv, hr, hs, hw, hl⟩ => run_ready hi ?_, fun o v s e hi ⟨hv, hr, hs, hf, hw, hl⟩ => run_ready hi ?_,
    fun o full i h s e hi ⟨ha, hb⟩ => ?_⟩
  · have pend : pendCheck v.w (runSrc v [o.vt.toNat]) = .ok () := pendCheck_idle fun x hx l hm => by
      rw [List.mem_singleton.1 hx] at hm ⊢; exact (hl l hm).1
    have clean : poisonCheck v.w 1 (runSrc v [o.vt.toNat]) = .ok () := poisonCheck_clean fun x hx l hm => by
      rw [List.mem_singleton.1 hx] at hm ⊢; exact (hl l hm).2
    simp only [(venv_ok.1 hv).1, regsOk_ok hr, rdSw_ok hs, pend, (venv_ok.1 hv).2, sOk_ok hs, clean, waitUnless_ok hw, exe_ok_bind, exe_pure]
  · have lines : (((lanesOf v.act).flatMap fun i => [4 * i, 256 + i / 8, 264 + i / 8]).all fun t =>
        e.k.linesFull (imgAddr e.k.z (imgBase (s.sreg e.who o.sb.toNat) o.lim) t) 1) = true := by
      simp only [List.all_flatMap, List.all_eq_true]; exact hl
    have ready := waitUnless_ok (Bool.and_eq_true_iff.2 ⟨hw, lines⟩)
    simp only [(venv_ok.1 hv).1, regsOk_ok hr, (venv_ok.1 hv).2, rdS_ok hs, dstFree_ok hf, ready, exe_ok_bind, exe_pure]
  · cases List.mem_singleton.1 h
    exact exec_lineState.trans (lineOp_ready hi ha hb)

end Sys2Proof.Machine
end

section
/-! Lanes and scalar registers that fill (R117, R125, R175, R194, R200, R220): what a read changes, what each source of a pending lane brings,
and what a read sees where nothing lies before it. -/
namespace Sys2Proof.Machine
open Sys2Proof.Laws Sys2Proof.Claims

variable {s u : State} {o p : Op} {id lane key n vt v lo : Nat} {m lanes : W64} {who : ThreadRef} {b lbad sx : Bool} {f : Fill}

/-- A read that has returned changes what is recorded of reads and of what threads know, and nothing else. -/
theorem noteRead_eq {since at_ : Nat} {sp acq : Option Nat} :
    ∃ rs kn, s.noteRead who since lanes sp key n at_ acq = { s with reads := rs, known := kn } := by
  unfold State.noteRead State.acquire
  dsimp only
  obtain ⟨kn, hk⟩ := learn_eq (s := { s with reads := s.reads ++ [⟨who, lanes, since, sp, key, n, at_⟩] }) (who := who) (lanes := lanes)
    (seen := s.joinedBy sp key n) (since := since)
  rw [hk]
  split
  · obtain ⟨kn2, hk2⟩ := learn_eq (s := { s with reads := s.reads ++ [⟨who, lanes, since, sp, key, n, at_⟩], known := s.known ++ kn })
    exact ⟨_, _, hk2⟩
  · exact ⟨_, _, rfl⟩

theorem threadRead_eq (h : s.threadRead o lanes key n = some (v, b, u)) : ∃ rs kn, u = { s with reads := rs, known := kn } := by
  unfold State.threadRead at h
  split at h
  · cases h
  split at h
  · cases h
  split at h
  · split at h
    · cases h; exact ⟨_, _, rfl⟩
    · cases h
  · cases h; exact noteRead_eq

/-- An operation under a number that has changed is one that was there, changed. -/
theorem mem_modOp {g : Op → Op} (hp : p ∈ (s.modOp id g).ops) (hid : p.id = id) : ∃ q ∈ s.ops, q.id = id ∧ p = g q := by
  obtain ⟨q, hq, rfl⟩ := List.mem_map.1 hp
  split at hid
  · next h => exact ⟨q, hq, h, if_pos h⟩
  · next h => exact absurd hid h

theorem mem_sweepOp (hp : p ∈ (s.sweepOp id).ops) : p ∈ s.ops := List.mem_of_mem_filter hp

/-- Lane `lane` of the operation has filled. -/
def State.dropFill (s : State) (id lane : Nat) : State :=
  (s.modOp id (fun o => { o with fills := o.fills.filter (fun f => decide (f.lane ≠ lane)) })).sweepOp id

theorem dropFill_lanes (hp : p ∈ (s.dropFill id lane).ops) (hid : p.id = id) : ∀ g ∈ p.fills, g.lane ≠ lane := by
  obtain ⟨q, -, -, rfl⟩ := mem_modOp (mem_sweepOp hp) hid
  exact fun g hg => of_decide_eq_true (List.mem_filter.1 hg).2

/-- Values that land after a read: the lane's warp takes them, memory stays, and the lane is no longer to fill. -/
theorem landed {vals : List (Nat × Lane)} (hu : ∃ rs kn, u = { s with reads := rs, known := kn })
    (ht : s.fillLane id lane = (u.landLane o lane vals).dropFill id lane) :
    ∃ t, exec (.producerFill id lane) s = .next t ∧ t.mem = s.mem
      ∧ t.warp? o.crew o.warp = (s.warp? o.crew o.warp).map (fun w => vals.foldl (fun w p => w.setLanes p.1 (1#64 <<< lane) (fun _ => p.2)) w)
      ∧ (∀ p ∈ t.ops, p.id = id → ∀ g ∈ p.fills, g.lane ≠ lane) := by
  obtain ⟨rs, kn, rfl⟩ := hu
  exact ⟨_, congrArg Host.Outcome.next ht, rfl, modWarp_warp?.trans (if_pos ⟨rfl, rfl⟩), fun p hp hid => dropFill_lanes hp hid⟩

section Fills
variable (ho : s.op? id = some o) (hf : o.fills.find? (fun f => decide (f.lane = lane)) = some f)
include ho hf

theorem fillLane_ready {vals : List (Nat × Lane)} (hs : f.src = .ready vals) : s.fillLane id lane = (s.landLane o lane vals).dropFill id lane := by
  simp only [State.fillLane, ho, hf, hs]; rfl

theorem fillLane_mem (hs : f.src = .mem key n sx vt) (hh : ¬ (keyTgt key = 3 ∧ n = 16))
    (hr : s.threadRead o (1#64 <<< lane) key n = some (v, b, u)) :
    s.fillLane id lane = (u.landLane o lane (loadLanes vt n sx v (s.regBad key n b))).dropFill id lane := by
  simp only [State.fillLane, ho, hf, hs, hh, decide_false, Bool.false_eq_true, if_false, hr]; rfl

theorem fillLane_half (hs : f.src = .half lo lbad key vt) (hr : s.threadRead o (1#64 <<< lane) key 8 = some (v, b, u)) :
    s.fillLane id lane = (u.landLane o lane (loadLanes vt 16 false (lo + 2 ^ 64 * v)
      (fun j => if j < 2 then lbad else s.regBad key 8 b (j - 2)))).dropFill id lane := by
  simp only [State.fillLane, ho, hf, hs, hr]; rfl

/-- The first of the two requests of a 16-byte lane in host memory (R194). -/
theorem fillLane_host (hs : f.src = .mem key 16 sx vt) (hh : keyTgt key = 3) (hr : s.threadRead o (1#64 <<< lane) key 8 = some (v, b, u)) :
    s.fillLane id lane = u.modOp id (fun o =>
      { o with fills := o.fills.map (fun f => if f.lane = lane then ⟨lane, .half v b (key + 8) vt⟩ else f) }) := by
  simp only [State.fillLane, ho, hf, hs, hh, and_self, decide_true, if_true, hr]

theorem fillLane_waits (hs : f.src = .mem key n sx vt)
    (hr : s.threadRead o (1#64 <<< lane) key (if keyTgt key = 3 ∧ n = 16 then 8 else n) = none) : s.fillLane id lane = s := by
  simp only [State.fillLane, ho, hf, hs, decide_eq_true_eq, hr]

end Fills

/-- A scalar load's register is written, and the load is done. -/
theorem fillScalar_eq {l : SLoad} {x : W64} (ho : s.op? id = some o) (hl : o.sload = some l)
    (hx : l.val = some x ∨ (l.val = none ∧ ∃ n b u, s.threadRead o o.lanes l.key 8 = some (n, b, u) ∧ x = BitVec.ofNat 64 n)) :
    ∃ rs kn, s.fillScalar id =
      ((({ s with reads := rs, known := kn } : State).setS o.who l.sd x).modOp id (fun o => { o with sload := none })).sweepOp id := by
  rcases hx with hx | ⟨hx, n, b, u, hr, rfl⟩
  · exact ⟨s.reads, s.known, by simp only [State.fillScalar, ho, hl, hx]⟩
  · obtain ⟨rs, kn, rfl⟩ := threadRead_eq hr
    exact ⟨rs, kn, by simp only [State.fillScalar, ho, hl, hx, hr]⟩

/-- The scalar file of an issuer lies outside what a read changes. -/
theorem setS_scal_read {rs : List Rd} {kn : List Known} {r : Nat} {x : W64} :
    (({ s with reads := rs, known := kn } : State).setS who r x).scal who = (s.setS who r x).scal who := by
  unfold State.setS
  split <;> cases who <;> rfl

/-- An operation that no lane of the thread lies in holds nothing back. -/
theorem loadIn_none {r : Option (Nat × Nat)} : o.loadIn 0#64 r = false := by
  cases o with | mk id who crew warp lanes isLoad acq rel scope fills sload =>
  cases sload <;> cases r <;> simp [Op.loadIn]

theorem storeIn_none {r : Option (Nat × Nat)} : o.storeIn 0#64 r = false := by simp [Op.storeIn]

theorem atomIn_none {r : Option (Nat × Nat)} : o.atomIn 0#64 r = false := by simp [Op.atomIn]

/-- With nothing before it in flight a read takes what memory holds at its point of coherence order (R220). -/
theorem threadRead_quiet (h : NoneBefore s o.who o.id m) : s.threadRead o m key n
    = some (s.rdAt key n (s.readPoint o.who o.id m none key n), s.bad key n, s.noteRead o.who (o.id + 1) m none key n
        (s.readPoint o.who o.id m none key n) (if o.acq then some o.scope else none)) := by
  have acq : s.acqPending o.who o.id m = false := List.any_eq_false.2 fun p hp => by simp [h p hp, loadIn_none]
  have older : s.ops.any (fun p => p.loadIn (s.earlierLanes o.who o.id m p) (some (key, n))
      || p.atomIn (s.earlierLanes o.who o.id m p) (some (key, n))) = false :=
    List.any_eq_false.2 fun p hp => by simp [h p hp, loadIn_none, atomIn_none]
  have stores : s.ops.reverse.find? (fun p => p.storeIn (s.earlierLanes o.who o.id m p) (some (key, n))) = none :=
    List.find?_eq_none.2 fun p hp => by simp [h p (List.mem_reverse.1 hp), storeIn_none]
  simp only [State.threadRead, acq, older, stores, Bool.false_eq_true, if_false]

/-- A read that the agenda does not let look back, or R220 does not, comes after every write. -/
theorem readPoint_now (h : ∀ t, s.lookBack.head? = some t → s.mayRead who id m none key n t = false) :
    s.readPoint who id m none key n = s.hist.length := by
  unfold State.readPoint State.readPointOf
  rw [← List.head?_eq_getElem?]
  split
  · next t ht => rw [h t ht, Bool.and_false, if_neg Bool.false_ne_true]
  · rfl

theorem rdAt_now : s.rdAt key n s.hist.length = s.rd key n := by simp only [State.rdAt, State.undo, List.drop_length]; rfl

/-- Pending lanes and scalar registers fill (R117, R125, R175, R194, R200, R220). -/
theorem producersFill : ProducersFill := by
  refine ⟨fun s id lane o f vals ho hf h => ?_, fun s id lane o f key sx vt v b u ho hf hs hh hr => congrArg Host.Outcome.next
      (fillLane_host ho hf hs hh hr), fun s id lane o f key n sx vt ho hf hs hr => congrArg Host.Outcome.next (fillLane_waits ho hf hs hr),
    fun s id o l x ho hl hx => ?_, fun s o m key n h => ?_, fun s who id m key n h => by rw [readPoint_now h, rdAt_now]⟩
  · rcases h with hs | ⟨key, n, sx, vt, v, b, u, hs, hh, hr, rfl⟩ | ⟨lo, lbad, key, vt, v, b, u, hs, hr, rfl⟩
    · exact landed ⟨_, _, rfl⟩ (fillLane_ready ho hf hs)
    · exact landed (threadRead_eq hr) (fillLane_mem ho hf hs hh hr)
    · exact landed (threadRead_eq hr) (fillLane_half ho hf hs hr)
  · obtain ⟨rs, kn, ht⟩ := fillScalar_eq ho hl hx
    refine ⟨_, congrArg Host.Outcome.next ht, setS_mem .., setS_scal_read, fun p hp hid => ?_⟩
    obtain ⟨q, -, -, rfl⟩ := mem_modOp (mem_sweepOp hp) hid
    rfl
  · obtain ⟨rs, kn, hu⟩ := noteRead_eq (s := s) (who := o.who) (lanes := m) (since := o.id + 1) (sp := none) (key := key) (n := n)
      (at_ := s.readPoint o.who o.id m none key n) (acq := if o.acq then some o.scope else none)
    exact ⟨_, threadRead_quiet h, by rw [hu], by rw [hu]⟩

end Sys2Proof.Machine
end

section
/-! Stores and atomics at memory (R194, R201, R206): a cell and a unit by the bytes of memory that they leave. -/
namespace Sys2Proof.Machine
open Sys2Proof.Laws Sys2Proof.Claims

variable {s : State} {o : Op} {id block addr a k v old : Nat} {c : Cellw} {cs : List Cellw} {m : Sparse 8}

theorem rdBytes_lt : rdBytes m a k < 256 ^ k := by
  induction k generalizing a with
  | zero => exact Nat.one_pos
  | succ k ih =>
    have high := ih (a := a + 1)
    have low := (m.get a).isLt
    simp only [rdBytes, pow_succ]
    omega

theorem and_ones : v &&& ones k = v % 256 ^ k := by
  rw [ones, Nat.and_two_pow_sub_one_eq_mod, show 256 = 2 ^ 8 from rfl, ← pow_mul]

/-- A cell under the mask of all its bits is its value (R195). -/
theorem blend_ones (h : old < 256 ^ k) : blend old v (ones k) = v % 256 ^ k := by
  rw [blend, and_ones, and_ones, Nat.mod_eq_of_lt h, Nat.sub_self, Nat.zero_add]

/-- A write of `k` bytes takes the low `k` bytes of its value. -/
theorem wrBytes_mod : wrBytes m a k (v % 256 ^ k) = wrBytes m a k v := by
  induction k generalizing m a v with
  | zero => rfl
  | succ k ih =>
    have low : BitVec.ofNat 8 (v % 256 ^ (k + 1)) = BitVec.ofNat 8 v :=
      BitVec.eq_of_toNat_eq (Nat.mod_mod_of_dvd v (dvd_pow_self 256 k.succ_ne_zero))
    have high : v % 256 ^ (k + 1) / 256 = v / 256 % 256 ^ k := by rw [pow_succ', Nat.mod_mul_right_div_self]
    simp only [wrBytes, low, high, ih]

/-- Memory after one cell: the bits of its mask over what the bytes held. -/
def Cellw.into (m : Sparse 8) (c : Cellw) : Sparse 8 := wrBytes m c.key c.n (blend (rdBytes m c.key c.n) c.val c.mask)

theorem into_whole (h : c.mask = ones c.n) : c.into m = wrBytes m c.key c.n c.val := by
  rw [Cellw.into, h, blend_ones rdBytes_lt, wrBytes_mod]

theorem applyCell_mem : (State.applyCell o s c).mem = c.into s.mem := by
  unfold State.applyCell
  dsimp only
  split
  · next h => exact (into_whole h).symm
  · rfl

theorem applyCell_crews : (State.applyCell o s c).crews = s.crews := by unfold State.applyCell; dsimp only; split <;> rfl

theorem applyCell_ops : (State.applyCell o s c).ops = s.ops := by unfold State.applyCell; dsimp only; split <;> rfl

/-- Cells in a row: memory cell by cell, no crew and no operation. -/
theorem applyCells_eq : (s.applyCells o cs).mem = cs.foldl Cellw.into s.mem ∧ (s.applyCells o cs).crews = s.crews
    ∧ (s.applyCells o cs).ops = s.ops := by
  unfold State.applyCells
  dsimp only
  induction cs generalizing s with
  | nil => exact ⟨rfl, rfl, rfl⟩
  | cons c cs ih =>
    obtain ⟨hm, hc, ho⟩ := ih (s := State.applyCell o s c)
    simp only [List.foldl_cons]
    exact ⟨by rw [hm, applyCell_mem], by rw [hc, applyCell_crews], by rw [ho, applyCell_ops]⟩

/-- The bytes outside every cell (R194). -/
theorem cells_other (h : m.wf = true) (ha : ∀ c ∈ cs, a < c.key ∨ c.key + c.n ≤ a) : (cs.foldl Cellw.into m).get a = m.get a := by
  induction cs generalizing m with
  | nil => rfl
  | cons c cs ih =>
    have rest := ih (m := c.into m) (wrBytes_wf _ h) fun d hd => ha d (List.mem_cons_of_mem c hd)
    exact rest.trans (wrBytes_other _ h (ha c List.mem_cons_self))

/-- A store whose cells may be accepted. -/
theorem acceptStore_ready (ho : s.op? id = some o) (hr : ∀ c ∈ o.cellsOf block, s.writeReady o c.lanes c.key c.n = true) :
    s.acceptStore id block = ((s.asOne (s.applyCells o (o.cellsOf block))).modOp id (fun o => { o with cells := o.cellsLeft block })).sweepOp id := by
  simp only [State.acceptStore, ho, List.all_eq_true.2 hr, if_true]

theorem acceptStore_waits (ho : s.op? id = some o) (hc : c ∈ o.cellsOf block) (hr : s.writeReady o c.lanes c.key c.n = false) :
    s.acceptStore id block = s := by
  have held : (o.cellsOf block).all (fun c => s.writeReady o c.lanes c.key c.n) = false :=
    List.all_eq_false.2 ⟨c, hc, by rw [hr]; exact Bool.false_ne_true⟩
  simp only [State.acceptStore, ho, held, Bool.false_eq_true, if_false]

/-- The cells of a store at the home port of a block of device memory (R192, R201). -/
theorem mem_cellsOf_device (hk : keyTgt (64 * block) ≠ 3) : c ∈ o.cellsOf block ↔ c ∈ o.cells ∧ samePort (c.key / 64) block = true := by
  rw [Op.cellsOf, if_neg hk, List.mem_filter]

theorem mem_cellsLeft_device (hk : keyTgt (64 * block) ≠ 3) : c ∈ o.cellsLeft block ↔ c ∈ o.cells ∧ c ∉ o.cellsOf block := by
  rw [mem_cellsOf_device hk, Op.cellsLeft, if_neg hk, List.mem_filter, Bool.not_eq_true']
  cases samePort (c.key / 64) block <;> simp

theorem samePort_iff {x y : Nat} : samePort x y = true
    ↔ x = y ∨ keyTgt (64 * x) = keyTgt (64 * y) ∧ Config.homePort x = Config.homePort y := by
  simp only [samePort, Bool.or_eq_true, Bool.and_eq_true, decide_eq_true_eq]

/-- In host memory the first cell of the block is taken alone (R194). -/
theorem cells_host (hk : keyTgt (64 * block) = 3) (h : cellsIn o block = c :: cs) :
    o.cellsOf block = [c] ∧ o.cellsLeft block = o.cells.erase c := by
  have first : o.cells.find? (fun c => decide (c.key / 64 = block)) = some c := by rw [← List.head?_filter]; exact congrArg List.head? h
  exact ⟨by rw [Op.cellsOf, if_pos hk]; exact congrArg (List.take 1) h, by simp only [Op.cellsLeft, hk, if_true, first]⟩

variable {here : List AtomLane} {n : Nat}

/-- Reads of an ATOM's lanes leave memory, crews and operations. -/
theorem notedReads_eq : ∃ rs kn, s.notedReads o here n = { s with reads := rs, known := kn } := by
  suffices h : ∀ r : Nat, ∃ rs kn, here.foldl (fun t l => t.noteRead o.who (o.id + 1) (1#64 <<< l.lane) none l.key n r none) s
      = { s with reads := rs, known := kn } from h _
  intro r
  induction here generalizing s with
  | nil => exact ⟨_, _, rfl⟩
  | cons l here ih =>
    obtain ⟨rs, kn, h1⟩ := noteRead_eq (s := s) (who := o.who) (since := o.id + 1) (lanes := 1#64 <<< l.lane) (sp := none) (key := l.key)
      (n := n) (at_ := r) (acq := none)
    rw [List.foldl_cons, h1]
    obtain ⟨rs2, kn2, h2⟩ := ih (s := { s with reads := rs, known := kn })
    exact ⟨rs2, kn2, h2⟩

/-- What a unit that executes leaves in memory: a poisoned word as it is, any other with its lanes' values in order (R206). -/
def State.atomMem (s : State) (o : Op) (addr : Nat) : Sparse 8 :=
  if s.bad addr (o.awidth / 8) then s.mem
  else wrBytes s.mem addr (o.awidth / 8) (atomFold o.aop o.awidth (s.rd addr (o.awidth / 8)) (atomsAt o addr)).1

theorem atomMem_other (h : s.mem.wf = true) (ha : a < addr ∨ addr + o.awidth / 8 ≤ a) : (s.atomMem o addr).get a = s.mem.get a := by
  unfold State.atomMem
  split
  · rfl
  · exact wrBytes_other _ h ha

/-- A unit whose lanes may execute changes memory and its operation's lanes on the word. -/
theorem execAtom_ready (ho : s.op? id = some o) (hn : atomsAt o addr ≠ [])
    (hr : ∀ l ∈ atomsAt o addr, s.writeReady o (1#64 <<< l.lane) l.key (o.awidth / 8) = true) :
    ∃ (u : State) (g : Op → Op), s.execAtom id addr = u.modOp id g ∧ u.mem = s.atomMem o addr ∧ u.crews = s.crews
      ∧ ∀ q, (g q).atoms = q.atoms.filter (fun l => decide (l.key ≠ addr)) := by
  have go : ¬ (atomsAt o addr = [] ∨ (atomsAt o addr).any (fun l => !(s.writeReady o (1#64 <<< l.lane) l.key (o.awidth / 8))) = true) := by
    simpa [hn] using hr
  obtain ⟨rs, kn, hu⟩ := notedReads_eq (s := s) (o := o) (here := atomsAt o addr) (n := o.awidth / 8)
  have here : o.atoms.filter (fun l => decide (l.key = addr)) = atomsAt o addr := rfl
  simp only [State.execAtom, ho, here, if_neg go, hu]
  refine ⟨_, _, rfl, ?_, ?_, fun _ => rfl⟩
  · unfold State.atomMem
    split <;> rfl
  · split <;> rfl

/-- Stores and atomics reach memory (R194, R201, R206). -/
theorem storesAndAtomicsReachMemory : StoresAndAtomicsReachMemory := by
  refine ⟨fun s id block o ho hw hr => ?_, fun o block hk c => ⟨?_, mem_cellsLeft_device hk⟩, fun o block c cs hk h => cells_host hk h,
    fun s id block o c ho hc hr => congrArg Host.Outcome.next (acceptStore_waits ho hc hr), fun s id addr o ho hw hn hr => ?_⟩
  · obtain ⟨hm, hc, hops⟩ := applyCells_eq (s := s) (o := o) (cs := o.cellsOf block)
    refine ⟨_, congrArg Host.Outcome.next (acceptStore_ready ho hr), hc, hm, fun a ha => (congrArg (Sparse.get · a) hm).trans (cells_other hw ha),
      fun c h1 hmask => ?_, fun p hp hid => ?_⟩
    · have one : (s.applyCells o (o.cellsOf block)).mem = wrBytes s.mem c.key c.n c.val := by rw [hm, h1]; exact into_whole hmask
      exact (congrArg (rdBytes · c.key c.n) one).trans (rdBytes_wrBytes _ hw)
    · obtain ⟨q, hq, hqid, rfl⟩ := mem_modOp (mem_sweepOp hp) hid
      exact ⟨q, hops ▸ hq, hqid, rfl⟩
  · rw [mem_cellsOf_device hk, samePort_iff]
  · obtain ⟨u, g, ht, hm, hc, hg⟩ := execAtom_ready ho hn hr
    refine ⟨_, congrArg Host.Outcome.next ht, hc, hm, fun a ha => (congrArg (Sparse.get · a) hm).trans (atomMem_other hw ha), fun p hp hid => ?_⟩
    obtain ⟨q, -, -, rfl⟩ := mem_modOp hp hid
    simp [atomsAt, hg, List.filter_filter]

/-- Settles O30: fills by their sources and reads, stores by their cells, units by the word's value. -/
theorem accessesAreAccepted : Obligations.AccessesAreAccepted := ⟨producersFill, storesAndAtomicsReachMemory⟩

end Sys2Proof.Machine
end

section
/-! Selections, broadcasts, shuffles and scans (R121, R130, R139, R155 to R158, R161): the lanes that BCAST reads and writes, and the forms
that write a scalar register or F to the lanes of one register. -/
namespace Sys2Proof.Machine
open Sys2Proof.Laws Sys2Proof.Claims

variable {s t : State} {e : Env} {v : VEnv} {w : Warp} {i : Instr} {vd va : BitVec 7} {ea : Bool} {d j : Nat} {f : Nat → Lane} {late : Exe Unit}

/-- A write of no lane leaves the warp. -/
theorem setLanes_none : w.setLanes d 0 f = w := by
  have same (x : List Lane) : mapFrom (fun l old => if (0 : W64).getLsbD l then f l else old) 0 x = x :=
    List.ext_getElem? fun l => by simp [mapFrom_get]
  have regs : (w.setLanes d 0 f).regs = w.regs := List.ext_getElem? fun r => by
    simp only [Warp.setLanes, modAt_get, same, Option.map_id', ite_self]
  exact congrArg (fun rs => { w with regs := rs }) regs

/-- With no lane active, the lanes that Z removes are all that a result writes (R59, R73). -/
theorem out_idle (h : v.act = 0) : w.out v d f = w.setLanes d v.zl (fun _ => Lane.full 0 false) := by
  rw [Warp.out, h, setLanes_none]

/-- STOV and STOV.HI, whose checks pass (R130). -/
theorem stovOf_ready {o : OpVStov} {g : W64 → W32} (hi : Issues s i e) (hr : LaneReady s e v [o.vd.toNat] []) (hs : SReady s e o.ss.toNat) :
    stovOf i s o g = .next (after e (s.modWarp e.ci e.wi (fun w => w.out v o.vd.toNat (fun _ =>
      Lane.full (g (s.sreg e.who o.ss.toNat)) false)))) := by
  have hg : regsOk e.k [o.vd.toNat] = .ok () := regsOk_ok hr.range
  refine run_ready hi ?_
  simp only [(venv_ok.1 hr.env).1, hg, (venv_ok.1 hr.env).2, rdS_ok hs, dstFree_ok hr.free, exe_ok_bind, exe_pure]

/-- SETE and SETF, whose checks pass (R121). -/
theorem setFull_ready {o : OpV1} {full : Bool} (hi : Issues s i e) (hr : LaneReady s e v [o.vd.toNat] []) :
    setFull i s o full = .next (after e (s.modWarp e.ci e.wi (fun w => w.out v o.vd.toNat (fun l =>
      { w.lane o.vd.toNat l with f := full })))) := by
  have hg : regsOk e.k [o.vd.toNat] = .ok () := regsOk_ok hr.range
  refine run_ready hi ?_
  simp only [(venv_ok.1 hr.env).1, hg, (venv_ok.1 hr.env).2, dstFree_ok hr.free, exe_ok_bind, exe_pure]

/-- BCAST from an active lane reads that lane alone; from one that is not, none (R157). -/
theorem bcastFrom_active (hj : v.act.getLsbD j = true) (hr : LaneReady s e v [vd.toNat] [⟨va.toNat, 1#64 <<< j, ea⟩]) (hl : late = .ok ()) :
    bcastFrom s e v vd va ea j late = .ok (s.modWarp e.ci e.wi (fun w => w.out v vd.toNat (fun _ => v.moved va j))) := by
  simp only [bcastFrom, hj, if_true, checkV_ok (venv_ok.1 hr.env).2 hr.read, hl, dstFree_ok hr.free, exe_ok_bind, exe_pure]

theorem bcastFrom_inactive (hj : v.act.getLsbD j = false) (hr : LaneReady s e v [vd.toNat] []) (hl : late = .ok ()) :
    bcastFrom s e v vd va ea j late = .ok (s.modWarp e.ci e.wi (fun w => w.out v vd.toNat (fun _ => Lane.full 0 false))) := by
  simp only [bcastFrom, hj, Bool.false_eq_true, if_false, checkV_ok (venv_ok.1 hr.env).2 readable_none, hl, dstFree_ok hr.free, exe_ok_bind,
    exe_pure]

/-- The forms of BCAST whose registers exist and whose lane is known. -/
theorem execBcast_ready {o : OpVSk} (hi : Issues s (.bcast o) e) (hv : venv s e = .ok v) (hr : InRange e [o.vd.toNat, o.vs1.toNat])
    (hk : SReady s e o.sk.toNat) (hx : bcastFrom s e v o.vd o.vs1 o.e1 ((s.sreg e.who o.sk.toNat).toNat % 64) (.ok ()) = .ok t) :
    exec (.bcast o) s = .next (after e t) := by
  refine run_ready hi ?_
  simp only [(venv_ok.1 hv).1, regsOk_ok hr, rdSw_ok hk, sOk_ok hk, exe_ok_bind, hx]

theorem execBcastFirst_ready {o : OpV2} (hi : Issues s (.bcastFirst o) e) (hv : venv s e = .ok v) (hr : InRange e [o.vd.toNat, o.vs1.toNat])
    (hx : bcastFrom s e v o.vd o.vs1 o.e1 ((lowLane v.act).getD 0) (.ok ()) = .ok t) : exec (.bcastFirst o) s = .next (after e t) := by
  refine run_ready hi ?_
  simp only [(venv_ok.1 hv).1, regsOk_ok hr, exe_ok_bind, hx]

/-- The registers of a destination, and of a source that is named and not read. -/
theorem inRange_pair {a b : Nat} (ha : InRange e [a]) (hb : InRange e [b]) : InRange e [a, b] :=
  List.forall_mem_cons.2 ⟨ha a (List.mem_singleton_self a), hb⟩

/-- SEL, STOV, SETE, SETF and BCAST (R121, R130, R139, R157). -/
theorem selectionsAndBroadcasts : SelectionsAndBroadcasts := by
  refine ⟨fun o q v hq s e hi ⟨hr, hm⟩ => execSel_ready hi hq hr hm, fun o v s e hi ⟨hr, hs⟩ => stovOf_ready hi hr hs,
    fun o v s e hi ⟨hr, hs⟩ => stovOf_ready hi hr hs, fun o v s e hi hr => setFull_ready hi hr, fun o v s e hi hr => setFull_ready hi hr,
    fun o v s e hi ⟨hk, hj, hr⟩ => ?_, fun o v s e hi ⟨hk, hj, hr, hb⟩ => ?_, fun o v l s e hi ⟨hl, hr⟩ => ?_, fun o v h0 s e hi ⟨hr, hb⟩ => ?_⟩
  · exact execBcast_ready hi hr.env hr.range hk (bcastFrom_active hj hr rfl)
  · exact execBcast_ready hi hr.env (inRange_pair hr.range hb) hk (bcastFrom_inactive hj hr rfl)
  · exact execBcastFirst_ready hi hr.env hr.range (by rw [hl]; exact bcastFrom_active (lowLane_active hl) hr rfl)
  · have off : v.act.getLsbD ((lowLane v.act).getD 0) = false := by rw [h0]; exact BitVec.getLsbD_zero
    exact execBcastFirst_ready hi hr.env (inRange_pair hr.range hb) ((bcastFrom_inactive off hr rfl).trans (by simp only [out_idle h0]))

/-- Each scan is the shared body with the row's heads, and its result is a full lane with S = 0 (R161). -/
theorem scansFoldInLaneOrder : ScansFoldInLaneOrder := fun _ _ _ _ _ _ _ _ h _ s _ hi ⟨hr, hk⟩ => by
  obtain ⟨heads, hx, hh⟩ := exec_scanRow (s := s) h hk
  exact hx.trans (scanOp_ready hi hr hh)

/-- Settles O7: selections and broadcasts form by form; shuffles and scans by the bodies that their rows share. -/
theorem lanesMoveAndFold : Obligations.LanesMoveAndFold :=
  ⟨selectionsAndBroadcasts, fun _ _ _ _ _ _ _ _ h _ _ _ hi hr => (exec_shuffleRow h).trans (shuffle_ready hi hr), scansFoldInLaneOrder⟩

end Sys2Proof.Machine
end

section
/-! The checks of a scratchpad access in order (R63, R119, R413), and what its reads see and its writes leave (R169, R175, R220). -/
namespace Sys2Proof.Machine
open Sys2Proof.Laws Sys2Proof.Claims

variable {s : State} {e : Env} {v : VEnv} {i : Instr} {o : OpMSwz} {n a ci w : Nat} {sb : BitVec 6}

/-- The checks of an access whose base, index and data can be read. -/
theorem mChecks_ok {idx data : List Src} (hm : maskOk v = .ok ()) (hs : SReady s e sb.toNat) (hr : Readable v.w (idx ++ data)) :
    mChecks s e v sb idx data = .ok (s.sreg e.who sb.toNat) := by
  have index : Readable v.w idx := fun x hx => hr x (List.mem_append_left data hx)
  simp only [mChecks, emptyCheck_ok hr, rdSw_ok hs, pendCheck_ok hr, hm, sOk_ok hs, poisonCheck_ok index, exe_ok_bind, exe_pure]

/-- The first `t` writes of a history of `t` writes are all of them. -/
theorem undo_now {sp : Option Nat} {key : Nat} {m : Sparse 8} : s.undo sp key n s.hist.length m = m := by
  simp only [State.undo, List.drop_length]; rfl

theorem agreed_now {qs : List (W64 × Nat × Nat)} (h : s.lookBack = []) : s.agreed e qs = s := by
  simp only [State.agreed, h, List.head?_nil]

/-- A read that does not look back sees the crew as it is (R220). -/
theorem spSeen_now {lanes : W64} {k : Crew} (h : s.lookBack = []) : s.spSeen e lanes k a n = k := by
  simp only [State.spSeen, State.readPoint, State.readPointOf, h, List.getElem?_nil, State.crewAt, undo_now]

theorem spBrings_now {vt l : Nat} {sx : Bool} {ads : List (Nat × Nat)} (h : s.lookBack = []) :
    spBrings s e vt n sx ads l a = loadLanes vt n sx (e.k.spRd a n) (fun j => e.k.spBad (a + 4 * j) (min n 4)) := by
  simp only [spBrings, agreed_now h, spLane, spSeen_now h, spLanes]

/-- The model's address sum of a lane is the statements' (R166). -/
theorem laneSum_eq_lanesSum : laneSum = lanesSum := rfl

/-- What a row of the scratchpad loads says of its instruction. -/
theorem exec_spldRow (h : SpldRow i o n) : exec i s = spld i s o n := by
  cases h <;> rfl

theorem exec_spstRow (h : SpstRow i o n) : exec i s = spst i s o n := by
  cases h <;> rfl

/-- The checks of a scratchpad store, of whole bytes or of elements, pass. -/
theorem storeReads_checks {rs : List Nat} {ix : Bool} {vi : BitVec 7} (hr : StoreReads s e v rs ix vi) (hs : SReady s e sb.toNat) :
    venvW s e = .ok v ∧ regsOk e.k (mRegs rs ix vi) = .ok ()
      ∧ mChecks s e v sb (idxSrc v ix vi) (runSrc v rs) = .ok (s.sreg e.who sb.toNat) ∧ poisonCheck v.w 1 (runSrc v rs) = .ok () := by
  obtain ⟨hv, hrange, hread⟩ := hr
  have data : Readable v.w (runSrc v rs) := fun x hx => hread x (List.mem_append_right _ hx)
  exact ⟨(venv_ok.1 hv).1, regsOk_ok hrange, mChecks_ok (venv_ok.1 hv).2 hs hread, poisonCheck_ok data⟩

/-- A store of elements whose checks pass (R177). -/
theorem spstN_ready (hi : Issues s i e) (hr : StoreReads s e v [o.vt.toNat] o.ix o.vi) (hs : SReady s e o.sb.toNat)
    (hw : s.spWriteReady e = true) :
    spstN i s o w = .next (after e (s.asOne ((allElems v w o.vt o.vi o.ix).foldl (fun t b => t.spPutBits e (1#64 <<< b.1)
      (spAddr e.k.z ((((s.sreg e.who o.sb.toNat).toNat : Int) + b.2.off + mOff o.pfx o.lim) % 2 ^ 64).toNat o.swz.toNat 1)
      b.2.mask b.2.val) s))) := by
  obtain ⟨env, regs, checks, clean⟩ := storeReads_checks hr hs
  refine run_ready hi ?_
  simp only [env, regs, checks, clean, waitUnless_ok hw, exe_ok_bind, exe_pure, allElems, addrSum]

/-- Two changes of one element in turn. -/
theorem modAt_modAt {α : Type} {l : List α} {j : Nat} {f g : α → α} : modAt (modAt l j f) j g = modAt l j (fun x => g (f x)) := by
  ext1 m
  rw [modAt_get, modAt_get, modAt_get]
  split
  · exact Option.map_map g f l[m]?
  · rfl

theorem modAt_same {α : Type} {l : List α} {j : Nat} : modAt l j (fun x => x) = l := by
  ext1 m
  simp [modAt_get]

/-- A write's place in coherence order touches the order and its agent alone (R169, R211). -/
theorem noteSp_parts {author : Option Author} : (s.noteSp ci a n author).mem = s.mem ∧ (s.noteSp ci a n author).ops = s.ops
    ∧ (s.noteSp ci a n author).ctxs = s.ctxs ∧ (s.noteSp ci a n author).crews = s.crews := by
  unfold State.noteSp
  split
  exacts [⟨rfl, rfl, rfl, rfl⟩, ⟨rfl, rfl, rfl, rfl⟩]

/-- An instruction's writes change its crew's scratchpad, each over the ones before it, and no other crew, context, operation or memory
(R169, R176). -/
theorem spPuts_parts {ads : List (Nat × Nat × Nat)} : (spPuts s e n ads).mem = s.mem ∧ (spPuts s e n ads).ops = s.ops
    ∧ (spPuts s e n ads).ctxs = s.ctxs
    ∧ (spPuts s e n ads).crews = modAt s.crews e.ci (fun k => ads.foldl (fun k x => k.spWr x.2.1 n x.2.2) k) := by
  unfold spPuts
  induction ads generalizing s with
  | nil => exact ⟨rfl, rfl, rfl, modAt_same.symm⟩
  | cons x ads ih =>
    obtain ⟨hm, ho, hx, hc⟩ := ih (s := s.spPut e (1#64 <<< x.1) none false x.2.1 n x.2.2)
    obtain ⟨nm, no, nx, nc⟩ := noteSp_parts (s := s) (ci := e.ci) (a := x.2.1) (n := n)
      (author := s.authorOf e.who s.nextOp s.nextOp (1#64 <<< x.1) none false (some e.ci) x.2.1 n)
    refine ⟨hm.trans nm, ho.trans no, hx.trans nx, hc.trans ?_⟩
    rw [State.spPut, State.spNote, modCrew_crews, nc, modAt_modAt]
    rfl

/-- Scratchpad loads (R166 to R171, R174, R175, R220). -/
theorem scratchpadLoads : ScratchpadLoads := by
  refine ⟨fun _ _ _ _ _ _ _ _ h => spBrings_now h, fun i o n row v s e hi ⟨hv, hr, hs, hx, hf, hq, hl⟩ =>
    (exec_spldRow row).trans (run_ready hi ?_)⟩
  have regs : regsOk e.k (mRegs (runOf o.vt.toNat n) o.ix o.vi) = .ok () := regsOk_ok hr
  have reads : Readable v.w (idxSrc v o.ix o.vi ++ []) := (List.append_nil _).symm ▸ hx
  have ready := waitUnless_ok (Bool.and_eq_true_iff.2 ⟨hq, List.all_eq_true.2 hl⟩)
  simp only [spadAt] at ready
  simp only [(venv_ok.1 hv).1, regs, mChecks_ok (venv_ok.1 hv).2 hs reads, dstFree_ok hf, laneSum_eq_lanesSum, ready, exe_ok_bind, exe_pure,
    spReads, spBrings, spadAt, List.foldl_map, List.map_map]
  rfl

/-- Scratchpad stores (R166, R167, R169, R174, R176, R177). -/
theorem scratchpadStores : ScratchpadStores := by
  refine ⟨fun i o n row v s e hi ⟨hr, hs, hw⟩ => (exec_spstRow row).trans (run_ready hi ?_), fun o v p hp s e hi ⟨hr, hs, hw⟩ => ?_,
    fun s e n ads t ht => ht ▸ spPuts_parts⟩
  · obtain ⟨env, regs, checks, clean⟩ := storeReads_checks hr hs
    simp only [env, regs, checks, clean, waitUnless_ok hw, laneSum_eq_lanesSum, exe_ok_bind, exe_pure, spPuts, List.foldl_map]
  · rcases List.mem_pair.1 hp with rfl | rfl
    exacts [spstN_ready hi hr hs hw, spstN_ready hi hr hs hw]

/-- Settles O13: loads and stores row by row through their shared bodies, and the writes of a store by induction on its lanes. -/
theorem scratchpadAccesses : Obligations.ScratchpadAccesses := ⟨scratchpadLoads, scratchpadStores⟩

end Sys2Proof.Machine
end

section
/-! The tag table (R178 to R180). -/
namespace Sys2Proof.Machine
open Sys2Proof.Laws Sys2Proof.Claims

variable {s : State} {e : Env} {v : VEnv}

/-- A partition without a poisoned entry passes, whatever lanes are active (R413). -/
theorem tagCheck_ok {k : Crew} {act : W64} (h : ∀ t < 8 * k.image.warps, k.tagPoison.get t = 0) : tagCheck k act = .ok () := by
  have clean : (List.range k.tagSlots).all (fun t => decide (k.tagPoison.get t = 0)) = true :=
    List.all_eq_true.2 fun t ht => decide_eq_true (h t (List.mem_range.1 ht))
  exact need_ok (by rw [clean, Bool.or_true])

/-- A hit answers the slot that holds the key (R180). -/
theorem tagLookup_hit {n : Nat} {tags : List (Nat × W32)} {key : W32} {t : Nat × W32}
    (h : tags.find? (fun x => decide (x.2 = key)) = some t) :
    tagLookup n tags key = (BitVec.ofNat 32 t.1, tags.filter (fun x => decide (x.1 ≠ t.1)) ++ [t]) := by
  simp only [tagLookup, h]

/-- Settles O9: each instruction by its checks in order, and a hit by the slot found. -/
theorem tagTable : Obligations.TagTable := by
  refine ⟨fun o v s e hi ⟨hv, hr, hx, hf, ht⟩ => run_ready hi ?_, fun o v s e hi ⟨hv, hr, hx, ht⟩ => run_ready hi ?_,
    fun o v s e hi ⟨hv, hr, hx⟩ => run_ready hi ?_, fun n tags key t h => congrArg Prod.fst (tagLookup_hit h)⟩
  · simp only [(venv_ok.1 hv).1, regsOk_ok hr, checkV_ok (venv_ok.1 hv).2 hx, tagCheck_ok ht, dstFree_ok hf, exe_ok_bind, exe_pure]
    rfl
  · simp only [(venv_ok.1 hv).1, regsOk_ok hr, checkV_ok (venv_ok.1 hv).2 hx, tagCheck_ok ht, exe_ok_bind, exe_pure]
    rfl
  · simp only [(venv_ok.1 hv).1, regsOk_ok hr, checkV_ok (venv_ok.1 hv).2 hx, exe_ok_bind, exe_pure]
    rfl

end Sys2Proof.Machine
end

section
/-! Accesses to the one address space at issue (R181, R182, R187, R198 to R206): the places that `resolve` answers where every lane has its
own, and the scratchpad's share of each access apart from memory's. -/
namespace Sys2Proof.Machine
open Sys2Proof.Laws Sys2Proof.Claims

section Places
variable {s : State} {e : Env} {sum : Nat → Nat} {n kind : Nat} {ls : List Nat} {f : Nat → Spot} {k : Crew} {c : Bool} {ps : List (Nat × Spot)}

/-- Where every lane has its place no lane faults, and the places stand in the order of the lanes. -/
theorem resolve_placed (h : Places s e sum n kind ls f) : resolve s e sum n kind ls = .ok (placed ls f) := by
  induction ls with
  | nil => rfl
  | cons i ls ih =>
    have rest := ih fun j hj => h j (List.mem_cons_of_mem i hj)
    rcases h i List.mem_cons_self with ⟨off, hp, hf⟩ | ⟨va, key, hp, hx, hf⟩
    · simp only [resolve, hp, rest, exe_ok_bind, exe_pure, placed, List.map_cons, hf]
    · simp only [resolve, hp, State.xlateOr, hx, rest, exe_ok_bind, exe_pure, placed, List.map_cons, hf]

theorem mem_placed {i : Nat} {p : Spot} (h : (i, p) ∈ placed ls f) : i ∈ ls ∧ f i = p := by
  obtain ⟨j, hj, he⟩ := List.mem_map.1 h
  cases he
  exact ⟨hj, rfl⟩

/-- The lines that the scratchpad's lanes name are full. -/
theorem spotsFull_placed (h : ∀ j ∈ ls, ∀ off, f j = .spad off → k.linesFull off n = true) : spotsFull k n (placed ls f) = true :=
  List.all_eq_true.2 fun ⟨j, p⟩ hp => by
    obtain ⟨hj, hf⟩ := mem_placed hp
    cases p with
    | spad off => exact h j hj off hf
    | mem key => rfl

/-- What an access to the scratchpad waits for holds where no lane has its place there, or where such a lane has it hold. -/
theorem anySpad_waits (h : ∀ i off, (i, .spad off) ∈ ps → c = true) : (!(anySpad ps) || c) = true := by
  cases ha : anySpad ps with
  | false => rfl
  | true =>
    obtain ⟨⟨i, p⟩, hp, hs⟩ := List.any_eq_true.1 ha
    cases p with
    | spad off => exact h i off hp
    | mem key => cases hs

theorem placed_waits (h : ∀ j ∈ ls, ∀ off, f j = .spad off → c = true) : (!(anySpad (placed ls f)) || c) = true :=
  anySpad_waits fun i off hp => h i (mem_placed hp).1 off (mem_placed hp).2

/-- A walk over the places that acts on the scratchpad's lanes alone is a walk over those. -/
theorem foldl_spadLanes {h : State → Nat × Spot → State} {g : State → Nat × Nat → State} (hs : ∀ t i off, h t (i, .spad off) = g t (i, off))
    (hm : ∀ t i key, h t (i, .mem key) = t) : ps.foldl h s = (spadLanes ps).foldl g s := by
  induction ps generalizing s with
  | nil => rfl
  | cons p ps ih =>
    obtain ⟨i, off | key⟩ := p
    · exact (congrArg (ps.foldl h) (hs s i off)).trans ih
    · exact (congrArg (ps.foldl h) (hm s i key)).trans ih

/-- A selection of the places that takes the scratchpad's lanes alone. -/
theorem filterMap_spadLanes {α : Type} {h : Nat × Spot → Option α} {g : Nat × Nat → α} (hs : ∀ i off, h (i, .spad off) = some (g (i, off)))
    (hm : ∀ i key, h (i, .mem key) = none) : ps.filterMap h = (spadLanes ps).map g := by
  induction ps with
  | nil => rfl
  | cons p ps ih =>
    obtain ⟨i, off | key⟩ := p
    · exact (List.filterMap_cons_some (hs i off)).trans (congrArg _ ih)
    · exact (List.filterMap_cons_none (hm i key)).trans ih

/-- The scratchpad's share of a store (R182). -/
theorem spotStores_eq {rel : Option Nat} {lanes : Nat → W64} {val : Nat → Nat} : s.spotStores e rel n ps lanes val
    = s.asOne ((spadLanes ps).foldl (fun t p => t.spPut e (lanes p.1) rel false p.2 n (val p.1)) s) :=
  congrArg s.asOne (foldl_spadLanes (fun _ _ _ => rfl) fun _ _ _ => rfl)

/-- No write is one acceptance that changes nothing. -/
theorem asOne_self : s.asOne s = s := by
  have all : s.hist.take (s.hist.length + 1) = s.hist := List.take_of_length_le (Nat.le_succ _)
  have rest : s.hist.drop (s.hist.length + 1) = [] := List.drop_eq_nil_of_le (Nat.le_succ _)
  simp only [State.asOne, all, rest, List.map_nil, List.append_nil]

end Places

variable {s : State} {e : Env} {v : VEnv} {i : Instr} {vt vi : BitVec 7} {sb : BitVec 6} {ix sx : Bool} {p : Option Pfx}
  {l : Option (BitVec 24)} {n : Nat} {acq rel : Option Nat}

theorem exec_loadRow (h : LoadRow i vt sb vi ix p l n sx acq) : exec i s = gld i s vt sb vi ix p l n sx acq := by
  cases h <;> rfl

theorem exec_storeRow (h : StoreRow i vt sb vi ix p l n rel) : exec i s = gst i s vt sb vi ix p l n rel := by
  cases h <;> rfl

/-- Loads by lanes (R181, R187, R198 to R200, R203). -/
theorem loadsEmptyTheirRun : LoadsEmptyTheirRun := by
  intro i vt sb vi ix p l n sx acq row v f s e hi ⟨hv, hr, hs, hx, hp, hf, hl⟩
  refine (exec_loadRow row).trans (run_ready hi ?_)
  have regs : regsOk e.k (mRegs (runOf vt.toNat n) ix vi) = .ok () := regsOk_ok hr
  have reads : Readable v.w (idxSrc v ix vi ++ []) := (List.append_nil _).symm ▸ hx
  have full := spotsFull_placed (k := e.k) fun j hj off h => (hl j hj off h).1
  have ready := waitUnless_ok (Bool.and_eq_true_iff.2 ⟨full, placed_waits fun j hj off h => (hl j hj off h).2⟩)
  simp only [(venv_ok.1 hv).1, regs, mChecks_ok (venv_ok.1 hv).2 hs reads, laneSum_eq_lanesSum, resolve_placed hp, dstFree_ok hf, ready,
    exe_ok_bind, exe_pure]
  rw [filterMap_spadLanes (g := fun p => (1#64 <<< p.1, p.2, n)), foldl_spadLanes, placed, List.map_map]
  · rfl
  all_goals intros; rfl

/-- What a store of element bytes waits for where one of them has its place in the scratchpad. -/
theorem elems_wait {es : List (Nat × ElemByte × Spot)} {c : Bool} {g : Nat × ElemByte × Spot → Bool}
    (hc : ∀ x ∈ es, ∀ off, x.2.2 = .spad off → c = true) (hg : ∀ j b key, g (j, b, .mem key) = true) : (c || es.all g) = true := by
  cases ready : c with
  | true => exact Bool.true_or _
  | false =>
    refine List.all_eq_true.2 fun ⟨j, b, spot⟩ hx => ?_
    cases spot with
    | spad off => exact absurd (hc _ hx off rfl) (by simp [ready])
    | mem key => exact hg j b key

/-- What follows a wait: where its condition holds what stands after it, and otherwise nothing. -/
theorem waitUnless_bind {α : Type} {c : Bool} {k : Unit → Exe α} {x : Exe α} (hc : c = true) (hk : k () = x) : (waitUnless c >>= k) = x := by
  rw [waitUnless_ok hc, exe_ok_bind, hk]

theorem waitUnless_stops {α : Type} {c : Bool} {k : Unit → Exe α} (hc : c = false) : (waitUnless c >>= k) = .error .wait := by
  rw [hc]
  rfl

/-- Stores by lanes, and of elements (R177, R181, R182, R187, R198, R201 to R203). -/
theorem storesLeaveForTheirPorts : StoresLeaveForTheirPorts := by
  refine ⟨fun i vt sb vi ix p l n rel row v f s e hi ⟨hr, hs, hp, hw⟩ => (exec_storeRow row).trans (run_ready hi ?_),
    fun o v ps q hq s e hi ⟨hr, hs, hp, hw⟩ => ?_⟩
  · obtain ⟨env, regs, checks, clean⟩ := storeReads_checks hr hs
    have ready := waitUnless_ok (placed_waits (c := s.spWriteReady e && !(rel.isSome && s.olderPending e.who s.nextOp e.m0 true))
      fun j hj off h => by
        rw [Bool.and_eq_true, Bool.not_eq_true', Bool.and_eq_false_imp]
        exact hw j hj off h)
    simp only [env, regs, checks, laneSum_eq_lanesSum, resolve_placed hp, clean, ready, spotStores_eq, exe_ok_bind, exe_pure]
  · have body : exec q.1 s = gstN q.1 s o q.2 := by rcases List.mem_pair.1 hq with rfl | rfl <;> rfl
    obtain ⟨env, regs, checks, clean⟩ := storeReads_checks hr hs
    refine body.trans (run_ready hi ?_)
    simp only [env, regs, checks, addrSum, hp, clean, exe_ok_bind, exe_pure]
    refine waitUnless_bind (elems_wait hw ?_) ?_
    · intros; rfl
    · rfl

/-- The scalar address sum of the model is the statements' (R199). -/
theorem scalarSum_eq {base : W64} : scalarSum base l = (((base.toNat : Int) + mOff none l) % 2 ^ 64).toNat := by
  simp only [scalarSum, addrSum, add_zero]

/-- The one place of a scalar access (R204). -/
theorem resolve_scalar {base : W64} {kind : Nat} {f : Nat → Spot}
    (hp : Places s e (fun _ => (((base.toNat : Int) + mOff none l) % 2 ^ 64).toNat) n kind [0] f) :
    resolve s e (fun _ => scalarSum base l) n kind [0] = .ok [(0, f 0)] := by
  simp only [scalarSum_eq, resolve_placed hp, placed, List.map_cons, List.map_nil]

/-- What a scalar access waits for, and what it sends, at its one place. -/
theorem spotsFull_spad {k : Crew} {j off : Nat} : spotsFull k n [(j, .spad off)] = k.linesFull off n := Bool.and_true _

theorem spotsFull_mem {k : Crew} {j key : Nat} : spotsFull k n [(j, .mem key)] = true := rfl

theorem anySpad_spad {j off : Nat} : anySpad [(j, .spad off)] = true := rfl

theorem anySpad_mem {j key : Nat} : anySpad [(j, .mem key)] = false := rfl

theorem memCells_scalar {j key : Nat} {lanes : Nat → W64} {val : Nat → Nat} :
    memCells 8 [(j, .mem key)] lanes val = [⟨lanes j, key, 8, val j % 256 ^ 8, ones 8⟩] := by
  have whole : ¬(keyTgt key = 3 ∧ 8 = 16) := fun h => absurd h.2 (by decide)
  exact (List.append_nil _).trans (if_neg whole)

/-- SLD and SST (R125, R199, R204). -/
theorem scalarLoadsAndStores : ScalarLoadsAndStores := by
  refine ⟨fun o f s e hi ⟨hs, hd, hp, hl⟩ => run_ready hi ?_, fun s e m k off n h => by rw [spSeen_now h],
    fun o f s e hi ⟨hs, hx, hp, hw⟩ => run_ready hi ?_⟩
  · simp only [rdS_ok hs, freeS_ok hd, resolve_scalar hp, exe_ok_bind]
    cases hf : f 0 with
    | spad off =>
      simp only [hf] at hl
      obtain ⟨full, ready, clean⟩ := hl
      simp only [spotsFull_spad, anySpad_spad, full, ready, clean, Bool.or_true, Bool.and_true, Bool.not_false, need_ok, waitUnless_ok, exe_ok_bind,
        exe_pure]
    | mem key =>
      simp only [hf] at hl
      simp only [spotsFull_mem, anySpad_mem, hl, Bool.true_or, Bool.and_true, Bool.not_false, need_ok, waitUnless_ok, exe_ok_bind, exe_pure]
  · simp only [rdS_ok hs, rdS_ok hx, resolve_scalar hp, exe_ok_bind, spotStores_eq]
    cases hf : f 0 with
    | spad off =>
      simp only [hw off hf, Bool.or_true, waitUnless_ok, exe_ok_bind, exe_pure]
      rfl
    | mem key =>
      have unwritten : s.asOne ((spadLanes [(0, .mem key)]).foldl
          (fun t p => t.spPut e e.m0 none false p.2 8 (s.sreg e.who o.sd.toNat).toNat) s) = s := asOne_self
      simp only [anySpad_mem, Bool.not_false, Bool.true_or, waitUnless_ok, exe_ok_bind, exe_pure, memCells_scalar, List.cons_ne_nil, if_false, unwritten]

/-- Settles O14: loads and stores row by row through their shared bodies, each lane at its place; SLD and SST by the one place they have. -/
theorem memoryAccessesIssue : Obligations.MemoryAccessesIssue := ⟨loadsEmptyTheirRun, storesLeaveForTheirPorts, scalarLoadsAndStores⟩

/-- Settles O10: both widths run one body, whose checks pass and whose lanes have their places. -/
theorem atomicsAtIssue : Obligations.AtomicsAtIssue := by
  intro o v f q hq s e hi ⟨hv, hr, hs, hx, hp, hf, hl⟩
  have body : exec q.1 s = atom q.1 s o q.2 := by rcases List.mem_pair.1 hq with rfl | rfl <;> rfl
  refine body.trans (run_ready hi ?_)
  have compares : o.aop.toNat = 1 ↔ o.aop = 1 := BitVec.toNat_inj (y := 1)
  have data : Readable v.w (runSrc v (runOf o.vt.toNat (if o.aop = 1 then 2 * q.2 else q.2))) := fun x h => hx x (List.mem_cons_of_mem _ h)
  have checks := mChecks_ok (idx := [v.src o.vi false]) (data := runSrc v (runOf o.vt.toNat (if o.aop = 1 then 2 * q.2 else q.2)))
    (venv_ok.1 hv).2 hs hx
  have full := spotsFull_placed (k := e.k) fun j hj off h => (hl j hj off h).1
  have ready := waitUnless_ok (Bool.and_eq_true_iff.2 ⟨full, placed_waits fun j hj off h => (hl j hj off h).2⟩)
  simp only [compares, (venv_ok.1 hv).1, regsOk_ok hr, checks, laneSum_eq_lanesSum, resolve_placed hp, poisonCheck_ok data, dstFree_ok hf, ready,
    exe_ok_bind]
  rfl

end Sys2Proof.Machine
end

section
/-! Prefetch, fences and phases (R207, R208, R213, R224). -/
namespace Sys2Proof.Machine
open Sys2Proof.Laws Sys2Proof.Claims

variable {s : State} {e : Env} {i : Instr} {ld st : Bool}

/-- An instruction that issues and whose body waits stays in place. -/
theorem run_waits {body : Env → Exe State} (hi : Issues s i e) (hb : body e = .error .wait) : run i s body = .next (s.ctxSettle e.who) :=
  runH_stop hi.cur hi.env hi.takes hb

/-- A fence completes where none of the accesses that it names is out, and waits where one is (R208). -/
theorem fence_ready (hi : Issues s i e) (hl : (ld && s.loadsOut e.who) = false) (hs : (st && s.storesOut e.who) = false) :
    fence i s ld st = .next (after e s) :=
  run_ready hi (waitUnless_bind (by rw [hl, hs]; rfl) rfl)

theorem fence_waits (hi : Issues s i e) (h : (ld && s.loadsOut e.who) = true ∨ (st && s.storesOut e.who) = true) :
    fence i s ld st = .next (s.ctxSettle e.who) := by
  refine run_waits hi (waitUnless_stops ?_)
  rcases h with h | h <;> simp only [h, Bool.not_true, Bool.false_and, Bool.and_false]

/-- A walk whose every step changes what threads know, and nothing else, does so as a whole. -/
theorem foldl_known {α : Type} {f : State → α → State} (hf : ∀ t a, ∃ kn, f t a = { t with known := kn }) (l : List α) :
    ∃ kn, l.foldl f s = { s with known := kn } := by
  induction l generalizing s with
  | nil => exact ⟨s.known, rfl⟩
  | cons a l ih =>
    obtain ⟨kn, h⟩ := hf s a
    obtain ⟨kn', h'⟩ := ih (s := f s a)
    exact ⟨kn', by rw [List.foldl_cons, h', h]⟩

/-- An acquire point adds to what its threads know, and changes nothing else (R213, R214). -/
theorem markAcquire_known {who : ThreadRef} {lanes : W64} {scope : Nat} : ∃ kn, s.markAcquire who lanes scope = { s with known := kn } := by
  refine foldl_known (fun t r => ?_) s.reads
  split
  · exact learn_eq.imp' _ fun _ h => h
  · exact ⟨t.known, rfl⟩

/-- Settles O11: the three fences are one body that waits for what it names, and an acquire point changes only what threads know. -/
theorem fencesAndPhases : Obligations.FencesAndPhases := by
  refine ⟨fun o v s e hi ⟨hv, hr, hs, hx⟩ => run_ready hi ?_,
    fun s e hi hl => fence_ready hi (by rw [hl]; rfl) rfl, fun s e hi hs => fence_ready hi rfl (by rw [hs]; rfl),
    fun s e hi ⟨hl, hs⟩ => fence_ready hi (by rw [hl]; rfl) (by rw [hs]; rfl),
    fun s e hi hl => fence_waits hi (.inl hl), fun s e hi hs => fence_waits hi (.inr hs), fun s e hi h => fence_waits hi h,
    fun o s e hi hs => run_ready hi (waitUnless_bind (by rw [hs]; rfl) rfl), fun o s e hi hs => run_waits hi (waitUnless_stops (by rw [hs]; rfl)),
    fun o s e hi hl => run_ready hi (waitUnless_bind (by rw [hl]; rfl) rfl), fun o s e hi hl => run_waits hi (waitUnless_stops (by rw [hl]; rfl)),
    fun s who m sc => ?_⟩
  · have regs : regsOk e.k (mRegs [] o.ix o.vi) = .ok () := regsOk_ok hr
    have reads : Readable v.w (idxSrc v o.ix o.vi ++ []) := (List.append_nil _).symm ▸ hx
    simp only [(venv_ok.1 hv).1, regs, mChecks_ok (venv_ok.1 hv).2 hs reads, exe_ok_bind, exe_pure]
  · obtain ⟨kn, h⟩ := markAcquire_known (s := s) (who := who) (lanes := m) (scope := sc)
    rw [h]

end Sys2Proof.Machine
end

section
/-! Management commands that go on (R190, R344, R355, R407): the next command by its code, its head and what its effect comes to. -/
namespace Sys2Proof.Machine
open Sys2Proof.Laws Sys2Proof.Claims

variable {s : State} {die c r : Nat} {f : State → (Nat → Nat) → CmdRes}

/-- The state that a command's result comes to, from the state `s` after its record `r` has been taken (R344). -/
def CmdRes.comesTo (s : State) (die r : Nat) : CmdRes → State
  | .fail st => answers s die r st
  | .done t => answers t die r 0
  | .goes t k => (t.modDie die (fun d => { d with pend := some ⟨k, bits r 31 16, cmdArg r 6⟩ })).preemptCheck

/-- A command whose code and head are good comes to what its effect says. -/
theorem command_next {res : CmdRes} (h : NextCmd (inWork s []) die c r) (hf : f (headOn (inWork s []) die) (cmdArg r) = res) :
    Host.Outcome.next (s.command die c f) = leaves s (res.comesTo (headOn (inWork s []) die) die r) := by
  obtain ⟨next, code, low, high⟩ := h
  have head : cmHeadOk r = true := decide_eq_true ⟨low, high⟩
  simp only [State.command, State.byWork, State.workWith, State.asWork, ← inWork.eq_def, ← hf]
  rw [next]
  simp only [cmCode, code, ne_eq, not_true_eq_false, if_false, head, Bool.not_true, Bool.false_eq_true]
  rfl

/-- QDESTROY goes on for a queue of its die, and is malformed for any other number (R355). -/
theorem cmdQdestroy_goes {a : Nat → Nat} {x : Queue} (hx : s.queue? (a 0) = some x) (ha : a 0 < 2 ^ 15) (hh : qHome (a 0) = die) :
    cmdQdestroy die s a = .goes ((s.jobs.filter (fun j => decide (j.queue = some x.qid))).foldl State.destroyJob
      ((s.modQueue x.qid (fun x => { x with st := .draining })).cancelPackets x (x.tail - x.head))) (.destroy (a 0)) := by
  have named : x.qid = a 0 := by simpa using List.find?_some hx
  simp only [cmdQdestroy, hx, cmdIf, ha, hh, and_self, decide_true, if_true, named]

theorem cmdQdestroy_fails {a : Nat → Nat} (h : 2 ^ 15 ≤ a 0 ∨ qHome (a 0) ≠ die ∨ s.queue? (a 0) = none) : cmdQdestroy die s a = .fail 2 := by
  unfold cmdQdestroy
  cases hq : s.queue? (a 0) with
  | none => rfl
  | some x =>
    refine if_neg fun ok => ?_
    obtain ⟨ha, hh⟩ := of_decide_eq_true ok
    rcases h with h | h | h
    exacts [absurd ha (Nat.not_lt.2 h), h hh, nomatch hq.symm.trans h]

/-- A command on a context, by the number that names it (R344). -/
theorem cmdIf_ctx {x : Nat} {y : CmdRes} (h : x < 2 ^ 32) : cmdIf (ctxOk x) y = y := if_pos (decide_eq_true h)

theorem cmdIf_noCtx {x : Nat} {y : CmdRes} (h : 2 ^ 32 ≤ x) : cmdIf (ctxOk x) y = .fail 2 :=
  if_neg (by simpa [ctxOk] using h)

/-- The three that name a context check its number alone. -/
theorem exec_ctxCommand {i : Instr} (h : (i, c) ∈ [(.inval die, 5), (.ctxpreempt die, 14), (.ctxresume die, 15)]) :
    ∃ y : State → (Nat → Nat) → CmdRes, ∀ s, exec i s = .next (s.command die c (fun s a => cmdIf (ctxOk (a 0)) (y s a))) := by
  simp only [List.mem_cons, Prod.mk.injEq, List.not_mem_nil, or_false] at h
  rcases h with ⟨rfl, rfl⟩ | ⟨rfl, rfl⟩ | ⟨rfl, rfl⟩ <;> exact ⟨_, fun _ => rfl⟩

/-- What each of the four comes to where its arguments are as its row says. -/
theorem exec_goesRow {i : Instr} {ok : State → (Nat → Nat) → Prop} {g : State → (Nat → Nat) → State} {k : State → (Nat → Nat) → CmdKind}
    (h : GoesRow die i c ok g k) : ∃ f, (∀ s, exec i s = .next (s.command die c f)) ∧ ∀ s a, ok s a → f s a = .goes (g s a) (k s a) := by
  cases h with
  | qdestroy x => exact ⟨_, fun _ => rfl, fun s a ⟨ha, hh, hx⟩ => cmdQdestroy_goes hx ha hh⟩
  | inval | ctxpreempt | ctxresume => exact ⟨_, fun _ => rfl, fun s a ha => cmdIf_ctx ha⟩

/-- A crew stands under the number and meets the condition. -/
theorem crewIs_iff {p : Crew → Bool} {x : Nat} : s.crewIs p x = true ↔ ∃ k, s.crews[x]? = some k ∧ p k = true := by
  unfold State.crewIs
  cases s.crews[x]? <;> simp

section Pending
variable {d : Die} {p : PendCmd} {q ctx start len op : Nat}

/-- A queue's destruction completes once all its packets have (R355). -/
theorem destroyDone_eq (hd : s.dies[qHome q]? = some d) (hp : d.pend = some p) (hk : p.kind = .destroy q) :
    s.destroyDone q = if s.allDone q
      then ({ s with queues := s.queues.filter (fun y => decide (y.qid ≠ q)) } : State).endCmd (qHome q) p 0 0 else s := by
  simp only [State.destroyDone, hd, hp, hk, true_and]

/-- An invalidation with no translated access of its context left drops the cached entries of its range, and completes (R190). -/
theorem invalDone_completes (hd : s.dies[die]? = some d) (hp : d.pend = some p) (hk : p.kind = .inval ctx start len op)
    (ho : ∀ o ∈ s.ops, (∃ k, s.crews[o.crew]? = some k ∧ k.ctxid = ctx) → o.translated = false) :
    s.invalDone die = ({ s with xlat := s.xlat.filter (fun t => !(xlatIn ctx start len t)) } : State).endCmd die p 0 0 := by
  simp only [State.invalDone, hd, hp, hk]
  refine if_neg fun held => ?_
  obtain ⟨o, hm, h⟩ := List.any_eq_true.1 held
  simp only [Bool.and_eq_true, crewIs_iff, decide_eq_true_eq] at h
  exact Bool.false_ne_true ((ho o hm h.1.2).symm.trans h.2)

/-- It waits for an access of its context that was translated before it (R190). -/
theorem invalDone_waits {o : Op} {k : Crew} (hd : s.dies[die]? = some d) (hp : d.pend = some p) (hk : p.kind = .inval ctx start len op)
    (ho : o ∈ s.ops) (hid : o.id < op) (hc : s.crews[o.crew]? = some k) (hx : k.ctxid = ctx) (ht : o.translated = true) : s.invalDone die = s := by
  simp only [State.invalDone, hd, hp, hk]
  exact if_pos (List.any_eq_true.2 ⟨o, ho, by simp [hid, crewIs_iff, hc, hx, ht]⟩)

end Pending

/-- Settles O39: a command by what its effect comes to, and the end of a destruction and of an invalidation by what each waits for. -/
theorem commandsThatGoOn : Obligations.CommandsThatGoOn := by
  refine ⟨fun die i c ok f k row s r h ha => ?_, fun die s r h ha => command_next h (cmdQdestroy_fails ha),
    fun die i c s r hi h ha => ?_, fun s q d c hd hp hk => congrArg Host.Outcome.next (destroyDone_eq hd hp hk),
    fun s die d c ctx start len op hd hp hk ho => ⟨_, congrArg Host.Outcome.next (invalDone_completes hd hp hk ho), rfl, rfl, fun x hx => ?_,
      fun x hx hn => List.mem_filter.2 ⟨hx, by rw [hn]; rfl⟩⟩,
    fun s die d c ctx start len op o k hd hp hk ho hid hc hx ht => congrArg Host.Outcome.next (invalDone_waits hd hp hk ho hid hc hx ht)⟩
  · obtain ⟨g, hx, hg⟩ := exec_goesRow row
    exact (hx s).trans (command_next h (hg _ _ ha))
  · obtain ⟨y, hx⟩ := exec_ctxCommand hi
    exact (hx s).trans (command_next (res := .fail 2) h (cmdIf_noCtx ha))
  · simpa using (List.mem_filter.1 hx).2

end Sys2Proof.Machine
end

section
/-! Barrier objects (R227, R229 to R232, R239): their fields as runs of bits, and what every update leaves of them. -/
namespace Sys2Proof.Machine
open Sys2Proof.Laws Sys2Proof.Claims

section Fields
variable {v x hi lo hi' lo' n i : Nat}

theorem testBit_bits : (bits v hi lo).testBit i = (decide (i < hi + 1 - lo) && v.testBit (lo + i)) := by
  rw [bits, Nat.testBit_mod_two_pow, Nat.testBit_div_two_pow, Nat.add_comm i lo]

theorem bits_lt : bits v hi lo < 2 ^ (hi + 1 - lo) := Nat.mod_lt _ (Nat.two_pow_pos _)

/-- A number with a run of its bits replaced is the bits above the run, the run and the bits below it. -/
theorem setBits_eq (h : lo ≤ hi) :
    setBits v hi lo x = 2 ^ (hi + 1) * (v / 2 ^ (hi + 1)) + (2 ^ lo * (x % 2 ^ (hi + 1 - lo)) + v % 2 ^ lo) := by
  have run : v / 2 ^ lo = 2 ^ (hi + 1 - lo) * (v / 2 ^ (hi + 1)) + bits v hi lo := by
    have split : v / 2 ^ (hi + 1) = v / 2 ^ lo / 2 ^ (hi + 1 - lo) := by rw [Nat.div_div_eq_div_mul, ← pow_add]; congr 2; omega
    rw [split]
    exact (Nat.div_add_mod _ _).symm
  have whole : v = 2 ^ (hi + 1) * (v / 2 ^ (hi + 1)) + 2 ^ lo * bits v hi lo + v % 2 ^ lo := by
    conv_lhs => rw [← Nat.div_add_mod v (2 ^ lo), run, Nat.mul_add, ← Nat.mul_assoc, ← pow_add, show lo + (hi + 1 - lo) = hi + 1 by omega]
  rw [setBits, Nat.mul_comm (bits v hi lo), Nat.mul_comm (x % _)]
  omega

theorem testBit_setBits (h : lo ≤ hi) : (setBits v hi lo x).testBit i = if lo ≤ i ∧ i ≤ hi then x.testBit (i - lo) else v.testBit i := by
  have low : v % 2 ^ lo < 2 ^ lo := Nat.mod_lt _ (Nat.two_pow_pos _)
  have run : 2 ^ lo * (x % 2 ^ (hi + 1 - lo)) + v % 2 ^ lo < 2 ^ (hi + 1) := by
    refine Nat.lt_pow_two_of_testBit _ fun j hj => ?_
    rw [Nat.testBit_two_pow_mul_add _ low, if_neg (by omega), Nat.testBit_mod_two_pow, decide_eq_false (by omega), Bool.false_and]
  rw [setBits_eq h, Nat.testBit_two_pow_mul_add _ run, Nat.testBit_two_pow_mul_add _ low, Nat.testBit_mod_two_pow, Nat.testBit_mod_two_pow,
    Nat.testBit_div_two_pow]
  split_ifs <;> grind

/-- The run of bits just replaced, and one that shares no bit with it. -/
theorem bits_setBits_same (h : lo ≤ hi) : bits (setBits v hi lo x) hi lo = x % 2 ^ (hi + 1 - lo) := by
  refine Nat.eq_of_testBit_eq fun i => ?_
  rw [testBit_bits, testBit_setBits h, Nat.testBit_mod_two_pow, Nat.add_sub_cancel_left]
  grind

theorem bits_setBits_other (h : lo ≤ hi) (hd : hi' < lo ∨ hi < lo') : bits (setBits v hi lo x) hi' lo' = bits v hi' lo' := by
  refine Nat.eq_of_testBit_eq fun i => ?_
  rw [testBit_bits, testBit_bits, testBit_setBits h]
  grind

theorem setBits_lt (h : lo ≤ hi) (hn : hi < n) (hv : v < 2 ^ n) : setBits v hi lo x < 2 ^ n := by
  refine Nat.lt_pow_two_of_testBit _ fun i above => ?_
  rw [testBit_setBits h, if_neg (by omega), Nat.testBit_lt_two_pow (hv.trans_le (Nat.pow_le_pow_right Nat.two_pos above))]

end Fields

section Barriers
variable {b c n hi lo i : Nat} {x : Int}

/-- `c` is the barrier `b` with some fields other than PHASE replaced, within its 256 bits: what every update does before its evaluation
(R227, R229). -/
inductive Rewritten (b : Nat) : Nat → Prop where
  | refl : Rewritten b b
  | field {c hi lo x : Nat} (h : Rewritten b c) (hl : lo ≤ hi := by omega) (hp : hi < 80 ∨ 95 < lo := by omega) (hw : hi < 256 := by omega) :
    Rewritten b (setBits c hi lo x)

theorem Rewritten.phase (h : Rewritten b c) : bPhase c = bPhase b := by
  induction h with
  | refl => rfl
  | field _ hl hp _ ih => exact (bits_setBits_other hl hp.symm).trans ih

theorem Rewritten.lt (h : Rewritten b c) (hb : b < 2 ^ 256) : c < 2 ^ 256 := by
  induction h with
  | refl => exact hb
  | field _ hl _ hw ih => exact setBits_lt hl hw ih

theorem Rewritten.bit (h : Rewritten b c) (hp : i < 80 ∨ 95 < i := by omega) (hw : i < 256 := by omega) : Rewritten b (bSetBit c i) :=
  .field h

theorem Rewritten.apend (h : Rewritten b c) : Rewritten b (bSetApend c n) :=
  .field h

theorem Rewritten.bpend (h : Rewritten b c) : Rewritten b (bSetBpend c x) :=
  .field h

theorem Rewritten.short (h : Rewritten b c) : Rewritten b (bAddShort c n) :=
  .field h

theorem Rewritten.land (h : Rewritten b c) : Rewritten b (bLand c n) := by
  simp only [bLand]
  split
  · exact h.bpend.bit
  · exact h.bpend

theorem Rewritten.arrive (h : Rewritten b c) : Rewritten b (bArrive c n) := by
  unfold bArrive
  split
  · exact h.bit.apend
  · exact h.apend

/-- Arrivals from outside, in whose place a bound barrier takes OVERRUN (R232). -/
theorem Rewritten.outside (h : Rewritten b c) : Rewritten b (if bBound c then bSetBit c 65 else bArrive c n) := by
  split
  · exact h.bit
  · exact h.arrive

/-- A field that an update writes under a condition. -/
theorem Rewritten.when {p : Prop} [Decidable p] {x : Nat} (h : Rewritten b c) (hl : lo ≤ hi := by omega) (hp : hi < 80 ∨ 95 < lo := by omega)
    (hw : hi < 256 := by omega) : Rewritten b (if p then setBits c hi lo x else c) := by
  split
  exacts [.field h, h]

/-- The status bit that an update names is one of the barrier's (R227). -/
def BarUpd.namesStatus : BarUpd → Prop
  | .settle _ bit | .landBit _ bit | .ack _ bit => 64 ≤ bit ∧ bit ≤ 70
  | _ => True

theorem rewritten_bApply {u : BarUpd} (hu : u.namesStatus) : Rewritten b (bApply b u) := by
  have self : Rewritten b b := .refl
  cases u with
  | land n => exact self.land
  | settle n bit =>
    obtain ⟨h1, h2⟩ := hu
    exact self.land.short.bit
  | landBit n bit =>
    obtain ⟨h1, h2⟩ := hu
    exact self.land.bit
  | ack n bit =>
    obtain ⟨h1, h2⟩ := hu
    exact self.bit.short.outside
  | arrive n fault => exact self.when.outside
  | expect n =>
    simp only [bApply]
    split
    · exact self.bit
    · exact self.bpend
  | joined n => exact self.apend
  | left n lost => exact self.when.apend
  | dissolved => exact .field (.field (.field self))
  | gang w p f =>
    have lost : Rewritten b (setBits (bSetBit b 66) 193 191 p) := .field self.bit
    refine Rewritten.outside ?_
    rcases w with _ | w <;> cases f
    exacts [self, lost, self, .field (.field lost)]

theorem rewritten_bClear {sel : Nat} : Rewritten b (bClear b sel) := by
  have status : Rewritten b ((List.range 7).foldl (fun b i => if sel / 2 ^ i % 2 = 1 then setBits b (64 + i) (64 + i) 0 else b) b) :=
    List.foldlRecOn _ _ .refl fun c hc i mem => by
      have := List.mem_range.1 mem
      exact hc.when
  exact status.when.when

/-- An update that leaves both counts at 0 completes the phase (R229). -/
theorem bEval_completes (ha : bApend b = 0) (hp : bBpend b = 0) :
    bPhase (bEval n b) = (bPhase b + 1) % 2 ^ 16 ∧ bApend (bEval n b) = (if bBound b then min n (2 ^ 24 - 1) else bAexp b)
      ∧ bBpend (bEval n b) = 0 ∧ bAexp (bEval n b) = bAexp b := by
  have reload : (if bBound b then min n (2 ^ 24 - 1) else bAexp b) < 2 ^ 24 := by
    split
    · omega
    · exact bits_lt
  rw [bEval, if_pos ⟨ha, hp⟩]
  refine ⟨?_, ?_, ?_, ?_⟩
  · exact (bits_setBits_other (by decide) (by decide)).trans (bits_setBits_same (by decide))
  · exact (bits_setBits_same (by decide)).trans (Nat.mod_eq_of_lt reload)
  · rw [← hp]
    exact congrArg (sextNat 24) ((bits_setBits_other (by decide) (by decide)).trans (bits_setBits_other (by decide) (by decide)))
  · exact (bits_setBits_other (by decide) (by decide)).trans (bits_setBits_other (by decide) (by decide))

theorem bEval_counting (h : bApend b ≠ 0 ∨ bBpend b ≠ 0) : bEval n b = b := if_neg (by tauto)

/-- Arrivals that APEND expects come off it; those beyond it leave it at 0 and set OVERRUN; BPEND stays (R231). -/
theorem bArrive_expected (h : n ≤ bApend b) : bApend (bArrive b n) = bApend b - n ∧ bBpend (bArrive b n) = bBpend b := by
  have width : bApend b < 2 ^ 24 := bits_lt
  rw [bArrive, if_neg (by omega)]
  exact ⟨(bits_setBits_same (by decide)).trans (Nat.mod_eq_of_lt (by omega)), congrArg (sextNat 24) (bits_setBits_other (by decide) (by decide))⟩

theorem bArrive_beyond (h : bApend b < n) : bApend (bArrive b n) = 0 ∧ bits (bArrive b n) 65 65 = 1 ∧ bBpend (bArrive b n) = bBpend b := by
  rw [bArrive, if_pos h]
  exact ⟨bits_setBits_same (by decide), (bits_setBits_other (by decide) (by decide)).trans (bits_setBits_same (by decide)),
    congrArg (sextNat 24) ((bits_setBits_other (by decide) (by decide)).trans (bits_setBits_other (by decide) (by decide)))⟩

theorem bPhase_bArrive : bPhase (bArrive b n) = bPhase b := Rewritten.refl.arrive.phase

theorem bPhase_bSetBpend : bPhase (bSetBpend b x) = bPhase b := Rewritten.refl.bpend.phase

theorem bPhase_bClear : bPhase (bClear b n) = bPhase b := rewritten_bClear.phase

theorem bPhase_bApply {u : BarUpd} (hu : u.namesStatus) : bPhase (bApply b u) = bPhase b := (rewritten_bApply hu).phase

theorem bApply_lt {u : BarUpd} (hu : u.namesStatus) (hb : b < 2 ^ 256) : bApply b u < 2 ^ 256 := (rewritten_bApply hu).lt hb

end Barriers

/-- Refutes O19: the statement takes every update, also one that names a bit outside the status field of R227. A settlement that names bit 80 sets
the lowest bit of PHASE of an empty barrier. The evaluation, arrivals, expectations and clearings do what the statement says
(`bEval_completes`, `bEval_counting`, `bArrive_expected`, `bArrive_beyond`, `bPhase_bArrive`, `bPhase_bSetBpend`, `bPhase_bClear`), and so does every
update that names a status bit (`bPhase_bApply`, `bApply_lt`). -/
theorem not_barrierPhasesComplete : ¬ Obligations.BarrierPhasesComplete := by
  intro h
  obtain ⟨-, -, -, -, -, -, keeps, -⟩ := h 0 0 (by decide)
  exact absurd (keeps (.settle 0 80)) (by decide)

end Sys2Proof.Machine
end

section
/-! The barrier instructions and SUPERSTEP (R226, R228, R234 to R243): the barrier that a register names, or the trap in its place; what WAITB
waits for and where it goes; the group that SUPERSTEP names. -/
namespace Sys2Proof.Machine
open Sys2Proof.Laws Sys2Proof.Claims

section Names
variable {s : State} {e : Env} {i : Instr} {r : BitVec 6} {st : Stop} {off : Nat}

theorem barReg_ok (h : BarAt s e r off) : barReg s e r = .ok off := by
  obtain ⟨hz, hs, rfl, hp⟩ := h
  simp only [barReg, barAt, need_ok (decide_eq_true hz), rdS_ok hs, hp, need_ok (Bool.not_false), exe_ok_bind, exe_pure]

/-- A crew without scratchpad traps before its register is read (R226). -/
theorem barReg_noScratchpad (hz : e.k.z = 0) : barReg s e r = .error (e.ill 6) := by
  rw [barReg, need_fails (decide_eq_false (not_not.2 hz)), exe_error_bind]

/-- A barrier with a poisoned word traps (R228, R413). -/
theorem barReg_poisoned (hz : e.k.z ≠ 0) (hs : SReady s e r.toNat) (hp : e.k.spBad (spAddr e.k.z (s.sreg e.who r.toNat).toNat 0 32) 32 = true) :
    barReg s e r = .error (.trap ⟨11, poisonInfo 3 0 0, none, BitVec.ofNat 64 (spAddr e.k.z (s.sreg e.who r.toNat).toNat 0 32)⟩) := by
  simp only [barReg, barAt, need_ok (decide_eq_true hz), rdS_ok hs, hp, need_fails Bool.not_true, exe_ok_bind, exe_error_bind]

/-- Each barrier instruction looks for its barrier before anything else; a WAITB that has been woken knows it (R226, R236). -/
theorem namesBarrier_stops (h : NamesBarrier i r) (hw : (∃ o, i = .waitb o) → s.waitOf e = none) (hb : barReg s e r = .error st) :
    ∃ body, exec i s = runCtl i s body ∧ body e = .error st := by
  rcases h with ⟨o, rfl | rfl | rfl | rfl, rfl⟩ | ⟨o, rfl, rfl⟩ | ⟨o, rfl | rfl, rfl⟩
  case inl.inr.inr.inr => exact ⟨_, rfl, by simp only [hw ⟨o, rfl⟩, hb, exe_error_bind]⟩
  all_goals exact ⟨_, rfl, by simp only [hb, exe_error_bind]⟩

theorem namesBarrier_traps {t : Trap} (h : NamesBarrier i r) (hi : Issues s i e) (hw : (∃ o, i = .waitb o) → s.waitOf e = none)
    (hb : barReg s e r = .error (.trap t)) : exec i s = .next ((s.raise e t).ctxSettle e.who) := by
  obtain ⟨body, hx, hs⟩ := namesBarrier_stops h hw hb
  exact hx.trans (runCtl_trap hi hs)

end Names

section Waits
variable {s : State} {e : Env} {o : OpX2} {off : Nat} {t : BitVec 16} {seen : List Nat}

/-- What WAITB does with its barrier, its phase, and what that phase has behind it if it has been reached: it parks, traps to the warp of a lost
slice, or goes on (R236). -/
def waitOutcome (s : State) (e : Env) (off : Nat) (t : BitVec 16) : Option (List Nat) → Exe State
  | none => .ok (s.park e (.bar off t none))
  | some seen =>
    if bFault (e.k.bar off) && bIvalid (e.k.bar off) && decide (bIwarp (e.k.bar off) = e.wi) then
      .error (.trap (trapWord 9 (BitVec.ofNat 64 (bFpart (e.k.bar off) * 2 ^ 56 + off))))
    else .ok ((s.joined e.who e.m0 seen).jump e e.npc)

/-- The WAITB waits for phase `t` of the barrier at `off`, which has `q` behind it if it has been reached. -/
def WaitsFor (s : State) (e : Env) (o : OpX2) (off : Nat) (t : BitVec 16) (q : Option (List Nat)) : Prop :=
  ∃ body, exec (.waitb o) s = runCtl (.waitb o) s body ∧ body e = waitOutcome s e off t q

/-- A WAITB that has not parked waits for what its registers name (R236). -/
theorem waitsFor_named {q : Option (List Nat)} (hw : s.waitOf e = none) (ha : BarAt s e o.a off) (hb : SReady s e o.b.toNat)
    (hq : (if reached (bPhase (e.k.bar off)) ((s.sreg e.who o.b.toNat).toNat % 2 ^ 16)
      then some (s.arrivedBefore e.ci off ((s.sreg e.who o.b.toNat).toNat % 2 ^ 16)) else none) = q) :
    WaitsFor s e o off ((s.sreg e.who o.b.toNat).setWidth 16) q := by
  have phase : BitVec.ofNat 16 ((s.sreg e.who o.b.toNat).toNat % 2 ^ 16) = (s.sreg e.who o.b.toNat).setWidth 16 :=
    BitVec.eq_of_toNat_eq (by simp)
  refine ⟨_, rfl, ?_⟩
  simp only [hw, barReg_ok ha, rdS_ok hb, phase, hq, exe_ok_bind, exe_pure]
  rfl

/-- One that has been woken names its barrier by the offset that it parked with. -/
theorem waitsFor_woken (hw : s.waitOf e = some (.bar off t (some seen))) (hz : e.k.z ≠ 0) (ho : off = spAddr e.k.z (off % 2 ^ 64) 0 32)
    (hp : e.k.spBad off 32 = false) : WaitsFor s e o off t (some seen) := by
  have named : barAt e (BitVec.ofNat 64 off) = .ok off := by
    simp only [barAt, BitVec.toNat_ofNat, ← ho, need_ok (decide_eq_true hz), hp, need_ok (Bool.not_false), exe_ok_bind, exe_pure]
  refine ⟨_, rfl, ?_⟩
  simp only [hw, named, exe_ok_bind, exe_pure]
  rfl

theorem partnerLost_iff : (bFault (e.k.bar off) && bIvalid (e.k.bar off) && decide (bIwarp (e.k.bar off) = e.wi)) = true ↔ PartnerLost e off := by
  simp only [PartnerLost, Bool.and_eq_true, decide_eq_true_eq, and_assoc]

theorem WaitsFor.goes (h : WaitsFor s e o off t (some seen)) (hi : Issues s (.waitb o) e) (hl : ¬PartnerLost e off) :
    exec (.waitb o) s = .next (((s.joined e.who e.m0 seen).jump e e.npc).ctxSettle e.who) := by
  obtain ⟨body, hx, hb⟩ := h
  exact hx.trans (runCtl_ready hi (hb.trans (if_neg (mt partnerLost_iff.1 hl))))

theorem WaitsFor.lost (h : WaitsFor s e o off t (some seen)) (hi : Issues s (.waitb o) e) (hl : PartnerLost e off) :
    exec (.waitb o) s = .next ((s.raise e (trapWord 9 (BitVec.ofNat 64 (bFpart (e.k.bar off) * 2 ^ 56 + off)))).ctxSettle e.who) := by
  obtain ⟨body, hx, hb⟩ := h
  exact hx.trans (runCtl_trap hi (hb.trans (if_pos (partnerLost_iff.2 hl))))

theorem WaitsFor.parks (h : WaitsFor s e o off t none) (hi : Issues s (.waitb o) e) :
    exec (.waitb o) s = .next ((s.park e (.bar off t none)).ctxSettle e.who) := by
  obtain ⟨body, hx, hb⟩ := h
  exact hx.trans (runCtl_ready hi hb)

end Waits

section Steps
variable {s : State} {e : Env} {o : OpX2} {g : Nat}

/-- A SUPERSTEP that names its crew's group waits for its register, unless an earlier SUPERSTEP of its warp holds it (R125, R243). -/
theorem execSuperstep_parks (hi : Issues s (.superstep o) e) (hb : SReady s e o.b.toNat) (ha : SFree s e o.a.toNat ∨ s.stepHolds e o.a.toNat = true)
    (hk : e.k.stepGroup = some g) (hg : (s.sreg e.who o.b.toNat).toNat = g) (hs : s.steps.any (fun t => decide (t.g = g)) = true)
    (ho : s.olderPending e.who s.nextOp e.m0 true = false) :
    exec (.superstep o) s = .next (((((s.stepNote e.ci (s.past e.who s.nextOp e.m0)).pendS e.who o.a.toNat).park e
      (.step o.a.toNat none)).stepArrive e.ci).ctxSettle e.who) := by
  refine runCtl_ready hi ?_
  simp only [rdS_ok hb, hk, hg, hs, ho, decide_true, Bool.and_self, Bool.not_false, if_true, waitUnless_ok, exe_ok_bind, exe_pure]
  split
  · rfl
  · next free => rw [freeS_ok (ha.resolve_right free), exe_ok_bind]

theorem execSuperstep_refused (hi : Issues s (.superstep o) e) (hb : SReady s e o.b.toNat) (ha : SFree s e o.a.toNat)
    (hn : ∀ g, e.k.stepGroup = some g → (s.sreg e.who o.b.toNat).toNat = g → s.steps.any (fun t => decide (t.g = g)) = false) :
    exec (.superstep o) s = .next (after e (s.setS e.who o.a.toNat (BitVec.ofInt 64 (-1)))) := by
  refine runCtl_ready hi ?_
  simp only [rdS_ok hb, exe_ok_bind]
  rw [if_neg, wrS_ok ha, exe_ok_bind]
  · rfl
  · split
    · next g hk => simpa using hn g hk
    · exact Bool.false_ne_true

end Steps

/-- A new barrier of `n` arrivals holds the count in AEXP and in APEND, and 0 elsewhere (R235). -/
theorem newBarrier_eq {n : Nat} (h : n < 2 ^ 24) : bSetApend (setBits 0 151 128 n) n = n * 2 ^ 152 + n * 2 ^ 128 := by
  unfold bSetApend setBits bits
  omega

/-- Settles O18: each instruction by its checks in order, which find its barrier or trap, and WAITB by what it waits for. -/
theorem barrierInstructions : Obligations.BarrierInstructions := by
  refine ⟨fun o off s e hi ⟨ha, hb⟩ => run_ready hi ?_, fun o off c key hk s e hi ⟨ha, hb, hr, hc, hu⟩ => run_ready hi ?_,
    fun o off s e hi ⟨ha, hb, hn⟩ => run_ready hi ?_,
    fun o off s e hi ⟨hb, ha, hs, ho⟩ => run_ready hi ?_, fun o off s e hi ⟨hb, hc, ha, hs, ho⟩ => run_ready hi ?_,
    fun o off s e hi ⟨ha, hb, hn⟩ => run_ready hi ?_,
    fun o off s e hi ⟨hw, ha, hb, hr, hl⟩ => (waitsFor_named hw ha hb (if_pos hr)).goes hi hl,
    fun o off t seen s e hi ⟨hw, hz, ho, hp, hl⟩ => (waitsFor_woken hw hz ho hp).goes hi hl,
    fun o off s e hi ⟨hw, ha, hb, hr⟩ => (waitsFor_named hw ha hb (if_neg (Bool.eq_false_iff.1 hr))).parks hi,
    fun o off s e hi ⟨hw, ha, hb, hr, hl⟩ => (waitsFor_named hw ha hb (if_pos hr)).lost hi hl,
    fun o off t seen s e hi ⟨hw, hz, ho, hp, hl⟩ => (waitsFor_woken hw hz ho hp).lost hi hl,
    fun o off s e hi ⟨ha, hb, hn⟩ => runH_trap hi ?_, fun o off s e hi ⟨hb, hc, ha⟩ => run_ready hi ?_,
    fun o g s e hi ⟨hb, ha, hk, hg, hs, ho⟩ => execSuperstep_parks hi hb ha hk hg hs ho,
    fun o s e hi ⟨hb, ha, hn⟩ => execSuperstep_refused hi hb ha hn,
    fun i r h s e hi ⟨hz, hw⟩ => namesBarrier_traps h hi hw (barReg_noScratchpad hz),
    fun i r h s e hi ⟨hz, hr, hp, hw⟩ => namesBarrier_traps h hi hw (barReg_poisoned hz hr hp)⟩
  · simp only [barReg_ok ha, rdS_ok hb, newBarrier_eq (Nat.mod_lt _ (Nat.two_pow_pos 24)), exe_ok_bind, exe_pure]
  · simp only [barReg_ok ha, rdS_ok hb, hr, hc, if_pos (And.intro hk hu), exe_ok_bind, exe_pure]
  · simp only [barReg_ok ha, rdS_ok hb, exe_ok_bind, exe_pure]
    split
    · next c hc =>
      have unbound : ¬((s.sreg e.who o.b.toNat).setWidth 32 ≠ (0 : W32) ∧ c.bound = none) := fun ⟨hz, hu⟩ => (hn c hc).elim hz (· hu)
      rw [if_neg unbound]
      rfl
    · rfl
  · simp only [barReg_ok hb, freeS_ok ha, hs, ho, Bool.not_false, Bool.and_self, waitUnless_ok, exe_ok_bind, exe_pure]
  · simp only [barReg_ok hb, rdS_ok hc, freeS_ok ha, hs, ho, Bool.not_false, Bool.and_self, waitUnless_ok, exe_ok_bind, exe_pure]
  · simp only [barReg_ok ha, rdS_ok hb, need_ok (decide_eq_true hn), exe_ok_bind, exe_pure]
  · have beyond : ¬bBpend (e.k.bar off) + ((s.sreg e.who o.b.toNat).toNat : Int) ≤ 2 ^ 23 - 1 := by omega
    simp only [barReg_ok ha, rdS_ok hb, need_fails (decide_eq_false beyond), exe_ok_bind, exe_error_bind]
    rfl
  · simp only [barReg_ok hb, rdS_ok hc, freeS_ok ha, exe_ok_bind, exe_pure]

end Sys2Proof.Machine
end

section
/-! Jobs that go on by themselves (R241 to R243, R352): a poll by what its conditions read, a part of a packet's copy by whether it is to be read
or to be written, and a step whose time runs. -/
namespace Sys2Proof.Machine
open Sys2Proof.Laws Sys2Proof.Claims

section Polls
variable {s : State} {id : Nat} {j : Job} {cs : List (Nat × W64 × Nat)} {all : Bool} {bs : List Bool}

/-- A wait holds where all of its conditions do, or where one of them is enough and does (R352). -/
theorem waitHolds_iff : (if all then bs.all (fun b => b) else bs.any (fun b => b)) = true
    ↔ (all = true ∧ ∀ b ∈ bs, b = true) ∨ (all = false ∧ ∃ b ∈ bs, b = true) := by
  cases all <;> simp

/-- The job of a wait that has been polled, with what its words observe behind it. -/
def polled (s : State) (j : Job) (cs : List (Nat × W64 × Nat)) : Job :=
  { j with seen := unionOf (j.seen :: cs.map (fun c => s.vobserved j.ctxid c.1 8)) }

/-- The package with that job. -/
def pollOf (s : State) (id : Nat) (j : Job) (cs : List (Nat × W64 × Nat)) : State := s.modJob id (fun x => { x with seen := (polled s j cs).seen })

theorem pollJob_reads (hj : s.job? id = some j) (hk : j.kind = .wait cs all) (hb : (pollOf s id j cs).condsOf j.ctxid cs = some bs) :
    s.pollJob id = if (all = true ∧ ∀ b ∈ bs, b = true) ∨ (all = false ∧ ∃ b ∈ bs, b = true)
      then (pollOf s id j cs).jobDone (polled s j cs) 0 0 0 0 else pollOf s id j cs := by
  unfold pollOf polled at *
  simp only [State.pollJob, hj, hk, hb, waitHolds_iff]

theorem pollJob_faults (hj : s.job? id = some j) (hk : j.kind = .wait cs all) (hb : (pollOf s id j cs).condsOf j.ctxid cs = none) :
    s.pollJob id = (pollOf s id j cs).jobDone (polled s j cs) 6 0 0 0 := by
  unfold pollOf polled at *
  simp only [State.pollJob, hj, hk, hb]

end Polls

section Copies
variable {s : State} {op b : Nat} {j : Job} {c : CpOp} {p r : Nat × Nat} {ks : List (Nat × Nat)} {f : XFault}

theorem copyPart_packet (h : PacketCopies s op j c) : exec (.copyPart op b) s = leaves s ((inCopy s op j).hostCopyPart j op c b) := by
  obtain ⟨ho, hc⟩ := h
  refine congrArg Host.Outcome.next ?_
  simp only [State.anyCopyPart, ho, hc]
  rfl

theorem hostCopyPart_takes (hr : rangeAt b c.unread = some r)
    (hv : s.vkeys j.ctxid kRead ((c.src + (readAt c r b).1) % 2 ^ 64) (readAt c r b).2 = .ok ks) :
    s.hostCopyPart j op c b = s.copyGoes j op (c.take (readAt c r b) (runsDie ks) (s.runBytes ks)) := by
  simp only [State.hostCopyPart, hr, hv]

theorem hostCopyPart_readFaults (hr : rangeAt b c.unread = some r)
    (hv : s.vkeys j.ctxid kRead ((c.src + (readAt c r b).1) % 2 ^ 64) (readAt c r b).2 = .error f) :
    s.hostCopyPart j op c b = s.copyEnds j 6 := by
  simp only [State.hostCopyPart, hr, hv]

/-- Every byte of a part that waits has been read. -/
theorem partWaits_read (hp : PartWaits c b p) : (c.unread.any fun q => meets p.1 p.2 q.1 q.2) = false := by
  obtain ⟨-, -, hm⟩ := hp
  simpa using hm

/-- It is written unless it crosses to a die whose bridge is shut (R14, R280, R283). -/
theorem hostCopyPart_writes (hp : PartWaits c b p) (hv : s.vkeys j.ctxid kWrite ((c.dst + p.1) % 2 ^ 64) p.2 = .ok ks)
    (hx : (c.crosses p (runsDie ks) && s.bridgeShut (runsDie ks) c.tried) = false) :
    s.hostCopyPart j op c b = (s.wrRunsMarked ks (c.bytes p)).copyGoes j op (c.accept p) := by
  have read := partWaits_read hp
  obtain ⟨hu, ⟨r, hr, rfl⟩, -⟩ := hp
  simp only [State.hostCopyPart, hu, hr, read, hv, hx, Bool.false_eq_true, if_false]

theorem hostCopyPart_writeFaults (hp : PartWaits c b p) (hv : s.vkeys j.ctxid kWrite ((c.dst + p.1) % 2 ^ 64) p.2 = .error f) :
    s.hostCopyPart j op c b = s.copyEnds j 6 := by
  have read := partWaits_read hp
  obtain ⟨hu, ⟨r, hr, rfl⟩, -⟩ := hp
  simp only [State.hostCopyPart, hu, hr, read, hv, Bool.false_eq_true, if_false]

/-- A part written to memory outside the aperture lies in one block of 64 bytes: that of the byte it was found by (R280). -/
theorem partAt_block (hf : c.fn = 7) (hk : cpDk c.ctl ≠ 1) (ha : inAperture (c.dst + b) = false) (hr : rangeAt b c.left = some r) :
    (c.dst + (partAt c c.index r b).1) / 64 = (c.dst + b) / 64
      ∧ (c.dst + (partAt c c.index r b).1 + (partAt c c.index r b).2 - 1) / 64 = (c.dst + b) / 64 := by
  have dest : cpDest c c.index b = (0, c.dst + b) := by simp [cpDest, hf, hk]
  have size : partSize 0 (c.dst + b) = 64 := by simp [partSize, ha]
  obtain ⟨low, high⟩ : r.1 ≤ b ∧ b < r.1 + r.2 := by simpa using List.find?_some hr
  simp only [partAt, dest, size]
  omega

end Copies

/-- A poll, and the parts of a packet's copy (R352). -/
theorem waitsAndPacketCopiesAdvance : WaitsAndPacketCopiesAdvance := by
  refine ⟨fun s id j cs all hj hk => ⟨fun bs hb => congrArg Host.Outcome.next (pollJob_reads hj hk hb),
      fun hb => congrArg Host.Outcome.next (pollJob_faults hj hk hb)⟩,
    fun s op b j c r h hr => ⟨fun ks hv => ?_, fun f hv => ?_⟩, fun s op b j c p h hp => ⟨fun ks hv hx => ?_, fun f hv => ?_⟩,
    fun s j op c => rfl, fun c p b hp hf hk ha => ?_⟩
  · rw [copyPart_packet h, hostCopyPart_takes hr hv]
  · rw [copyPart_packet h, hostCopyPart_readFaults hr hv]
    rfl
  · have passes : (c.crosses p (runsDie ks) && (inCopy s op j).bridgeShut (runsDie ks) c.tried) = false := by
      simpa only [Bool.and_eq_false_imp] using hx
    rw [copyPart_packet h, hostCopyPart_writes hp hv passes]
  · rw [copyPart_packet h, hostCopyPart_writeFaults hp hv]
    rfl
  · obtain ⟨-, ⟨r, hr, rfl⟩, -⟩ := hp
    obtain ⟨first, last⟩ := partAt_block hf hk ha hr
    exact first.trans last.symm

/-- The end of a step whose timeout has passed since its first arrival (R241, R243). -/
theorem stepsTimeOut : StepsTimeOut := by
  refine fun s g x l t0 hx hl hf => ⟨fun hn ht => ?_, fun ht => ?_⟩
  all_goals
    refine congrArg Host.Outcome.next ?_
    simp only [hx, hl, hf]
  · exact if_pos ⟨hn, ht⟩
  · exact if_neg (by omega)

/-- Settles O32: a poll by what its conditions read, each stage of a copy's part by its translation, and a timeout by its two conditions. -/
theorem waitsCopiesAndStepsAdvance : Obligations.WaitsCopiesAndStepsAdvance := ⟨waitsAndPacketCopiesAdvance, stepsTimeOut⟩

end Sys2Proof.Machine
end

section
/-! Tile descriptors (R246, R247, R257): the two checks of TCFG, and what a well-formed descriptor keeps to. -/
namespace Sys2Proof.Machine
open Sys2Proof.Laws Sys2Proof.Claims

section Descriptors
variable {s : State} {e : Env} {o : OpXTd} {t : BitVec 128} {kib : Nat}

/-- The format check of TCFG: a descriptor with V = 1 names an element format (R247). -/
def tdFmtOk (t : BitVec 128) : Bool := !(tdValid t) || decide (1 ≤ tdFmt t ∧ tdFmt t ≤ 7)

/-- Its second check: with V = 1 the descriptor is well-formed, with V = 0 it is all zero (R247). -/
def tdRestOk (t : BitVec 128) (kib : Nat) : Bool := if tdValid t then tdWf t kib else decide (t = 0)

/-- TCFG reads both of its registers, then judges the descriptor by the two checks, each with its own reason (R247, R257). -/
theorem execTcfg_eq : exec (.tcfg o) s = run (.tcfg o) s (fun e => do
    let lo ← rdS s e o.b.toNat
    let hi ← rdS s e o.c.toNat
    need (tdFmtOk (hi ++ lo)) (e.ill 5)
    need (tdRestOk (hi ++ lo) e.k.image.tilekib) (e.ill 6)
    pure (s.modCrew e.ci (fun k => { k with td := modAt k.td o.td.toNat (fun _ => hi ++ lo) }))) := rfl

/-- The descriptor that the two registers of TCFG hold. -/
def TcfgReads (s : State) (e : Env) (o : OpXTd) (t : BitVec 128) : Prop :=
  SReady s e o.b.toNat ∧ SReady s e o.c.toNat ∧ t = s.sreg e.who o.c.toNat ++ s.sreg e.who o.b.toNat

theorem execTcfg_writes (hi : Issues s (.tcfg o) e) (hr : TcfgReads s e o t) (hf : tdFmtOk t = true) (hw : tdRestOk t e.k.image.tilekib = true) :
    exec (.tcfg o) s = .next (after e (s.modCrew e.ci (fun k => { k with td := modAt k.td o.td.toNat (fun _ => t) }))) := by
  obtain ⟨hb, hc, rfl⟩ := hr
  refine execTcfg_eq.trans (run_ready hi ?_)
  simp only [rdS_ok hb, rdS_ok hc, need_ok hf, need_ok hw, exe_ok_bind, exe_pure]

theorem execTcfg_badFormat (hi : Issues s (.tcfg o) e) (hr : TcfgReads s e o t) (hf : tdFmtOk t = false) :
    exec (.tcfg o) s = .next ((s.raise e (trapWord 1 (BitVec.ofNat 64 (5 * 2 ^ 56 + e.h.word % 2 ^ 32)))).ctxSettle e.who) := by
  obtain ⟨hb, hc, rfl⟩ := hr
  refine execTcfg_eq.trans (runH_trap hi ?_)
  simp only [rdS_ok hb, rdS_ok hc, need_fails hf, exe_ok_bind, exe_error_bind]
  rfl

theorem execTcfg_illFormed (hi : Issues s (.tcfg o) e) (hr : TcfgReads s e o t) (hf : tdFmtOk t = true)
    (hw : tdRestOk t e.k.image.tilekib = false) :
    exec (.tcfg o) s = .next ((s.raise e (trapWord 1 (BitVec.ofNat 64 (6 * 2 ^ 56 + e.h.word % 2 ^ 32)))).ctxSettle e.who) := by
  obtain ⟨hb, hc, rfl⟩ := hr
  refine execTcfg_eq.trans (runH_trap hi ?_)
  simp only [rdS_ok hb, rdS_ok hc, need_ok hf, need_fails hw, exe_ok_bind, exe_error_bind]
  rfl

theorem tdFmtOk_valid (hv : tdValid t = true) : tdFmtOk t = decide (1 ≤ tdFmt t ∧ tdFmt t ≤ 7) := by
  rw [tdFmtOk, hv, Bool.not_true, Bool.false_or]

theorem tdFmtOk_invalid (hv : tdValid t = false) : tdFmtOk t = true := by rw [tdFmtOk, hv, Bool.not_false, Bool.true_or]

theorem tdRestOk_valid (hv : tdValid t = true) : tdRestOk t kib = tdWf t kib := if_pos hv

theorem tdRestOk_invalid (hv : tdValid t = false) : tdRestOk t kib = decide (t = 0) := if_neg (Bool.eq_false_iff.1 hv)

/-- What a well-formed descriptor keeps to: its block code, its rows, and its scales where it has any (R247). -/
theorem tdWf_keeps (h : tdWf t kib = true) : tdBlk t ≠ 3 ∧ tdRowBytes t ≤ tdPitch t ∧ tdRowsEnd t ≤ 1024 * kib
    ∧ tdCols t * fmtWidth (tdFmt t) % 8 = 0 ∧ (tdBlk t ≠ 0 → tdScalesEnd t ≤ 1024 * kib ∧ 3 ≤ tdFmt t) := by
  simp only [tdWf, Bool.and_eq_true, Bool.or_eq_true, decide_eq_true_eq] at h
  obtain ⟨⟨⟨⟨⟨⟨⟨⟨block, format⟩, -⟩, whole⟩, -⟩, pitch⟩, rows⟩, scales⟩, -⟩ := h
  exact ⟨block, pitch, rows, whole, fun hb => ⟨(scales.resolve_left hb).1, format.resolve_left hb⟩⟩

end Descriptors

/-- Settles O21: TCFG by its two checks in order, which a descriptor of all zero passes by its V = 0. -/
theorem tileDescriptorsAreChecked : Obligations.TileDescriptorsAreChecked := by
  refine ⟨fun o t s e hi ⟨hb, hc, ht, ok⟩ => ?_, fun o t s e hi ⟨hb, hc, ht, hv, hf⟩ => ?_, fun o t s e hi ⟨hb, hc, ht, hv, hl, hh, hw⟩ => ?_,
    fun t kib => tdWf_keeps, fun o t s e hi ⟨hb, hc, ht, hv, hz⟩ => ?_⟩
  · rcases ok with rfl | ⟨hv, hl, hh, hw⟩
    · have hv : tdValid 0 = false := BitVec.getLsbD_zero
      exact execTcfg_writes hi ⟨hb, hc, ht⟩ (tdFmtOk_invalid hv) ((tdRestOk_invalid hv).trans (decide_eq_true rfl))
    · exact execTcfg_writes hi ⟨hb, hc, ht⟩ ((tdFmtOk_valid hv).trans (decide_eq_true ⟨hl, hh⟩)) ((tdRestOk_valid hv).trans hw)
  · exact execTcfg_badFormat hi ⟨hb, hc, ht⟩ ((tdFmtOk_valid hv).trans (decide_eq_false (by omega)))
  · exact execTcfg_illFormed hi ⟨hb, hc, ht⟩ ((tdFmtOk_valid hv).trans (decide_eq_true ⟨hl, hh⟩)) ((tdRestOk_valid hv).trans hw)
  · exact execTcfg_illFormed hi ⟨hb, hc, ht⟩ (tdFmtOk_invalid hv) ((tdRestOk_invalid hv).trans (decide_eq_false hz))

end Sys2Proof.Machine
end

section
/-! Matrix operations at issue (R250 to R253, R258 to R264): what an operation captures of its context, the accumulators that it names, the members
of an MMAG, and the checks of a drain in order. -/
namespace Sys2Proof.Machine
open Sys2Proof.Laws Sys2Proof.Claims

section Captured
variable {s : State} {e : Env} {x fn acc : Nat} {c : SCtx} {m : MxOp}

theorem theCtx_ok (h : CtxIs s e x c) : theCtx s e = .ok c := by
  obtain ⟨who, there⟩ := h
  simp only [theCtx, who, there]

theorem accOk_ok (h : acc < e.k.image.acc) : accOk e acc = .ok () := need_ok (decide_eq_true h)

theorem accOk_fails (h : e.k.image.acc ≤ acc) : accOk e acc = .error (trapOf 2 (BitVec.ofNat 64 (128 + acc))) :=
  need_fails (decide_eq_false (Nat.not_lt.2 h))

theorem mxBase_eq : mxBase e c fn acc = mxIssued e c fn acc := by
  simp only [mxBase, mxIssued, bitsOf, pow_zero, Nat.div_one]
  rfl

/-- An operation other than MMAG empties at most its own crew's accumulator (R251). -/
theorem issueMx_own (h : m.fn ≠ 5) : s.issueMx e m = (s.addOp { e.newOp s 1 with eng := some (.mx m) }).refreshAcc e.ci m.acc := by
  rw [State.issueMx, MxOp.crews, if_neg h]
  rfl

end Captured

section Products
variable {s : State} {e : Env} {i : Instr} {fn x : Nat} {c : SCtx} {o : OpXMma} {d : OpXTd} {a : OpXAcc} {ms : List Nat}

/-- MMA and MMAS as they issue (R259). -/
def productIssued (e : Env) (c : SCtx) (o : OpXMma) (fn : Nat) : MxOp :=
  { mxIssued e c fn o.acc.toNat with tda := e.k.td.getD o.tda.toNat 0, tdb := e.k.td.getD o.tdb.toNat 0 }

theorem issueProduct_ready (hi : Issues s i e) (hc : CtxIs s e x c) (ha : o.acc.toNat < e.k.image.acc) (hn : fn ≠ 5) :
    issueProduct i s o fn
      = .next (after e ((s.addOp { e.newOp s 1 with eng := some (.mx (productIssued e c o fn)) }).refreshAcc e.ci o.acc.toNat)) := by
  refine run_ready hi ?_
  simp only [accOk_ok ha, theCtx_ok hc, mxBase_eq, exe_ok_bind, exe_pure]
  exact congrArg Except.ok (issueMx_own hn)

theorem issueMove_ready (hi : Issues s i e) (hc : CtxIs s e x c) (hb : SReady s e d.b.toNat) (hd : SReady s e d.c.toNat) :
    issueMove i s d fn = .next (after e (s.addOp { e.newOp s 1 with eng := some (.mx { mxIssued e c fn 8 with
      tda := e.k.td.getD d.td.toNat 0, x := s.sreg e.who d.b.toNat, c := s.sreg e.who d.c.toNat }) })) := by
  refine run_ready hi ?_
  simp only [rdS_ok hb, rdS_ok hd, theCtx_ok hc, mxBase_eq, exe_ok_bind, exe_pure]

theorem execAclr_ready (hi : Issues s (.aclr a) e) (hc : CtxIs s e x c) (ha : a.acc.toNat < e.k.image.acc) :
    exec (.aclr a) s
      = .next (after e ((s.addOp { e.newOp s 1 with eng := some (.mx (mxIssued e c 6 a.acc.toNat)) }).refreshAcc e.ci a.acc.toNat)) := by
  refine run_ready hi ?_
  simp only [accOk_ok ha, theCtx_ok hc, mxBase_eq, exe_ok_bind, exe_pure]
  exact congrArg Except.ok (issueMx_own (show 6 ≠ 5 by decide))

/-- MMA, MMAS and ACLR judge their accumulator before anything else (R250). -/
theorem accumulator_traps (h : i ∈ [Instr.mma o, .mmas o, .aclr ⟨o.acc⟩]) (hi : Issues s i e) (ha : e.k.image.acc ≤ o.acc.toNat) :
    exec i s = .next ((s.raise e (trapWord 2 (BitVec.ofNat 64 (128 + o.acc.toNat)))).ctxSettle e.who) := by
  have body : ∃ rest : Env → Unit → Exe State, exec i s = run i s (fun e => accOk e o.acc.toNat >>= rest e) := by
    simp only [List.mem_cons, List.not_mem_nil, or_false] at h
    rcases h with rfl | rfl | rfl <;> exact ⟨_, rfl⟩
  obtain ⟨rest, hx⟩ := body
  refine hx.trans (runH_trap hi ?_)
  rw [accOk_fails ha]
  rfl

/-- MMAG issues where it has 1 to 8 members, the issuing crew among them, and a barrier (R261). -/
def gangOk (e : Env) (c : SCtx) (ms : List Nat) : Bool :=
  decide (1 ≤ ms.length ∧ ms.length ≤ 8) && ms.contains e.ci && c.mxbar.getLsbD 63

theorem gangOk_iff : gangOk e c ms = true ↔ (1 ≤ ms.length ∧ ms.length ≤ 8) ∧ e.ci ∈ ms ∧ c.mxbar.getLsbD 63 = true := by
  simp only [gangOk, Bool.and_eq_true, decide_eq_true_eq, List.contains_iff_mem, and_assoc]

theorem gangOk_fails (h : ms.length = 0 ∨ 8 < ms.length ∨ e.ci ∉ ms ∨ c.mxbar.getLsbD 63 = false) : gangOk e c ms = false := by
  refine Bool.eq_false_iff.2 fun ok => ?_
  obtain ⟨⟨low, high⟩, mem, bar⟩ := gangOk_iff.1 ok
  rcases h with none | many | out | off
  · omega
  · omega
  · exact out mem
  · exact Bool.false_ne_true (off.symm.trans bar)

/-- MMAG by its checks in order (R250, R261). -/
theorem execMmag_eq (hc : CtxIs s e x c) (hm : gangMembers s e.k (c.mxgang.setWidth 32) = ms) :
    ∃ body, exec (.mmag o) s = run (.mmag o) s body ∧ body e = (do
      need (gangOk e c ms) (e.ill 6)
      accOk e o.acc.toNat
      pure (s.issueMx e { productIssued e c o 5 with members := ms.map (newSlice s o.tda.toNat) })) := by
  refine ⟨_, rfl, ?_⟩
  simp only [theCtx_ok hc, hm, mxBase_eq, exe_ok_bind]
  rfl

end Products

section Drains
variable {s t : State} {e : Env} {i : Instr} {x acc dst n : Nat} {c : SCtx} {add : Bool} {sa sc : BitVec 6} {ctl rows : W64}
  {w : Warp} {f : MxFault}

/-- The three drains run one body. -/
theorem exec_drainRow (h : DrainRow i acc dst add sa sc) : exec i s = issueDrain i s acc dst add sa sc := by
  cases h <;> rfl

/-- A drain to registers adds nothing on store. -/
theorem drainRow_add (h : DrainRow i acc dst add sa sc) : dst = 2 → add = false := by
  cases h <;> simp

/-- A check that gives no reason passes, and one that does traps with it. -/
def reasoned (e : Env) : Option Nat → Exe Unit
  | none => .ok ()
  | some n => .error (e.ill n)

theorem need_reason {p : Prop} [Decidable p] {b : Bool} (hb : b = true ↔ ¬p) : need b (e.ill n) = reasoned e (if p then some n else none) := by
  by_cases hp : p
  · rw [need_fails (Bool.eq_false_iff.2 (mt hb.1 (not_not.2 hp))), if_pos hp]
    rfl
  · rw [need_ok (hb.2 hp), if_neg hp]
    rfl

/-- A check before others gives the first reason. -/
theorem need_firstReason {p : Prop} [Decidable p] {b : Bool} {k : Exe Unit} {r : Option Nat} (hb : b = true ↔ ¬p) (hk : k = reasoned e r) :
    (need b (e.ill n) >>= fun _ => k) = reasoned e (if p then some n else r) := by
  rw [need_reason hb, hk]
  split <;> rfl

/-- The value checks of a drain trap with the reason that its control register gives, if any (R264). -/
theorem drCheck_eq (h : dst = 2 → add = false) : drCheck e ctl dst add = reasoned e (drainReason ctl dst add) := by
  have adds : need (!add || decide (drFmt ctl ≤ 1)) (e.ill 6) = reasoned e (if add = true ∧ 1 < drFmt ctl then some 6 else none) :=
    need_reason (by cases add <;> simp)
  refine need_firstReason (by simp) (need_firstReason (by simp) (need_firstReason (by simp) ?_))
  rw [adds]
  split
  · next registers =>
    rw [← ite_not (drPitch ctl = 0), h registers]
    exact need_firstReason (by simp) rfl
  · exact need_firstReason (by simp) rfl

/-- A check that is made under a condition. -/
theorem check_when {α : Type} {p : Prop} [Decidable p] {a : Exe Unit} {k : Exe α} (h : p → a = .ok ()) :
    (if p then a >>= fun _ => k else k) = k := by
  split
  · next hp => rw [h hp, exe_ok_bind]
  · rfl

/-- What a drain has passed before it looks at its accumulator: its registers can be read, and the values of its control register, its accumulator
and its registers are in range (R264). -/
structure DrainPasses (s : State) (e : Env) (acc dst : Nat) (add : Bool) (sa sc : BitVec 6) : Prop where
  control : SReady s e sc.toNat
  base : SReady s e sa.toNat
  values : drainReason (s.sreg e.who sc.toNat) dst add = none
  acc : acc < e.k.image.acc
  regs : dst = 2 → InRange e (drRegs (s.sreg e.who sc.toNat))

/-- A drain as it issues, with the rows that are valid (R264). -/
def drainIssued (e : Env) (c : SCtx) (acc dst : Nat) (add : Bool) (base ctl rows : W64) : MxOp :=
  { mxIssued e c 7 acc with
    x := base, c := ctl, dst := dst, add := add, rows := rows, lanes := drainLanes c ctl rows
    rm := if drRm ctl = 6 then c.rmode.toNat else drRm ctl }

/-- A drain of a full accumulator, by what its row extents come to: it waits for them, faults at issue, or starts once its lanes and lines are
free (R264). -/
def drainGoes (s : State) (e : Env) (c : SCtx) (acc dst : Nat) (add : Bool) (base ctl : W64) : Rows → Exe State
  | .wait => .error .wait
  | .fault f => .ok ((s.noteExtents s e (mxIssued e c 7 acc) ctl).drainFault e (mxIssued e c 7 acc) f)
  | .mask rows => do
    let w ← theWarp s e
    if dst = 2 then dstFree w (drRegs ctl) (drainLanes c ctl rows) else pure ()
    waitUnless (e.k.canArm (drainLines e dst base ctl rows))
    pure (s.startDrain e w (drainLines e dst base ctl rows) (drainIssued e c acc dst add base ctl rows))

theorem drain_goes (h : DrainRow i acc dst add sa sc) (hp : DrainPasses s e acc dst add sa sc) (hf : s.accIsFull e.ci acc = true)
    (hc : CtxIs s e x c) : ∃ body, exec i s = run i s body ∧ body e = drainGoes s e c acc dst add (s.sreg e.who sa.toNat) (s.sreg e.who sc.toNat)
      (drExtents s e c (mxIssued e c 7 acc) (s.sreg e.who sc.toNat)) := by
  refine ⟨_, exec_drainRow h, ?_⟩
  simp only [rdSw_ok hp.control, rdSw_ok hp.base, drCheck_eq (drainRow_add h), hp.values, reasoned, accOk_ok hp.acc,
    check_when fun v => regsOk_ok (hp.regs v), hf, Bool.or_true, need_ok, waitUnless_ok, sOk_ok hp.base, sOk_ok hp.control, theCtx_ok hc, mxBase_eq,
    exe_ok_bind]
  cases drExtents s e c (mxIssued e c 7 acc) (s.sreg e.who sc.toNat) <;> rfl

theorem drain_starts (h : DrainRow i acc dst add sa sc) (hi : Issues s i e) (hp : DrainPasses s e acc dst add sa sc)
    (hf : s.accIsFull e.ci acc = true) (hc : CtxIs s e x c) (hw : e.w? s = some w)
    (hr : drExtents s e c (mxIssued e c 7 acc) (s.sreg e.who sc.toNat) = .mask rows)
    (hl : dst = 2 → FreeLanes w (drRegs (s.sreg e.who sc.toNat)) (drainLanes c (s.sreg e.who sc.toNat) rows))
    (ha : e.k.canArm (drainLines e dst (s.sreg e.who sa.toNat) (s.sreg e.who sc.toNat) rows) = true) :
    exec i s = .next (after e (s.startDrain e w (drainLines e dst (s.sreg e.who sa.toNat) (s.sreg e.who sc.toNat) rows)
      (drainIssued e c acc dst add (s.sreg e.who sa.toNat) (s.sreg e.who sc.toNat) rows))) := by
  obtain ⟨body, hx, hb⟩ := drain_goes h hp hf hc
  refine hx.trans (run_ready hi (hb.trans ?_))
  simp only [hr, drainGoes, theWarp_ok hw, check_when fun v => dstFree_ok (hl v), waitUnless_ok ha, exe_ok_bind, exe_pure]

theorem foldl_nextOp {α : Type} {g : State → α → State} {l : List α} (h : ∀ t a, (g t a).nextOp = t.nextOp) :
    (l.foldl g s).nextOp = s.nextOp :=
  List.foldlRecOn l g (motive := fun t => t.nextOp = s.nextOp) rfl fun t ht a _ => (h t a).trans ht

theorem noteSeen_nextOp {j : Nat} {p : Spot} : (t.noteSeen s e j p n).nextOp = t.nextOp := by
  unfold State.noteSeen
  obtain ⟨rs, kn, h⟩ := noteRead_eq
  rw [h]

/-- Reading the row extents issues nothing. -/
theorem noteExtents_nextOp {m : MxOp} : (t.noteExtents s e m ctl).nextOp = t.nextOp := by
  unfold State.noteExtents
  split
  · rfl
  · exact foldl_nextOp fun t q => foldl_nextOp fun t p => noteSeen_nextOp

/-- A drain whose row extents cannot be read records its fault and arrives (R254, R264). -/
theorem drainFault_eq {m : MxOp} (h : e.who = .ctx x) : t.drainFault e m f
    = (((t.mxRecord x t.nextOp 7 f).asOp (e.newOp (t.mxRecord x t.nextOp 7 f) 1) (fun u => u.mxArrive e.ci m.bar (.arrive 1 true))).stepOpDone
      e.ci (some 1)) := by
  simp only [State.drainFault, State.mxRecordBy, h]
  rfl

theorem drain_faults (h : DrainRow i acc dst add sa sc) (hi : Issues s i e) (hp : DrainPasses s e acc dst add sa sc)
    (hf : s.accIsFull e.ci acc = true) (hc : CtxIs s e x c)
    (hr : drExtents s e c (mxIssued e c 7 acc) (s.sreg e.who sc.toNat) = .fault f) :
    exec i s = .next (after e ((s.noteExtents s e (mxIssued e c 7 acc) (s.sreg e.who sc.toNat)).drainFault e (mxIssued e c 7 acc) f)) := by
  obtain ⟨body, hx, hb⟩ := drain_goes h hp hf hc
  exact hx.trans (run_ready hi (by rw [hb, hr]; rfl))

/-- A drain traps with the first reason that its control register gives (R264). -/
theorem drain_illFormed (h : DrainRow i acc dst add sa sc) (hi : Issues s i e) (hc : SReady s e sc.toNat) (ha : SReady s e sa.toNat)
    (hn : drainReason (s.sreg e.who sc.toNat) dst add = some n) :
    exec i s = .next ((s.raise e (trapWord 1 (BitVec.ofNat 64 (n * 2 ^ 56 + e.h.word % 2 ^ 32)))).ctxSettle e.who) := by
  refine (exec_drainRow h).trans (runH_trap hi ?_)
  simp only [rdSw_ok hc, rdSw_ok ha, drCheck_eq (drainRow_add h), hn, reasoned, exe_ok_bind, exe_error_bind]
  rfl

theorem drain_noAccumulator (h : DrainRow i acc dst add sa sc) (hi : Issues s i e) (hc : SReady s e sc.toNat) (ha : SReady s e sa.toNat)
    (hv : drainReason (s.sreg e.who sc.toNat) dst add = none) (hn : e.k.image.acc ≤ acc) :
    exec i s = .next ((s.raise e (trapWord 2 (BitVec.ofNat 64 (128 + acc)))).ctxSettle e.who) := by
  refine (exec_drainRow h).trans (runH_trap hi ?_)
  simp only [rdSw_ok hc, rdSw_ok ha, drCheck_eq (drainRow_add h), hv, reasoned, accOk_fails hn, exe_ok_bind, exe_error_bind]
  rfl

/-- A drain to registers traps at the first of them beyond the allocation (R115, R264). -/
theorem drain_noRegister {o : OpXDrV} {r : Nat} (hi : Issues s (.adrainV o) e) (hc : SReady s e o.sc.toNat)
    (hv : drainReason (s.sreg e.who o.sc.toNat) 2 false = none) (ha : o.acc.toNat < e.k.image.acc)
    (hr : (drRegs (s.sreg e.who o.sc.toNat)).find? (fun r => decide (e.k.image.regs ≤ r)) = some r) :
    exec (.adrainV o) s = .next ((s.raise e (trapWord 2 (BitVec.ofNat 64 r))).ctxSettle e.who) := by
  have beyond : regsOk e.k (drRegs (s.sreg e.who o.sc.toNat)) = .error (trapOf 2 (BitVec.ofNat 64 r)) := by simp only [regsOk, hr]
  refine (exec_drainRow (.v o)).trans (runH_trap hi ?_)
  simp only [rdSw_ok hc, rdSw_ok (r := (0 : BitVec 6).toNat) (.inl rfl), drCheck_eq (drainRow_add (.v o)), hv, reasoned, accOk_ok ha, if_true,
    beyond, exe_ok_bind, exe_error_bind]
  rfl

/-- A drain that asks for it traps where its accumulator is empty (R264). -/
theorem drain_emptyRead (h : DrainRow i acc dst add sa sc) (hi : Issues s i e) (hp : DrainPasses s e acc dst add sa sc)
    (hb : (s.sreg e.who sc.toNat).getLsbD 56 = true) (hf : s.accIsFull e.ci acc = false) :
    exec i s = .next ((s.raise e (trapWord 3 (poisonInfo 2 0 (128 + acc)))).ctxSettle e.who) := by
  refine (exec_drainRow h).trans (runH_trap hi ?_)
  simp only [rdSw_ok hp.control, rdSw_ok hp.base, drCheck_eq (drainRow_add h), hp.values, reasoned, accOk_ok hp.acc,
    check_when fun v => regsOk_ok (hp.regs v), hb, hf, Bool.not_true, Bool.or_false, need_fails, exe_ok_bind, exe_error_bind]
  rfl

/-- Without SH every row is valid (R264). -/
theorem drExtents_noShape {m : MxOp} (h : ctl.getLsbD 55 = false) : drExtents s e c m ctl = .mask (BitVec.allOnes 64) := by
  rw [drExtents, h]
  rfl

end Drains

/-- Settles O22: products, transfers and ACLR by their one check, MMAG and the drains by their checks in order. -/
theorem matrixOperationsIssue : Obligations.MatrixOperationsIssue := by
  refine ⟨fun o x c q hq s e hi ⟨hc, hb, hd⟩ => ?_, fun o x c q hq s e hi ⟨hc, ha⟩ => ?_, fun o x c s e hi ⟨hc, ha⟩ => execAclr_ready hi hc ha,
    fun o x c ms s e hi ⟨hc, hm, hl, hh, hs, hb, ha⟩ => ?_,
    fun i acc dst add sa sc h x c w rows s e hi ⟨hc, hw, hsc, hsa, hv, ha, hr, hf, hx, hl, hk⟩ => ?_,
    fun i acc dst add sa sc h x c f s e hi ⟨hc, hsc, hsa, hv, ha, hr, hf, hx⟩ => ?_,
    fun o x c ms s e hi ⟨hc, hm, hn⟩ => ?_, fun o x c ms s e hi ⟨hc, hm, hl, hh, hs, hb, ha⟩ => ?_,
    fun i acc dst add sa sc h n s e hi ⟨hsc, hsa, hn⟩ => drain_illFormed h hi hsc hsa hn,
    fun i acc dst add sa sc h s e hi ⟨hsc, hsa, hv, ha⟩ => drain_noAccumulator h hi hsc hsa hv ha,
    fun o r s e hi ⟨hsc, hv, ha, hr⟩ => drain_noRegister hi hsc hv ha hr,
    fun i acc dst add sa sc h s e hi ⟨hsc, hsa, hv, ha, hr, hb, hf⟩ => drain_emptyRead h hi ⟨hsc, hsa, hv, ha, hr⟩ hb hf,
    fun s e c m ctl h => drExtents_noShape h, fun o i h s e hi ha => accumulator_traps h hi ha⟩
  · rcases List.mem_pair.1 hq with rfl | rfl <;> exact issueMove_ready hi hc hb hd
  · rcases List.mem_pair.1 hq with rfl | rfl <;> exact issueProduct_ready hi hc ha (by decide)
  · obtain ⟨body, hx, he⟩ := execMmag_eq (o := o) hc hm.symm
    refine hx.trans (run_ready hi (he.trans ?_))
    simp only [need_ok (gangOk_iff.2 ⟨⟨hl, hh⟩, hs, hb⟩), accOk_ok ha, exe_ok_bind, exe_pure]
    rfl
  · refine (drain_starts h hi ⟨hsc, hsa, hv, ha, hr⟩ hf hc hw hx hl hk).trans ?_
    by_cases hd : dst = 2 <;> simp only [State.startDrain, drainIssued, hd, if_true, if_false] <;> rfl
  · have who : e.who = .ctx x := hc.1
    rw [drain_faults h hi ⟨hsc, hsa, hv, ha, hr⟩ hf hc hx, drainFault_eq who, noteExtents_nextOp]
    rfl
  · obtain ⟨body, hx, he⟩ := execMmag_eq (o := o) hc hm.symm
    refine hx.trans (runH_trap hi (he.trans ?_))
    simp only [need_fails (gangOk_fails hn), exe_error_bind]
    rfl
  · obtain ⟨body, hx, he⟩ := execMmag_eq (o := o) hc hm.symm
    refine hx.trans (runH_trap hi (he.trans ?_))
    simp only [need_ok (gangOk_iff.2 ⟨⟨hl, hh⟩, hs, hb⟩), accOk_fails ha, exe_ok_bind, exe_error_bind]
    rfl

end Sys2Proof.Machine
end

section
/-! How matrix operations end (R227, R245, R252, R254, R261): a completion by the outcome of its work, a slice of an MMAG, the last of its slices,
and what its loss leaves in a barrier and in the context. -/
namespace Sys2Proof.Machine
open Sys2Proof.Laws Sys2Proof.Claims

section Ends
variable {s t : State} {ev : Nat → Instr} {p : Nat → Bool} {work : State → Op → MxOp → MxEnd} {id n x : Nat} {o : Op} {m : MxOp} {q : Slice}
  {ok : Bool}

/-- The five completions run one body. -/
theorem exec_mxRow (h : MxRow ev p work) : exec (ev id) s = .next (mxComplete s id p work) := by
  cases h <;> rfl

/-- An operation whose turn has come ends as a step of its own thread (R210, R245). -/
theorem exec_mxRow_turn (h : MxRow ev p work) (ht : s.mxTurn id p = some (o, m, x)) :
    exec (ev id) s = leaves s ((inThread s o).mxEnd o m x work) := by
  rw [exec_mxRow h, mxComplete, ht]
  rfl

/-- What the outcome of an operation's work leaves: nothing yet, the fault of its context, a share, or its end (R254). -/
def State.mxCame (s : State) (o : Op) (m : MxOp) (x : Nat) : MxEnd → State
  | .wait => s
  | .fault f => ((s.undoDrain o m).mxRecord x o.id m.fn f).mxFinish o m true
  | .part t => t
  | .done t => t.mxFinish o m false

theorem mxEnd_works (hb : s.ctxBad x o.id = false) : s.mxEnd o m x work = s.mxCame o m x (work s o m) := by
  rw [State.mxEnd, hb, if_neg Bool.false_ne_true]
  cases work s o m <;> rfl

theorem mxEnd_discards (hb : s.ctxBad x o.id = true) : s.mxEnd o m x work = (s.undoDrain o m).mxFinish o m true := if_pos hb

theorem exec_mxRow_works {r : MxEnd} (h : MxRow ev p work) (ht : s.mxTurn id p = some (o, m, x)) (hb : s.ctxBad x o.id = false)
    (hw : work (inThread s o) o m = r) : exec (ev id) s = leaves s ((inThread s o).mxCame o m x r) := by
  rw [exec_mxRow_turn h ht, mxEnd_works (s := inThread s o) hb, hw]

theorem exec_mxRow_discards (h : MxRow ev p work) (ht : s.mxTurn id p = some (o, m, x)) (hb : s.ctxBad x o.id = true) :
    exec (ev id) s = leaves s (((inThread s o).undoDrain o m).mxFinish o m true) := by
  rw [exec_mxRow_turn h ht, mxEnd_discards (s := inThread s o) hb]

/-- The issuing engine's reading of B leaves the members as they are. -/
theorem withB_members : (m.withB s o).members = m.members := by
  unfold MxOp.withB
  split <;> rfl

theorem sliceEnd_eq (hq : m.members[n]? = some q) :
    s.sliceEnd o m x n ok = sliceEnds s o { m with members := modAt m.members n (fun q => { q with ended := some ok }) } q x := by
  simp only [State.sliceEnd, hq]
  rfl

/-- A slice commits, or is lost and leaves the state as it was (R261). -/
def SliceOutcome (u : State) (o : Op) (m : MxOp) (q : Slice) (ok : Bool) (t : State) : Prop :=
  (ok = true ∧ runSlice u o m q = .done t) ∨ (ok = false ∧ (∃ f, runSlice u o m q = .fault f) ∧ t = u)

/-- A slice that has not ended, at an accumulator that no drain is moving, runs and ends (R250, R261). -/
theorem sliceRun_ends (hq : m.members[n]? = some q) (he : q.ended = none) (hf : s.accFree o.id q.crew m.acc = true)
    (hr : SliceOutcome s o (m.withB s o) q ok t) :
    s.sliceRun o m x n = sliceEnds t o { m.withB s o with members := modAt m.members n (fun q => { q with ended := some ok }) } q x := by
  have member : (m.withB s o).members[n]? = some q := by rw [withB_members, hq]
  have goes : ¬(q.ended ≠ none ∨ (!s.accFree o.id q.crew m.acc) = true) := by simp [he, hf]
  rw [← withB_members (s := s) (o := o)]
  rcases hr with ⟨rfl, hr⟩ | ⟨rfl, ⟨f, hr⟩, rfl⟩ <;> simp only [State.sliceRun, hq, if_neg goes, hr, sliceEnd_eq member]

/-- The turn of an MMAG is that of a slice, or with its context faulted that of its end (R254, R261). -/
theorem exec_mmagSlice_turn (ht : s.mxTurn id (fun f => decide (f = 5)) = some (o, m, x)) :
    exec (.mmagSliceComplete id n) s
      = leaves s (if s.ctxBad x o.id then (inThread s o).mxFinish o m true else (inThread s o).sliceRun o m x n) := by
  refine congrArg Host.Outcome.next ?_
  simp only [ht]
  rfl

/-- The last slice to end ends the MMAG: its members' accumulators and barriers (R261). -/
theorem gangFinish_eq (h : m.fn = 5) : s.gangFinish o m x =
    (let lost := lostSlices m.members
     let t := if lost = [] then s else s.modCtx x (fun c => { c with mxglost := maskOf (fun i => lost.contains i) })
     (m.members.foldl
       (fun s q => s.mxArrive q.crew m.bar (.gang (if q.crew = o.crew then some o.warp else none) (lost.headD 0) (decide (lost ≠ []))))
       (((t.modOp o.id (fun o => { o with eng := none })).sweepOp o.id).refreshAccs (m.members.map Slice.crew) m.acc)).stepOpDone o.crew
         (if lost = [] then none else some 1)) := by
  have crews : m.crews o.crew = m.members.map Slice.crew := if_pos h
  simp only [State.gangFinish, crews, decide_eq_true_eq, ite_not]

/-- A fault leaves the earliest faulted operation in the context, and the first fault in MXFAULT (R254). -/
theorem mxRecord_ctx {fn : Nat} {f : MxFault} {c : SCtx} (hc : s.ctxs[x]? = some c) : ∃ c', (s.mxRecord x id fn f).ctxs[x]? = some c'
    ∧ c'.mxbad = some (match c.mxbad with | some n => min n id | none => id)
    ∧ (c.mxfault.toNat / 2 ^ 60 = 0 → c'.mxfault = BitVec.ofNat 64 (f.reason * 2 ^ 60 + fn * 2 ^ 57 + f.addr % 2 ^ 57))
    ∧ (c.mxfault.toNat / 2 ^ 60 ≠ 0 → c'.mxfault = c.mxfault) := by
  have reason : bitsOf c.mxfault 63 60 = c.mxfault.toNat / 2 ^ 60 := Nat.mod_eq_of_lt (by have := c.mxfault.isLt; omega)
  have there := (modAt_get.trans (if_pos rfl) : (s.mxRecord x id fn f).ctxs[x]? = (s.ctxs[x]?).map _)
  rw [hc] at there
  exact ⟨_, there, rfl, fun hz => if_pos (reason.trans hz), fun hz => if_neg (reason ▸ hz)⟩

end Ends

section Barriers
variable {b n v hi lo part w : Nat} {iw : Option Nat}

/-- A field that takes a value of its width holds it. -/
theorem bits_setBits_fits (h : lo ≤ hi) (hn : n < 2 ^ (hi + 1 - lo)) : bits (setBits v hi lo n) hi lo = n :=
  (bits_setBits_same h).trans (Nat.mod_eq_of_lt hn)

/-- The run of bits meets neither OVERRUN nor APEND (R227). -/
abbrev NoArrivalField (hi lo : Nat) : Prop := (hi < 65 ∨ 65 < lo) ∧ (hi < 152 ∨ 175 < lo)

/-- Arrivals from outside change OVERRUN and APEND, and nothing else (R231, R232). -/
theorem bits_bArrive (h : NoArrivalField hi lo) : bits (bArrive b n) hi lo = bits b hi lo := by
  obtain ⟨overrun, apend⟩ := h
  unfold bArrive
  split
  · exact (bits_setBits_other (by decide) apend).trans (bits_setBits_other (by decide) overrun)
  · exact bits_setBits_other (by decide) apend

theorem bits_outside (h : NoArrivalField hi lo) : bits (if bBound b then bSetBit b 65 else bArrive b n) hi lo = bits b hi lo := by
  split
  · exact bits_setBits_other (by decide) h.1
  · exact bits_bArrive h

/-- A lost slice in a barrier: FAULT and FPART (R227, R261). -/
def bLost (b part : Nat) : Nat := setBits (bSetBit b 66) 193 191 part

/-- At the issuing warp's own crew also IVALID and IWARP (R227, R261). -/
def bLostBy (b part w : Nat) : Nat := setBits (setBits (bLost b part) 199 199 1) 198 194 w

theorem bits_gang_kept (h : NoArrivalField hi lo) : bits (bApply b (.gang iw part false)) hi lo = bits b hi lo := by
  cases iw <;> exact bits_outside h

theorem bits_gang_lost (h : NoArrivalField hi lo) : bits (bApply b (.gang none part true)) hi lo = bits (bLost b part) hi lo := bits_outside h

theorem bits_gang_lostBy (h : NoArrivalField hi lo) : bits (bApply b (.gang (some w) part true)) hi lo = bits (bLostBy b part w) hi lo :=
  bits_outside h

/-- FAULT and FPART of a lost slice; the issuing warp's fields as they were. -/
theorem bLost_fields (hp : part < 8) : bits (bLost b part) 66 66 = 1 ∧ bits (bLost b part) 193 191 = part
    ∧ bits (bLost b part) 199 199 = bits b 199 199 ∧ bits (bLost b part) 198 194 = bits b 198 194 := by
  refine ⟨?_, ?_, ?_, ?_⟩ <;> unfold bLost bSetBit
  · rw [bits_setBits_other (by decide) (by decide), bits_setBits_fits (by decide) (by decide)]
  · rw [bits_setBits_fits (by decide) hp]
  · rw [bits_setBits_other (by decide) (by decide), bits_setBits_other (by decide) (by decide)]
  · rw [bits_setBits_other (by decide) (by decide), bits_setBits_other (by decide) (by decide)]

/-- IVALID and IWARP on top of them. -/
theorem bLostBy_fields (hw : w < 32) : bits (bLostBy b part w) 66 66 = bits (bLost b part) 66 66
    ∧ bits (bLostBy b part w) 193 191 = bits (bLost b part) 193 191
    ∧ bits (bLostBy b part w) 199 199 = 1 ∧ bits (bLostBy b part w) 198 194 = w := by
  refine ⟨?_, ?_, ?_, ?_⟩ <;> unfold bLostBy
  · rw [bits_setBits_other (by decide) (by decide), bits_setBits_other (by decide) (by decide)]
  · rw [bits_setBits_other (by decide) (by decide), bits_setBits_other (by decide) (by decide)]
  · rw [bits_setBits_other (by decide) (by decide), bits_setBits_fits (by decide) (by decide)]
  · rw [bits_setBits_fits (by decide) hw]

/-- An MMAG that lost a slice leaves FAULT and FPART in a member's barrier, and at the issuing warp's own crew IVALID and IWARP (R227, R261). -/
theorem bApply_gang_lostBy (hp : part < 8) (hw : w < 32) :
    bFault (bApply b (.gang (some w) part true)) = true ∧ bFpart (bApply b (.gang (some w) part true)) = part
      ∧ bIvalid (bApply b (.gang (some w) part true)) = true ∧ bIwarp (bApply b (.gang (some w) part true)) = w := by
  obtain ⟨fault, fpart, -, -⟩ := bLost_fields (b := b) hp
  obtain ⟨kept, kept', ivalid, iwarp⟩ := bLostBy_fields (b := b) (part := part) hw
  simp (disch := decide) only [bFault, bFpart, bIvalid, bIwarp, bits_gang_lostBy, kept, kept', fault, fpart, ivalid, iwarp, decide_true, and_self]

theorem bApply_gang_lost (hp : part < 8) :
    bFault (bApply b (.gang none part true)) = true ∧ bFpart (bApply b (.gang none part true)) = part
      ∧ bIvalid (bApply b (.gang none part true)) = bIvalid b ∧ bIwarp (bApply b (.gang none part true)) = bIwarp b := by
  obtain ⟨fault, fpart, ivalid, iwarp⟩ := bLost_fields (b := b) hp
  simp (disch := decide) only [bFault, bFpart, bIvalid, bIwarp, bits_gang_lost, fault, fpart, ivalid, iwarp, decide_true, and_self]

/-- Without a loss it only arrives. -/
theorem bApply_gang_kept : bFault (bApply b (.gang iw part false)) = bFault b ∧ bIvalid (bApply b (.gang iw part false)) = bIvalid b := by
  simp (disch := decide) only [bFault, bIvalid, bits_gang_kept, and_self]

end Barriers

/-- Settles O23: a completion by the outcome of its work, a slice by whether it commits, and the loss record by the fields that it writes. -/
theorem matrixOperationsEnd : Obligations.MatrixOperationsEnd := by
  refine ⟨fun ev p work h s id o m x ht => ⟨fun t hb hw => exec_mxRow_works h ht hb hw, fun t hb hw => exec_mxRow_works h ht hb hw,
      fun hb hw => exec_mxRow_works h ht hb hw, fun f hb hw => exec_mxRow_works h ht hb hw, exec_mxRow_discards h ht⟩,
    fun s id n o m x q ok t ht hb hq he hf hr => ?_, fun s id n o m x ht hb => ?_, fun s o m x => ?_,
    fun b part _ hp => ⟨fun w hw => bApply_gang_lostBy hp hw, ?_⟩, fun s x id fn f c => mxRecord_ctx⟩
  · rw [exec_mmagSlice_turn ht, hb, if_neg Bool.false_ne_true, sliceRun_ends (s := inThread s o) hq he hf hr]
  · rw [exec_mmagSlice_turn ht, if_pos hb]
  · exact (em (m.fn = 5)).imp_left gangFinish_eq
  · obtain ⟨fault, fpart, ivalid, iwarp⟩ := bApply_gang_lost (b := b) hp
    exact ⟨fault, fpart, ivalid, iwarp, fun w => bApply_gang_kept⟩

end Sys2Proof.Machine
end

section
/-! Traps (R269, R396 to R401): where a delivered trap's threads stand, and what a context's trap records. -/
namespace Sys2Proof.Machine
open Sys2Proof.Laws Sys2Proof.Claims

variable {s : State} {e : Env} {w : Warp} {img : Image} {m : W64} {pc : W32} {a : Entry} {l : List Entry}

/-- Nothing is HELD where a warp has no loops (R96). -/
theorem arriveEntry_noLoops : arriveEntry [] a = [a] := by
  simp [arriveEntry, heldAt]

/-- Entries that merge stand at one PC and in one state (R88). -/
theorem merges_same {b : Entry} (h : w.merges a b = true) : b.pc = a.pc ∧ b.st = a.st := by
  simp only [Warp.merges, Bool.and_eq_true, Bool.or_eq_true, decide_eq_true_eq] at h
  obtain ⟨⟨hpc, -⟩, ⟨⟨ha, hb⟩, -⟩ | ⟨ha, hb⟩⟩ := h <;> exact ⟨hpc.symm, hb.trans ha.symm⟩

/-- Threads that enter a frontier stand in it at their PC and in their state, alone or merged with others (R88). -/
theorem insert_stands : ∃ x ∈ Warp.insert w a l, x.pc = a.pc ∧ x.st = a.st ∧ a.mask &&& ~~~x.mask = 0 := by
  induction l with
  | nil => exact ⟨a, List.mem_singleton_self a, rfl, rfl, by simp⟩
  | cons b l ih =>
    by_cases hm : w.merges a b = true
    · obtain ⟨hpc, hst⟩ := merges_same hm
      rw [Warp.insert, if_pos hm]
      exact ⟨_, List.mem_cons_self, hpc, hst, by ext j; simp +contextual⟩
    · obtain ⟨x, hx, h⟩ := ih
      rw [Warp.insert, if_neg hm]
      exact ⟨x, List.mem_cons_of_mem b hx, h⟩

/-- A warp without loops settles by its merges alone (R88, R96). -/
theorem settle_noLoops (h : w.loops = []) : w.settle img = { w with frontier := w.mergeAll w.frontier } := by
  have merged : w.retest = { w with frontier := w.mergeAll w.frontier } := by
    simp [Warp.retest, h, arriveEntry_noLoops]
  simp only [Warp.settle, Warp.settleN, merged, Warp.loopStep, h]

/-- Threads placed in a warp without loops stand READY at their PC, and nothing but the frontier changes (R88). -/
theorem place_noLoops (h : w.loops = []) (hm : m ≠ 0) : ∃ fr, w.place img m pc = { w with frontier := fr }
    ∧ ∃ x ∈ fr, x.pc = pc ∧ x.st = .ready ∧ m &&& ~~~x.mask = 0 := by
  refine ⟨_, settle_noLoops h, ?_⟩
  simp only [Warp.mergeAll, Warp.moveTo, if_neg hm, List.foldl_append, List.foldl_cons, List.foldl_nil]
  exact insert_stands

/-- A warp that takes a trap in its handler, before H stands there: the trap recorded, H in HMASK, the loops shelved (R398, R400). -/
def handling (w : Warp) (pc : W32) (len : Nat) (t : Trap) (h : W64) : Warp :=
  { w.recordTrap pc t with tlen := BitVec.ofNat 4 len, hact := true, hmask := h, shadow := w.loops, loops := [] }

/-- Delivery (R397, R398, R400). -/
theorem trapsAreDelivered : TrapsAreDelivered := by
  intro s ci wi k w h pc len t hk hw ha ht hh
  rw [takeTrap_delivered hk hw ha ht]
  obtain ⟨fr, hp, hx⟩ := place_noLoops (img := k.image) (pc := k.tvec) (w := handling w pc len t h) rfl hh
  refine ⟨{ handling w pc len t h with frontier := fr }, ?_, rfl, rfl, rfl, rfl, rfl, rfl, rfl, rfl, rfl, rfl, rfl, rfl, rfl, rfl, hx, rfl⟩
  rw [modWarp_warp?, if_pos ⟨rfl, rfl⟩, State.warp?, hk, Option.bind_eq_bind, Option.bind_some, hw, Option.map_some]
  exact congrArg some hp

/-- A trap in a context (R269). -/
theorem contextTrapsAreRecorded : ContextTrapsAreRecorded := by
  intro s x c e t hx hc
  have trapped : (s.raise e t).ctxs[x]? = some { c with
      st := .trapped, wasTrapped := true, cause := BitVec.ofNat 64 t.cause, tpc := e.pc.setWidth 64, info := t.info } := by
    rw [raise_ctx hx, State.ctxTrap, modCtx_ctxs, modAt_get, if_pos rfl, hc]; rfl
  refine ⟨_, trapped, rfl, rfl, rfl, rfl, rfl, fun h => ?_, ?_⟩
  · simp only [State.env?, trapped]
    rfl
  · rw [raise_ctx hx]
    exact ⟨rfl, rfl⟩

/-- Settles O20: a delivery by the settling of a warp without loops, a kill by its own law, and a context's trap by its one change. -/
theorem trapsAreTaken : Obligations.TrapsAreTaken :=
  ⟨trapsAreDelivered, fun _ _ _ _ _ _ _ _ _ hk hw ha => takeTrap_killed hk hw ha, contextTrapsAreRecorded⟩

end Sys2Proof.Machine
end

section
/-! Sequencer contexts and shape registers as instructions (R266, R267, R271 to R273, R276 to R279), and the end of contexts (R269, R273, R288). -/
namespace Sys2Proof.Machine
open Sys2Proof.Laws Sys2Proof.Claims

section Forks
variable {s : State} {e : Env} {w : Warp} {i : Instr} {rid : BitVec 6} {m c : Option Nat}

/-- What a row of the forks says. -/
theorem exec_forkRow (h : ForkRow i rid m c) : exec i s = fork (hdrOf i) s rid m c := by
  cases h <;> rfl

/-- The image holds a program for each context that the FORK starts (R271). -/
theorem programs_iff {a b : Nat} : ((m.isNone || decide (a ≠ 0)) && (c.isNone || decide (b ≠ 0))) = true
    ↔ (m.isSome → a ≠ 0) ∧ (c.isSome → b ≠ 0) := by
  cases m <;> cases c <;> simp

/-- The contexts of a FORK at their start, and its place in the queue of forks given up (R266, R267). -/
def forkStarts (s : State) (e : Env) (w : Warp) (rid : Nat) (m c : Option Nat) : State :=
  { s with
    ctxs := s.ctxs ++ ((match m with | some pc => [forked s e w true rid pc] | none => [])
      ++ (match c with | some pc => [forked s e w false rid pc] | none => []))
    forkQ := s.forkQ.filter (fun f => !(decide (f.crew = e.ci ∧ f.warp = e.wi ∧ f.pc = e.pc))) }

theorem fork_ready (h : ForkRow i rid m c) (hi : Issues s i e) (hw : e.w? s = some w) (hp : w.spend = 0) (hq : w.spoison = 0)
    (hm : m.isSome → e.k.image.matLen ≠ 0) (hc : c.isSome → e.k.image.copyLen ≠ 0) (hf : s.ctxFree e.k m.isSome c.isSome = true)
    (ha : s.forkAhead e m.isSome c.isSome = false) :
    exec i s = .next (((forkStarts s e w rid.toNat m c).jump e e.npc).ctxSettle e.who) := by
  have clean : lowScalar w.spoison = none := by rw [hq]; decide
  refine (exec_forkRow h).trans (runCtl_ready hi ?_)
  simp only [need_ok (programs_iff.2 ⟨hm, hc⟩), theWarp_ok hw, waitUnless_ok (decide_eq_true hp), clean, hf, ha, exe_ok_bind, exe_pure]
  rfl

theorem fork_noProgram (h : ForkRow i rid m c) (hi : Issues s i e)
    (hn : (m.isSome = true ∧ e.k.image.matLen = 0) ∨ (c.isSome = true ∧ e.k.image.copyLen = 0)) :
    exec i s = .next ((s.raise e (trapWord 1 (BitVec.ofNat 64 (6 * 2 ^ 56 + e.h.word % 2 ^ 32)))).ctxSettle e.who) := by
  have missing : ¬((m.isSome → e.k.image.matLen ≠ 0) ∧ (c.isSome → e.k.image.copyLen ≠ 0)) := by tauto
  refine (exec_forkRow h).trans (runCtl_trap hi ?_)
  simp only [need_fails (Bool.eq_false_iff.2 (mt programs_iff.1 missing)), exe_error_bind]
  rfl

end Forks

section Ends
variable {s : State} {e : Env} {o : OpX2} {x : Nat} {c : SCtx} {cs : List SCtx} {k : Crew} {st : CtxSt}

/-- RDVZ counts the contexts whose MXFAULT names a reason, which its bits 63 to 60 hold (R252, R272). -/
theorem rdvzStatus_eq : rdvzStatus cs = BitVec.ofNat 64 ((cs.filter (fun c => c.wasTrapped)).length % 256 * 2 ^ 56
    + (cs.filter (fun c => c.matrix && !c.wasTrapped && decide (c.mxfault.toNat / 2 ^ 60 ≠ 0))).length % 256 * 2 ^ 48
    + cs.length % 256 * 2 ^ 40) := by
  have reason (v : W64) : bitsOf v 63 60 = v.toNat / 2 ^ 60 := by
    have := v.isLt
    unfold bitsOf
    omega
  simp only [rdvzStatus, reason]

/-- The contexts of an ID joined, with what they did behind the threads that join them (R218, R272). -/
def ctxsJoined (s : State) (e : Env) (rid : Nat) : State :=
  ({ s with ctxs := s.ctxs.map (fun c => if rdvzJoins e rid c then { c with joined := true } else c) } : State).joined e.who e.m0 (s.rdvzPast e rid)

/-- The trap of the first of the joined contexts that trapped, in the warp's registers for it (R272, R274). -/
def trapReported (t : State) (e : Env) (cs : List SCtx) : State :=
  match cs.find? (fun c => c.wasTrapped) with
  | some c => t.modWarp e.ci e.wi (fun w => { w with sqtcause := c.cause, sqtpc := c.tpc, sqtinfo := c.info })
  | none => t

theorem execRdvz_ready (hi : Issues s (.rdvz o) e) (ha : SFree s e o.a.toNat) (hs : cs = s.ctxs.filter (rdvzJoins e o.b.toNat))
    (hd : ∀ c ∈ cs, c.st = .ended) :
    exec (.rdvz o) s = .next (after e ((trapReported (ctxsJoined s e o.b.toNat) e cs).setS e.who o.a.toNat (rdvzStatus cs))) := by
  subst hs
  have ended : (s.ctxs.filter (rdvzJoins e o.b.toNat)).all (fun c => decide (c.st = .ended)) = true :=
    List.all_eq_true.2 fun c hc => decide_eq_true (hd c hc)
  refine run_ready hi ?_
  simp only [freeS_ok ha, waitUnless_ok ended, exe_ok_bind, exe_pure]
  rfl

theorem execRdvz_waits (hi : Issues s (.rdvz o) e) (ha : SFree s e o.a.toNat) (hc : c ∈ s.ctxs) (hj : rdvzJoins e o.b.toNat c = true)
    (hn : c.st ≠ .ended) : exec (.rdvz o) s = .next (s.ctxSettle e.who) := by
  have running : (s.ctxs.filter (rdvzJoins e o.b.toNat)).all (fun c => decide (c.st = .ended)) = false :=
    List.all_eq_false.2 ⟨c, List.mem_filter.2 ⟨hc, hj⟩, by simpa using hn⟩
  refine run_waits hi ?_
  simp only [freeS_ok ha, exe_ok_bind, waitUnless_stops running]

theorem execSeqend_ready (hi : Issues s .seqend e) (hc : CtxIs s e x c) :
    exec .seqend s = .next ((s.modCtx x (fun c => { c with st := .ending })).ctxSettle e.who) := by
  obtain ⟨hx, -⟩ := hc
  refine runCtl_ready hi ?_
  simp only [hx]

/-- A context ends in the state that its end asks for, with nothing outstanding, unless its crew is saved (R273, R288). -/
theorem endCtx_ends (hc : s.ctxs[x]? = some c) (ho : ∀ o ∈ s.ops ++ s.withdrawn, o.who ≠ .ctx x) (hk : s.crews[c.crew]? = some k)
    (hs : k.st ≠ .saved) (hst : c.st = st) : s.endCtx x st = s.modCtx x (fun c => { c with st := .ended }) := by
  have idle : s.ctxIdle x = true := List.all_eq_true.2 fun o h => decide_eq_true (ho o h)
  have stays : s.crewIs (fun k => decide (k.st ≠ .saved)) c.crew = true := crewIs_iff.2 ⟨k, hk, decide_eq_true hs⟩
  simp only [State.endCtx, hc]
  exact if_pos ⟨hst, idle, stays⟩

theorem endCtx_stays (hc : s.ctxs[x]? = some c)
    (h : (∃ o ∈ s.ops ++ s.withdrawn, o.who = .ctx x) ∨ ∃ k, s.crews[c.crew]? = some k ∧ k.st = .saved) : s.endCtx x st = s := by
  simp only [State.endCtx, hc]
  refine if_neg fun ⟨_, idle, stays⟩ => ?_
  rcases h with ⟨o, ho, hw⟩ | ⟨k, hk, hs⟩
  · exact of_decide_eq_true (List.all_eq_true.1 idle o ho) hw
  · obtain ⟨k', hk', hs'⟩ := crewIs_iff.1 stays
    cases hk.symm.trans hk'
    exact of_decide_eq_true hs' hs

end Ends

section Shapes
variable {s : State} {e : Env} {f : Nat → Spot} {j n off key : Nat}

/-- An agenda that lets no read look back has a scalar read come after every write (R220). -/
theorem scalarPoint_now {p : Spot} (h : s.lookBack = []) : s.scalarPoint e j p n = s.hist.length := by
  simp only [State.scalarPoint, State.readPointOf, h, List.getElem?_nil, ite_self]

theorem seen_spad (h : s.lookBack = []) : s.seen e j (.spad off) n
    = (List.range n).map (fun i => (BitVec.ofNat 8 (e.k.spRd (off + i) 1), e.k.spBad (off + i) 1)) := by
  simp only [State.seen, scalarPoint_now h, State.crewAt, undo_now]

theorem seen_mem (h : s.lookBack = []) : s.seen e j (.mem key) n
    = (List.range n).map (fun i => (BitVec.ofNat 8 (s.rd key n / 256 ^ i), s.bad (key + i) 1)) := by
  simp only [State.seen, scalarPoint_now h, rdAt_now]

/-- The places that SHLD reads: one access of a scratchpad's port, or four parts of 16 bytes of memory (R169, R278). -/
def shldReads : Spot → List (Nat × Spot × Nat)
  | .spad off => [(0, .spad off, 64)]
  | .mem key => (List.range 4).map (fun j => (j, .mem (key + 16 * j), 16))

/-- A shape register after the bytes that SHLD reads (R276, R278). -/
def shldPut (s : State) (e : Env) (sh : BitVec 4) (ps : List (Nat × Spot × Nat)) : State :=
  (ps.foldl (fun t p => t.noteSeen s e p.1 p.2.1 p.2.2) s).modCrew e.ci (fun k =>
    { k with sh := modAt k.sh sh.toNat (fun _ => BitVec.ofNat 512 (leNat ((ps.flatMap (fun p => s.seen e p.1 p.2.1 p.2.2)).map Prod.fst))) })

/-- The bytes that SHLD reads are full or quiet, and without poison (R278, R413). -/
def shldReady (s : State) (e : Env) : Spot → Prop
  | .spad off => e.k.linesFull off 64 = true ∧ e.k.spBad off 64 = false
  | .mem key => s.quietAt e.who (BitVec.allOnes 64) key 64 = true ∧ s.bad key 64 = false

theorem execShld_ready {o : OpXSh} (hi : Issues s (.shld o) e) (ha : SReady s e o.sa.toNat)
    (hp : Places s e (fun _ => (s.sreg e.who o.sa.toNat).toNat) 64 kRead [0] f) (hr : s.spReadReady e = true)
    (hf : shldReady s e (f 0)) :
    exec (.shld o) s = .next (after e (shldPut s e o.sh (shldReads (f 0)))) := by
  refine run_ready hi ?_
  have places : resolve s e (fun _ => (s.sreg e.who o.sa.toNat).toNat) 64 kRead [0] = .ok [(0, f 0)] := resolve_placed hp
  simp only [rdS_ok ha, places, exe_ok_bind]
  cases h0 : f 0 with
  | spad off =>
    obtain ⟨full, clean⟩ : shldReady s e (.spad off) := h0 ▸ hf
    simp only [spotsFull_spad, full, hr, clean, Bool.and_self, Bool.not_false, waitUnless_ok, need_ok, exe_ok_bind, exe_pure]
    simp only [shldPut, shldReads, List.foldl_cons, List.foldl_nil, List.flatMap_singleton]
  | mem key =>
    obtain ⟨quiet, clean⟩ : shldReady s e (.mem key) := h0 ▸ hf
    simp only [spotsFull_mem, hr, quiet, clean, Bool.and_self, Bool.not_false, waitUnless_ok, need_ok, exe_ok_bind, exe_pure]
    rfl

theorem execShset_ready {o : OpXShs} (hi : Issues s (.shset o) e) (hv : SReady s e o.sv.toNat) :
    exec (.shset o) s = .next (after e (s.modCrew e.ci (fun k => { k with sh := modAt k.sh o.sh.toNat (fun r =>
      BitVec.ofNat 512 (setBits r.toNat (shField o.f.toNat).1 (shField o.f.toNat).2 (s.sreg e.who o.sv.toNat).toNat)) }))) := by
  refine run_ready hi ?_
  simp only [rdS_ok hv, exe_ok_bind, exe_pure]

end Shapes

/-- Settles O25: each instruction by its checks in order, and the end of a context by what it waits for. -/
theorem sequencersRun : Obligations.SequencersRun := by
  refine ⟨fun i rid m c h w s e hi ⟨hw, hp, hq, hm, hc, hf, ha⟩ => fork_ready h hi hw hp hq hm hc hf ha,
    fun i rid m c h s e hi hn => fork_noProgram h hi hn,
    fun o cs s e hi ⟨ha, hs, hd⟩ => ?_, fun x c s e hi hc => execSeqend_ready hi hc,
    fun o c s e hi ⟨ha, hc, hj, hn⟩ => execRdvz_waits hi ha hc hj hn,
    fun s x c hc h => ⟨congrArg Host.Outcome.next (endCtx_stays hc h), congrArg Host.Outcome.next (endCtx_stays hc h)⟩,
    fun s x c k hc ho hk hs => ⟨fun hst => congrArg Host.Outcome.next (endCtx_ends hc ho hk hs hst),
      fun hst => congrArg Host.Outcome.next (endCtx_ends hc ho hk hs hst)⟩,
    fun o f s e hi ⟨ha, hp, hr, hf⟩ => ?_, fun s e j n h => ⟨fun off => seen_spad h, fun key => seen_mem h⟩,
    fun o s e hi hv => execShset_ready hi hv⟩
  · rw [execRdvz_ready hi ha hs hd, rdvzStatus_eq]
    rfl
  · refine (execShld_ready hi ha hp hr hf).trans ?_
    cases f 0 <;> rfl

end Sys2Proof.Machine
end

section
/-! Copy-engine operations at issue (R170, R280, R281, R287): the checks of a control word, and the steps after them. -/
namespace Sys2Proof.Machine
open Sys2Proof.Laws Sys2Proof.Claims

section Checks
variable {s : State} {e : Env} {o : OpX3} {c : CpOp} {a : Bool} {st : Stop} {x y : Exe Unit}

theorem need_eq_ok : need a st = .ok () ↔ a = true := by cases a <;> simp [need]

theorem need_bind_ok : (need a st >>= fun _ => y) = .ok () ↔ a = true ∧ y = .ok () := by cases a <;> simp [need]

/-- A check passes, or stops in one way only. -/
def ChecksTo (st : Stop) (x : Exe Unit) : Prop := x = .ok () ∨ x = .error st

theorem checksTo_need : ChecksTo st (need a st) := by cases a <;> simp [ChecksTo, need]

theorem checksTo_bind (hx : ChecksTo st x) (hy : ChecksTo st y) : ChecksTo st (x >>= fun _ => y) := by
  rcases hx with rfl | rfl
  exacts [hy, .inr rfl]

/-- Every check of a control word that fails is ILLEGAL_INSTR of reason 6 (R281). -/
theorem cpCheck_checks : ChecksTo (e.ill 6) (cpCheck e c) :=
  checksTo_bind checksTo_need <| checksTo_bind checksTo_need <| checksTo_bind checksTo_need <| checksTo_bind checksTo_need <|
    checksTo_bind checksTo_need <| checksTo_bind checksTo_need checksTo_need

theorem cpCheck_fails (h : cpCheck e c ≠ .ok ()) : cpCheck e c = .error (e.ill 6) := cpCheck_checks.resolve_left h

/-- Bits 24 and 23 of a control word are 0 together where each of them is (R281). -/
theorem bitsOf_pair {v : W64} : bitsOf v 24 23 = 0 ↔ bitsOf v 24 24 = 0 ∧ bitsOf v 23 23 = 0 := by
  simp only [bitsOf]
  omega

/-- What the checks ask of an MCAST (R281, R287). -/
theorem cpCheck_mcast (hf : c.fn = 10) : cpCheck e c = .ok () ↔ McastControl c.ctl := by
  simp only [cpCheck, need_bind_ok, need_eq_ok, hf, McastControl, cpExp, cpBen, bitsOf_pair, Bool.and_eq_true, Bool.or_eq_true,
    Bool.not_eq_true', decide_eq_true_eq, true_or, and_true, true_and, Nat.reduceEqDiff, or_self, false_or]
  tauto

end Checks

section Issue
variable {s : State} {e : Env} {i : Instr} {o : OpX3} {fn : Nat}

/-- What a row of the copies says. -/
theorem exec_copyRow (h : CopyRow i o fn) : exec i s = copyOp (hdrOf i) s o fn := by
  cases h <;> rfl

/-- What COPY, GATHER and SCATTER do once their operands have been read: the checks, the room that they need, and the steps of R280. -/
def copyIssue (s : State) (e : Env) (o : OpX3) (fn : Nat) : Exe State := do
  cpCheck e (copyOf s e o fn)
  waitUnless (decide (s.cpCount e.k < 64) && e.k.canArm (cpLines e.k (copyOf s e o fn)))
  pure (s.issueCp e { copyOf s e o fn with lines := cpLines e.k (copyOf s e o fn) })

theorem copyRow_body (h : CopyRow i o fn) (hr : ThreeReady s e o) :
    ∃ body, exec i s = run i s body ∧ body e = copyIssue s e o fn := by
  obtain ⟨ha, hb, hc⟩ := hr
  refine ⟨_, exec_copyRow h, ?_⟩
  simp only [rdS_ok ha, rdS_ok hb, rdS_ok hc, exe_ok_bind]
  rfl

theorem copyRow_ready (h : CopyRow i o fn) (hi : Issues s i e) (hr : ThreeReady s e o) (hc : cpCheck e (copyOf s e o fn) = .ok ())
    (hn : s.cpCount e.k < 64) (hl : e.k.canArm (cpLines e.k (copyOf s e o fn)) = true) :
    exec i s = .next (after e (s.issueCp e { copyOf s e o fn with lines := cpLines e.k (copyOf s e o fn) })) := by
  obtain ⟨body, hx, hb⟩ := copyRow_body h hr
  refine hx.trans (run_ready hi (hb.trans ?_))
  simp only [copyIssue, hc, decide_eq_true hn, hl, Bool.and_self, waitUnless_ok, exe_ok_bind, exe_pure]

theorem copyRow_refused (h : CopyRow i o fn) (hi : Issues s i e) (hr : ThreeReady s e o) (hc : cpCheck e (copyOf s e o fn) ≠ .ok ()) :
    exec i s = .next ((s.raise e (trapWord 1 (BitVec.ofNat 64 (6 * 2 ^ 56 + e.h.word % 2 ^ 32)))).ctxSettle e.who) := by
  obtain ⟨body, hx, hb⟩ := copyRow_body h hr
  refine hx.trans (runH_trap hi (hb.trans ?_))
  simp only [copyIssue, cpCheck_fails hc, exe_error_bind]
  rfl

theorem copyRow_waits (h : CopyRow i o fn) (hi : Issues s i e) (hr : ThreeReady s e o) (hc : cpCheck e (copyOf s e o fn) = .ok ())
    (hn : 64 ≤ s.cpCount e.k ∨ e.k.canArm (cpLines e.k (copyOf s e o fn)) = false) : exec i s = .next (s.ctxSettle e.who) := by
  obtain ⟨body, hx, hb⟩ := copyRow_body h hr
  have room : (decide (s.cpCount e.k < 64) && e.k.canArm (cpLines e.k (copyOf s e o fn))) = false := by
    rcases hn with hn | hn
    · rw [decide_eq_false (by omega), Bool.false_and]
    · rw [hn, Bool.and_false]
  refine hx.trans (run_waits hi (hb.trans ?_))
  simp only [copyIssue, hc, exe_ok_bind, waitUnless_stops room]

/-- The entries of an MCAST's list, each with whether it expects its bytes (R287). -/
def mcEntries (s : State) (e : Env) (o : OpX3) : List (McDst × Bool) :=
  (List.range (bitsOf (s.sreg e.who o.c.toNat) 35 32 + 1)).map (fun j =>
    mcEntry s e.k (e.k.spRd (mcOff e.k (s.sreg e.who o.b.toNat).toNat j) 16))

/-- The receivers' expectations (R287). -/
def State.mcExpect (s : State) (e : Env) (ctl : W64) (ents : List (McDst × Bool)) : State :=
  ents.foldl (fun s d => if d.1.ok && d.2 then s.mcUpd e.k.launch d.1 (.expect (cpLen ctl)) else s) s

/-- An MCAST without bytes is done at once: an arrival or a refusal for each entry (R287). -/
def State.mcEmpty (t s : State) (e : Env) (ctl : W64) (ents : List (McDst × Bool)) : State :=
  let u := t.asOp (e.newOp s e.m0) (fun t =>
    ents.foldl (fun s d => if d.1.ok then s.cpBarUpd e.ci ctl (.arrive 1 false) else s.mcRefuse e.ci ctl 0) t)
  if ents.all (fun d => d.1.ok) then u else u.stepOpDone e.ci (some 1)

theorem execMcast_ready (hi : Issues s (.mcast o) e) (hr : ThreeReady s e o) (hn : s.cpCount e.k < 64)
    (hm : McastControl (s.sreg e.who o.c.toNat))
    (hl : ∀ j < bitsOf (s.sreg e.who o.c.toNat) 35 32 + 1, e.k.linesFull (mcOff e.k (s.sreg e.who o.b.toNat).toNat j) 16 = true)
    (hd : ∀ d ∈ mcEntries s e o, d.1.ok = true → d.2 = true → s.mcHeld e.k.launch d.1 = false) :
    let ctl := s.sreg e.who o.c.toNat
    let ents := mcEntries s e o
    exec (.mcast o) s = .next (after e (if cpLen ctl = 0 then (s.mcExpect e ctl ents).mcEmpty s e ctl ents
      else (s.mcExpect e ctl ents).issueCp e { mcastOf s e o with recv := ents.map Prod.fst })) := by
  obtain ⟨ha, hb, hc⟩ := hr
  have checks : cpCheck e (CpOp.fresh 10 (s.sreg e.who o.b.toNat) (s.sreg e.who o.a.toNat) (s.sreg e.who o.c.toNat) 0) = .ok () :=
    (cpCheck_mcast rfl).2 hm
  have room : (decide (s.cpCount e.k < 64) && ((List.range (bitsOf (s.sreg e.who o.c.toNat) 35 32 + 1)).map
      (mcOff e.k (s.sreg e.who o.b.toNat).toNat)).all (fun a => e.k.linesFull a 16)) = true := by
    simpa [hn] using hl
  have free : (mcEntries s e o).all (fun d => !(d.1.ok && d.2 && s.mcHeld e.k.launch d.1)) = true := by
    refine List.all_eq_true.2 fun d h => ?_
    rw [Bool.not_eq_true', Bool.and_eq_false_imp, Bool.and_eq_true]
    exact fun ⟨ok, exp⟩ => hd d h ok exp
  have entries : ((List.range (bitsOf (s.sreg e.who o.c.toNat) 35 32 + 1)).map (mcOff e.k (s.sreg e.who o.b.toNat).toNat)).map
      (fun a => mcEntry s e.k (e.k.spRd a 16)) = mcEntries s e o := List.map_map
  refine run_ready hi ?_
  simp only [rdS_ok ha, rdS_ok hb, rdS_ok hc, checks, waitUnless_ok room, entries, waitUnless_ok free, exe_ok_bind, exe_pure]
  split <;> rfl

theorem execMcast_refused (hi : Issues s (.mcast o) e) (hr : ThreeReady s e o) (hm : ¬McastControl (s.sreg e.who o.c.toNat)) :
    exec (.mcast o) s = .next ((s.raise e (trapWord 1 (BitVec.ofNat 64 (6 * 2 ^ 56 + e.h.word % 2 ^ 32)))).ctxSettle e.who) := by
  obtain ⟨ha, hb, hc⟩ := hr
  have checks : cpCheck e (CpOp.fresh 10 (s.sreg e.who o.b.toNat) (s.sreg e.who o.a.toNat) (s.sreg e.who o.c.toNat) 0) = .error (e.ill 6) :=
    cpCheck_fails (mt (cpCheck_mcast rfl).1 hm)
  refine runH_trap hi ?_
  simp only [rdS_ok ha, rdS_ok hb, rdS_ok hc, checks, exe_ok_bind, exe_error_bind]
  rfl

end Issue

/-- Issue (R170, R280, R281, R287). -/
theorem copiesIssue : CopiesIssue := by
  refine ⟨fun i o fn h s e hi ⟨hr, hc, hn, hl⟩ => copyRow_ready h hi hr hc hn hl, fun i o fn h s e hi ⟨hr, hc⟩ => copyRow_refused h hi hr hc,
    fun o s e hi ⟨hr, hm⟩ => execMcast_refused hi hr hm, fun i o fn h s e hi ⟨hr, hc, hn⟩ => copyRow_waits h hi hr hc hn,
    fun o s e hi ⟨hr, hn, hm, hl⟩ => execMcast_ready hi hr hn hm (fun j hj => (hl j hj).1) fun d hd => ?_⟩
  obtain ⟨j, hj, rfl⟩ := List.mem_map.1 hd
  exact (hl j (List.mem_range.1 hj)).2

end Sys2Proof.Machine
end

section
/-! The parts of a copy-engine operation (R171, R211, R217, R218, R280 to R289): a byte is read at its source, accepted with its part at the
destination, or accounted on the barrier. -/
namespace Sys2Proof.Machine
open Sys2Proof.Laws Sys2Proof.Claims

section Parts
variable {s : State} {id b : Nat} {o : Op} {c d : CpOp} {k : Crew} {p r : Nat × Nat} {q : Nat × Nat × Bool}

/-- A part of an operation at work. -/
theorem exec_copyPart (h : CopyRuns s id o c k) : exec (.copyPart id b) s = leaves s ((inThread s o).cpStep o k c b) := by
  obtain ⟨ho, hc, hk, hl, hf⟩ := h
  refine congrArg Host.Outcome.next ?_
  simp only [State.anyCopyPart, State.copyPart, ho, hc, hk, hl, hf, Bool.not_true, Bool.false_eq_true, or_self, if_false]
  rfl

theorem cpStep_reads (hr : rangeAt b c.unread = some r) : s.cpStep o k c b = s.cpReadByte o k c r b := by
  simp only [State.cpStep, hr]

theorem cpStep_writes (hp : PartWaits c b p) : s.cpStep o k c b = if c.fn = 10 then s.mcWritePart o k c p else s.cpWritePart o k c p := by
  have read := partWaits_read hp
  obtain ⟨hu, ⟨r, hr, rfl⟩, -⟩ := hp
  simp only [State.cpStep, hu, hr, read, Bool.false_eq_true, if_false]

theorem cpStep_accounts (hu : rangeAt b c.unread = none) (hl : rangeAt b c.left = none)
    (hq : c.owed.find? (fun q => decide (q.1 ≤ b ∧ b < q.1 + q.2.1)) = some q) : s.cpStep o k c b = s.cpAccount o c q := by
  simp only [State.cpStep, hu, hl, hq]

/-- The run of bytes that the operation reads around byte `b`, by what its source is and gives (R211, R220, R284 to R287). -/
theorem cpReadPart_cases (s : State) (o : Op) (k : Crew) (c : CpOp) (r : Nat × Nat) (b : Nat) :
    let p := readAt c r b
    let a := cpSrc c p.1
    (a.1 = 2 → s.cpReadPart o k c r b = s.cpNext o (c.take p k.die (List.replicate p.2 (0, false))))
    ∧ (a.1 ≠ 2 → ∀ bs, cpReadRun s o.crew k c a.1 a.2 p.2 = .bytes bs →
        s.cpReadPart o k c r b = (s.runJoined o.crew k a.1 a.2 p.2).cpNext o (c.take p (cpDieOf s k a.1 a.2) bs))
    ∧ (a.1 ≠ 2 → ∀ f, cpReadRun s o.crew k c a.1 a.2 p.2 = .fault f → s.cpReadPart o k c r b = s.cpFault o c (cpReason f) f.va)
    ∧ (a.1 ≠ 2 → cpReadRun s o.crew k c a.1 a.2 p.2 = .wait → s.cpReadPart o k c r b = s) := by
  refine ⟨fun h => if_pos h, fun h bs hb => ?_, fun h f hf => ?_, fun h hw => ?_⟩
  · simp only [State.cpReadPart, if_neg h, hb]
  · simp only [State.cpReadPart, if_neg h, hf]
  · simp only [State.cpReadPart, if_neg h, hw]

/-- A COPY reads its bytes at once, and an MCAST those of an entry that it has not refused. -/
theorem cpReadByte_copy (h : c.fn = 7 ∨ c.fn = 10 ∧ ∀ x, c.recv[c.recvOf b]? = some x → x.ok = true) :
    s.cpReadByte o k c r b = s.cpReadPart o k c r b := by
  rcases h with hf | ⟨hf, hok⟩
  · simp only [State.cpReadByte, hf]
  · simp only [State.cpReadByte, hf]
    refine if_pos ?_
    split
    · next d hd => exact hok d hd
    · rfl

/-- A GATHER or SCATTER with the index of a row read, which the landings on its line join (R171, R218, R285, R286). -/
def State.indexRead (s : State) (o : Op) (k : Crew) (c : CpOp) (j : Nat) : State := s.actJoins (s.landedOn o.crew (cpIndexOff k c j) 4)

theorem cpReadByte_row {x : Nat} (h : c.fn = 8 ∨ c.fn = 9 ∧ x < shDim1 c.sh) (hx : cpIndex? s o.crew k c (b / cpRow c) = some x) :
    s.cpReadByte o k c r b = (s.indexRead o k c (b / cpRow c)).cpReadPart o k { c.withIndex (b / cpRow c) x with begun := true } r b := by
  rcases h with hf | ⟨hf, hin⟩
  · simp only [State.cpReadByte, hf, hx]
    rfl
  · simp only [State.cpReadByte, hf, hx, not_le.2 hin, and_false, if_false]
    rfl

theorem cpReadByte_waits (h : c.fn = 8 ∨ c.fn = 9) (hx : cpIndex? s o.crew k c (b / cpRow c) = none) : s.cpReadByte o k c r b = s := by
  rcases h with hf | hf <;> simp only [State.cpReadByte, hf, hx]

theorem cpReadByte_skips {x : Nat} (hf : c.fn = 9) (hx : cpIndex? s o.crew k c (b / cpRow c) = some x) (ho : shDim1 c.sh ≤ x) :
    s.cpReadByte o k c r b = (s.indexRead o k c (b / cpRow c)).cpNext o { c.withIndex (b / cpRow c) x with
      begun := true, left := cutRange (b / cpRow c * cpRow c, cpRow c) c.left, unread := cutRange (b / cpRow c * cpRow c, cpRow c) c.unread
      part := true, owed := if cpBen c.ctl then (b / cpRow c * cpRow c, cpRow c, true) :: c.owed else c.owed } := by
  simp only [State.cpReadByte, hf, hx, ho, and_self, if_true]
  rfl

theorem cpReadByte_refused {x : McDst} (hf : c.fn = 10) (hx : c.recv[c.recvOf b]? = some x) (hn : x.ok = false) :
    s.cpReadByte o k c r b = s.cpNext o (mcRefused c (c.recvOf b)) := by
  simp only [State.cpReadByte, hf, hx, hn, Bool.false_eq_true, if_false]
  rfl

end Parts

/-- Reads (R171, R211, R284 to R287). -/
theorem copySourcesAreRead : CopySourcesAreRead := by
  intro s id b o c k r h hr
  have step : exec (.copyPart id b) s = leaves s ((inThread s o).cpReadByte o k c r b) := by rw [exec_copyPart h, cpStep_reads hr]
  refine ⟨fun d w hdw => ?_, fun hf hx => ?_, fun x hf hx ho => ?_, fun x hf hx hn => ?_⟩
  · have reads : (inThread s o).cpReadByte o k c r b = w.cpReadPart o k d r b := by
      rcases hdw with ⟨hf, rfl, rfl⟩ | ⟨x, hf, hx, rfl, rfl⟩
      exacts [cpReadByte_copy hf, cpReadByte_row hf hx]
    obtain ⟨zeros, bytes, faults, waits⟩ := cpReadPart_cases w o k d r b
    rw [step, reads]
    exact ⟨fun h => congrArg _ (zeros h), fun h bs hb => congrArg _ (bytes h bs hb), fun h f hf => congrArg _ (faults h f hf),
      fun h hw => congrArg _ (waits h hw)⟩
  · rw [step, cpReadByte_waits hf hx]
    rfl
  · rw [step, cpReadByte_skips hf hx ho]
    rfl
  · rw [step, cpReadByte_refused hf hx hn]

end Sys2Proof.Machine
end

section
/-! Parts at their destinations and on the barrier (R14, R217, R218, R280 to R289). -/
namespace Sys2Proof.Machine
open Sys2Proof.Laws Sys2Proof.Claims

section Moves
variable {s : State} {id b : Nat} {o : Op} {c : CpOp} {k : Crew} {p : Nat × Nat} {die : Nat} {t : State}

/-- A part that does not cross to a die whose bridge is shut goes (R14, R374). -/
theorem bridged_goes (h : c.crosses p die = true → s.bridgeShut die c.tried = false) : s.bridged o c p die t = t := by
  refine if_neg ?_
  simpa using h

/-- The die of a part's destination: that of its first piece. -/
def piecesDie (k : Crew) (ps : List (Spot × Nat)) : Nat := match ps with | q :: _ => q.1.die k | [] => k.die

theorem cpWritePart_memory {ps : List (Spot × Nat)} (hd : (cpDest c c.index p.1).1 ≠ 1)
    (hp : s.piecesOf k k.ctxid kWrite (cpDest c c.index p.1).2 p.2 = .ok ps)
    (hb : c.crosses p (piecesDie k ps) = true → s.bridgeShut (piecesDie k ps) c.tried = false) :
    s.cpWritePart o k c p = (s.writePieces o.crew ps (c.bytes p)).cpNext o (c.accept p) := by
  simp only [State.cpWritePart, cpDestPieces, if_neg hd, hp]
  exact bridged_goes hb

theorem cpWritePart_tile (hd : (cpDest c c.index p.1).1 = 1) (hb : c.crosses p k.die = false) :
    s.cpWritePart o k c p = (s.modCrew o.crew (fun k => k.tileWr (cpDest c c.index p.1).2 (c.bytes p))).cpNext o (c.accept p) := by
  simp only [State.cpWritePart, cpDestPieces, if_pos hd]
  exact bridged_goes fun h => absurd h (by simp [hb])

theorem cpWritePart_faults {f : EFault} (hd : (cpDest c c.index p.1).1 ≠ 1)
    (hp : s.piecesOf k k.ctxid kWrite (cpDest c c.index p.1).2 p.2 = .error f) : s.cpWritePart o k c p = s.cpFault o c (cpReason f) f.va := by
  simp only [State.cpWritePart, cpDestPieces, if_neg hd, hp]

variable {d : McDst} {x : Nat} {rk : Crew}

/-- A part for a receiver that has been placed, by the state of its crew (R287, R289). -/
theorem mcWritePart_placed (hd : c.recv[c.recvOf p.1]? = some d) (hx : s.crewOf k.launch d.crew = some x) (hk : s.crews[x]? = some rk) :
    s.mcWritePart o k c p = match rk.st with
      | .saved => s
      | .ended => s.cpNext o (mcRefused c (c.recvOf p.1))
      | .running =>
        let off := spAddr rk.z (d.doff + p.1 % cpLen c.ctl) 0 1
        s.bridged o c p rk.die (((s.noteSp x off p.2 none).modCrew x (fun q => q.spWrMarked off (c.bytes p))).cpNext o (c.accept p)) := by
  simp only [State.mcWritePart, hd, Option.bind_some, hx, hk]
  cases rk.st <;> rfl

end Moves

/-- Acceptance (R14, R280, R282, R284 to R287, R289). -/
theorem copyPartsMove : CopyPartsMove := by
  intro s id b o c k p h hp
  have step : exec (.copyPart id b) s = leaves s (if c.fn = 10 then (inThread s o).mcWritePart o k c p else (inThread s o).cpWritePart o k c p) := by
    rw [exec_copyPart h, cpStep_writes hp]
  refine ⟨fun hf => ?_, fun d x rk hf hd hx hk => ?_⟩
  · have other : c.fn ≠ 10 := by rintro h; simp [h] at hf
    rw [step, if_neg other]
    exact ⟨fun ps hd hs hb => congrArg _ (cpWritePart_memory hd hs hb), fun hd hb => congrArg _ (cpWritePart_tile hd hb),
      fun f hd hs => congrArg _ (cpWritePart_faults hd hs)⟩
  · rw [step, if_pos hf, mcWritePart_placed (s := inThread s o) hd hx hk]
    refine ⟨fun hs hb => ?_, fun hs => ?_, fun hs => ?_⟩ <;> simp only [hs]
    · exact congrArg _ (bridged_goes hb)
    · rfl

section Accounts
variable {s : State} {o : Op} {c : CpOp} {k : Crew} {q : Nat × Nat × Bool} {d : McDst}

/-- The operation with a part accounted. -/
def CpOp.settled (c : CpOp) (q : Nat × Nat × Bool) : CpOp := { c with owed := c.owed.filter (fun x => decide (x ≠ q)) }

theorem cpAccount_copy (hf : c.fn ≠ 10) : s.cpAccount o c q = if c.unread ≠ [] ∨ c.left ≠ [] then s
    else (s.cpBarUpd o.crew c.ctl (c.account q)).cpNext o (c.settled q) := if_neg hf

/-- A receiver's part is accounted once the whole of it has been delivered and nothing of the operation can move (R287, R289). -/
theorem mcHeldUp_iff : s.mcHeldUp o c = true ↔ c.unread = [] ∧ ∀ r ∈ c.left, s.mcRuns o c r.1 = false := by
  simp [State.mcHeldUp]

theorem cpAccount_mcastWaits (hf : c.fn = 10) (hd : c.recv[c.recvOf q.1]? = some d)
    (h : c.unread ≠ [] ∨ c.restOf (c.recvOf q.1) ≠ 0 ∨ ∃ r ∈ c.left, s.mcRuns o c r.1 = true) : s.cpAccount o c q = s := by
  simp only [State.cpAccount, if_pos hf, hd]
  refine if_pos ?_
  by_cases hu : s.mcHeldUp o c = true
  · obtain ⟨hn, hw⟩ := mcHeldUp_iff.1 hu
    refine .inr (h.resolve_left (absurd hn) |>.resolve_right ?_)
    rintro ⟨r, hr, hm⟩
    exact Bool.false_ne_true ((hw r hr).symm.trans hm)
  · exact .inl (by simpa using hu)

theorem cpAccount_mcast (hf : c.fn = 10) (hd : c.recv[c.recvOf q.1]? = some d) (hu : c.unread = []) (hr : c.restOf (c.recvOf q.1) = 0)
    (hw : ∀ r ∈ c.left, s.mcRuns o c r.1 = false) : s.cpAccount o c q =
      if q.2.2 = true then (s.mcRefuse o.crew c.ctl q.2.1).cpNext o (c.settled q)
      else (if (c.settled q).owedOf (c.recvOf q.1) = [] then (s.mcUpd (s.launchOf o.crew) d (.land q.2.1)).cpBarUpd o.crew c.ctl (.arrive 1 false)
        else s.mcUpd (s.launchOf o.crew) d (.land q.2.1)).cpNext o (c.settled q) := by
  simp only [State.cpAccount, if_pos hf, hd]
  refine if_neg ?_
  simp [mcHeldUp_iff.2 ⟨hu, hw⟩, hr]

theorem cpLanded_noLines (h : c.lines = []) : cpLanded k c = [] := by
  simp only [cpLanded, h, List.filter_nil, ite_self]

/-- An operation without lines goes on, or ends where nothing of it is left (R242, R280, R285). -/
theorem cpNext_noLines (h : c.lines = []) : s.cpNext o c = if c.unread = [] ∧ c.left = [] ∧ c.owed = []
    then s.endEng o (if c.bad then some 1 else if c.part then some 3 else none) else s.modOp o.id (fun o => { o with eng := some (.cp c) }) := by
  have kept : { c with lines := c.lines.filter (fun l => !(([] : List Nat).contains l)) } = c := by
    rw [h, List.filter_nil, ← h]
  unfold State.cpNext
  rcases s.crews[o.crew]? with _ | k <;> simp only [cpLanded_noLines h, kept, State.landLines, if_true]

theorem cpLanded_all (hu : c.unread = []) (hl : c.left = []) : cpLanded k c = c.lines := by
  simp [cpLanded, hu, hl]

theorem mem_cpLanded {l : Nat} (h : l ∈ cpLanded k c) : l ∈ c.lines := by
  unfold cpLanded at h
  split at h
  · exact List.mem_of_mem_filter h
  · cases h

theorem account_gatherEnds (hf : c.fn = 8) (hp : c.part = true) (hl : c.left = []) (ho : c.owed = [q]) (hq : q.2.2 = false) :
    c.account q = .landBit q.2.1 70 := by
  simp [CpOp.account, hf, hp, hl, ho, hq]

end Accounts

/-- Accounting (R218, R280, R285, R287). -/
theorem copiesAccount : CopiesAccount := by
  refine ⟨fun s id b o c k q h hu hl hq => ?_, fun c q => ⟨fun h => if_pos h, fun h hp => ?_, account_gatherEnds⟩,
    fun s o c h hn => ?_, fun s o c h hu hl ho => ?_, fun c k => ⟨fun h => if_neg h, cpLanded_all, fun l => mem_cpLanded⟩⟩
  · have step : exec (.copyPart id b) s = leaves s ((inThread s o).cpAccount o c q) := by rw [exec_copyPart h, cpStep_accounts hu hl hq]
    refine ⟨fun hf hu hl => ?_, fun hf hn => ?_, fun d hf hd => ⟨fun hu hr hw => ?_, fun hn => ?_⟩⟩
    · rw [step, cpAccount_copy hf, if_neg (by simp [hu, hl])]
      rfl
    · rw [step, cpAccount_copy hf, if_pos hn]
      rfl
    · have launch : (inThread s o).launchOf o.crew = k.launch := by
        obtain ⟨-, -, hk, -, -⟩ := h
        simp only [State.launchOf, inThread, hk]
      rw [step, cpAccount_mcast (s := inThread s o) hf hd hu hr hw, launch]
      exact ⟨fun hq => by rw [if_neg (by simp [hq])]; rfl, fun hq => by rw [if_pos hq]; rfl⟩
    · rw [step, cpAccount_mcastWaits (s := inThread s o) hf hd hn]
      rfl
  · simp [CpOp.account, h, hp]
  · rw [cpNext_noLines h, if_neg (by tauto)]
  · rw [cpNext_noLines h, if_pos ⟨hu, hl, ho⟩]

/-- Settles O28: issue by the checks in order, a step of a part by whether it reads, writes or accounts, and each by what it finds. -/
theorem copiesIssueAndMove : Obligations.CopiesIssueAndMove := ⟨copiesIssue, copySourcesAreRead, copyPartsMove, copiesAccount⟩

end Sys2Proof.Machine
end

section
/-! Crews that leave their cores (R288, R389, R403 to R405, R407): CREW_SAVE by what stands in its way, and what a save leaves. -/
namespace Sys2Proof.Machine
open Sys2Proof.Laws Sys2Proof.Claims

section Saves
variable {s : State} {ci die core why : Nat} {k : Crew} {c : PendCmd} {a : SaveArea} {img : List Byte} {o : Op}

/-- Work that changes nothing leaves the package as it was. -/
theorem leaves_inWork : leaves s (inWork s []) = .next s := rfl

theorem crewSave_preempted (h : Savable s ci 0 k img) (hp : s.preempting k.ctxid = some (die, c)) (ha : s.saveRoom k.ctxid img.length = some a) :
    s.crewSave ci 0 = ((s.saveCrew ci 0 k a img).countSaved die).preemptCheck := by
  obtain ⟨hk, hr, rfl⟩ := h
  simp only [State.crewSave, hk, hr, hp, ha]
  rfl

theorem crewSave_noRoom (h : Savable s ci 0 k img) (hp : s.preempting k.ctxid = some (die, c)) (ha : s.saveRoom k.ctxid img.length = none) :
    s.crewSave ci 0 = s.endCmd die c 3 c.saved := by
  obtain ⟨hk, hr, rfl⟩ := h
  simp only [State.crewSave, hk, hr, hp, ha]
  rfl

theorem crewSave_rescheduled (h : Savable s ci 2 k img) (hp : s.preempting k.ctxid = none) (ha : s.saveRoom k.ctxid img.length = some a) :
    s.crewSave ci 2 = s.saveCrew ci 2 k a img := by
  obtain ⟨hk, hr, rfl⟩ := h
  simp only [State.crewSave, hk, hr, hp, ha]
  rfl

theorem crewSave_notReady (h : s.saveReady ci = false) : s.crewSave ci why = s := by
  unfold State.crewSave
  split
  · rfl
  · simp only [h, Bool.not_false, true_or, if_true]

/-- A message that leaves changes the wire only. -/
theorem foldl_send_eq {α : Type} {l : List α} {peer mid : α → Nat} {body : α → WireBody} :
    ∃ wr n, l.foldl (fun t p => t.send (peer p) (mid p) (body p)) s = { s with wire := wr, nextMsg := n } := by
  induction l generalizing s with
  | nil => exact ⟨_, _, rfl⟩
  | cons p l ih =>
    have sent : ∃ wr n, s.send (peer p) (mid p) (body p) = { s with wire := wr, nextMsg := n } := by
      unfold State.send
      split
      exacts [⟨_, _, rfl⟩, ⟨_, _, rfl⟩]
    obtain ⟨wr, n, h⟩ := sent
    obtain ⟨wr', n', h'⟩ := ih (s := s.send (peer p) (mid p) (body p))
    exact ⟨wr', n', by rw [List.foldl_cons, h', h]⟩

/-- The operations of a crew that its save takes out (R288). -/
def State.savesOut (s : State) (ci : Nat) (o : Op) : Bool := o.ofCrew ci && s.withdraws o

theorem savesOut_iff : s.savesOut ci o = true ↔ o.crew = ci ∧ s.withdraws o = true := by
  simp [State.savesOut, Op.ofCrew]

/-- What a save leaves of the crews, of memory and of the operations (R288, R405). -/
theorem saveCrew_parts : let t := s.saveCrew ci why k a img
    t.crews = modAt s.crews ci (fun k => { k with st := .saved, savedWhy := why, savedAt := memKey a.tgt (a.base + a.used) })
      ∧ t.mem = (s.wrL (memKey a.tgt (a.base + a.used)) img).mem ∧ t.ops = s.ops.filter (fun o => !(s.savesOut ci o))
      ∧ t.withdrawn = s.withdrawn ++ (s.ops.filter (s.savesOut ci)).map Op.withdrawn := by
  obtain ⟨wr, n, h⟩ := foldl_send_eq (s := (s.wrL (memKey a.tgt (a.base + a.used)) img).mapReqs ci (freezeReq s.dtime)) (l := s.keptPuts ci)
    (peer := fun p => rwDev p.2.rword) (mid := fun p => p.2.mid) (body := fun p => .relinquish p.2.tokens)
  simp only [State.saveCrew, h]
  exact ⟨rfl, rfl, rfl, rfl⟩

/-- What an MCAST has still to deliver waits for saved crews alone (R287, R289). -/
theorem onlySaved_iff {c : CpOp} : s.onlySaved o c = true ↔ c.fn = 10 ∧ c.left ≠ [] ∧ (∀ r ∈ c.left, s.recvSaved o c (c.recvOf r.1) = true)
    ∧ ∀ q ∈ c.owed, ∃ r ∈ c.left, c.recvOf r.1 = c.recvOf q.1 := by
  simp [State.onlySaved, and_assoc]

theorem withdraws_begun {c : CpOp} (ho : o.eng = some (.cp c)) (hb : c.begun = true) : s.withdraws o = s.onlySaved o c := by
  simp only [State.withdraws, ho, hb, Bool.not_true, Bool.false_or]

end Saves

/-- Saves (R288, R389, R403 to R405, R407). -/
theorem crewsAreSaved : CrewsAreSaved := by
  refine ⟨fun s ci k img die c a h hp ha => congrArg (leaves s) (crewSave_preempted h hp ha),
    fun s ci k img die c h hp ha => congrArg (leaves s) (crewSave_noRoom h hp ha),
    fun s ci k img a h hp ha => congrArg (leaves s) (crewSave_rescheduled h hp ha),
    fun s ci why h => (congrArg (leaves s) (crewSave_notReady h)).trans leaves_inWork, fun s ci why k a img hk => ?_,
    fun s o c ho hb => by rw [withdraws_begun ho hb, onlySaved_iff]⟩
  obtain ⟨crews, mem, ops, withdrawn⟩ := saveCrew_parts (s := s) (ci := ci) (why := why) (k := k) (a := a) (img := img)
  refine ⟨?_, fun j hj => ?_, mem, fun o ho hc => ?_, fun o ho hc hw => ?_⟩
  · rw [crews, modAt_get, if_pos rfl, hk]
    rfl
  · rw [crews, modAt_get, if_neg hj]
  · rw [ops] at ho
    have stays := (List.mem_filter.1 ho).2
    simpa [State.savesOut, Op.ofCrew, hc] using stays
  · rw [withdrawn]
    exact List.mem_append_right _ (List.mem_map_of_mem (List.mem_filter.2 ⟨ho, savesOut_iff.2 ⟨hc, hw⟩⟩))

end Sys2Proof.Machine
end

section
/-! Crews that come back (R403, R406, R411): CREW_RESTORE and THERMAL_MIGRATION by what stands in their way, and a crew as its image has it. -/
namespace Sys2Proof.Machine
open Sys2Proof.Laws Sys2Proof.Claims

section Stores
variable {m : Sparse 8} {a i n : Nat} {bs : List Byte}

/-- Bytes written one after another are read back. -/
theorem wrList_get (hm : m.wf = true) (hi : i < bs.length) : (wrList m a bs).get (a + i) = bs[i] := by
  induction bs generalizing m a i with
  | nil => cases hi
  | cons b bs ih =>
    rw [wrList]
    cases i with
    | zero => exact (wrList_other (set_wf hm) (.inl (Nat.lt_succ_self a))).trans (get_set_same hm)
    | succ i => rw [show a + (i + 1) = a + 1 + i by omega, ih (set_wf hm) (Nat.lt_of_succ_lt_succ hi)]; rfl

theorem rdList_eq : rdList m a n = (List.range n).map (fun i => m.get (a + i)) := by
  induction n generalizing a with
  | zero => rfl
  | succ n ih => simp [rdList, ih, List.range_succ_eq_map, Function.comp_def, Nat.add_assoc, Nat.add_comm 1]

theorem loadBytes_get {s : State} (hi : i < n) : (s.loadBytes a n).get i = s.mem.get (a + i) := by
  have length : i < (rdList s.mem a n).length := by simpa [rdList_eq] using hi
  have read : (wrList [] 0 (rdList s.mem a n)).get (0 + i) = (rdList s.mem a n)[i] := wrList_get rfl length
  rw [Nat.zero_add] at read
  rw [State.loadBytes, read]
  simp [rdList_eq]

end Stores

section Images
variable {s : State} {k : Crew} {key regs wi r l : Nat} {w : Warp} {v : VReg} {y : Lane}

theorem loadWords_get {n : Nat} (hr : r < n) : (s.loadWords key n)[r]? = some (BitVec.ofNat 64 (s.rd (key + 8 * r) 8)) := by
  simp [State.loadWords, hr]

/-- A lane of a register image holds its four bytes (R122). -/
theorem loadReg_data (hy : v[l]? = some y) : ∃ z, (s.loadReg key v)[l]? = some z ∧ z.data = BitVec.ofNat 32 (s.rd (key + 4 * l) 4) := by
  simp only [State.loadReg, mapFrom_get, hy, Nat.zero_add, Option.map_some]
  exact ⟨_, rfl, rfl⟩

theorem loadWarp_sregs (hr : r < 64) : (s.loadWarp key regs w).sregs[r]? = some (BitVec.ofNat 64 (s.rd (key + 1536 + 8 * r) 8)) :=
  loadWords_get hr

theorem loadWarp_reg (hv : w.regs[r]? = some v) : (s.loadWarp key regs w).regs[r]? = some (s.loadReg (regs + 272 * r) v) := by
  have regs : (s.loadWarp key regs w).regs = mapFrom (fun i r => s.loadReg (regs + 272 * i) r) 0 w.regs := rfl
  rw [regs, mapFrom_get, hv, Nat.zero_add]
  rfl

theorem loadCrew_warp (hw : k.warps[wi]? = some w) : (s.loadCrew k).warps[wi]?
    = some (s.loadWarp (k.savedAt + 512 + 3072 * wi) (k.savedAt + imgRegs k.image + 272 * k.image.regs * wi) w) := by
  have warps : (s.loadCrew k).warps = mapFrom (fun w x => s.loadWarp (k.savedAt + 512 + 3072 * w)
      (k.savedAt + imgRegs k.image + 272 * k.image.regs * w) x) 0 k.warps := rfl
  rw [warps, mapFrom_get, hw, Nat.zero_add]
  rfl

end Images

section Restores
variable {s : State} {ci core die src dst : Nat} {k : Crew} {d : Die} {a : SaveArea}

theorem restoreOk_fits (h : s.restoreOk ci core k = true) : s.fits k.image k.launch (k.die, core) = true := by
  simp only [State.restoreOk, Bool.and_eq_true] at h
  obtain ⟨⟨⟨⟨-, fits⟩, -⟩, -⟩, -⟩ := h
  exact fits

theorem crewRestore_ready (hk : s.crews[ci]? = some k) (hs : k.st = .saved) (hw : k.savedWhy ≠ 0 ∨ s.resuming k.ctxid = true)
    (hr : s.restoreOk ci core k = true) : s.crewRestore ci core = (s.restoreCrew ci core k).preemptCheck := by
  simp only [State.crewRestore, hk]
  exact if_pos ⟨hs, hw, hr⟩

theorem crewRestore_stays (hk : s.crews[ci]? = some k) (h : k.st ≠ .saved ∨ s.restoreOk ci core k = false) : s.crewRestore ci core = s := by
  simp only [State.crewRestore, hk]
  exact if_neg fun ⟨hs, _, hr⟩ => h.elim (· hs) (fun hn => Bool.false_ne_true (hn.symm.trans hr))

theorem migrate_ready (hd : s.dies[die]? = some d) (ho : s.oldest die src = some ci) (hk : s.crews[ci]? = some k)
    (ha : s.saveRoom k.ctxid (s.imageOf ci 1 k).length = some a) (hn : src ≠ dst) (hs : s.saveReady ci = true)
    (hr : s.restoreOk ci dst k = true) (hm : ∀ m ∈ d.moved, m.1 ≠ src ∨ m.2 + 1000000 ≤ s.dtime) :
    s.migrate die src dst = (((s.saveCrew ci 1 k a (s.imageOf ci 1 k)).restoreCrew ci dst k).modDie die (fun d =>
      { d with moved := (src, s.dtime) :: d.moved.filter (fun m => decide (m.1 ≠ src)) })).event die src .migration dst false := by
  have rested : d.moved.all (fun m => decide (m.1 ≠ src ∨ m.2 + 1000000 ≤ s.dtime)) = true :=
    List.all_eq_true.2 fun m h => decide_eq_true (hm m h)
  simp only [State.migrate, hd, ho, hk, ha]
  exact if_pos ⟨hn, hs, hr, rested⟩

theorem migrate_none (ho : s.oldest die src = none) : s.migrate die src dst = s := by
  unfold State.migrate
  rw [ho]
  rcases s.dies[die]? with _ | d <;> rfl

end Restores

/-- Restores and migrations (R403, R406, R411). -/
theorem crewsAreRestored : CrewsAreRestored := by
  refine ⟨fun s ci core k hk hs hw hr => ⟨restoreOk_fits (s := inWork s []) hr, congrArg (leaves s) (crewRestore_ready hk hs hw hr)⟩,
    fun s ci core k hk h => (congrArg (leaves s) (crewRestore_stays (s := inWork s []) hk h)).trans leaves_inWork,
    fun s k wi w hw => ⟨_, loadCrew_warp hw, fun r hr => loadWarp_sregs hr, fun r v l y hv hy => ?_⟩, fun s k i hi => loadBytes_get hi,
    fun k => ⟨rfl, ?_, rfl⟩,
    fun s die src dst d ci k a hd ho hk ha hn hs hr hm => congrArg (leaves s) (migrate_ready (s := inWork s []) hd ho hk ha hn hs hr hm),
    fun s die src dst ho => (congrArg (leaves s) (migrate_none (s := inWork s []) ho)).trans leaves_inWork⟩
  · obtain ⟨z, hz, hd⟩ := loadReg_data (s := s) (key := k.savedAt + imgRegs k.image + 272 * k.image.regs * wi + 272 * r) hy
    refine ⟨_, z, loadWarp_reg hv, hz, hd.trans ?_⟩
    ring_nf
  · rw [imgSpad, Nat.mul_comm 272]

/-- Settles O48: saves and restores by what stands in their way, and an image by the sections that it is written in and read from. -/
theorem crewsAreSavedAndRestored : Obligations.CrewsAreSavedAndRestored := ⟨crewsAreSaved, crewsAreRestored⟩

end Sys2Proof.Machine
end

section
/-! Reset, and packets of host queues (R345 to R354, R427): what the dispatch of a packet comes to. -/
namespace Sys2Proof.Machine
open Sys2Proof.Laws Sys2Proof.Claims

/-- Memory without marks holds no poison. -/
theorem poisonIn_nil {gran key n : Nat} : poisonIn [] gran key n = false := by
  simp only [poisonIn, Sparse.get, ne_eq, not_true_eq_false, decide_false, List.any_eq_false, Bool.false_eq_true, not_false_eq_true,
    implies_true]

/-- Settles O51: every field by what reset gives it, and memory without entries or marks. -/
theorem resetState : Obligations.ResetState :=
  ⟨rfl, rfl, rfl, rfl, rfl, rfl, rfl, rfl, rfl, rfl, rfl, rfl, rfl, fun _ => rfl,
    fun _ _ => (congrArg₂ (· || ·) poisonIn_nil poisonIn_nil : _), rfl⟩

section Packets
variable {s t : State} {q p ty die st : Nat} {x : Queue} {i : Instr} {f : State → Job → Nat → State} {w : AggWin}

/-- A queue stands under its own identifier. -/
theorem queue?_qid (h : s.queue? q = some x) : x.qid = q := by simpa using List.find?_some h

/-- No packet of a host queue is picked while its die has a grid of its own to begin (R353). -/
theorem picked_grid (h : (s.grid? x.server).isSome = true) : s.picked x = false := by
  unfold State.picked
  cases s.dies[x.server]? with
  | none => rfl
  | some d => simp only [Option.isNone_eq_false_iff.2 h, Bool.and_false, Bool.false_and]

/-- Nothing is dispatched from a queue that is not picked, nor a packet of another type. -/
theorem dispatch_notPicked (hq : s.queue? q = some x) (h : s.picked x = false) : s.dispatch q ty f = s := by
  simp only [State.dispatch, hq, h, Bool.false_and, Bool.false_eq_true, if_false]
  split <;> rfl

theorem malformed_notPicked (hq : s.queue? q = some x) (h : s.picked x = false) : s.malformed q = s := by
  simp only [State.malformed, hq, h, Bool.false_and, Bool.false_eq_true, if_false]
  split <;> rfl

theorem dispatch_otherType (hq : s.queue? q = some x) (hp : s.packetOf x = some p) (ht : pkType p ≠ ty) : s.dispatch q ty f = s := by
  simp only [State.dispatch, hq, hp, ht, decide_false, Bool.and_false, Bool.false_eq_true, if_false]

/-- The next packet of a queue does what its type says, unless its deadline has come (R348, R349). -/
theorem dispatch_next (h : NextPacket s q x p) (hc : x.capFits p = true) (hk : packetOk p = true) (ht : pkType p = ty) :
    s.dispatch q ty f = if s.packetLate p then (taken s x p).finishJob (jobOf s x p) 1 0 0 0 else f (taken s x p) (jobOf s x p) p := by
  obtain ⟨hq, hp, picked⟩ := h
  simp only [State.dispatch, hq, hp, picked, hk, hc, ht, decide_true, Bool.and_self, if_true]
  rfl

/-- The device's own queue stands beside the host queues (R353). -/
theorem launchNext_host (h : q < 2 ^ 15) : s.launchNext q = s.dispatch q 1 State.launchPacket := if_pos h

theorem launchNext_device : s.launchNext (2 ^ 15 + die) = s.launchGrid die := by
  simp only [State.launchNext, Nat.not_lt.2 (Nat.le_add_right _ _), if_false, Nat.add_sub_cancel_left]

/-- Each type of packet is dispatched with the effect that its row gives. -/
theorem exec_packetRow (h : PacketRow q i ty f) : ∃ g, (∀ s, exec i s = .next (s.dispatch q ty g)) ∧ g = f := by
  cases h with
  | launch hq => exact ⟨_, fun _ => congrArg Host.Outcome.next (launchNext_host hq), rfl⟩
  | graph | barrierAnd | barrierOr | copy => exact ⟨_, fun _ => rfl, rfl⟩
  | signal =>
    refine ⟨_, fun _ => rfl, funext fun s => funext fun j => funext fun p => ?_⟩
    simp only [State.signalPacket]
    rfl
  | seqin =>
    refine ⟨_, fun _ => rfl, funext fun s => funext fun j => funext fun p => ?_⟩
    simp only [State.admitPacket, State.schedPacket]
    cases (s.schedBegin (bits p 447 447) j.seen).vrd j.ctxid (bits p 511 448) 128 with
    | none => rfl
    | some b => dsimp only; cases (s.schedBegin (bits p 447 447) j.seen).enterSeq j.ctxid (bits p 447 447) b <;> rfl
  | cancel =>
    refine ⟨_, fun _ => rfl, funext fun s => funext fun j => funext fun p => ?_⟩
    simp only [State.cancelPacket, State.schedPacket]
    cases ((s.schedBegin (sqDie (bits p 511 480)) j.seen).live? (bits p 511 480)).isSome <;> rfl

/-- A deadline that is 0 or still to come is not late (R349). -/
theorem packetLate_false (h : bits p 127 64 = 0 ∨ s.dtime < bits p 127 64) : s.packetLate p = false :=
  decide_eq_false fun ⟨hn, hd⟩ => h.elim hn (Nat.not_lt.2 hd)

theorem packetLate_true (hn : bits p 127 64 ≠ 0) (hd : bits p 127 64 ≤ s.dtime) : s.packetLate p = true := decide_eq_true ⟨hn, hd⟩

/-- A malformed packet completes with status 2, and is reported where its completion address is not aligned (R345). -/
theorem malformed_next (h : NextPacket s q x p) (hc : x.capFits p = true) (hk : packetOk p = false) :
    s.malformed q = (
      let t := (taken s x p).finishJob (jobOf s x p) 2 0 0 0
      if pkCq p = true ∧ bits p 191 128 % 16 ≠ 0 then t.event x.server 0 .misaligned (q * 2 ^ 64 + x.head) false else t) := by
  obtain ⟨hq, hp, picked⟩ := h
  simp only [State.malformed, hq, hp, picked, hk, hc, Bool.not_false, Bool.and_self, if_true]
  rfl

/-- A queue in ERROR, with its record of status 10 (R348). -/
def erring (s : State) (q : Nat) (x : Queue) : Host.Outcome State Fault Refusal :=
  leaves s ((inWork (s.modQueue q (fun x => { x with st := .error })) x.seen).complete x.ctxid x.err (complRecord 0 x.head 0 x.qid 0 0 10))

theorem enterError_errs (hq : s.queue? q = some x) : Host.Outcome.next (s.enterError x) = erring s q x := by
  rw [State.enterError, queue?_qid hq]
  rfl

theorem readError_errs (hq : s.queue? q = some x) (hx : s.picked x = true) (hp : s.packetOf x = none) :
    exec (.queueError q) s = erring s q x := by
  refine Eq.trans (congrArg Host.Outcome.next ?_) (enterError_errs hq)
  simp only [State.readError, hq, hx, hp, Option.isNone_none, Bool.and_self, if_true]

theorem capError_errs (h : NextPacket s q x p) (hc : x.capFits p = false) : exec (.capFault q) s = erring s q x := by
  obtain ⟨hq, hp, picked⟩ := h
  refine Eq.trans (congrArg Host.Outcome.next ?_) (enterError_errs hq)
  simp only [State.capError, hq, hp, picked, hc, Bool.not_false, Bool.and_self, if_true]

theorem capError_fits (h : NextPacket s q x p) (hc : x.capFits p = true) : exec (.capFault q) s = .next s := by
  obtain ⟨hq, hp, picked⟩ := h
  refine congrArg Host.Outcome.next ?_
  simp only [State.capError, hq, hp, hc, Bool.not_true, Bool.and_false, Bool.false_eq_true, if_false]

/-- Each access of a packet that keeps within its queue's capability is one that the capability permits (R427). -/
theorem capFits_permits {a : Nat × Nat × Bool} (ha : a ∈ pkAccesses p) (hk : packetOk p = true) (hc : x.capFits p = true) :
    x.cap.permits a = true := by
  refine List.all_eq_true.1 hc a (List.mem_append_right _ ?_)
  rwa [hk]

/-- The next grid of a device queue begins (R353, R357). -/
theorem launchGrid_begins (hs : s.serves die = true) (hg : s.grid? die = some w) (hl : s.packetLate w.key.toNat = false)
    (hb : (s.modDie die (fun d => { d with devq := d.devq.tail })).beginLaunch
      { id := s.nextJob, queue := none, index := 0, ctxid := w.ctxid, die := die, tag := 0, cq := false, compl := 0, parent := none
        iter := none, opn := false, kind := .wait [] true, seen := [] } w.key.toNat (w.kids.length * pkNcrews w.key.toNat) w.kids = .ok t) :
    s.launchGrid die = t := by
  simp only [State.launchGrid, hg, hs, hl, hb, Bool.not_true, Bool.false_eq_true, if_false]

end Packets

/-- Settles O59: a queue whose die has a grid to begin is not picked. -/
theorem deviceQueueFirst : Obligations.DeviceQueueFirst := fun s q x hq hg hn => by
  have hx := picked_grid hg
  have dispatched : ∀ ty f, Host.Outcome.next (s.dispatch q ty f) = (.next s : Host.Outcome State Fault Refusal) := fun ty f =>
    congrArg _ (dispatch_notPicked hq hx)
  exact ⟨(congrArg _ (launchNext_host hn)).trans (dispatched 1 _), dispatched 2 _, dispatched 3 _, dispatched 4 _, dispatched 5 _, dispatched 6 _,
    dispatched 7 _, dispatched 8 _, congrArg _ (malformed_notPicked hq hx)⟩

/-- Settles O37: a packet by the row of its type, and the other steps by what they check. -/
theorem queuesDispatchPackets : Obligations.QueuesDispatchPackets := by
  refine ⟨fun q i ty f row s x p h hc hk ht => ?_, fun q i ty f row s x p hq hp ht => ?_,
    fun s q x p h hc hk => congrArg Host.Outcome.next (malformed_next h hc hk), fun s q x hq hx hp => readError_errs hq hx hp,
    fun s q x p h hc => capError_errs h hc, fun s q x p h hc => capError_fits h hc, fun x p a n w ha hk hc => ?_,
    fun s die w t hs hg hl hb => congrArg Host.Outcome.next (launchNext_device.trans (launchGrid_begins hs hg hl hb))⟩
  · obtain ⟨g, hx, rfl⟩ := exec_packetRow row
    rw [hx s, dispatch_next h hc hk ht]
    exact ⟨fun hd => congrArg _ (if_neg (by simp [packetLate_false hd])), fun hn hd => congrArg _ (if_pos (packetLate_true hn hd))⟩
  · obtain ⟨g, hx, -⟩ := exec_packetRow row
    rw [hx s, dispatch_otherType hq hp ht]
  · have h := capFits_permits ha hk hc
    simp only [Cap.permits, Bool.and_eq_true, decide_eq_true_eq] at h
    obtain ⟨⟨valid, above, below⟩, allowed⟩ := h
    exact ⟨valid, above, below, allowed⟩

end Sys2Proof.Machine
end

section
/-! Registers of queues and rings, stolen queues, and windows of children (R343, R354, R357, R362 to R364). -/
namespace Sys2Proof.Machine
open Sys2Proof.Laws Sys2Proof.Claims

section Rings
variable {s : State} {id y : Nat} {v w : W64} {r : Ring} {x : Queue} {f : Ring → Ring}

/-- A change to one ring is seen under its identifier alone. -/
theorem ring?_modRing_same (hr : s.ring? id = some r) (hf : ∀ r, (f r).id = r.id) : (s.modRing id f).ring? id = some (f r) := by
  have named : r.id = id := by simpa using List.find?_some hr
  have kept : ((fun q : Ring => decide (q.id = id)) ∘ fun q => if q.id = id then f q else q) = fun q => decide (q.id = id) := by
    funext q
    by_cases h : q.id = id <;> simp [h, hf]
  rw [State.ring?, State.modRing, List.find?_map, kept]
  exact (congrArg _ hr).trans (by simp [named])

theorem ring?_modRing_other (hy : y ≠ id) (hf : ∀ r, (f r).id = r.id) : (s.modRing id f).ring? y = s.ring? y := by
  have kept : ((fun q : Ring => decide (q.id = y)) ∘ fun q => if q.id = id then f q else q) = fun q => decide (q.id = y) := by
    funext q
    by_cases h : q.id = id <;> simp [h, hf]
  rw [State.ring?, State.modRing, List.find?_map, kept]
  change Option.map _ (s.ring? y) = _
  cases hr : s.ring? y with
  | none => rfl
  | some q =>
    have named : q.id = y := by simpa using List.find?_some hr
    simp [named, hy]

/-- A doorbell of a queue in service (R343). -/
theorem doorbell_active (hq : s.queue? id = some x) (ha : x.st = .active) : s.doorbell id w.toNat
    = if x.tail ≤ w.toNat ∧ w.toNat - x.head ≤ 2 ^ x.logn then s.modQueue id (fun x => { x with tail := w.toNat, seen := addAll x.seen s.hostSeen })
      else { (inWork (s.modQueue id (fun x => { x with st := .overrun })) x.seen).complete x.ctxid x.err (complRecord w.toNat x.tail 0 x.qid 0 0 7) with
        actor := s.actor } := by
  simp only [State.doorbell, hq, ha, ne_eq, not_true_eq_false, if_false]
  rfl

theorem doorbell_stays (hq : s.queue? id = some x) (ha : x.st ≠ .active) : s.doorbell id w.toNat = s := by
  simp only [State.doorbell, hq, ha, ne_eq, not_false_eq_true, if_true]

/-- Nothing answers while the register pages do not (R423). -/
theorem ite_bar2 {t : State} (h : s.bar2 = true) : (if s.bar2 then t else s) = t := if_pos h

theorem ite_noBar2 {t : State} (h : s.bar2 = false) : (if s.bar2 then t else s) = s := if_neg (by simp [h])

/-- The timer of a ring sends its interrupt once its time has passed (R364). -/
theorem ringTimer_due (hr : s.ring? id = some r) (hp : r.pend ≠ 0) (ht : r.time ≠ 0) (hd : r.first + r.time ≤ s.dtime) :
    s.ringTimer id = (s.irq r.vec).modRing id (fun r => { r with pend := 0 }) := by
  simp only [State.ringTimer, hr, hp, ht, hd, State.ringIrq, ne_eq, not_false_eq_true, and_self, if_true]

theorem ringTimer_waits (hr : s.ring? id = some r) (h : r.pend = 0 ∨ r.time = 0 ∨ s.dtime < r.first + r.time) : s.ringTimer id = s := by
  simp only [State.ringTimer, hr]
  exact if_neg fun ⟨hp, ht, hd⟩ => h.elim hp (·.elim ht (Nat.not_lt.2 hd))

end Rings

/-- Registers of queues and rings (R343, R362 to R364). -/
theorem hostRegistersOfQueuesAndRings : HostRegistersOfQueuesAndRings := by
  refine ⟨fun s q w x hb hq ha => congrArg Host.Outcome.next ((ite_bar2 hb).trans (doorbell_active hq ha)), fun s q w x hq ha => congrArg Host.Outcome.next ?_,
    fun s id v r hb hr => ⟨_, congrArg Host.Outcome.next (ite_bar2 hb), rfl, ?_, fun x hx => ring?_modRing_other hx fun r => ?_⟩,
    fun s id r hb hr => ⟨_, congrArg Host.Outcome.next (ite_bar2 hb), rfl, ring?_modRing_same hr fun _ => rfl,
      fun x hx => ring?_modRing_other hx fun _ => rfl⟩,
    fun s id r hr hp ht hd => ⟨_, congrArg Host.Outcome.next (ringTimer_due hr hp ht hd), rfl, ring?_modRing_same (s := s.irq r.vec) hr fun _ => rfl⟩,
    fun s id r hr h => congrArg Host.Outcome.next (ringTimer_waits hr h),
    fun s q w hb => ⟨congrArg Host.Outcome.next (ite_noBar2 hb), congrArg Host.Outcome.next (ite_noBar2 hb), congrArg Host.Outcome.next (ite_noBar2 hb)⟩⟩
  · rw [doorbell_stays hq ha, ite_self]
  · exact ring?_modRing_same hr fun r => by split <;> rfl
  · split <;> rfl

section Thieves
variable {s : State} {die q p win : Nat} {x : Queue} {d : Die} {w : AggWin}

/-- An idle die asks for a queue, where the other's mailbox has room (R354). -/
theorem stealRequest_idle (hd : s.dies[1 - die]? = some d) (hs : s.serves die = true) (hr : s.runListsEmpty die = true) (hf : s.freeCore die = true) :
    s.stealRequest die = if d.steals < 64 then s.modDie (1 - die) (fun d => { d with steals := d.steals + 1 }) else s := by
  simp only [State.stealRequest, hd, hs, hr, hf, Bool.and_self, Bool.true_and, decide_eq_true_eq]

theorem stealRequest_busy (h : s.runListsEmpty die = false) : s.stealRequest die = s := by
  simp only [State.stealRequest, h, Bool.and_false, Bool.false_and, Bool.false_eq_true, if_false]
  split <;> rfl

/-- A packet that no thief may serve (R354). -/
theorem stealable_false (h : bits p 7 0 ≠ 1 ∨ bits p 245 244 ≠ 0) : stealable p = false :=
  decide_eq_false fun ⟨ht, hd⟩ => h.elim (· ht) (· hd)

/-- A queue is handed over once its dispatch has ended, if its next packet is one that a thief may serve (R354). -/
theorem handover_goes (hq : s.queue? q = some x) (hd : s.dies[qHome q]? = some d) (hn : x.stolen = false) (hm : 0 < d.steals)
    (hs : s.serves (qHome q) = true) (hl : x.listed = true) (he : s.dispatchEnded q = true) (hp : s.packetOf x = some p) (hk : stealable p = true) :
    s.handover q = (s.modQueue q (fun x => { x with stolen := true })).modDie (qHome q) (fun d => { d with steals := d.steals - 1 }) := by
  simp only [State.handover, hq, hd, hn, hm, hs, hl, he, hp, hk, Bool.not_false, decide_true, Bool.and_self, if_true]

theorem handover_stays (hq : s.queue? q = some x) (hp : s.packetOf x = some p) (hk : stealable p = false) : s.handover q = s := by
  rw [State.handover, hq]
  cases s.dies[qHome q]? with
  | none => rfl
  | some d => simp only [hp, hk, Bool.and_false, Bool.false_eq_true, if_false]

/-- A stolen queue goes back once nothing more of it may be served there (R354). -/
theorem giveBack_goes (hq : s.queue? q = some x) (hx : x.stolen = true) (he : s.dispatchEnded q = true)
    (h : x.listed = false ∨ ∃ p, s.packetOf x = some p ∧ stealable p = false) :
    s.giveBack q = s.modQueue q (fun x => { x with stolen := false }) := by
  simp only [State.giveBack, hq, hx, he, Bool.and_self, Bool.true_and]
  refine if_pos ?_
  rcases h with h | ⟨p, hp, hk⟩
  · rw [h]; rfl
  · simp only [hp, hk, Bool.not_false, Bool.or_true]

/-- A window closes 40 ns after it opened, and its grid joins the device queue (R357). -/
theorem windowClose_due (hd : s.dies[die]? = some d) (hw : d.aggs[win]? = some w) (h : w.opened + 40 ≤ s.dtime) :
    ∃ t, exec (.aggregatorWindowClose die win) s = .next t ∧ t.dies[die]? = some { d with aggs := d.aggs.eraseIdx win, devq := d.devq ++ [w] } := by
  refine ⟨_, rfl, modAt_get.trans ?_⟩
  simp only [if_true, hd, Option.map_some, hw, h, Die.closeWin]

theorem windowClose_early (hd : s.dies[die]? = some d) (hw : d.aggs[win]? = some w) (h : s.dtime < w.opened + 40) :
    ∃ t, exec (.aggregatorWindowClose die win) s = .next t ∧ t.dies[die]? = some d := by
  refine ⟨_, rfl, modAt_get.trans ?_⟩
  simp only [if_true, hd, Option.map_some, hw, Nat.not_le.2 h, if_false]

end Thieves

/-- Stealing and windows (R354, R357). -/
theorem queuesAreStolenAndWindowsClose : QueuesAreStolenAndWindowsClose :=
  ⟨fun _ _ _ hd hs hr hf => congrArg Host.Outcome.next (stealRequest_idle hd hs hr hf), fun _ _ h => congrArg Host.Outcome.next (stealRequest_busy h),
    fun _ _ _ _ _ hq hd hn hm hs hl he hp ht hk => congrArg Host.Outcome.next (handover_goes hq hd hn hm hs hl he hp (decide_eq_true ⟨ht, hk⟩)),
    fun _ _ _ _ hq hp hk => congrArg Host.Outcome.next (handover_stays hq hp (stealable_false hk)),
    fun _ _ _ hq hx he h => congrArg Host.Outcome.next (giveBack_goes hq hx he (h.imp_right fun ⟨p, hp, hk⟩ => ⟨p, hp, stealable_false hk⟩)),
    fun _ _ _ _ _ hd hw h => windowClose_due hd hw h, fun _ _ _ _ _ hd hw h => windowClose_early hd hw h⟩

/-- Settles O38: the registers by the queue or ring that they belong to, stealing and windows by what each step checks. -/
theorem hostRegistersStealingAndWindows : Obligations.HostRegistersStealingAndWindows :=
  ⟨hostRegistersOfQueuesAndRings, queuesAreStolenAndWindowsClose⟩

end Sys2Proof.Machine
end

section
/-! Selection instructions of the control warps and the online soft-maximum (R316, R334 to R336): their checks pass, in order. -/
namespace Sys2Proof.Machine
open Sys2Proof.Laws Sys2Proof.Claims

/-- The checks on the registers that an instruction names and the lanes that it reads. -/
theorem namedChecks_ok {s : State} {e : Env} {v : VEnv} {rs : List Nat} {xs : List Src} (hv : venv s e = .ok v) (hr : InRange e rs)
    (hx : Readable v.w xs) : venvW s e = .ok v ∧ regsOk e.k rs = .ok () ∧ checkV v 0 xs = .ok () :=
  ⟨(venv_ok.1 hv).1, regsOk_ok hr, checkV_ok (venv_ok.1 hv).2 hx⟩

/-- Settles O4: each instruction by its checks in order, which pass; then its body is the statement's. -/
theorem selectionInstructionsCompute : Obligations.SelectionInstructionsCompute := by
  refine ⟨fun o v s e hi ⟨hv, hr, hx⟩ => run_ready hi ?_, fun o v s e hi ⟨hv, hr, hx, hf⟩ => run_ready hi ?_,
    fun o v s e hi ⟨hv, hr, hx, hf⟩ => run_ready hi ?_, fun o v s e hi ⟨hv, hr, hx, hf⟩ => run_ready hi ?_,
    fun o v s e hi ⟨hv, hr, hx, hf⟩ => run_ready hi ?_⟩ <;> obtain ⟨env, regs, checks⟩ := namedChecks_ok hv hr hx
  case refine_1 => simp only [env, regs, checks, exe_ok_bind, exe_pure]
  case refine_2 => simp only [env, regs, checks, dstFree_ok hf, exe_ok_bind, exe_pure]
  case refine_3 => simp only [env, regs, checks, dstFree_ok hf, exe_ok_bind, exe_pure]
  case refine_4 =>
    simp only [env, regs, checks, dstFree_ok hf, exe_ok_bind, exe_pure]
    rfl
  case refine_5 => simp only [env, regs, checks, dstFree_ok hf, exe_ok_bind, exe_pure]

end Sys2Proof.Machine
end

section
/-! KVGATHER, KVAPPEND and PGREQ at issue (R300, R309 to R314): what each does once its operands have been read. -/
namespace Sys2Proof.Machine
open Sys2Proof.Laws Sys2Proof.Claims

section Gathers
variable {s : State} {e : Env} {o : OpX3} {x : KvArgs} {w : Warp} {p : PgWait} {l : Nat × Nat × Nat}

/-- A gather as it is issued, over the lanes `ls` (R311). -/
def newGather (s : State) (x : KvArgs) (ls : List (Nat × Nat × Nat)) : KvGather :=
  ⟨sqDie x.seq, s.pool (sqDie x.seq) x.pool, alignDown x.dest 16, x.tr, x.kv, x.head, x.pos, x.bar, ls, [], [], [], none⟩

/-- A gather is issued: its holds, statuses, lines and expectation, then the operation, if it delivers to any line (R311). -/
def gatherStarts (s : State) (e : Env) (o : OpX3) (x : KvArgs) (ls : List (Nat × Nat × Nat)) : State :=
  let g := newGather s x ls
  let t := ((kgFrames ls).eraseDups.foldl (fun s f => s.touchFrame g.die f) (s.pgDrop e.who e.pc)).modWarp e.ci e.wi (fun w =>
    w.setLanes o.a.toNat (s.kvMask e) (fun i => Lane.full (match g.lane? i with | some r => BitVec.ofNat 32 r.1 | none => 2) false))
  let u := (t.modCrew e.ci (fun k => k.armLines (kgLines e.k g))).kvBarUpd e.ci x.bar (.expect (kgOffsets g.pool x.tr (ls.map Prod.fst)).length)
  if kgLines e.k g = [] then u.dropHolds g.die (kgFrames ls) else u.addOp { e.newOp s e.m0 with eng := some (.kg { g with left := kgLines e.k g }) }

/-- What KVGATHER does once its operands have been read: it waits for a page, ends a wait that has run out, waits for room, or is issued (R310, R311). -/
def gatherIssue (s : State) (e : Env) (o : OpX3) (x : KvArgs) : State :=
  let die := sqDie x.seq
  let ls := kgResolve s e x (s.kvMask e)
  match ls.find? (fun l => decide (l.2.1 = 0) && s.awaited die l.2.2), s.pgLate? e with
  | some l, _ => (s.fetchAll e.ci die (kgFrames ls)).pgStand e ((s.fetchAll e.ci die (kgFrames ls)).pgNeedOf 0 l.1 die l.2.2)
  | none, some p => s.pgExpire e 0 p.lane p.frame
  | none, none =>
    if decide (s.cpCount e.k < 64) && e.k.canArm (kgLines e.k (newGather s x ls)) then (gatherStarts s e o x ls).jump e e.npc else s.pgPause e

theorem execKvgather_issues (hi : Issues s (.kvgather o) e) (ha : GatherArgs s e o x w) :
    exec (.kvgather o) s = .next ((gatherIssue s e o x).ctxSettle e.who) := by
  obtain ⟨hb, hc, args, range, turned, hw, free⟩ := ha
  have aligned : (!(x.tr && poolScaled (s.pool (sqDie x.seq) x.pool)
      && (decide (poolP (s.pool (sqDie x.seq) x.pool) < 32) || decide (x.pos % 32 ≠ 0)))) = true := by
    cases ht : x.tr
    · rfl
    · cases hs : poolScaled (s.pool (sqDie x.seq) x.pool)
      · rfl
      · obtain ⟨size, start⟩ := turned ht hs
        simp [Nat.not_lt.2 size, start]
  refine runCtl_ready hi ?_
  simp only [rdSw_ok hb, rdSw_ok hc, args, need_ok aligned, regsOk_ok range, sOk_ok hb, sOk_ok hc, theWarp_ok hw, dstFree_ok free, exe_ok_bind,
    exe_pure, gatherIssue]
  cases (kgResolve s e x (s.kvMask e)).find? (fun l => decide (l.2.1 = 0) && s.awaited (sqDie x.seq) l.2.2) with
  | some l => rfl
  | none =>
    cases s.pgLate? e with
    | some p => rfl
    | none =>
      cases room : decide (s.cpCount e.k < 64) && e.k.canArm (kgLines e.k (newGather s x (kgResolve s e x (s.kvMask e)))) with
      | false => exact if_pos (congrArg not room)
      | true => exact if_neg (Bool.not_eq_true _ ▸ congrArg not room)

/-- No lane waits for a page: none of those that resolved to one that is on its way or away. -/
theorem find?_awaited (h : ∀ l ∈ kgResolve s e x (s.kvMask e), l.2.1 = 0 → s.awaited (sqDie x.seq) l.2.2 = false) :
    (kgResolve s e x (s.kvMask e)).find? (fun l => decide (l.2.1 = 0) && s.awaited (sqDie x.seq) l.2.2) = none := by
  simp only [List.find?_eq_none, Bool.and_eq_true, decide_eq_true_eq, not_and, Bool.not_eq_true]
  exact h

theorem gatherIssue_awaits (h : (kgResolve s e x (s.kvMask e)).find? (fun l => decide (l.2.1 = 0) && s.awaited (sqDie x.seq) l.2.2) = some l) :
    gatherIssue s e o x = (s.fetchAll e.ci (sqDie x.seq) (kgFrames (kgResolve s e x (s.kvMask e)))).pgStand e
      ((s.fetchAll e.ci (sqDie x.seq) (kgFrames (kgResolve s e x (s.kvMask e)))).pgNeedOf 0 l.1 (sqDie x.seq) l.2.2) := by
  simp only [gatherIssue, h]

theorem gatherIssue_late (h : ∀ l ∈ kgResolve s e x (s.kvMask e), l.2.1 = 0 → s.awaited (sqDie x.seq) l.2.2 = false) (hp : s.pgLate? e = some p) :
    gatherIssue s e o x = s.pgExpire e 0 p.lane p.frame := by
  simp only [gatherIssue, find?_awaited h, hp]

theorem gatherIssue_here (h : ∀ l ∈ kgResolve s e x (s.kvMask e), l.2.1 = 0 → s.awaited (sqDie x.seq) l.2.2 = false) (hp : s.pgLate? e = none) :
    gatherIssue s e o x = if decide (s.cpCount e.k < 64) && e.k.canArm (kgLines e.k (newGather s x (kgResolve s e x (s.kvMask e))))
      then (gatherStarts s e o x (kgResolve s e x (s.kvMask e))).jump e e.npc else s.pgPause e := by
  simp only [gatherIssue, find?_awaited h, hp]

end Gathers

section Appends
variable {s u : State} {e : Env} {o : OpX3} {x : KvArgs} {w : Warp} {p : PgWait} {f : Nat}

/-- A row is quantized and its KVAPPEND issued, into frame `f` of the state `u` in which the page has been made ready (R313). -/
def appendStarts (s u : State) (e : Env) (o : OpX3) (x : KvArgs) (w : Warp) (f : Nat) : State :=
  let die := sqDie x.seq
  let q := s.pool die x.pool
  let r := rowPage s e x
  let mode := (s.modesOf e).1.toNat
  let codes := kaCodes s q (s.frBase die r.2) x (kaMax w o.a.toNat mode) (decide (r.1 = 1))
  let fixes := if poolScaled q then ((List.range (poolNb q)).filter (fun i => (codes.getD i (0, false)).2)).map (fun i =>
    (poolScaleAt q x.head x.kv i, (codes.getD i (0, false)).1)) else []
  let es := kaRow q w o.a.toNat mode codes
  let cow := decide (r.1 = 0 ∧ f ≠ r.2)
  let t := (u.pgDrop e.who e.pc).touchFrame die f
  let y := if cow then t else fixes.foldl (fun s p => s.wr (s.frBase die f + p.1) 1 p.2) t
  (y.kvBarUpd e.ci x.bar (.expect (poolRb q))).addOp { e.newOp s e.m0 with eng := some (.ka
    { die := die, seq := x.seq, frame := f, addr := poolRow q x.head x.kv (x.pos % poolP q), off := x.pos % poolP q, bar := x.bar
      row := natLe (poolRb q) (Machine.packElems (poolW q) (es.map Prod.fst)), clip := es.any (fun p => p.2), fix := if cow then fixes else [], tried := none }) }

/-- A row outside its sequence settles with FAULT (R313). -/
def appendFails (s : State) (e : Env) (x : KvArgs) : State :=
  let n := poolRb (s.pool (sqDie x.seq) x.pool)
  (((s.pgDrop e.who e.pc).kvBarUpd e.ci x.bar (.expect n)).kvBarUpd e.ci x.bar (.settle n 66)).stepOpDone e.ci (some 1)

/-- What KVAPPEND does once its row has been read: it waits for its page, ends a wait that has run out, waits for room or a frame, settles its
row, or is issued (R310, R313). -/
def appendIssue (s : State) (e : Env) (o : OpX3) (x : KvArgs) (w : Warp) : State :=
  let die := sqDie x.seq
  let r := rowPage s e x
  if r.1 = 0 ∧ s.awaited die r.2 then (s.fetchAll e.ci die [r.2]).pgStand e ((s.fetchAll e.ci die [r.2]).pgNeedOf 1 0 die r.2)
  else
    match s.pgLate? e with
    | some p => s.pgExpire e 1 0 p.frame
    | none =>
      if 64 ≤ s.cpCount e.k then s.pgPause e
      else if 2 ≤ r.1 then (appendFails s e x).jump e e.npc
      else
        match kaPage s die x r with
        | none => s.pgStand e ⟨1, 0, noFrame, die, (s.pe die).reserve + 1⟩
        | some (f, u) => (appendStarts s u e o x w f).jump e e.npc

theorem execKvappend_issues (hi : Issues s (.kvappend o) e) (ha : AppendArgs s e o x w) :
    exec (.kvappend o) s = .next ((appendIssue s e o x w).ctxSettle e.who) := by
  obtain ⟨hb, hc, args, hw, range, read⟩ := ha
  refine runCtl_ready hi ?_
  simp only [rdSw_ok hb, rdSw_ok hc, args, regsOk_ok range, sOk_ok hb, sOk_ok hc, theWarp_ok hw, emptyCheck_ok read, pendCheck_ok read,
    poisonCheck_ok read, exe_ok_bind, exe_pure]
  by_cases away : (rowPage s e x).1 = 0 ∧ s.awaited (sqDie x.seq) (rowPage s e x).2 = true
  · exact (if_pos away).trans (congrArg Except.ok (if_pos away).symm)
  refine (if_neg away).trans (Eq.trans ?_ (congrArg Except.ok (if_neg away).symm))
  cases s.pgLate? e with
  | some p => rfl
  | none =>
    by_cases full : 64 ≤ s.cpCount e.k
    · exact (if_pos full).trans (congrArg Except.ok (if_pos full).symm)
    refine (if_neg full).trans (Eq.trans ?_ (congrArg Except.ok (if_neg full).symm))
    by_cases outside : 2 ≤ (rowPage s e x).1
    · exact (if_pos outside).trans (congrArg Except.ok (if_pos outside).symm)
    refine (if_neg outside).trans (Eq.trans ?_ (congrArg Except.ok (if_neg outside).symm))
    change _ = Except.ok (match kaPage s (sqDie x.seq) x (s.resolve e.k.ctxid x.seq x.pool x.pos) with | none => _ | some (f, u) => _)
    cases kaPage s (sqDie x.seq) x (s.resolve e.k.ctxid x.seq x.pool x.pos) <;> rfl

variable (ha : (rowPage s e x).1 = 0 → s.awaited (sqDie x.seq) (rowPage s e x).2 = false)

theorem appendIssue_awaits (hr : (rowPage s e x).1 = 0) (hf : s.awaited (sqDie x.seq) (rowPage s e x).2 = true) :
    appendIssue s e o x w = (s.fetchAll e.ci (sqDie x.seq) [(rowPage s e x).2]).pgStand e
      ((s.fetchAll e.ci (sqDie x.seq) [(rowPage s e x).2]).pgNeedOf 1 0 (sqDie x.seq) (rowPage s e x).2) := if_pos ⟨hr, hf⟩

include ha

theorem appendIssue_late (hp : s.pgLate? e = some p) : appendIssue s e o x w = s.pgExpire e 1 0 p.frame := by
  refine (if_neg fun ⟨hr, hf⟩ => Bool.false_ne_true ((ha hr).symm.trans hf)).trans ?_
  simp only [hp]

theorem appendIssue_here (hp : s.pgLate? e = none) : appendIssue s e o x w =
    if 64 ≤ s.cpCount e.k then s.pgPause e
    else if 2 ≤ (rowPage s e x).1 then (appendFails s e x).jump e e.npc
    else
      match kaPage s (sqDie x.seq) x (rowPage s e x) with
      | none => s.pgStand e ⟨1, 0, noFrame, sqDie x.seq, (s.pe (sqDie x.seq)).reserve + 1⟩
      | some (f, u) => (appendStarts s u e o x w f).jump e e.npc := by
  refine (if_neg fun ⟨hr, hf⟩ => Bool.false_ne_true ((ha hr).symm.trans hf)).trans ?_
  simp only [hp]

end Appends

/-- KVGATHER and KVAPPEND (R300, R309 to R311, R313). -/
theorem kvInstructionsIssue : KvInstructionsIssue := by
  refine ⟨fun o x w ls s e hi h => ?_, fun o x w s e hi h => ?_, fun o x w f u s e hi h => ?_⟩
  · obtain ⟨hb, hc, args, range, turned, hw, free, rfl, here, notLate, room, lines, some_⟩ := h
    rw [execKvgather_issues hi ⟨hb, hc, args, range, turned, hw, free⟩, gatherIssue_here here notLate]
    refine congrArg (fun t : State => Host.Outcome.next (t.ctxSettle e.who)) ((if_pos (Bool.and_eq_true_iff.2 ⟨decide_eq_true room, lines⟩)).trans ?_)
    exact congrArg (fun t : State => t.jump e e.npc) (if_neg some_)
  · obtain ⟨hb, hc, args, hw, range, read, beyond, notLate, room⟩ := h
    have outside : 2 ≤ (rowPage s e x).1 := beyond
    rw [execKvappend_issues hi ⟨hb, hc, args, hw, range, read⟩, appendIssue_here (fun hr => by omega) notLate, if_neg (Nat.not_le.2 room),
      if_pos outside]
    rfl
  · obtain ⟨hb, hc, args, hw, range, read, below, here, made, notLate, room⟩ := h
    have inside : ¬2 ≤ (rowPage s e x).1 := Nat.not_le.2 below
    have page : kaPage s (sqDie x.seq) x (rowPage s e x) = some (f, u) := made
    rw [execKvappend_issues hi ⟨hb, hc, args, hw, range, read⟩, appendIssue_here here notLate, if_neg (Nat.not_le.2 room), if_neg inside, page]
    rfl

section Waits
variable {s : State} {e : Env} {x : PgNeed} {p : PgWait}

/-- A wait that has run out is the issuer's own, at its instruction, and its limit has passed (R310). -/
theorem pgLate?_passed (h : s.pgLate? e = some p) : p ∈ s.pgWaits ∧ p.who = e.who ∧ p.pc = e.pc ∧ p.paused = false ∧ e.k.pgwait ≠ 0
    ∧ p.since + 1000 * e.k.pgwait.toNat ≤ s.dtime := by
  have passed := List.find?_some h
  simp only [State.pgOver, Bool.and_eq_true, decide_eq_true_eq, Bool.not_eq_true'] at passed
  obtain ⟨⟨⟨own, here⟩, counts⟩, limit, due⟩ := passed
  exact ⟨List.mem_of_find?_eq_some h, own, here, counts, limit, due⟩

theorem pgStand_new (h : ∀ p ∈ s.pgWaits, ¬(p.who = e.who ∧ p.pc = e.pc)) :
    s.pgStand e x = { s with pgWaits := s.pgWaits.filter s.pgLive ++ [⟨e.who, e.pc, s.dtime, x.kind, x.lane, x.frame, x.die, x.need, false⟩] } := by
  have none_ : s.pgWaits.find? (fun p => decide (p.who = e.who ∧ p.pc = e.pc)) = none := by
    simp only [List.find?_eq_none, decide_eq_true_eq]
    exact h
  simp only [State.pgStand, none_]

variable (hp : s.pgWaits.find? (fun p => decide (p.who = e.who ∧ p.pc = e.pc)) = some p) (hc : p.paused = false)
include hp hc

/-- A wait that counts goes on until its limit passes (R310). -/
theorem pgStand_old : s.pgStand e x = if s.pgOver e.k p.since then s.pgExpire e x.kind x.lane x.frame
    else { s with pgWaits := s.pgWaits.map (fun q =>
      if q.who = e.who ∧ q.pc = e.pc then ⟨e.who, e.pc, p.since, x.kind, x.lane, x.frame, x.die, x.need, false⟩ else q) } := by
  simp only [State.pgStand, hp, hc, Bool.false_eq_true, if_false]

theorem pgStand_goesOn (h : e.k.pgwait = 0 ∨ s.dtime < p.since + 1000 * e.k.pgwait.toNat) :
    s.pgStand e x = { s with pgWaits := s.pgWaits.map (fun q =>
      if q.who = e.who ∧ q.pc = e.pc then ⟨e.who, e.pc, p.since, x.kind, x.lane, x.frame, x.die, x.need, false⟩ else q) } :=
  (pgStand_old hp hc).trans (if_neg fun due => by
    obtain ⟨limit, passed⟩ := of_decide_eq_true due
    exact h.elim limit (Nat.not_lt.2 passed))

theorem pgStand_ends (limit : e.k.pgwait ≠ 0) (h : p.since + 1000 * e.k.pgwait.toNat ≤ s.dtime) :
    s.pgStand e x = s.pgExpire e x.kind x.lane x.frame := (pgStand_old hp hc).trans (if_pos (decide_eq_true ⟨limit, h⟩))

end Waits

/-- What a wait that has run out does: PGREQ answers 7, the others trap (R310). -/
theorem pgExpire_answers {s : State} {e : Env} {kind lane frame : Nat} (h : kind = 2) :
    s.pgExpire e kind lane frame = ((s.pgDrop e.who e.pc).setS e.who lane 7).jump e (e.pc + 4) := if_pos h

theorem pgExpire_traps {s : State} {e : Env} {kind lane frame : Nat} (h : kind ≠ 2) :
    s.pgExpire e kind lane frame = (s.pgDrop e.who e.pc).raise e (trapWord 10 (BitVec.ofNat 64 (kind * 2 ^ 56 + lane * 2 ^ 40 + frame % 2 ^ 32))) :=
  if_neg h

/-- Waits for pages, frames and room (R170, R310). -/
theorem pagesAreAwaited : PagesAreAwaited := by
  refine ⟨fun o x w l s e hi ⟨ha, hl⟩ => ?_, fun o x w s e hi ⟨ha, here, notLate, full⟩ => ?_, fun o x w s e hi ⟨ha, hr, away⟩ => ?_,
    fun o x w s e hi ⟨ha, here, notLate, full⟩ => ?_, fun o x w s e hi ⟨ha, inside, here, notLate, room, page⟩ => ?_,
    fun o x w p s e hi ⟨ha, here, late⟩ => ?_, fun o x w p s e hi ⟨ha, here, late⟩ => ?_, fun s e p h => pgLate?_passed h,
    fun s e x h => pgStand_new h, fun s e x p hp hc => ⟨pgStand_goesOn hp hc, fun limit h hk => (pgStand_ends hp hc limit h).trans (pgExpire_traps hk),
      fun limit h hk => (pgStand_ends hp hc limit h).trans (pgExpire_answers hk)⟩⟩
  · rw [execKvgather_issues hi ha, gatherIssue_awaits hl]
  · have noRoom : ¬(decide (s.cpCount e.k < 64) && e.k.canArm (kgLines e.k (newGather s x (kgResolve s e x (s.kvMask e))))) = true := fun h => by
      obtain ⟨room, lines⟩ := Bool.and_eq_true_iff.1 h
      exact full.elim (Nat.not_le.2 (of_decide_eq_true room)) fun none_ => Bool.false_ne_true (none_.symm.trans lines)
    rw [execKvgather_issues hi ha, gatherIssue_here here notLate, if_neg noRoom]
  · rw [execKvappend_issues hi ha, appendIssue_awaits hr away]
  · rw [execKvappend_issues hi ha, appendIssue_here here notLate, if_pos full]
  · rw [execKvappend_issues hi ha, appendIssue_here here notLate, if_neg (Nat.not_le.2 room), if_neg (Nat.not_le.2 inside), page]
  · rw [execKvgather_issues hi ha, gatherIssue_late here late, pgExpire_traps (by decide), Nat.zero_mul, Nat.zero_add]
  · rw [execKvappend_issues hi ha, appendIssue_late here late, pgExpire_traps (by decide), Nat.zero_mul, Nat.one_mul, Nat.add_zero]

section Requests
variable {s : State} {e : Env} {i : Instr} {o : OpX3} {op : Option Nat} {st f : Nat} {fs l : List Nat} {p : PgWait}

/-- What PGREQ does once its operands have been read: a status, a wait, an end of a wait that has run out, or the command (R310, R314). -/
def pgreqIssue (s : State) (e : Env) (o : OpX3) (x : PgArgs) : State :=
  match s.pick (s.pgStatuses e.k.ctxid x) with
  | some st => (({ s.pgDrop e.who e.pc with free := s.free + 1 } : State).setS e.who o.a.toNat (BitVec.ofNat 64 st)).jump e e.npc
  | none =>
    let t := s.pgFetch e.ci x
    match t.pgNeeds x, s.pgLate? e with
    | f :: _, _ => t.pgStand e (t.pgNeedFor x o.a.toNat f)
    | [], some _ => s.pgExpire e 2 o.a.toNat 0
    | [], none => (((t.pgDrop e.who e.pc).pgAct x).setS e.who o.a.toNat 0).jump e e.npc

/-- Each form of PGREQ is the command that it names. -/
theorem exec_pageRow (h : PageRow i o op) : exec i s = pgreq (hdrOf i) s o op := by
  cases h <;> rfl

theorem pageRow_issues (h : PageRow i o op) (hi : Issues s i e) (hr : TwoAndFree s e o) :
    exec i s = .next ((pgreqIssue s e o (pgArgs (s.sreg e.who o.b.toNat) (s.sreg e.who o.c.toNat) op)).ctxSettle e.who) := by
  obtain ⟨hb, hc, ha⟩ := hr
  refine (exec_pageRow h).trans (runCtl_ready hi ?_)
  simp only [rdS_ok hb, rdS_ok hc, freeS_ok ha, exe_ok_bind, exe_pure]
  generalize pgArgs (s.sreg e.who o.b.toNat) (s.sreg e.who o.c.toNat) op = x
  unfold pgreqIssue
  cases s.pick (s.pgStatuses e.k.ctxid x) with
  | some st => rfl
  | none => dsimp only; cases (s.pgFetch e.ci x).pgNeeds x <;> cases s.pgLate? e <;> rfl

/-- A free choice is one of the list, where there is one. -/
theorem pick_nil : s.pick [] = none := rfl

theorem pick_one : s.pick [st] = some st := by simp [State.pick, Nat.mod_one]

theorem pick_mem (h : l ≠ []) : ∃ st ∈ l, s.pick l = some st :=
  have lt : (Config.free s.free).toNat % l.length < l.length := Nat.mod_lt _ (List.length_pos_iff.2 h)
  ⟨_, List.getElem_mem lt, List.getElem?_eq_getElem lt⟩

variable {x : PgArgs}

/-- A command that needs no page fetches none (R314). -/
theorem pgFetch_none (h : s.pgNeeds x = []) : s.pgFetch e.ci x = s := by
  simp only [State.pgFetch, h, List.eraseDups_nil, List.length_nil, Nat.not_lt_zero, and_false, if_false]
  rfl

theorem pgreqIssue_status (h : s.pick (s.pgStatuses e.k.ctxid x) = some st) : pgreqIssue s e o x
    = (({ s.pgDrop e.who e.pc with free := s.free + 1 } : State).setS e.who o.a.toNat (BitVec.ofNat 64 st)).jump e e.npc := by
  simp only [pgreqIssue, h]

theorem pgreqIssue_waits (h : s.pgStatuses e.k.ctxid x = []) (hn : (s.pgFetch e.ci x).pgNeeds x = f :: fs) : pgreqIssue s e o x
    = (s.pgFetch e.ci x).pgStand e ((s.pgFetch e.ci x).pgNeedFor x o.a.toNat f) := by
  simp only [pgreqIssue, h, pick_nil, hn]

theorem pgreqIssue_late (h : s.pgStatuses e.k.ctxid x = []) (hn : s.pgNeeds x = []) (hp : s.pgLate? e = some p) : pgreqIssue s e o x
    = ((s.pgDrop e.who e.pc).setS e.who o.a.toNat 7).jump e (e.pc + 4) := by
  simp only [pgreqIssue, h, pick_nil, pgFetch_none hn, hn, hp, pgExpire_answers]

theorem pgreqIssue_acts (h : s.pgStatuses e.k.ctxid x = []) (hn : s.pgNeeds x = []) (hp : s.pgLate? e = none) : pgreqIssue s e o x
    = (((s.pgDrop e.who e.pc).pgAct x).setS e.who o.a.toNat 0).jump e e.npc := by
  simp only [pgreqIssue, h, pick_nil, pgFetch_none hn, hn, hp]

end Requests

/-- PGREQ in each of its forms (R310, R314). -/
theorem pageRequestsAnswer : PageRequestsAnswer := by
  refine ⟨fun i o op h s e hi ⟨hr, hs, hn, hp⟩ => ?_, fun i o op f fs h s e hi ⟨hr, hs, hn⟩ => ?_, fun i o op p h s e hi ⟨hr, hs, hn, hp⟩ => ?_,
    fun i o op st h s e hi ⟨hr, hs⟩ => ?_, fun i o op h s e hi hr hs => ?_⟩
  · rw [pageRow_issues h hi hr, pgreqIssue_acts hs hn hp]
    rfl
  · rw [pageRow_issues h hi hr, pgreqIssue_waits hs hn]
  · rw [pageRow_issues h hi hr, pgreqIssue_late hs hn hp]
  · rw [pageRow_issues h hi hr, pgreqIssue_status ((congrArg s.pick hs).trans pick_one)]
    rfl
  · obtain ⟨st, hm, hp⟩ := pick_mem (s := s) hs
    exact ⟨st, hm, (pageRow_issues h hi hr).trans (congrArg (fun t : State => Host.Outcome.next (t.ctxSettle e.who)) (pgreqIssue_status hp))⟩

/-- Settles O29: each instruction by what it does once its operands have been read, and a wait by whether its limit has passed. -/
theorem pageInstructionsIssue : Obligations.PageInstructionsIssue := ⟨kvInstructionsIssue, pagesAreAwaited, pageRequestsAnswer⟩

end Sys2Proof.Machine
end

section
/-! What schedulers and device queues answer to a thread (R322, R324, R327, R337, R339, R356). -/
namespace Sys2Proof.Machine
open Sys2Proof.Laws Sys2Proof.Claims

variable {s t : State} {e : Env}

/-- A thread waits for its stores before a scheduler's step (R322). -/
theorem storesDone (h : s.storesOut e.who = false) : waitUnless (!(s.storesOut e.who)) = .ok () := waitUnless_ok (by rw [h]; rfl)

/-- A scheduler's return changes what it and its asker know, and nothing else (R322). -/
theorem schedReturn_known {die : Nat} : { t.schedReturn s e die with known := t.known, dies := t.dies, actor := t.actor } = t := by
  simp only [State.schedReturn, State.joined, State.learn]
  split <;> rfl

/-- What SQADM gives back for a block that has been read (R324, R327). -/
def admitAnswer (u s : State) (e : Env) (o : OpX2) (b : Nat) : State :=
  match u.enterSeq e.k.ctxid e.k.die b with
  | .ok (t, id) => (t.schedReturn s e e.k.die).setS e.who o.a.toNat (BitVec.ofNat 64 id)
  | .error st => (u.schedReturn s e e.k.die).setS e.who o.a.toNat (BitVec.ofInt 64 st)

theorem execSqadm_answers {o : OpX2} {b : Nat} (hi : Issues s (.sqadm o) e) (hb : SReady s e o.b.toNat) (ha : SFree s e o.a.toNat)
    (hs : s.storesOut e.who = false) (hr : s.blockAt e (s.sreg e.who o.b.toNat).toNat 128 = (false, some b)) :
    exec (.sqadm o) s = .next (after e (admitAnswer (s.schedAsk e e.k.die) s e o b)) := by
  refine run_ready hi ?_
  simp only [rdS_ok hb, freeS_ok ha, storesDone hs, hr, waitUnless_ok, Bool.not_false, exe_ok_bind, exe_pure, admitAnswer]
  cases (s.schedAsk e e.k.die).enterSeq e.k.ctxid e.k.die b <;> rfl

theorem execSqadm_unreadable {o : OpX2} (hi : Issues s (.sqadm o) e) (hb : SReady s e o.b.toNat) (ha : SFree s e o.a.toNat)
    (hs : s.storesOut e.who = false) (hr : s.blockAt e (s.sreg e.who o.b.toNat).toNat 128 = (false, none)) :
    exec (.sqadm o) s = .next (after e (((s.schedAsk e e.k.die).schedReturn s e e.k.die).setS e.who o.a.toNat (BitVec.ofInt 64 (-5)))) := by
  refine run_ready hi ?_
  simp only [rdS_ok hb, freeS_ok ha, storesDone hs, hr, waitUnless_ok, Bool.not_false, exe_ok_bind, exe_pure]
  rfl

/-- What TOKFB gives back: -4 where a word is too large (R337). -/
theorem execTokfb_answers {o : OpX3} (hi : Issues s (.tokfb o) e) (hr : TwoAndFree s e o) (hs : s.storesOut e.who = false) :
    let seq := (s.sreg e.who o.b.toNat).toNat
    let tok := (s.sreg e.who o.c.toNat).toNat
    let u := s.schedAsk e (sqDie seq)
    let q := if seq < 2 ^ 32 ∧ tok < 2 ^ 32 then u.feedToken seq tok else (u, -4)
    exec (.tokfb o) s = .next (after e ((q.1.schedReturn s e (sqDie seq)).setS e.who o.a.toNat (BitVec.ofInt 64 q.2))) := by
  obtain ⟨hb, hc, ha⟩ := hr
  refine run_ready hi ?_
  simp only [rdS_ok hb, rdS_ok hc, freeS_ok ha, storesDone hs, exe_ok_bind, exe_pure]
  rfl

/-- What SEQRET gives back: -4 where it names no reason (R339). -/
theorem execSeqret_answers {o : OpX3} (hi : Issues s (.seqret o) e) (hr : TwoAndFree s e o) (hs : s.storesOut e.who = false) :
    let seq := (s.sreg e.who o.b.toNat).toNat % 2 ^ 32
    let rsn := (s.sreg e.who o.c.toNat).toNat
    let u := s.schedAsk e (sqDie seq)
    let q := if 1 ≤ rsn ∧ rsn ≤ 6 then u.seqReturn seq rsn else (u, -4)
    exec (.seqret o) s = .next (after e ((q.1.schedReturn s e (sqDie seq)).setS e.who o.a.toNat (BitVec.ofInt 64 q.2))) := by
  obtain ⟨hb, hc, ha⟩ := hr
  refine run_ready hi ?_
  simp only [rdS_ok hb, rdS_ok hc, freeS_ok ha, storesDone hs, exe_ok_bind, exe_pure]
  rfl

/-- What LAUNCH gives back for a packet that has been read, while children may join (R356). -/
theorem execLaunch_answers {o : OpX3} {p : Nat} (hi : Issues s (.launch o) e) (hr : TwoAndFree s e o) (hs : s.storesOut e.who = false)
    (ho : s.olderPending e.who s.nextOp e.m0 true = false) (hp : s.blockAt e (alignDown (s.sreg e.who o.b.toNat).toNat 64) 64 = (false, some p))
    (hk : s.pendingKids e.k.die < 4096) :
    let kid : Kid := ⟨s.sreg e.who o.c.toNat, pkCq p, pkCompl p, pkTag p, s.past e.who s.nextOp e.m0⟩
    exec (.launch o) s = .next (after e (if childOk p
      then (s.modDie e.k.die (fun d => d.addKid (childKey p) e.k.ctxid s.dtime kid)).setS e.who o.a.toNat 0
      else s.setS e.who o.a.toNat (BitVec.ofInt 64 (-3)))) := by
  obtain ⟨hb, hc, ha⟩ := hr
  have performed : (!(s.storesOut e.who) && !(s.olderPending e.who s.nextOp e.m0 true)) = true := by rw [hs, ho]; rfl
  refine run_ready hi ?_
  simp only [rdS_ok hb, rdS_ok hc, freeS_ok ha, waitUnless_ok performed, hp, waitUnless_ok, Bool.not_false, exe_ok_bind, exe_pure,
    State.launchChild, Nat.not_le.2 hk, if_false]
  cases childOk p <;> rfl

/-- Settles O27: each instruction by what it waits for, then by what the scheduler or the device queue answers. -/
theorem schedulerInstructions : Obligations.SchedulerInstructions := by
  refine ⟨fun o b s e hi ⟨hb, ha, hs, hr⟩ => execSqadm_answers hi hb ha hs hr, fun o s e hi ⟨hb, ha, hs, hr⟩ => execSqadm_unreadable hi hb ha hs hr,
    fun o s e hi ⟨hr, hs, hq, ht⟩ => ?_, fun o s e hi ⟨hr, hs, hn⟩ => ?_, fun o s e hi ⟨hr, hs, hl, hu⟩ => ?_, fun o s e hi ⟨hr, hs, hn⟩ => ?_,
    fun t s e die => schedReturn_known, fun s seq tok h => ?_, fun o p s e hi ⟨hr, hs, ho, hp, hk, ok⟩ => ?_,
    fun o p s e hi ⟨hr, hs, ho, hp, hk, bad⟩ => ?_⟩
  · rw [execTokfb_answers hi hr hs, if_pos ⟨hq, ht⟩]
  · rw [execTokfb_answers hi hr hs, if_neg fun ⟨hq, ht⟩ => hn.elim (Nat.not_le.2 hq) (Nat.not_le.2 ht)]
  · rw [execSeqret_answers hi hr hs, if_pos ⟨hl, hu⟩]
  · rw [execSeqret_answers hi hr hs, if_neg fun ⟨hl, hu⟩ => by omega]
  · simp only [State.feedToken, h, State.lostRow]; rfl
  · rw [execLaunch_answers hi hr hs ho hp hk, if_pos ok]
  · rw [execLaunch_answers hi hr hs ho hp hk, if_neg (by rw [bad]; decide)]

end Sys2Proof.Machine
end

section
/-! Batches and iterations: what the steps of a die's scheduler do (R322, R326, R329 to R333, R339). -/
namespace Sys2Proof.Machine
open Sys2Proof.Laws Sys2Proof.Claims

variable {s u : State} {die g : Nat}

/-- A group that cannot form an iteration is left as it is (R329). -/
theorem formBatch_notReady (h : u.groupReady die g = false) : u.formBatch die g = u := by
  simp only [State.formBatch, h]
  rfl

/-- The guard of BATCH_FORMATION is passed by a group that forms its iteration now. -/
theorem forms_passes (h : Forms u die g) : ¬ (!(u.groupReady die g) ∨ (List.range g).any (u.groupReady die) ∨ !(u.serves die)) := by
  obtain ⟨ready, lower, serving⟩ := h
  rw [ready, serving]
  simpa using lower

/-- An iteration whose entries `es` are chosen begins, from the number `n` and the state `t` (R331 to R333). -/
def beginBatch (die g : Nat) (d : BitVec 512) (n now : Nat) (t : State) (es : List (BatchEnt × Option Nat)) : State :=
  match (begun t die g es).wrParts (grpCtx d) (batchParts g d (grpBtb d n) n now es) with
  | none => (((begun t die g es).ctlArrive die g true).endIter die g true).event die 0 .badTable (grpBtb d n) false
  | some v => (v.modIter die g (fun i => { i with job := some v.nextJob })).beginGraph
      { id := v.nextJob, queue := none, index := 0, ctxid := grpCtx d, die := die, tag := 0, cq := false, compl := 0, parent := none
        iter := some (die, g), opn := false, kind := .wait [] true, seen := v.actor.past } (grpGraph d) (BitVec.ofNat 64 (grpBtb d n)) 0

theorem beginBatch_written {d : BitVec 512} {n now : Nat} {t v : State} {es : List (BatchEnt × Option Nat)}
    (hw : (begun t die g es).wrParts (grpCtx d) (batchParts g d (grpBtb d n) n now es) = some v) :
    beginBatch die g d n now t es = (v.modIter die g (fun i => { i with job := some v.nextJob })).beginGraph
      { id := v.nextJob, queue := none, index := 0, ctxid := grpCtx d, die := die, tag := 0, cq := false, compl := 0, parent := none
        iter := some (die, g), opn := false, kind := .wait [] true, seen := v.actor.past } (grpGraph d) (BitVec.ofNat 64 (grpBtb d n)) 0 := by
  rw [beginBatch, hw]

theorem beginBatch_unwritten {d : BitVec 512} {n now : Nat} {t : State} {es : List (BatchEnt × Option Nat)}
    (hw : (begun t die g es).wrParts (grpCtx d) (batchParts g d (grpBtb d n) n now es) = none) :
    beginBatch die g d n now t es = (((begun t die g es).ctlArrive die g true).endIter die g true).event die 0 .badTable (grpBtb d n) false := by
  rw [beginBatch, hw]

theorem formBatch_empty (h : Forms u die g) (he : (batchOf u die g).2 = []) : u.formBatch die g = (batchOf u die g).1 :=
  (if_neg (forms_passes h)).trans (if_pos he)

theorem formBatch_begins (h : Forms u die g) (he : (batchOf u die g).2 ≠ []) : u.formBatch die g =
    beginBatch die g (u.group die g) ((batchOf u die g).1.iterOf die g).n u.dtime (batchOf u die g).1 (batchOf u die g).2 :=
  (if_neg (forms_passes h)).trans ((if_neg he).trans rfl)

/-- A scheduler's step is its work, between its beginning and its end (R322). -/
theorem exec_schedWork {f : State → State} {t : State} (h : f (s.schedBegin die []) = t) :
    (.next (s.schedWork die f) : Host.Outcome State Fault Refusal) = .next (t.schedEnd s die) := by
  rw [← h]; rfl

/-- Settles O35: BATCH_FORMATION by its guard, then by whether there are entries, then by whether the table can be written. -/
theorem batchesForm : Obligations.BatchesForm := fun _ _ _ =>
  ⟨fun h he => exec_schedWork (formBatch_empty h he), fun _ h he hw => exec_schedWork ((formBatch_begins h he).trans (beginBatch_written hw)),
    fun h he hw => exec_schedWork ((formBatch_begins h he).trans (beginBatch_unwritten hw)), fun h => exec_schedWork (formBatch_notReady h)⟩

theorem addAll_nil (l : List Nat) : addAll l [] = l := List.append_nil l

/-- A step of a scheduler that does nothing leaves the package as it is (R322). -/
theorem schedBegin_schedEnd (s : State) (die : Nat) : (s.schedBegin die []).schedEnd s die = s := by
  have same : modAt s.dies die (fun d => { d with sched := { d.sched with seen := (s.sched die).seen } }) = s.dies := by
    refine List.ext_getElem? fun j => ?_
    rw [modAt_get]
    split
    next h => subst h; cases hd : s.dies[j]? <;> simp only [State.sched, hd, Option.map]
    next => rfl
  simp only [State.schedEnd, State.schedBegin, State.workBegin, State.workEnd, State.modSched, State.modDie, addAll_nil]
  exact congrArg (fun l => { s with dies := l }) same

/-- What a sweep does with one slot of a group (R329). -/
def sweptSlot (die : Nat) (s : State) (k : Nat) : State :=
  if rcState (s.recOf die k) ≠ 1 ∧ s.due (s.recOf die k) = true
    then (({ s with free := s.free + 1 } : State).retire die k (s.sweepRsn (s.recOf die k))).1 else s

theorem sweptSlot_keeps {k : Nat} (h : rcState (s.recOf die k) = 1 ∨ s.due (s.recOf die k) = false) : sweptSlot die s k = s :=
  if_neg fun ⟨hs, hd⟩ => h.elim hs (fun hn => by rw [hn] at hd; exact Bool.noConfusion hd)

theorem foldl_sweptSlot_keeps {l : List Nat} (h : ∀ k ∈ l, rcState (s.recOf die k) = 1 ∨ s.due (s.recOf die k) = false) :
    l.foldl (sweptSlot die) s = s := by
  induction l with
  | nil => rfl
  | cons k l ih =>
    rw [List.foldl_cons, sweptSlot_keeps (h k List.mem_cons_self)]
    exact ih fun k hk => h k (List.mem_cons_of_mem _ hk)

theorem sweep_eq (s : State) (die g : Nat) : s.sweep die g = (s.groupSlots die g).foldl (sweptSlot die) s := rfl

theorem due_iff {r : Nat} : s.due r = true ↔ rcCancel r = true ∨ (rcDeadline r ≠ 0 ∧ rcDeadline r ≤ s.dtime) := by
  rw [State.due, Bool.or_eq_true, decide_eq_true_iff]

theorem sweepRsn_late {r : Nat} (h : rcCancel r = false) : s.sweepRsn r = 4 := by
  simp only [State.sweepRsn, h]; rfl

theorem sweepRsn_cancelled {r : Nat} (h : rcCancel r = true) (ht : rcDeadline r = 0 ∨ s.dtime < rcDeadline r) : s.sweepRsn r = 5 := by
  have early : ¬ (rcDeadline r ≠ 0 ∧ rcDeadline r ≤ s.dtime) := by omega
  simp only [State.sweepRsn, h, early]; rfl

/-- The reason of a sweep is one of two, and where both apply it is left open (R329). -/
theorem sweepRsn_either (s : State) (r : Nat) : s.sweepRsn r = 4 ∨ s.sweepRsn r = 5 := by
  simp only [State.sweepRsn]
  split
  · omega
  · split
    · exact .inr rfl
    · exact .inl rfl

theorem graphComplete_good (ho : (u.iterOf die g).opn = true) (hr : (u.iterOf die g).result = some 0) :
    u.graphComplete die g = (u.modIter die g (fun i => { i with result := none, graphAt := some u.dtime })).ctlArrive die g false := by
  simp only [State.graphComplete, hr, ho]; rfl

theorem graphComplete_failed {st : Nat} (ho : (u.iterOf die g).opn = true) (hr : (u.iterOf die g).result = some st) (hs : st ≠ 0) :
    u.graphComplete die g = ((u.modIter die g (fun i => { i with result := none, graphAt := some u.dtime })).ctlArrive die g true).endIter die g true := by
  simp only [State.graphComplete, hr, ho, decide_eq_true hs, if_neg hs]; rfl

/-- An entry holds its iteration open until its row is fed back or its sequence has gone or drains (R332). -/
theorem rowsDone_iff {it : GroupIter} : u.rowsDone it = true ↔ ∀ x ∈ it.ents,
    x.fed = true ∨ x.row = none ∨ u.live? x.seq = none ∨ ∃ r, u.live? x.seq = some r ∧ rcState r = 4 := by
  rw [State.rowsDone, List.all_eq_true]
  refine forall₂_congr fun x _ => ?_
  cases u.live? x.seq <;> simp [or_assoc]

theorem iterationEnd_ends {t : Nat} (ho : (u.iterOf die g).opn = true) (ht : (u.iterOf die g).graphAt = some t)
    (hr : u.rowsDone (u.iterOf die g) = true) : u.iterationEnd die g = u.endIter die g false := by
  simp only [State.iterationEnd, ho, ht, hr]; rfl

theorem iterationEnd_waits (hr : ¬ u.rowsDone (u.iterOf die g) = true) : u.iterationEnd die g = u := by
  simp only [State.iterationEnd, Bool.not_eq_true _ ▸ hr, Bool.and_false]; rfl

theorem feedbackExpiry_at {t : Nat} (ho : (u.iterOf die g).opn = true) (ht : (u.iterOf die g).graphAt = some t)
    (hw : grpFbwait (u.group die g) ≠ 0) :
    u.feedbackExpiry die g = if t + grpFbwait (u.group die g) ≤ u.dtime then u.endIter die g false else u := by
  simp only [State.feedbackExpiry, ho, ht, hw, Bool.true_and, ne_eq, not_false_eq_true, true_and, decide_eq_true_eq]

/-- A wait of 0 has no limit (R323). -/
theorem feedbackExpiry_unlimited (hw : grpFbwait (u.group die g) = 0) : u.feedbackExpiry die g = u := by
  simp only [State.feedbackExpiry, hw]
  cases (u.iterOf die g).graphAt with
  | none => rfl
  | some t => simp

theorem execSequenceSweep_sweeps (ho : (s.iterOf die g).opn = false) (hv : grpV (s.group die g) = true) (hs : s.serves die = true) :
    exec (.sequenceSweep die g) s = .next (((s.schedBegin die []).sweep die g).schedEnd s die) :=
  congrArg Host.Outcome.next (if_pos (by rw [State.idleGroup, ho, hv, hs]; rfl))

theorem execSequenceSweep_rests (h : (s.iterOf die g).opn = true ∨ s.serves die = false) : exec (.sequenceSweep die g) s = .next s := by
  have busy : s.idleGroup die g = false := by
    rcases h with h | h <;> simp [State.idleGroup, h]
  exact congrArg Host.Outcome.next (if_neg (by rw [busy]; decide))

/-- Settles O36: each step of a scheduler by the branches of its event. -/
theorem iterationsEnd : Obligations.IterationsEnd := by
  refine ⟨fun s die g => execSequenceSweep_sweeps, schedBegin_schedEnd, fun s die g h => foldl_sweptSlot_keeps h, sweep_eq,
    fun s r => ⟨due_iff, sweepRsn_late, sweepRsn_cancelled, sweepRsn_either s r⟩, fun s die g => execSequenceSweep_rests, fun s die g => ?_,
    fun s die slot h => congrArg Host.Outcome.next (if_pos h), fun s die slot h => congrArg Host.Outcome.next (if_neg (by rw [h]; decide))⟩
  refine ⟨fun ho hr => exec_schedWork (graphComplete_good ho hr), fun st ho hr hs => exec_schedWork (graphComplete_failed ho hr hs),
    fun t ho ht h => exec_schedWork (iterationEnd_ends ho ht (rowsDone_iff.2 h)), fun x r hx hf hr hl hs => exec_schedWork (iterationEnd_waits fun done => ?_),
    fun t ho ht hw => exec_schedWork (feedbackExpiry_at ho ht hw), fun hw => exec_schedWork (feedbackExpiry_unlimited hw)⟩
  rcases rowsDone_iff.1 done x hx with h | h | h | ⟨r', h, h4⟩
  · rw [hf] at h; exact Bool.noConfusion h
  · rw [h] at hr; exact Bool.noConfusion hr
  · rw [hl] at h; exact Option.noConfusion rfl (heq_of_eq h)
  · rw [hl] at h; obtain rfl := Option.some.inj h; exact hs h4

end Sys2Proof.Machine
end

section
/-! Pages move between tiers (R294, R302, R304 to R307, R440): which page is evicted, and how each copy ends. -/
namespace Sys2Proof.Machine
open Sys2Proof.Laws Sys2Proof.Claims

variable {s : State} {die f g b : Nat}

/-- Frame `f` is evicted no later than `g`: lower LRU, then lower number (R304). -/
def evictsFirst (s : State) (die f g : Nat) : Prop :=
  feLru (s.frEnt die f) < feLru (s.frEnt die g) ∨ (feLru (s.frEnt die f) = feLru (s.frEnt die g) ∧ f ≤ g)

theorem evictsFirst_refl : evictsFirst s die f f := .inr ⟨rfl, le_rfl⟩

theorem evictsFirst_trans (h : evictsFirst s die f g) (h' : evictsFirst s die g b) : evictsFirst s die f b := by
  unfold evictsFirst at *; omega

/-- The better of the best so far and one more frame. -/
def betterVictim (s : State) (die : Nat) (best : Option Nat) (f : Nat) : Option Nat :=
  match best with
  | none => some f
  | some b =>
    let x := feLru (s.frEnt die f)
    let y := feLru (s.frEnt die b)
    if x < y ∨ (x = y ∧ f < b) then some f else some b

theorem victim_eq : s.victim die = (((s.pe die).frames die die).filter (s.evictable die)).foldl (betterVictim s die) none := rfl

/-- The better of two frames is one of them, and evicted no later than either. -/
theorem betterVictim_some (b f : Nat) :
    ∃ c, betterVictim s die (some b) f = some c ∧ (c = f ∨ c = b) ∧ evictsFirst s die c f ∧ evictsFirst s die c b := by
  simp only [betterVictim]
  split
  next h => exact ⟨f, rfl, .inl rfl, evictsFirst_refl, by unfold evictsFirst; omega⟩
  next h => exact ⟨b, rfl, .inr rfl, by unfold evictsFirst; omega, evictsFirst_refl⟩

/-- The best of a list is a frame of it that is evicted no later than any. -/
theorem foldl_betterVictim_some (l : List Nat) (b : Nat) : ∃ f, l.foldl (betterVictim s die) (some b) = some f ∧ (f = b ∨ f ∈ l) ∧
    evictsFirst s die f b ∧ ∀ g ∈ l, evictsFirst s die f g := by
  induction l generalizing b with
  | nil => exact ⟨b, rfl, .inl rfl, evictsFirst_refl, fun _ h => absurd h List.not_mem_nil⟩
  | cons x l ih =>
    obtain ⟨c, hc, one, cx, cb⟩ := betterVictim_some (s := s) (die := die) b x
    obtain ⟨f, hf, mem, fc, all⟩ := ih c
    refine ⟨f, by rw [List.foldl_cons, hc, hf], ?_, evictsFirst_trans fc cb, fun g hg => ?_⟩
    · rcases mem with rfl | mem
      · exact one.elim (fun h => .inr (h ▸ List.mem_cons_self)) .inl
      · exact .inr (List.mem_cons_of_mem _ mem)
    · rcases List.mem_cons.1 hg with rfl | hg
      · exact evictsFirst_trans fc cx
      · exact all g hg

/-- The page that is evicted is the first of those that may be (R304). -/
theorem victim_first (h : s.victim die = some f) : s.evictable die f = true ∧ f ∈ (s.pe die).frames die die ∧
    ∀ g ∈ (s.pe die).frames die die, s.evictable die g = true → evictsFirst s die f g := by
  rw [victim_eq] at h
  cases hl : ((s.pe die).frames die die).filter (s.evictable die) with
  | nil => rw [hl] at h; exact Option.noConfusion rfl (heq_of_eq h)
  | cons x l =>
    obtain ⟨c, hc, mem, cx, all⟩ := foldl_betterVictim_some (s := s) (die := die) l x
    obtain rfl : c = f := Option.some.inj (hc.symm.trans (by rw [hl] at h; exact h))
    have member : c ∈ ((s.pe die).frames die die).filter (s.evictable die) := by rw [hl]; exact List.mem_cons.2 mem
    obtain ⟨inTier, may⟩ := List.mem_filter.1 member
    refine ⟨may, inTier, fun g hg he => ?_⟩
    have other : g ∈ x :: l := hl ▸ List.mem_filter.2 ⟨hg, he⟩
    rcases List.mem_cons.1 other with rfl | hg
    · exact cx
    · exact all g hg

theorem evictStart_starts (hl : s.freeOutside die < (s.pe die).lowat) (hf : s.victim die = some f) (hg : s.pick (s.freeFrames die 2) = some g) :
    s.evictStart die = { ((s.setFr die f (setBits (setBits (s.frEnt die f) 35 33 2) 159 128 g)).setFr die g
      (setBits (setBits 0 35 33 2) 159 128 f)) with free := s.free + 1 } := by
  refine (if_pos hl).trans ?_
  rw [hf, hg]

/-- A copy that no full table stops ends (R374, R380). -/
theorem pageCopy_sent {src dst : Nat} {go : State} (h : s.pageShut die src dst = false) : s.pageCopy die src dst go = sentOver go die dst :=
  if_neg (by rw [h]; decide)

theorem evictEnd_moves (hr : ((s.pe die).range? die f).isSome = true) (ht : frTier f = die) (hs : feState (s.frEnt die f) = 2)
    (hh : s.frHeld die f = false) (hb : s.pageShut die f (feBack (s.frEnt die f)) = false) :
    s.evictEnd die f = sentOver (s.movePage die f (feBack (s.frEnt die f))) die (feBack (s.frEnt die f)) :=
  (if_pos ⟨hr, ht, hs, by rw [hh]; rfl⟩).trans (pageCopy_sent hb)

theorem fetchEnd_moves (hr : ((s.pe die).range? die g).isSome = true) (ht : frTier g = die) (hs : feState (s.frEnt die g) = 3)
    (h2 : frTier (feBack (s.frEnt die g)) = 2) (hb : s.pageShut die (feBack (s.frEnt die g)) g = false) :
    s.fetchEnd die g = sentOver ((s.movePage die (feBack (s.frEnt die g)) g).xferDone die g) die g :=
  (if_pos ⟨hr, ht, hs, h2⟩).trans (pageCopy_sent hb)

/-- The end of a copy-on-write (R302). -/
def cowEnded (s : State) (die g f : Nat) : State :=
  let t := s.copyPage die f g
  let e := setBits (setBits (t.frEnt die g) 8 0 (feFill (s.frEnt die f))) 32 32 (bits (s.frEnt die f) 32 32)
  (((t.setFr die g (feMoved e (feLost e))).reFix die g).frSettle die f).frSettle die g

theorem cowEnd_ends (hr : ((s.pe die).range? die g).isSome = true) (ht : frTier g = die) (hs : feState (s.frEnt die g) = 3)
    (hf : f = feBack (s.frEnt die g)) (h2 : frTier f ≠ 2) (hf' : ((s.pe die).range? die f).isSome = true) : s.cowEnd die g = cowEnded s die g f := by
  subst hf
  exact if_pos ⟨hr, ht, hs, h2, hf'⟩

/-- The page engine's own step, with nothing behind it. -/
theorem next_byWork {step : State → State} {t : State} (h : step (inWork s []) = t) :
    (.next (s.byWork step) : Host.Outcome State Fault Refusal) = leaves s t := by
  rw [← h]; rfl

/-- Settles O33: the victim by induction on the frames that may be evicted, each event by its guard. -/
theorem pagesMoveBetweenTiers : Obligations.PagesMoveBetweenTiers :=
  ⟨fun _ _ _ _ hl hf hg => congrArg Host.Outcome.next (evictStart_starts hl hf hg), fun _ _ _ => victim_first,
    fun _ _ hl => congrArg Host.Outcome.next (if_neg (Nat.not_lt.2 hl)),
    fun s _ _ hr ht hs hh hb => next_byWork (evictEnd_moves (s := inWork s []) hr ht hs hh hb),
    fun s _ _ hr ht hs h2 hb => next_byWork (fetchEnd_moves (s := inWork s []) hr ht hs h2 hb),
    fun s _ _ _ hr ht hs hf h2 hf' => next_byWork (cowEnd_ends (s := inWork s []) hr ht hs hf h2 hf')⟩

end Sys2Proof.Machine
end

section
/-! What page engines deliver (R309 to R313): the steps of a gather and of an append, and page waits that run out. -/
namespace Sys2Proof.Machine
open Sys2Proof.Laws Sys2Proof.Claims

section Gathers
variable {s : State} {id line i f : Nat} {o : Op} {g : KvGather} {k : Crew} {is : List Nat}

/-- A gather's delivery is a step of its own operation thread (R217, R311). -/
theorem exec_kvgatherDelivery {t : State} (h : Gathering s id o g k) (ht : (inThread s o).kgStep o k g line = t) :
    exec (.kvgatherDelivery id line) s = leaves s t := by
  obtain ⟨ho, hg, hk, hl, hf⟩ := h
  refine congrArg Host.Outcome.next ?_
  simp only [State.kvDeliver, ho, hg, hk, hl, hf, Bool.not_true, Bool.false_eq_true, or_self, if_false, ← ht]
  rfl

/-- Bytes that all lie in memory are read the same for every crew. -/
theorem opBytes_ofMem {ps : List (Spot × Nat)} (h : ∀ p ∈ ps, ∃ key, p.1 = .mem key) (ci cj : Nat) : s.opBytes ci k ps = s.opBytes cj k ps := by
  refine congrArg List.flatten (List.map_congr_left fun p hp => ?_)
  obtain ⟨key, hk⟩ := h p hp
  simp only [hk]

/-- A lane's row lies in memory, so that it is the same whichever crew's operation reads it. -/
theorem kgRow_ofMem (s : State) (ci cj : Nat) (k : Crew) (g : KvGather) (i f : Nat) : kgRow s ci k g i f = kgRow s cj k g i f := by
  refine opBytes_ofMem (fun p hp => ?_) ci cj
  rcases List.mem_cons.1 hp with rfl | hp
  · exact ⟨_, rfl⟩
  · split at hp
    · obtain ⟨b, -, rfl⟩ := List.mem_map.1 hp
      exact ⟨_, rfl⟩
    · exact absurd hp List.not_mem_nil

/-- A lane's row is read: that of the named lane, or of the first that is unread (R311). -/
theorem kgStep_reads (hb : kgBeyond s g = false) (hi : (if g.unread.contains line then some line else g.unread.head?) = some i)
    (hl : g.lane? i = some (0, f)) :
    s.kgStep o k g line = s.modOp o.id (fun o => { o with eng := some (.kg { g with rows := (i, kgRow s o.crew k g i f) :: g.rows }) }) := by
  simp only [State.kgStep, hb, hi, hl, Bool.false_eq_true, if_false, Option.getD_some]
  exact congrArg (s.modOp o.id) (funext fun p => by rw [kgRow_ofMem s o.crew p.crew])

theorem kgStep_line (hb : kgBeyond s g = false) (hu : g.unread = []) (hl : line ∈ g.left) : s.kgStep o k g line = s.kgLine o k g line := by
  simp only [State.kgStep, hb, hu, List.contains_iff_mem.2 hl]; rfl

theorem kgStep_account (hb : kgBeyond s g = false) (hu : g.unread = []) (hl : g.left = []) (ho : line ∈ g.owed) :
    s.kgStep o k g line = s.kgAccount o k g line := by
  simp only [State.kgStep, hb, hu, hl, List.contains_iff_mem.2 ho]; rfl

theorem kgStep_rests (hb : kgBeyond s g = false) (hu : g.unread = []) (hl : line ∉ g.left) (h : g.left ≠ [] ∨ line ∉ g.owed) :
    s.kgStep o k g line = s := by
  have rest : g.left ≠ [] ∨ !(g.owed.contains line) := h.imp_right fun h => by simpa using h
  refine (if_neg (by rw [hb]; decide)).trans ?_
  simp only [hu]
  exact (if_neg (by simpa using hl)).trans (if_pos rest)

theorem kgLine_lands (h : kgCrosses s k g line = true → s.bridgeShut k.die g.tried = false) :
    s.kgLine o k g line = ((((s.noteSp o.crew (128 * line) 128 none).modCrew o.crew (fun q =>
          q.spScatter ((offsetsOn k g [line]).map (fun f => (kgSpot k g f, kgByte g f))))).landLines o.crew [line]).modOp o.id (fun o =>
          { o with eng := some (.kg { g with left := g.left.filter (fun l => decide (l ≠ line)), owed := line :: g.owed, tried := none }) })) := by
  refine if_neg fun shut => ?_
  obtain ⟨hc, hb⟩ := Bool.and_eq_true_iff.1 shut
  rw [h hc] at hb
  exact Bool.noConfusion hb

theorem kgLine_shut (hc : kgCrosses s k g line = true) (hb : s.bridgeShut k.die g.tried = true) :
    s.kgLine o k g line = s.modOp o.id (fun o => { o with eng := some (.kg { g with tried := s.triedAt g.tried }) }) :=
  if_pos (by rw [hc, hb]; rfl)

theorem kgAccount_last (h : ∀ l ∈ g.owed, l = line) : s.kgAccount o k g line =
    ((s.kvBarUpd o.crew g.bar (.land (offsetsOn k g [line]).length)).endEng o none).dropHolds g.die (kgFrames g.lanes) :=
  if_pos (List.filter_eq_nil_iff.2 fun l hl => by simp [h l hl])

theorem kgAccount_more (h : ∃ l ∈ g.owed, l ≠ line) : s.kgAccount o k g line =
    (s.kvBarUpd o.crew g.bar (.land (offsetsOn k g [line]).length)).modOp o.id
      (fun o => { o with eng := some (.kg { g with owed := g.owed.filter (fun l => decide (l ≠ line)) }) }) := by
  obtain ⟨l, hl, hne⟩ := h
  exact if_neg (List.ne_nil_of_mem (List.mem_filter.2 ⟨hl, decide_eq_true hne⟩))

theorem kgStep_beyond (hb : kgBeyond s g = true) : s.kgStep o k g line = s.kgFault o k g := if_pos hb

end Gathers

section Appends
variable {s : State} {id : Nat} {o : Op} {a : KvAppend} {k : Crew}

theorem exec_kvappendWrite_lands (h : Appending s id o a k) (hr : feState (s.frEnt a.die a.frame) = 1)
    (hb : k.die ≠ keyDie (s.frBase a.die a.frame) → s.bridgeShut (keyDie (s.frBase a.die a.frame)) a.tried = false) :
    exec (.kvappendWrite id) s = leaves s ((inThread s o).kaLand o a) := by
  obtain ⟨ho, ha, hk, hl, hf⟩ := h
  have open_ : ¬ (k.die ≠ keyDie (s.frBase a.die a.frame) ∧ s.bridgeShut (keyDie (s.frBase a.die a.frame)) a.tried = true) :=
    fun ⟨hd, shut⟩ => by rw [hb hd] at shut; exact Bool.noConfusion shut
  refine congrArg Host.Outcome.next ?_
  simp only [State.kvWrite, ho, ha, hk, hl, hf, hr, open_, if_false, ne_eq, not_true, or_self, Bool.not_true, Bool.false_eq_true]
  rfl

theorem exec_kvappendWrite_shut (h : Appending s id o a k) (hr : feState (s.frEnt a.die a.frame) = 1)
    (hd : k.die ≠ keyDie (s.frBase a.die a.frame)) (hb : s.bridgeShut (keyDie (s.frBase a.die a.frame)) a.tried = true) :
    exec (.kvappendWrite id) s = .next (s.modOp id (fun o => { o with eng := some (.ka { a with tried := s.triedAt a.tried }) })) := by
  obtain ⟨ho, ha, hk, hl, hf⟩ := h
  refine congrArg Host.Outcome.next ?_
  simp only [State.kvWrite, ho, ha, hk, hl, hf, hr, hd, hb, if_false, ne_eq, not_true, or_self, Bool.not_true, Bool.false_eq_true,
    not_false_eq_true, and_self, if_true]

theorem exec_kvappendWrite_waits (h : Appending s id o a k) (hr : feState (s.frEnt a.die a.frame) ≠ 1) :
    exec (.kvappendWrite id) s = .next s := by
  obtain ⟨ho, ha, hk, -, -⟩ := h
  refine congrArg Host.Outcome.next ?_
  simp only [State.kvWrite, ho, ha, hk]
  exact if_pos (.inr (.inr hr))

end Appends

section Waits
variable {s : State} {t : ThreadRef} {e : Env} {h : Hdr} {p : PgWait}

/-- The issuer of an environment is the thread that asks. -/
theorem env?_who (he : s.env? t h = some e) : e.who = t := by
  cases t <;> simp only [State.env?] at he <;> grind

theorem pageTimeout_waits (he : s.env? t (baseHdr 0) = some e) (hp : s.pgWaits.find? (fun p => decide (p.who = t ∧ p.pc = e.pc)) = some p) :
    s.pageTimeout t = if s.pgAwaited p = true ∧ s.pgOver e.k p.since = true then (s.pgExpire e p.kind p.lane p.frame).ctxSettle t else s := by
  simp only [State.pageTimeout, he, hp]

theorem pgOver_iff {k : Crew} {since : Nat} : s.pgOver k since = true ↔ k.pgwait ≠ 0 ∧ since + 1000 * k.pgwait.toNat ≤ s.dtime :=
  decide_eq_true_iff

theorem pgAwaited_paused (h : p.paused = true) : s.pgAwaited p = false := by
  rw [State.pgAwaited, h]; rfl

theorem pgAwaited_frame (hp : p.paused = false) (hf : p.frame ≠ noFrame) : s.pgAwaited p = true ↔
    feState (s.frEnt p.die p.frame) = 3 ∨ feState (s.frEnt p.die p.frame) = 4 ∨ s.copySource p.die p.frame = true := by
  simp [State.pgAwaited, hp, hf, or_assoc]

end Waits

/-- Gathers and appends by what is left to do. -/
theorem gatheredLinesAndAppendedRowsLand : GatheredLinesAndAppendedRowsLand :=
  ⟨fun _ _ _ _ _ h => ⟨fun hb =>
    ⟨fun i f hi hl => exec_kvgatherDelivery h (kgStep_reads hb (if_pos (List.contains_iff_mem.2 hi)) hl),
      fun line i is f hu hn hl => exec_kvgatherDelivery h (kgStep_reads hb ((if_neg (by simpa using hn)).trans (by rw [hu]; rfl)) hl),
      fun line hu hl hs => exec_kvgatherDelivery h ((kgStep_line hb hu hl).trans (kgLine_lands hs)),
      fun line hu hl hc hs => exec_kvgatherDelivery h ((kgStep_line hb hu hl).trans (kgLine_shut hc hs)),
      fun line hu hl ho => ⟨fun last => exec_kvgatherDelivery h ((kgStep_account hb hu hl ho).trans (kgAccount_last last)),
        fun more => exec_kvgatherDelivery h ((kgStep_account hb hu hl ho).trans (kgAccount_more more))⟩,
      fun line hu hl ho => (exec_kvgatherDelivery h (kgStep_rests hb hu hl ho)).trans rfl⟩,
    fun hb _ => exec_kvgatherDelivery h (kgStep_beyond hb)⟩,
    fun _ _ _ _ _ h hr => ⟨exec_kvappendWrite_lands h hr, exec_kvappendWrite_shut h hr⟩, fun _ _ _ _ _ => exec_kvappendWrite_waits⟩

/-- A page wait by what it awaits, its limit and its kind. -/
theorem pageWaitsTimeOut : PageWaitsTimeOut := by
  intro s t e p he hp
  obtain rfl := env?_who he
  refine ⟨fun ha hl ho hk => congrArg Host.Outcome.next ?_, fun ha hl ho hk => congrArg Host.Outcome.next ?_, fun h => congrArg Host.Outcome.next ?_,
    pgAwaited_paused, pgAwaited_frame⟩
  · rw [pageTimeout_waits he hp, if_pos ⟨ha, pgOver_iff.2 ⟨hl, ho⟩⟩, pgExpire_traps hk]; rfl
  · rw [pageTimeout_waits he hp, if_pos ⟨ha, pgOver_iff.2 ⟨hl, ho⟩⟩, pgExpire_answers hk]
  · rw [pageTimeout_waits he hp]
    refine if_neg fun ⟨ha, hover⟩ => ?_
    obtain ⟨hl, ho⟩ := pgOver_iff.1 hover
    rcases h with h | h | h
    · rw [h] at ha; exact Bool.noConfusion ha
    · exact hl h
    · omega

/-- Settles O34: the deliveries and the waits. -/
theorem pageEngineDelivers : Obligations.PageEngineDelivers := ⟨gatheredLinesAndAppendedRowsLand, pageWaitsTimeOut⟩

end Sys2Proof.Machine
end

section
/-! Management commands (R344, R461): each row by what its arguments and its record must be, and what it comes to. -/
namespace Sys2Proof.Machine
open Sys2Proof.Laws Sys2Proof.Claims

variable {s : State} {die c r : Nat} {f : State → (Nat → Nat) → CmdRes}

/-- A command with a reserved field that is not 0 is malformed (R344). -/
theorem command_badHead (next : (inWork s []).cmdNext die = some (some r)) (code : bits r 7 0 = c) (bad : bits r 15 8 ≠ 0 ∨ bits r 63 32 ≠ 0) :
    Host.Outcome.next (s.command die c f) = leaves s (answers (headOn (inWork s []) die) die r 2) := by
  have head : cmHeadOk r = false := decide_eq_false fun ⟨low, high⟩ => bad.elim (· low) (· high)
  simp only [State.command, State.byWork, State.workWith, State.asWork, ← inWork.eq_def]
  rw [next]
  simp only [cmCode, code, ne_eq, not_true_eq_false, if_false, head, Bool.not_false, if_true]
  rfl

section Checks
variable {b : Bool} {p : Prop} {y z : CmdRes}

/-- A check that decides a condition: the command goes on where it holds, and is malformed where not. -/
theorem cmdIf_holds (h : b = true ↔ p) (hp : p) : cmdIf b y = y := if_pos (h.2 hp)

theorem cmdIf_fails (h : b = true ↔ p) (hp : ¬ p) : cmdIf b y = .fail 2 := if_neg (mt h.1 hp)

end Checks

/-- An effect does what its row says: done where the condition holds, and malformed where not. -/
def Follows (f : State → (Nat → Nat) → CmdRes) (ok : State → (Nat → Nat) → Prop) (g : State → (Nat → Nat) → State) : Prop :=
  ∀ s a, (ok s a → f s a = .done (g s a)) ∧ (¬ ok s a → f s a = .fail 2)

theorem follows_cmdIf {b : State → (Nat → Nat) → Bool} {ok : State → (Nat → Nat) → Prop} {g : State → (Nat → Nat) → State}
    (h : ∀ s a, b s a = true ↔ ok s a) : Follows (fun s a => cmdIf (b s a) (.done (g s a))) ok g :=
  fun s a => ⟨cmdIf_holds (h s a), cmdIf_fails (h s a)⟩

theorem Follows.congr {ok : State → (Nat → Nat) → Prop} {g g' : State → (Nat → Nat) → State} (h : Follows f ok g) (hg : ∀ s a, g s a = g' s a) :
    Follows f ok g' := fun s a => hg s a ▸ h s a

theorem ctxOk_iff {x : Nat} : ctxOk x = true ↔ x < 2 ^ 32 := decide_eq_true_iff

/-- QRESET is for a queue of the die that stands in OVERRUN or ERROR and has ended its dispatch (R344). -/
theorem cmdQreset_follows : Follows (cmdQreset die)
    (fun s a => a 0 < 2 ^ 15 ∧ qHome (a 0) = die ∧ (∃ x, s.queue? (a 0) = some x ∧ (x.st = .overrun ∨ x.st = .error)) ∧ s.dispatchEnded (a 0) = true)
    (fun s a => s.modQueue (a 0) (fun x => { x with st := .active, head := a 1, tail := a 1 })) := by
  intro s a
  unfold cmdQreset
  cases hq : s.queue? (a 0) with
  | none => exact ⟨fun ok => (by obtain ⟨_, _, ⟨_, h, _⟩, _⟩ := ok; exact nomatch hq.symm.trans h), fun _ => rfl⟩
  | some x =>
    have named : x.qid = a 0 := queue?_qid hq
    have checked : (decide (a 0 < 2 ^ 15 ∧ qHome (a 0) = die ∧ (x.st = .overrun ∨ x.st = .error)) && s.dispatchEnded x.qid) = true ↔
        a 0 < 2 ^ 15 ∧ qHome (a 0) = die ∧ (∃ x, s.queue? (a 0) = some x ∧ (x.st = .overrun ∨ x.st = .error)) ∧ s.dispatchEnded (a 0) = true := by
      simp [hq, named, and_assoc]
    exact ⟨fun ok => (cmdIf_holds checked ok).trans (by rw [named]), cmdIf_fails checked⟩

/-- Every command whose effect is whole at once does what its row says. -/
theorem exec_cmdRow {i : Instr} {ok : State → (Nat → Nat) → Prop} {g : State → (Nat → Nat) → State} (h : CmdRow die i c ok g) :
    ∃ f, (∀ s, exec i s = .next (s.command die c f)) ∧ Follows f ok g := by
  cases h with
  | qcreate =>
    refine ⟨_, fun _ => rfl, follows_cmdIf fun s a => ?_⟩
    simp [ctxOk_iff, and_assoc]; tauto
  | qreset => exact ⟨_, fun _ => rfl, cmdQreset_follows⟩
  | ctxset =>
    refine ⟨_, fun _ => rfl, follows_cmdIf fun s a => ?_⟩
    simp [ctxOk_iff]; tauto
  | sgassign =>
    refine ⟨_, fun _ => rfl, follows_cmdIf fun s a => ?_⟩
    simp [ctxOk_iff]; tauto
  | ringset => exact ⟨_, fun _ => rfl, follows_cmdIf fun s a => decide_eq_true_iff⟩
  | winset =>
    refine ⟨_, fun _ => rfl, (follows_cmdIf fun s a => ?_).congr fun s a => ?_⟩
    · simp [ctxOk_iff]; tauto
    · by_cases h : a 3 = 0 <;> simp [h]
  | redset =>
    refine ⟨_, fun _ => rfl, follows_cmdIf fun s a => ?_⟩
    simp [ctxOk_iff]; tauto
  | saveset =>
    refine ⟨_, fun _ => rfl, follows_cmdIf fun s a => ?_⟩
    simp [ctxOk_iff]; tauto
  | pwrset => exact ⟨_, fun _ => rfl, follows_cmdIf fun s a => decide_eq_true_iff⟩
  | devset => exact ⟨_, fun _ => rfl, follows_cmdIf fun s a => decide_eq_true_iff⟩

/-- The commands without a record. -/
theorem commandsTakeEffect : CommandsTakeEffect := by
  refine ⟨fun die i c ok g row s r h => ?_, fun die i c ok g row s r next code bad => ?_⟩
  · obtain ⟨f, hf, does⟩ := exec_cmdRow row
    obtain ⟨takes, fails⟩ := does (headOn (inWork s []) die) (cmdArg r)
    exact ⟨fun ha => (hf s).trans (command_next h (takes ha)), fun ha => (hf s).trans (command_next h (fails ha))⟩
  · obtain ⟨f, hf, -⟩ := exec_cmdRow row
    exact (hf s).trans (command_badHead next code bad)

/-- An effect with a record does what its row says: it fails with 2 on its arguments, with 6 on a record that cannot be read, and with 2 on what the
record says. -/
def FollowsRecord (f : State → (Nat → Nat) → CmdRes) (ok : (Nat → Nat) → Prop) (addr : (Nat → Nat) → Nat) (n : Nat) (good : State → Nat → Prop)
    (g : State → (Nat → Nat) → Nat → State) : Prop :=
  ∀ s a, (¬ ok a → f s a = .fail 2) ∧ (ok a → s.hostRd (addr a) n = none → f s a = .fail 6)
    ∧ ∀ v, ok a → s.hostRd (addr a) n = some v → (good s v → f s a = .done (g s a v)) ∧ (¬ good s v → f s a = .fail 2)

section Records
variable {ok : (Nat → Nat) → Prop} {addr : (Nat → Nat) → Nat} {n : Nat} {good : State → Nat → Prop} {g : State → (Nat → Nat) → Nat → State}

theorem followsRecord_cmdRead {b : (Nat → Nat) → Bool} {d : State → Nat → Bool} (hb : ∀ a, b a = true ↔ ok a) (hd : ∀ s v, d s v = true ↔ good s v) :
    FollowsRecord (fun s a => cmdIf (b a) (s.cmdRead (addr a) n (fun v => cmdIf (d s v) (.done (g s a v))))) ok addr n good g := by
  refine fun s a => ⟨cmdIf_fails (hb a), fun ha hn => (cmdIf_holds (hb a) ha).trans ?_, fun v ha hv => ?_⟩
  · rw [State.cmdRead, hn]
  · have read : s.cmdRead (addr a) n (fun v => cmdIf (d s v) (.done (g s a v))) = cmdIf (d s v) (.done (g s a v)) := by
      rw [State.cmdRead, hv]
    exact ⟨fun h => (cmdIf_holds (hb a) ha).trans (read.trans (cmdIf_holds (hd s v) h)),
      fun h => (cmdIf_holds (hb a) ha).trans (read.trans (cmdIf_fails (hd s v) h))⟩

theorem FollowsRecord.congr {g' : State → (Nat → Nat) → Nat → State} {f : State → (Nat → Nat) → CmdRes} (h : FollowsRecord f ok addr n good g)
    (hg : ∀ s a v, g s a v = g' s a v) : FollowsRecord f ok addr n good g' := by
  obtain rfl : g = g' := funext fun s => funext fun a => funext fun v => hg s a v
  exact h

end Records

/-- Every command with a record does what its row says. -/
theorem exec_recRow {i : Instr} {ok : (Nat → Nat) → Prop} {addr : (Nat → Nat) → Nat} {n : Nat} {good : State → Nat → Prop}
    {g : State → (Nat → Nat) → Nat → State} (h : RecRow die i c ok addr n good g) :
    ∃ f, (∀ s, exec i s = .next (s.command die c f)) ∧ FollowsRecord f ok addr n good g := by
  cases h with
  | peconfig =>
    refine ⟨_, fun _ => rfl, (followsRecord_cmdRead (fun a => decide_eq_true_iff) fun s v => ?_).congr fun s a v => ?_⟩
    · simp [List.all_eq_true]; tauto
    · simp [Function.comp_def]
  | sqconfig =>
    refine ⟨_, fun _ => rfl, (followsRecord_cmdRead (fun a => decide_eq_true_iff) fun s v => ?_).congr fun s a v => ?_⟩
    · simp [List.all_eq_true]; tauto
    · simp [Function.comp_def]
  | irisset => exact ⟨_, fun _ => rfl, followsRecord_cmdRead (fun a => decide_eq_true_iff) fun s v => Iff.rfl⟩
  | mextend =>
    exact ⟨_, fun _ => rfl, followsRecord_cmdRead (d := fun _ _ => true) (fun a => decide_eq_true_iff) fun s v => iff_of_true rfl trivial⟩
  | repairset =>
    exact ⟨_, fun _ => rfl, followsRecord_cmdRead (b := fun _ => true) (d := fun _ _ => true) (fun a => iff_of_true rfl trivial)
      fun s v => iff_of_true rfl trivial⟩

/-- ATTEST's report with its signature, as it is written (R426). -/
def attested (s : State) (nonce : Nat) : List Byte :=
  let sig := (Config.attestSign (s.report nonce)).take 1536
  s.report nonce ++ natLe 2 sig.length ++ sig ++ List.replicate (1536 - sig.length) 0

theorem cmdAttest_reads {a : Nat → Nat} {v : Nat} (hv : s.hostRd (a 0) 32 = some v) : cmdAttest s a =
    if s.hostOk (a 1) ((s.report v).length + 1538) true then .done (s.wrL (memKey 3 (a 1)) (attested s v)) else .fail 6 := by
  simp only [cmdAttest, State.cmdRead, hv]
  rfl

/-- The commands with a record. -/
theorem commandsWithRecordsTakeEffect : CommandsWithRecordsTakeEffect := by
  refine ⟨fun die i c ok addr n good g row s r h => ?_, fun s die r v h hv => (command_next h (cmdAttest_reads hv)).trans ?_⟩
  · obtain ⟨f, hf, does⟩ := exec_recRow row
    obtain ⟨malformed, unreadable, read⟩ := does (headOn (inWork s []) die) (cmdArg r)
    exact ⟨fun v ha hv hg => (hf s).trans (command_next h ((read v ha hv).1 hg)), fun v ha hv hg => (hf s).trans (command_next h ((read v ha hv).2 hg)),
      fun ha hn => (hf s).trans (command_next h (unreadable ha hn)), fun ha => (hf s).trans (command_next h (malformed ha))⟩
  · split <;> rfl

/-- Settles O41: each command by its row. -/
theorem managementCommands : Obligations.ManagementCommands := ⟨commandsTakeEffect, commandsWithRecordsTakeEffect⟩

end Sys2Proof.Machine
end

section
/-! The registers of BAR0 and BAR2 (R344, R418, R420, R421, R461, R462): the management rings, the host windows, and what reads return. -/
namespace Sys2Proof.Machine
open Sys2Proof.Laws Sys2Proof.Claims

variable {s : State} {die c r : Nat} {d : Die}

section Rings

theorem unknownCmd_answers (next : s.cmdNext die = some (some r)) (code : bits r 7 0 = 0 ∨ 20 < bits r 7 0) :
    Host.Outcome.next (s.unknownCmd die) = leaves s (answers (headOn (inWork s []) die) die r 2) := by
  have unknown : ¬ (1 ≤ cmCode r ∧ cmCode r ≤ 20) := fun ⟨low, high⟩ => by unfold cmCode at low high; omega
  simp only [State.unknownCmd, next, if_neg unknown]
  rfl

theorem skipCmd_skips (next : s.cmdNext die = some none) (hd : s.dies[die]? = some d) :
    s.skipCmd die = (headOn s die).event die 0 .mrSkip d.mrhead false := by
  simp only [State.skipCmd, next, hd]
  rfl

theorem writeMrtail_eq {w : Nat} (hd : s.dies[die]? = some d) : s.writeMrtail die w =
    if d.mrtail ≤ w ∧ w - d.mrhead ≤ 2 ^ d.mrlogn then s.modDie die (fun d => { d with mrtail := w }) else s.event die 0 .mrTail w false := by
  simp only [State.writeMrtail, hd]

theorem modDie_get {f : Die → Die} (hd : s.dies[die]? = some d) : (s.modDie die f).dies[die]? = some (f d) := by
  rw [modDie_dies, modAt_get, if_pos rfl, hd]; rfl

end Rings

section Windows
variable {i j k : Nat} {w : BitVec 256} {v : W64}

theorem writeWindow_locked {n x : Nat} (h : s.wlock = true) : s.writeWindow i n x = s := if_pos h

/-- A run of bits of a window is written: its bits become the value's, every other stays. -/
theorem getLsbD_setBits {hi lo b : Nat} (h : lo ≤ hi) (hn : hi < 256) :
    (BitVec.ofNat 256 (setBits w.toNat hi lo v.toNat)).getLsbD b = if lo ≤ b ∧ b ≤ hi then v.getLsbD (b - lo) else w.getLsbD b := by
  rw [BitVec.getLsbD_ofNat, testBit_setBits h]
  by_cases hb : b < 256
  · simp only [hb, decide_true, Bool.true_and, BitVec.testBit_toNat]
  · have above : ¬ (lo ≤ b ∧ b ≤ hi) := by omega
    rw [decide_eq_false hb, Bool.false_and, if_neg above, BitVec.getLsbD_of_ge w b (Nat.not_lt.1 hb)]

/-- A write of a window leaves the other windows. -/
theorem windowsSet_get {f : BitVec 256 → BitVec 256} (hw : s.windows[i]? = some w) :
    (modAt s.windows i f)[i]? = some (f w) ∧ ∀ j ≠ i, (modAt s.windows i f)[j]? = s.windows[j]? :=
  ⟨by rw [modAt_get, if_pos rfl, hw]; rfl, fun j hj => by rw [modAt_get, if_neg hj]⟩

theorem writeWindow_low (h : s.wlock = false) {x : Nat} :
    s.writeWindow i 0 x = { s with windows := modAt s.windows i (fun w => BitVec.ofNat 256 (setBits w.toNat 2 0 x)) } :=
  if_neg (by rw [h]; decide)

theorem writeWindow_high (h : s.wlock = false) {x : Nat} (hk : k = 2 ∨ k = 3) :
    s.writeWindow i k x = { s with windows := modAt s.windows i (fun w => BitVec.ofNat 256 (setBits w.toNat (64 * k + 63) (64 * k) x)) } := by
  rcases hk with rfl | rfl <;> exact if_neg (by rw [h]; decide)

theorem execHostWindowWrite_eq (hb : s.bar0 = true) (hk : k < 4) : exec (.hostWindowWrite i k v) s = .next (s.writeWindow i k v.toNat) :=
  congrArg Host.Outcome.next (if_pos (by rw [hb, decide_eq_true hk]; rfl))

/-- What a write of doubleword 0 of a window does (R420). -/
theorem hostWindowWrite_low (hb : s.bar0 = true) (hl : s.wlock = false) (hw : s.windows[i]? = some w) :
    ∃ t, exec (.hostWindowWrite i 0 v) s = .next t ∧ t.mem = s.mem ∧ t.windows.length = s.windows.length ∧ (∀ j ≠ i, t.windows[j]? = s.windows[j]?)
      ∧ ∃ x, t.windows[i]? = some x ∧ (∀ b < 3, x.getLsbD b = v.getLsbD b) ∧ (∀ b, 3 ≤ b → x.getLsbD b = w.getLsbD b) := by
  obtain ⟨same, other⟩ := windowsSet_get (f := fun w => BitVec.ofNat 256 (setBits w.toNat 2 0 v.toNat)) hw
  refine ⟨_, (execHostWindowWrite_eq hb (by decide)).trans (congrArg _ (writeWindow_low hl)), rfl, modAt_length, other, _, same, fun b h => ?_, fun b h => ?_⟩
  · rw [getLsbD_setBits (by decide) (by decide), if_pos (by omega)]; rfl
  · rw [getLsbD_setBits (by decide) (by decide), if_neg (by omega)]

/-- What a write of doubleword 2 or 3 of a window does (R420). -/
theorem hostWindowWrite_high (hb : s.bar0 = true) (hl : s.wlock = false) (hw : s.windows[i]? = some w) (hk : k = 2 ∨ k = 3) :
    ∃ t, exec (.hostWindowWrite i k v) s = .next t ∧ t.mem = s.mem ∧ (∀ j ≠ i, t.windows[j]? = s.windows[j]?)
      ∧ ∃ x, t.windows[i]? = some x ∧ (∀ b < 64, x.getLsbD (64 * k + b) = v.getLsbD b)
        ∧ (∀ b, (b < 64 * k ∨ 64 * k + 64 ≤ b) → x.getLsbD b = w.getLsbD b) := by
  obtain ⟨same, other⟩ := windowsSet_get (f := fun w => BitVec.ofNat 256 (setBits w.toNat (64 * k + 63) (64 * k) v.toNat)) hw
  refine ⟨_, (execHostWindowWrite_eq hb (by omega)).trans (congrArg _ (writeWindow_high hl hk)), rfl, other, _, same, fun b h => ?_, fun b h => ?_⟩
  · rw [getLsbD_setBits (by omega) (by omega), if_pos (by omega), Nat.add_sub_cancel_left]
  · rw [getLsbD_setBits (by omega) (by omega), if_neg (by omega)]

end Windows

section Writes
variable {i k : Nat} {v : W64}

/-- A write of a register of BAR0 that is not of the window table (R418). -/
theorem execHostRegisterWrite_eq {off : Nat} (hb : s.bar0 = true) : exec (.hostRegisterWrite off v) s = .next (s.hostReg off v.toNat) :=
  congrArg Host.Outcome.next (if_pos hb)

theorem execMrtail_eq (hb : s.bar0 = true) : exec (.mrtail die v) s = .next (s.writeMrtail die v.toNat) := congrArg Host.Outcome.next (if_pos hb)

theorem execMrbase_eq {b : Bool} (hb : s.bar0 = true) : exec (.mrbase die b v) s = .next (s.modDie die (fun d => d.writeMrbase b v.toNat)) :=
  congrArg Host.Outcome.next (if_pos hb)

/-- A doubleword of the window table stands at its window and its place in it (R420). -/
theorem windowOffset (hi : i < 64) (hk : k < 4) : let off := 0x1000 + 32 * i + 8 * k
    (0x1000 ≤ off ∧ off < 0x1800 ∧ off % 8 = 0) ∧ (off - 0x1000) / 32 = i ∧ off % 32 / 8 = k := by
  dsimp only; omega

theorem hostReg_window {x : Nat} (hi : i < 64) (hk : k < 4) : s.hostReg (0x1000 + 32 * i + 8 * k) x = s.writeWindow i k x := by
  obtain ⟨inTable, hw, hd⟩ := windowOffset hi hk
  refine (if_neg (by omega)).trans ((if_pos inTable).trans ?_)
  rw [hw, hd]

theorem hostReg_devctl {x : Nat} (h : x % 2 = 1) : s.hostReg 8 x = { s with wlock := true } := if_pos h

end Writes

section Reads
variable {i k off : Nat}

theorem barReg_bar0 (hb : s.bar0 = true) : s.barReg 0 off = s.bar0Reg off := if_pos hb

theorem barReg_window {w : BitVec 256} (hb : s.bar0 = true) (hi : i < 64) (hw : s.windows[i]? = some w) (hk : k < 4) :
    s.barReg 0 (0x1000 + 32 * i + 8 * k) = bitsOf w (64 * k + 63) (64 * k) := by
  obtain ⟨⟨low, high, -⟩, window, dword⟩ := windowOffset hi hk
  rw [barReg_bar0 hb, State.bar0Reg, if_neg (by omega), if_neg (by omega), if_neg (by omega), if_pos ⟨low, high⟩, window, dword, State.windowReg, hw]

theorem barReg_measurement {m : BitVec 512} (hb : s.bar0 = true) (hi : i < 8) (hm : s.boot.meas[i]? = some m) (hk : k < 8) :
    s.barReg 0 (0x10000 + 64 * i + 8 * k) = bitsOf m (64 * k + 63) (64 * k) := by
  have reg : (0x10000 + 64 * i + 8 * k - 0x10000) / 64 = i := by omega
  have dword : (0x10000 + 64 * i + 8 * k) % 64 = 8 * k := by omega
  rw [barReg_bar0 hb, State.bar0Reg, if_neg (by omega), if_neg (by omega), if_neg (by omega), if_neg (by omega), if_neg (by omega), if_neg (by omega),
    if_neg (by omega), if_neg (by omega), if_neg (by omega), if_pos (by omega), reg, dword, hm]
  dsimp only
  congr 1 <;> omega

/-- The registers of a management ring (R462). -/
theorem barReg_ring (hb : s.bar0 = true) (hd : die < 2) (hk : k < 0x40) (ho : off = 0x2000 + 64 * die + k) : s.barReg 0 off = s.ringRegs die k := by
  have ring : (off - 0x2000) / 0x40 = die := by omega
  have reg : off % 0x40 = k := by omega
  rw [barReg_bar0 hb, State.bar0Reg, if_neg (by omega), if_neg (by omega), if_neg (by omega), if_neg (by omega), if_pos (by omega), ring, reg]

theorem ringRegs_eq (h : s.dies[die]? = some d) :
    s.ringRegs die 0 = d.mrbase ∧ s.ringRegs die 8 = d.mrlogn ∧ s.ringRegs die 0x10 = 0 ∧ s.ringRegs die 0x18 = d.mrhead := by
  simp [State.ringRegs, h]

/-- The doorbell reads 0, then HEAD, then the status of the queue (R343, R345). -/
theorem queueReg_eq {q : Nat} {x : Queue} (h : s.queue? q = some x) : s.queueReg q 0 = 0 ∧ s.queueReg q 8 = x.head
    ∧ s.queueReg q 16 = (if x.stolen then 8 else 0) + (match x.st with | .active => 1 | .overrun => 2 | .error => 3 | .draining => 4) := by
  refine ⟨by simp [State.queueReg, h], by simp [State.queueReg, h], ?_⟩
  simp only [State.queueReg, h]
  cases x.stolen <;> cases x.st <;> rfl

theorem barReg_bar2 (hb : s.bar2 = true) : s.barReg 2 off =
    if off < 0x8000000 then s.queueReg (off / 0x1000) (off % 0x1000) else s.ringReg (barRing off) (decide (off % 16 = 8)) := by
  rw [State.barReg, if_neg (by decide), hb]; rfl

/-- The registers of a queue's page (R343, R345). -/
theorem barReg_queue {q : Nat} (hb : s.bar2 = true) (hq : q < 2 ^ 15) (hk : k < 0x1000) : s.barReg 2 (0x1000 * q + k) = s.queueReg q k := by
  have page : (0x1000 * q + k) / 0x1000 = q := by omega
  have reg : (0x1000 * q + k) % 0x1000 = k := by omega
  rw [barReg_bar2 hb, if_pos (by omega), page, reg]

/-- The ring whose registers stand at an offset of BAR2 (R362). -/
theorem barRing_at (hd : die < 2) (hi : i < 1024) (hk : k < 16) : barRing (0x8000000 + 0x4000 * die + 16 * i + k) = 2 ^ 15 * die + i := by
  unfold barRing; omega

theorem barReg_tokenRing (hb : s.bar2 = true) (hd : die < 2) (hi : i < 1024) (hk : k < 16) :
    s.barReg 2 (0x8000000 + 0x4000 * die + 16 * i + k) = s.ringReg (2 ^ 15 * die + i) (decide (k = 8)) := by
  have place : (0x8000000 + 0x4000 * die + 16 * i + k) % 16 = k := by omega
  rw [barReg_bar2 hb, if_neg (by omega), barRing_at hd hi hk, place]

end Reads

section Turns
variable {rest : List Turn} {v : W64}

/-- A write to a BAR is the write of its register, as work with nothing behind it. -/
theorem step_barWrite {bar off : Nat} {t : State} (h : s.agenda = .barWrite bar off v :: rest)
    (ht : (inWork { s with agenda := rest } []).barWrite bar off v.toNat = t) : step s = leaves s t := by
  rw [step, h, ← ht]
  rfl

/-- The write of a queue's doorbell, and of a token ring's RDIDX (R343, R362). -/
theorem barWrite_doorbell {q x : Nat} (hq : q < 2 ^ 15) : s.barWrite 2 (0x1000 * q) x = if s.bar2 then s.doorbell q x else s := by
  have page : 0x1000 * q / 0x1000 = q := by omega
  rw [State.barWrite, if_neg (by decide), if_pos (show 0x1000 * q < 0x8000000 by omega), if_pos (show 0x1000 * q % 0x1000 = 0 by omega), page]
  cases s.bar2 <;> rfl

theorem barWrite_rdidx {i x : Nat} (hd : die < 2) (hi : i < 1024) :
    s.barWrite 2 (0x8000000 + 0x4000 * die + 16 * i) x = if s.bar2 then s.writeRdidx (2 ^ 15 * die + i) x else s := by
  have ring : barRing (0x8000000 + 0x4000 * die + 16 * i) = 2 ^ 15 * die + i := barRing_at (k := 0) hd hi (by decide)
  rw [State.barWrite, if_neg (by decide), if_neg (show ¬ 0x8000000 + 0x4000 * die + 16 * i < 0x8000000 by omega),
    if_pos (show (0x8000000 + 0x4000 * die + 16 * i) % 16 = 0 by omega), ring]
  cases s.bar2 <;> rfl

theorem barWrite_bar0 {off x : Nat} : s.barWrite 0 off x = if s.bar0 then s.hostReg off x else s := if_pos rfl

end Turns

/-- MRBASE and MRLOGN of a die after a write (R462). -/
theorem execMrbase_die {v : W64} {b : Bool} (hb : s.bar0 = true) (hd : s.dies[die]? = some d) :
    ∃ t, exec (.mrbase die b v) s = .next t ∧ t.mem = s.mem ∧ t.dies[die]? = some
      (if d.mrhead ≠ d.mrtail then d
       else if b then (if 4 ≤ v.toNat ∧ v.toNat ≤ 12 then { d with mrlogn := v.toNat } else d)
       else if v.toNat % 4096 = 0 then { d with mrbase := v.toNat } else d) :=
  ⟨_, execMrbase_eq hb, rfl, modDie_get hd⟩

/-- The registers of BAR0 by their offsets are those that the events name (R418). -/
theorem hostRegisters_named {v : W64} (hb : s.bar0 = true) :
    (∀ die, die < 2 → exec (.hostRegisterWrite (0x2010 + 64 * die) v) s = exec (.mrtail die v) s)
    ∧ (∀ die, die < 2 → exec (.hostRegisterWrite (0x2000 + 64 * die) v) s = exec (.mrbase die false v) s
        ∧ exec (.hostRegisterWrite (0x2008 + 64 * die) v) s = exec (.mrbase die true v) s)
    ∧ (∀ i d, i < 64 → d < 4 → exec (.hostRegisterWrite (0x1000 + 32 * i + 8 * d) v) s = exec (.hostWindowWrite i d v) s)
    ∧ (v.getLsbD 0 = true → exec (.hostRegisterWrite 8 v) s = exec .wlock s)
    ∧ exec (.hostRegisterWrite 0x2118 v) s = .next { s with ev := { s.ev with rd := v.toNat } } := by
  refine ⟨fun die hd => ?_, fun die hd => ⟨?_, ?_⟩, fun i k hi hk => ?_, fun hv => ?_, execHostRegisterWrite_eq hb⟩
  · rw [execHostRegisterWrite_eq hb, execMrtail_eq hb]
    interval_cases die <;> rfl
  · rw [execHostRegisterWrite_eq hb, execMrbase_eq hb]
    interval_cases die <;> rfl
  · rw [execHostRegisterWrite_eq hb, execMrbase_eq hb]
    interval_cases die <;> rfl
  · rw [execHostRegisterWrite_eq hb, execHostWindowWrite_eq hb hk, hostReg_window hi hk]
  · have odd : v.toNat % 2 = 1 := by
      rw [BitVec.getLsbD, Nat.testBit_zero] at hv; exact of_decide_eq_true hv
    rw [execHostRegisterWrite_eq hb, hostReg_devctl odd]
    exact (congrArg Host.Outcome.next (if_pos hb)).symm

/-- Settles O40: each register by its offset, and each write by what it may change. -/
theorem managementRegisters : Obligations.ManagementRegisters := by
  refine ⟨fun s die r => unknownCmd_answers, fun s die d next hd => congrArg Host.Outcome.next (skipCmd_skips next hd),
    fun s die d w hb hd => (execMrtail_eq hb).trans (congrArg _ (writeMrtail_eq hd)), fun s die d b v => execMrbase_die,
    fun s i w v hb hl hw => ⟨hostWindowWrite_low hb hl hw, fun k => hostWindowWrite_high hb hl hw⟩, fun s i k v hl => ?_,
    fun s hb => ⟨_, congrArg Host.Outcome.next (if_pos hb), rfl, rfl, rfl⟩, fun s v => hostRegisters_named,
    fun s bar off n rest h => by rw [step, h]; rfl, fun s bar off h => ?_,
    fun s hb => ⟨barReg_bar0 hb, barReg_bar0 hb, barReg_bar0 hb, fun die d hd h => ?_, fun i w hi hw k => barReg_window hb hi hw,
      fun i m hi hm k => barReg_measurement hb hi hm⟩,
    fun s q x hb hq hx => ?_, fun s die i r hb hd hi hr => ?_, fun s rest v t => ?_, fun s die i b v hb => ?_⟩
  · refine congrArg Host.Outcome.next ?_
    split
    · exact writeWindow_locked hl
    · rfl
  · by_cases hbar : bar = 0
    · rw [if_pos hbar] at h
      rw [State.barReg, if_pos hbar, h]; rfl
    · rw [if_neg hbar] at h
      rw [State.barReg, if_neg hbar, h]; rfl
  · obtain ⟨base, logn, tail, head⟩ := ringRegs_eq h
    exact ⟨(barReg_ring hb hd (by decide) (by omega)).trans base, (barReg_ring hb hd (by decide) (by omega)).trans logn,
      (barReg_ring hb hd (by decide) (by omega)).trans tail, (barReg_ring hb hd (by decide) (by omega)).trans head⟩
  · obtain ⟨bell, head, status⟩ := queueReg_eq hx
    exact ⟨(barReg_queue hb hq (k := 0) (by decide)).trans bell, (barReg_queue hb hq (by decide)).trans head,
      (barReg_queue hb hq (by decide)).trans status⟩
  · exact ⟨(barReg_tokenRing hb hd hi (k := 0) (by decide)).trans (by rw [State.ringReg, hr]; rfl),
      (barReg_tokenRing hb hd hi (by decide)).trans (by simp only [State.ringReg, hr]; cases r.ovf <;> rfl)⟩
  · exact ⟨fun q hq h he => step_barWrite h ((barWrite_doorbell hq).trans (Host.Outcome.next.inj he)),
      fun die i hd hi h he => step_barWrite h ((barWrite_rdidx hd hi).trans (Host.Outcome.next.inj he)),
      fun off h he => step_barWrite h (barWrite_bar0.trans (Host.Outcome.next.inj he))⟩
  · have shut : ¬ s.bar0 = true := by rw [hb]; decide
    exact ⟨congrArg _ (if_neg shut), congrArg _ (if_neg shut), congrArg _ (if_neg (by rw [hb]; decide)), congrArg _ (if_neg shut),
      congrArg _ (if_neg shut)⟩

end Sys2Proof.Machine
end

section
/-! Requests at an Iris (R366 to R368, R372 to R380, R383, R384, R388, R389): how an RTS is accepted, tokens are granted, used and lost, and how a
request changes and ends. -/
namespace Sys2Proof.Machine
open Sys2Proof.Laws Sys2Proof.Claims

section Accepts
variable {s : State} {m peer mid len prio die : Nat} {rw : W64} {pre : List MByte} {seen : List Nat} {r : Req} {w : Option Win} {b : DstBar}

/-- A repeat of an accepted RTS only shows that its sender speaks (R377). -/
theorem rtsReceive_repeats (h : Came s m peer mid (.rts len prio rw pre) seen) (hr : s.req? peer mid = some (die, r)) :
    s.rtsReceive m = (s.takeMsg m).modReq die r.seq (fun r => { r with spoke := s.dtime }) := by
  unfold Came at h
  simp only [State.rtsReceive, h, hr]
  rfl

theorem rtsReceive_refuses (h : Came s m peer mid (.rts len prio rw pre) seen) (hr : s.req? peer mid = none) (hc : s.rtsCheck peer len rw = none) :
    s.rtsReceive m = (s.takeMsg m).send peer mid (.refused 3 len) := by
  unfold Came at h
  simp only [State.rtsReceive, h, hr, hc]

theorem rtsReceive_full (h : Came s m peer mid (.rts len prio rw pre) seen) (hr : s.req? peer mid = none)
    (hc : s.rtsCheck peer len rw = some (die, w, b)) (hf : 8192 ≤ (s.iris die).reqs.length ∨ s.barFull b = true) :
    s.rtsReceive m = (s.takeMsg m).send peer mid .full := by
  unfold Came at h
  simp only [State.rtsReceive, h, hr, hc]
  exact if_pos hf

/-- The request of an accepted RTS, and its first bytes, which land (R374). -/
theorem rtsReceive_accepts (h : Came s m peer mid (.rts len prio rw pre) seen) (hr : s.req? peer mid = none)
    (hc : s.rtsCheck peer len rw = some (die, w, b)) (hl : (s.iris die).reqs.length < 8192) (hf : s.barFull b = false) :
    let r := newReq s (s.iris die) peer mid len prio rw w b (pre.take len).length seen
    s.rtsReceive m = ((s.takeMsg m).modIris die (fun x => { x with reqs := x.reqs ++ [r], next := x.next + 1 })).landPackets die r.seq [] 0 (pre.take len) := by
  unfold Came at h
  have room : ¬ (8192 ≤ (s.iris die).reqs.length ∨ s.barFull b = true) := by rw [hf]; exact fun h => h.elim (Nat.not_le.2 hl) (fun h => Bool.noConfusion h)
  simp only [State.rtsReceive, h, hr, hc]
  exact if_neg room

theorem barFull_iff {ci off : Nat} : s.barFull (.crew ci off) = true ↔ ∃ k, s.crews[ci]? = some k ∧ k.st = .saved ∧ s.holdFull k.die = true := by
  simp only [State.barFull, crewIs_iff, Bool.and_eq_true, decide_eq_true_eq]

theorem landPackets_gone {n off : Nat} {new : List Nat} {bs : List MByte} (h : s.reqAt die n = none) : s.landPackets die n new off bs = s := by
  simp only [State.landPackets, h]

theorem landPackets_lands {n off : Nat} {new : List Nat} {bs : List MByte} (h : s.reqAt die n = some r) :
    let u := (packets off bs).foldl (fun u c => match u.reqAt die n with | some r => u.landReq die r c.1 c.2 | none => u) (inWork s (addAll r.seen new))
    s.landPackets die n new off bs = { u.modReq die n (fun r => { r with seen := u.actor.past }) with actor := s.actor } := by
  simp only [State.landPackets, h]
  rfl

/-- Settles O42: an RTS by its key, its checks and the room for it. -/
theorem requestsToSendAreAccepted : Obligations.RequestsToSendAreAccepted := fun _ _ _ _ _ _ _ _ _ h =>
  ⟨fun _ _ hr => congrArg Host.Outcome.next (rtsReceive_repeats h hr), fun hr hc => congrArg Host.Outcome.next (rtsReceive_refuses h hr hc),
    fun _ _ _ hr hc => ⟨fun hf => congrArg Host.Outcome.next (rtsReceive_full h hr hc hf),
      fun hl hf => congrArg Host.Outcome.next (rtsReceive_accepts h hr hc hl hf)⟩,
    fun _ _ => barFull_iff, fun _ _ _ _ _ _ => landPackets_gone, fun _ _ _ _ _ _ _ => landPackets_lands⟩

end Accepts

section Grants
variable {s : State} {m peer mid off die level tok p : Nat} {ds : List Nat} {r : Req} {q : Nat × Nat} {bs : List MByte} {seen : List Nat} {t : Token}

/-- A grant, where the window of its port has room, and where it has none (R375). -/
theorem grant_eq (h : Grants s die level ds r q p) : s.grant die =
    if irGwin (s.iris die).cfg < (s.iris die).outstanding p + q.2 then s
    else
      let t := (({ s with nextMsg := s.nextMsg + 1 } : State).modReq die r.seq (fun r => { r with ungr := dropRange q.1 q.2 r.ungr })).modIris die (fun x =>
        { x with toks := x.toks ++ [tokenOf s die r q p], deficit := ds, turn := if 2 ≤ level then level else x.turn
                 served := (level, r.seq) :: x.served.filter (fun p => decide (p.1 ≠ level)) })
      if r.own then t.loop r.mid (.token s.nextMsg q.1 q.2 p) else t.send r.peer r.mid (.token s.nextMsg q.1 q.2 p) := by
  obtain ⟨hl, hr, rfl, rfl⟩ := h
  simp only [State.grant, hl, hr]
  rfl

theorem grant_none (h : s.grantLevel (s.iris die) = none) : s.grant die = s := by
  simp only [State.grant, h]

theorem dataLand_lands (h : Came s m peer mid (.data off bs (some tok)) seen) (hr : s.req? peer mid = some (die, r))
    (ht : s.tokenFor die tok r off bs.length = some t) :
    s.dataLand m = ((s.takeMsg m).tokenLand die t off bs.length).landPackets die r.seq seen off bs := by
  unfold Came at h
  simp only [State.dataLand, h, hr, ht]

/-- Data that names no token, or no request, is dropped (R376). -/
theorem dataLand_drops {tk : Option Nat} (h : Came s m peer mid (.data off bs tk) seen) (hn : tk = none ∨ s.req? peer mid = none) :
    s.dataLand m = s.takeMsg m := by
  unfold Came at h
  cases tk with
  | none => simp only [State.dataLand, h]
  | some tok => simp only [State.dataLand, h, hn.resolve_left (Option.some_ne_none tok)]

theorem dataLand_speaks (h : Came s m peer mid (.data off bs (some tok)) seen) (hr : s.req? peer mid = some (die, r))
    (ht : s.tokenFor die tok r off bs.length = none) : s.dataLand m = (s.takeMsg m).modReq die r.seq (fun r => { r with spoke := s.dtime }) := by
  unfold Came at h
  simp only [State.dataLand, h, hr, ht]
  rfl

theorem expireToken_early {x : Nat} (ht : (s.iris die).toks.find? (fun t => decide (t.tok = tok)) = some t) (hx : t.expiry = some x) (h : s.dtime < x) :
    s.expireToken die tok = s := by
  simp only [State.expireToken, ht, hx, decide_eq_false (Nat.not_le.2 h), Bool.not_false, if_true]

theorem expireToken_ends {x : Nat} (ht : (s.iris die).toks.find? (fun t => decide (t.tok = tok)) = some t) (hx : t.expiry = some x) (h : x ≤ s.dtime)
    (hr : (s.iris die).reqs.find? (fun r => t.of r) = some r) :
    let un := if r.own then 0 else if t.left = [(t.lo, t.n)] then r.unused + 1 else r.unused
    let r2 := { r with ungr := t.left.foldl (fun rs p => addRange p rs) r.ungr, unused := un }
    let u := (s.modIris die (fun x => { x with toks := x.toks.filter (fun u => decide (u.tok ≠ tok)) })).modReq die r.seq (fun _ => r2)
    s.expireToken die tok = if un = 3 then u.orphan die r2 else u := by
  simp only [State.expireToken, ht, hx, decide_eq_true h, Bool.not_true, Bool.false_eq_true, if_false, hr]

/-- Settles O43: a grant by the room at its port, data by its token, a token by its time. -/
theorem irisGrantsAndLandsData : Obligations.IrisGrantsAndLandsData :=
  ⟨fun _ _ _ _ _ _ _ h => ⟨fun room => congrArg Host.Outcome.next ((grant_eq h).trans (if_neg (Nat.not_lt.2 room))),
      fun full => congrArg Host.Outcome.next ((grant_eq h).trans (if_pos full))⟩,
    fun _ _ h => congrArg Host.Outcome.next (grant_none h), fun _ _ _ _ _ _ _ _ _ _ _ h hr ht => congrArg Host.Outcome.next (dataLand_lands h hr ht),
    fun _ _ _ _ _ _ _ _ h hn => congrArg Host.Outcome.next (dataLand_drops h hn),
    fun _ _ _ _ _ _ _ _ _ _ h hr ht => congrArg Host.Outcome.next (dataLand_speaks h hr ht),
    fun _ _ _ _ _ ht hx h => congrArg Host.Outcome.next (expireToken_early ht hx h),
    fun _ _ _ _ _ _ ht hx h hr => congrArg Host.Outcome.next (expireToken_ends ht hx h hr)⟩

end Grants

section Changes
variable {s : State} {m peer mid die n : Nat} {r : Req} {seen : List Nat}

theorem orphanTimeout_orphans (hr : s.reqAt die n = some r) (ho : r.own = false) (hf : r.isFrozen = false)
    (ht : r.spoke + irOrphto (s.iris die).cfg ≤ s.dtime) : s.orphanTimeout die n = s.orphan die r := by
  simp only [State.orphanTimeout, hr, ho, hf, decide_eq_true ht]
  rfl

theorem orphanTimeout_waits (hr : s.reqAt die n = some r) (h : r.own = true ∨ r.isFrozen = true ∨ s.dtime < r.spoke + irOrphto (s.iris die).cfg) :
    s.orphanTimeout die n = s := by
  simp only [State.orphanTimeout, hr]
  refine if_neg fun due => ?_
  simp only [Bool.and_eq_true, Bool.not_eq_true', decide_eq_true_eq] at due
  obtain ⟨⟨ho, hf⟩, ht⟩ := due
  rcases h with h | h | h
  · rw [ho] at h; exact Bool.noConfusion h
  · rw [hf] at h; exact Bool.noConfusion h
  · omega

theorem frozenTick_tells (hr : s.reqAt die n = some r) (ho : r.own = false) (hf : r.isFrozen = true) (ht : r.frozenAt + 100000 ≤ s.dtime) :
    s.frozenTick die n = (s.modReq die n (fun r => { r with frozenAt := s.dtime })).send r.peer r.mid .frozen := by
  simp only [State.frozenTick, hr, ho, hf, decide_eq_true ht]
  rfl

theorem frozenTick_waits (hr : s.reqAt die n = some r) (h : r.own = true ∨ r.isFrozen = false ∨ s.dtime < r.frozenAt + 100000) :
    s.frozenTick die n = s := by
  simp only [State.frozenTick, hr]
  refine if_neg fun due => ?_
  simp only [Bool.and_eq_true, Bool.not_eq_true', decide_eq_true_eq] at due
  obtain ⟨⟨ho, hf⟩, ht⟩ := due
  rcases h with h | h | h
  · rw [ho] at h; exact Bool.noConfusion h
  · rw [hf] at h; exact Bool.noConfusion h
  · omega

theorem relinquish_suspends {sent : List Nat} (h : Came s m peer mid (.relinquish sent) seen) (hr : s.req? peer mid = some (die, r)) :
    let back := (s.iris die).toks.filter (fun t => t.of r && !(sent.contains t.tok))
    s.relinquish m = ((s.takeMsg m).modIris die (fun x => { x with toks := x.toks.filter (fun t => !(t.of r) || sent.contains t.tok) })).modReq
      die r.seq (fun r => { r with ungr := (back.flatMap Token.left).foldl (fun rs p => addRange p rs) r.ungr, spoke := s.dtime
                                   st := if r.isFrozen then .frozenSusp else .suspended }) := by
  unfold Came at h
  simp only [State.relinquish, h, hr]

theorem resume_queues (h : Came s m peer mid .resume seen) (hr : s.req? peer mid = some (die, r)) :
    s.resume m = (s.takeMsg m).modReq die r.seq (fun r =>
      { r with unused := 0, spoke := s.dtime, st := if r.isFrozen then .frozen else .queued }) := by
  unfold Came at h
  simp only [State.resume, h, hr]

theorem resume_gone (h : Came s m peer mid .resume seen) (hr : s.req? peer mid = none) :
    s.resume m = (s.takeMsg m).send peer mid (.orphaned none) := by
  unfold Came at h
  simp only [State.resume, h, hr]

theorem abort_settles (h : Came s m peer mid .abort seen) (hr : s.req? peer mid = some (die, r)) :
    s.abort m = (s.takeMsg m).settleReq die r 66 := by
  unfold Came at h
  simp only [State.abort, h, hr]

theorem unsupported_answers (h : Came s m peer mid .unsupported seen) : s.unsupported m = (s.takeMsg m).send peer mid .unsupportedResp := by
  unfold Came at h
  simp only [State.unsupported, h]

/-- The bit of one port among the ports (R368, R426). -/
theorem getLsbD_port {p q : Nat} (hp : p < 18) : (1#18 <<< p).getLsbD q = decide (q = p) := by
  rw [BitVec.getLsbD_shiftLeft, BitVec.getLsbD_one]
  by_cases h : q = p
  · subst h; simp [hp]
  · simp only [h, decide_false]
    by_cases hl : q < p <;> simp [hl]
    omega

/-- Requests by their state and time, and the messages that change them. -/
theorem requestsChangeState : RequestsChangeState := by
  refine ⟨fun s die n r hr ho hf ht => congrArg Host.Outcome.next (orphanTimeout_orphans hr ho hf ht),
    fun s die n r hr h => congrArg Host.Outcome.next (orphanTimeout_waits hr h),
    fun s die n r hr ho hf ht => congrArg Host.Outcome.next (frozenTick_tells hr ho hf ht),
    fun s die n r hr h => congrArg Host.Outcome.next (frozenTick_waits hr h),
    fun s m peer mid sent seen die r h hr => congrArg Host.Outcome.next (relinquish_suspends h hr),
    fun s m peer mid seen die r h hr => congrArg Host.Outcome.next (resume_queues h hr),
    fun s m peer mid seen h hr => congrArg Host.Outcome.next (resume_gone h hr),
    fun s m peer mid seen die r h hr => congrArg Host.Outcome.next (abort_settles h hr),
    fun s m peer mid seen h => congrArg Host.Outcome.next (unsupported_answers h),
    fun s p hp => ⟨_, _, rfl, rfl, rfl, rfl, rfl, rfl, ?_, ?_, fun q hq => ⟨?_, ?_⟩⟩⟩
  · rw [BitVec.getLsbD_and, BitVec.getLsbD_not, getLsbD_port hp]; simp
  · rw [BitVec.getLsbD_or, getLsbD_port hp]; simp
  · rw [BitVec.getLsbD_and, BitVec.getLsbD_not, getLsbD_port hp, decide_eq_false hq]
    by_cases h : q < 18
    · simp [h]
    · simp [h, BitVec.getLsbD_of_ge _ q (Nat.not_lt.1 h)]
  · rw [BitVec.getLsbD_or, getLsbD_port hp, decide_eq_false hq, Bool.or_false]

end Changes

section Reads
variable {s : State} {m peer mid lo n tok p : Nat} {rw : W64} {seen : List Nat} {w : Win} {ks : List (Nat × Nat)}

/-- The packets of bytes are the bytes in order, and none is empty or longer than 4,096 (R366). -/
theorem chunks_flatMap (fuel off : Nat) (bs : List MByte) (h : bs.length < 4096 * fuel) : (chunks fuel off bs).flatMap Prod.snd = bs := by
  induction fuel generalizing off bs with
  | zero => omega
  | succ fuel ih =>
    rw [chunks]
    split
    next hb => exact hb.symm
    next hb =>
      have rest : (bs.drop 4096).length < 4096 * fuel ∨ bs.drop 4096 = [] := by
        rw [List.length_drop, List.drop_eq_nil_iff]; omega
      rw [List.flatMap_cons]
      have later : (chunks fuel (off + 4096) (bs.drop 4096)).flatMap Prod.snd = bs.drop 4096 := by
        rcases rest with rest | rest
        · exact ih _ _ rest
        · rw [rest]; cases fuel <;> rfl
      rw [later, List.take_append_drop]

theorem chunks_mem {fuel off : Nat} {bs : List MByte} {c : Nat × List MByte} (h : c ∈ chunks fuel off bs) : c.2 ≠ [] ∧ c.2.length ≤ 4096 := by
  induction fuel generalizing off bs with
  | zero => exact absurd h List.not_mem_nil
  | succ fuel ih =>
    rw [chunks] at h
    split at h
    next => exact absurd h List.not_mem_nil
    next hb =>
      rcases List.mem_cons.1 h with rfl | h
      · exact ⟨by simpa using hb, by simp⟩
      · exact ih h

theorem packets_flatMap (lo : Nat) (bs : List MByte) : (packets lo bs).flatMap Prod.snd = bs := chunks_flatMap _ _ _ (by omega)

/-- The bytes of cut words are bytes of the message (R211). -/
theorem cutOffs_lt {a len lo n i : Nat} (h : i ∈ cutOffs a len lo n) : i < len := by
  obtain ⟨c, -, hc⟩ := List.mem_flatMap.1 h
  obtain ⟨j, hj, rfl⟩ := List.mem_map.1 hc
  have := List.mem_range.1 hj
  have : wordHi a len c ≤ len := Nat.min_le_left _ _
  omega

theorem readServe_serves (h : Came s m peer mid (.rmaRead rw lo n tok) seen) (hw : s.winFor peer 1 rw = some w) (hi : rwInb rw = false)
    (hl : rwOff rw + lo + n ≤ w.len) (hk : WindowKeys s w rw lo n p (.ok ks)) :
    let a := w.base + rwOff rw
    let len := w.len - rwOff rw
    let t := inWork (s.takeMsg m) seen
    let bs := ks.flatMap (fun q => t.memBytes q.1 q.2)
    let whole := fun (c : Nat × List MByte) => (numbered p bs).filter (fun x => (cutOffs a len c.1 c.2.length).contains x.1)
    s.readServe m = { (packets lo ((bs.drop (lo - p)).take n)).foldl (fun u c => u.send peer mid (.rmaResp c.1 tok c.2 (whole c))) t with
      actor := s.actor } := by
  unfold Came at h
  obtain ⟨rfl, hk⟩ := hk
  have admitted : ¬ (rwInb rw = true ∨ w.len < rwOff rw + lo + n) := by rw [hi]; exact fun h => h.elim (fun h => Bool.noConfusion h) (by omega)
  simp only [State.readServe, h, hw, if_neg admitted, hk, rmaPackets, List.foldl_map]
  rfl

theorem readServe_refuses (h : Came s m peer mid (.rmaRead rw lo n tok) seen)
    (hw : s.winFor peer 1 rw = none ∨ rwInb rw = true ∨ ∃ w, s.winFor peer 1 rw = some w ∧ (w.len < rwOff rw + lo + n
      ∨ ∃ p f, WindowKeys s w rw lo n p (.error f))) : s.readServe m = (s.takeMsg m).send peer mid (.refused 3 n) := by
  unfold Came at h
  simp only [State.readServe, h]
  cases hwin : s.winFor peer 1 rw with
  | none => rfl
  | some w =>
    by_cases outside : rwInb rw = true ∨ w.len < rwOff rw + lo + n
    · exact if_pos outside
    · obtain ⟨p, f, rfl, hk⟩ : ∃ p f, WindowKeys s w rw lo n p (.error f) := by
        rcases hw with hw | hw | ⟨w', hw', long | bad⟩
        · exact nomatch hwin.symm.trans hw
        · exact absurd (.inl hw) outside
        · obtain rfl := Option.some.inj (hwin.symm.trans hw')
          exact absurd (.inr long) outside
        · obtain rfl := Option.some.inj (hwin.symm.trans hw')
          exact bad
      simp only [if_neg outside, hk]

/-- A read by its window and its range. -/
theorem remoteReadsAreServed : RemoteReadsAreServed :=
  ⟨fun _ _ _ _ _ _ _ _ _ _ _ _ h hw hi hl hk => congrArg Host.Outcome.next (readServe_serves h hw hi hl hk),
    fun lo bs => ⟨packets_flatMap lo bs, fun _ => chunks_mem⟩, fun _ _ _ _ _ => cutOffs_lt,
    fun _ _ _ _ _ _ _ _ _ h hw => congrArg Host.Outcome.next (readServe_refuses h hw)⟩

/-- Settles O44: the events of requests, and remote reads. -/
theorem requestsChangeAndReadsAreServed : Obligations.RequestsChangeAndReadsAreServed := ⟨requestsChangeState, remoteReadsAreServed⟩

end Reads

end Sys2Proof.Machine
end

section
/-! PUT, GET, RATOM and REDNET at issue (R381 to R385, R391): their checks pass, in order. -/
namespace Sys2Proof.Machine
open Sys2Proof.Laws Sys2Proof.Claims

variable {s : State} {e : Env} {o : OpX3}

/-- The operands of a remote atomic are read in the order of its checks (R63, R118, R413). -/
theorem ratomSources_ok {v : VEnv} {r : Nat} {rs : List Nat} (h : Readable v.w (runSrc v (r :: rs))) :
    emptyCheck v.w (runSrc v (r :: rs)) = .ok () ∧ pendCheck v.w (runSrc v (r :: rs)) = .ok () ∧ poisonCheck v.w 0 (runSrc v [r]) = .ok ()
      ∧ poisonCheck v.w 1 (runSrc v (r :: rs)) = .ok () :=
  ⟨emptyCheck_ok h, pendCheck_ok h, poisonCheck_ok fun x hx => h x (by
      obtain rfl := List.mem_singleton.1 hx
      exact List.mem_cons_self), poisonCheck_ok h⟩

theorem execPut_issues (hi : Issues s (.put o) e) (hr : ThreeReady s e o) (hz : ncZeros (s.sreg e.who o.c.toNat) = true)
    (hx : (s.sreg e.who o.c.toNat).getLsbD 26 = false) (hc : s.cpCount e.k < 64) :
    let ctl := s.sreg e.who o.c.toNat
    exec (.put o) s = .next (after e (if ncLen ctl = 0 then s.asOp (e.newOp s e.m0) (fun u => u.cpBarUpd e.ci ctl (.arrive 1 false))
        else s.addNet e (transferOf s e 0 (s.sreg e.who o.b.toNat) ctl (s.sreg e.who o.a.toNat).toNat (ncLen ctl)))) := by
  obtain ⟨ha, hb, hc'⟩ := hr
  refine run_ready hi ?_
  simp only [rdS_ok ha, rdS_ok hb, rdS_ok hc', need_ok, hz, hx, waitUnless_ok (decide_eq_true hc), Bool.not_false, Bool.and_self, exe_ok_bind, exe_pure]
  rfl

theorem execGet_issues (hi : Issues s (.get o) e) (hr : ThreeReady s e o) (hz : ncZeros (s.sreg e.who o.c.toNat) = true)
    (hcls : ncClass (s.sreg e.who o.c.toNat) = 0) (hx : (s.sreg e.who o.c.toNat).getLsbD 26 = true → (s.sreg e.who o.c.toNat).getLsbD 25 = true)
    (hin : rwInb (s.sreg e.who o.b.toNat) = false) (hc : s.cpCount e.k < 64)
    (hl : e.k.canArm (getLines e.k (s.sreg e.who o.a.toNat).toNat (ncLen (s.sreg e.who o.c.toNat))) = true) :
    let ctl := s.sreg e.who o.c.toNat
    let a := (s.sreg e.who o.a.toNat).toNat
    let t := s.modCrew e.ci (fun k => k.armLines (getLines e.k a (ncLen ctl)))
    let u := if ctl.getLsbD 26 then t.cpBarUpd e.ci ctl (.expect (ncLen ctl)) else t
    exec (.get o) s = .next (after e (if ncLen ctl = 0 then s
        else u.addNet e { transferOf s e 1 (s.sreg e.who o.b.toNat) ctl a (ncLen ctl) with lines := getLines e.k a (ncLen ctl) })) := by
  obtain ⟨ha, hb, hc'⟩ := hr
  have form : (ncZeros (s.sreg e.who o.c.toNat) && decide (ncClass (s.sreg e.who o.c.toNat) = 0)
      && (!((s.sreg e.who o.c.toNat).getLsbD 26) || (s.sreg e.who o.c.toNat).getLsbD 25) && !(rwInb (s.sreg e.who o.b.toNat))) = true := by
    rw [hz, decide_eq_true hcls, hin]
    cases h : (s.sreg e.who o.c.toNat).getLsbD 26
    · rfl
    · rw [hx h]; rfl
  have room : (decide (s.cpCount e.k < 64) && e.k.canArm (getLines e.k (s.sreg e.who o.a.toNat).toNat (ncLen (s.sreg e.who o.c.toNat)))) = true := by
    rw [decide_eq_true hc, hl]; rfl
  refine run_ready hi ?_
  simp only [rdS_ok ha, rdS_ok hb, rdS_ok hc', need_ok form, waitUnless_ok room, exe_ok_bind, exe_pure]
  rfl

theorem execRatom_issues {v : VEnv} {n : Nat} (hi : Issues s (.ratom o) e) (hv : venv s e = .ok v) (hb : SReady s e o.b.toNat)
    (hc : SReady s e o.c.toNat) (hz : (s.sreg e.who o.c.toNat).toNat / 2 ^ 6 = 0) (hn : n = (if (s.sreg e.who o.c.toNat).getLsbD 4 then 8 else 4))
    (hin : rwInb (s.sreg e.who o.b.toNat) = false)
    (hr : InRange e (o.a.toNat :: runOf (o.a.toNat + 1) (if bitsOf (s.sreg e.who o.c.toNat) 3 0 = 1 then 2 * n else n)))
    (hx : Readable v.w ((o.a.toNat :: runOf (o.a.toNat + 1) (if bitsOf (s.sreg e.who o.c.toNat) 3 0 = 1 then 2 * n else n)).map
      (fun r => ⟨r, v.act, false⟩)))
    (hf : FreeLanes v.w (runOf (o.a.toNat + 1) n) v.act) (hs : s.storesOut e.who = false)
    (ho : s.olderPending e.who s.nextOp e.m0 true = false) :
    let ctl := s.sreg e.who o.c.toNat
    let rw := s.sreg e.who o.b.toNat
    let vt := o.a.toNat
    let aop := bitsOf ctl 3 0
    let lanes := (lanesOf v.act).map (fun l => (⟨l, alignDown (rwOff rw + (v.w.lane vt l).data.toNat) n, atomVal v aop (vt + 1) n l,
      atomVal v aop (if aop = 1 then vt + 1 + n / 4 else vt + 1) n l⟩ : RaLane))
    let q := { e.newOp s v.act with fills := lanes.map (fun l => ⟨l.lane, .unit⟩), eng := some (.ra s.nextMsg (vt + 1) n s.dtime rw) }
    let t := (({ s with nextMsg := s.nextMsg + 1 } : State).modWarp e.ci e.wi (fun w => w.setPending (runOf (vt + 1) n) v.act)).addOp q
    exec (.ratom o) s = .next (after e (if v.act = 0 then s
      else t.asOp q (fun u => u.send (rwDev rw) s.nextMsg (.ratom aop n (ctl.getLsbD 5) rw lanes)))) := by
  subst hn
  obtain ⟨env, mask⟩ := venv_ok.1 hv
  obtain ⟨empty, pend, addr, data⟩ := ratomSources_ok hx
  have form : (decide ((s.sreg e.who o.c.toNat).toNat / 2 ^ 6 = 0) && !(rwInb (s.sreg e.who o.b.toNat))) = true := by
    rw [decide_eq_true hz, hin]; rfl
  have performed : (!(s.storesOut e.who) && !(s.olderPending e.who s.nextOp e.m0 true)) = true := by rw [hs, ho]; rfl
  refine run_ready hi ?_
  simp only [env, rdSw_ok hb, rdSw_ok hc, need_ok form, regsOk_ok hr, empty, pend, mask, sOk_ok hb, sOk_ok hc, addr, data, dstFree_ok hf,
    waitUnless_ok performed, exe_ok_bind, exe_pure]

theorem execRednet_issues {g : RedGrp} (hi : Issues s (.rednet o) e) (hr : ThreeReady s e o)
    (hg : s.redgrps.find? (fun g => decide (g.idx = bitsOf (s.sreg e.who o.b.toNat) 55 48 ∧ g.ctxid = e.k.ctxid)) = some g)
    (hf : rnFmt (s.sreg e.who o.c.toNat) ∈ [0, 1, 3, 4, 11]) (h1 : bitsOf (s.sreg e.who o.b.toNat) 63 56 = 0)
    (h2 : bitsOf (s.sreg e.who o.b.toNat) 47 32 = 0) (h3 : bitsOf (s.sreg e.who o.c.toNat) 19 16 = 0) (hop : rnOp (s.sreg e.who o.c.toNat) ≤ 3)
    (hlen : rnCount (s.sreg e.who o.c.toNat) * max (fmtWidth (rnFmt (s.sreg e.who o.c.toNat))) (rnOut (s.sreg e.who o.c.toNat)) / 8 ≤ 8192)
    (hint : rnFmt (s.sreg e.who o.c.toNat) = 11 → rnOp (s.sreg e.who o.c.toNat) ≠ 3 ∧ rnRf (s.sreg e.who o.c.toNat) = false)
    (hx : (s.sreg e.who o.c.toNat).getLsbD 21 = true → (s.sreg e.who o.c.toNat).getLsbD 20 = true) (hc : s.cpCount e.k < 64) :
    let ctl := s.sreg e.who o.c.toNat
    let t := if ctl.getLsbD 21 ∧ e.k.z ≠ 0 then s.barUpd e.ci (cpBarOff e.k ctl) (.expect (32 + rnPayload ctl)) else s
    exec (.rednet o) s = .next (after e (t.addNet e
      { transferOf s e 3 (s.sreg e.who o.b.toNat) ctl (s.sreg e.who o.a.toNat).toNat (32 + rnPayload ctl) with
        left := [], unconf := [], grp := some g })) := by
  obtain ⟨ha, hb, hc'⟩ := hr
  have format : decide (rnFmt (s.sreg e.who o.c.toNat) = 0 ∨ rnFmt (s.sreg e.who o.c.toNat) = 1 ∨ rnFmt (s.sreg e.who o.c.toNat) = 3
      ∨ rnFmt (s.sreg e.who o.c.toNat) = 4 ∨ rnFmt (s.sreg e.who o.c.toNat) = 11) = true := decide_eq_true (by simpa using hf)
  have fields : (decide (bitsOf (s.sreg e.who o.b.toNat) 63 56 = 0 ∧ bitsOf (s.sreg e.who o.b.toNat) 47 32 = 0
      ∧ bitsOf (s.sreg e.who o.c.toNat) 19 16 = 0 ∧ rnOp (s.sreg e.who o.c.toNat) ≤ 3) && (some g).isSome) = true := by
    rw [decide_eq_true ⟨h1, h2, h3, hop⟩]; rfl
  have sizes : (decide (rnCount (s.sreg e.who o.c.toNat) * max (fmtWidth (rnFmt (s.sreg e.who o.c.toNat))) (rnOut (s.sreg e.who o.c.toNat)) / 8 ≤ 8192)
      && (decide (rnFmt (s.sreg e.who o.c.toNat) ≠ 11) || (decide (rnOp (s.sreg e.who o.c.toNat) ≠ 3) && !(rnRf (s.sreg e.who o.c.toNat))))
      && (!((s.sreg e.who o.c.toNat).getLsbD 21) || (s.sreg e.who o.c.toNat).getLsbD 20)) = true := by
    simp only [Bool.and_eq_true, Bool.or_eq_true, Bool.not_eq_true', decide_eq_true_eq]
    refine ⟨⟨hlen, or_iff_not_imp_left.2 fun h => hint (not_not.1 h)⟩, or_iff_not_imp_left.2 fun h => hx (by simpa using h)⟩
  refine run_ready hi ?_
  simp only [rdS_ok ha, rdS_ok hb, rdS_ok hc', need_ok format, hg, need_ok fields, need_ok sizes, waitUnless_ok (decide_eq_true hc), exe_ok_bind, exe_pure]
  rfl

/-- A PUT that asks for EXP is ill-formed (R382). -/
theorem execPut_traps (hi : Issues s (.put o) e) (hr : ThreeReady s e o) (hx : (s.sreg e.who o.c.toNat).getLsbD 26 = true) :
    exec (.put o) s = .next ((s.raise e (trapWord 1 (BitVec.ofNat 64 (6 * 2 ^ 56 + e.h.word % 2 ^ 32)))).ctxSettle e.who) := by
  obtain ⟨ha, hb, hc⟩ := hr
  have bad : (ncZeros (s.sreg e.who o.c.toNat) && !((s.sreg e.who o.c.toNat).getLsbD 26)) = false := by rw [hx]; exact Bool.and_false _
  refine runH_trap hi ?_
  simp only [rdS_ok ha, rdS_ok hb, rdS_ok hc, need_fails bad, exe_ok_bind]
  rfl

/-- Settles O26: each instruction by its checks. -/
theorem transfersIssue : Obligations.TransfersIssue :=
  ⟨fun _ _ _ hi ⟨hr, hz, hx, hc⟩ => execPut_issues hi hr hz hx hc,
    fun _ _ _ hi ⟨hr, hz, hcls, hx, hin, hc, hl⟩ => execGet_issues hi hr hz hcls hx hin hc hl,
    fun _ _ _ _ _ hi ⟨hv, hb, hc, hz, hn, hin, hr, hx, hf, hs, ho⟩ => execRatom_issues hi hv hb hc hz hn hin hr hx hf hs ho,
    fun _ _ _ _ hi ⟨hr, hg, hf, h1, h2, h3, hop, hlen, hint, hx, hc⟩ => execRednet_issues hi hr hg hf h1 h2 h3 hop hlen hint hx hc,
    fun _ _ _ hi ⟨hr, hx⟩ => execPut_traps hi hr hx⟩

end Sys2Proof.Machine
end

section
/-! How a transfer sends (R374, R376, R378, R379, R381): its request leaves, and tokens that come to it are answered. -/
namespace Sys2Proof.Machine
open Sys2Proof.Laws Sys2Proof.Claims

section Asks
variable {s u : State} {id p m : Nat} {o : Op} {n : NetOp} {k : Crew} {bs : List MByte}

/-- The bytes that a request carries with it have been read, or there are none (R374). -/
theorem sendRts_asks (hp : p = min n.len (irPrefix (s.iris n.die).cfg (ncClass n.ctl)))
    (hb : (p = 0 ∧ bs = []) ∨ (p ≠ 0 ∧ s.putRead o n 0 p = .bytes bs)) : s.sendRts o n = asksWith s o n p bs := by
  subst hp
  rcases hb with ⟨h0, rfl⟩ | ⟨h0, hr⟩
  · simp only [State.sendRts, if_pos h0, asksWith]
  · simp only [State.sendRts, if_neg h0, hr, asksWith]

theorem rtsRetry_first (h : Sending s id o n) (hr : n.rts = false) :
    s.rtsRetry id = if n.fn = 0 then s.asOp o (fun s => s.sendRts o n) else s.registerOwn o n := by
  obtain ⟨hn, ready⟩ := h
  simp only [State.rtsRetry, hn, ready, hr, Bool.not_true, Bool.false_eq_true, if_false, Bool.not_false, if_true]

theorem rtsRetry_full (h : Sending s id o n) (hr : n.rts = true) (hm : s.fullMsg? n.mid = some m) :
    s.rtsRetry id = if n.sentAt + 2000 ≤ s.dtime then (s.takeMsg m).asOp o (fun s => s.sendRts o n) else s := by
  obtain ⟨hn, ready⟩ := h
  simp only [State.rtsRetry, hn, ready, hr, hm, Bool.not_true, Bool.false_eq_true, if_false]

theorem rtsRetry_sent (h : Sending s id o n) (hr : n.rts = true) (hm : s.fullMsg? n.mid = none) : s.rtsRetry id = s := by
  obtain ⟨hn, ready⟩ := h
  simp only [State.rtsRetry, hn, ready, hr, hm, Bool.not_true, Bool.false_eq_true, if_false]

/-- A step of an operation's thread from a state with the agent of `s`. -/
theorem next_asOp {f : State → State} {t : State} (ha : u.actor = s.actor) (h : f (inThread u o) = t) :
    (.next (u.asOp o f) : Host.Outcome State Fault Refusal) = leaves s t := by
  rw [leaves, ← h, ← ha]; rfl

/-- The request that a GET or a REDNET registers at its own Iris (R379). -/
def ownReqOf (s : State) (o : Op) (n : NetOp) (k : Crew) : Req :=
  { seq := (s.iris n.die).next, peer := s.devid.toNat, mid := n.mid, own := true
    prio := if n.fn = 3 then bitsOf n.ctl 15 13 else bitsOf n.ctl 47 45, rword := n.rword, win := none
    bar := if n.ben = true ∧ k.z ≠ 0 then .crew o.crew (cpBarOff k n.ctl) else .none, len := n.len
    ungr := [(0, n.len)], unland := [(0, n.len)], st := .queued, unused := 0, spoke := s.dtime
    frozenAt := s.dtime, silent := 0, held := [], seen := [] }

theorem registerOwn_eq (hk : s.crews[o.crew]? = some k) : s.registerOwn o n = if 8192 ≤ (s.iris n.die).reqs.length then s
    else (s.modIris n.die (fun x => { x with reqs := x.reqs ++ [ownReqOf s o n k], next := x.next + 1 })).setNet o.id
      { n with rts := true, sentAt := s.dtime, last := s.dtime } := by
  simp only [State.registerOwn, hk, Bool.and_eq_true, decide_eq_true_eq]
  rfl

end Asks

section Tokens
variable {s : State} {m peer tok lo len port : Nat} {seen : List Nat} {o : Op} {n : NetOp} {bs : List MByte}

/-- What happens before a message joins the thread of the step, and nothing else changes (R387). -/
theorem actJoins_keeps (s : State) (seen : List Nat) : ∃ j a, s.actJoins seen = { s with joins := j, actor := a } := by
  unfold State.actJoins
  split
  · exact ⟨_, _, rfl⟩
  · cases s.actor.agent <;> exact ⟨_, _, rfl⟩

theorem hearing_keeps (s : State) (o : Op) (seen : List Nat) : ∃ j a, hearing s o seen = { s with joins := j, actor := a } := by
  obtain ⟨j, a, h⟩ := actJoins_keeps (inThread s o) seen
  exact ⟨j, a, h⟩

theorem hearing_dtime (s : State) (o : Op) (seen : List Nat) : (hearing s o seen).dtime = s.dtime := by
  obtain ⟨j, a, h⟩ := hearing_keeps s o seen
  rw [h]

theorem netReady_runs (h : s.netReady o = true) : s.opRuns o = true := (Bool.and_eq_true_iff.1 h).1

theorem putSend_sends {u : State} (h : u.putRead o n lo len = .bytes bs) : u.putSend m o n tok lo len = sendsUnder u m tok lo len o n bs := by
  simp only [State.putSend, h, sendsUnder]

theorem putSend_waits {u : State} (h : u.putRead o n lo len = .wait) :
    u.putSend m o n tok lo len = if n.heard.contains tok then u else u.setNet o.id { n with heard := tok :: n.heard, last := u.dtime } := by
  simp only [State.putSend, h, State.tokenHeard]

/-- What a token makes a transfer that can act do (R376, R379, R391). -/
def tokenStep (m peer tok lo len : Nat) (o : Op) (n : NetOp) (u : State) : State :=
  match n.fn with
  | 0 => if peer = rwDev n.rword ∧ lo + len ≤ n.len then u.putSend m o n tok lo len else u.takeMsg m
  | 1 => ((u.takeMsg m).setNet o.id { n with asked := true, asks := newAsks u.dtime lo len n.asks }).send (rwDev n.rword) n.mid
          (.rmaRead n.rword lo len tok)
  | _ => u.redSend m o n

theorem tokenReceive_heard (h : Came s m peer n.mid (.token tok lo len port) seen) (hn : s.net? n.mid = some (o, n)) (hr : s.netReady o = true) :
    s.tokenReceive m = s.netHeard o seen (tokenStep m peer tok lo len o n) := by
  unfold Came at h
  simp only [State.tokenReceive, h, hn, netReady_runs hr, hr, Bool.not_true, Bool.false_eq_true, if_false]
  rfl

theorem tokenStep_put (u : State) (hf : n.fn = 0) (hp : peer = rwDev n.rword) (hl : lo + len ≤ n.len) :
    tokenStep m peer tok lo len o n u = u.putSend m o n tok lo len := by
  simp only [tokenStep, hf, if_pos (And.intro hp hl)]

theorem tokenStep_get (u : State) (hf : n.fn = 1) : tokenStep m peer tok lo len o n u =
    ((u.takeMsg m).setNet o.id { n with asked := true, asks := newAsks u.dtime lo len n.asks }).send (rwDev n.rword) n.mid
      (.rmaRead n.rword lo len tok) := by
  unfold tokenStep
  split
  next h => rw [hf] at h; exact absurd h (by decide)
  next => rfl
  next _ h => exact absurd hf h

theorem tokenStep_red (u : State) (hf : n.fn = 3) : tokenStep m peer tok lo len o n u = u.redSend m o n := by
  simp only [tokenStep, hf]

theorem tokenReceive_saved (h : Came s m peer n.mid (.token tok lo len port) seen) (hn : s.net? n.mid = some (o, n)) (hr : s.opRuns o = false) :
    s.tokenReceive m = if n.fn = 3 then s else s.takeMsg m := by
  unfold Came at h
  simp only [State.tokenReceive, h, hn, hr, Bool.not_false, if_true]

theorem tokenReceive_gone {mid : Nat} (h : Came s m peer mid (.token tok lo len port) seen) (hn : s.net? mid = none) :
    s.tokenReceive m = s.takeMsg m := by
  unfold Came at h
  simp only [State.tokenReceive, h, hn]

/-- A message that a transfer hears is a step of its thread. -/
theorem next_netHeard {u t : State} {f : State → State} (ha : u.actor = s.actor) (h : f (hearing u o seen) = t) :
    (.next (u.netHeard o seen f) : Host.Outcome State Fault Refusal) = leaves s t := next_asOp ha h

theorem redSend_contributes {u : State} (h : u.netRead o n.addr (rnCount n.ctl * fmtWidth (rnFmt n.ctl) / 8) = .bytes bs) :
    u.redSend m o n = (((u.takeMsg m).netJoined o n.addr (rnCount n.ctl * fmtWidth (rnFmt n.ctl) / 8)).setNet o.id
      { n with asked := true, last := u.dtime }).loop n.mid (.contrib (contribOf n bs)) := by
  simp only [State.redSend, h]

end Tokens

/-- Settles O45: a request by whether it has left, a token by the transfer that it comes to. -/
theorem transfersSend : Obligations.TransfersSend := by
  refine ⟨fun s id o n u p bs h hf hu hp hb => ?_, fun s id o n k h hr hf hk => congrArg Host.Outcome.next ?_,
    fun s id o n m h hr hm ht => congrArg Host.Outcome.next ((rtsRetry_full h hr hm).trans (if_neg (Nat.not_le.2 ht))),
    fun s id o n h hr hm => congrArg Host.Outcome.next (rtsRetry_sent h hr hm),
    fun s m peer tok lo len port seen o n bs ⟨h, hn, hd⟩ hr hf hl => ?_, fun s m peer tok lo len port seen o n h hn hr hf => ?_,
    fun s m peer tok lo len port seen o n h hn hr => congrArg Host.Outcome.next (tokenReceive_saved h hn hr),
    fun s m peer tok lo len port seen o n bs h hn hr hf hb => ?_,
    fun s m peer mid tok lo len port seen h hn => congrArg Host.Outcome.next (tokenReceive_gone h hn)⟩
  · rcases hu with ⟨hr, rfl⟩ | ⟨hr, m, hm, ht, rfl⟩
    · exact (congrArg Host.Outcome.next ((rtsRetry_first h hr).trans (if_pos hf))).trans (next_asOp rfl (sendRts_asks hp hb))
    · exact (congrArg Host.Outcome.next ((rtsRetry_full h hr hm).trans (if_pos ht))).trans (next_asOp rfl (sendRts_asks hp hb))
  · exact (rtsRetry_first h hr).trans ((if_neg hf).trans (registerOwn_eq hk))
  · have step := congrArg (Host.Outcome.next (φ := Fault) (ρ := Refusal)) (tokenReceive_heard h hn hr)
    exact ⟨fun hb => step.trans (next_netHeard rfl ((tokenStep_put _ hf hd hl).trans (putSend_sends hb))),
      fun hw => step.trans (next_netHeard rfl ((tokenStep_put _ hf hd hl).trans ((putSend_waits hw).trans (by rw [hearing_dtime]))))⟩
  · exact (congrArg Host.Outcome.next (tokenReceive_heard h hn hr)).trans (next_netHeard rfl ((tokenStep_get _ hf).trans (by rw [hearing_dtime])))
  · exact (congrArg Host.Outcome.next (tokenReceive_heard h hn hr)).trans
      (next_netHeard rfl ((tokenStep_red _ hf).trans ((redSend_contributes hb).trans (by rw [hearing_dtime]))))

end Sys2Proof.Machine
end

section
/-! How a PUT and a GET end (R372, R376 to R379, R383, R384, R386, R388): the messages that end them, answers that land, and silence. -/
namespace Sys2Proof.Machine
open Sys2Proof.Laws Sys2Proof.Claims

section Puts
variable {s : State} {id m peer : Nat} {seen : List Nat} {o : Op} {n : NetOp}

theorem finishedMsg_ends (h : Hears s m peer .finished seen o n) (hf : n.fn = 0) :
    s.finishedMsg m = (s.takeMsg m).netHeard o seen (fun s => s.putEnd o n none) := by
  obtain ⟨hm, hn, hp⟩ := h
  unfold Came at hm
  simp only [State.finishedMsg, hm, hn]
  exact if_pos ⟨hf, hp⟩

theorem orphanedMsg_ends {short : Option Nat} (h : Hears s m peer (.orphaned short) seen o n) (hf : n.fn = 0) :
    s.orphanedMsg m = ((s.takeMsg m).netErr o.crew 5 0 (some (rwDev n.rword)) (target n)).netHeard o seen
      (fun s => s.putEnd o n (some (short.getD (rangeSum n.unconf), 68))) := by
  obtain ⟨hm, hn, hp⟩ := h
  unfold Came at hm
  simp only [State.orphanedMsg, hm, hn]
  exact if_pos ⟨hf, hp⟩

/-- A refusal reaches a transfer, by the transfer's function (R372, R383, R384). -/
theorem refusalMsg_put {reason short : Nat} (h : Hears s m peer (.refused reason short) seen o n) (hf : n.fn = 0) :
    s.refusalMsg m = ((s.takeMsg m).netErr o.crew reason 0 (some (rwDev n.rword)) (target n)).netHeard o seen
      (fun s => s.putEnd o n (some (short, 66))) := by
  obtain ⟨hm, hn, hp⟩ := h
  unfold Came at hm
  simp only [State.refusalMsg, hm, hn, if_pos hp, hf]
  rfl

theorem refusalMsg_get {reason short : Nat} (h : Hears s m peer (.refused reason short) seen o n) (hf : n.fn = 1) :
    s.refusalMsg m = ((s.takeMsg m).netErr o.crew reason 1 (some (rwDev n.rword)) (target n)).netHeard o seen (fun s => s.getFail o n 66) := by
  obtain ⟨hm, hn, hp⟩ := h
  unfold Came at hm
  simp only [State.refusalMsg, hm, hn, if_pos hp, hf]
  rfl

theorem frozenReceive_heard (h : Came s m peer n.mid .frozen seen) (hn : s.net? n.mid = some (o, n)) :
    s.frozenReceive m = (s.takeMsg m).setNet o.id { n with last := s.dtime } := by
  unfold Came at h
  simp only [State.frozenReceive, h, hn]

theorem transferTimeout_put (ho : s.op? id = some o) (he : o.eng = some (.net n)) (hr : s.opRuns o = true) (ht : Silent s n.last n.die) (hf : n.fn = 0)
    (hs : n.rts = true) (hm : s.fullMsg? n.mid = none) :
    s.transferTimeout id = (s.netErr o.crew 6 0 (some (rwDev n.rword)) (target n)).asOp o (fun s => s.putEnd o n (some (rangeSum n.unconf, 69))) := by
  unfold Silent at ht
  simp only [State.transferTimeout, ho, he, hf, hr, hs, hm, Nat.not_lt.2 ht]
  rfl

/-- A transfer other than a GET waits for the whole of XFERTO (R378). -/
theorem transferTimeout_early (ho : s.op? id = some o) (he : o.eng = some (.net n)) (hf : n.fn ≠ 1) (ht : ¬ Silent s n.last n.die) :
    s.transferTimeout id = s := by
  simp only [State.transferTimeout, ho, he, if_neg hf]
  exact if_pos (.inr (Nat.not_le.1 ht))

/-- PUTs by the message that ends them, or by their silence. -/
theorem putsEnd : PutsEnd :=
  ⟨fun _ _ _ _ _ _ h hf => (congrArg Host.Outcome.next (finishedMsg_ends h hf)).trans (next_netHeard rfl rfl),
    fun _ _ _ _ _ _ _ h hf => (congrArg Host.Outcome.next (orphanedMsg_ends h hf)).trans (next_netHeard rfl rfl),
    fun _ _ _ _ _ _ _ _ h hf => (congrArg Host.Outcome.next (refusalMsg_put h hf)).trans (next_netHeard rfl rfl),
    fun _ _ _ _ _ _ h hn => congrArg Host.Outcome.next (frozenReceive_heard h hn),
    fun s _ o n ho he hr ht hf hs hm => (congrArg Host.Outcome.next (transferTimeout_put ho he hr ht hf hs hm)).trans
      ((next_asOp (s := s.netErr o.crew 6 0 (some (rwDev n.rword)) (target n)) rfl rfl).trans rfl),
    fun _ _ _ _ ho he hf ht => congrArg Host.Outcome.next (transferTimeout_early ho he hf ht)⟩

end Puts

section Gets
variable {s u v : State} {id m peer lo tok at_ got len : Nat} {seen : List Nat} {o : Op} {n n1 : NetOp} {k : Crew} {r : Req}
  {bs xs : List MByte} {edge : List (Nat × MByte)}

/-- A response that a GET takes up or is landing is a step of its thread (R376, R384, R387). -/
theorem responseLand_lands (h : Hears s m peer (.rmaResp lo tok bs edge) seen o n) (hf : n.fn = 1) (hr : s.ownReq? n.die n.mid = some r)
    (hk : s.crews[o.crew]? = some k) (hs : k.st ≠ .saved) (hl : Claims.Landing s m lo tok bs edge n r n1 v) :
    s.responseLand m = v.netHeard o seen (fun u => u.getLand m o n1 k r) ∧ v.actor = s.actor ∧ n1.addr = n.addr ∧ n1.rword = n.rword ∧ n1.die = n.die := by
  obtain ⟨hm, hn, hp⟩ := h
  unfold Came at hm
  have ours : ¬ (n.fn ≠ 1 ∨ peer ≠ rwDev n.rword ∨ k.st = .saved) := fun h => h.elim (· hf) (fun h => h.elim (· hp) hs)
  cases hl with
  | begins t free ht =>
    refine ⟨?_, rfl, rfl, rfl, rfl⟩
    simp only [State.responseLand, hm, hn, hr, hk, if_neg ours, free, ht]
  | goesOn q held =>
    refine ⟨?_, rfl, rfl, rfl, rfl⟩
    simp only [State.responseLand, hm, hn, hr, hk, if_neg ours, held, if_true]

theorem getLand_done (hl : n.landing = some (m, at_, [], got)) : u.getLand m o n k r = u.getLanded m o n := by
  simp only [State.getLand, hl, if_true]

/-- A line or block of a response lands, with the lines that it completes (R169, R170, R384). -/
theorem getLand_lands {ps : List (Spot × Nat)} (hl : n.landing = some (m, at_, xs, got)) (hx : xs ≠ [])
    (hp : u.piecesOf k k.ctxid kWrite (n.addr + at_) (getStep (n.addr + at_) xs.length) = .ok ps) :
    let len := getStep (n.addr + at_) xs.length
    let left := dropRange at_ len n.left
    let ls := netLanded k n left
    let w := ((u.writePieces o.crew ps (xs.take len)).modReq n.die r.seq (fun r => { r with unland := dropRange at_ len r.unland })).landLines o.crew ls
    let n2 := { n with left := left, lines := n.lines.filter (fun l => !(ls.contains l)), landing := some (m, at_ + len, xs.drop len, got + len) }
    u.getLand m o n k r = if len < xs.length then w.setNet o.id n2 else w.getLanded m o n2 := by
  simp only [State.getLand, hl, if_neg hx, hp, State.getLines]

theorem getLand_faults {f : EFault} (hl : n.landing = some (m, at_, xs, got)) (hx : xs ≠ [])
    (hp : u.piecesOf k k.ctxid kWrite (n.addr + at_) (getStep (n.addr + at_) xs.length) = .error f) :
    u.getLand m o n k r = (((((u.takeMsg m).netErr o.crew (netLocal f) 1 (some (rwDev n.rword)) (some f.va)).dropOwn n).landLines o.crew n.lines).netBar
      o n (.settle (rangeSum n.left + got) 66)).endEng o (some 1) := by
  simp only [State.getLand, hl, if_neg hx, hp, State.getFail, NetOp.unaccounted]
  rfl

theorem getLanded_eq (hl : n.landing = some (m, at_, xs, got)) :
    let t := if got = 0 then u.takeMsg m else (u.takeMsg m).netBar o n (.land got)
    u.getLanded m o n = if n.left = [] then (t.dropOwn n).endEng o none else t.setNet o.id { n with landing := none } := by
  simp only [State.getLanded, hl, NetOp.unaccounted]

/-- A response without a token that has not ended is late, and one that comes while another lands waits (R376). -/
theorem responseLand_late (h : Hears s m peer (.rmaResp lo tok bs edge) seen o n) (hr : s.ownReq? n.die n.mid = some r)
    (hk : s.crews[o.crew]? = some k) (hl : n.landing = none) (ht : s.tokenFor n.die tok r lo bs.length = none) :
    s.responseLand m = s.takeMsg m := by
  obtain ⟨hm, hn, -⟩ := h
  unfold Came at hm
  simp only [State.responseLand, hm, hn, hr, hk, hl, ht, ite_self]

theorem responseLand_waits {x : Nat} {q : Nat × List MByte × Nat} (h : Hears s m peer (.rmaResp lo tok bs edge) seen o n) (hf : n.fn = 1)
    (hr : s.ownReq? n.die n.mid = some r) (hk : s.crews[o.crew]? = some k) (hs : k.st ≠ .saved) (hl : n.landing = some (x, q)) (hx : x ≠ m) :
    s.responseLand m = s := by
  obtain ⟨hm, hn, hp⟩ := h
  unfold Came at hm
  have ours : ¬ (n.fn ≠ 1 ∨ peer ≠ rwDev n.rword ∨ k.st = .saved) := fun h => h.elim (· hf) (fun h => h.elim (· hp) hs)
  simp only [State.responseLand, hm, hn, hr, hk, if_neg ours, hl, if_neg hx]

theorem responseLand_drops {mid : Nat} (h : Came s m peer mid (.rmaResp lo tok bs edge) seen)
    (hn : s.net? mid = none ∨ ∃ o n k, s.net? mid = some (o, n) ∧ s.crews[o.crew]? = some k ∧ k.st = .saved) :
    s.responseLand m = s.takeMsg m := by
  unfold Came at h
  rcases hn with hn | ⟨o, n, k, hn, hk, hs⟩
  · simp only [State.responseLand, h, hn]
  · simp only [State.responseLand, h, hn, hk]
    cases s.ownReq? n.die mid with
    | none => rfl
    | some r => exact if_pos (.inr (.inr hs))

theorem transferTimeout_get (ho : s.op? id = some o) (he : o.eng = some (.net n)) (hk : s.crews[o.crew]? = some k) (hs : k.st ≠ .saved) (hf : n.fn = 1) :
    s.transferTimeout id = s.asOp o (fun s => s.getTimeout o n k) := by
  simp only [State.transferTimeout, ho, he, hk, hf, if_neg hs, if_true]

/-- The answers of a GET that are due. -/
def dueAsks (s : State) (n : NetOp) : List (Nat × Nat × Nat) :=
  n.asks.filter (fun a => decide (a.2.2 + irXferto (s.iris n.die).cfg ≤ s.dtime))

/-- The ranges of a GET without an answer for XFERTO settle (R379). -/
theorem getTimeout_none (h : dueAsks u n = []) : u.getTimeout o n k = u := if_pos h

theorem getTimeout_settles (h : dueAsks u n ≠ []) :
    let due := dueAsks u n
    let cut := fun (rs : List (Nat × Nat)) => due.foldl (fun rs a => dropRange a.1 a.2.1 rs) rs
    let whole := heldDone n.addr n.len (cut n.left) n.held
    let q := (u.netErr o.crew 6 1 (some (rwDev n.rword)) (target n)).getHeld o { n with left := cut n.left } k whole
    let ls := netLanded k q.2 q.2.left
    let n2 := { q.2 with held := n.held.filter (fun h => !(whole.contains h)), lines := q.2.lines.filter (fun l => !(ls.contains l))
                         asks := n.asks.filter (fun a => !(due.contains a)) }
    let t := ((q.1.landLines o.crew ls).modIris n.die (fun x => { x with
        reqs := x.reqs.map (fun r => if r.own ∧ r.mid = n.mid then { r with ungr := cut r.ungr, unland := q.2.left } else r)
        toks := (x.toks.map (fun t => if t.mid = n.mid ∧ t.peer = u.devid.toNat then { t with left := cut t.left } else t)).filter
          (fun t => decide (t.left ≠ [])) })).netBar o n (.settle (rangeSum n.left - rangeSum (cut n.left)) 69)
    u.getTimeout o n k = if q.2.left = [] ∧ q.2.landing = none then (t.dropOwn n).endEng o (some 0)
      else (t.setNet o.id n2).stepOpDone o.crew (some 0) := if_neg h

/-- GETs by the message that comes and what of it can land, or by the answers that do not come. -/
theorem getsEnd : GetsEnd := by
  refine ⟨fun s m peer seen o n reason short h hf => (congrArg Host.Outcome.next (refusalMsg_get h hf)).trans (next_netHeard rfl rfl),
    fun s m peer lo tok bs edge seen o n k r n1 v at_ xs got h hf hr hk hs hl hn => ?_, fun s m o n at_ xs got => getLanded_eq,
    fun s m peer lo tok bs edge seen o n k r h hf hr hk hs => ⟨fun hl ht => congrArg Host.Outcome.next (responseLand_late h hr hk hl ht),
      fun x q hl hx => congrArg Host.Outcome.next (responseLand_waits h hf hr hk hs hl hx)⟩,
    fun s m peer lo tok bs edge seen mid h hn => congrArg Host.Outcome.next (responseLand_drops h hn),
    fun s id o n k ho he hk hs hf => ⟨fun hd => ?_, fun hd => ?_⟩⟩
  · obtain ⟨step, actor, addr, word, die⟩ := responseLand_lands h hf hr hk hs hl
    have lands := congrArg (Host.Outcome.next (φ := Fault) (ρ := Refusal)) step
    rw [← addr, ← word, ← die]
    refine ⟨fun hx => lands.trans (next_netHeard actor (getLand_done (by rw [hn, hx]))),
      fun ps hx hp => lands.trans (next_netHeard actor (getLand_lands hn hx hp)), fun f hx hp => lands.trans (next_netHeard actor (getLand_faults hn hx hp))⟩
  · exact (congrArg Host.Outcome.next (transferTimeout_get ho he hk hs hf)).trans ((next_asOp (t := inThread s o) rfl (getTimeout_none (u := inThread s o) hd)).trans rfl)
  · exact (congrArg Host.Outcome.next (transferTimeout_get ho he hk hs hf)).trans (next_asOp rfl (getTimeout_settles (u := inThread s o) hd))

/-- Settles O46: PUTs and GETs. -/
theorem transfersEnd : Obligations.TransfersEnd := ⟨putsEnd, getsEnd⟩

end Gets

end Sys2Proof.Machine
end

section
/-! Remote atomics and reductions in the network (R206, R385, R386, R390 to R394). -/
namespace Sys2Proof.Machine
open Sys2Proof.Laws Sys2Proof.Claims

section Atomics
variable {s : State} {m peer mid aop n d last : Nat} {rel : Bool} {rw : W64} {lanes : List RaLane} {seen : List Nat} {w : Win} {o : Op} {rs : List RaRes}
  {l : RaLane}

theorem ratomExecute_executes (h : Came s m peer mid (.ratom aop n rel rw lanes) seen) (hw : s.winFor peer 2 rw = some w) :
    let q := (inWork (s.takeMsg m) seen).raExecs w aop n rel lanes
    s.ratomExecute m = { q.1.send peer mid (.ratomReply q.2) with actor := s.actor } := by
  unfold Came at h
  simp only [State.ratomExecute, h, hw]
  rfl

theorem ratomExecute_refuses (h : Came s m peer mid (.ratom aop n rel rw lanes) seen) (hw : s.winFor peer 2 rw = none) :
    s.ratomExecute m = (s.takeMsg m).send peer mid (.ratomReply (lanes.map (fun l => ⟨l.lane, 0, 3, false⟩))) := by
  unfold Came at h
  simp only [State.ratomExecute, h, hw]

/-- A lane answers under its own number. -/
theorem raExec_lane : (s.raExec w aop n rel l).2.lane = l.lane := by
  unfold State.raExec
  split
  · rfl
  · split
    · rfl
    · split <;> rfl

theorem raExec_outside (h : w.len < l.off + n) : s.raExec w aop n rel l = (s, ⟨l.lane, 0, 3, false⟩) := if_pos h

theorem raExec_faults {f : XFault} (h : l.off + n ≤ w.len) (hx : s.xlate w.ctxid ((w.base + l.off) % 2 ^ 64) n kAtomic = .error f) :
    s.raExec w aop n rel l = (s, ⟨l.lane, 0, 4, false⟩) := by
  simp only [State.raExec, if_neg (Nat.not_lt.2 h), hx]

/-- What a lane does at its word: nothing to a poisoned one, and otherwise its operation (R206, R213, R214). -/
theorem raExec_word {key : Nat} (h : l.off + n ≤ w.len) (hx : s.xlate w.ctxid ((w.base + l.off) % 2 ^ 64) n kAtomic = .ok key) :
    s.raExec w aop n rel l = if s.bad key n then (s, ⟨l.lane, s.rd key n, 0, true⟩)
      else (((s.withHeads ((if rel then [⟨none, 2, s.actor.past⟩] else []) ++ headsIn (s.lastWrites none key n s.hist.length))).wr key n
        (atomNew aop (8 * n) (s.rd key n) l.cmp l.b)).relaxed, ⟨l.lane, s.rd key n, 0, false⟩) := by
  simp only [State.raExec, if_neg (Nat.not_lt.2 h), hx]

/-- The first of the lanes executes, then the others, after it (R385). -/
theorem raExecs_cons (ls : List RaLane) : s.raExecs w aop n rel (l :: ls) =
    (((s.raExec w aop n rel l).1.raExecs w aop n rel ls).1, (s.raExec w aop n rel l).2 :: ((s.raExec w aop n rel l).1.raExecs w aop n rel ls).2) := rfl

/-- Answers that are found for every lane are those of the lanes in order. -/
theorem answers_found {fs : List Fill} (h : ∀ f ∈ fs, ∃ r ∈ rs, r.lane = f.lane) :
    fs.map (fun f => match rs.find? (fun r => decide (r.lane = f.lane)) with | some r => r | none => ⟨f.lane, 0, 6, false⟩)
      = fs.filterMap (fun f => rs.find? (fun r => decide (r.lane = f.lane))) := by
  induction fs with
  | nil => rfl
  | cons f fs ih =>
    obtain ⟨r, hr, hl⟩ := h f List.mem_cons_self
    obtain ⟨x, hx⟩ := Option.isSome_iff_exists.1 ((List.find?_isSome (p := fun r : RaRes => decide (r.lane = f.lane))).2 ⟨r, hr, decide_eq_true hl⟩)
    rw [List.map_cons, List.filterMap_cons, hx, ih fun f hf => h f (List.mem_cons_of_mem _ hf)]

/-- The answers found for lanes are among the answers, and each is that of one of the lanes. -/
theorem mem_answers {fs : List Fill} {r : RaRes} (h : r ∈ fs.filterMap (fun f => rs.find? (fun r => decide (r.lane = f.lane)))) :
    r ∈ rs ∧ ∃ f ∈ fs, f.lane = r.lane := by
  obtain ⟨f, hf, hr⟩ := List.mem_filterMap.1 h
  exact ⟨List.mem_of_find?_eq_some hr, f, hf, Eq.symm (by simpa using List.find?_some hr)⟩

theorem raLane_good {r : RaRes} (h : r.reason = 0) :
    s.raLane o d n r = s.landLane o r.lane (loadLanes d n false r.old (fun _ => r.bad)) := by
  simp only [State.raLane, h, if_true, decide_true, Bool.and_true]

/-- Answers without a failure land, and end the operation without a flag (R385). -/
theorem raEnd_good {xs : List RaRes} (here : ∀ r ∈ xs, ∃ f ∈ o.fills, f.lane = r.lane) (good : ∀ r ∈ xs, r.reason = 0) :
    s.raEnd o d n rw xs none = ((xs.foldl (fun s r => s.landLane o r.lane (loadLanes d n false r.old (fun _ => r.bad))) s).modOp o.id
      (fun o => { o with fills := [] })).endEng o none := by
  have all : xs.filter (fun r => o.fills.any (fun f => decide (f.lane = r.lane))) = xs :=
    List.filter_eq_self.2 fun r hr => List.any_eq_true.2 (by obtain ⟨f, hf, hl⟩ := here r hr; exact ⟨f, hf, decide_eq_true hl⟩)
  have none_fails : xs.find? (fun r => decide (r.reason ≠ 0)) = none := List.find?_eq_none.2 fun r hr => by simp [good r hr]
  have lands : xs.foldl (fun s r => s.raLane o d n r) s
      = xs.foldl (fun s r => s.landLane o r.lane (loadLanes d n false r.old (fun _ => r.bad))) s :=
    List.foldl_ext _ _ _ fun t r hr => raLane_good (good r hr)
  simp only [State.raEnd, all, none_fails, lands]

theorem raReply_lands (h : Came s m peer mid (.ratomReply rs) seen) (hp : peer = rwDev rw)
    (ho : s.ops.findSome? (fun o => match o.eng with | some (.ra i d n _ rw) => if i = mid then some (o, d, n, rw) else none | _ => none)
      = some (o, d, n, rw)) (hf : ∀ f ∈ o.fills, ∃ r ∈ rs, r.lane = f.lane) (good : ∀ r ∈ rs, r.reason = 0) :
    let here := o.fills.filterMap (fun f => rs.find? (fun r => decide (r.lane = f.lane)))
    s.raReply m = ((here.foldl (fun s r => s.landLane o r.lane (loadLanes d n false r.old (fun _ => r.bad))) (s.takeMsg m)).modOp o.id
      (fun o => { o with fills := [] })).endEng o none := by
  unfold Came at h
  have flag : (o.fills.filterMap (fun f => rs.find? (fun r => decide (r.lane = f.lane)))).any (fun r => decide (r.reason ≠ 0)) = false :=
    List.any_eq_false.2 fun r hr => by simp [good r (mem_answers hr).1]
  simp only [State.raReply, h]
  split
  next o' d' n' rw' found =>
    obtain ⟨rfl, rfl, rfl, rfl⟩ : o = o' ∧ d = d' ∧ n = n' ∧ rw = rw' := by
      simpa using (Option.some.inj (found.symm.trans ho)).symm
    refine (if_pos hp).trans ((congrArg (fun xs => (s.takeMsg m).raEnd o d n rw xs (if xs.any (fun r => decide (r.reason ≠ 0)) then some 1 else none))
      (answers_found hf)).trans ?_)
    simp only [flag]
    exact raEnd_good (fun r hr => (mem_answers hr).2) (fun r hr => good r (mem_answers hr).1)
  next gone => exact nomatch gone.symm.trans ho

/-- Remote atomics by the window that they name, lane by lane. -/
theorem remoteAtomicsExecute : RemoteAtomicsExecute := by
  refine ⟨fun s m peer mid aop n rel rw lanes seen w h hw => congrArg Host.Outcome.next (ratomExecute_executes h hw),
    fun s m peer mid aop n rel rw lanes seen h hw => congrArg Host.Outcome.next (ratomExecute_refuses h hw),
    fun s w aop n rel l ls => ⟨_, _, raExecs_cons ls, raExec_lane, fun h => ?_, fun f h hx => ?_, fun key h hx => ?_⟩,
    fun s m peer rs seen o mid d n last rw h hp _ ho hf good => congrArg Host.Outcome.next (raReply_lands h hp ho hf good)⟩
  · rw [raExec_outside h]; exact ⟨rfl, rfl⟩
  · rw [raExec_faults h hx]; exact ⟨rfl, rfl⟩
  · rw [raExec_word h hx]
    cases s.bad key n with
    | true => exact ⟨rfl, rfl, rfl, fun _ => rfl, fun h => Bool.noConfusion h⟩
    | false => exact ⟨rfl, rfl, rfl, fun h => Bool.noConfusion h, fun _ => rfl⟩

end Atomics

section Reductions
variable {s : State} {id m peer mid b : Nat} {c : Contrib} {seen : List Nat} {x : SwSlot} {o : Op} {n : NetOp} {k : Crew}

/-- The switch once it has closed what is due: the closed keys whose time has passed are forgotten (R393). -/
def settledSwitch (s : State) (m : Nat) : State :=
  let v := (s.takeMsg m).slotsDue
  { v with closed := v.closed.filter (fun k => decide (s.dtime ≤ k.2.2.2)) }

/-- A key is closed (R393). -/
def KeyShut (t : State) (c : Contrib) : Prop := ∃ k ∈ t.closed, k.1 = c.fgrp ∧ k.2.1 = c.cseq ∧ k.2.2.1 = c.op

theorem keyShut_iff {t : State} : t.closed.any (fun k => decide (k.1 = c.fgrp ∧ k.2.1 = c.cseq ∧ k.2.2.1 = c.op)) = true ↔ KeyShut t c := by
  simp only [List.any_eq_true, decide_eq_true_eq, KeyShut]

theorem redArrive_shut (h : Came s m peer mid (.contrib c) seen) (hs : KeyShut (settledSwitch s m) c) :
    s.redArrive m = (settledSwitch s m).redAnswer peer mid 2 := by
  unfold Came at h
  simp only [State.redArrive, h]
  exact if_pos (keyShut_iff.2 hs)

/-- A slot has taken an input, and closes where every input below has reached it (R393). -/
def slotTakes (t : State) (c : Contrib) (y : SwSlot) : State := if Config.swBelow c.fgrp ≤ popMask y.ranks then t.closeSlot y else t

/-- An arrival with an open key, by the slot of the key (R393). -/
def keyArrives (t : State) (now peer mid : Nat) (c : Contrib) : State :=
  match t.slots.find? (fun x => x.head.sameKey c) with
  | some x =>
    if x.mismatch c then t.redAnswer peer mid 3
    else
      let y : SwSlot := { x with inputs := x.inputs ++ [(c, peer, mid)] }
      slotTakes { t with slots := t.slots.map (fun z => if z.id = x.id then y else z) } c y
  | none =>
    if 4096 ≤ t.slots.length then t.redAnswer peer mid 4
    else
      let y : SwSlot := ⟨t.nextMsg, c, [(c, peer, mid)], now⟩
      slotTakes { t with slots := t.slots ++ [y], nextMsg := t.nextMsg + 1 } c y

theorem redArrive_open (h : Came s m peer mid (.contrib c) seen) (hs : ¬ KeyShut (settledSwitch s m) c) :
    s.redArrive m = keyArrives (settledSwitch s m) s.dtime peer mid c := by
  unfold Came at h
  simp only [State.redArrive, h]
  exact if_neg (mt keyShut_iff.1 hs)

section Keys
variable {t : State} {now : Nat}

theorem keyArrives_mismatch (hx : t.slots.find? (fun x => x.head.sameKey c) = some x) (hm : x.mismatch c = true) :
    keyArrives t now peer mid c = t.send peer mid (.redResult 3 false 0 []) := by
  simp only [keyArrives, hx, hm, if_true, State.redAnswer]

theorem keyArrives_full (hx : t.slots.find? (fun x => x.head.sameKey c) = none) (hl : 4096 ≤ t.slots.length) :
    keyArrives t now peer mid c = t.send peer mid (.redResult 4 false 0 []) := by
  simp only [keyArrives, hx, if_pos hl, State.redAnswer]

theorem keyArrives_adds (hx : t.slots.find? (fun x => x.head.sameKey c) = some x) (hm : x.mismatch c = false) :
    let y : SwSlot := { x with inputs := x.inputs ++ [(c, peer, mid)] }
    keyArrives t now peer mid c = slotTakes { t with slots := t.slots.map (fun z => if z.id = x.id then y else z) } c y := by
  simp only [keyArrives, hx, hm, Bool.false_eq_true, if_false]

theorem keyArrives_opens (hx : t.slots.find? (fun x => x.head.sameKey c) = none) (hl : t.slots.length < 4096) :
    let y : SwSlot := ⟨t.nextMsg, c, [(c, peer, mid)], now⟩
    keyArrives t now peer mid c = slotTakes { t with slots := t.slots ++ [y], nextMsg := t.nextMsg + 1 } c y := by
  simp only [keyArrives, hx, if_neg (Nat.not_le.2 hl)]

end Keys

theorem slotTimeout_eq (hx : s.slots.find? (fun x => decide (x.id = id)) = some x) :
    s.slotTimeout id = if x.opened + x.head.timeout ≤ s.dtime then s.closeSlot x else s := by
  simp only [State.slotTimeout, hx]

/-- A switch that is not the root forwards its partials (R393, R394). -/
theorem closeSlot_forwards (h : Config.swRoot x.head.fgrp = false) : s.closeSlot x =
    { s with slots := s.slots.filter (fun y => decide (y.id ≠ x.id))
             closed := s.closed ++ [(x.head.fgrp, x.head.cseq, x.head.op, s.dtime + 4 * x.head.timeout)]
             up := s.up ++ [slotPartial x.head (x.inputs.map Prod.fst) x.ranks] } :=
  if_pos (by rw [h]; rfl)

theorem resultLand_goesOn {st : Nat} {bs : List Byte} (hn : s.netOf id = some (o, n)) (hk : s.crews[o.crew]? = some k) (hs : k.st ≠ .saved) (hf : n.fn = 3)
    (hr : n.result = some (st, bs)) : s.resultLand id b = s.asOp o (fun s => s.redLand o n st bs b) := by
  have lands : ¬ (n.fn ≠ 3 ∨ k.st = .saved) := fun h => h.elim (· hf) hs
  simp only [State.resultLand, hn, hk, if_neg lands, hr]

/-- The header and payload of an answer as they land (R391). -/
theorem redBytes_eq (n : NetOp) (st : Nat) (ns : Bool) (rk : W64) (pl : List Byte) : redBytes n st ns rk pl =
    natLe 32 (redHeader ((n.grp.map RedGrp.fgrp).getD 0) (bitsOf n.rword 31 0) st ns rk pl.length) ++ pl := by
  unfold redBytes
  cases n.grp <;> rfl

theorem resultLand_begins {st : Nat} {ns : Bool} {rk : W64} {pl : List Byte} (hn : s.netOf id = some (o, n)) (hk : s.crews[o.crew]? = some k)
    (hs : k.st ≠ .saved) (hf : n.fn = 3) (hr : n.result = none) (ha : n.asked = true) (hm : s.redAnswer? n.mid = some (m, .redResult st ns rk pl)) :
    s.resultLand id b = ((s.takeMsg m).setNet id (n.take st (redBytes n st ns rk pl))).asOp o
      (fun s => s.redLand o (n.take st (redBytes n st ns rk pl)) st (redBytes n st ns rk pl) b) := by
  have lands : ¬ (n.fn ≠ 3 ∨ k.st = .saved) := fun h => h.elim (· hf) hs
  simp only [State.resultLand, hn, hk, if_neg lands, hr, hm, ha, Bool.not_true, Bool.false_eq_true, if_false]

theorem unreachable_answers (hn : s.netOf id = some (o, n)) (hf : n.fn = 3) (ha : n.asked = true) (hr : n.result = none)
    (hm : s.redAnswer? n.mid = none) (ht : Silent s n.last n.die) : s.unreachable id = s.setNet o.id (n.take 5 (redBytes n 5 false 0 [])) := by
  simp only [State.unreachable, hn]
  exact if_pos ⟨hf, ha, hr, by rw [hm]; rfl, ht⟩

theorem unreachable_waits (hn : s.netOf id = some (o, n)) (ht : ¬ Silent s n.last n.die) : s.unreachable id = s := by
  simp only [State.unreachable, hn]
  refine if_neg fun due => ?_
  obtain ⟨-, -, -, -, silent⟩ := due
  exact ht silent

/-- Reductions by the key that arrives, the slot that closes and the answer that lands. -/
theorem reductionsComplete : ReductionsComplete := by
  refine ⟨fun s m peer mid c seen h => ⟨fun hs => congrArg Host.Outcome.next (redArrive_shut h hs),
      fun x hs hx hm => congrArg Host.Outcome.next ((redArrive_open h hs).trans (keyArrives_mismatch hx hm)),
      fun hs hx hl => congrArg Host.Outcome.next ((redArrive_open h hs).trans (keyArrives_full hx hl)),
      fun x hs hx hm => congrArg Host.Outcome.next ((redArrive_open h hs).trans (keyArrives_adds hx hm)),
      fun hs hx hl => congrArg Host.Outcome.next ((redArrive_open h hs).trans (keyArrives_opens hx hl))⟩,
    fun s id x hx => congrArg Host.Outcome.next (slotTimeout_eq hx), fun s => rfl, fun s x => closeSlot_forwards,
    fun s id o n k st bs b hn hk hs hf hr => (congrArg Host.Outcome.next (resultLand_goesOn hn hk hs hf hr)).trans (next_asOp rfl rfl),
    fun s id o n k m st ns rk pl b hn hk hs hf hr ha hm => ?_, fun s id o n hn hf ha hr hm ht => ?_,
    fun s id o n hn ht => congrArg Host.Outcome.next (unreachable_waits hn ht)⟩
  · rw [← redBytes_eq]
    exact (congrArg Host.Outcome.next (resultLand_begins hn hk hs hf hr ha hm)).trans (next_asOp rfl rfl)
  · exact (congrArg Host.Outcome.next (unreachable_answers hn hf ha hr hm ht)).trans (by rw [redBytes_eq, List.append_nil]; rfl)

end Reductions

/-- Settles O47: remote atomics and reductions. -/
theorem remoteAtomicsAndReductions : Obligations.RemoteAtomicsAndReductions := ⟨remoteAtomicsExecute, reductionsComplete⟩

end Sys2Proof.Machine
end

section
/-! Power and errors (R307, R397, R408 to R414, R417): the allowances of cores, the thermal clamp, and what an error in a granule does. -/
namespace Sys2Proof.Machine
open Sys2Proof.Laws Sys2Proof.Claims

section Power
variable {s : State} {die core vec mat : Nat} {d : Die}

/-- A record of an event changes neither the crews, contexts and operations, nor the dies, the allowances, the clamp and the counts of errors. -/
theorem event_keeps (s : State) (die core : Nat) (kind : EvKind) (addr : Nat) (x : Bool) : let t := s.event die core kind addr x
    t.crews = s.crews ∧ t.dies = s.dies ∧ t.ops = s.ops ∧ t.ctxs = s.ctxs ∧ t.throttle = s.throttle ∧ t.clamp = s.clamp ∧ t.errs = s.errs := by
  unfold State.event
  dsimp only
  split
  · exact ⟨rfl, rfl, rfl, rfl, rfl, rfl, rfl⟩
  · split
    · simp only [wr_crews, wr_dies, wr_ops, wr_ctxs, wr_throttle, wr_clamp, wr_errs, and_self]
    · exact ⟨rfl, rfl, rfl, rfl, rfl, rfl, rfl⟩

/-- The host's memory alone holds the record (R414). -/
theorem event_mem {kind : EvKind} {addr a : Nat} {x : Bool} (ha : a < 3 * 2 ^ 52) (hw : s.mem.wf = true) :
    (s.event die core kind addr x).mem.get a = s.mem.get a := by
  unfold State.event
  dsimp only
  split
  · rfl
  · split
    · simp only [wr_mem]
      exact wrBytes_other _ hw (.inl (by unfold memKey; omega))
    · rfl

/-- The keys of two cores are two (R408). -/
theorem coreKey_inj {a b c d : Nat} (hb : b < 268) (hd : d < 268) : coreKey a b = coreKey c d ↔ a = c ∧ b = d := by
  unfold coreKey; omega

/-- A core has these allowances (R408). -/
def putAllowance (s : State) (die core vec mat : Nat) : State :=
  { s with throttle := s.throttle.set (coreKey die core) (BitVec.ofNat 16 ((100 - vec) * 256 + (100 - mat))) }

/-- An allowance that is written is read; those of the other cores stay. -/
theorem allowance_set (hw : s.throttle.wf = true) (hv : vec ≤ 100) (hm : mat ≤ 100) (x y : Nat) :
    (putAllowance s die core vec mat).allowance x y = if coreKey x y = coreKey die core then (vec, mat) else s.allowance x y := by
  simp only [State.allowance, putAllowance, get_set hw]
  split
  · have small : ((100 - vec) * 256 + (100 - mat)) % 2 ^ 16 = (100 - vec) * 256 + (100 - mat) := Nat.mod_eq_of_lt (by omega)
    rw [BitVec.toNat_ofNat, small]
    refine Prod.ext ?_ ?_ <;> dsimp only <;> omega
  · rfl

/-- The limits of an allowance: 25 % and 100 %, under the clamp 50 % (R408, R409). -/
def Allowed (s : State) (die vec mat : Nat) : Prop :=
  25 ≤ vec ∧ vec ≤ 100 ∧ 25 ≤ mat ∧ mat ≤ 100 ∧ (s.clamp.getLsbD die = true → vec ≤ 50 ∧ mat ≤ 50)

theorem setAllowance_allowed (h : Allowed s die vec mat) (hd : die < 2) (hc : core < 268) : s.setAllowance die core vec mat =
    putAllowance s die core vec mat := by
  obtain ⟨v25, v100, m25, m100, clamped⟩ := h
  refine if_pos ?_
  split
  next on => exact ⟨v25, (clamped on).1, m25, (clamped on).2, hd, hc⟩
  next => exact ⟨v25, v100, m25, m100, hd, hc⟩

theorem setAllowance_outside (h : vec < 25 ∨ mat < 25 ∨ 100 < vec ∨ 100 < mat ∨ (s.clamp.getLsbD die = true ∧ (50 < vec ∨ 50 < mat))) :
    s.setAllowance die core vec mat = s := by
  refine if_neg fun inside => ?_
  split at inside
  next => omega
  next off => rw [Bool.not_eq_true] at off; rw [off] at h; simp only [Bool.false_eq_true, false_and, or_false] at h; omega

/-- The budget that PWRSET set takes effect with the next window (R408, R417); nothing else of the die changes. -/
theorem budgetWindow_die (hd : s.dies[die]? = some d) : (s.budgetWindow die).dies[die]? = some
    { d with budget := s.powerBudget die, nextBudget := if d.budget = s.powerBudget die then d.nextBudget else none } := modDie_get hd

theorem powerBudget_eq (hd : s.dies[die]? = some d) : s.powerBudget die =
    match d.nextBudget with | some (b, t) => if t / 1000 < s.dtime / 1000 then b else d.budget | none => d.budget := by
  simp only [State.powerBudget, hd] <;> rfl

/-- What a power manager's step comes to where it may grant (R408). -/
def granted (s : State) (die core vec mat : Nat) : State :=
  let u := (s.setAllowance die core vec mat).modDie die (fun d =>
    { d with granted := (core, s.dtime / 1000) :: d.granted.filter (fun g => decide (g.1 ≠ core)) })
  let a := s.allowance die core
  let b := u.allowance die core
  if b.1 < a.1 ∨ b.2 < a.2 then u.event die core .power (256 * b.1 + b.2) false else u

/-- Reporting changes no allowance and no clamp. -/
theorem event_power (s : State) (die core : Nat) (kind : EvKind) (addr : Nat) (x : Bool) :
    (s.event die core kind addr x).throttle = s.throttle ∧ (s.event die core kind addr x).clamp = s.clamp := by
  obtain ⟨-, -, -, -, throttle, clamp, -⟩ := event_keeps s die core kind addr x
  exact ⟨throttle, clamp⟩

/-- Allowances are what is taken off, and nothing else counts. -/
theorem allowance_congr {t : State} (h : t.throttle = s.throttle) (x y : Nat) : t.allowance x y = s.allowance x y := by
  simp only [State.allowance, h]

theorem allowance_modDie {f : Die → Die} (x y z : Nat) : (s.modDie x f).allowance y z = s.allowance y z := rfl

theorem granted_throttle : (granted s die core vec mat).throttle = (s.setAllowance die core vec mat).throttle := by
  unfold granted
  dsimp only
  split
  · exact (event_power _ _ _ _ _ _).1
  · rfl

/-- A grant that is within its limits is what the core has, reported where it is less than before. -/
theorem granted_eq (h : s.setAllowance die core vec mat = putAllowance s die core vec mat)
    (own : (putAllowance s die core vec mat).allowance die core = (vec, mat)) : granted s die core vec mat =
      let u := (putAllowance s die core vec mat).modDie die (fun d =>
        { d with granted := (core, s.dtime / 1000) :: d.granted.filter (fun g => decide (g.1 ≠ core)) })
      if vec < (s.allowance die core).1 ∨ mat < (s.allowance die core).2 then u.event die core .power (256 * vec + mat) false else u := by
  simp only [granted, h, allowance_modDie, own]

theorem grantable_iff : Grantable s d die core vec mat ↔ ¬ (d.granted.contains (core, s.dtime / 1000) = true
    ∨ (!(if Config.matrixLeads die core (s.dtime / 1000) then decide (mat ≤ vec) else decide (vec ≤ mat))) = true) := by
  unfold Grantable
  cases Config.matrixLeads die core (s.dtime / 1000) <;> simp

theorem grantPower_eq (hd : s.dies[die]? = some d) : s.grantPower die core vec mat =
    if d.granted.contains (core, s.dtime / 1000) = true
      ∨ (!(if Config.matrixLeads die core (s.dtime / 1000) then decide (mat ≤ vec) else decide (vec ≤ mat))) = true then s
    else granted s die core vec mat := by
  simp only [State.grantPower, hd]
  rfl

end Power

section Clamp
variable {s : State} {die : Nat}

/-- Both allowances of a core fall to at most 50 % (R409). -/
def lowered (die : Nat) (s : State) (core : Nat) : State :=
  s.setAllowance die core (min (s.allowance die core).1 50) (min (s.allowance die core).2 50)

theorem lowered_eq {core : Nat} (hd : die < 2) (hc : core < 268) (h1 : 25 ≤ (s.allowance die core).1) (h2 : 25 ≤ (s.allowance die core).2) :
    lowered die s core = putAllowance s die core (min (s.allowance die core).1 50) (min (s.allowance die core).2 50) :=
  setAllowance_allowed ⟨by omega, by omega, by omega, by omega, fun _ => by omega⟩ hd hc

/-- The allowances of the cores of a list fall, those of the others stay, and nothing else changes. -/
theorem foldl_lowered (hd : die < 2) (l : List Nat) (hl : ∀ c ∈ l, c < 268) (nd : l.Nodup) (hw : s.throttle.wf = true)
    (h25 : ∀ c ∈ l, 25 ≤ (s.allowance die c).1 ∧ 25 ≤ (s.allowance die c).2) :
    (∃ th, l.foldl (lowered die) s = { s with throttle := th }) ∧ ∀ x, ∀ c < 268, (l.foldl (lowered die) s).allowance x c =
      if x = die ∧ c ∈ l then (min (s.allowance x c).1 50, min (s.allowance x c).2 50) else s.allowance x c := by
  induction l generalizing s with
  | nil => exact ⟨⟨_, rfl⟩, fun x c _ => (if_neg fun h => List.not_mem_nil h.2).symm⟩
  | cons y l ih =>
    obtain ⟨fresh, nd⟩ := List.nodup_cons.1 nd
    have hy := hl y List.mem_cons_self
    obtain ⟨y1, y2⟩ := h25 y List.mem_cons_self
    have first := lowered_eq hd hy y1 y2
    have now : ∀ x, ∀ c < 268, (lowered die s y).allowance x c =
        if x = die ∧ c = y then (min (s.allowance die y).1 50, min (s.allowance die y).2 50) else s.allowance x c := fun x c hc => by
      rw [first, allowance_set hw (by omega) (by omega)]
      simp only [coreKey_inj hc hy]
    have later : ∀ c ∈ l, (lowered die s y).allowance die c = s.allowance die c := fun c hc =>
      (now die c (hl c (List.mem_cons_of_mem _ hc))).trans (if_neg fun (h : die = die ∧ c = y) => fresh (h.2 ▸ hc))
    obtain ⟨⟨th, rest⟩, reads⟩ := ih (s := lowered die s y) (fun c hc => hl c (List.mem_cons_of_mem _ hc)) nd (by rw [first]; exact set_wf hw)
      (fun c hc => by rw [later c hc]; exact h25 c (List.mem_cons_of_mem _ hc))
    refine ⟨⟨th, by rw [List.foldl_cons, rest, first]; rfl⟩, fun x c hc => ?_⟩
    rw [List.foldl_cons, reads x c hc, now x c hc]
    by_cases hx : x = die
    · subst hx
      by_cases hcy : c = y
      · subst hcy; simp [fresh]
      · simp [hcy]
    · simp [hx]

/-- The bit of one die in the clamp. -/
theorem getLsbD_die {x : Nat} (hd : die < 2) : (1#2 <<< die).getLsbD x = decide (x = die) := by
  rw [BitVec.getLsbD_shiftLeft, BitVec.getLsbD_one]
  by_cases h : x = die
  · subst h; simp [hd]
  · simp only [h, decide_false]
    by_cases hl : x < die <;> simp [hl]
    omega

/-- The state with the clamp on and the allowances of the die lowered (R409). -/
def clampedDie (s : State) (die : Nat) : State := (List.range 268).foldl (lowered die) { s with clamp := s.clamp ||| (1#2 <<< die) }

theorem clampDie_eq (hd : die < 2) :
    s.clampDie die = if s.clamp.getLsbD die then clampedDie s die else (clampedDie s die).event die 0 .clamp 0 false := if_neg (Nat.not_le.2 hd)

theorem unclamp_eq (hd : die < 2) : s.unclamp die =
    if s.clamp.getLsbD die = true then ({ s with clamp := s.clamp &&& ~~~(1#2 <<< die) } : State).event die 0 .clampEnd 0 false else s := by
  simp only [State.unclamp, hd, true_and]

end Clamp

/-- A grant within the limits, in the window's first and with the larger consumer's allowance no higher than the other's, is what the core gets. -/
theorem powerWindow_grants {s : State} {die core vec mat : Nat} {d : Die} (hd : s.dies[die]? = some d) (h2 : die < 2) (hc : core < 268)
    (ha : Allowed s die vec mat) (hw : s.throttle.wf = true) (hg : Grantable s d die core vec mat) :
    ∃ t, exec (.powerWindow die core vec mat) s = .next t ∧ t.allowance die core = (vec, mat)
      ∧ (let u := ({ s.budgetWindow die with throttle := t.throttle } : State).modDie die (fun d =>
          { d with granted := (core, s.dtime / 1000) :: d.granted.filter (fun g => decide (g.1 ≠ core)) })
        t = if vec < (s.allowance die core).1 ∨ mat < (s.allowance die core).2 then u.event die core .power (256 * vec + mat) false else u)
      ∧ (∀ d c, d < 2 → c < 268 → (d, c) ≠ (die, core) → t.allowance d c = s.allowance d c) := by
  obtain ⟨v25, v100, m25, m100, clamped⟩ := ha
  have puts : (s.budgetWindow die).setAllowance die core vec mat = putAllowance (s.budgetWindow die) die core vec mat :=
    setAllowance_allowed (s := s.budgetWindow die) ⟨v25, v100, m25, m100, clamped⟩ h2 hc
  have reads : ∀ x y, (putAllowance (s.budgetWindow die) die core vec mat).allowance x y =
      if coreKey x y = coreKey die core then (vec, mat) else s.allowance x y := allowance_set (s := s.budgetWindow die) hw v100 m100
  have own : (putAllowance (s.budgetWindow die) die core vec mat).allowance die core = (vec, mat) := (reads die core).trans (if_pos rfl)
  have grants : (s.budgetWindow die).grantPower die core vec mat = granted (s.budgetWindow die) die core vec mat :=
    (grantPower_eq (budgetWindow_die hd)).trans (if_neg (grantable_iff.1 hg))
  have throttle : (granted (s.budgetWindow die) die core vec mat).throttle = (putAllowance (s.budgetWindow die) die core vec mat).throttle :=
    granted_throttle.trans (congrArg State.throttle puts)
  refine ⟨_, congrArg Host.Outcome.next grants, (allowance_congr throttle die core).trans own, ?_, fun x c _ hc' hne => ?_⟩
  · rw [throttle]
    exact granted_eq puts own
  · refine (allowance_congr throttle x c).trans ((reads x c).trans (if_neg fun same => hne ?_))
    obtain ⟨rfl, rfl⟩ := (coreKey_inj hc' hc).1 same
    rfl

/-- Power by window, clamp and release. -/
theorem powerSetsAllowances : PowerSetsAllowances := by
  refine ⟨fun s die core vec mat d hd h2 hc v25 v100 m25 m100 clamped hw hg => powerWindow_grants hd h2 hc ⟨v25, v100, m25, m100, clamped⟩ hw hg,
    fun s die core vec mat h => ?_, fun s die core vec mat d hd hg => congrArg Host.Outcome.next ?_, fun s die d hd => ?_,
    fun s die h2 hw h25 => ?_, fun s die h2 => ?_⟩
  · refine ⟨_, rfl, ?_⟩
    cases hd : (s.budgetWindow die).dies[die]? with
    | none => simp only [State.grantPower, hd]; rfl
    | some d =>
      by_cases hg : Grantable (s.budgetWindow die) d die core vec mat
      · rw [grantPower_eq hd, if_neg (grantable_iff.1 hg)]
        exact granted_throttle.trans ((congrArg State.throttle (setAllowance_outside (s := s.budgetWindow die) h)).trans rfl)
      · rw [grantPower_eq hd, if_pos (not_not.1 (mt grantable_iff.2 hg))]
        rfl
  · exact (grantPower_eq (budgetWindow_die hd)).trans (if_pos (not_not.1 (mt grantable_iff.2 hg)))
  · refine ⟨_, budgetWindow_die hd, rfl, rfl, fun b t hn => ?_, fun hn => ?_, fun x hx => ?_⟩
    · rw [powerBudget_eq hd, hn]
    · rw [powerBudget_eq hd, hn]
    · exact (modAt_get).trans (if_neg hx)
  · obtain ⟨⟨th, rest⟩, reads⟩ := foldl_lowered (s := { s with clamp := s.clamp ||| (1#2 <<< die) }) h2 (List.range 268)
      (fun c hc => List.mem_range.1 hc) List.nodup_range hw (fun c hc => h25 c (List.mem_range.1 hc))
    have whole : clampedDie s die = { s with clamp := s.clamp ||| (1#2 <<< die), throttle := th } := rest
    have power : (s.clampDie die).throttle = th ∧ (s.clampDie die).clamp = s.clamp ||| (1#2 <<< die) := by
      rw [clampDie_eq h2, whole]
      split
      · exact ⟨rfl, rfl⟩
      · exact event_power _ _ _ _ _ _
    obtain ⟨throttle, clamp⟩ := power
    have same : (s.clampDie die).throttle = (clampedDie s die).throttle := by rw [throttle, whole]
    refine ⟨_, rfl, ?_, ?_, fun c hc => ?_, fun x c _ hx hc => ?_⟩
    · rw [clamp, BitVec.getLsbD_or, getLsbD_die h2, decide_eq_true rfl, Bool.or_true]
    · rw [throttle, clamp, clampDie_eq h2, whole]
    · rw [allowance_congr same]
      exact (reads die c hc).trans (if_pos ⟨rfl, List.mem_range.2 hc⟩)
    · rw [allowance_congr same]
      exact (reads x c hc).trans (if_neg fun h => hx h.1)
  · have released : ∀ x, (s.clamp &&& ~~~(1#2 <<< die)).getLsbD x = (s.clamp.getLsbD x && !decide (x = die)) := fun x => by
      rw [BitVec.getLsbD_and, BitVec.getLsbD_not, getLsbD_die h2]
      by_cases hx : x < 2
      · simp [hx]
      · simp [hx, BitVec.getLsbD_of_ge _ x (Nat.not_lt.1 hx)]
    refine ⟨_, congrArg Host.Outcome.next (unclamp_eq h2), ?_⟩
    by_cases on : s.clamp.getLsbD die = true
    · simp only [if_pos on, (event_power _ _ _ _ _ _).2, released]
      exact ⟨by simp, trivial, fun x hx => by simp [hx]⟩
    · simp only [if_neg on]
      exact ⟨by simpa using on, trivial, fun x hx => trivial⟩

section Errors
variable {s : State} {g : Granule} {ci x r : Nat} {f : Crew → Crew} {k : Crew} {c : SCtx}

/-- A granule of a crew's storage lies with its crew, and is poisoned there (R412). -/
theorem granuleRow_poisons (h : GranuleRow g ci f) (k : Crew) : k.poisonGranule g = f k := by
  cases h with
  | lane | scratch | tile | tag => rfl
  | scalar _ _ _ h => exact if_pos h
  | mask _ _ _ h => exact if_pos h
  | acc _ _ _ h => exact if_pos h

theorem granuleRow_at (h : GranuleRow g ci f) (hk : s.crews[ci]? = some k) : s.granuleAt g = (k.die, k.core) := by
  cases h <;> simp only [State.granuleAt, State.granuleOwner, granuleCrew, hk]

theorem uncorrectable_row (h : GranuleRow g ci f) : s.uncorrectable g = if s.crewIs (fun k => decide (k.st = .running)) ci = true
    then (s.modCrew ci (fun k => k.poisonGranule g)).event (s.granuleAt g).1 (s.granuleAt g).2 (.granule (structNo g)) (granuleNo g) false else s := by
  cases h <;> rfl

theorem uncorrectable_crew (h : GranuleRow g ci f) (hk : s.crews[ci]? = some k) (hr : k.st = .running) :
    s.uncorrectable g = (s.modCrew ci f).event k.die k.core (.granule (structNo g)) (granuleNo g) false := by
  have poisons : (fun k : Crew => k.poisonGranule g) = f := funext (granuleRow_poisons h)
  rw [uncorrectable_row h, if_pos (crewIs_iff.2 ⟨k, hk, decide_eq_true hr⟩), granuleRow_at h hk, poisons]

/-- A block or word of memory with an error loses the frames that hold it (R307, R412, R414). -/
theorem uncorrectable_block {b : Nat} (hb : 32 * b < 3 * 2 ^ 52) (ha : keyPa (32 * b) < tgtSize (keyTgt (32 * b))) : s.uncorrectable (.block b) =
    ((s.framesAt (32 * b)).foldl (fun (s : State) p => s.loseFrame p.1 p.2) { s with memPoison := s.memPoison.set b 1 }).event
      (keyDie (32 * b)) 0 (.granule 10) (32 * b) false :=
  if_pos (decide_eq_true ⟨hb, ha⟩)

theorem uncorrectable_word {w : Nat} (hb : 4 * w < 3 * 2 ^ 52) (ha : keyPa (4 * w) < tgtSize (keyTgt (4 * w))) : s.uncorrectable (.cacheWord w) =
    ((s.framesAt (4 * w)).foldl (fun (s : State) p => s.loseFrame p.1 p.2) { s with wordPoison := s.wordPoison.set w 1 }).event
      (keyDie (4 * w)) 0 (.granule 9) (4 * w) false :=
  if_pos (decide_eq_true ⟨hb, ha⟩)

theorem uncorrectable_ctx (hx : s.ctxs[x]? = some c) (hc : c.st ≠ .ended) (hk : s.crews[c.crew]? = some k) (hr : k.st = .running) (h1 : 1 ≤ r)
    (hl : r < c.sregs.length) : s.uncorrectable (.ctxScalar x r) =
      (s.modCtx x (fun c => { c with spoison := c.spoison ||| (1#64 <<< r) })).event k.die k.core (.granule 8) (x * 2 ^ 32 + r) false := by
  have lies : s.granuleAt (.ctxScalar x r) = (k.die, k.core) := by
    simp only [State.granuleAt, State.granuleOwner, hx, Option.map_some, hk]
  simp only [State.uncorrectable, hx, lies]
  exact if_pos ⟨hc, crewIs_iff.2 ⟨k, hk, decide_eq_true hr⟩, h1, hl⟩

theorem uncorrectable_core {wi : Nat} (hk : s.crews[ci]? = some k) (hr : k.st = .running) (hw : wi < k.warps.length) :
    s.uncorrectable (.core ci wi) = (s.killWarp ci wi).event k.die k.core (.granule 7) (ci * 2 ^ 32 + wi) false := by
  have lies : s.granuleAt (.core ci wi) = (k.die, k.core) := by
    simp only [State.granuleAt, State.granuleOwner, granuleCrew, hk]
  simp only [State.uncorrectable, lies]
  exact if_pos (crewIs_iff.2 ⟨k, hk, decide_eq_true ⟨hr, hw⟩⟩)

/-- A structure with its die and core, by which corrected errors are counted (R412, R414). -/
def errorStruct (s : State) (g : Granule) : Nat := structNo g + 16 * (512 * (s.granuleAt g).1 + (s.granuleAt g).2)

/-- A corrected error is one more of its structure. -/
def counted (s : State) (g : Granule) : State :=
  { s with errs := (s.countError (errorStruct s g)).1 :: s.errs.filter (fun c => decide (c.struct ≠ errorStruct s g)) }

theorem correctable_eq : s.correctable g = if (s.countError (errorStruct s g)).2 = true
    then (counted s g).event (s.granuleAt g).1 (s.granuleAt g).2 (.count (structNo g)) (s.countError (errorStruct s g)).1.count true else counted s g := rfl

/-- A count that was reported less than 1 ms ago is not reported (R414). -/
theorem countError_quiet {t0 : Nat} (ht : ((s.errs.find? (fun c => decide (c.struct = x))).getD ⟨x, 0, none⟩).told = some t0)
    (h : s.dtime < t0 + 1000000) : (s.countError x).2 = false := by
  simp only [State.countError, ht]
  exact decide_eq_false (Nat.not_le.2 h)

/-- Errors by the granule that they hit. -/
theorem errorsPoison : ErrorsPoison := by
  refine ⟨fun g ci f h s k hk hr => congrArg Host.Outcome.next (uncorrectable_crew h hk hr), fun s b hb ha => congrArg Host.Outcome.next (uncorrectable_block hb ha),
    fun s w hb ha => congrArg Host.Outcome.next (uncorrectable_word hb ha),
    fun s x c k r hx hc hk hr h1 hl => congrArg Host.Outcome.next (uncorrectable_ctx hx hc hk hr h1 hl),
    fun s ci wi k hk hr hw => congrArg Host.Outcome.next (uncorrectable_core hk hr hw), fun s g => ⟨_, congrArg Host.Outcome.next correctable_eq, ?_⟩⟩
  by_cases tell : (s.countError (errorStruct s g)).2 = true
  · simp only [if_pos tell]
    obtain ⟨crews, dies, ops, ctxs, -, -, errs⟩ := event_keeps (counted s g) (s.granuleAt g).1 (s.granuleAt g).2 (.count (structNo g))
      (s.countError (errorStruct s g)).1.count true
    refine ⟨crews, dies, ops, ctxs, fun a ha hw => event_mem (s := counted s g) ha hw, ⟨_, errs⟩, fun t0 ht h => ?_⟩
    rw [errorStruct, countError_quiet ht h] at tell
    exact Bool.noConfusion tell
  · simp only [if_neg tell]
    exact ⟨rfl, rfl, rfl, rfl, fun _ _ _ => rfl, ⟨_, rfl⟩, fun _ _ _ => rfl⟩

/-- Settles O50: the power manager's events and the errors. -/
theorem powerAndErrors : Obligations.PowerAndErrors := ⟨powerSetsAllowances, errorsPoison⟩

end Errors

end Sys2Proof.Machine
end
